-- ==== Sys2Proof/Word.lean ====
section
/-! DEFINITION. The machine's words, its number formats' names, and the operand forms that instructions are written in. -/

namespace Sys2Proof

/-- A byte is 8 bits (R1). -/
abbrev Byte := BitVec 8
/-- A generator code word (R3, R140). -/
abbrev W32 := BitVec 32
/-- A lane word, and most registers (R1). -/
abbrev W64 := BitVec 64
/-- A g register and a virtual address (R22, R149). -/
abbrev W72 := BitVec 72
/-- A sparse table: key and value pairs, keys strictly rising. -/
abbrev Tab (α : Type) := List (Nat × α)

/-- The formats of R49, untyped first (it is a tag only). Code 0x7 is reserved and has no name. -/
inductive Fmt where
  | untyped | fp32 | fp16 | bf16 | e4m3 | e5m2 | l6
  | i4 | n4 | i8 | n8 | i32 | n32 | i64 | n64
  deriving DecidableEq, Repr

/-- The rounding modes of R62. -/
inductive Rnd where
  | rne | rtz | rdn | rup | rna
  deriving DecidableEq, Repr

/-- The scopes of R32, narrowest first. -/
inductive Scope where
  | lane | core | bay | cluster | die | device | system
  deriving DecidableEq, Repr

/-- The operand types of R149. -/
inductive GTy where
  | i64 | n64 | i32 | n32 | a72
  deriving DecidableEq, Repr

/-- The relations of CMP (R154). -/
inductive Rel where
  | eq | ne | lt | ge
  deriving DecidableEq, Repr

/-- The types of CMP (R154). -/
inductive CTy where
  | i64 | n64 | i32 | a72
  deriving DecidableEq, Repr

/-- The types of CLZ and POPC (R155). -/
inductive BTy where
  | n64 | n32 | a72
  deriving DecidableEq, Repr

/-- The types of the generator's LD and ST (R269). -/
inductive MTy where
  | i64 | n64 | i32 | n32 | a72 | i16 | n16 | i8 | n8
  deriving DecidableEq, Repr

/-- The operations of the generator's ATOM (R269). -/
inductive GAtom where
  | add | smin | nmin | smax | nmax | and | or | xor
  deriving DecidableEq, Repr

/-- The condition of BR and BRR (R161). -/
inductive BrCond where
  | always | ks | kc
  deriving DecidableEq, Repr

/-- A code-cache level (R132, R136). -/
inductive Level where
  | i0 | i1 | i2
  deriving DecidableEq, Repr

/-- The operation of CL.REDUCE and CL.ALLRED (R305). -/
inductive RedOp where
  | add | min | max
  deriving DecidableEq, Repr

/-- A cache line's hint state, and an engine command's HINT (R258, R265, R306). -/
inductive Hint where
  | normal | evictFirst | evictLast
  deriving DecidableEq, Repr

/-- The length of a generator instruction (R140). -/
inductive ILen where
  | w32 | w64 | w96 | w128
  deriving DecidableEq, Repr

/-- An ordering annotation: stream, predecessor mask and scope (R32). -/
structure Ann where
  os : BitVec 3
  pm : BitVec 8
  sc : Scope
  deriving DecidableEq, Repr

/-- A literal of a class L instruction and the length of the form that carries it (R141). -/
structure GLit where
  len : ILen
  val : W64
  deriving DecidableEq, Repr

/-- What a generator memory instruction carries beside its registers: its form, its byte offset, its annotation. -/
structure MX where
  len : ILen
  off : W64
  ann : Ann
  deriving DecidableEq, Repr

/-- What an L* instruction with an annotation carries beside its registers (R331). -/
structure SX where
  len : ILen
  ann : Ann
  deriving DecidableEq, Repr

/-- What an engine command carries beside its registers: its form, its annotation and the modifiers of R306. -/
structure EX where
  len  : ILen
  ann  : Ann
  rnd  : Rnd
  sat  : Bool
  hint : Hint
  deriving DecidableEq, Repr

/-- One operand of a lane word (R30): varying, affine, core-uniform, latch, short constant, mask, tile, or a position the
word does not use. A short constant holds its index less 128, so it stands for its natural value less 64. -/
inductive Opd where
  | v (n : BitVec 8)
  | a (n : BitVec 4)
  | q (n : BitVec 4)
  | b (n : BitVec 2)
  | imm (n : BitVec 7)
  | m (n : BitVec 3)
  | z (n : BitVec 4)
  | unused
  deriving DecidableEq, Repr

/-- The fields of an arithmetic or cross-lane word (R146, layout LA). -/
structure LA where
  fmt : Fmt
  rnd : Rnd
  sub : BitVec 3
  c   : Opd
  nwb : Bool
  gm  : BitVec 3
  b   : Opd
  a   : Opd
  d   : Opd
  deriving DecidableEq, Repr

/-- The fields of a memory word (R146, layout LM). In ACC.RD and ACC.WR the scope field holds PEEK instead (R320), which
`peek` names, and `sc` is then `lane`. -/
structure LM where
  fmt  : Fmt
  wid  : BitVec 2
  sc   : Scope
  peek : Bool
  pm   : BitVec 8
  os   : BitVec 3
  nwb  : Bool
  gm   : BitVec 3
  b    : Opd
  a    : Opd
  d    : Opd
  deriving DecidableEq, Repr

/-- The fields of a matrix word (R146, layout LE). -/
structure LE where
  fmt   : Fmt
  fslot : BitVec 6
  pm    : BitVec 8
  os    : BitVec 3
  gm    : BitVec 3
  b     : Opd
  a     : Opd
  d     : Opd
  deriving DecidableEq, Repr

/-- How an operation that can meet an error ends at its storage or link (R280, R295, R382): at the first try, at the retry,
with lasting uncorrectable data, or with a link that failed after its retraining; or at the first try, with an error that was
corrected (R426). (DESIGN CHOICE, log 58) -/
inductive Attempt where
  | ok | corrected | transient | lasting | linkFailed
  deriving DecidableEq, Repr

/-- What an event acts on, and how the storage of it answers. (DEDUCED, log 59) -/
structure Tried (α : Type) where
  what : α
  how  : Attempt
  deriving DecidableEq, Repr

/-- The parts an error record can name as its source (R426), and the links of R10. -/
inductive LinkName where
  | near (die stack : Nat)
  | front (die : Nat)
  | stack (stack : Nat)
  | finzu (port : Nat)
  | host
  deriving DecidableEq, Repr

/-- What an agent outside the module asks of memory: `size` bytes at `addr`, read, written with `data`, or (a peer only)
changed by an atomic operation with operand `data`, of which CAS takes the value compared with from the `size` bytes that
follow (R90, R270, R275, R276, R412). -/
inductive OutsideKind where
  | read | write | atom (op : GAtom) | fadd | fmin | fmax | cas
  deriving DecidableEq, Repr

/-- One access that the host or a peer makes; `addr` is a physical address of R253. (DESIGN CHOICE, log 74) -/
structure OutsideAccess where
  kind : OutsideKind
  addr : BitVec 54
  size : Nat
  data : BitVec 1024
  deriving DecidableEq, Repr

end Sys2Proof
end

