-- ==== Sys2Proof/Config.lean ====
section
/-! DEFINITION. What one module fixes for good, and the free values: what the spec says results without saying which value. -/

namespace Sys2Proof.Config

/-- Free value: a byte of a lent core's scratchpad that nothing has written since the bay was lent. The argument is taken
from the counter `State.fresh` at the lending and from the byte's offset (R46 gives no value). (DESIGN CHOICE, log 7) -/
opaque poolByte : Nat → Byte
/-- Free value: which of 32 differing leaves of a 2 MiB or 2 GiB page the walker takes (R259). (DESIGN CHOICE, log 11) -/
opaque leafPick : Nat → Nat
/-- Point i of 8 of cluster n's fused curve: frequency in MHz and voltage in mV (R423). (DESIGN CHOICE, log 8) -/
opaque curvePoint : Nat → Nat → BitVec 16 × BitVec 12
/-- Which of the curve's points is that of the frequency at which cluster n runs: its voltage is the curve voltage of R418.
(DESIGN CHOICE, log 8) -/
opaque curveIndex : Nat → Nat
/-- What Usboulo makes of the 8 points of a curve: the cluster's EFFRANK (R127, R423). (DESIGN CHOICE, log 8) -/
opaque rankOfCurve : List (BitVec 16 × BitVec 12) → BitVec 5

/-- The 8 points of cluster n's curve. -/
def curve (n : Nat) : List (BitVec 16 × BitVec 12) := (List.range 8).map (curvePoint n)
/-- The curve voltage of cluster n in mV. (DESIGN CHOICE, log 8) -/
def curveVoltage (n : Nat) : BitVec 12 := (curvePoint n (curveIndex n % 8)).2
def effRank (n : Nat) : BitVec 5 := rankOfCurve (curve n)

/-- The cap, refill, ratio and cost that Usboulo derives from PLIMIT and the curves (R428). (DESIGN CHOICE, log 8) -/
opaque basicToll : Nat → W64
opaque basicCost : Nat → W64
opaque basicGuard : BitVec 8
opaque basicEffCut : BitVec 5
/-- The energy in nJ that the module's estimators charge for one interval, by account (R394). (DESIGN CHOICE, log 10) -/
opaque energyEstimate : Nat → Nat → Nat
/-- The energy in nJ of one save or one restore of a frame (R372, R376, R394). (DESIGN CHOICE, log 10) -/
opaque swapEnergy : Nat → Nat
/-- Whether the boot ROM finds the HSS signature of a firmware image good; the image is named by its physical address and
the SHA-256 of its first 4 KiB frame (R413: the image's own layout stands in no rule). (DESIGN CHOICE, log 12) -/
opaque imageSigned : Nat → BitVec 256 → Bool
/-- The hash and the version that a checked image carries, and Usboulo's configuration (R414, R416). (DESIGN CHOICE, log 12) -/
opaque imageHash : Nat → BitVec 256 → BitVec 256
opaque imageVersion : Nat → BitVec 256 → W64
opaque usbouloConfig : BitVec 256
/-- The module's top-level LMS public key, 56 bytes (R415, R416). (DESIGN CHOICE, log 12) -/
opaque topKey : BitVec 448
/-- The HSS signature, 5,236 bytes, over bytes 0x000 to 0x17F of a report, by BOOTIDX and bottom leaf (R415, R416). (DESIGN CHOICE, log 12) -/
opaque hssSign : Nat → Nat → BitVec 3072 → BitVec 41888
/-- What a device read of host or peer memory answers with, when nothing has put a byte there: the far side owns it. (DESIGN CHOICE, log 6) -/
opaque farByte : Nat → Byte

/-- Free value: which of the values that a code word has held since its module became LIVE a fetch finds, where the host has written it
meanwhile (R131); by module time, cluster, cluster cycle, module and word. (DESIGN CHOICE, log 62) -/
opaque codePick : Nat → Nat → Nat → Nat → Nat → Nat

/-- Free value: which of a stack's 16 walkers a miss goes to, by the counter of free values (R261). (DESIGN CHOICE, log 43) -/
opaque walkerPick : Nat → Nat
/-- How many table entries a walker's cache holds: no rule gives it (R261). (DESIGN CHOICE, log 43) -/
opaque walkerCap : Nat

/-- STEPPING of DEVSHAPE for the first silicon (R26). -/
def stepping : BitVec 8 := 0x10

end Sys2Proof.Config
end

