-- ==== Sys2Proof/Syntax.lean ====
section
/-! DEFINITION. The instructions and events of the module, one constructor for each row of the opcode table. -/

namespace Sys2Proof

/-- Every step of the SZK-0960: the generator instructions of R143, the lane words of R147, and the events by which the rest
of the module acts. An event names the part it happens to and what arrives from outside with it. (DEDUCED, log 59) -/
inductive Instr where
  /-- ADD_REGISTER. Generator register-form add of two g registers at the type's width. (R153) -/
  | addRegister (t : GTy) (d a b : BitVec 6)
  /-- ADD_LITERAL. Generator literal-form add of a g register and a literal. (R153) -/
  | addLiteral (t : GTy) (d a : BitVec 6) (l : GLit)
  /-- SUB_REGISTER. Generator register-form subtract. (R153) -/
  | subRegister (t : GTy) (d a b : BitVec 6)
  /-- SUB_LITERAL. Generator literal-form subtract. (R153) -/
  | subLiteral (t : GTy) (d a : BitVec 6) (l : GLit)
  /-- MUL_REGISTER. Generator register-form multiply, low bits. (R153) -/
  | mulRegister (t : GTy) (d a b : BitVec 6)
  /-- MUL_LITERAL. Generator literal-form multiply, low bits. (R153) -/
  | mulLiteral (t : GTy) (d a : BitVec 6) (l : GLit)
  /-- MULH_REGISTER. Generator register-form multiply, high bits. (R153) -/
  | mulhRegister (t : GTy) (d a b : BitVec 6)
  /-- MULH_LITERAL. Generator literal-form multiply, high bits. (R153) -/
  | mulhLiteral (t : GTy) (d a : BitVec 6) (l : GLit)
  /-- DIV_REGISTER. Generator register-form truncating divide; division by zero gives all ones. (R153) -/
  | divRegister (t : GTy) (d a b : BitVec 6)
  /-- DIV_LITERAL. Generator literal-form truncating divide. (R153) -/
  | divLiteral (t : GTy) (d a : BitVec 6) (l : GLit)
  /-- REM_REGISTER. Generator register-form remainder; by zero gives x. (R153) -/
  | remRegister (t : GTy) (d a b : BitVec 6)
  /-- REM_LITERAL. Generator literal-form remainder. (R153) -/
  | remLiteral (t : GTy) (d a : BitVec 6) (l : GLit)
  /-- AND_REGISTER. Generator register-form bitwise AND. (R153) -/
  | andRegister (t : GTy) (d a b : BitVec 6)
  /-- AND_LITERAL. Generator literal-form bitwise AND. (R153) -/
  | andLiteral (t : GTy) (d a : BitVec 6) (l : GLit)
  /-- OR_REGISTER. Generator register-form bitwise OR. (R153) -/
  | orRegister (t : GTy) (d a b : BitVec 6)
  /-- OR_LITERAL. Generator literal-form bitwise OR. (R153) -/
  | orLiteral (t : GTy) (d a : BitVec 6) (l : GLit)
  /-- XOR_REGISTER. Generator register-form bitwise XOR. (R153) -/
  | xorRegister (t : GTy) (d a b : BitVec 6)
  /-- XOR_LITERAL. Generator literal-form bitwise XOR. (R153) -/
  | xorLiteral (t : GTy) (d a : BitVec 6) (l : GLit)
  /-- SHL_REGISTER. Generator register-form shift left, zero for amounts of w or more. (R153) -/
  | shlRegister (t : GTy) (d a b : BitVec 6)
  /-- SHL_LITERAL. Generator literal-form shift left. (R153) -/
  | shlLiteral (t : GTy) (d a : BitVec 6) (l : GLit)
  /-- SHR_REGISTER. Generator register-form shift right, arithmetic for signed types. (R153) -/
  | shrRegister (t : GTy) (d a b : BitVec 6)
  /-- SHR_LITERAL. Generator literal-form shift right. (R153) -/
  | shrLiteral (t : GTy) (d a : BitVec 6) (l : GLit)
  /-- MIN_REGISTER. Generator register-form minimum. (R153) -/
  | minRegister (t : GTy) (d a b : BitVec 6)
  /-- MIN_LITERAL. Generator literal-form minimum. (R153) -/
  | minLiteral (t : GTy) (d a : BitVec 6) (l : GLit)
  /-- MAX_REGISTER. Generator register-form maximum. (R153) -/
  | maxRegister (t : GTy) (d a b : BitVec 6)
  /-- MAX_LITERAL. Generator literal-form maximum. (R153) -/
  | maxLiteral (t : GTy) (d a : BitVec 6) (l : GLit)
  /-- CMP_REGISTER. Generator register-form compare that sets one condition bit. (R154) -/
  | cmpRegister (r : Rel) (t : CTy) (d : BitVec 3) (a b : BitVec 6)
  /-- CMP_LITERAL. Generator literal-form compare that sets one condition bit. (R154) -/
  | cmpLiteral (r : Rel) (t : CTy) (d : BitVec 3) (a : BitVec 6) (l : GLit)
  /-- MOV_REGISTER. Generator register-form move of a g register under a type. (R153) -/
  | movRegister (t : GTy) (d a : BitVec 6)
  /-- MOV_LITERAL. Generator literal-form move of a literal into a g register. (R153) -/
  | movLiteral (t : GTy) (d : BitVec 6) (l : GLit)
  /-- CLZ. Generator count of leading zeros of a g register field. (R155) -/
  | clz (t : BTy) (d a : BitVec 6)
  /-- POPC. Generator count of set bits of a g register field. (R155) -/
  | popc (t : BTy) (d a : BitVec 6)
  /-- SEL. Generator select of one of two g registers by a condition bit. (R156) -/
  | sel (d : BitVec 6) (c : BitVec 3) (a b : BitVec 6)
  /-- KOP. Generator boolean operation on two condition bits through a 4-bit table. (R157) -/
  | kop (d a b : BitVec 3) (table : BitVec 4)
  /-- EXT. Generator sign or zero extension of the low n bits of a g register. (R158) -/
  | ext (signed : Bool) (d a : BitVec 6) (n : BitVec 6)
  /-- LEA. Generator 72-bit address formation from a base and a shifted signed index. (R159) -/
  | lea (d a b : BitVec 6) (sh : BitVec 4)
  /-- LD. Generator uniform load from a 72-bit address into a g register. (R270) -/
  | ld (t : MTy) (d a : BitVec 6) (x : MX)
  /-- ST. Generator uniform store of the low bytes of a g register. (R270) -/
  | st (t : MTy) (d a : BitVec 6) (x : MX)
  /-- ATOM. Generator atomic read-modify-write returning the old value. (R270) -/
  | atom (narrow : Bool) (op : GAtom) (d a c : BitVec 6) (x : MX)
  /-- CAS. Generator compare-and-swap returning the old value. (R270) -/
  | cas (narrow : Bool) (d a c : BitVec 6) (x : MX)
  /-- BR. Relative branch, unconditional or on a condition bit. (R161) -/
  | br (c : BrCond) (k : BitVec 3) (l : GLit)
  /-- BRR. Branch to the code address in a g register, unconditional or on a condition bit. (R161) -/
  | brr (c : BrCond) (k : BitVec 3) (a : BitVec 6)
  /-- CALL. Relative call that writes the return address to a link register. (R162) -/
  | call (d : BitVec 6) (l : GLit)
  /-- CALLR. Call to a code address in a g register, writing the link register. (R162) -/
  | callr (d a : BitVec 6)
  /-- LOOP. Decrement a count register and branch while it stays nonzero. (R163) -/
  | loop (d : BitVec 6) (l : GLit)
  /-- IPF. Software prefetch of n code lines from a relative address into a code cache level. (R136) -/
  | ipf (lvl : Level) (n : BitVec 6) (l : GLit)
  /-- IPFR. Software prefetch of n code lines from the code address in a g register. (R136) -/
  | ipfr (lvl : Level) (n a : BitVec 6)
  /-- SYSRD. Read of a context system register into a g register. (R166) -/
  | sysrd (d : BitVec 6) (l : GLit)
  /-- SYSWR. Write of a g register into an RW system register. (R166) -/
  | syswr (a : BitVec 6) (l : GLit)
  /-- YIELD. Set the watchdog deadline, reset the count and offer a pre-emption point. (R168) -/
  | yield (l : GLit)
  /-- STEP. Mark a point where the die set may change, waiting for a pending boundary. (R170) -/
  | step
  /-- TASKEND. End the barge once its words, futures and streams are done, returning its bays and posting its completion. (R171) -/
  | taskend
  /-- TRAP. Raise the precise program trap with a 16-bit code. (R172) -/
  | trap (l : GLit)
  /-- NOP. Retire and change nothing but the watchdog count. (R173) -/
  | nop
  /-- ADR. Write a relative code address into a g register. (R160) -/
  | adr (d : BitVec 6) (l : GLit)
  /-- EMIT. Queue a block of inline lane words as one emission operation, or record it into the open stretch. (R177) -/
  | emit (n : BitVec 6) (l : GLit)
  /-- EMIT_M. Multicast a block of lane words to the launch's contexts on a destination set. (R179) -/
  | emitM (die : Bool) (n a : BitVec 6) (len : ILen)
  /-- CAPT_BEGIN. Open a capture stretch for (launch, id), discarding any existing entry. (R183) -/
  | captBegin (l : GLit)
  /-- CAPT_END. Close the open stretch into a capture entry and write its backing copy. (R184) -/
  | captEnd
  /-- CAPT_DROP. Discard a capture entry, or the open stretch of that id. (R185) -/
  | captDrop (l : GLit)
  /-- CAPT_LOAD. Ask for a capture entry to be made resident. (R185) -/
  | captLoad (l : GLit)
  /-- REPLAY. Queue a replay of a capture entry with a snapshot of the hole registers. (R187) -/
  | replay (l : GLit)
  /-- REPLAY_M. Queue a replay of a capture entry as a multicast operation. (R187) -/
  | replayM (die : Bool) (a : BitVec 6) (l : GLit)
  /-- HSET. Write the low 16 bits of a g register into a hole register. (R186) -/
  | hset (n : BitVec 3) (a : BitVec 6)
  /-- VRD. Wait for the oldest vote entry to be readable, read it and free it. (R194) -/
  | vrd (d : BitVec 6)
  /-- VTEST. Set a condition bit if the oldest vote entry is readable. (R194) -/
  | vtest (k : BitVec 3)
  /-- SWAIT. Wait until queued emission is written and started, then until masked stream counters fall to n. (R196) -/
  | swait (l : GLit)
  /-- SRD. Read a stream counter into a g register. (R195) -/
  | srd (d : BitVec 6) (n : BitVec 3)
  /-- FWAIT_ANY. Wait until any slot of a mask is ready and return the lowest. (R302) -/
  | fwaitAny (d a : BitVec 6)
  /-- FWAIT_ALL. Wait until every slot of a mask is ready and return the failed ones. (R302) -/
  | fwaitAll (d a : BitVec 6)
  /-- FWAIT_FFR. Wait until all slots of a mask are ready or one has failed, returning the first failure. (R302) -/
  | fwaitFfr (d a : BitVec 6)
  /-- FTEST. Read a future slot's status without waiting. (R302) -/
  | ftest (d f : BitVec 6)
  /-- FTEST_ADDR. Read the virtual address that ended a slot with XLATE or UNCORR. (R302) -/
  | ftestAddr (d f : BitVec 6)
  /-- FCANCEL. Cancel the engine command or FLOAD join of a future slot. (R303) -/
  | fcancel (f : BitVec 6)
  /-- FSTORE. Link a future slot to a memory state word so its resolution resolves the word. (R337) -/
  | fstore (f a : BitVec 6) (x : SX)
  /-- FLOAD. Make a future slot join on a memory state word. (R338) -/
  | fload (tv : Bool) (f a gt : BitVec 6) (len : ILen)
  /-- FREG. Stamp a barge and register it as a state word's continuation. (R339) -/
  | freg (a b c : BitVec 6) (x : SX)
  /-- FSET_INIT. Initialise a state word to PENDING with NEED n. (R335) -/
  | fsetInit (n : BitVec 3) (a : BitVec 6) (x : SX)
  /-- FSET_RES. Perform one OK resolution of a state word with a value. (R335) -/
  | fsetRes (a b : BitVec 6) (x : SX)
  /-- FSET_CAN. Perform one cancelling resolution of a state word. (R335) -/
  | fsetCan (a : BitVec 6) (x : SX)
  /-- SPAWN. Push one child barge built from an image, stamped under the parent's mode. (R345) -/
  | spawn (a : BitVec 6) (x : MX)
  /-- SPAWN_MASK. Push one child barge per set bit of a mask, all or none. (R345) -/
  | spawnMask (a c : BitVec 6) (x : MX)
  /-- SPAWN_ROOT. Push a barge that keeps its image's mode, successor and weight, starting a new tree or untracked task. (R345) -/
  | spawnRoot (a : BitVec 6) (x : MX)
  /-- JRAISE. Raise the job's EXPECTED by n and add n to the context's credit. (R343) -/
  | jraise (l : GLit)
  /-- BQUERY. Read held weight, credit, job counts or basin occupancy into a g register. (R344) -/
  | bquery (d : BitVec 6) (l : GLit)
  /-- FL_INIT. Create or reset a memory or window flight with a given shape. (R349) -/
  | flInit (win : Bool) (a c : BitVec 6) (l : GLit)
  /-- FL_ACQ. Wait for the next FREE chamber of a flight and take it FILLING. (R350) -/
  | flAcq (d : BitVec 6) (l : GLit)
  /-- FL_COMMIT. Commit a FILLING chamber to FULL. (R350) -/
  | flCommit (a : BitVec 6) (x : MX)
  /-- FL_COMMIT_F. Commit a chamber when a future slot resolves, deferring the step. (R350) -/
  | flCommitF (f a : BitVec 6) (x : MX)
  /-- FL_WAIT. Wait for the next FULL chamber of a flight and take it DRAINING. (R350) -/
  | flWait (d : BitVec 6) (l : GLit)
  /-- FL_REL. Release a DRAINING chamber to FREE. (R350) -/
  | flRel (a : BitVec 6) (x : MX)
  /-- FL_REL_F. Release a chamber when a future slot resolves, deferring the step. (R350) -/
  | flRelF (f a : BitVec 6) (x : MX)
  /-- BAR_CL. Cluster barrier of the context's own cores and accesses at cluster scope. (R353) -/
  | barCl
  /-- BAR_DIE. Arrive at die barrier n of the launch and wait for its release. (R354) -/
  | barDie (n : BitVec 2)
  /-- MON. Read 8 bytes at the home and arm the context's monitor on that line in one atomic step. (R356) -/
  | mon (d a : BitVec 6) (x : SX)
  /-- MWAIT. Wait for the monitor to fire or a cycle limit, disarm it and return the reason. (R357) -/
  | mwait (d a : BitVec 6)
  /-- WP_SET. Set a memory watchpoint from a record and barge image, returning a handle or failure. (R359) -/
  | wpSet (d a : BitVec 6) (x : SX)
  /-- WP_CLR. Disarm and free a watchpoint of the context's launch. (R361) -/
  | wpClr (a : BitVec 6)
  /-- COPY. Engine command moving a source descriptor's window into a destination descriptor. (R310) -/
  | copy (f a b : BitVec 6) (x : EX)
  /-- GATHER. Engine command gathering the rows selected by a row mask. (R311) -/
  | gather (tv : Bool) (f a b c gt : BitVec 6) (x : EX)
  /-- SCATTER. Engine command scattering rows to the positions selected by a row mask. (R311) -/
  | scatter (tv : Bool) (f a b c gt : BitVec 6) (x : EX)
  /-- SPMM. Engine command multiplying a CSR matrix by a dense one into Y. (R324) -/
  | spmm (set : Bool) (f a b c : BitVec 6) (x : EX)
  /-- MERGE_U. Engine command merging two sorted runs by union, summing matches. (R326) -/
  | mergeU (tv dz : Bool) (f a b c gt : BitVec 6) (x : EX)
  /-- MERGE_I. Engine command merging two sorted runs by intersection, multiplying matches. (R326) -/
  | mergeI (tv : Bool) (f a b c gt : BitVec 6) (x : EX)
  /-- CL_BCAST. Collective broadcasting a dense source into every block of a distributed tensor. (R328) -/
  | clBcast (f a b : BitVec 6) (x : EX)
  /-- CL_REDUCE. Collective reducing the blocks of a distributed tensor in ascending order into a dense tensor. (R329) -/
  | clReduce (op : RedOp) (f a b : BitVec 6) (x : EX)
  /-- CL_ALLRED. Collective reducing the blocks and writing the result into every block. (R329) -/
  | clAllred (op : RedOp) (f a b : BitVec 6) (x : EX)
  /-- CL_GATHER. Collective copying a distributed tensor into a dense one. (R328) -/
  | clGather (f a b : BitVec 6) (x : EX)
  /-- CL_SCATTER. Collective copying a dense tensor into a distributed one. (R328) -/
  | clScatter (f a b : BitVec 6) (x : EX)
  /-- CL_A2A. Collective copying one distributed tensor into another. (R328) -/
  | clA2a (f a b : BitVec 6) (x : EX)
  /-- WBACK. Range command writing back dirty line-cache copies of a range to the command's scope. (R312) -/
  | wback (f a b : BitVec 6) (x : EX)
  /-- DROPR. Range command writing back and dropping cached copies of a range. (R312) -/
  | dropr (f a b : BitVec 6) (x : EX)
  /-- FILL. Range command bringing a range's lines into their home L2 slices with a hint. (R312) -/
  | fill (f a b : BitVec 6) (x : EX)
  /-- IADD. Lane integer add, wrapping or saturating. (R213) -/
  | iadd (w : LA)
  /-- ISUB. Lane integer subtract, wrapping or saturating. (R213) -/
  | isub (w : LA)
  /-- IMUL. Lane integer multiply, low bits. (R213) -/
  | imul (w : LA)
  /-- IMULH. Lane integer multiply, high bits. (R213) -/
  | imulh (w : LA)
  /-- IMAD. Lane integer multiply-add. (R213) -/
  | imad (w : LA)
  /-- IDIV. Lane integer truncating divide with defined division by zero. (R213) -/
  | idiv (w : LA)
  /-- IREM. Lane integer remainder. (R213) -/
  | irem (w : LA)
  /-- IMIN. Lane integer minimum. (R213) -/
  | imin (w : LA)
  /-- IMAX. Lane integer maximum. (R213) -/
  | imax (w : LA)
  /-- IABS. Lane integer absolute value, wrapping or saturating. (R213) -/
  | iabs (w : LA)
  /-- LANE_AND. Lane bitwise AND. (R213) -/
  | laneAnd (w : LA)
  /-- LANE_OR. Lane bitwise OR. (R213) -/
  | laneOr (w : LA)
  /-- LANE_XOR. Lane bitwise XOR. (R213) -/
  | laneXor (w : LA)
  /-- LANE_SHL. Lane shift left. (R213) -/
  | laneShl (w : LA)
  /-- LANE_SHR. Lane shift right, arithmetic or logical by type. (R213) -/
  | laneShr (w : LA)
  /-- LANE_CLZ. Lane count of leading zeros. (R213) -/
  | laneClz (w : LA)
  /-- LANE_POPC. Lane count of set bits. (R213) -/
  | lanePopc (w : LA)
  /-- BFX. Lane bit-field extract by position and length. (R214) -/
  | bfx (w : LA)
  /-- BFI. Lane bit-field insert into a value from C. (R214) -/
  | bfi (w : LA)
  /-- ICMP. Lane integer compare writing a mask. (R215) -/
  | icmp (w : LA)
  /-- LANE_SEL. Lane select of two sources by a mask. (R216) -/
  | laneSel (w : LA)
  /-- LANE_MOV. Lane move of a source's bits under a format tag. (R217) -/
  | laneMov (w : LA)
  /-- AFF_ADD. Add two affine pairs. (R219) -/
  | affAdd (w : LA)
  /-- AFF_SUB. Subtract two affine pairs. (R219) -/
  | affSub (w : LA)
  /-- AFF_MUL. Multiply an affine pair by a uniform factor. (R219) -/
  | affMul (w : LA)
  /-- AFF_SHL. Shift an affine pair left by a uniform amount. (R219) -/
  | affShl (w : LA)
  /-- AFF_MK. Make an affine pair from a uniform base and stride. (R219) -/
  | affMk (w : LA)
  /-- AFF_STR. Replace the stride of an affine pair. (R219) -/
  | affStr (w : LA)
  /-- PROM_QA. Promote a uniform value to an affine pair of stride zero. (R219) -/
  | promQa (w : LA)
  /-- PROM_QV. Promote a uniform value into every live lane of a varying register. (R220) -/
  | promQv (w : LA)
  /-- PROM_AV. Evaluate an affine register into each live lane of a varying register. (R220) -/
  | promAv (w : LA)
  /-- XTR. Extract one lane's value into a q register. (R221) -/
  | xtr (w : LA)
  /-- M_AND. AND two masks, limited to the live mask. (R222) -/
  | mAnd (w : LA)
  /-- M_OR. OR two masks, limited to the live mask. (R222) -/
  | mOr (w : LA)
  /-- M_XOR. XOR two masks, limited to the live mask. (R222) -/
  | mXor (w : LA)
  /-- M_NOT. Invert a mask, limited to the live mask. (R222) -/
  | mNot (w : LA)
  /-- M_FROMQ. Load a mask from a uniform value. (R222) -/
  | mFromq (w : LA)
  /-- M_TOQ. Narrow a mask into a q register. (R223) -/
  | mToq (w : LA)
  /-- LEXIT. Remove the governed live lanes from the live mask for good. (R224) -/
  | lexit (w : LA)
  /-- SHFL. Move each lane's value from a per-lane indexed source lane. (R225) -/
  | shfl (w : LA)
  /-- SHFL_ROT. Rotate values across the lanes of a core. (R225) -/
  | shflRot (w : LA)
  /-- SHFL_XOR. Exchange values between lanes by XOR of the lane index. (R225) -/
  | shflXor (w : LA)
  /-- BCAST. Broadcast one lane's value to every live lane. (R225) -/
  | bcast (w : LA)
  /-- RED_ADD. Sum the selected lanes of a core in a fixed tree into a q register. (R226) -/
  | redAdd (w : LA)
  /-- RED_MIN. Minimum over the selected lanes of a core. (R226) -/
  | redMin (w : LA)
  /-- RED_MAX. Maximum over the selected lanes of a core. (R226) -/
  | redMax (w : LA)
  /-- RED_AND. Bitwise AND over the selected lanes of a core. (R226) -/
  | redAnd (w : LA)
  /-- RED_OR. Bitwise OR over the selected lanes of a core. (R226) -/
  | redOr (w : LA)
  /-- SCAN_ADD. Inclusive or exclusive prefix sum in ascending lane order. (R227) -/
  | scanAdd (w : LA)
  /-- SCAN_MAX. Inclusive or exclusive prefix maximum in ascending lane order. (R227) -/
  | scanMax (w : LA)
  /-- VOTE. Contribute a core's part to a 64-bit summary in the generator's vote queue. (R228) -/
  | vote (w : LA)
  /-- ISECT. Intersect two index runs, writing advance counts and a match mask. (R229) -/
  | isect (w : LA)
  /-- COMPACT. Pack the selected lanes into a prefix of lanes. (R230) -/
  | compact (w : LA)
  /-- EXPAND. Spread a prefix of lanes into the selected lanes. (R230) -/
  | expand (w : LA)
  /-- FADD. Floating-point add with one rounding. (R235) -/
  | fadd (w : LA)
  /-- FSUB. Floating-point subtract with one rounding. (R235) -/
  | fsub (w : LA)
  /-- FMUL. Floating-point multiply with one rounding. (R235) -/
  | fmul (w : LA)
  /-- FMA. Fused multiply-add with one rounding. (R235) -/
  | fma (w : LA)
  /-- FNMA. Fused negated multiply-add, c minus a times b, with one rounding. (R235) -/
  | fnma (w : LA)
  /-- FDIV. Floating-point divide with one rounding. (R235) -/
  | fdiv (w : LA)
  /-- FSQRT. Floating-point square root with one rounding. (R235) -/
  | fsqrt (w : LA)
  /-- FMIN. Floating-point minimum, -0 below +0, NaN canonical. (R236) -/
  | fmin (w : LA)
  /-- FMAX. Floating-point maximum. (R236) -/
  | fmax (w : LA)
  /-- FABS. Clear the sign bit. (R236) -/
  | fabs (w : LA)
  /-- FNEG. Invert the sign bit. (R236) -/
  | fneg (w : LA)
  /-- FCMP. Floating-point compare writing a mask. (R238) -/
  | fcmp (w : LA)
  /-- FCLASS. Write a one-hot class code of each value. (R237) -/
  | fclass (w : LA)
  /-- FSGN. Copy, invert or XOR a sign from B onto A's magnitude. (R236) -/
  | fsgn (w : LA)
  /-- FRND. Round to an integral value under a mode. (R239) -/
  | frnd (w : LA)
  /-- FSCALE. Multiply by two to an integer power with one rounding. (R239) -/
  | fscale (w : LA)
  /-- FGETEXP. Write the floor of log2 of the magnitude as I32. (R239) -/
  | fgetexp (w : LA)
  /-- FRCP. Correctly rounded reciprocal. (R240) -/
  | frcp (w : LA)
  /-- FRSQ. Correctly rounded reciprocal square root. (R240) -/
  | frsq (w : LA)
  /-- FEXP2. Correctly rounded power of two. (R240) -/
  | fexp2 (w : LA)
  /-- FLOG2. Correctly rounded base-2 logarithm. (R240) -/
  | flog2 (w : LA)
  /-- FSIN. Correctly rounded sine of pi x. (R240) -/
  | fsin (w : LA)
  /-- FCOS. Correctly rounded cosine of pi x. (R240) -/
  | fcos (w : LA)
  /-- FTANH. Correctly rounded hyperbolic tangent. (R240) -/
  | ftanh (w : LA)
  /-- FSIGM. Correctly rounded logistic sigmoid. (R240) -/
  | fsigm (w : LA)
  /-- FERF. Correctly rounded error function. (R240) -/
  | ferf (w : LA)
  /-- CVT. Convert between any two formats with one rounding. (R242) -/
  | cvt (w : LA)
  /-- CVT_BLK. Convert FP32 to L6 under an E8 block scale. (R243) -/
  | cvtBlk (w : LA)
  /-- BSCALE. Compute the E8 scale byte for an L6 block from its largest magnitude. (R244) -/
  | bscale (w : LA)
  /-- PLANE_PK. Pack a group of L6 or I4 codes into bit-plane words. (R245) -/
  | planePk (w : LA)
  /-- PLANE_UP. Unpack bit-plane words into L6 or I4 codes. (R246) -/
  | planeUp (w : LA)
  /-- LANE_LD. Lane load of one or several elements from memory. (R274) -/
  | laneLd (w : LM)
  /-- LANE_ST. Lane store of one or several elements to memory. (R274) -/
  | laneSt (w : LM)
  /-- LD_SP. Lane load from the core's scratchpad. (R274) -/
  | ldSp (w : LM)
  /-- ST_SP. Lane store to the core's scratchpad. (R274) -/
  | stSp (w : LM)
  /-- LD_WIN. Lane load through the cluster or die scratch window. (R274) -/
  | ldWin (w : LM)
  /-- ST_WIN. Lane store through the cluster or die scratch window. (R274) -/
  | stWin (w : LM)
  /-- LANE_ATOM. Lane atomic add, min, max or OR in ascending lane order. (R275) -/
  | laneAtom (w : LM)
  /-- LANE_CAS. Lane compare-and-swap in ascending lane order. (R276) -/
  | laneCas (w : LM)
  /-- LDCP. Per-lane copy from memory into the scratchpad. (R277) -/
  | ldcp (w : LM)
  /-- STCP. Per-lane copy from the scratchpad to memory. (R277) -/
  | stcp (w : LM)
  /-- PREF. Prefetch lines into the line cache or home L2 slice without faulting. (R278) -/
  | pref (w : LM)
  /-- SGATH. Indexed gather from the scratchpad. (R279) -/
  | sgath (w : LM)
  /-- SSCAT. Indexed scatter to the scratchpad. (R279) -/
  | sscat (w : LM)
  /-- HIST. Increment scratchpad bins in lane order, returning each lane's rank. (R279) -/
  | hist (w : LM)
  /-- ACC_RD. Read accumulator tile elements into varying registers. (R320) -/
  | accRd (w : LM)
  /-- ACC_WR. Write varying registers into accumulator tile elements. (R320) -/
  | accWr (w : LM)
  /-- ACC_CLR. Clear an accumulator tile to +0 and tag it FP32. (R320) -/
  | accClr (w : LA)
  /-- MMA. Issue a matrix multiply-accumulate operation into a tile on the bay's engine. (R313) -/
  | mma (w : LE)
  /-- CONTEXT_FORM. A generator forms a context for a chosen barge or frame, lending bays sized by the governor. (R121) -/
  | contextForm (n : BitVec 5)
  /-- CONTEXT_PICK. The generator takes the longest-READY context into ISSUE. (R202) -/
  | contextPick (n : BitVec 5)
  /-- CONTEXT_UNBLOCK. A BLOCKED context's cause clears and it becomes READY, its instruction resuming. (R122) -/
  | contextUnblock (n : BitVec 5) (slot : BitVec 3)
  /-- WATCHDOG. The instruction count reaches the deadline and the watchdog fault ends the task. (R169) -/
  | watchdog (n : BitVec 5)
  /-- PORT_OPERATION_START. A free emission port takes the longest-waiting head operation and fixes its targets. (R181) -/
  | portOperationStart (n : BitVec 5) (port : BitVec 1)
  /-- PORT_WORD_WRITE. A port writes one lane word, with its emission number, into every target core's stream buffer once each has room. (R174) -/
  | portWordWrite (n : BitVec 5) (port : BitVec 1)
  /-- REPLAY_READBACK. A non-resident capture entry is read back from the backing area for a replay. (R187) -/
  | replayReadback (n : BitVec 5) (slot : Tried (BitVec 3))
  /-- VOTE_READY. A combined vote entry becomes readable at t + 24 generator cycles. (R193) -/
  | voteReady (n : BitVec 5) (slot : BitVec 3)
  /-- CODE_FILL_ARRIVAL. A code line fill arrives at a code cache level, or is dropped for a module not live. (R133) -/
  | codeFillArrival (lvl : Level) (unit : BitVec 5) (line : W64) (o : Attempt)
  /-- PAGE_WALK_DONE. A page walk finishes, filling TLBs or failing with a translation kind. (R262) -/
  | pageWalkDone (die : BitVec 3) (space : BitVec 2) (vpn : BitVec 60) (o : Attempt)
  /-- ACCESS_PERFORMED. A memory access is performed at its storage, binding a load value or writing a store, releasing waiting successors. (R281) -/
  | accessPerformed (id : Nat) (o : Tried (List Nat))
  /-- ACCESS_ACKNOWLEDGEMENT. An acknowledgement of a performed access returns to the issuing die, releasing the successor. (R294) -/
  | accessAcknowledgement (id : Nat)
  /-- ENGINE_COMMAND_START. An engine begins a command once prior emission is written and its predecessors are performed, reading its records. (R307) -/
  | engineCommandStart (id : Tried Nat)
  /-- SLOT_RESOLVE. A future slot leaves PENDING as OK, ERROR or CANCELLED, writing its target and firing linked resolutions and deferred flight steps. (R300) -/
  | slotResolve (n : BitVec 5) (slot : BitVec 3) (f : BitVec 6)
  /-- MMA_ACCEPT. An issued MMA operation enters its bay's engine once rendezvous and edges hold and the queue has room. (R317) -/
  | mmaAccept (id : Nat)
  /-- MMA_STEP. The engine completes one K-step and writes the tile, ending the slot part after the last. (R319) -/
  | mmaStep (n : BitVec 5) (bay : BitVec 4)
  /-- BARRIER_RELEASE. A die barrier releases every arrived member once all members have arrived. (R354) -/
  | barrierRelease (launch : Nat) (die : BitVec 3) (b : BitVec 2)
  /-- COMPLETION_POST. A retired barge's completion is posted to its tree counter or job once its accesses are performed at device scope. (R386) -/
  | completionPost (id : Nat) (o : Attempt)
  /-- STOP_DRAIN_END. A stopped task's drain completes; chambers, bays and the flagged completion are dealt with and records written. (R368) -/
  | stopDrainEnd (n : BitVec 5) (slot : BitVec 3)
  /-- STUCK. A stopped context's slots and streams have not drained after 2^16 cycles. (R368) -/
  | stuck (n : BitVec 5) (slot : BitVec 3)
  /-- PREEMPTION_REQUEST. A level-7 candidate waiting 2^20 cycles for bays makes the front die request pre-emption of a context. (R371) -/
  | preemptionRequest (n : BitVec 5)
  /-- FRAME_WRITE. After the pre-emption drain the context frame is written, bays returned and the frame placed in a berth. (R372) -/
  | frameWrite (n : BitVec 5) (slot : BitVec 3)
  /-- SAVE_DRAIN_LIMIT. Engine commands have not drained within 2^16 cycles of a save; the context is STUCK. (R372) -/
  | saveDrainLimit (n : BitVec 5) (slot : BitVec 3)
  /-- FRAME_RESTORE. A generator restores a saved frame with its bays, core numbers, slots and emission state. (R376) -/
  | frameRestore (n : BitVec 5)
  /-- FRAME_RESUME. A CMD write of RESUME to a TRAPPED frame checks it and places it for restore. (R378) -/
  | frameResume (space : BitVec 2) (index : BitVec 12)
  /-- FRAME_DISCARD. A CMD write of DISCARD to a TRAPPED frame ends the task and frees the frame. (R378) -/
  | frameDiscard (space : BitVec 2) (index : BitVec 12)
  /-- BARGE_AGING. A queued barge or frame rises one level after each 2^20 cycles of waiting. (R108) -/
  | bargeAging (launch : Nat) (push : Nat)
  /-- DIE_GRANT. The distributor grants a waiting launch its dies and deals its initial barges. (R113) -/
  | dieGrant (launch : Nat)
  /-- GRANT_WAIT_CAP. A launch waiting 2^24 cycles for a grant blocks later launches from its eligible dies. (R113) -/
  | grantWaitCap (launch : Nat)
  /-- DIE_ADD_REQUEST. The distributor requests adding a die to a launch and records the boundary set. (R115) -/
  | dieAddRequest (launch : Nat)
  /-- DIE_WITHDRAW_REQUEST. The distributor requests withdrawing a die from a launch for a long-waiting launch. (R115) -/
  | dieWithdrawRequest (launch : Nat)
  /-- STEAL_REQUEST. An idle generator sends a steal request every 64 times STEALGAP cycles, picking a victim by LFSR. (R126) -/
  | stealRequest (n : BitVec 5)
  /-- STEAL_ANSWER. The victim queue engine moves its berth's tail barge to the stealer's die. (R126) -/
  | stealAnswer (n : BitVec 5)
  /-- HOTSPOT_MIGRATION. The front die moves a context waiting at a die barrier to another cluster of its die. (R128) -/
  | hotspotMigration (n : BitVec 5) (slot : BitVec 3)
  /-- SUBMISSION_EXAMINE. A non-halted command processor examines the entry at SQHEAD and accepts it or sets SEQERR. (R96) -/
  | submissionExamine (cp : BitVec 2)
  /-- LAUNCH. A started LAUNCH reads and checks its record and barges, writes its job control block and queues its barges. (R103) -/
  | launch (launch : Nat) (o : Attempt)
  /-- FLUSH. Write back every device-held dirty copy of a range to system scope. (R97) -/
  | flush (cmd : Nat)
  /-- INVAL. Drop every device-held copy of a range. (R97) -/
  | inval (cmd : Nat)
  /-- BIND. Set a buffer handle's range and HOSTVIS and clear its writer and readers. (R99) -/
  | bind (cmd : Nat)
  /-- UNBIND. Make a buffer handle unbound. (R99) -/
  | unbind (cmd : Nat)
  /-- ABORT. Remove a launch's undispatched barges with flagged completions, or end a launch not yet admitted. (R107) -/
  | abort (cmd : Nat)
  /-- MARK. A command that completes at acceptance, posting a record. (R95) -/
  | mark (cmd : Nat)
  /-- COMPLETION_RECORD_POST. A completion record is posted to the completion ring once it has room, raising CMPSEQ and CQTAIL. (R98) -/
  | completionRecordPost (cp : BitVec 2)
  /-- JOB_END. When DONE reaches EXPECTED the processor writes back HOSTVIS handles, writes the job block, posts the record and releases handle waits. (R106) -/
  | jobEnd (launch : Nat)
  /-- CPRING_WRITE. Write of a processor's ring configuration, taken only while HALTED. (R93) -/
  | cpringWrite (cp : BitVec 2) (x : W64)
  /-- SQTAIL_WRITE. Host write of SQTAIL announcing or discarding submission entries. (R96) -/
  | sqtailWrite (cp : BitVec 2) (x : W64)
  /-- CQHEAD_WRITE. Host write of CQHEAD freeing completion ring space. (R98) -/
  | cqheadWrite (cp : BitVec 2) (x : W64)
  /-- HALT_REQUEST. Writing HALT 1 stops the processor after the entry in hand, setting HALTED. (R93) -/
  | haltRequest (cp : BitVec 2)
  /-- HALT_RESUME. Writing HALT 0 resumes the processor if CPRING is valid, else sets CFGERR. (R93) -/
  | haltResume (cp : BitVec 2)
  /-- GOVCTL_WRITE. Write of governor thresholds, stealing interval and GROW, ignored whole if LOWAT is not below HIWAT. (R129) -/
  | govctlWrite (x : W64)
  /-- LAUNCH_QUERY. Writing LQSEQ latches a launch's die state into LQRES. (R129) -/
  | launchQuery (x : W64)
  /-- MAKELIVE. Module command making a FREE number LIVE with its code range. (R139) -/
  | makelive (x : W64)
  /-- UNLOAD. Module command moving a LIVE number to DRAINING. (R139) -/
  | unload (x : W64)
  /-- MODULE_PURGE. A DRAINING module with no queued barge or program counter moves to PURGING. (R138) -/
  | modulePurge (m : BitVec 12)
  /-- MODULE_FREE. A PURGING module whose lines and fills are gone returns to FREE. (R137) -/
  | moduleFree (m : BitVec 12)
  /-- FETCHCTL_WRITE. Write of the sequential prefetch depth, ignored for 5 to 7. (R139) -/
  | fetchctlWrite (x : W64)
  /-- XLROOT_WRITE. Write of an address space's table root, ignored while a launch of the ring is live. (R256) -/
  | xlrootWrite (space : BitVec 2) (x : W64)
  /-- TLB_DROP. TLBICMD GO starts dropping TLB and walker entries of a range of an address space. (R263) -/
  | tlbDrop (x : W64)
  /-- TLB_DROP_DONE. Entries are gone and accesses through them performed, so BUSY clears. (R263) -/
  | tlbDropDone
  /-- WARM_RESET. DRCTL GO starts a warm reset of a compute die in phase STOP. (R384) -/
  | warmReset (die : BitVec 3) (x : W64)
  /-- RESET_STOP_LIMIT. The 2^20-cycle limit of phase STOP expires and unsaved contexts are ended. (R384) -/
  | resetStopLimit (die : BitVec 3)
  /-- QUIESCE. The die's links take no new request and outstanding requests are answered or fail. (R384) -/
  | quiesce (die : BitVec 3)
  /-- WRITEBACK. Each bay's line cache writes back and drops its lines. (R384) -/
  | writeback (die : BitVec 3)
  /-- ISOLATE. Requests addressed to the die, including its Finzu ports, receive error replies. (R384) -/
  | isolate (die : BitVec 3)
  /-- RETRAIN. Each link of the die is retrained. (R384) -/
  | retrain (die : BitVec 3) (ok : Bool)
  /-- TEST. The in-field test runs on each cluster; a failure stops the reset with RESULT 1. (R384) -/
  | test (die : BitVec 3) (failed : BitVec 4)
  /-- READMIT. CDIEMASK bit d is set again and the die becomes eligible. (R384) -/
  | readmit (die : BitVec 3)
  /-- FRAMELO_WRITE. Write of the frame area address, ignored while any frame is not FREE. (R385) -/
  | frameloWrite (space : BitVec 2) (x : W64)
  /-- FRAMEHI_WRITE. Write of the frame count and high address, ignored if frames are in use or the count exceeds 4,096. (R385) -/
  | framehiWrite (space : BitVec 2) (x : W64)
  /-- COUNTER_QUERY. Writing CTRQIX latches a word of a live launch's counter record. (R395) -/
  | counterQuery (space : BitVec 2) (x : W64)
  /-- CTRDUMP_WRITE. Write of the dump ring configuration, ignored for a size out of range. (R395) -/
  | ctrdumpWrite (space : BitVec 2) (x : W64)
  /-- TRLO_WRITE. Write of the trace ring address, ignored while EVMASK is nonzero. (R395) -/
  | trloWrite (space : BitVec 2) (x : W64)
  /-- TRHI_WRITE. Write of EVMASK and the trace ring size, only EVMASK taken while tracing. (R395) -/
  | trhiWrite (space : BitVec 2) (x : W64)
  /-- COUNTER_SEND. A cluster sends a running context's counts to the front die at least every 2^16 cycles. (R390) -/
  | counterSend (n : BitVec 5) (slot : BitVec 3)
  /-- ENERGY_INTERVAL. Every 2^20 cycles estimates are scaled to measured energy and the difference charged to housekeeping. (R394) -/
  | energyInterval (measured : Nat)
  /-- TOLLCFG_WRITE. Write of toll cap, refill and slice ratios, ignored whole for CAP 0 or in basic control. (R419) -/
  | tollcfgWrite (n : BitVec 5) (x : W64)
  /-- TOLLCOST_WRITE. Write of the per-slice toll costs. (R419) -/
  | tollcostWrite (n : BitVec 5) (x : W64)
  /-- RATIO_CHANGE. A new slice ratio takes effect at the next cycle with $cycle mod 4 = 0. (R419) -/
  | ratioChange (n : BitVec 5)
  /-- POWER_INTERVAL. At the end of each 2^20-cycle interval the power controller adjusts SHIFT against PLIMIT. (R421) -/
  | powerInterval (watts : Nat)
  /-- POWERCTL_WRITE. Write of power limit, guard, calibration enable and control level, ignored for PLIMIT out of range. (R427) -/
  | powerctlWrite (x : W64)
  /-- THROTTLE. The hottest junction reaches 95 °C and intervals raise SHIFT. (R422) -/
  | throttle (celsius : BitVec 8)
  /-- THERMAL_TRIP. At 105 °C the module loses power and all state. (R422) -/
  | thermalTrip (celsius : BitVec 8)
  /-- CALIBRATION_START. A cluster idle for 2^20 cycles with CALEN set begins margin calibration. (R423) -/
  | calibrationStart (n : BitVec 5)
  /-- CALIBRATION_STEP. A 2^16-cycle test at one voltage step ends, lowering VOP further or stopping. (R423) -/
  | calibrationStep (n : BitVec 5) (pass : Bool)
  /-- SCRUB_LINE. The patrol scrubber read-check-writes one line of a slice or of its DRAM, correcting or recording errors. (R425) -/
  | scrubLine (pa : BitVec 54) (inSlice : Bool) (o : Attempt)
  /-- LINK_FLIT_ERROR. A flit failing its check is replayed with everything after it on its channel. (R295) -/
  | linkFlitError (l : LinkName) (again : Bool)
  /-- LINK_FAILURE. A link failing after retrain faults its held accesses with LINK and may start an ABANDON reset. (R383) -/
  | linkFailure (l : LinkName)
  /-- FINZU_RETRAIN. FZCMD RETRAIN retrains the selected Finzu ports. (R409) -/
  | finzuRetrain (x : W64)
  /-- FINZU_PORT_TRAINED. A Finzu port completes training, recording the far end's identity and state. (R410) -/
  | finzuPortTrained (port : BitVec 4) (remote : W32) (ok : Bool)
  /-- PEER_REQUEST. An inbound peer request is checked and performed at its home at system scope, or refused. (R412) -/
  | peerRequest (peer : BitVec 12) (port : BitVec 4) (r : OutsideAccess)
  /-- HOST_FLAG_WINDOW_ACCESS. A host coherent access to the flag window. (R91) -/
  | hostFlagWindowAccess (r : OutsideAccess)
  /-- HOST_APERTURE_ACCESS. A host read or write through the device memory aperture, performed at the home slice. (R255) -/
  | hostApertureAccess (r : OutsideAccess) (o : Attempt)
  /-- HOST_LINK_DOWN. The host port link goes down; accepted commands continue and host accesses fail. (R408) -/
  | hostLinkDown
  /-- IDBOOT_WRITE. Write of BOOTIDX, taken once per power-on. (R415) -/
  | idbootWrite (x : W64)
  /-- ATTESTATION_REQUEST. ATTREQ GO starts building a signed attestation report. (R415) -/
  | attestationRequest (x : W64)
  /-- ATTESTATION_REPORT_DONE. The report is written at system scope and BUSY clears with its result. (R416) -/
  | attestationReportDone
  /-- FIRMWARE_CHECK. A write of FWCTL starts the boot ROM's check of the Usboulo image. (R413) -/
  | firmwareCheck (x : W64)
  /-- FIRMWARE_CHECK_DONE. The image signature check ends accepted or refused. (R413) -/
  | firmwareCheckDone
  /-- POWER_ON. Power-on brings the module up with all state cleared and processors halted until firmware is accepted. (R413) -/
  | powerOn
  /-- POWER_OFF. Power-off loses every register, cache, memory, counter and log. (R25) -/
  | powerOff
  /-- MWAIT_LIMIT. An MWAIT's cycle limit expires before the monitor fires. (R357) -/
  | mwaitLimit (n : BitVec 5) (slot : BitVec 3)
  /-- REGISTER_WRITE. A write to a management register with no behaviour of its own, acting per its access code. (R5) -/
  | registerWrite (offset : BitVec 16) (x : W64)
  /-- TOLL_REFILL. In every cluster cycle the toll count T is refilled to min(T + (REFILL >> SHIFT), CAP), which releases cores withheld while T < 0 or T < -CAP. (R204) -/
  | tollRefill (n : BitVec 5)
  /-- HOST_LINK_UP. The CXL host port link trains up, or comes back after going down, so host accesses and device accesses to host memory can succeed again. (R408) -/
  | hostLinkUp
  /-- THROTTLE_END. The hottest junction falls below 95 °C, THERM.STATE returns to normal and intervals stop raising SHIFT for heat. (R422) -/
  | throttleEnd (celsius : BitVec 8)
  deriving DecidableEq, Repr

end Sys2Proof
end

