-- ==== Sys2Proof/Machine/State.lean ====
section
/-! DEFINITION. Every piece of state the module holds, as plain data, and the state right after power-on. -/

namespace Sys2Proof.Machine

/-! ### Cores -/

/-- An affine register: lane l reads base + l × stride (R197). -/
structure AReg where
  base   : W64
  stride : W32
  tag    : Fmt
  deriving DecidableEq, Repr

/-- A bypass latch: 64 bits a lane, and a tag (R201); `src` names the access and its element that has still to fill it. -/
structure Latch where
  lanes : Tab W64
  tag   : Fmt
  src   : Option (Nat × Nat)
  deriving DecidableEq, Repr

/-- A word in a stream buffer: its emission number, its bits, and the number of the context's emission operation that it
came with, which orders it against generator instructions (R174, R285). -/
structure SWord where
  e  : Nat
  w  : W64
  op : Nat
  deriving DecidableEq, Repr

/-- One lent core (R12, R41, R46, R175). Varying lane l of v n stands at key 16 n + l, element e of tile n at 1024 n + e,
scratchpad bytes at their offset; an absent register key reads zero. -/
structure Core where
  slot   : Nat
  j      : Nat
  live   : BitVec 16
  left   : Bool
  v      : Tab W32
  vtag   : Tab Fmt
  a      : Tab AReg
  q      : Tab W64
  m      : Tab (BitVec 16)
  latch  : List Latch
  z      : Tab W32
  ztag   : Tab Fmt
  sp     : Tab Byte
  epoch  : Nat
  buf    : List SWord
  /-- The emission number of the MMA word whose operand bytes the core still holds for an engine (R317). -/
  hold   : Option Nat
  /-- The core has met a fault and starts no later word (R367). -/
  failed : Bool
  /-- The core started a word in this cluster cycle (R175, R206). -/
  ran    : Bool
  /-- Why the head word waited when the core last tried it: the counter's word, 0 for none (R206). -/
  why    : Nat
  deriving DecidableEq, Repr

/-! ### Contexts -/

/-- The target that keeps a g register from being named until it resolves (R151): an access, or a future slot. -/
inductive Target where
  | access (id : Nat)
  | slot (f : BitVec 6)
  deriving DecidableEq, Repr

/-- STATE of a slot (R298). -/
inductive SlotState where
  | pending | ok | error | cancelled
  deriving DecidableEq, Repr

/-- What a PENDING slot waits for. -/
inductive SlotWork where
  | none
  | command (id : Nat)
  | mma (parts : Nat) (failed : Bool)
  | join (addr : W72) (pa : Nat)
  | joined (st : SlotState) (code : BitVec 8) (value : W64)
  deriving DecidableEq, Repr

/-- A future slot: the status of R298, the target of R301, the value of R309, the link of R337, and a deferred flight step
(flight, chamber) of R350. `uncorr` and `dres` are faults that wait for the next use of the slot (R304, R337). -/
structure Slot where
  state  : SlotState
  op     : BitVec 10
  code   : BitVec 8
  kind   : BitVec 4
  addr   : W72
  target : Option (BitVec 6)
  value  : W64
  work   : SlotWork
  stream : BitVec 3
  scope  : Scope
  link   : Option (W72 × Ann)
  defer  : Option (Nat × Nat)
  uncorr : Bool
  dres   : Bool
  /-- The LCLOCK of the error record that `uncorr` stands for (R426). -/
  clk    : BitVec 48
  deriving DecidableEq, Repr

/-- The kinds of queued emission operations (R181, R190). -/
inductive OpKind where
  | emit | replay | emitM | replayM
  deriving DecidableEq, Repr

/-- One emission operation (R181, R190): the staged words of a block, or a replay's entry and snapshot; `next` is the next
word to write; `targets` are fixed when a port begins a multicast (R180), as the uids of their contexts. -/
structure EmitOp where
  kind    : OpKind
  words   : List W64
  entryCl : Nat
  id      : BitVec 8
  gen     : BitVec 32
  snap    : List (BitVec 16)
  next    : Nat
  codePc  : W64
  dest    : W72
  dieWide : Bool
  num     : Nat
  since   : Nat
  targets : Option (List Nat)
  /-- The words of another cluster's entry have come from its backing area (R190). -/
  fetched : Bool
  deriving DecidableEq, Repr

/-- One summary on its way to the generator (R192, R193): the cores it still needs, the cores' combined value, the generator
cycle its word was written in, whether an entry is reserved, and whether it may be read. -/
structure VoteEnt where
  e        : Nat
  written  : Nat
  needs    : List Nat
  value    : W64
  reserved : Bool
  readable : Bool
  deriving DecidableEq, Repr

/-- An open capture stretch (R183): its id, the generation its entry will have, its words, and its hole items (hole, word
offset, target). -/
structure Stretch where
  id    : BitVec 8
  gen   : BitVec 32
  words : List W64
  holes : List (BitVec 3 × Nat × BitVec 3)
  deriving DecidableEq, Repr

/-- A context's monitor (R356, R357). -/
inductive Monitor where
  | none
  | armed (line : Nat)
  | fired
  | lost
  deriving DecidableEq, Repr

/-- Where an access stands in its context's emission order (R285): lane words carry their operation's number, class 0 and
their emission number; an instruction of the generator carries the number of operations queued before it, class 1 and its
place among the generator's own. -/
structure Key where
  op  : Nat
  cls : Nat
  n   : Nat
  deriving DecidableEq, Repr

/-- Why a context is BLOCKED, with what must hold before it is READY again (R122, R151, R196, R302, R354 and others). (DEDUCED, log 14) -/
inductive Wait where
  | none
  | regs (r : List (BitVec 6))
  | slot (f : BitVec 6)
  | engineRoom
  | queueRoom
  | stream (n : BitVec 3)
  | walk (vpn : List (BitVec 60))
  | written
  /-- Step 1 of SWAIT has been gone through: the instruction goes on from there (R196, R285). -/
  | allWritten
  | counters (mask : BitVec 8) (n : Nat)
  /-- An instruction of R332 waits for its predecessors; with an address, for what comes before it at these bytes and in
  this page: physical address, bytes, ORD. -/
  | preds (ann : Ann) (place : Option (Nat × Nat × BitVec 2))
  | fany (m : W64)
  | fall (m : W64)
  | fffr (m : W64)
  | vote
  | capture (id : BitVec 8)
  | barCl
  | barDie (n : BitVec 2) (arrived released : Bool)
  | mwait (until_ : Option Nat)
  | step
  /-- The boundary has been reached: the STEP completes (R117). -/
  | stepDone
  | taskend
  | flight (acquire : Bool) (fl : BitVec 4) (since : Nat)
  | owner (fl : BitVec 4)
  deriving DecidableEq, Repr

/-- READY, ISSUE and BLOCKED of R122; a slot with no context is FREE. -/
inductive CtxState where
  | ready | issue | blocked
  deriving DecidableEq, Repr

/-- A stop in progress (R363 to R369, R377): its class, the emission number of a failing lane word, the faults it has
dropped, its records' eight words, when the drain began, and the frame slot that a handled trap has taken. -/
structure Stop where
  cls     : BitVec 8
  lane    : Option Nat
  dropped : Nat
  recs    : List (List W64)
  since   : Nat
  frame   : Option Nat
  deriving DecidableEq, Repr

/-- Why a context is to be saved (R118, R128, R371, R384). -/
inductive SaveWhy where
  | level7
  | boundary
  | reset
  | migrate (cl slot : Nat)
  deriving DecidableEq, Repr

/-- A save: requested, or taken at cycle `since` with the frame slot `index` (R189, R372). -/
structure Save where
  why   : SaveWhy
  taken : Option (Nat × Nat)
  deriving DecidableEq, Repr

/-- One context of a generator. -/
structure Ctx where
  uid      : Nat
  launch   : Nat
  ring     : BitVec 2
  barge    : List W64
  entry    : W64
  level    : Nat
  bays     : BitVec 16
  status   : CtxState
  since    : Nat
  /-- The cycle of its generator in which it became READY (R202). -/
  readyAt  : Nat
  formed   : Nat
  wait     : Wait
  pc       : W64
  /-- The last instruction retired was a taken branch: until the next retires, a cycle counts BRANCH (R205). -/
  bubble   : Bool
  g        : Tab W72
  gt       : Tab Target
  k        : BitVec 8
  slots    : Tab Slot
  h        : Tab (BitVec 16)
  count    : Nat
  deadline : Nat
  retired  : Nat
  ttag     : W64
  uscratch : W64
  nextE    : Nat
  ops      : Nat
  genSeq   : Nat
  queue    : List EmitOp
  votes    : List VoteEnt
  stretch  : Option Stretch
  held     : W64
  credit   : Nat
  monitor  : Monitor
  save     : Option Save
  stop     : Option Stop
  counts   : Tab Nat
  deriving DecidableEq, Repr

/-! ### Clusters -/

/-- A closed capture entry (R182). -/
structure CapEntry where
  words    : List W64
  holes    : List (BitVec 3 × Nat × BitVec 3)
  gen      : BitVec 32
  resident : Bool
  used     : Nat
  deriving DecidableEq, Repr

/-- A TLB entry: a page of 2^bits bytes of an address space (R257, R258, R261). -/
structure TlbEnt where
  space : BitVec 2
  base  : W72
  bits  : Nat
  pa    : Nat
  ord   : BitVec 2
  w     : Bool
  hint  : Hint
  deriving DecidableEq, Repr

/-- A cluster: its toll and slices (R204, R418), its clock counts, its ports, capture store, TLB and steal request, and the
counts no launch owns (R389). -/
structure Cluster where
  tollCfg   : W64
  tollCost  : W64
  /-- The configuration and costs in effect in this cycle, and the ratios in effect (R419). -/
  cfgOn     : W64
  costOn    : W64
  ratio     : BitVec 12
  toll      : Int
  /-- The count as this cycle began, the context that a withheld cycle serves, and the last one served (R204). -/
  began     : Int
  served    : Option Nat
  rr        : Nat
  shift     : Nat
  vop       : BitVec 12
  margin    : BitVec 8
  calib     : Option (Nat × Nat)
  idleAt    : Nat
  cycle     : W64
  gcycle    : Nat
  ports     : Tab Nat
  capt      : Tab CapEntry
  captTick  : Nat
  tlb       : List TlbEnt
  lfsr      : BitVec 16
  stealAt   : Nat
  steal     : Option (Nat × Nat × Nat)
  /-- The push number of the candidate that waits for free bays, and since when (R371). -/
  waiting   : Option (Nat × Nat)
  noctx     : Nat
  unlent    : Nat
  lost      : Nat
  /-- What this cluster cycle has seen: the ISSUE context changed (R205), an instruction issued (R150), each port wrote a word
  (R181), an instruction waited on its fetch (R205); and the context that the generator served, with what its cycle counts as. -/
  switched  : Bool
  issued    : Bool
  wrote     : BitVec 2
  starved   : Bool
  category  : Option (Nat × Nat)
  deriving DecidableEq, Repr

/-! ### Memory -/

/-- A line of 128 bytes in a cache: its number, its bytes, which of them are dirty, and its hint state (R247, R254, R265). -/
structure Line where
  line  : Nat
  data  : BitVec 1024
  dirty : BitVec 128
  hint  : Hint
  deriving DecidableEq, Repr

/-- A tag of a code cache line (R132); `seq` marks a line that sequential prefetch brought in and decode has not entered. -/
structure CodeTag where
  line : Nat
  seq  : Bool
  deriving DecidableEq, Repr

/-- A fill on its way to a code cache (R133 to R136): a demand's, a sequential prefetch's, or one from the prefetch queue of
generator `soft`. -/
structure Fill where
  lvl  : Level
  unit : Nat
  line : Nat
  seq  : Bool
  soft : Option Nat
  deriving DecidableEq, Repr

/-- The code caches, each a table of sets, most recently used line first, and the fills on their way (R132). -/
structure CodeCaches where
  i0    : Tab (List CodeTag)
  i1    : Tab (List CodeTag)
  i2    : Tab (List CodeTag)
  fills : List Fill
  deriving DecidableEq, Repr

/-- Who performs an access (R282). -/
inductive Agent where
  | core (k : Nat)
  | gen
  | engine
  | matrix (bay : Nat)
  deriving DecidableEq, Repr

/-- What an access does with each of its parts. -/
inductive AccOp where
  | load | store
  | atom (op : GAtom) | fadd | fmin | fmax
  | cas
  | ldcp | stcp
  /-- An access of an engine or a matrix operation, which holds its parts elsewhere. -/
  | work
  deriving DecidableEq, Repr

/-- One element of an access: its lane, its register (or scratchpad address for a copy), its place among the lane's elements, its addresses, its size in bytes, its
page's attribute and hint, and the data it writes (for CAS, the compare value stands in `cmp`). Once it is performed, `data` is
the value that a load or an atomic has bound. -/
structure Part where
  lane : Nat
  reg  : Nat
  elem : Nat
  va   : W72
  pa   : Nat
  size : Nat
  ord  : BitVec 2
  hint : Hint
  data : BitVec 128
  cmp  : BitVec 128
  /-- It has been performed (R281); its acknowledgement has come back (R294); its lane is not performed (R280). -/
  done  : Bool
  acked : Bool
  lost  : Bool
  deriving DecidableEq, Repr

/-- Where a load's value goes: a g register by its type, or the lanes of a v register (with its no-write-back bit). -/
inductive Dest where
  | none
  | gen (t : MTy) (d : BitVec 6)
  | lanes (f : Fmt) (nwb : Bool)
  deriving DecidableEq, Repr

/-- An access that has started and not yet been acknowledged (R281 to R286, R294). -/
structure Access where
  id     : Nat
  cl     : Nat
  slot   : Nat
  uid    : Nat
  agent  : Agent
  stream : BitVec 3
  pm     : BitVec 8
  scope  : Scope
  key    : Key
  op     : AccOp
  dest   : Dest
  parts  : List Part
  /-- The code address of the generator instruction, or the emission number of the lane word (R365). -/
  where_ : W64
  /-- The lane word that made it, or word 0 of the generator instruction. -/
  word   : W64
  /-- Every part has been performed. -/
  done   : Bool
  /-- The access met a lasting error or a failed link: the register it would load is never written (R271), and what waits for it
  never goes on (R295). -/
  bad    : Bool
  /-- The LCLOCK of the error record that `bad` stands for (R426). -/
  clk    : BitVec 48
  deriving DecidableEq, Repr

/-- A performed store at a scope narrower than system, which R283 or R288 may carry further. `ord` is its page's attribute. -/
structure Narrow where
  uid    : Nat
  cl     : Nat
  agent  : Agent
  stream : BitVec 3
  key    : Key
  scope  : Scope
  line   : Nat
  ord    : BitVec 2
  deriving DecidableEq, Repr

/-- A page walk in flight, or a failed one's kind, with the agents that wait on it and have yet to see it end, each by its context's uid and
its number (R260 to R262). -/
structure Walk where
  die   : Nat
  space : BitVec 2
  vpn   : BitVec 60
  kind  : Option (BitVec 4)
  users : List (Nat × Nat)
  /-- The LCLOCK of the error record of a failed one (R426). -/
  clk   : BitVec 48
  deriving DecidableEq, Repr

/-! ### Engines -/

/-- The engine commands of R305, by what they do. -/
inductive EngOp where
  | copy | gather | scatter
  | spmm (set : Bool)
  | mergeU (dz : Bool) | mergeI
  | bcast | reduce (op : RedOp) | allred (op : RedOp) | clGather | clScatter | a2a
  | wback | dropr | fill
  deriving DecidableEq, Repr

/-- A merge's progress (R326): the next entry of each run and of the result, the index at each run's head once it has been
read, and the index last taken from each run. -/
structure MergeSt where
  i  : Nat
  j  : Nat
  n  : Nat
  ha : Option Nat
  hb : Option Nat
  pa : Option Nat
  pb : Option Nat
  deriving DecidableEq, Repr

/-- An engine command (R303, R305 to R309): its operands; once it has begun, the words of its records and the owner entries
read, by block (R88), its selected rows or row pointers, the destination units still to be written in the order of their
writing, and `pos`, how many it has done; and how it will end. -/
structure Cmd where
  id     : Nat
  cl     : Nat
  slot   : Nat
  uid    : Nat
  f      : BitVec 6
  op     : EngOp
  a      : W72
  b      : W72
  c      : W72
  x      : EX
  key    : Key
  begun  : Bool
  pos    : Nat
  ra     : List W64
  rb     : List W64
  rc     : List W64
  oa     : List (Nat × W64 × W64)
  ob     : List (Nat × W64 × W64)
  sel    : List Nat
  plan   : List Nat
  merge  : MergeSt
  value  : W64
  code   : BitVec 8
  kind   : BitVec 4
  addr   : W72
  clk    : BitVec 48
  cancel : Bool
  ended  : Bool
  /-- Every page that it has still to read or write is LOOSE (R288). -/
  loose  : Bool
  /-- The dies that have left its launch since it began (R330). -/
  lostDies : BitVec 8
  deriving DecidableEq, Repr

/-- A matrix operation on one core's tile (R313 to R319): waiting at its rendezvous, accepted, or stepping. -/
structure MmaOp where
  id     : Nat
  cl     : Nat
  bay    : Nat
  core   : Nat
  slot   : Nat
  uid    : Nat
  e      : Nat
  op     : Nat
  fmt    : Fmt
  f      : BitVec 6
  z      : Nat
  qa     : W64
  qa1    : W64
  qb     : W64
  qb1    : W64
  pm     : BitVec 8
  os     : BitVec 3
  queued : Option Nat
  step   : Nat
  a      : List Byte
  b      : List Byte
  /-- The lane word itself, for a fault's record. -/
  word   : W64
  deriving DecidableEq, Repr

/-! ### Synchronising -/

/-- Chamber states (R348). -/
inductive Chamber where
  | free | filling | full | draining
  deriving DecidableEq, Repr

/-- A flight (R348). `away` marks that its owner is saved (R352). `uid` is the owner's context, `core` the core that last held
the owner's index j of a window flight. -/
structure Flight where
  cl     : Nat
  launch : Nat
  fl     : Nat
  owner  : Nat
  uid    : Nat
  core   : Nat
  window : Bool
  base   : W72
  count  : Nat
  size   : Nat
  waitIx : Nat
  acqIx  : Nat
  cst    : List Chamber
  hold   : List Nat
  defer  : BitVec 16
  bad    : BitVec 16
  away   : Bool
  deriving DecidableEq, Repr

/-- A memory watchpoint (R358 to R361). `id` tells it from every other that has held its handle. -/
structure Watch where
  id     : Nat
  launch : Nat
  start  : W72
  pa     : Nat
  words  : Nat
  once   : Bool
  armed  : Bool
  value  : W64
  mask   : W64
  image  : List W64
  deriving DecidableEq, Repr

/-! ### Launches and queues -/

/-- A queued barge or a frame in a berth (R108, R123, R371): its level, when it reached it, and its push number. -/
structure Queued where
  barge : List W64
  level : Nat
  since : Nat
  push  : Nat
  frame : Option Nat
  /-- A frame placed at the head of its level comes before all that hold the level (R108). -/
  head  : Bool
  /-- The watchpoint whose firing pushed the barge (R360). -/
  watch : Option Nat
  deriving DecidableEq, Repr

/-- A basin and its berths, keyed by die (R123). -/
structure Basin where
  entry  : BitVec 44
  berths : Tab (List Queued)
  deriving DecidableEq, Repr

/-- A pending change of a die set (R115 to R117): the die, whether it is added, and the members that have not yet reached
the boundary, as context uids. -/
structure Change where
  die   : Nat
  add   : Bool
  left  : List Nat
  /-- The members that wait in STEP. -/
  inStep : List Nat
  deriving DecidableEq, Repr

/-- A launch, from its acceptance until it is live no longer (R96, R103 to R107, R112 to R119). `acc` is its acceptance number. -/
structure Launch where
  acc      : Nat
  ring     : BitVec 2
  seq      : W64
  part     : W32
  prio     : Nat
  allow    : BitVec 8
  minDies  : Nat
  maxDies  : Nat
  jcb      : W72
  reads    : List Nat
  writes   : List Nat
  admitted : Bool
  granted  : Bool
  waitAt   : Option Nat
  capped   : Bool
  dieset   : BitVec 8
  diegen   : W32
  change   : Option Change
  expected : Nat
  doneN    : Nat
  errs     : Nat
  aborted  : Bool
  faulted  : Bool
  ended    : Bool
  basins   : List Basin
  parked   : List Queued
  first    : List Queued
  counts   : Tab Nat
  energy   : Nat
  swap     : Nat
  deriving DecidableEq, Repr

/-- An accepted command whose record has not posted (R94 to R98): its status once it has completed, and for an ABORT the launch that
it has acted on. -/
structure RingCmd where
  acc    : Nat
  ring   : BitVec 2
  seq    : W64
  tag    : W64
  op     : BitVec 8
  addr   : W72
  arg0   : W64
  arg1   : W64
  bad    : Bool
  status : Option (BitVec 8)
  errs   : BitVec 32
  target : Option Nat
  deriving DecidableEq, Repr

/-- A buffer handle (R99). -/
structure Handle where
  space   : BitVec 2
  addr    : W72
  len     : Nat
  hostvis : Bool
  writer  : Option Nat
  readers : List Nat
  deriving DecidableEq, Repr

/-- A completion that a retired or stopped barge has yet to post (R386, R387). -/
structure Post where
  id     : Nat
  launch : Nat
  ring   : BitVec 2
  die    : Nat
  mode   : BitVec 2
  succ   : W72
  weight : W64
  credit : Nat
  flagged : Bool
  deriving DecidableEq, Repr

/-- A command processor's registers (R93) and its finished commands in the order they completed (R98). -/
structure Cp where
  ring   : W64
  sqTail : BitVec 14
  sqHead : BitVec 14
  cqHead : BitVec 14
  cqTail : BitVec 14
  subSeq : W64
  cmpSeq : W64
  cfgErr : Bool
  seqErr : Bool
  halted : Bool
  halt   : Bool
  done   : List Nat
  deriving DecidableEq, Repr

/-! ### Modules, frames and management registers -/

/-- A module's state (R137). -/
inductive ModState where
  | free | live | draining | purging
  deriving DecidableEq, Repr

/-- An entry record of a module (R38). -/
structure Entry where
  offset  : W32
  minBays : Nat
  maxBays : Nat
  partMin : W32
  budget  : Nat
  deriving DecidableEq, Repr

/-- An export record of an image (R39). -/
structure Export where
  hash   : W64
  offset : W32
  /-- KIND 1, a data label; else KIND 0, a code label. -/
  data   : Bool
  deriving DecidableEq, Repr

/-- A loaded image, as imports are resolved against it (R39). -/
structure Loaded where
  exports : List Export
  entries : List W32
  dataVa  : W72
  deriving DecidableEq, Repr

/-- A module number in use (R137, R139). -/
structure Module where
  st      : ModState
  pa      : Nat
  size    : Nat
  entries : List Entry
  deriving DecidableEq, Repr

/-- The front die's account of a frame slot that is not FREE (R374): 1 SAVED, 2 TRAPPED or 3 RESTORING, its launch, the context
and its cores as saved, in ascending j, its cluster and context number, the chambers that it held (the owner's uid, flight,
chamber), and the capture entries that it names (cluster, key); where its CMD stands, and the command that a write to it has
given (R378). What software may change of a frame stands in memory alone. -/
structure Frame where
  state  : Nat
  launch : Nat
  ctx    : Ctx
  cores  : List Core
  cl     : Nat
  slot   : Nat
  held   : List (Nat × Nat × Nat)
  keys   : List (Nat × Nat)
  cmdPa  : Nat
  cmd    : Nat
  deriving DecidableEq, Repr

/-- The trap block of an address space (R385). -/
structure TrapRegs where
  hblo     : W64
  hbctl    : W64
  framelo  : W64
  framehi  : W64
  flog     : W64
  flogTail : W64
  faultId  : BitVec 16
  deriving DecidableEq, Repr

/-- The retirement registers of an address space (R395). -/
structure RetRegs where
  ctrDump  : W64
  dumpTail : W64
  trlo     : W64
  trhi     : W64
  trTail   : W64
  ctrqSeq  : W64
  ctrqIx   : BitVec 6
  ctrqRes  : W64
  deriving DecidableEq, Repr

/-- The die reset block of a die (R385), the die's place in a reset (R384), and its 48-bit logical counter (R392). -/
structure Die where
  admitted : Bool
  auto     : Bool
  mode     : Bool
  count    : BitVec 16
  cause    : BitVec 8
  result   : BitVec 4
  phase    : BitVec 4
  since    : Nat
  lclock   : BitVec 48
  tlb      : List TlbEnt
  deriving DecidableEq, Repr

/-- A Finzu port (R409, R410): 0 down, 1 training, 2 up, 3 FAILED. -/
structure Finzu where
  state    : BitVec 2
  remote   : W32
  retrains : BitVec 16
  deriving DecidableEq, Repr

/-- The identity registers (R413 to R416). -/
structure Ident where
  idSet    : Bool
  bootIdx  : BitVec 15
  attPage  : BitVec 10
  nonce    : Tab W64
  count    : BitVec 16
  result   : BitVec 2
  busy     : Bool
  fwPa     : BitVec 42
  fwStat   : BitVec 2
  fwVer    : W64
  meas     : Tab (BitVec 256)
  deriving DecidableEq, Repr

/-- What moves next: a generator's cycle, a core's cycle, an event, the loader's entry records of a module (R38, R139), or a
write that the host or a peer makes to its own memory. (DESIGN CHOICE, log 1) -/
inductive Act where
  | gen (n : BitVec 5)
  | core (n : BitVec 5) (k : BitVec 7)
  | event (i : Instr)
  | image (m : BitVec 12) (pa dataPa : BitVec 54) (dataVa : W72) (bytes : List Byte)
  | outsideStore (pa : BitVec 54) (data : List Byte)
  /-- A generator finds an uncorrectable error in a line of its I0 (R135). -/
  | codeError (n : BitVec 5) (line : W64)
  deriving DecidableEq, Repr

/-- An act and the module time, in cycles at 1.8 GHz, that passes before it. (DESIGN CHOICE, log 1) -/
structure Turn where
  elapse : Nat
  act    : Act
  deriving DecidableEq, Repr

/-- For whom a meaning acts: a cluster, a context slot, and a core of the cluster. -/
structure Focus where
  cl   : Nat
  slot : Nat
  core : Nat
  deriving DecidableEq, Repr

/-- The registers of the management block that no other part holds (R93, R129, R139, R256, R385, R395, R410, R415, R427). -/
structure Regs where
  cps      : Tab Cp
  modules  : Tab Module
  staged   : Tab (List Entry)
  /-- What each loaded image exports, and where its data lies (R39). -/
  loaded   : Tab Loaded
  modPa    : W64
  modSize  : W32
  modErr   : Bool
  /-- The MODCMD write that is in hand (R139). -/
  modBusy  : Option W64
  modQ     : BitVec 12
  seqDepth : BitVec 3
  govctl   : W64
  lqSeq    : W64
  lqCp     : BitVec 2
  lqRes    : W64
  effRank  : Tab (BitVec 5)
  xlroot   : Tab W64
  tlbiVa   : W64
  tlbiCnt  : W64
  tlbiSpace : BitVec 2
  tlbiBusy : Bool
  tlbiWait : List Nat
  traps    : Tab TrapRegs
  rets     : Tab RetRegs
  hkEnergy : W64
  modEnergy : W64
  energyAt : Nat
  /-- Estimated energy of saves and restores since the last interval, by launch, and the launches that have gone since (R394). -/
  swaps    : Tab Nat
  gone     : List Nat
  powerAt  : Nat
  peers    : Tab W64
  finzu    : Tab Finzu
  hostUp   : Bool
  ident    : Ident
  powerctl : W64
  scrub    : W64
  errCfg   : W64
  errTail  : W64
  tmax     : BitVec 8
  throttle : Bool
  deriving DecidableEq, Repr

/-- The whole module. -/
structure State where
  powered  : Bool
  /-- Module time in cycles at 1.8 GHz. (DESIGN CHOICE, log 15) -/
  now      : Nat
  /-- The model's own: the acts to come, in the order in which the module performs them. (DESIGN CHOICE, log 1) -/
  agenda   : List Turn
  /-- The model's own: the cluster, slot and core that the present act concerns. (DESIGN CHOICE, log 4) -/
  focus    : Focus
  /-- The model's own: the counter that free values are applied to. (DESIGN CHOICE, log 4) -/
  fresh    : Nat
  /-- The model's own: the number of the next access, walk, operation or command. (DESIGN CHOICE, log 4) -/
  nextId   : Nat
  -- cores, contexts, clusters, dies
  cores    : Tab Core
  ctxs     : Tab Ctx
  clusters : Tab Cluster
  dies     : Tab Die
  lclockF  : BitVec 48
  -- storage
  mem      : List Host.Cell
  l2       : Tab (List Line)
  bayLines : Tab (List Line)
  uniLines : Tab (List Line)
  /-- ECC granules of 32 bytes that hold a lasting error (R280, R295, R425), by physical address over 32. (DESIGN CHOICE, log 58) -/
  badGranules : List Nat
  /-- Near, front and stack links that have failed and not been retrained since (R383, R384). (DEDUCED, log 54) -/
  downLinks : List LinkName
  code     : CodeCaches
  /-- Values that words of modules in use have held and hold no more (R131): module, word of its code, value. (DESIGN CHOICE, log 62) -/
  codeWas  : List (Nat × Nat × W32)
  -- accesses, walks, engines
  accs     : List Access
  narrow   : List Narrow
  walks    : List Walk
  walkers  : List (Nat × TlbEnt)
  cmds     : List Cmd
  mmas     : List MmaOp
  flights  : List Flight
  watches  : Tab Watch
  -- launches and queues
  launches : List Launch
  pushes   : Nat
  accepted : Nat
  ringCmds : List RingCmd
  handles  : Tab Handle
  posts    : List Post
  frames   : Tab Frame
  /-- Moves in flight (R128): the context's uid, the target cluster and slot as 8 n + slot, and the bays reserved there. -/
  moves    : List (Nat × Nat × Nat)
  regs     : Regs
  deriving DecidableEq, Repr

/-- A cluster right after power-on (R126, R204, R418): the toll at 0, every slice at ratio 1, the LFSR at n + 1. (DESIGN CHOICE, log 4) -/
def Cluster.reset (n : Nat) : Cluster :=
  { tollCfg := 0x00100000FFFF0000, tollCost := 0x0000010101010101, cfgOn := 0x00100000FFFF0000,
    costOn := 0x0000010101010101, ratio := 0, toll := 0, began := 0, served := none, rr := 7, shift := 0,
    vop := Config.curveVoltage n, margin := 0, calib := none, idleAt := 0, cycle := 0, gcycle := 0, ports := [], capt := [],
    captTick := 0, tlb := [], lfsr := BitVec.ofNat 16 (n + 1), stealAt := 0, steal := none, waiting := none, noctx := 0, unlent := 0, lost := 0,
    switched := false,
    issued := false, wrote := 0, starved := false, category := none }

/-- A compute die right after power-on (R26, R385): admitted, AUTO 1. (DESIGN CHOICE, log 4) -/
def Die.reset : Die :=
  { admitted := true, auto := true, mode := false, count := 0, cause := 0, result := 0, phase := 0, since := 0,
    lclock := 0, tlb := [] }

/-- A command processor right after power-on (R93). (DESIGN CHOICE, log 4) -/
def Cp.reset : Cp :=
  { ring := 0x0660000000000000, sqTail := 0, sqHead := 0, cqHead := 0, cqTail := 0, subSeq := 1, cmpSeq := 0,
    cfgErr := false, seqErr := false, halted := true, halt := true, done := [] }

def TrapRegs.reset : TrapRegs :=
  { hblo := 0, hbctl := 0, framelo := 0, framehi := 0, flog := 0x60000000, flogTail := 0, faultId := 0 }

def RetRegs.reset : RetRegs :=
  { ctrDump := 0x20000000, dumpTail := 0, trlo := 0, trhi := 0xA000000000, trTail := 0, ctrqSeq := 0, ctrqIx := 0, ctrqRes := 0 }

def Ident.reset : Ident :=
  { idSet := false, bootIdx := 0, attPage := 0, nonce := [], count := 0, result := 0, busy := false, fwPa := 0, fwStat := 0,
    fwVer := 0, meas := [] }

/-- The management registers right after power-on, each at the reset value its map gives. (DESIGN CHOICE, log 4) -/
def Regs.reset : Regs :=
  { cps := [], modules := [], staged := [], loaded := [], modPa := 0, modSize := 0, modErr := false, modBusy := none, modQ := 0, seqDepth := 2,
    govctl := 0x000000400004F809, lqSeq := 0, lqCp := 0, lqRes := 0, effRank := [], xlroot := [], tlbiVa := 0, tlbiCnt := 0,
    tlbiSpace := 0, tlbiBusy := false, tlbiWait := [], traps := [], rets := [], hkEnergy := 0, modEnergy := 0, energyAt := 0, swaps := [], gone := [], powerAt := 0,
    peers := [], finzu := [], hostUp := false, ident := Ident.reset, powerctl := 0x0000190100000960, scrub := 0x05A0,
    errCfg := 0x60000000, errTail := 0, tmax := 0, throttle := false }

/-- The module right after power-on (R25, R413): no launch, no context, nothing cached, every memory byte unwritten. A table
of parts (clusters, dies, processors, address spaces) that lists no entry for a part holds that part's reset entry. (DESIGN CHOICE, log 4) -/
def State.reset : State :=
  { powered := true, now := 0, agenda := [], focus := ⟨0, 0, 0⟩, fresh := 0, nextId := 0, cores := [], ctxs := [], clusters := [],
    dies := [], lclockF := 0, mem := [], l2 := [], bayLines := [], uniLines := [], badGranules := [], downLinks := [],
    code := { i0 := [], i1 := [], i2 := [], fills := [] }, codeWas := [], accs := [], narrow := [], walks := [], walkers := [], cmds := [],
    mmas := [], flights := [], watches := [], launches := [], pushes := 0, accepted := 0, ringCmds := [], handles := [],
    posts := [], frames := [], moves := [], regs := Regs.reset }

/-- No step of this machine ends in a fault: every trap and fault of R363 stops a context and leaves the module running, so
it is a next state. Nobody raises one; that is safe. (DEDUCED, log 3) -/
inductive Fault where
  deriving DecidableEq, Repr

/-- Why a step has no meaning. (DEDUCED, log 3) -/
inductive Refusal where
  /-- The instruction of this mnemonic has no meaning in the model. Raised by `exec` alone. Safe. -/
  | notModelled (mnemonic : String)
  deriving DecidableEq, Repr

end Sys2Proof.Machine
end

