-- ==== Sys2Proof/Machine/Basics.lean ====
section
/-! DEFINITION. Sparse tables, bit slices, and byte order. -/

namespace Sys2Proof.Machine

/-! ### Sparse tables -/

/-- The value a table holds at a key. -/
def tget {α : Type} : Tab α → Nat → Option α
  | [], _ => none
  | (k, x) :: t, i => if i = k then some x else tget t i

/-- The value at a key, or the given value where the table lists none. -/
def tgetD {α : Type} (t : Tab α) (i : Nat) (d : α) : α := (tget t i).getD d

/-- A table with the value at one key replaced, its keys still rising. -/
def tput {α : Type} : Tab α → Nat → α → Tab α
  | [], i, x => [(i, x)]
  | (k, y) :: t, i, x =>
    if i < k then (i, x) :: (k, y) :: t
    else if i = k then (i, x) :: t
    else (k, y) :: tput t i x

/-- A table without an entry. -/
def tdel {α : Type} (t : Tab α) (i : Nat) : Tab α := t.filter (fun p => p.1 != i)

/-- A table with `n` consecutive values put from a key. -/
def tputs {α : Type} (t : Tab α) (i : Nat) : List α → Tab α
  | [] => t
  | x :: xs => tputs (tput t i x) (i + 1) xs

/-- `n` consecutive values of a table from a key. -/
def tgets {α : Type} (t : Tab α) (i n : Nat) (d : α) : List α := (List.range n).map (fun k => tgetD t (i + k) d)

/-! ### Bits -/

/-- Bits hi:lo of x as a natural number (R2). -/
def bits (x hi lo : Nat) : Nat := (x >>> lo) % 2 ^ (hi + 1 - lo)

/-- Bits hi:lo of a word. -/
def slice {w : Nat} (x : BitVec w) (hi lo : Nat) : Nat := bits x.toNat hi lo

/-- Bit i of a word. -/
def bit {w : Nat} (x : BitVec w) (i : Nat) : Bool := x.getLsbD i

/-- A word with bits hi:lo replaced by the low bits of a number (R5, R178). -/
def putBits {w : Nat} (x : BitVec w) (hi lo : Nat) (y : Nat) : BitVec w :=
  let m := (2 ^ (hi + 1 - lo) - 1) <<< lo
  BitVec.ofNat w ((x.toNat &&& (2 ^ w - 1 - m)) ||| ((y <<< lo) &&& m))

/-- A word with one bit set or cleared. -/
def putBit {w : Nat} (x : BitVec w) (i : Nat) (b : Bool) : BitVec w := putBits x i i (if b then 1 else 0)

/-- The low w bits of an integer (two's complement). -/
def wrap (w : Nat) (x : Int) : Nat := (x % (2 ^ w : Int)).toNat

/-- The low w bits of a number read as a signed integer. -/
def signed (w x : Nat) : Int :=
  let y := x % 2 ^ w
  if y < 2 ^ (w - 1) then (y : Int) else (y : Int) - (2 ^ w : Int)

/-- How many bits below w are set. -/
def popcount (w x : Nat) : Nat := ((List.range w).filter (fun i => x.testBit i)).length

/-- The set bits below w, ascending. -/
def setBits (w x : Nat) : List Nat := (List.range w).filter (fun i => x.testBit i)

/-- Zero bits above the highest set bit of a w-bit number; w when it is zero (R155). -/
def clz (w x : Nat) : Nat := if x % 2 ^ w = 0 then w else w - 1 - Nat.log2 (x % 2 ^ w)

def boolNat (b : Bool) : Nat := if b then 1 else 0

/-! ### Byte order (R3) -/

/-- The n bytes of a number, lowest first. -/
def toBytes (n x : Nat) : List Byte := (List.range n).map (fun i => BitVec.ofNat 8 (x >>> (8 * i)))

/-- The number whose bytes, lowest first, are given. -/
def ofBytes : List Byte → Nat
  | [] => 0
  | b :: bs => b.toNat + 256 * ofBytes bs

/-- The 64-bit words of a list of bytes, and back. -/
def ofWords (ws : List W64) : List Byte := ws.flatMap (fun w => toBytes 8 w.toNat)

def toWords : Nat → List Byte → List W64
  | 0, _ => []
  | n + 1, bs => BitVec.ofNat 64 (ofBytes (bs.take 8)) :: toWords n (bs.drop 8)

/-- Word i of a list, zero past its end. -/
def wordAt (ws : List W64) (i : Nat) : W64 := ws.getD i 0

/-- The smallest and largest of a list of numbers by a measure, the first among equals. -/
def minBy {α : Type} (f : α → Nat) : List α → Option α
  | [] => none
  | x :: xs =>
    match minBy f xs with
    | none => some x
    | some y => if f y < f x then some y else some x

def maxBy {α : Type} (f : α → Nat) : List α → Option α
  | [] => none
  | x :: xs =>
    match maxBy f xs with
    | none => some x
    | some y => if f x < f y then some y else some x

end Sys2Proof.Machine
end

