-- ==== Sys2Proof/WellFormed.lean ====
section
/-! DEFINITION. Which instructions of the syntax are ones that some encoding stands for. -/

namespace Sys2Proof

open Machine

/-- The code of a format (R49). -/
def Fmt.code : Fmt → Nat
  | .untyped => 0 | .fp32 => 1 | .fp16 => 2 | .bf16 => 3 | .e4m3 => 4 | .e5m2 => 5 | .l6 => 6
  | .i4 => 8 | .n4 => 9 | .i8 => 10 | .n8 => 11 | .i32 => 12 | .n32 => 13 | .i64 => 14 | .n64 => 15

/-- The width in bits of a format's codes (R49); 0 for untyped. -/
def Fmt.width : Fmt → Nat
  | .untyped => 0 | .fp32 => 32 | .fp16 => 16 | .bf16 => 16 | .e4m3 => 8 | .e5m2 => 8 | .l6 => 6
  | .i4 => 4 | .n4 => 4 | .i8 => 8 | .n8 => 8 | .i32 => 32 | .n32 => 32 | .i64 => 64 | .n64 => 64

/-- A format whose values take an even pair of varying registers (R56). -/
def Fmt.wide (f : Fmt) : Bool := f = .i64 || f = .n64

/-- Every format code of R49 but 0x0 and 0x7, which R147 calls "any". -/
def Fmt.any : List Fmt := [.fp32, .fp16, .bf16, .e4m3, .e5m2, .l6, .i4, .n4, .i8, .n8, .i32, .n32, .i64, .n64]
def Fmt.ints : List Fmt := [.i32, .n32, .i64, .n64]
def Fmt.floats : List Fmt := [.fp32, .fp16, .bf16]
def Fmt.memory : List Fmt := [.fp32, .fp16, .bf16, .e4m3, .e5m2, .i8, .n8, .i32, .n32, .i64, .n64]

/-! ### Generator instructions -/

/-- The value that a literal field of 6, 18 or 32 bits stands for (R141). -/
def sext64 (n x : Nat) : W64 := BitVec.ofInt 64 (signed n x)

/-- Whether a form of this length can carry the literal (R141). -/
def litFits (len : ILen) (v : W64) : Bool :=
  match len with
  | .w32 => sext64 6 v.toNat = v
  | .w64 => sext64 18 v.toNat = v
  | .w96 => sext64 32 v.toNat = v
  | .w128 => true

def GLit.ok (l : GLit) : Bool := litFits l.len l.val

/-- A literal that must lie between two natural bounds. -/
def GLit.within (l : GLit) (lo hi : Nat) : Bool := l.ok && decide (lo ≤ l.val.toNat ∧ l.val.toNat ≤ hi)

/-- The scopes that a generator's memory access may carry (R269, R305, R332). -/
def Scope.generator : List Scope := [.cluster, .die, .device, .system]

/-- An annotation that a form of this length can carry, given the instruction's default scope (R141, R268). -/
def annOk (len : ILen) (dflt : Scope) (a : Ann) : Bool :=
  if len = .w32 then a = ⟨0, 0, dflt⟩ else Scope.generator.contains a.sc

def MX.ok (x : MX) (dflt : Scope) : Bool := litFits x.len x.off && annOk x.len dflt x.ann

def starLen (l : ILen) : Bool := l = .w32 || l = .w64

def SX.ok (x : SX) (dflt : Scope) : Bool := starLen x.len && annOk x.len dflt x.ann

/-- The modifiers an engine command may carry (R306): `conv` is whether RND and SAT are its own, `hint` whether HINT is. -/
def EX.ok (x : EX) (dflt : Scope) (scopes : List Scope) (conv hint : Bool) : Bool :=
  starLen x.len && annOk x.len dflt x.ann && scopes.contains x.ann.sc
    && (x.len ≠ .w32 || (x.rnd = .rne && !x.sat && x.hint = .normal))
    && (conv || (x.rnd = .rne && !x.sat)) && (hint || x.hint = .normal)

/-- The types of MUL, MULH, DIV and REM (R153). -/
def GTy.not72 (t : GTy) : Bool := t ≠ .a72

/-- The system registers that SYSRD may name (R166, R167), and those that SYSWR may. -/
def sysReadable (n : Nat) : Bool :=
  [0x000, 0x001, 0x003, 0x004, 0x005, 0x006, 0x007, 0x008, 0x009, 0x010, 0x011, 0x012, 0x013, 0x014, 0x015, 0x020, 0x030,
   0x031].contains n
def sysWritable (n : Nat) : Bool := n = 0x030 || n = 0x031

/-- A slot of an EMIT literal (R178): all zeros, or in use with zero low bits and a word inside the block. -/
def holeOk (n : Nat) (s : Nat) : Bool :=
  if bits s 15 15 = 0 then s = 0 else bits s 2 0 = 0 && decide (bits s 11 6 < n)

def holesOk (n : Nat) (lit : W64) : Bool := [0, 1, 2, 3].all (fun i => holeOk n (slice lit (16 * i + 15) (16 * i)))

def ctx32 (len : ILen) (c : BitVec 6) : Bool := len ≠ .w32 || c = 0

/-! ### Lane words -/

/-- What an operand position takes (R30, R146, R198): the classes, and how a v register there is read: as data of the word's
format, as a 32-bit index, or as an even 64-bit pair. -/
inductive PosKind where
  | data | index | pair
  deriving DecidableEq, Repr

inductive Pos where
  | unused
  | opd (v a q b imm : Bool) (k : PosKind)
  /-- An affine destination, a1 to a15 (R218). -/
  | aff
  /-- A mask; `low` is its least index (R215). -/
  | mask (low : Nat)
  | tile
  /-- A format code in C bits 47:44 (R242). -/
  | fmt
  deriving DecidableEq, Repr

/-- What an opcode's words may hold: formats (none where bits 63:60 are reserved), the formats under which rnd is a mode, the
sub values, the positions, and whether nwb and gm are fields. `narrow` words may write q from wider sources (R198). -/
structure LaneSpec where
  fmts : List Fmt
  rnds : List Fmt
  subs : List Nat
  d : Pos
  a : Pos
  b : Pos
  c : Pos
  nwb : Bool
  gm : Bool
  narrow : Bool
  deriving DecidableEq, Repr

namespace Pos
def any : Pos := .opd true true true true true .data
def vq : Pos := .opd true false true false false .data
def vOnly : Pos := .opd true false false false false .data
def vb : Pos := .opd true false false true false .data
def vba : Pos := .opd true true false true false .data
def qOnly : Pos := .opd false false true false false .index
def qImm : Pos := .opd false false true false true .index
def idx : Pos := .opd true true true true true .index
def affSrc : Pos := .opd false true false false false .index
def affU : Pos := .opd false true true false true .index
def addr : Pos := .opd true true true true false .pair
end Pos

/-- The operand positions accept an operand, for a word of format f (R30, R198, R207). -/
def Pos.accepts (p : Pos) (f : Fmt) (o : Opd) : Bool :=
  match p, o with
  | .unused, .unused => true
  | .opd v _ _ _ _ k, .v n =>
    v && (match k with
      | .data => !f.wide || n.toNat % 2 = 0
      | .index => true
      | .pair => n.toNat % 2 = 0)
  | .opd _ a _ _ _ _, .a _ => a
  | .opd _ _ q _ _ _, .q _ => q
  | .opd _ _ _ b _ _, .b _ => b
  | .opd _ _ _ _ i _, .imm _ => i
  | .aff, .a n => n ≠ 0
  | .mask low, .m n => decide (low ≤ n.toNat)
  | .tile, .z _ => true
  | .fmt, .z n => n ≠ 0 && n ≠ 7
  | _, _ => false

/-- A U-class operand, or none (R197). -/
def Opd.uniform : Opd → Bool
  | .q _ | .imm _ | .unused | .m _ | .z _ => true
  | _ => false

/-- The binary integer words, their unary and ternary forms (R212). -/
def intSpec (subs : List Nat) (b c : Pos) : LaneSpec :=
  ⟨Fmt.ints, [], subs, .vq, .any, b, c, true, true, false⟩
/-- The affine words (R218). -/
def affSpec (subs : List Nat) (a b : Pos) : LaneSpec := ⟨Fmt.ints, [], subs, .aff, a, b, .unused, true, false, false⟩
/-- The mask words (R222). -/
def maskSpec (a b : Pos) : LaneSpec := ⟨[], [], [0], .mask 1, a, b, .unused, true, false, false⟩
/-- The reductions (R226). -/
def redSpec (fmts rnds : List Fmt) : LaneSpec := ⟨fmts, rnds, [0], .qOnly, .vba, .unused, .unused, true, true, true⟩
/-- The floating-point words (R234). -/
def fpSpec (rnds : List Fmt) (b c : Pos) : LaneSpec := ⟨Fmt.floats, rnds, [0], .vq, .any, b, c, true, true, false⟩

/-- The words of layout LA, by opcode (R147), and, for VOTE, by sub (R228). An affine register as CVT.BLK's B is an illegal word:
R243 lists the sources that give a scale, though R231 takes any class for a source. (DESIGN CHOICE, log 83) -/
def laSpec (op sub : Nat) : Option LaneSpec :=
  match op with
  | 0x001 | 0x002 => some (intSpec [0, 1] .any .unused)
  | 0x003 | 0x004 | 0x006 | 0x007 | 0x008 | 0x009 => some (intSpec [0] .any .unused)
  | 0x005 => some (intSpec [0] .any .any)
  | 0x00A => some (intSpec [0, 1] .unused .unused)
  | 0x00B | 0x00C | 0x00D | 0x00E | 0x00F | 0x012 => some (intSpec [0] .any .unused)
  | 0x010 | 0x011 => some (intSpec [0] .unused .unused)
  | 0x013 => some (intSpec [0] .any .any)
  | 0x014 => some ⟨[.i4, .n4, .i8, .n8, .i32, .n32, .i64, .n64], [], [0, 1, 2, 3, 4, 5], .mask 1, .any, .any, .unused, true, true, false⟩
  | 0x015 => some ⟨Fmt.any, [], [0], .vq, .any, .any, .mask 0, true, true, false⟩
  | 0x016 => some ⟨Fmt.any, [], [0], .vq, .any, .unused, .unused, true, true, false⟩
  | 0x020 | 0x021 => some (affSpec [0, 1] .affSrc .affU)
  | 0x022 | 0x023 | 0x025 => some (affSpec [0, 1] .affSrc .qImm)
  | 0x024 => some (affSpec [0, 1] .qImm .qImm)
  | 0x026 => some (affSpec [0] .qImm .unused)
  | 0x027 => some ⟨Fmt.any, [], [0], .vOnly, .qImm, .unused, .unused, true, true, false⟩
  | 0x028 => some ⟨Fmt.ints, [], [0], .vOnly, .affSrc, .unused, .unused, true, true, false⟩
  | 0x029 => some ⟨Fmt.any, [], [0], .qOnly, .vba, .qImm, .unused, true, true, true⟩
  | 0x030 | 0x031 | 0x032 => some (maskSpec (.mask 0) (.mask 0))
  | 0x033 => some (maskSpec (.mask 0) .unused)
  | 0x034 => some (maskSpec .qImm .unused)
  | 0x035 => some ⟨[], [], [0], .qOnly, .mask 0, .unused, .unused, true, true, true⟩
  | 0x036 => some ⟨[], [], [0], .unused, .unused, .unused, .unused, false, true, true⟩
  | 0x040 => some ⟨Fmt.any, [], [0], .vOnly, .vb, .idx, .unused, true, true, false⟩
  | 0x041 | 0x042 | 0x043 => some ⟨Fmt.any, [], [0], .vOnly, .vb, .qImm, .unused, true, true, false⟩
  | 0x044 => some (redSpec (.fp32 :: Fmt.ints) [.fp32])
  | 0x045 | 0x046 => some (redSpec (Fmt.floats ++ Fmt.ints) [])
  | 0x047 | 0x048 => some (redSpec Fmt.ints [])
  | 0x049 => some ⟨.fp32 :: Fmt.ints, [.fp32], [0, 1], .vOnly, .vba, .unused, .unused, true, true, false⟩
  | 0x04A => some ⟨Fmt.floats ++ Fmt.ints, [], [0, 1], .vOnly, .vba, .unused, .unused, true, true, false⟩
  | 0x04B => some ⟨[], [], [0, 1, 2, 3, 4], .unused, if sub = 4 then .qOnly else .mask 0, .unused, .unused, false, true, true⟩
  | 0x04C => some ⟨[.n32, .n64], [], [0], .opd true false false false false .index, .vb, .vb, .mask 1, true, true, false⟩
  | 0x04D | 0x04E => some ⟨Fmt.any, [], [0], .vOnly, .vb, .unused, .unused, true, true, false⟩
  | 0x100 | 0x101 | 0x102 | 0x105 => some (fpSpec Fmt.floats .any .unused)
  | 0x103 | 0x104 => some (fpSpec Fmt.floats .any .any)
  | 0x106 | 0x10E => some (fpSpec Fmt.floats .unused .unused)
  | 0x107 | 0x108 => some (fpSpec [] .any .unused)
  | 0x109 | 0x10A => some (fpSpec [] .unused .unused)
  | 0x10B => some ⟨Fmt.floats, [], [0, 1, 2, 3, 4, 5, 6], .mask 1, .any, .any, .unused, true, true, false⟩
  | 0x10C => some ⟨Fmt.floats, [], [0], .vOnly, .any, .unused, .unused, true, true, false⟩
  | 0x10D => some ⟨Fmt.floats, [], [0, 1, 2], .vq, .any, .any, .unused, true, true, false⟩
  | 0x10F => some (fpSpec Fmt.floats .idx .unused)
  | 0x110 => some (fpSpec [] .unused .unused)
  | 0x120 | 0x121 | 0x122 | 0x123 | 0x124 | 0x125 | 0x126 | 0x127 | 0x128 => some (fpSpec Fmt.floats .unused .unused)
  | 0x140 => some ⟨Fmt.any, Fmt.any, [0, 1], .vq, .any, .unused, .fmt, true, true, false⟩
  | 0x141 => some ⟨[.l6], [.l6], [0], .vq, .any, .opd true false true true true .index, .unused, true, true, false⟩
  | 0x142 => some ⟨[.fp32], [], [0], .vq, .any, .unused, .unused, true, true, false⟩
  | 0x143 | 0x144 => some ⟨[.l6, .i4, .n4], [], [0], .vOnly, .vOnly, .unused, .unused, true, true, false⟩
  | 0x241 => some ⟨[.fp32], [], [0], .tile, .unused, .unused, .unused, false, true, true⟩
  | _ => none

/-- Conditions of an opcode's own that no position states: CVT's source width (R242), and the register groups of PLANE.PK
and PLANE.UP (R245, R246). -/
def laExtra (op : Nat) (w : LA) : Bool :=
  if op = 0x140 then
    match w.a, w.c with
    | .v n, .z c => decide (c.toNat < 14) || n.toNat % 2 = 0
    | _, _ => true
  else if op = 0x143 then
    match w.a, w.d with
    | .v n, .v m => n.toNat % 4 = 0 && m.toNat % 2 = 0
    | _, _ => false
  else if op = 0x144 then
    match w.a, w.d with
    | .v n, .v m => n.toNat % 2 = 0 && m.toNat % 4 = 0
    | _, _ => false
  else true

/-- CVT's A operand is read at its source format, so its position does not take the word's own width. -/
def laAFmt (op : Nat) (f : Fmt) : Fmt := if op = 0x140 then .i32 else f

/-- A word of layout LA is one that its opcode allows (R148, steps 2 to 4, but for the partition). -/
def LA.ok (op : Nat) (w : LA) : Bool :=
  match laSpec op w.sub.toNat with
  | none => false
  | some s =>
    (if s.fmts.isEmpty then w.fmt = .untyped else s.fmts.contains w.fmt)
      && (s.rnds.contains w.fmt || w.rnd = .rne)
      && s.subs.contains w.sub.toNat
      && s.d.accepts w.fmt w.d && s.a.accepts (laAFmt op w.fmt) w.a && s.b.accepts w.fmt w.b && s.c.accepts w.fmt w.c
      && (s.nwb || !w.nwb) && (s.gm || w.gm = 0)
      && (s.narrow || !(match w.d with | .q _ => true | _ => false) || (w.a.uniform && w.b.uniform && w.c.uniform))
      && laExtra op w

/-- The bytes of one element of a memory format (R57). -/
def Fmt.bytes (f : Fmt) : Nat := f.width / 8

/-- The bytes that wid moves: one element, or 4, 8 or 16 (R146, R273). -/
def widBytes (f : Fmt) (wid : BitVec 2) : Nat := if wid = 0 then f.bytes else 2 ^ (wid.toNat + 1)

/-- The elements a memory word moves per lane, and the registers each takes (R273). -/
def memCount (f : Fmt) (wid : BitVec 2) : Nat := widBytes f wid / f.bytes
def memRegs (f : Fmt) : Nat := if f.wide then 2 else 1

/-- D of a multi-element word is a v register at a multiple of its register count (R273). -/
def memAlign (f : Fmt) (wid : BitVec 2) (o : Opd) : Bool :=
  let k := memCount f wid * memRegs f
  decide (k ≤ 1) || (match o with
    | .v n => n.toNat % k = 0 && decide (n.toNat + k ≤ 256)
    | _ => false)

/-- The positions of a memory word (R272): D, A and B, the formats, and the wid values; whether it is a load of wid sizes;
whether nwb is its field. -/
structure MemSpec where
  fmts : List Fmt
  wids : List Nat
  sized : Bool
  d : Pos
  a : Pos
  b : Pos
  nwb : Bool
  deriving DecidableEq, Repr

def lmSpec (op : Nat) : Option MemSpec :=
  match op with
  | 0x200 => some ⟨Fmt.memory, [0, 1, 2, 3], true, .vOnly, .addr, .idx, true⟩
  | 0x201 => some ⟨Fmt.memory, [0, 1, 2, 3], true, .any, .addr, .idx, false⟩
  | 0x202 | 0x204 => some ⟨Fmt.memory, [0, 1, 2, 3], true, .vOnly, .idx, .idx, true⟩
  | 0x203 | 0x205 => some ⟨Fmt.memory, [0, 1, 2, 3], true, .any, .idx, .idx, false⟩
  | 0x206 => some ⟨.fp32 :: Fmt.ints, [0, 1, 2, 3], false, .vOnly, .addr, .any, true⟩
  | 0x207 => some ⟨Fmt.ints, [0], false, .vOnly, .addr, .any, true⟩
  | 0x208 | 0x209 => some ⟨[], [1, 2, 3], false, .unused, .addr, .idx, false⟩
  | 0x20A => some ⟨[], [1, 2, 3], false, .unused, .addr, .idx, false⟩
  | 0x20B => some ⟨Fmt.memory, [0], false, .vOnly, .idx, .idx, true⟩
  | 0x20C => some ⟨Fmt.memory, [0], false, .any, .idx, .idx, false⟩
  | 0x20D => some ⟨[.n32, .n64], [0], false, .vOnly, .idx, .idx, true⟩
  | 0x20E => some ⟨[.fp32], [0, 2, 3], false, .vOnly, .tile, .idx, true⟩
  | 0x20F => some ⟨[.fp32], [0, 2, 3], false, .vOnly, .tile, .idx, false⟩
  | _ => none

/-- The elements that ACC.RD and ACC.WR move per lane (R320). -/
def accCount (wid : BitVec 2) : Nat := if wid = 0 then 1 else if wid = 2 then 2 else 4

def LM.ok (op : Nat) (w : LM) : Bool :=
  match lmSpec op with
  | none => false
  | some s =>
    (if s.fmts.isEmpty then w.fmt = .untyped else s.fmts.contains w.fmt)
      && s.wids.contains w.wid.toNat
      && s.d.accepts w.fmt w.d && s.a.accepts w.fmt w.a && s.b.accepts w.fmt w.b
      && (s.nwb || !w.nwb)
      && (!s.sized || (widBytes w.fmt w.wid % w.fmt.bytes = 0 && memAlign w.fmt w.wid w.d))
      && (op ≠ 0x206 || w.wid ≠ 3 || w.fmt ≠ .fp32)
      && (op ≠ 0x20A || (w.os = 0 && w.pm = 0))
      && (if op = 0x20E ∨ op = 0x20F then
            w.sc = .lane && w.os = 0 && w.pm = 0 && (op = 0x20E || !w.peek)
              && (match w.d with
                | .v n => n.toNat % accCount w.wid = 0 && decide (n.toNat + accCount w.wid ≤ 256)
                | _ => false)
          else !w.peek)

/-- A matrix word (R313): a tile, and two even q registers. -/
def LE.ok (w : LE) : Bool :=
  [Fmt.fp32, .fp16, .bf16, .e4m3, .e5m2, .l6].contains w.fmt
    && (match w.d with | .z _ => true | _ => false)
    && (match w.a with | .q n => n.toNat % 2 = 0 | _ => false)
    && (match w.b with | .q n => n.toNat % 2 = 0 | _ => false)

/-- GT needs TV, and a 32-bit form names g0 (R306). -/
def gtOk (len : ILen) (tv : Bool) (gt : BitVec 6) : Bool := gt = 0 || (tv && len ≠ .w32)

/-- An instruction that some encoding stands for (R141, R144 step 5, R148 steps 2 to 4 but for the partition). Events have
no encoding. -/
def Instr.wf : Instr → Bool
  | .addRegister _ _ _ _ => true
  | .addLiteral _ _ _ l => l.ok
  | .subRegister _ _ _ _ => true
  | .subLiteral _ _ _ l => l.ok
  | .mulRegister t _ _ _ => t.not72
  | .mulLiteral t _ _ l => t.not72 && l.ok
  | .mulhRegister t _ _ _ => t.not72
  | .mulhLiteral t _ _ l => t.not72 && l.ok
  | .divRegister t _ _ _ => t.not72
  | .divLiteral t _ _ l => t.not72 && l.ok
  | .remRegister t _ _ _ => t.not72
  | .remLiteral t _ _ l => t.not72 && l.ok
  | .andRegister _ _ _ _ => true
  | .andLiteral _ _ _ l => l.ok
  | .orRegister _ _ _ _ => true
  | .orLiteral _ _ _ l => l.ok
  | .xorRegister _ _ _ _ => true
  | .xorLiteral _ _ _ l => l.ok
  | .shlRegister _ _ _ _ => true
  | .shlLiteral _ _ _ l => l.ok
  | .shrRegister _ _ _ _ => true
  | .shrLiteral _ _ _ l => l.ok
  | .minRegister _ _ _ _ => true
  | .minLiteral _ _ _ l => l.ok
  | .maxRegister _ _ _ _ => true
  | .maxLiteral _ _ _ l => l.ok
  | .cmpRegister _ _ _ _ _ => true
  | .cmpLiteral _ _ _ _ l => l.ok
  | .movRegister _ _ _ => true
  | .movLiteral _ _ l => l.ok
  | .clz _ _ _ => true
  | .popc _ _ _ => true
  | .sel _ _ _ _ => true
  | .kop _ _ _ _ => true
  | .ext _ _ _ _ => true
  | .lea _ _ _ _ => true
  | .ld _ _ _ x => x.ok .cluster
  | .st _ _ _ x => x.ok .cluster
  | .atom _ _ _ _ c x => x.ok .device && ctx32 x.len c
  | .cas _ _ _ c x => x.ok .device && ctx32 x.len c
  | .br c k l => l.ok && (c != .always || k = 0)
  | .brr c k _ => (c != .always || k = 0)
  | .call _ l => l.ok
  | .callr _ _ => true
  | .loop _ l => l.ok
  | .ipf _ _ l => l.ok
  | .ipfr _ _ _ => true
  | .sysrd _ l => l.within 0 0xFFF && sysReadable l.val.toNat
  | .syswr _ l => l.within 0 0xFFF && sysWritable l.val.toNat
  | .yield l => l.within 1 65536
  | .step => true
  | .taskend => true
  | .trap l => l.within 0 65535
  | .nop => true
  | .adr _ l => l.ok
  | .emit n l => l.ok && holesOk (n.toNat + 1) l.val
  | .emitM _ _ _ _ => true
  | .captBegin l => l.within 0 255
  | .captEnd => true
  | .captDrop l => l.within 0 255
  | .captLoad l => l.within 0 255
  | .replay l => l.within 0 255
  | .replayM _ _ l => l.within 0 255
  | .hset _ _ => true
  | .vrd _ => true
  | .vtest _ => true
  | .swait l => l.within 0 262143
  | .srd _ _ => true
  | .fwaitAny _ _ => true
  | .fwaitAll _ _ => true
  | .fwaitFfr _ _ => true
  | .ftest _ _ => true
  | .ftestAddr _ _ => true
  | .fcancel _ => true
  | .fstore _ _ x => x.ok .device
  | .fload tv _ _ gt len => starLen len && (tv || gt = 0)
  | .freg _ _ c x => x.ok .device && ctx32 x.len c
  | .fsetInit n _ x => x.ok .device && n != 0
  | .fsetRes _ _ x => x.ok .device
  | .fsetCan _ x => x.ok .device
  | .spawn _ x => x.ok .device
  | .spawnMask _ c x => x.ok .device && ctx32 x.len c
  | .spawnRoot _ x => x.ok .device
  | .jraise l => l.within 1 65536
  | .bquery _ l => l.within 0 4
  | .flInit _ _ c l => l.within 0 15 && ctx32 l.len c
  | .flAcq _ l => l.within 0 15
  | .flCommit _ x => x.ok .cluster && decide (x.off.toNat ≤ 15)
  | .flCommitF _ _ x => x.ok .cluster && decide (x.off.toNat ≤ 15)
  | .flWait _ l => l.within 0 15
  | .flRel _ x => x.ok .cluster && decide (x.off.toNat ≤ 15)
  | .flRelF _ _ x => x.ok .cluster && decide (x.off.toNat ≤ 15)
  | .barCl => true
  | .barDie _ => true
  | .mon _ _ x => x.ok .device
  | .mwait _ _ => true
  | .wpSet _ _ x => x.ok .device
  | .wpClr _ => true
  | .copy _ _ _ x => x.ok .cluster Scope.generator true true
  | .gather tv _ _ _ c gt x => x.ok .cluster Scope.generator true true && ctx32 x.len c && gtOk x.len tv gt
  | .scatter tv _ _ _ c gt x => x.ok .cluster Scope.generator true true && ctx32 x.len c && gtOk x.len tv gt
  | .spmm _ _ _ _ c x => x.ok .cluster Scope.generator true true && ctx32 x.len c
  | .mergeU tv _ _ _ _ c gt x => x.ok .cluster Scope.generator true true && ctx32 x.len c && gtOk x.len tv gt
  | .mergeI tv _ _ _ c gt x => x.ok .cluster Scope.generator true true && ctx32 x.len c && gtOk x.len tv gt
  | .clBcast _ _ _ x => x.ok .device [.device, .system] true true
  | .clReduce _ _ _ _ x => x.ok .device [.device, .system] true true
  | .clAllred _ _ _ _ x => x.ok .device [.device, .system] true true
  | .clGather _ _ _ x => x.ok .device [.device, .system] true true
  | .clScatter _ _ _ x => x.ok .device [.device, .system] true true
  | .clA2a _ _ _ x => x.ok .device [.device, .system] true true
  | .wback _ _ _ x => x.ok .cluster Scope.generator false false
  | .dropr _ _ _ x => x.ok .cluster Scope.generator false false
  | .fill _ _ _ x => x.ok .cluster Scope.generator false true
  | .iadd w => w.ok 0x1
  | .isub w => w.ok 0x2
  | .imul w => w.ok 0x3
  | .imulh w => w.ok 0x4
  | .imad w => w.ok 0x5
  | .idiv w => w.ok 0x6
  | .irem w => w.ok 0x7
  | .imin w => w.ok 0x8
  | .imax w => w.ok 0x9
  | .iabs w => w.ok 0xa
  | .laneAnd w => w.ok 0xb
  | .laneOr w => w.ok 0xc
  | .laneXor w => w.ok 0xd
  | .laneShl w => w.ok 0xe
  | .laneShr w => w.ok 0xf
  | .laneClz w => w.ok 0x10
  | .lanePopc w => w.ok 0x11
  | .bfx w => w.ok 0x12
  | .bfi w => w.ok 0x13
  | .icmp w => w.ok 0x14
  | .laneSel w => w.ok 0x15
  | .laneMov w => w.ok 0x16
  | .affAdd w => w.ok 0x20
  | .affSub w => w.ok 0x21
  | .affMul w => w.ok 0x22
  | .affShl w => w.ok 0x23
  | .affMk w => w.ok 0x24
  | .affStr w => w.ok 0x25
  | .promQa w => w.ok 0x26
  | .promQv w => w.ok 0x27
  | .promAv w => w.ok 0x28
  | .xtr w => w.ok 0x29
  | .mAnd w => w.ok 0x30
  | .mOr w => w.ok 0x31
  | .mXor w => w.ok 0x32
  | .mNot w => w.ok 0x33
  | .mFromq w => w.ok 0x34
  | .mToq w => w.ok 0x35
  | .lexit w => w.ok 0x36
  | .shfl w => w.ok 0x40
  | .shflRot w => w.ok 0x41
  | .shflXor w => w.ok 0x42
  | .bcast w => w.ok 0x43
  | .redAdd w => w.ok 0x44
  | .redMin w => w.ok 0x45
  | .redMax w => w.ok 0x46
  | .redAnd w => w.ok 0x47
  | .redOr w => w.ok 0x48
  | .scanAdd w => w.ok 0x49
  | .scanMax w => w.ok 0x4a
  | .vote w => w.ok 0x4b
  | .isect w => w.ok 0x4c
  | .compact w => w.ok 0x4d
  | .expand w => w.ok 0x4e
  | .fadd w => w.ok 0x100
  | .fsub w => w.ok 0x101
  | .fmul w => w.ok 0x102
  | .fma w => w.ok 0x103
  | .fnma w => w.ok 0x104
  | .fdiv w => w.ok 0x105
  | .fsqrt w => w.ok 0x106
  | .fmin w => w.ok 0x107
  | .fmax w => w.ok 0x108
  | .fabs w => w.ok 0x109
  | .fneg w => w.ok 0x10a
  | .fcmp w => w.ok 0x10b
  | .fclass w => w.ok 0x10c
  | .fsgn w => w.ok 0x10d
  | .frnd w => w.ok 0x10e
  | .fscale w => w.ok 0x10f
  | .fgetexp w => w.ok 0x110
  | .frcp w => w.ok 0x120
  | .frsq w => w.ok 0x121
  | .fexp2 w => w.ok 0x122
  | .flog2 w => w.ok 0x123
  | .fsin w => w.ok 0x124
  | .fcos w => w.ok 0x125
  | .ftanh w => w.ok 0x126
  | .fsigm w => w.ok 0x127
  | .ferf w => w.ok 0x128
  | .cvt w => w.ok 0x140
  | .cvtBlk w => w.ok 0x141
  | .bscale w => w.ok 0x142
  | .planePk w => w.ok 0x143
  | .planeUp w => w.ok 0x144
  | .laneLd w => w.ok 0x200
  | .laneSt w => w.ok 0x201
  | .ldSp w => w.ok 0x202
  | .stSp w => w.ok 0x203
  | .ldWin w => w.ok 0x204
  | .stWin w => w.ok 0x205
  | .laneAtom w => w.ok 0x206
  | .laneCas w => w.ok 0x207
  | .ldcp w => w.ok 0x208
  | .stcp w => w.ok 0x209
  | .pref w => w.ok 0x20a
  | .sgath w => w.ok 0x20b
  | .sscat w => w.ok 0x20c
  | .hist w => w.ok 0x20d
  | .accRd w => w.ok 0x20e
  | .accWr w => w.ok 0x20f
  | .accClr w => w.ok 0x241
  | .mma w => w.ok
  | .contextForm _ => true
  | .contextPick _ => true
  | .contextUnblock _ _ => true
  | .watchdog _ => true
  | .portOperationStart _ _ => true
  | .portWordWrite _ _ => true
  | .replayReadback _ _ => true
  | .voteReady _ _ => true
  | .codeFillArrival _ _ _ _ => true
  | .pageWalkDone _ _ _ _ => true
  | .accessPerformed _ _ => true
  | .accessAcknowledgement _ => true
  | .engineCommandStart _ => true
  | .slotResolve _ _ _ => true
  | .mmaAccept _ => true
  | .mmaStep _ _ => true
  | .barrierRelease _ _ _ => true
  | .completionPost _ _ => true
  | .stopDrainEnd _ _ => true
  | .stuck _ _ => true
  | .preemptionRequest _ => true
  | .frameWrite _ _ => true
  | .saveDrainLimit _ _ => true
  | .frameRestore _ => true
  | .frameResume _ _ => true
  | .frameDiscard _ _ => true
  | .bargeAging _ _ => true
  | .dieGrant _ => true
  | .grantWaitCap _ => true
  | .dieAddRequest _ => true
  | .dieWithdrawRequest _ => true
  | .stealRequest _ => true
  | .stealAnswer _ => true
  | .hotspotMigration _ _ => true
  | .submissionExamine _ => true
  | .launch _ _ => true
  | .flush _ => true
  | .inval _ => true
  | .bind _ => true
  | .unbind _ => true
  | .abort _ => true
  | .mark _ => true
  | .completionRecordPost _ => true
  | .jobEnd _ => true
  | .cpringWrite _ _ => true
  | .sqtailWrite _ _ => true
  | .cqheadWrite _ _ => true
  | .haltRequest _ => true
  | .haltResume _ => true
  | .govctlWrite _ => true
  | .launchQuery _ => true
  | .makelive _ => true
  | .unload _ => true
  | .modulePurge _ => true
  | .moduleFree _ => true
  | .fetchctlWrite _ => true
  | .xlrootWrite _ _ => true
  | .tlbDrop _ => true
  | .tlbDropDone => true
  | .warmReset _ _ => true
  | .resetStopLimit _ => true
  | .quiesce _ => true
  | .writeback _ => true
  | .isolate _ => true
  | .retrain _ _ => true
  | .test _ _ => true
  | .readmit _ => true
  | .frameloWrite _ _ => true
  | .framehiWrite _ _ => true
  | .counterQuery _ _ => true
  | .ctrdumpWrite _ _ => true
  | .trloWrite _ _ => true
  | .trhiWrite _ _ => true
  | .counterSend _ _ => true
  | .energyInterval _ => true
  | .tollcfgWrite _ _ => true
  | .tollcostWrite _ _ => true
  | .ratioChange _ => true
  | .powerInterval _ => true
  | .powerctlWrite _ => true
  | .throttle _ => true
  | .thermalTrip _ => true
  | .calibrationStart _ => true
  | .calibrationStep _ _ => true
  | .scrubLine _ _ _ => true
  | .linkFlitError _ _ => true
  | .linkFailure _ => true
  | .finzuRetrain _ => true
  | .finzuPortTrained _ _ _ => true
  | .peerRequest _ _ _ => true
  | .hostFlagWindowAccess _ => true
  | .hostApertureAccess _ _ => true
  | .hostLinkDown => true
  | .idbootWrite _ => true
  | .attestationRequest _ => true
  | .attestationReportDone => true
  | .firmwareCheck _ => true
  | .firmwareCheckDone => true
  | .powerOn => true
  | .powerOff => true
  | .mwaitLimit _ _ => true
  | .registerWrite _ _ => true
  | .tollRefill _ => true
  | .hostLinkUp => true
  | .throttleEnd _ => true

end Sys2Proof
end

