-- ==== Sys2Proof/Decode.lean ====
section
/-! DEFINITION. Encodings: an encoder written from the field tables of the spec, and a decoder that accepts exactly the words
the encoder makes of a well-formed instruction. -/

namespace Sys2Proof

open Machine

/-! ### Codes of the named fields -/

def GTy.code : GTy → Nat | .i64 => 0 | .n64 => 1 | .i32 => 2 | .n32 => 3 | .a72 => 4
def GTy.ofCode : Nat → Option GTy
  | 0 => some .i64 | 1 => some .n64 | 2 => some .i32 | 3 => some .n32 | 4 => some .a72 | _ => none
def Rel.code : Rel → Nat | .eq => 0 | .ne => 1 | .lt => 2 | .ge => 3
def Rel.ofCode : Nat → Rel | 0 => .eq | 1 => .ne | 2 => .lt | _ => .ge
def CTy.code : CTy → Nat | .i64 => 0 | .n64 => 1 | .i32 => 2 | .a72 => 3
def CTy.ofCode : Nat → CTy | 0 => .i64 | 1 => .n64 | 2 => .i32 | _ => .a72
def BTy.code : BTy → Nat | .n64 => 1 | .n32 => 3 | .a72 => 4
def BTy.ofCode : Nat → Option BTy | 1 => some .n64 | 3 => some .n32 | 4 => some .a72 | _ => none
def MTy.code : MTy → Nat
  | .i64 => 0 | .n64 => 1 | .i32 => 2 | .n32 => 3 | .a72 => 4 | .i16 => 5 | .n16 => 6 | .i8 => 7 | .n8 => 8
def MTy.ofCode : Nat → Option MTy
  | 0 => some .i64 | 1 => some .n64 | 2 => some .i32 | 3 => some .n32 | 4 => some .a72 | 5 => some .i16 | 6 => some .n16
  | 7 => some .i8 | 8 => some .n8 | _ => none
def GAtom.code : GAtom → Nat
  | .add => 0 | .smin => 1 | .nmin => 2 | .smax => 3 | .nmax => 4 | .and => 5 | .or => 6 | .xor => 7
def GAtom.ofCode : Nat → GAtom
  | 0 => .add | 1 => .smin | 2 => .nmin | 3 => .smax | 4 => .nmax | 5 => .and | 6 => .or | _ => .xor
def BrCond.code : BrCond → Nat | .always => 0 | .ks => 1 | .kc => 2
def BrCond.ofCode : Nat → Option BrCond | 0 => some .always | 1 => some .ks | 2 => some .kc | _ => none
def Level.code : Level → Nat | .i0 => 0 | .i1 => 1 | .i2 => 2
def Level.ofCode : Nat → Option Level | 0 => some .i0 | 1 => some .i1 | 2 => some .i2 | _ => none
def RedOp.code : RedOp → Nat | .add => 0 | .min => 1 | .max => 2
def RedOp.ofCode : Nat → Option RedOp | 0 => some .add | 1 => some .min | 2 => some .max | _ => none
def Hint.code : Hint → Nat | .normal => 0 | .evictFirst => 1 | .evictLast => 2
def Hint.ofCode : Nat → Option Hint | 0 => some .normal | 1 => some .evictFirst | 2 => some .evictLast | _ => none
def ILen.code : ILen → Nat | .w32 => 0 | .w64 => 1 | .w96 => 2 | .w128 => 3
def ILen.ofCode : Nat → ILen | 0 => .w32 | 1 => .w64 | 2 => .w96 | _ => .w128
/-- The 32-bit words of a form (R140). -/
def ILen.words : ILen → Nat | .w32 => 1 | .w64 => 2 | .w96 => 3 | .w128 => 4
def Scope.code : Scope → Nat
  | .lane => 0 | .core => 1 | .bay => 2 | .cluster => 3 | .die => 4 | .device => 5 | .system => 6
def Scope.ofCode : Nat → Option Scope
  | 0 => some .lane | 1 => some .core | 2 => some .bay | 3 => some .cluster | 4 => some .die | 5 => some .device
  | 6 => some .system | _ => none
def Rnd.code : Rnd → Nat | .rne => 0 | .rtz => 1 | .rdn => 2 | .rup => 3 | .rna => 4
def Rnd.ofCode : Nat → Option Rnd
  | 0 => some .rne | 1 => some .rtz | 2 => some .rdn | 3 => some .rup | 4 => some .rna | _ => none
def Fmt.ofCode : Nat → Option Fmt
  | 0 => some .untyped | 1 => some .fp32 | 2 => some .fp16 | 3 => some .bf16 | 4 => some .e4m3 | 5 => some .e5m2 | 6 => some .l6
  | 8 => some .i4 | 9 => some .n4 | 10 => some .i8 | 11 => some .n8 | 12 => some .i32 | 13 => some .n32 | 14 => some .i64
  | 15 => some .n64 | _ => none

/-! ### Generator words (R140, R141) -/

/-- The annotation fields of an instruction that has none: zero (R142). -/
def noAnn : Ann := ⟨0, 0, .lane⟩

/-- The first word. -/
def word0 (len op d a b fn : Nat) : W32 :=
  BitVec.ofNat 32 (len + 4 * op + 1024 * d + 65536 * a + 4194304 * b + 268435456 * fn)

/-- The extension word. -/
def wordX (c : Nat) (ann : Ann) (imm : Nat) : W32 :=
  BitVec.ofNat 32 (imm + 4096 * ann.sc.code + 32768 * ann.pm.toNat + 8388608 * ann.os.toNat + 67108864 * c)

/-- A form without a literal: 32 bits, or 64 with X. -/
def encReg (op fn d a b c : Nat) (len : ILen) (ann : Ann) (imm : Nat) : List W32 :=
  match len with
  | .w32 => [word0 0 op d a b fn]
  | _ => [word0 len.code op d a b fn, wordX c ann imm]

/-- A form with a literal, in the length given. -/
def encLit (op fn d a c : Nat) (len : ILen) (ann : Ann) (v : W64) : List W32 :=
  match len with
  | .w32 => [word0 0 op d a (v.toNat % 64) fn]
  | .w64 => [word0 1 op d a (v.toNat % 64) fn, wordX c ann (v.toNat / 64 % 4096)]
  | .w96 => [word0 2 op d a 0 fn, wordX c ann 0, BitVec.ofNat 32 v.toNat]
  | .w128 => [word0 3 op d a 0 fn, wordX c ann 0, BitVec.ofNat 32 v.toNat, BitVec.ofNat 32 (v.toNat / 4294967296)]

/-- A 32-bit form carries no annotation: its fields stand for the instruction's default (R141). -/
def MX.annOf (x : MX) (_ : Scope) : Ann := x.ann
def SX.annOf (x : SX) (_ : Scope) : Ann := x.ann
def EX.annOf (x : EX) (_ : Scope) : Ann := x.ann

/-- The modifier field of an engine command (R306). -/
def EX.imm (x : EX) (gt : Nat) : Nat := x.rnd.code + 8 * boolNat x.sat + 16 * x.hint.code + 64 * gt

/-- The fields of a generator instruction's words (R140, R141). -/
structure Fields where
  len : ILen
  fn  : Nat
  b   : BitVec 6
  a   : BitVec 6
  d   : BitVec 6
  c   : BitVec 6
  os  : BitVec 3
  pm  : BitVec 8
  sc  : Nat
  imm : Nat
  lit : W64
  deriving DecidableEq, Repr

/-- The literal of a form (R141). -/
def literal (len : ILen) (b imm w2 w3 : Nat) : W64 :=
  match len with
  | .w32 => sext64 6 b
  | .w64 => sext64 18 (b + 64 * imm)
  | .w96 => sext64 32 w2
  | .w128 => BitVec.ofNat 64 (w2 + 4294967296 * w3)

/-- The fields of the words w0 to w3; words past the instruction's length are not looked at. -/
def fieldsOf (w0 w1 w2 w3 : W32) : Fields :=
  let len := ILen.ofCode (w0.toNat % 4)
  let x := if len = .w32 then 0 else w1.toNat
  let b := w0.toNat / 4194304 % 64
  { len := len, fn := w0.toNat / 268435456, b := BitVec.ofNat 6 b, a := BitVec.ofNat 6 (w0.toNat / 65536),
    d := BitVec.ofNat 6 (w0.toNat / 1024), c := BitVec.ofNat 6 (x / 67108864), os := BitVec.ofNat 3 (x / 8388608),
    pm := BitVec.ofNat 8 (x / 32768), sc := x / 4096 % 8, imm := x % 4096,
    lit := literal len b (x % 4096) w2.toNat w3.toNat }

namespace Fields
def gty (f : Fields) : Option GTy := GTy.ofCode f.fn
def glit (f : Fields) : GLit := ⟨f.len, f.lit⟩
/-- The annotation, which a 32-bit form takes from the default. -/
def ann (f : Fields) (dflt : Scope) : Option Ann :=
  if f.len = .w32 then some ⟨0, 0, dflt⟩ else (Scope.ofCode f.sc).map (fun s => ⟨f.os, f.pm, s⟩)
def mx (f : Fields) (dflt : Scope) : Option MX := (f.ann dflt).map (fun a => ⟨f.len, f.lit, a⟩)
def sx (f : Fields) (dflt : Scope) : Option SX := (f.ann dflt).map (fun a => ⟨f.len, a⟩)
def gt (f : Fields) : BitVec 6 := BitVec.ofNat 6 (f.imm / 64)
def ex (f : Fields) (dflt : Scope) : Option EX :=
  (f.ann dflt).bind (fun a => (Rnd.ofCode (f.imm % 8)).bind (fun r => (Hint.ofCode (f.imm / 16 % 4)).map (fun h =>
    ⟨f.len, a, r, f.imm / 8 % 2 = 1, h⟩)))
end Fields

/-! ### Lane words (R30, R146) -/

/-- The ten bits of an operand. -/
def Opd.bits : Opd → Nat
  | .v n => n.toNat
  | .a n => 256 + n.toNat
  | .q n => 512 + n.toNat
  | .b n => 768 + n.toNat
  | .imm n => 896 + n.toNat
  | .m n => n.toNat
  | .z n => n.toNat
  | .unused => 0

/-- The operand that ten bits name in a position; none for an index that R30 does not assign there. -/
def opdOf (p : Pos) (x : Nat) : Option Opd :=
  match p with
  | .unused => if x = 0 then some .unused else none
  | .mask _ => if x < 8 then some (.m (BitVec.ofNat 3 x)) else none
  | .tile => if x < 16 then some (.z (BitVec.ofNat 4 x)) else none
  | .fmt => if x < 16 then some (.z (BitVec.ofNat 4 x)) else none
  | _ =>
    if x < 256 then some (.v (BitVec.ofNat 8 x))
    else if x < 272 then some (.a (BitVec.ofNat 4 (x - 256)))
    else if x < 512 then none
    else if x < 528 then some (.q (BitVec.ofNat 4 (x - 512)))
    else if x < 768 then none
    else if x < 772 then some (.b (BitVec.ofNat 2 (x - 768)))
    else if x < 896 then none
    else some (.imm (BitVec.ofNat 7 (x - 896)))

/-- Bits 43:0, alike in every layout. -/
def lowBits (op : Nat) (d a b : Opd) (gm : BitVec 3) (nwb : Bool) : Nat :=
  op + 1024 * d.bits + 1048576 * a.bits + 1073741824 * b.bits + 1099511627776 * gm.toNat + 8796093022208 * boolNat nwb

/-- CVT holds its source code in C bits 47:44, which is where class 00 holds an index (R242). -/
def LA.bits (op : Nat) (w : LA) : W64 :=
  BitVec.ofNat 64 (lowBits op w.d w.a w.b w.gm w.nwb + 2 ^ 44 * w.c.bits + 2 ^ 54 * w.sub.toNat + 2 ^ 57 * w.rnd.code
    + 2 ^ 60 * w.fmt.code)

def LM.bits (op : Nat) (w : LM) : W64 :=
  BitVec.ofNat 64 (lowBits op w.d w.a w.b w.gm w.nwb + 2 ^ 44 * w.os.toNat + 2 ^ 47 * w.pm.toNat
    + 2 ^ 55 * (if w.peek then 1 else w.sc.code) + 2 ^ 58 * w.wid.toNat + 2 ^ 60 * w.fmt.code)

def LE.bits (w : LE) : W64 :=
  BitVec.ofNat 64 (lowBits 0x240 w.d w.a w.b w.gm false + 2 ^ 44 * w.os.toNat + 2 ^ 47 * w.pm.toNat
    + 2 ^ 55 * w.fslot.toNat + 2 ^ 61 * w.fmt.code)


/-- The 32-bit words of a generator instruction; none for a lane word or an event (R140, R141, R143). (DEDUCED, log 59, 65) (DEDUCED, log
59; DEDUCED, log 65) -/
def encode : Instr → List W32
  | .addRegister t d a b => encReg 2 t.code d.toNat a.toNat b.toNat 0 .w32 noAnn 0
  | .addLiteral t d a l => encLit 3 t.code d.toNat a.toNat 0 l.len noAnn l.val
  | .subRegister t d a b => encReg 4 t.code d.toNat a.toNat b.toNat 0 .w32 noAnn 0
  | .subLiteral t d a l => encLit 5 t.code d.toNat a.toNat 0 l.len noAnn l.val
  | .mulRegister t d a b => encReg 6 t.code d.toNat a.toNat b.toNat 0 .w32 noAnn 0
  | .mulLiteral t d a l => encLit 7 t.code d.toNat a.toNat 0 l.len noAnn l.val
  | .mulhRegister t d a b => encReg 8 t.code d.toNat a.toNat b.toNat 0 .w32 noAnn 0
  | .mulhLiteral t d a l => encLit 9 t.code d.toNat a.toNat 0 l.len noAnn l.val
  | .divRegister t d a b => encReg 10 t.code d.toNat a.toNat b.toNat 0 .w32 noAnn 0
  | .divLiteral t d a l => encLit 11 t.code d.toNat a.toNat 0 l.len noAnn l.val
  | .remRegister t d a b => encReg 12 t.code d.toNat a.toNat b.toNat 0 .w32 noAnn 0
  | .remLiteral t d a l => encLit 13 t.code d.toNat a.toNat 0 l.len noAnn l.val
  | .andRegister t d a b => encReg 14 t.code d.toNat a.toNat b.toNat 0 .w32 noAnn 0
  | .andLiteral t d a l => encLit 15 t.code d.toNat a.toNat 0 l.len noAnn l.val
  | .orRegister t d a b => encReg 16 t.code d.toNat a.toNat b.toNat 0 .w32 noAnn 0
  | .orLiteral t d a l => encLit 17 t.code d.toNat a.toNat 0 l.len noAnn l.val
  | .xorRegister t d a b => encReg 18 t.code d.toNat a.toNat b.toNat 0 .w32 noAnn 0
  | .xorLiteral t d a l => encLit 19 t.code d.toNat a.toNat 0 l.len noAnn l.val
  | .shlRegister t d a b => encReg 20 t.code d.toNat a.toNat b.toNat 0 .w32 noAnn 0
  | .shlLiteral t d a l => encLit 21 t.code d.toNat a.toNat 0 l.len noAnn l.val
  | .shrRegister t d a b => encReg 22 t.code d.toNat a.toNat b.toNat 0 .w32 noAnn 0
  | .shrLiteral t d a l => encLit 23 t.code d.toNat a.toNat 0 l.len noAnn l.val
  | .minRegister t d a b => encReg 24 t.code d.toNat a.toNat b.toNat 0 .w32 noAnn 0
  | .minLiteral t d a l => encLit 25 t.code d.toNat a.toNat 0 l.len noAnn l.val
  | .maxRegister t d a b => encReg 26 t.code d.toNat a.toNat b.toNat 0 .w32 noAnn 0
  | .maxLiteral t d a l => encLit 27 t.code d.toNat a.toNat 0 l.len noAnn l.val
  | .cmpRegister r t d a b => encReg 0x1C (4 * r.code + t.code) d.toNat a.toNat b.toNat 0 .w32 noAnn 0
  | .cmpLiteral r t d a l => encLit 0x1D (4 * r.code + t.code) d.toNat a.toNat 0 l.len noAnn l.val
  | .movRegister t d a => encReg 0x1E t.code d.toNat a.toNat 0 0 .w32 noAnn 0
  | .movLiteral t d l => encLit 0x1F t.code d.toNat 0 0 l.len noAnn l.val
  | .clz t d a => encReg 32 t.code d.toNat a.toNat 0 0 .w32 noAnn 0
  | .popc t d a => encReg 33 t.code d.toNat a.toNat 0 0 .w32 noAnn 0
  | .sel d c a b => encReg 0x22 c.toNat d.toNat a.toNat b.toNat 0 .w32 noAnn 0
  | .kop d a b table => encReg 0x23 table.toNat d.toNat a.toNat b.toNat 0 .w32 noAnn 0
  | .ext s d a n => encReg 0x24 (boolNat s) d.toNat a.toNat n.toNat 0 .w32 noAnn 0
  | .lea d a b sh => encReg 0x25 sh.toNat d.toNat a.toNat b.toNat 0 .w32 noAnn 0
  | .ld t d a x => encLit 0x26 t.code d.toNat a.toNat 0 x.len (x.annOf .cluster) x.off
  | .st t d a x => encLit 0x27 t.code d.toNat a.toNat 0 x.len (x.annOf .cluster) x.off
  | .atom n op d a c x => encLit 0x28 (8 * boolNat n + op.code) d.toNat a.toNat c.toNat x.len (x.annOf .device) x.off
  | .cas n d a c x => encLit 0x29 (8 * boolNat n) d.toNat a.toNat c.toNat x.len (x.annOf .device) x.off
  | .br c k l => encLit 0x2A c.code k.toNat 0 0 l.len noAnn l.val
  | .brr c k a => encReg 0x2B c.code k.toNat a.toNat 0 0 .w32 noAnn 0
  | .call d l => encLit 0x2C 0 d.toNat 0 0 l.len noAnn l.val
  | .callr d a => encReg 0x2D 0 d.toNat a.toNat 0 0 .w32 noAnn 0
  | .loop d l => encLit 0x2E 0 d.toNat 0 0 l.len noAnn l.val
  | .ipf v n l => encLit 0x2F v.code n.toNat 0 0 l.len noAnn l.val
  | .ipfr v n a => encReg 0x30 v.code n.toNat a.toNat 0 0 .w32 noAnn 0
  | .sysrd d l => encLit 0x31 0 d.toNat 0 0 l.len noAnn l.val
  | .syswr a l => encLit 0x32 0 0 a.toNat 0 l.len noAnn l.val
  | .yield l => encLit 51 0 0 0 0 l.len noAnn l.val
  | .step => encReg 52 0 0 0 0 0 .w32 noAnn 0
  | .taskend => encReg 53 0 0 0 0 0 .w32 noAnn 0
  | .trap l => encLit 54 0 0 0 0 l.len noAnn l.val
  | .nop => encReg 55 0 0 0 0 0 .w32 noAnn 0
  | .adr d l => encLit 0x38 0 d.toNat 0 0 l.len noAnn l.val
  | .emit n l => encLit 0x40 0 n.toNat 0 0 l.len noAnn l.val
  | .emitM die n a len => encLit 0x41 (boolNat die) n.toNat a.toNat 0 len noAnn 0
  | .captBegin l => encLit 66 0 0 0 0 l.len noAnn l.val
  | .captEnd => encReg 67 0 0 0 0 0 .w32 noAnn 0
  | .captDrop l => encLit 68 0 0 0 0 l.len noAnn l.val
  | .captLoad l => encLit 69 0 0 0 0 l.len noAnn l.val
  | .replay l => encLit 70 0 0 0 0 l.len noAnn l.val
  | .replayM die a l => encLit 0x47 (boolNat die) 0 a.toNat 0 l.len noAnn l.val
  | .hset n a => encReg 0x48 0 n.toNat a.toNat 0 0 .w32 noAnn 0
  | .vrd d => encReg 0x49 0 d.toNat 0 0 0 .w32 noAnn 0
  | .vtest k => encReg 0x4A 0 k.toNat 0 0 0 .w32 noAnn 0
  | .swait l => encLit 75 0 0 0 0 l.len noAnn l.val
  | .srd d n => encReg 0x4C 0 d.toNat n.toNat 0 0 .w32 noAnn 0
  | .fwaitAny d a => encReg 80 0 d.toNat a.toNat 0 0 .w32 noAnn 0
  | .fwaitAll d a => encReg 81 0 d.toNat a.toNat 0 0 .w32 noAnn 0
  | .fwaitFfr d a => encReg 82 0 d.toNat a.toNat 0 0 .w32 noAnn 0
  | .ftest d a => encReg 0x53 0 d.toNat a.toNat 0 0 .w32 noAnn 0
  | .ftestAddr d a => encReg 0x53 1 d.toNat a.toNat 0 0 .w32 noAnn 0
  | .fcancel f => encReg 0x54 0 0 f.toNat 0 0 .w32 noAnn 0
  | .fstore f a x => encReg 85 0 f.toNat a.toNat 0 0 x.len (x.annOf .device) 0
  | .fload tv f a gt len => encReg 0x56 (8 * boolNat tv) f.toNat a.toNat gt.toNat 0 len noAnn 0
  | .freg a b c x => encReg 87 0 0 a.toNat b.toNat c.toNat x.len (x.annOf .device) 0
  | .fsetInit n a x => encReg 88 0 n.toNat a.toNat 0 0 x.len (x.annOf .device) 0
  | .fsetRes a b x => encReg 88 1 0 a.toNat b.toNat 0 x.len (x.annOf .device) 0
  | .fsetCan a x => encReg 88 2 0 a.toNat 0 0 x.len (x.annOf .device) 0
  | .spawn a x => encLit 0x59 0 0 a.toNat 0 x.len (x.annOf .device) x.off
  | .spawnMask a c x => encLit 0x59 1 0 a.toNat c.toNat x.len (x.annOf .device) x.off
  | .spawnRoot a x => encLit 0x59 2 0 a.toNat 0 x.len (x.annOf .device) x.off
  | .jraise l => encLit 90 0 0 0 0 l.len noAnn l.val
  | .bquery d l => encLit 0x5B 0 d.toNat 0 0 l.len noAnn l.val
  | .flInit win a c l => encLit 0x5C (boolNat win) 0 a.toNat c.toNat l.len noAnn l.val
  | .flAcq d l => encLit 0x5D 0 d.toNat 0 0 l.len noAnn l.val
  | .flCommit a x => encLit 94 0 0 a.toNat 0 x.len (x.annOf .cluster) x.off
  | .flCommitF f a x => encLit 94 1 f.toNat a.toNat 0 x.len (x.annOf .cluster) x.off
  | .flWait d l => encLit 0x5F 0 d.toNat 0 0 l.len noAnn l.val
  | .flRel a x => encLit 96 0 0 a.toNat 0 x.len (x.annOf .cluster) x.off
  | .flRelF f a x => encLit 96 1 f.toNat a.toNat 0 x.len (x.annOf .cluster) x.off
  | .barCl => encReg 97 0 0 0 0 0 .w32 noAnn 0
  | .barDie n => encReg 0x62 n.toNat 0 0 0 0 .w32 noAnn 0
  | .mon d a x => encReg 99 0 d.toNat a.toNat 0 0 x.len (x.annOf .device) 0
  | .mwait d a => encReg 0x64 0 d.toNat a.toNat 0 0 .w32 noAnn 0
  | .wpSet d a x => encReg 101 0 d.toNat a.toNat 0 0 x.len (x.annOf .device) 0
  | .wpClr a => encReg 0x66 0 0 a.toNat 0 0 .w32 noAnn 0
  | .copy f a b x => encReg 112 0 f.toNat a.toNat b.toNat 0 x.len (x.annOf .cluster) (x.imm 0)
  | .gather tv f a b c gt x => encReg 113 (8 * boolNat tv) f.toNat a.toNat b.toNat c.toNat x.len (x.annOf .cluster) (x.imm gt.toNat)
  | .scatter tv f a b c gt x => encReg 114 (8 * boolNat tv) f.toNat a.toNat b.toNat c.toNat x.len (x.annOf .cluster) (x.imm gt.toNat)
  | .spmm s f a b c x => encReg 115 (boolNat s) f.toNat a.toNat b.toNat c.toNat x.len (x.annOf .cluster) (x.imm 0)
  | .mergeU tv dz f a b c gt x => encReg 116 (8 * boolNat tv + boolNat dz) f.toNat a.toNat b.toNat c.toNat x.len (x.annOf .cluster) (x.imm gt.toNat)
  | .mergeI tv f a b c gt x => encReg 117 (8 * boolNat tv) f.toNat a.toNat b.toNat c.toNat x.len (x.annOf .cluster) (x.imm gt.toNat)
  | .clBcast f a b x => encReg 118 0 f.toNat a.toNat b.toNat 0 x.len (x.annOf .device) (x.imm 0)
  | .clReduce op f a b x => encReg 119 op.code f.toNat a.toNat b.toNat 0 x.len (x.annOf .device) (x.imm 0)
  | .clAllred op f a b x => encReg 120 op.code f.toNat a.toNat b.toNat 0 x.len (x.annOf .device) (x.imm 0)
  | .clGather f a b x => encReg 121 0 f.toNat a.toNat b.toNat 0 x.len (x.annOf .device) (x.imm 0)
  | .clScatter f a b x => encReg 122 0 f.toNat a.toNat b.toNat 0 x.len (x.annOf .device) (x.imm 0)
  | .clA2a f a b x => encReg 123 0 f.toNat a.toNat b.toNat 0 x.len (x.annOf .device) (x.imm 0)
  | .wback f a b x => encReg 124 0 f.toNat a.toNat b.toNat 0 x.len (x.annOf .cluster) (x.imm 0)
  | .dropr f a b x => encReg 125 0 f.toNat a.toNat b.toNat 0 x.len (x.annOf .cluster) (x.imm 0)
  | .fill f a b x => encReg 126 0 f.toNat a.toNat b.toNat 0 x.len (x.annOf .cluster) (x.imm 0)
  | .iadd _ => []
  | .isub _ => []
  | .imul _ => []
  | .imulh _ => []
  | .imad _ => []
  | .idiv _ => []
  | .irem _ => []
  | .imin _ => []
  | .imax _ => []
  | .iabs _ => []
  | .laneAnd _ => []
  | .laneOr _ => []
  | .laneXor _ => []
  | .laneShl _ => []
  | .laneShr _ => []
  | .laneClz _ => []
  | .lanePopc _ => []
  | .bfx _ => []
  | .bfi _ => []
  | .icmp _ => []
  | .laneSel _ => []
  | .laneMov _ => []
  | .affAdd _ => []
  | .affSub _ => []
  | .affMul _ => []
  | .affShl _ => []
  | .affMk _ => []
  | .affStr _ => []
  | .promQa _ => []
  | .promQv _ => []
  | .promAv _ => []
  | .xtr _ => []
  | .mAnd _ => []
  | .mOr _ => []
  | .mXor _ => []
  | .mNot _ => []
  | .mFromq _ => []
  | .mToq _ => []
  | .lexit _ => []
  | .shfl _ => []
  | .shflRot _ => []
  | .shflXor _ => []
  | .bcast _ => []
  | .redAdd _ => []
  | .redMin _ => []
  | .redMax _ => []
  | .redAnd _ => []
  | .redOr _ => []
  | .scanAdd _ => []
  | .scanMax _ => []
  | .vote _ => []
  | .isect _ => []
  | .compact _ => []
  | .expand _ => []
  | .fadd _ => []
  | .fsub _ => []
  | .fmul _ => []
  | .fma _ => []
  | .fnma _ => []
  | .fdiv _ => []
  | .fsqrt _ => []
  | .fmin _ => []
  | .fmax _ => []
  | .fabs _ => []
  | .fneg _ => []
  | .fcmp _ => []
  | .fclass _ => []
  | .fsgn _ => []
  | .frnd _ => []
  | .fscale _ => []
  | .fgetexp _ => []
  | .frcp _ => []
  | .frsq _ => []
  | .fexp2 _ => []
  | .flog2 _ => []
  | .fsin _ => []
  | .fcos _ => []
  | .ftanh _ => []
  | .fsigm _ => []
  | .ferf _ => []
  | .cvt _ => []
  | .cvtBlk _ => []
  | .bscale _ => []
  | .planePk _ => []
  | .planeUp _ => []
  | .laneLd _ => []
  | .laneSt _ => []
  | .ldSp _ => []
  | .stSp _ => []
  | .ldWin _ => []
  | .stWin _ => []
  | .laneAtom _ => []
  | .laneCas _ => []
  | .ldcp _ => []
  | .stcp _ => []
  | .pref _ => []
  | .sgath _ => []
  | .sscat _ => []
  | .hist _ => []
  | .accRd _ => []
  | .accWr _ => []
  | .accClr _ => []
  | .mma _ => []
  | .contextForm _ => []
  | .contextPick _ => []
  | .contextUnblock _ _ => []
  | .watchdog _ => []
  | .portOperationStart _ _ => []
  | .portWordWrite _ _ => []
  | .replayReadback _ _ => []
  | .voteReady _ _ => []
  | .codeFillArrival _ _ _ _ => []
  | .pageWalkDone _ _ _ _ => []
  | .accessPerformed _ _ => []
  | .accessAcknowledgement _ => []
  | .engineCommandStart _ => []
  | .slotResolve _ _ _ => []
  | .mmaAccept _ => []
  | .mmaStep _ _ => []
  | .barrierRelease _ _ _ => []
  | .completionPost _ _ => []
  | .stopDrainEnd _ _ => []
  | .stuck _ _ => []
  | .preemptionRequest _ => []
  | .frameWrite _ _ => []
  | .saveDrainLimit _ _ => []
  | .frameRestore _ => []
  | .frameResume _ _ => []
  | .frameDiscard _ _ => []
  | .bargeAging _ _ => []
  | .dieGrant _ => []
  | .grantWaitCap _ => []
  | .dieAddRequest _ => []
  | .dieWithdrawRequest _ => []
  | .stealRequest _ => []
  | .stealAnswer _ => []
  | .hotspotMigration _ _ => []
  | .submissionExamine _ => []
  | .launch _ _ => []
  | .flush _ => []
  | .inval _ => []
  | .bind _ => []
  | .unbind _ => []
  | .abort _ => []
  | .mark _ => []
  | .completionRecordPost _ => []
  | .jobEnd _ => []
  | .cpringWrite _ _ => []
  | .sqtailWrite _ _ => []
  | .cqheadWrite _ _ => []
  | .haltRequest _ => []
  | .haltResume _ => []
  | .govctlWrite _ => []
  | .launchQuery _ => []
  | .makelive _ => []
  | .unload _ => []
  | .modulePurge _ => []
  | .moduleFree _ => []
  | .fetchctlWrite _ => []
  | .xlrootWrite _ _ => []
  | .tlbDrop _ => []
  | .tlbDropDone => []
  | .warmReset _ _ => []
  | .resetStopLimit _ => []
  | .quiesce _ => []
  | .writeback _ => []
  | .isolate _ => []
  | .retrain _ _ => []
  | .test _ _ => []
  | .readmit _ => []
  | .frameloWrite _ _ => []
  | .framehiWrite _ _ => []
  | .counterQuery _ _ => []
  | .ctrdumpWrite _ _ => []
  | .trloWrite _ _ => []
  | .trhiWrite _ _ => []
  | .counterSend _ _ => []
  | .energyInterval _ => []
  | .tollcfgWrite _ _ => []
  | .tollcostWrite _ _ => []
  | .ratioChange _ => []
  | .powerInterval _ => []
  | .powerctlWrite _ => []
  | .throttle _ => []
  | .thermalTrip _ => []
  | .calibrationStart _ => []
  | .calibrationStep _ _ => []
  | .scrubLine _ _ _ => []
  | .linkFlitError _ _ => []
  | .linkFailure _ => []
  | .finzuRetrain _ => []
  | .finzuPortTrained _ _ _ => []
  | .peerRequest _ _ _ => []
  | .hostFlagWindowAccess _ => []
  | .hostApertureAccess _ _ => []
  | .hostLinkDown => []
  | .idbootWrite _ => []
  | .attestationRequest _ => []
  | .attestationReportDone => []
  | .firmwareCheck _ => []
  | .firmwareCheckDone => []
  | .powerOn => []
  | .powerOff => []
  | .mwaitLimit _ _ => []
  | .registerWrite _ _ => []
  | .tollRefill _ => []
  | .hostLinkUp => []
  | .throttleEnd _ => []

/-- The 64 bits of a lane word; none for the rest (R146, R147). (DEDUCED, log 65) -/
def encodeLane : Instr → Option W64
  | .addRegister _ _ _ _ => none
  | .addLiteral _ _ _ _ => none
  | .subRegister _ _ _ _ => none
  | .subLiteral _ _ _ _ => none
  | .mulRegister _ _ _ _ => none
  | .mulLiteral _ _ _ _ => none
  | .mulhRegister _ _ _ _ => none
  | .mulhLiteral _ _ _ _ => none
  | .divRegister _ _ _ _ => none
  | .divLiteral _ _ _ _ => none
  | .remRegister _ _ _ _ => none
  | .remLiteral _ _ _ _ => none
  | .andRegister _ _ _ _ => none
  | .andLiteral _ _ _ _ => none
  | .orRegister _ _ _ _ => none
  | .orLiteral _ _ _ _ => none
  | .xorRegister _ _ _ _ => none
  | .xorLiteral _ _ _ _ => none
  | .shlRegister _ _ _ _ => none
  | .shlLiteral _ _ _ _ => none
  | .shrRegister _ _ _ _ => none
  | .shrLiteral _ _ _ _ => none
  | .minRegister _ _ _ _ => none
  | .minLiteral _ _ _ _ => none
  | .maxRegister _ _ _ _ => none
  | .maxLiteral _ _ _ _ => none
  | .cmpRegister _ _ _ _ _ => none
  | .cmpLiteral _ _ _ _ _ => none
  | .movRegister _ _ _ => none
  | .movLiteral _ _ _ => none
  | .clz _ _ _ => none
  | .popc _ _ _ => none
  | .sel _ _ _ _ => none
  | .kop _ _ _ _ => none
  | .ext _ _ _ _ => none
  | .lea _ _ _ _ => none
  | .ld _ _ _ _ => none
  | .st _ _ _ _ => none
  | .atom _ _ _ _ _ _ => none
  | .cas _ _ _ _ _ => none
  | .br _ _ _ => none
  | .brr _ _ _ => none
  | .call _ _ => none
  | .callr _ _ => none
  | .loop _ _ => none
  | .ipf _ _ _ => none
  | .ipfr _ _ _ => none
  | .sysrd _ _ => none
  | .syswr _ _ => none
  | .yield _ => none
  | .step => none
  | .taskend => none
  | .trap _ => none
  | .nop => none
  | .adr _ _ => none
  | .emit _ _ => none
  | .emitM _ _ _ _ => none
  | .captBegin _ => none
  | .captEnd => none
  | .captDrop _ => none
  | .captLoad _ => none
  | .replay _ => none
  | .replayM _ _ _ => none
  | .hset _ _ => none
  | .vrd _ => none
  | .vtest _ => none
  | .swait _ => none
  | .srd _ _ => none
  | .fwaitAny _ _ => none
  | .fwaitAll _ _ => none
  | .fwaitFfr _ _ => none
  | .ftest _ _ => none
  | .ftestAddr _ _ => none
  | .fcancel _ => none
  | .fstore _ _ _ => none
  | .fload _ _ _ _ _ => none
  | .freg _ _ _ _ => none
  | .fsetInit _ _ _ => none
  | .fsetRes _ _ _ => none
  | .fsetCan _ _ => none
  | .spawn _ _ => none
  | .spawnMask _ _ _ => none
  | .spawnRoot _ _ => none
  | .jraise _ => none
  | .bquery _ _ => none
  | .flInit _ _ _ _ => none
  | .flAcq _ _ => none
  | .flCommit _ _ => none
  | .flCommitF _ _ _ => none
  | .flWait _ _ => none
  | .flRel _ _ => none
  | .flRelF _ _ _ => none
  | .barCl => none
  | .barDie _ => none
  | .mon _ _ _ => none
  | .mwait _ _ => none
  | .wpSet _ _ _ => none
  | .wpClr _ => none
  | .copy _ _ _ _ => none
  | .gather _ _ _ _ _ _ _ => none
  | .scatter _ _ _ _ _ _ _ => none
  | .spmm _ _ _ _ _ _ => none
  | .mergeU _ _ _ _ _ _ _ _ => none
  | .mergeI _ _ _ _ _ _ _ => none
  | .clBcast _ _ _ _ => none
  | .clReduce _ _ _ _ _ => none
  | .clAllred _ _ _ _ _ => none
  | .clGather _ _ _ _ => none
  | .clScatter _ _ _ _ => none
  | .clA2a _ _ _ _ => none
  | .wback _ _ _ _ => none
  | .dropr _ _ _ _ => none
  | .fill _ _ _ _ => none
  | .iadd w => some (w.bits 0x1)
  | .isub w => some (w.bits 0x2)
  | .imul w => some (w.bits 0x3)
  | .imulh w => some (w.bits 0x4)
  | .imad w => some (w.bits 0x5)
  | .idiv w => some (w.bits 0x6)
  | .irem w => some (w.bits 0x7)
  | .imin w => some (w.bits 0x8)
  | .imax w => some (w.bits 0x9)
  | .iabs w => some (w.bits 0xa)
  | .laneAnd w => some (w.bits 0xb)
  | .laneOr w => some (w.bits 0xc)
  | .laneXor w => some (w.bits 0xd)
  | .laneShl w => some (w.bits 0xe)
  | .laneShr w => some (w.bits 0xf)
  | .laneClz w => some (w.bits 0x10)
  | .lanePopc w => some (w.bits 0x11)
  | .bfx w => some (w.bits 0x12)
  | .bfi w => some (w.bits 0x13)
  | .icmp w => some (w.bits 0x14)
  | .laneSel w => some (w.bits 0x15)
  | .laneMov w => some (w.bits 0x16)
  | .affAdd w => some (w.bits 0x20)
  | .affSub w => some (w.bits 0x21)
  | .affMul w => some (w.bits 0x22)
  | .affShl w => some (w.bits 0x23)
  | .affMk w => some (w.bits 0x24)
  | .affStr w => some (w.bits 0x25)
  | .promQa w => some (w.bits 0x26)
  | .promQv w => some (w.bits 0x27)
  | .promAv w => some (w.bits 0x28)
  | .xtr w => some (w.bits 0x29)
  | .mAnd w => some (w.bits 0x30)
  | .mOr w => some (w.bits 0x31)
  | .mXor w => some (w.bits 0x32)
  | .mNot w => some (w.bits 0x33)
  | .mFromq w => some (w.bits 0x34)
  | .mToq w => some (w.bits 0x35)
  | .lexit w => some (w.bits 0x36)
  | .shfl w => some (w.bits 0x40)
  | .shflRot w => some (w.bits 0x41)
  | .shflXor w => some (w.bits 0x42)
  | .bcast w => some (w.bits 0x43)
  | .redAdd w => some (w.bits 0x44)
  | .redMin w => some (w.bits 0x45)
  | .redMax w => some (w.bits 0x46)
  | .redAnd w => some (w.bits 0x47)
  | .redOr w => some (w.bits 0x48)
  | .scanAdd w => some (w.bits 0x49)
  | .scanMax w => some (w.bits 0x4a)
  | .vote w => some (w.bits 0x4b)
  | .isect w => some (w.bits 0x4c)
  | .compact w => some (w.bits 0x4d)
  | .expand w => some (w.bits 0x4e)
  | .fadd w => some (w.bits 0x100)
  | .fsub w => some (w.bits 0x101)
  | .fmul w => some (w.bits 0x102)
  | .fma w => some (w.bits 0x103)
  | .fnma w => some (w.bits 0x104)
  | .fdiv w => some (w.bits 0x105)
  | .fsqrt w => some (w.bits 0x106)
  | .fmin w => some (w.bits 0x107)
  | .fmax w => some (w.bits 0x108)
  | .fabs w => some (w.bits 0x109)
  | .fneg w => some (w.bits 0x10a)
  | .fcmp w => some (w.bits 0x10b)
  | .fclass w => some (w.bits 0x10c)
  | .fsgn w => some (w.bits 0x10d)
  | .frnd w => some (w.bits 0x10e)
  | .fscale w => some (w.bits 0x10f)
  | .fgetexp w => some (w.bits 0x110)
  | .frcp w => some (w.bits 0x120)
  | .frsq w => some (w.bits 0x121)
  | .fexp2 w => some (w.bits 0x122)
  | .flog2 w => some (w.bits 0x123)
  | .fsin w => some (w.bits 0x124)
  | .fcos w => some (w.bits 0x125)
  | .ftanh w => some (w.bits 0x126)
  | .fsigm w => some (w.bits 0x127)
  | .ferf w => some (w.bits 0x128)
  | .cvt w => some (w.bits 0x140)
  | .cvtBlk w => some (w.bits 0x141)
  | .bscale w => some (w.bits 0x142)
  | .planePk w => some (w.bits 0x143)
  | .planeUp w => some (w.bits 0x144)
  | .laneLd w => some (w.bits 0x200)
  | .laneSt w => some (w.bits 0x201)
  | .ldSp w => some (w.bits 0x202)
  | .stSp w => some (w.bits 0x203)
  | .ldWin w => some (w.bits 0x204)
  | .stWin w => some (w.bits 0x205)
  | .laneAtom w => some (w.bits 0x206)
  | .laneCas w => some (w.bits 0x207)
  | .ldcp w => some (w.bits 0x208)
  | .stcp w => some (w.bits 0x209)
  | .pref w => some (w.bits 0x20a)
  | .sgath w => some (w.bits 0x20b)
  | .sscat w => some (w.bits 0x20c)
  | .hist w => some (w.bits 0x20d)
  | .accRd w => some (w.bits 0x20e)
  | .accWr w => some (w.bits 0x20f)
  | .accClr w => some (w.bits 0x241)
  | .mma w => some (w.bits)
  | .contextForm _ => none
  | .contextPick _ => none
  | .contextUnblock _ _ => none
  | .watchdog _ => none
  | .portOperationStart _ _ => none
  | .portWordWrite _ _ => none
  | .replayReadback _ _ => none
  | .voteReady _ _ => none
  | .codeFillArrival _ _ _ _ => none
  | .pageWalkDone _ _ _ _ => none
  | .accessPerformed _ _ => none
  | .accessAcknowledgement _ => none
  | .engineCommandStart _ => none
  | .slotResolve _ _ _ => none
  | .mmaAccept _ => none
  | .mmaStep _ _ => none
  | .barrierRelease _ _ _ => none
  | .completionPost _ _ => none
  | .stopDrainEnd _ _ => none
  | .stuck _ _ => none
  | .preemptionRequest _ => none
  | .frameWrite _ _ => none
  | .saveDrainLimit _ _ => none
  | .frameRestore _ => none
  | .frameResume _ _ => none
  | .frameDiscard _ _ => none
  | .bargeAging _ _ => none
  | .dieGrant _ => none
  | .grantWaitCap _ => none
  | .dieAddRequest _ => none
  | .dieWithdrawRequest _ => none
  | .stealRequest _ => none
  | .stealAnswer _ => none
  | .hotspotMigration _ _ => none
  | .submissionExamine _ => none
  | .launch _ _ => none
  | .flush _ => none
  | .inval _ => none
  | .bind _ => none
  | .unbind _ => none
  | .abort _ => none
  | .mark _ => none
  | .completionRecordPost _ => none
  | .jobEnd _ => none
  | .cpringWrite _ _ => none
  | .sqtailWrite _ _ => none
  | .cqheadWrite _ _ => none
  | .haltRequest _ => none
  | .haltResume _ => none
  | .govctlWrite _ => none
  | .launchQuery _ => none
  | .makelive _ => none
  | .unload _ => none
  | .modulePurge _ => none
  | .moduleFree _ => none
  | .fetchctlWrite _ => none
  | .xlrootWrite _ _ => none
  | .tlbDrop _ => none
  | .tlbDropDone => none
  | .warmReset _ _ => none
  | .resetStopLimit _ => none
  | .quiesce _ => none
  | .writeback _ => none
  | .isolate _ => none
  | .retrain _ _ => none
  | .test _ _ => none
  | .readmit _ => none
  | .frameloWrite _ _ => none
  | .framehiWrite _ _ => none
  | .counterQuery _ _ => none
  | .ctrdumpWrite _ _ => none
  | .trloWrite _ _ => none
  | .trhiWrite _ _ => none
  | .counterSend _ _ => none
  | .energyInterval _ => none
  | .tollcfgWrite _ _ => none
  | .tollcostWrite _ _ => none
  | .ratioChange _ => none
  | .powerInterval _ => none
  | .powerctlWrite _ => none
  | .throttle _ => none
  | .thermalTrip _ => none
  | .calibrationStart _ => none
  | .calibrationStep _ _ => none
  | .scrubLine _ _ _ => none
  | .linkFlitError _ _ => none
  | .linkFailure _ => none
  | .finzuRetrain _ => none
  | .finzuPortTrained _ _ _ => none
  | .peerRequest _ _ _ => none
  | .hostFlagWindowAccess _ => none
  | .hostApertureAccess _ _ => none
  | .hostLinkDown => none
  | .idbootWrite _ => none
  | .attestationRequest _ => none
  | .attestationReportDone => none
  | .firmwareCheck _ => none
  | .firmwareCheckDone => none
  | .powerOn => none
  | .powerOff => none
  | .mwaitLimit _ _ => none
  | .registerWrite _ _ => none
  | .tollRefill _ => none
  | .hostLinkUp => none
  | .throttleEnd _ => none

/-- The instruction that a major opcode and the fields name, before any check that the fields are in range. -/
def candidate (op : Nat) (f : Fields) : Option Instr :=
  match op with
  | 0x2 => f.gty.map (fun t => .addRegister t f.d f.a f.b)
  | 0x3 => f.gty.map (fun t => .addLiteral t f.d f.a f.glit)
  | 0x4 => f.gty.map (fun t => .subRegister t f.d f.a f.b)
  | 0x5 => f.gty.map (fun t => .subLiteral t f.d f.a f.glit)
  | 0x6 => f.gty.map (fun t => .mulRegister t f.d f.a f.b)
  | 0x7 => f.gty.map (fun t => .mulLiteral t f.d f.a f.glit)
  | 0x8 => f.gty.map (fun t => .mulhRegister t f.d f.a f.b)
  | 0x9 => f.gty.map (fun t => .mulhLiteral t f.d f.a f.glit)
  | 0xa => f.gty.map (fun t => .divRegister t f.d f.a f.b)
  | 0xb => f.gty.map (fun t => .divLiteral t f.d f.a f.glit)
  | 0xc => f.gty.map (fun t => .remRegister t f.d f.a f.b)
  | 0xd => f.gty.map (fun t => .remLiteral t f.d f.a f.glit)
  | 0xe => f.gty.map (fun t => .andRegister t f.d f.a f.b)
  | 0xf => f.gty.map (fun t => .andLiteral t f.d f.a f.glit)
  | 0x10 => f.gty.map (fun t => .orRegister t f.d f.a f.b)
  | 0x11 => f.gty.map (fun t => .orLiteral t f.d f.a f.glit)
  | 0x12 => f.gty.map (fun t => .xorRegister t f.d f.a f.b)
  | 0x13 => f.gty.map (fun t => .xorLiteral t f.d f.a f.glit)
  | 0x14 => f.gty.map (fun t => .shlRegister t f.d f.a f.b)
  | 0x15 => f.gty.map (fun t => .shlLiteral t f.d f.a f.glit)
  | 0x16 => f.gty.map (fun t => .shrRegister t f.d f.a f.b)
  | 0x17 => f.gty.map (fun t => .shrLiteral t f.d f.a f.glit)
  | 0x18 => f.gty.map (fun t => .minRegister t f.d f.a f.b)
  | 0x19 => f.gty.map (fun t => .minLiteral t f.d f.a f.glit)
  | 0x1a => f.gty.map (fun t => .maxRegister t f.d f.a f.b)
  | 0x1b => f.gty.map (fun t => .maxLiteral t f.d f.a f.glit)
  | 0x1c => some (.cmpRegister (Rel.ofCode (f.fn / 4)) (CTy.ofCode (f.fn % 4)) (f.d.setWidth 3) f.a f.b)
  | 0x1d => some (.cmpLiteral (Rel.ofCode (f.fn / 4)) (CTy.ofCode (f.fn % 4)) (f.d.setWidth 3) f.a f.glit)
  | 0x1e => f.gty.map (fun t => .movRegister t f.d f.a)
  | 0x1f => f.gty.map (fun t => .movLiteral t f.d f.glit)
  | 0x20 => (BTy.ofCode f.fn).map (fun t => .clz t f.d f.a)
  | 0x21 => (BTy.ofCode f.fn).map (fun t => .popc t f.d f.a)
  | 0x22 => some (.sel f.d (BitVec.ofNat 3 f.fn) f.a f.b)
  | 0x23 => some (.kop (f.d.setWidth 3) (f.a.setWidth 3) (f.b.setWidth 3) (BitVec.ofNat 4 f.fn))
  | 0x24 => some (.ext (f.fn = 1) f.d f.a f.b)
  | 0x25 => some (.lea f.d f.a f.b (BitVec.ofNat 4 f.fn))
  | 0x26 => (MTy.ofCode f.fn).bind (fun t => (f.mx .cluster).map (fun x => .ld t f.d f.a x))
  | 0x27 => (MTy.ofCode f.fn).bind (fun t => (f.mx .cluster).map (fun x => .st t f.d f.a x))
  | 0x28 => (f.mx .device).map (fun x => .atom (f.fn / 8 = 1) (GAtom.ofCode (f.fn % 8)) f.d f.a f.c x)
  | 0x29 => (f.mx .device).map (fun x => .cas (f.fn / 8 = 1) f.d f.a f.c x)
  | 0x2a => (BrCond.ofCode f.fn).map (fun c => .br c (f.d.setWidth 3) f.glit)
  | 0x2b => (BrCond.ofCode f.fn).map (fun c => .brr c (f.d.setWidth 3) f.a)
  | 0x2c => some (.call f.d f.glit)
  | 0x2d => some (.callr f.d f.a)
  | 0x2e => some (.loop f.d f.glit)
  | 0x2f => (Level.ofCode f.fn).map (fun v => .ipf v f.d f.glit)
  | 0x30 => (Level.ofCode f.fn).map (fun v => .ipfr v f.d f.a)
  | 0x31 => some (.sysrd f.d f.glit)
  | 0x32 => some (.syswr f.a f.glit)
  | 0x33 => some (.yield f.glit)
  | 0x34 => some .step
  | 0x35 => some .taskend
  | 0x36 => some (.trap f.glit)
  | 0x37 => some .nop
  | 0x38 => some (.adr f.d f.glit)
  | 0x40 => some (.emit f.d f.glit)
  | 0x41 => some (.emitM (f.fn = 1) f.d f.a f.len)
  | 0x42 => some (.captBegin f.glit)
  | 0x43 => some .captEnd
  | 0x44 => some (.captDrop f.glit)
  | 0x45 => some (.captLoad f.glit)
  | 0x46 => some (.replay f.glit)
  | 0x47 => some (.replayM (f.fn = 1) f.a f.glit)
  | 0x48 => some (.hset (f.d.setWidth 3) f.a)
  | 0x49 => some (.vrd f.d)
  | 0x4a => some (.vtest (f.d.setWidth 3))
  | 0x4b => some (.swait f.glit)
  | 0x4c => some (.srd f.d (f.a.setWidth 3))
  | 0x50 => some (.fwaitAny f.d f.a)
  | 0x51 => some (.fwaitAll f.d f.a)
  | 0x52 => some (.fwaitFfr f.d f.a)
  | 0x53 => some (if f.fn = 0 then .ftest f.d f.a else .ftestAddr f.d f.a)
  | 0x54 => some (.fcancel f.a)
  | 0x55 => (f.sx .device).map (fun x => .fstore f.d f.a x)
  | 0x56 => some (.fload (f.fn / 8 = 1) f.d f.a f.b f.len)
  | 0x57 => (f.sx .device).map (fun x => .freg f.a f.b f.c x)
  | 0x58 => (f.sx .device).map (fun x => if f.fn = 0 then .fsetInit (f.d.setWidth 3) f.a x else if f.fn = 1 then .fsetRes f.a f.b x else .fsetCan f.a x)
  | 0x59 => (f.mx .device).map (fun x => if f.fn = 0 then .spawn f.a x else if f.fn = 1 then .spawnMask f.a f.c x else .spawnRoot f.a x)
  | 0x5a => some (.jraise f.glit)
  | 0x5b => some (.bquery f.d f.glit)
  | 0x5c => some (.flInit (f.fn = 1) f.a f.c f.glit)
  | 0x5d => some (.flAcq f.d f.glit)
  | 0x5e => (f.mx .cluster).map (fun x => if f.fn = 0 then .flCommit f.a x else .flCommitF f.d f.a x)
  | 0x5f => some (.flWait f.d f.glit)
  | 0x60 => (f.mx .cluster).map (fun x => if f.fn = 0 then .flRel f.a x else .flRelF f.d f.a x)
  | 0x61 => some .barCl
  | 0x62 => some (.barDie (BitVec.ofNat 2 f.fn))
  | 0x63 => (f.sx .device).map (fun x => .mon f.d f.a x)
  | 0x64 => some (.mwait f.d f.a)
  | 0x65 => (f.sx .device).map (fun x => .wpSet f.d f.a x)
  | 0x66 => some (.wpClr f.a)
  | 0x70 => (f.ex .cluster).map (fun x => .copy f.d f.a f.b x)
  | 0x71 => (f.ex .cluster).map (fun x => .gather (f.fn / 8 = 1) f.d f.a f.b f.c f.gt x)
  | 0x72 => (f.ex .cluster).map (fun x => .scatter (f.fn / 8 = 1) f.d f.a f.b f.c f.gt x)
  | 0x73 => (f.ex .cluster).map (fun x => .spmm (f.fn = 1) f.d f.a f.b f.c x)
  | 0x74 => (f.ex .cluster).map (fun x => .mergeU (f.fn / 8 = 1) (f.fn % 2 = 1) f.d f.a f.b f.c f.gt x)
  | 0x75 => (f.ex .cluster).map (fun x => .mergeI (f.fn / 8 = 1) f.d f.a f.b f.c f.gt x)
  | 0x76 => (f.ex .device).map (fun x => .clBcast f.d f.a f.b x)
  | 0x77 => (RedOp.ofCode f.fn).bind (fun op => (f.ex .device).map (fun x => .clReduce op f.d f.a f.b x))
  | 0x78 => (RedOp.ofCode f.fn).bind (fun op => (f.ex .device).map (fun x => .clAllred op f.d f.a f.b x))
  | 0x79 => (f.ex .device).map (fun x => .clGather f.d f.a f.b x)
  | 0x7a => (f.ex .device).map (fun x => .clScatter f.d f.a f.b x)
  | 0x7b => (f.ex .device).map (fun x => .clA2a f.d f.a f.b x)
  | 0x7c => (f.ex .cluster).map (fun x => .wback f.d f.a f.b x)
  | 0x7d => (f.ex .cluster).map (fun x => .dropr f.d f.a f.b x)
  | 0x7e => (f.ex .cluster).map (fun x => .fill f.d f.a f.b x)
  | _ => none

/-- The words of each layout, by opcode (R147). -/
def laInstr (op : Nat) (w : LA) : Option Instr :=
  match op with
  | 0x1 => some (.iadd w)
  | 0x2 => some (.isub w)
  | 0x3 => some (.imul w)
  | 0x4 => some (.imulh w)
  | 0x5 => some (.imad w)
  | 0x6 => some (.idiv w)
  | 0x7 => some (.irem w)
  | 0x8 => some (.imin w)
  | 0x9 => some (.imax w)
  | 0xa => some (.iabs w)
  | 0xb => some (.laneAnd w)
  | 0xc => some (.laneOr w)
  | 0xd => some (.laneXor w)
  | 0xe => some (.laneShl w)
  | 0xf => some (.laneShr w)
  | 0x10 => some (.laneClz w)
  | 0x11 => some (.lanePopc w)
  | 0x12 => some (.bfx w)
  | 0x13 => some (.bfi w)
  | 0x14 => some (.icmp w)
  | 0x15 => some (.laneSel w)
  | 0x16 => some (.laneMov w)
  | 0x20 => some (.affAdd w)
  | 0x21 => some (.affSub w)
  | 0x22 => some (.affMul w)
  | 0x23 => some (.affShl w)
  | 0x24 => some (.affMk w)
  | 0x25 => some (.affStr w)
  | 0x26 => some (.promQa w)
  | 0x27 => some (.promQv w)
  | 0x28 => some (.promAv w)
  | 0x29 => some (.xtr w)
  | 0x30 => some (.mAnd w)
  | 0x31 => some (.mOr w)
  | 0x32 => some (.mXor w)
  | 0x33 => some (.mNot w)
  | 0x34 => some (.mFromq w)
  | 0x35 => some (.mToq w)
  | 0x36 => some (.lexit w)
  | 0x40 => some (.shfl w)
  | 0x41 => some (.shflRot w)
  | 0x42 => some (.shflXor w)
  | 0x43 => some (.bcast w)
  | 0x44 => some (.redAdd w)
  | 0x45 => some (.redMin w)
  | 0x46 => some (.redMax w)
  | 0x47 => some (.redAnd w)
  | 0x48 => some (.redOr w)
  | 0x49 => some (.scanAdd w)
  | 0x4a => some (.scanMax w)
  | 0x4b => some (.vote w)
  | 0x4c => some (.isect w)
  | 0x4d => some (.compact w)
  | 0x4e => some (.expand w)
  | 0x100 => some (.fadd w)
  | 0x101 => some (.fsub w)
  | 0x102 => some (.fmul w)
  | 0x103 => some (.fma w)
  | 0x104 => some (.fnma w)
  | 0x105 => some (.fdiv w)
  | 0x106 => some (.fsqrt w)
  | 0x107 => some (.fmin w)
  | 0x108 => some (.fmax w)
  | 0x109 => some (.fabs w)
  | 0x10a => some (.fneg w)
  | 0x10b => some (.fcmp w)
  | 0x10c => some (.fclass w)
  | 0x10d => some (.fsgn w)
  | 0x10e => some (.frnd w)
  | 0x10f => some (.fscale w)
  | 0x110 => some (.fgetexp w)
  | 0x120 => some (.frcp w)
  | 0x121 => some (.frsq w)
  | 0x122 => some (.fexp2 w)
  | 0x123 => some (.flog2 w)
  | 0x124 => some (.fsin w)
  | 0x125 => some (.fcos w)
  | 0x126 => some (.ftanh w)
  | 0x127 => some (.fsigm w)
  | 0x128 => some (.ferf w)
  | 0x140 => some (.cvt w)
  | 0x141 => some (.cvtBlk w)
  | 0x142 => some (.bscale w)
  | 0x143 => some (.planePk w)
  | 0x144 => some (.planeUp w)
  | 0x241 => some (.accClr w)
  | _ => none

def lmInstr (op : Nat) (w : LM) : Option Instr :=
  match op with
  | 0x200 => some (.laneLd w)
  | 0x201 => some (.laneSt w)
  | 0x202 => some (.ldSp w)
  | 0x203 => some (.stSp w)
  | 0x204 => some (.ldWin w)
  | 0x205 => some (.stWin w)
  | 0x206 => some (.laneAtom w)
  | 0x207 => some (.laneCas w)
  | 0x208 => some (.ldcp w)
  | 0x209 => some (.stcp w)
  | 0x20a => some (.pref w)
  | 0x20b => some (.sgath w)
  | 0x20c => some (.sscat w)
  | 0x20d => some (.hist w)
  | 0x20e => some (.accRd w)
  | 0x20f => some (.accWr w)
  | _ => none

/-! ### Decoding -/

/-- Whether a major opcode is assigned, and the lengths its class allows (R143): R only 32 bits, L all four, L* 32 and 64. -/
inductive MajorClass where
  | r | l | star
  deriving DecidableEq, Repr

def majorClass (op : Nat) : Option MajorClass :=
  if op < 0x02 then none
  else if op ≤ 0x1F then some (if op % 2 = 0 then .r else .l)
  else if op ≤ 0x25 then some .r
  else if op ≤ 0x2A then some .l
  else if op = 0x2C ∨ op = 0x2E ∨ op = 0x2F then some .l
  else if op = 0x2B ∨ op = 0x2D ∨ op = 0x30 then some .r
  else if op ≤ 0x33 ∨ op = 0x36 ∨ op = 0x38 then some .l
  else if op ≤ 0x37 then some .r
  else if op < 0x40 then none
  else if op = 0x43 ∨ op = 0x48 ∨ op = 0x49 ∨ op = 0x4A ∨ op = 0x4C then some .r
  else if op ≤ 0x4B then some .l
  else if op < 0x50 then none
  else if op ≤ 0x54 then some .r
  else if op ≤ 0x58 then some .star
  else if op ≤ 0x60 then some .l
  else if op = 0x61 ∨ op = 0x62 ∨ op = 0x64 ∨ op = 0x66 then some .r
  else if op ≤ 0x65 then some .star
  else if op < 0x70 then none
  else if op ≤ 0x7E then some .star
  else none

def MajorClass.allows : MajorClass → ILen → Bool
  | .r, .w32 => true
  | .l, _ => true
  | .star, .w32 => true
  | .star, .w64 => true
  | _, _ => false

/-- The major opcode of a first word (R140). -/
def majorOf (w0 : W32) : Nat := w0.toNat / 4 % 256

/-- The length in bytes of the instruction that a first word begins (R140). -/
def lengthOf (w0 : W32) : Nat := 4 * (ILen.ofCode (w0.toNat % 4)).words

/-- The lane words that the instruction carries after it: EMIT and EMIT.M carry d + 1 (R130, R176). -/
def payloadOf (w0 : W32) : Nat :=
  if majorOf w0 = 0x40 ∨ majorOf w0 = 0x41 then w0.toNat / 1024 % 64 + 1 else 0

/-- Why a generator word is refused, by the step of R144. -/
inductive DecodeError where
  | unassigned
  | length
  | fields
  deriving DecidableEq, Repr

/-- The generator instruction of four words in ascending order; words past its length are not looked at (R144, steps 2, 3
and 5). The words the encoder makes are the only ones accepted, so a reserved field that is not zero is refused (R6). -/
def decodeWords (w0 w1 w2 w3 : W32) : Except DecodeError Instr :=
  let op := majorOf w0
  let f := fieldsOf w0 w1 w2 w3
  match majorClass op with
  | none => .error .unassigned
  | some c =>
    if !c.allows f.len then .error .length
    else
      match candidate op f with
      | none => .error .fields
      | some i =>
        if i.wf && encode i == [w0, w1, w2, w3].take f.len.words then .ok i else .error .fields

/-- The instruction at the head of a list of bytes as memory holds them (R3), or the reason it is refused; bytes that are
missing read as zero. -/
def decode (bs : List Byte) : Except DecodeError Instr :=
  let w (i : Nat) : W32 := BitVec.ofNat 32 (ofBytes ((bs.drop (4 * i)).take 4))
  decodeWords (w 0) (w 1) (w 2) (w 3)

/-- The instruction of a lane word; none for an illegal lane word (R148, steps 1 to 4 but for the partition). As in
`decodeWords`, only what the encoder makes is accepted. -/
def decodeLane (w : W64) : Option Instr :=
  let x := w.toNat
  let op := x % 1024
  let d := x / 1024 % 1024
  let a := x / 1048576 % 1024
  let b := x / 1073741824 % 1024
  let gm := BitVec.ofNat 3 (x / 1099511627776)
  let nwb := w.getLsbD 43
  let i : Option Instr :=
    if op = 0x240 then
      (Fmt.ofCode (x / 2 ^ 61)).bind fun f => (opdOf .tile d).bind fun d => (opdOf .qOnly a).bind fun a =>
        (opdOf .qOnly b).map fun b =>
          .mma ⟨f, BitVec.ofNat 6 (x / 2 ^ 55), BitVec.ofNat 8 (x / 2 ^ 47), BitVec.ofNat 3 (x / 2 ^ 44), gm, b, a, d⟩
    else
      (Fmt.ofCode (x / 2 ^ 60)).bind fun f =>
        match lmSpec op with
        | some s =>
          (opdOf s.d d).bind fun d => (opdOf s.a a).bind fun a => (opdOf s.b b).bind fun b =>
            (if op = 0x20E ∨ op = 0x20F then some Scope.lane else Scope.ofCode (x / 2 ^ 55 % 8)).bind fun sc =>
              lmInstr op ⟨f, BitVec.ofNat 2 (x / 2 ^ 58), sc, (op = 0x20E && w.getLsbD 55), BitVec.ofNat 8 (x / 2 ^ 47),
                BitVec.ofNat 3 (x / 2 ^ 44), nwb, gm, b, a, d⟩
        | none =>
          (laSpec op (x / 2 ^ 54 % 8)).bind fun s =>
            (opdOf s.d d).bind fun d => (opdOf s.a a).bind fun a => (opdOf s.b b).bind fun b =>
              (opdOf s.c (x / 2 ^ 44 % 1024)).bind fun c => (Rnd.ofCode (x / 2 ^ 57 % 8)).bind fun r =>
                laInstr op ⟨f, r, BitVec.ofNat 3 (x / 2 ^ 54), c, nwb, gm, b, a, d⟩
  match i with
  | none => none
  | some i => if i.wf && encodeLane i = some w then some i else none

/-- The instruction that the decoder reads from a table word: the first 32-bit word holds bits 31:0, later words count on,
and every bit above `nbits` is zero. -/
def decodeTableWord (nbits w : Nat) : Option Instr :=
  match decode (toBytes 16 (w % 2 ^ nbits)) with
  | .ok i => some i
  | .error _ => none

end Sys2Proof
end

