-- ==== Sys2Proof/Machine/Numbers.lean ====
section
/-! DEFINITION. Exact values of the number formats, and the one rounding of the spec (R50 to R65). -/

namespace Sys2Proof.Machine

/-- An exact real, an infinity, or NaN. A zero keeps a sign; `fin n d` is n / d, not zero. -/
inductive Exact where
  | nan
  | inf (neg : Bool)
  | zero (neg : Bool)
  | fin (num : Int) (den : Nat)
  deriving DecidableEq, Repr

/-- The layout of a binary floating-point format (R50): exponent bits, fraction bits, bias, largest finite magnitude code. -/
structure FloatShape where
  ebits : Nat
  fbits : Nat
  bias  : Nat
  top   : Nat
  deriving DecidableEq, Repr

def floatShape : Fmt → Option FloatShape
  | .fp32 => some ⟨8, 23, 127, 0x7F7FFFFF⟩
  | .fp16 => some ⟨5, 10, 15, 0x7BFF⟩
  | .bf16 => some ⟨8, 7, 127, 0x7F7F⟩
  | .e4m3 => some ⟨4, 3, 7, 0x7E⟩
  | .e5m2 => some ⟨5, 2, 15, 0x7B⟩
  | _ => none

def FloatShape.signBit (s : FloatShape) : Nat := s.ebits + s.fbits

/-- n × 2^e as an exact value, given a sign for zero. -/
def scaled (neg : Bool) (n : Nat) (e : Int) : Exact :=
  if n = 0 then .zero neg
  else
    let m : Int := if neg then -(n : Int) else n
    if e < 0 then .fin m (2 ^ (-e).toNat) else .fin (m * (2 ^ e.toNat : Int)) 1

/-- The L6 constants t6, in units of 1/2048 (R53). -/
def t6 (f : Nat) : Nat := match f % 4 with | 0 => 2048 | 1 => 2435 | 2 => 2896 | _ => 3444

/-- The exact value of a code of a format (R50, R53, R55). -/
def valueOf (f : Fmt) (code : Nat) : Exact :=
  match floatShape f with
  | some s =>
    let c := code % 2 ^ (s.signBit + 1)
    let neg := c.testBit s.signBit
    let mag := c % 2 ^ s.signBit
    let e := mag / 2 ^ s.fbits
    let fr := mag % 2 ^ s.fbits
    if mag > s.top then (if f ≠ .e4m3 && fr = 0 then .inf neg else .nan)
    else if e = 0 then scaled neg fr (1 - (s.bias : Int) - s.fbits)
    else scaled neg (fr + 2 ^ s.fbits) ((e : Int) - s.bias - s.fbits)
  | none =>
    if f = .l6 then
      let m := code % 32
      if m = 0 then (if code % 64 = 32 then .nan else .zero false)
      else
        -- m + 12 - 32 = m - 20 = 4 e + f
        scaled ((code % 64).testBit 5) (t6 ((m + 12) % 4)) ((((m + 12) / 4 : Nat) : Int) - 8 - 11)
    else
      let x : Int := if f = .i4 || f = .i8 || f = .i32 || f = .i64 then signed f.width code else (code % 2 ^ f.width : Nat)
      if x = 0 then .zero false else .fin x 1

/-- The canonical NaN of a format; 0 for an integer format (R50, R53, R63). -/
def canonNan : Fmt → Nat
  | .fp32 => 0x7FC00000 | .fp16 => 0x7E00 | .bf16 => 0x7FC0 | .e4m3 => 0x7F | .e5m2 => 0x7E | .l6 => 0x20 | _ => 0

/-- Whether rounding takes the grid point of larger magnitude (R62): `half` places the value against the midpoint. -/
def takesUpper (r : Rnd) (neg exact : Bool) (half : Ordering) (lowerEven : Bool) : Bool :=
  if exact then false
  else
    match r with
    | .rne => half = .gt || (half = .eq && !lowerEven)
    | .rtz => false
    | .rdn => neg
    | .rup => !neg
    | .rna => half ≠ .lt

/-- floor(log2(n / d)) for positive n and d. -/
def floorLog2 (n d : Nat) : Int :=
  let e : Int := (Nat.log2 n : Int) - Nat.log2 d
  -- e - 1 ≤ log2 (n / d) < e + 1
  let ge : Bool := if e < 0 then decide (d ≤ n * 2 ^ (-e).toNat) else decide (d * 2 ^ e.toNat ≤ n)
  if ge then e else e - 1

/-- n / d divided by 2^u: the integer part, whether it is exact, and how the rest stands to one half. -/
def divPow (n d : Nat) (u : Int) : Nat × Bool × Ordering :=
  let (n', d') := if u < 0 then (n * 2 ^ (-u).toNat, d) else (n, d * 2 ^ u.toNat)
  let q := n' / d'
  let r := n' % d'
  (q, r = 0, compare (2 * r) d')

/-- Signed codes of a binary format. -/
def FloatShape.withSign (s : FloatShape) (neg : Bool) (mag : Nat) : Nat := mag + boolNat neg * 2 ^ s.signBit

/-- An infinite input or an overflow that gives an infinity: E4M3 has none and gives NaN (R64). -/
def infCode (f : Fmt) (s : FloatShape) (neg : Bool) : Nat :=
  if f = .e4m3 then canonNan .e4m3 else s.withSign neg ((2 ^ s.ebits - 1) * 2 ^ s.fbits)

/-- The least and largest values of an integer format (R55). -/
def intMin (f : Fmt) : Int := if f = .i4 || f = .i8 || f = .i32 || f = .i64 then -(2 ^ (f.width - 1) : Int) else 0
def intMax (f : Fmt) : Int := if f = .i4 || f = .i8 || f = .i32 || f = .i64 then (2 ^ (f.width - 1) : Int) - 1 else (2 ^ f.width : Int) - 1

/-- round(x, fmt, mode, sat) of R63 and R64. -/
def round (x : Exact) (f : Fmt) (r : Rnd) (sat : Bool) : Nat :=
  match floatShape f with
  | some s =>
    match x with
    | .nan => canonNan f
    | .inf neg => if sat then s.withSign neg s.top else infCode f s neg
    | .zero neg => s.withSign neg 0
    | .fin num den =>
      let neg := decide (num < 0)
      let n := num.natAbs
      let emin : Int := 1 - (s.bias : Int)
      let e := max (floorLog2 n den) emin
      let (m, exact, half) := divPow n den (e - s.fbits)
      let m' := if takesUpper r neg exact half (m % 2 = 0) then m + 1 else m
      let mag := (e + s.bias - 1).toNat * 2 ^ s.fbits + m'
      if mag > s.top then
        let toMax := sat || (match r with | .rtz => true | .rup => neg | .rdn => !neg | _ => false)
        if toMax then s.withSign neg s.top else infCode f s neg
      else s.withSign neg mag
  | none =>
    if f = .l6 then
      match x with
      | .nan => 0x20
      | .inf _ => 0x20
      | .zero _ => 0
      | .fin num den =>
        let neg := decide (num < 0)
        let n := num.natAbs
        let e := floorLog2 n den
        -- the largest m with value(m) ≤ n / d, where m = 4 (e + 5) + f and value = 2^e t6[f] / 2048
        let le (k : Nat) : Bool := -- t6[k] 2^e den ≤ 2048 n
          if e < 0 then decide (t6 k * den ≤ 2048 * n * 2 ^ (-e).toNat) else decide (t6 k * den * 2 ^ e.toNat ≤ 2048 * n)
        let fr := if le 3 then 3 else if le 2 then 2 else if le 1 then 1 else 0
        let idx : Int := 4 * (e + 5) + fr
        let m : Nat := if idx ≤ 0 then 0 else idx.toNat
        let lo : Exact := if m = 0 then .zero false else scaled false (t6 m) (((m / 4 : Nat) : Int) - 5 - 11)
        let hi : Exact := scaled false (t6 (m + 1)) ((((m + 1) / 4 : Nat) : Int) - 5 - 11)
        let (ln, ld) : Nat × Nat := match lo with | .fin a b => (a.natAbs, b) | _ => (0, 1)
        let (hn, hd) : Nat × Nat := match hi with | .fin a b => (a.natAbs, b) | _ => (0, 1)
        let exact := ln * den = n * ld
        -- compare 2 n / den with ln / ld + hn / hd
        let half := compare (2 * n * ld * hd) (den * (ln * hd + hn * ld))
        let m' := if takesUpper r neg exact half (m % 2 = 0) then m + 1 else m
        let m' := if m' > 31 then 31 else m'
        if m' = 0 then 0 else m' + 32 * boolNat neg
    else
      match x with
      | .nan => 0
      | .inf neg => wrap f.width (if neg then intMin f else intMax f)
      | .zero _ => 0
      | .fin num den =>
        let neg := decide (num < 0)
        let (m, exact, half) := divPow num.natAbs den 0
        let m' : Nat := if takesUpper r neg exact half (m % 2 = 0) then m + 1 else m
        let y : Int := if neg then -(m' : Int) else m'
        let y := if y < intMin f then intMin f else if y > intMax f then intMax f else y
        wrap f.width y

/-! ### Exact arithmetic (R235) -/

def Exact.neg : Exact → Exact
  | .nan => .nan
  | .inf s => .inf (!s)
  | .zero s => .zero (!s)
  | .fin n d => .fin (-n) d

/-- The sign of a value that is not NaN. -/
def Exact.isNeg : Exact → Bool
  | .nan => false
  | .inf s => s
  | .zero s => s
  | .fin n _ => decide (n < 0)

def Exact.abs (x : Exact) : Exact := if x.isNeg then x.neg else x

/-- A sum; a zero sum's sign follows R235, so it depends on the rounding mode. -/
def Exact.add (r : Rnd) : Exact → Exact → Exact
  | .nan, _ => .nan
  | _, .nan => .nan
  | .inf a, .inf b => if a = b then .inf a else .nan
  | .inf a, _ => .inf a
  | _, .inf b => .inf b
  | .zero a, .zero b => if a && b then .zero true else if a != b then .zero (r = .rdn) else .zero false
  | .zero _, y => y
  | x, .zero _ => x
  | .fin n d, .fin m e =>
    let s := n * (e : Int) + m * (d : Int)
    if s = 0 then .zero (r = .rdn) else .fin s (d * e)

def Exact.mul : Exact → Exact → Exact
  | .nan, _ => .nan
  | _, .nan => .nan
  | .inf _, .zero _ => .nan
  | .zero _, .inf _ => .nan
  | .inf a, y => .inf (a != y.isNeg)
  | x, .inf b => .inf (x.isNeg != b)
  | .zero a, y => .zero (a != y.isNeg)
  | x, .zero b => .zero (x.isNeg != b)
  | .fin n d, .fin m e => .fin (n * m) (d * e)

def Exact.div : Exact → Exact → Exact
  | .nan, _ => .nan
  | _, .nan => .nan
  | .inf _, .inf _ => .nan
  | .zero _, .zero _ => .nan
  | .inf a, y => .inf (a != y.isNeg)
  | x, .inf b => .zero (x.isNeg != b)
  | x, .zero b => .inf (x.isNeg != b)
  | .zero a, y => .zero (a != y.isNeg)
  | .fin n d, .fin m e =>
    let num : Int := n * (e : Int)
    let den : Int := (d : Int) * m
    if den < 0 then .fin (-num) den.natAbs else .fin num den.natAbs

/-- x × 2^k. -/
def Exact.scale (x : Exact) (k : Int) : Exact :=
  match x with
  | .fin n d => if k < 0 then .fin n (d * 2 ^ (-k).toNat) else .fin (n * (2 ^ k.toNat : Int)) d
  | y => y

/-- The order of two values that are not NaN; zeros of either sign are equal. -/
def Exact.cmp : Exact → Exact → Ordering
  | .inf a, .inf b => if a = b then .eq else if a then .lt else .gt
  | .inf a, _ => if a then .lt else .gt
  | _, .inf b => if b then .gt else .lt
  | x, y =>
    let f : Exact → Int × Nat := fun z => match z with | .fin n d => (n, d) | _ => (0, 1)
    compare ((f x).1 * ((f y).2 : Int)) ((f y).1 * ((f x).2 : Int))

/-- The lesser or greater value, −0 below +0, NaN if either is (R226, R236). -/
def Exact.least (greatest : Bool) (x y : Exact) : Exact :=
  match x, y with
  | .nan, _ => .nan
  | _, .nan => .nan
  | x, y =>
    match x.cmp y with
    | .lt => if greatest then y else x
    | .gt => if greatest then x else y
    | .eq => if x.isNeg then (if greatest then y else x) else (if greatest then x else y)

/-- Newton's steps toward the integer square root, from above. -/
def isqrtStep (n : Nat) : Nat → Nat → Nat
  | 0, x => x
  | k + 1, x =>
    let y := (x + n / x) / 2
    if y < x then isqrtStep n k y else x

/-- The integer square root. -/
def isqrt (n : Nat) : Nat := if n = 0 then 0 else isqrtStep n (Nat.log2 n + 2) (2 ^ (Nat.log2 n / 2 + 1))

/-- A rational that stands on the same side of every dyadic of up to `p` fraction bits as the square root of n / d does, and
equals it where it is rational. -/
def sqrtNear (p n d : Nat) : Int × Nat :=
  let r := isqrt (n * 2 ^ (2 * p) / d)
  if r * r * d = n * 2 ^ (2 * p) then ((r : Int), 2 ^ p) else ((2 * r + 1 : Nat), 2 ^ (p + 1))

def Exact.sqrt : Exact → Exact
  | .nan => .nan
  | .inf neg => if neg then .nan else .inf false
  | .zero neg => .zero neg
  | .fin n d =>
    if n < 0 then .nan
    else
      let (a, b) := sqrtNear 256 n.natAbs d
      .fin a b

end Sys2Proof.Machine
end

