-- ==== Sys2Proof/Machine/Parts.lean ====
section
/-! DEFINITION. The parts of the module by their numbers (R17), the queries made of them, and the queues of barges (R43, R44,
R108, R123). -/

namespace Sys2Proof.Machine

/-! ### Parts -/

def State.cluster (s : State) (n : Nat) : Cluster := tgetD s.clusters n (Cluster.reset n)
def State.setCluster (s : State) (n : Nat) (c : Cluster) : State := { s with clusters := tput s.clusters n c }

def State.die (s : State) (d : Nat) : Die := tgetD s.dies d Die.reset
def State.setDie (s : State) (d : Nat) (x : Die) : State := { s with dies := tput s.dies d x }

/-! ### Logical counters (R296, R392) -/

/-- The counter of compute die d, or the front die's. -/
def State.lclock (s : State) : Option Nat → BitVec 48
  | some d => (s.die d).lclock
  | none => s.lclockF

def State.setLclock (s : State) (x : BitVec 48) : Option Nat → State
  | some d => s.setDie d { s.die d with lclock := x }
  | none => { s with lclockF := x }

/-- A message from one die to another: the receiver's counter becomes the larger of the two, plus one (R296). (DEDUCED, log 28) -/
def State.message (s : State) (sender receiver : Option Nat) : State :=
  let a := s.lclock sender
  let b := s.lclock receiver
  s.setLclock ((if a.toNat < b.toNat then b else a) + 1) receiver

/-- The front die's order to some dies: one message to each. (DEDUCED, log 28) -/
def State.tellDies (s : State) (dies : List Nat) : State := dies.eraseDups.foldl (fun s d => s.message none (some d)) s

/-- A request of compute die d to a part beyond it, and the reply. (DEDUCED, log 28) -/
def State.exchange (s : State) (d : Nat) : State := (s.message (some d) none).message none (some d)

/-! ### Contexts, cores and launches -/

/-- Context `slot` of cluster n stands at key 8 n + slot; core k of cluster n at 128 n + k. -/
def ctxKey (n slot : Nat) : Nat := 8 * n + slot
def coreKey (n k : Nat) : Nat := 128 * n + k

def State.ctx? (s : State) (n slot : Nat) : Option Ctx := tget s.ctxs (ctxKey n slot)
def State.setCtx (s : State) (n slot : Nat) (c : Ctx) : State := { s with ctxs := tput s.ctxs (ctxKey n slot) c }
def State.delCtx (s : State) (n slot : Nat) : State := { s with ctxs := tdel s.ctxs (ctxKey n slot) }
def State.modCtx (s : State) (n slot : Nat) (f : Ctx → Ctx) : State :=
  match s.ctx? n slot with
  | some c => s.setCtx n slot (f c)
  | none => s

def State.core? (s : State) (n k : Nat) : Option Core := tget s.cores (coreKey n k)
def State.setCore (s : State) (n k : Nat) (c : Core) : State := { s with cores := tput s.cores (coreKey n k) c }
def State.modCore (s : State) (n k : Nat) (f : Core → Core) : State :=
  match s.core? n k with
  | some c => s.setCore n k (f c)
  | none => s

/-- The cores lent to a context, with their cluster index k, in ascending k, and so in ascending j (R18). -/
def State.coresOf (s : State) (n slot : Nat) : List (Nat × Core) :=
  (s.cores.filter (fun p => p.1 / 128 = n && p.2.slot = slot)).map (fun p => (p.1 % 128, p.2))

/-- The lent cores that have not left the context (R175). -/
def State.liveCores (s : State) (n slot : Nat) : List (Nat × Core) := (s.coresOf n slot).filter (fun p => !p.2.left)

/-- Every context, with its cluster and slot. -/
def State.allCtxs (s : State) : List (Nat × Nat × Ctx) := s.ctxs.map (fun p => (p.1 / 8, p.1 % 8, p.2))
def State.clusterCtxs (s : State) (n : Nat) : List (Nat × Ctx) :=
  (s.ctxs.filter (fun p => p.1 / 8 = n)).map (fun p => (p.1 % 8, p.2))
def State.launchCtxs (s : State) (l : Nat) : List (Nat × Nat × Ctx) := s.allCtxs.filter (fun p => p.2.2.launch = l)

/-- The context of a uid, wherever it now is. -/
def State.ctxByUid (s : State) (uid : Nat) : Option (Nat × Nat × Ctx) := s.allCtxs.find? (fun p => p.2.2.uid = uid)

def State.launch? (s : State) (l : Nat) : Option Launch := s.launches.find? (fun x => x.acc = l)
def State.modLaunch (s : State) (l : Nat) (f : Launch → Launch) : State :=
  { s with launches := s.launches.map (fun x => if x.acc = l then f x else x) }

def State.cp (s : State) (p : Nat) : Cp := tgetD s.regs.cps p Cp.reset
def State.setCp (s : State) (p : Nat) (c : Cp) : State := { s with regs := { s.regs with cps := tput s.regs.cps p c } }
def State.trap (s : State) (n : Nat) : TrapRegs := tgetD s.regs.traps n TrapRegs.reset
def State.setTrap (s : State) (n : Nat) (t : TrapRegs) : State := { s with regs := { s.regs with traps := tput s.regs.traps n t } }
def State.ret (s : State) (n : Nat) : RetRegs := tgetD s.regs.rets n RetRegs.reset
def State.setRet (s : State) (n : Nat) (r : RetRegs) : State := { s with regs := { s.regs with rets := tput s.regs.rets n r } }
def State.module? (s : State) (m : Nat) : Option Module := tget s.regs.modules m
def State.modState (s : State) (m : Nat) : ModState :=
  match s.module? m with
  | some x => x.st
  | none => .free
def State.effRank (s : State) (n : Nat) : Nat := (tgetD s.regs.effRank n 0x10).toNat

/-- The die of a cluster (R17). -/
def dieOf (n : Nat) : Nat := n / 4

/-- CDIEMASK (R26, R27). -/
def State.dieMask (s : State) : Nat :=
  ((List.range 8).filter (fun d => (s.die d).admitted)).foldl (fun a d => a + 2 ^ d) 0

/-- DEVSHAPE (R26). -/
def State.devshape (s : State) : W64 :=
  BitVec.ofNat 64 (0x0960 * 2 ^ 48 + Config.stepping.toNat * 2 ^ 40 + 8 * 2 ^ 36 + 4 * 2 ^ 32 + 0x80 * 2 ^ 24 + 0x10 * 2 ^ 19
    + 0xC * 2 ^ 15 + s.dieMask * 2 ^ 7)

/-- The fields of a partition word (R41). -/
def vgran (p : W32) : Nat := slice p 5 0
def sgran (p : W32) : Nat := slice p 13 8
def agran (p : W32) : Nat := slice p 21 16

/-- A partition word valid under R41. -/
def partOk (p : W32) : Bool :=
  slice p 31 22 = 0 && slice p 15 14 = 0 && slice p 7 6 = 0 && decide (1 ≤ vgran p ∧ vgran p ≤ 4 ∧ agran p ≤ 16)
    && decide (vgran p + sgran p + agran p ≤ 48)

/-- The registers of GOVCTL (R129). -/
def State.hiwat (s : State) : Nat := slice s.regs.govctl 47 32
def State.lowat (s : State) : Nat := slice s.regs.govctl 31 16
def State.effcut (s : State) : Nat := slice s.regs.govctl 15 11
def State.stealgap (s : State) : Nat := slice s.regs.govctl 10 3
def State.grow (s : State) : Bool := bit s.regs.govctl 0

/-! ### Barges (R43) -/

def bargeEntry (b : List W64) : BitVec 44 := (wordAt b 0).setWidth 44
def bargeModule (b : List W64) : Nat := slice (wordAt b 0) 43 32
def bargeOffset (b : List W64) : W32 := (wordAt b 0).setWidth 32
def bargeArg (b : List W64) : W72 := BitVec.ofNat 72 (slice (wordAt b 0) 63 56 * 2 ^ 64 + (wordAt b 1).toNat)
def bargeSucc (b : List W64) : W72 := BitVec.ofNat 72 (slice (wordAt b 0) 55 48 * 2 ^ 64 + (wordAt b 2).toNat)
def bargeWeight (b : List W64) : W64 := wordAt b 4
def bargeMode (b : List W64) : BitVec 2 := BitVec.ofNat 2 (slice (wordAt b 5) 17 16)
def bargePrio (b : List W64) : Nat := slice (wordAt b 5) 2 0

/-- A barge with SUCC, WEIGHT and CMODE stamped (R339, R345). (DEDUCED, log 25) -/
def stampBarge (b : List W64) (mode : BitVec 2) (succ : W72) (weight : W64) : List W64 :=
  [putBits (wordAt b 0) 55 48 (succ.toNat / 2 ^ 64), wordAt b 1, succ.setWidth 64, wordAt b 3, weight,
   putBits (wordAt b 5) 17 16 mode.toNat, wordAt b 6, wordAt b 7]

def setWord (b : List W64) (i : Nat) (w : W64) : List W64 := b.set i w
def stampPrio (b : List W64) (p : Nat) : List W64 := setWord b 5 (putBits (wordAt b 5) 2 0 p)

/-- The entry record that a barge names, if its module has one (R38, R44). -/
def State.entryOf (s : State) (b : List W64) : Option Entry :=
  match s.module? (bargeModule b) with
  | some m => m.entries.find? (fun e => e.offset = bargeOffset b)
  | none => none

/-- No field of one partition word exceeds the other's (R44). -/
def partLe (a b : W32) : Bool := decide (vgran a ≤ vgran b ∧ sgran a ≤ sgran b ∧ agran a ≤ agran b)

/-- The checks a queue engine makes of a barge at its push (R44). -/
def State.bargeOk (s : State) (part : W32) (b : List W64) : Bool :=
  let w0 := wordAt b 0
  let w5 := wordAt b 5
  let mode := bargeMode b
  slice w0 47 44 = 0 && !bit (wordAt b 3) 63 && slice w5 63 18 = 0 && slice w5 15 3 = 0 && mode ≠ 3
    && (mode ≠ 0 || (bargeSucc b = 0 && bargeWeight b = 0))
    && (mode ≠ 1 || bargeWeight b ≠ 0)
    && (mode ≠ 2 || bargeWeight b = 0)
    && (bargeSucc b).toNat % 8 = 0
    && s.modState (bargeModule b) = .live
    && (match s.entryOf b with | some e => partLe e.partMin part | none => false)

/-! ### Basins and berths -/

/-- The dies a launch holds and is not withdrawing (R116, R123). -/
def Launch.usable (l : Launch) : List Nat :=
  (setBits 8 l.dieset.toNat).filter (fun d => match l.change with | some c => c.add || c.die ≠ d | none => true)

def Launch.basin? (l : Launch) (e : BitVec 44) : Option Basin := l.basins.find? (fun b => b.entry = e)

/-- Barges in a basin's berths (R125). -/
def Basin.occupancy (b : Basin) : Nat := (b.berths.map (fun p => (p.2.filter (fun q => q.frame.isNone)).length)).foldl (· + ·) 0

/-- Barges queued in all the berths of a launch (R115). -/
def Launch.queued (l : Launch) : Nat := (l.basins.map Basin.occupancy).foldl (· + ·) 0

/-- A basin with one berth changed. -/
def Basin.modBerth (b : Basin) (d : Nat) (f : List Queued → List Queued) : Basin :=
  { b with berths := tput b.berths d (f (tgetD b.berths d [])) }

/-- A launch with one more basin if it had none for the entry; none at the limit of 1,024 (R123). -/
def Launch.withBasin (l : Launch) (e : BitVec 44) : Option Launch :=
  match l.basin? e with
  | some _ => some l
  | none => if l.basins.length < 1024 then some { l with basins := l.basins ++ [⟨e, []⟩] } else none

def Launch.addTo (l : Launch) (e : BitVec 44) (d : Nat) (q : Queued) : Launch :=
  { l with basins := l.basins.map (fun b => if b.entry = e then b.modBerth d (fun x => x ++ [q]) else b) }

/-- The berth a device push goes to (R123): the pushing context's die while the launch can use it, else the lowest it can;
for a watchpoint, the die whose berth of the basin holds the fewest barges. -/
def Launch.berthFor (l : Launch) (e : BitVec 44) (die : Option Nat) : Option Nat :=
  match die with
  | some d => if l.usable.contains d then some d else l.usable.head?
  | none =>
    minBy (fun d => match l.basin? e with | some b => ((tgetD b.berths d []).filter (fun q => q.frame.isNone)).length | none => 0) l.usable

/-- 2^20 cycles at 1.8 GHz. -/
def ageCycles : Nat := 2 ^ 20

/-- A queued barge or frame that has waited 2^20 cycles at its level rises by one, to 7 at most (R108). (DEDUCED, log 47) -/
def Queued.aged (q : Queued) (now : Nat) : Queued :=
  if q.level < 7 && decide (q.since + ageCycles ≤ now) then { q with level := q.level + 1, since := q.since + ageCycles, head := false } else q

/-- A queued barge or frame with every rise that is due by now (R108, R109). (DEDUCED, log 47) -/
def Queued.due (now : Nat) (q : Queued) : Queued := (List.range 7).foldl (fun q _ => q.aged now) q

/-- Whether a barge comes before another in dispatch order (R108): higher level, then a frame placed at the head, then the one
that reached the level first, then the earlier push. -/
def Queued.before (a b : Queued) : Bool :=
  if a.level ≠ b.level then decide (b.level < a.level)
  else if a.head ≠ b.head then a.head
  else if a.since ≠ b.since then (if a.head then decide (b.since < a.since) else decide (a.since < b.since))
  else decide (a.push < b.push)

def firstQueued : List Queued → Option Queued
  | [] => none
  | q :: qs =>
    match firstQueued qs with
    | none => some q
    | some r => if r.before q then some r else some q

def lastQueued : List Queued → Option Queued
  | [] => none
  | q :: qs =>
    match lastQueued qs with
    | none => some q
    | some r => if q.before r then some r else some q

/-- The completion that a barge owes when it is removed, refused or ended without a context of its own (R45, R107, R386). -/
def Launch.postOf (l : Launch) (id die : Nat) (b : List W64) : Post :=
  { id := id, launch := l.acc, ring := l.ring, die := die, mode := bargeMode b, succ := bargeSucc b, weight := bargeWeight b,
    credit := 0, flagged := true }

/-- Queue a completion to post. -/
def State.addPost (s : State) (p : Nat → Post) : State :=
  { s with posts := s.posts ++ [p s.nextId], nextId := s.nextId + 1 }

/-- Put a checked barge into its berth (R108, R123). A barge of an aborted or faulted launch is removed at once with its
flagged completion (R107, R369), whoever pushes it, a trap's handler among them. None where the launch would need a 1,025th
basin. A push by a compute die is a message to the front die (R296). `watch` is the watchpoint whose firing pushes it. (DEDUCED, log 46) -/
def State.push (s : State) (l : Nat) (b : List W64) (cap : Nat) (die : Option Nat) (watch : Option Nat := none) : Option State :=
  match s.launch? l with
  | none => none
  | some x =>
    let e := bargeEntry b
    match x.withBasin e with
    | none => none
    | some x =>
      if x.aborted || x.faulted then some (s.addPost (fun id => x.postOf id (die.getD 0) b))
      else
        let q : Queued := ⟨b, min (bargePrio b) cap, s.now, s.pushes, none, false, watch⟩
        let x := match x.berthFor e die with
          | some d => x.addTo e d q
          | none => { x with parked := x.parked ++ [q] }
        let s := { s.modLaunch l (fun _ => x) with pushes := s.pushes + 1 }
        some (if die.isSome then s.message die none else s)

/-- Queued barges that name a module, wherever they wait (R137). -/
def Launch.naming (l : Launch) (m : Nat) : Nat :=
  let here (q : Queued) : Bool := q.frame.isNone && bargeModule q.barge = m
  (l.basins.map (fun b => (b.berths.map (fun p => (p.2.filter here).length)).foldl (· + ·) 0)).foldl (· + ·) 0
    + (l.parked.filter here).length + (l.first.filter here).length

def State.queuedNaming (s : State) (m : Nat) : Nat := (s.launches.map (fun l => l.naming m)).foldl (· + ·) 0

/-- Contexts and saved frames whose program counter lies in a module (R137, R139). -/
def State.countersIn (s : State) (m : Nat) : Nat :=
  (s.ctxs.filter (fun p => slice p.2.pc 63 32 = m)).length + (s.frames.filter (fun p => slice p.2.ctx.pc 63 32 = m)).length

end Sys2Proof.Machine
end

