-- ==== Sys2Proof/Machine/Memory.lean ====
section
/-! DEFINITION. Storage: the backing stores, the L2 slices, the line caches and the uniform caches, and where an access at each
scope is performed (R247, R253 to R255, R265). -/

namespace Sys2Proof.Machine

/-! ### Physical ranges (R253) -/

inductive Home where
  | dram | capacity | flag | host | peer | absent
  deriving DecidableEq, Repr

def homeOf (pa : Nat) : Home :=
  if pa ≤ 0x8FFFFFFFFF then .dram
  else if 0x10000000000 ≤ pa ∧ pa ≤ 0x2FFFFFFFFFF then .capacity
  else if 0x40000000000 ≤ pa ∧ pa ≤ 0x400003FFFFF then .flag
  else if 0x10000000000000 ≤ pa ∧ pa ≤ 0x1FFFFFFFFFFFFF then .host
  else if 0x20000000000000 ≤ pa ∧ pa ≤ 0x3FFFFFFFFFFFFF then
    if bits pa 52 42 < 2048 then .peer else .absent
  else .absent

def flagBase : Nat := 0x40000000000

/-- Held in L2 (R253). -/
def Home.cached : Home → Bool
  | .dram => true
  | .capacity => true
  | .host => true
  | _ => false

def rangeStart (pa : Nat) : Nat :=
  match homeOf pa with
  | .dram => 0
  | .capacity => 0x10000000000
  | .flag => flagBase
  | .host => 0x10000000000000
  | _ => 0x20000000000000

/-- The stack that homes an address, and the offset in it (R253, R254). -/
def stackOf (pa : Nat) : Nat := (pa - rangeStart pa) / 4096 % 12
def stackOffset (pa : Nat) : Nat := (pa - rangeStart pa) / 4096 / 12 * 4096 + pa % 4096

/-- Where monitors and watchpoints of an address are kept: a stack, or 12 for the front die; none off the device (R356). -/
def homeUnit (pa : Nat) : Option Nat :=
  match homeOf pa with
  | .dram => some (stackOf pa)
  | .capacity => some (stackOf pa)
  | .host => some (stackOf pa)
  | .flag => some 12
  | _ => none

/-- Whether an access goes over the front link: everything but the die's own near stacks (R10, R253). -/
def farFrom (die pa : Nat) : Bool :=
  match homeUnit pa with
  | some u => u = 12 || u / 3 != die / 2
  | none => true

/-- A request of a compute die to the home of an address and its reply, where the home lies beyond its near stacks (R296). (DEDUCED, log
28) -/
def State.reach (s : State) (die pa : Nat) : State := if farFrom die pa then s.exchange die else s

/-! ### The links to the far side (R384, R408 to R411) -/

/-- Requests addressed to a die are answered with errors, from ISOLATE on (R384). -/
def State.isolated (s : State) (d : Nat) : Bool := decide (4 ≤ (s.die d).phase.toNat)

/-- The peer that holds an address is valid, where one does (R411). -/
def State.peerOk (s : State) (pa : Nat) : Bool := homeOf pa != .peer || bit (tgetD s.regs.peers (bits pa 52 42) 0) 63

/-- A Finzu port serves a peer while the peer is valid, the port is up, the peer's mask names it, and the far end is that peer (R410,
R411). -/
def State.portServes (s : State) (port p : Nat) : Bool :=
  let e := tgetD s.regs.peers p 0
  let f := tgetD s.regs.finzu port ⟨0, 0, 0⟩
  bit e 63 && bit e (32 + port) && f.state = 2 && f.remote.toNat = slice e 31 0

/-- The port that an access to peer memory goes through (R411). -/
def State.routeOf (s : State) (pa : Nat) : Option Nat :=
  let live := (List.range 16).filter (fun n => s.portServes n (bits pa 52 42))
  live[bits pa 41 12 % live.length]?

/-- The link to the far side of an address is there: the host port's, or the route to the peer, whose die must not be isolated: another
die's port does not take its place (R384, R408, R411). -/
def State.linkOpen (s : State) (pa : Nat) : Bool :=
  match homeOf pa with
  | .host => s.regs.hostUp
  | .peer => match s.routeOf pa with | some port => !s.isolated (port / 2) | none => false
  | _ => true

/-! ### Bad data (R280, R383) -/

/-- Some of n bytes share a 32-byte ECC granule with data that holds a lasting error. -/
def State.badAt (s : State) (pa n : Nat) : Bool := s.badGranules.any (fun g => decide (32 * g < pa + n ∧ pa < 32 * g + 32))

/-- The line of an address holds a lasting error. -/
def State.badLine (s : State) (pa : Nat) : Bool := s.badAt (pa / 128 * 128) 128

/-- The place that an error in n bytes is recorded for: the first bad granule's, else a given one. -/
def State.badPlace (s : State) (pa n other : Nat) : Nat :=
  match (List.range n).find? (fun i => s.badAt (pa + i) 1) with
  | some i => pa + i
  | none => other

/-- Mark the granule of an address. -/
def State.spoil (s : State) (pa : Nat) : State :=
  { s with badGranules := if s.badGranules.contains (pa / 32) then s.badGranules else pa / 32 :: s.badGranules }

/-! ### The backing store -/

/-- What an address that memory does not list reads as: zero in the module's own memories; in host and peer memory, whatever
the far side holds there. (DESIGN CHOICE, log 5; DESIGN CHOICE, log 6) -/
def blank (a : Nat) : Byte := if a < 0x10000000000000 then 0 else Config.farByte a

/-- The byte at an address. (DESIGN CHOICE, log 5) -/
def readByte : List Host.Cell → Nat → Byte
  | [], a => blank a
  | (k, b) :: m, a => if k = a then b else readByte m a

/-- Memory with one byte put, in canonical form: addresses rising, and no entry that is what an unlisted address reads as. -/
def writeByte : List Host.Cell → Nat → Byte → List Host.Cell
  | [], a, x => if x = blank a then [] else [(a, x)]
  | (k, b) :: m, a, x =>
    if a < k then (if x = blank a then (k, b) :: m else (a, x) :: (k, b) :: m)
    else if a = k then (if x = blank a then m else (a, x) :: m)
    else (k, b) :: writeByte m a x

/-- Every listed address is above a bound, the addresses rise, and no listed byte is the blank one. -/
def memOkFrom : Nat → List Host.Cell → Bool
  | _, [] => true
  | lo, (k, b) :: m => decide (lo ≤ k) && b != blank k && memOkFrom (k + 1) m

/-- The canonical form of memory. -/
def Memory.wf (m : List Host.Cell) : Bool := memOkFrom 0 m

def readBytes (m : List Host.Cell) (a n : Nat) : List Byte := (List.range n).map (fun i => readByte m (a + i))

def writeBytes (m : List Host.Cell) : Nat → List Byte → List Host.Cell
  | _, [] => m
  | a, b :: bs => writeBytes (writeByte m a b) (a + 1) bs

/-! ### Lines -/

def lineOf (pa : Nat) : Nat := pa / 128

/-- Bytes of a line from an offset, and a line with bytes put and marked. -/
def Line.get (l : Line) (off n : Nat) : Nat := l.data.toNat / 2 ^ (8 * off) % 2 ^ (8 * n)
def Line.put (l : Line) (off n x : Nat) (dirty : Bool) : Line :=
  { l with data := putBits l.data (8 * (off + n) - 1) (8 * off) x,
           dirty := putBits l.dirty (off + n - 1) off (if dirty then 2 ^ n - 1 else 0) }

/-- The hint state after an access (R265). -/
def hintAfter (old new : Hint) : Hint :=
  match new with
  | .evictLast => .evictLast
  | .evictFirst => if old = .evictLast then .evictLast else .evictFirst
  | .normal => old

def findLine (set : List Line) (n : Nat) : Option Line := set.find? (fun l => l.line = n)
def dropLine (set : List Line) (n : Nat) : List Line := set.filter (fun l => l.line != n)

/-- The least recently used line with a hint: sets are kept most recently used first. -/
def lruWith (set : List Line) (h : Hint) : Option Line := (set.filter (fun l => l.hint = h)).getLast?

/-- The line a full set evicts (R265). -/
def victim (set : List Line) : Option Line :=
  match lruWith set .evictFirst with
  | some l => some l
  | none => match lruWith set .normal with
    | some l => some l
    | none => lruWith set .evictLast

/-- Before a line becomes evict-last in a set that already holds the most it may, the least recent such line becomes normal. -/
def capHints (set : List Line) (cap : Nat) (n : Nat) : List Line :=
  let held := set.filter (fun l => l.hint = .evictLast && l.line != n)
  if held.length < cap then set
  else match held.getLast? with
    | some v => set.map (fun l => if l.line = v.line then { l with hint := .normal } else l)
    | none => set

/-- A set with a line made most recent, after an access with a hint; and the line that the set must evict for it. -/
def touch (set : List Line) (ways cap : Nat) (l : Line) (h : Hint) : List Line × Option Line :=
  let h' := hintAfter l.hint h
  let set := if h' = .evictLast then capHints set cap l.line else set
  let rest := dropLine set l.line
  let l := { l with hint := h' }
  if rest.length < ways then (l :: rest, none)
  else match victim rest with
    | some v => (l :: dropLine rest v.line, some v)
    | none => (l :: rest, none)

/-! ### What a write at a home sets off (R356, R360) -/

/-- The monitors on a line fire. -/
def State.fireMonitors (s : State) (line : Nat) : State :=
  { s with ctxs := s.ctxs.map (fun p => if p.2.monitor = .armed line then (p.1, { p.2 with monitor := .fired }) else p) }

/-! ### L2 slices and the backing store -/

/-- The key of an L2 line's set. (DESIGN CHOICE, log 43) -/
def l2Key (pa : Nat) : Nat := stackOf pa * 16384 + stackOffset pa / 128 % 16384

/-- A line as the backing store holds it. -/
def State.backingLine (s : State) (n : Nat) : Line :=
  { line := n, data := BitVec.ofNat 1024 (ofBytes (readBytes s.mem (128 * n) 128)), dirty := 0, hint := .normal }

/-- Write the dirty bytes of a line into the backing store, but none of bad data (R383). (DESIGN CHOICE, log 58) -/
def State.writeDirty (s : State) (l : Line) : State :=
  let put (m : List Host.Cell) (i : Nat) :=
    if s.badAt (128 * l.line + i) 1 then m else writeByte m (128 * l.line + i) (BitVec.ofNat 8 (l.get i 1))
  { s with mem := (setBits 128 l.dirty.toNat).foldl put s.mem }

/-- The set of a slice that a line lies in, and the line if the slice holds it. -/
def State.l2Set (s : State) (n : Nat) : List Line := tgetD s.l2 (l2Key (128 * n)) []
def State.l2Line (s : State) (n : Nat) : Option Line := findLine (s.l2Set n) n

/-- Put a line into its slice, most recent, evicting another to the backing store where the set is full (R254, R265). -/
def State.l2Put (s : State) (l : Line) (h : Hint) : State :=
  let (set, out) := touch (s.l2Set l.line) 16 12 l h
  let s := { s with l2 := tput s.l2 (l2Key (128 * l.line)) set }
  match out with
  | some v => s.writeDirty v
  | none => s

/-- A line at its home: in its slice, or in the backing store. -/
def State.homeLine (s : State) (n : Nat) : Line :=
  match s.l2Line n with
  | some l => l
  | none => s.backingLine n

/-- The bytes at an address as its home holds them (device scope). The bytes lie in one line. -/
def State.homeRead (s : State) (pa n : Nat) : Nat := (s.homeLine (lineOf pa)).get (pa % 128) n

/-- Bytes at the home that may cross lines, for records and tables. -/
def State.homeBytes (s : State) (pa n : Nat) : List Byte :=
  (List.range n).map (fun i => BitVec.ofNat 8 (s.homeRead (pa + i) 1))

/-- The watched words that a write touches, in ascending address (R360): each matching word pushes a copy of the image. A push that
is refused disarms the watchpoint. -/
def State.fireWatch (s : State) (key : Nat) (pa n : Nat) : State :=
  match tget s.watches key with
  | none => s
  | some w =>
    (List.range w.words).foldl (fun s i =>
      let a := w.pa + 8 * i
      match tget s.watches key with
      | none => s
      | some w =>
        if w.armed && decide (a < pa + n ∧ pa < a + 8) then
          let x := BitVec.ofNat 64 (s.homeRead a 8)
          if x &&& w.mask = w.value &&& w.mask then
            let off : W72 := w.start + BitVec.ofNat 72 (8 * i)
            let b := setWord (setWord w.image 6 x) 7 (off.setWidth 64)
            let part := match s.launch? w.launch with | some l => l.part | none => 0
            let cap := match s.launch? w.launch with | some l => l.prio | none => 0
            let pushed := if s.bargeOk part b then s.push w.launch b cap none (some w.id) else none
            match pushed with
            | some s' => if w.once then { s' with watches := tput s'.watches key { w with armed := false } } else s'
            | none => { s with watches := tput s.watches key { w with armed := false } }
          else s
        else s) s

/-- A write that reaches the CMD of TRAPPED frames gives them its command: 1 RESUME or 2 DISCARD. One that has a command keeps it. -/
def State.noteCmds (s : State) (pa n : Nat) : State :=
  let take (f : Frame) : Frame :=
    let x := s.homeRead f.cmdPa 8
    if decide (f.cmdPa < pa + n ∧ pa < f.cmdPa + 8) && f.state = 2 && f.cmd = 0 && decide (x = 1 ∨ x = 2) then { f with cmd := x } else f
  { s with frames := s.frames.map (fun p => (p.1, take p.2)) }

/-- Whatever a write to these bytes at their home sets off: monitors on the line, then watchpoints in order of their handles, and
the commands of frames (R356, R360, R378). -/
def State.homeWritten (s : State) (pa n : Nat) : State :=
  let s := s.fireMonitors (lineOf pa)
  ((s.watches.map Prod.fst).foldl (fun s k => s.fireWatch k pa n) s).noteCmds pa n

/-- Write bytes at their home slice, or at the home itself where it is not cached (R255). The bytes lie in one line. -/
def State.homeWrite (s : State) (pa n x : Nat) (h : Hint) : State :=
  let s :=
    if (homeOf pa).cached then s.l2Put ((s.homeLine (lineOf pa)).put (pa % 128) n x true) h
    else { s with mem := writeBytes s.mem pa (toBytes n x) }
  s.homeWritten pa n

/-- Bring a line into its slice (a load's fill; FILL; PREF). -/
def State.l2Fill (s : State) (n : Nat) (h : Hint) : State :=
  if (homeOf (128 * n)).cached then s.l2Put (s.homeLine n) h else s

/-- A line in the place of the one that its slice holds. -/
def State.l2Swap (s : State) (l : Line) : State :=
  { s with l2 := tput s.l2 (l2Key (128 * l.line)) ((s.l2Set l.line).map (fun x => if x.line = l.line then l else x)) }

/-- Write a slice's dirty bytes of a line to the backing store; the line stays, clean (R97, R265, R281). Bytes for a far side whose link
is down stay dirty (R408). -/
def State.l2Clean (s : State) (n : Nat) : State :=
  match s.l2Line n with
  | none => s
  | some l =>
    if !s.linkOpen (128 * n) then s
    else (s.writeDirty l).l2Swap { l with dirty := 0, hint := if l.hint = .evictLast && l.dirty ≠ 0 then .normal else l.hint }

def State.l2Drop (s : State) (n : Nat) : State :=
  { s with l2 := tput s.l2 (l2Key (128 * n)) (dropLine (s.l2Set n) n) }

/-- A slice holds dirty bytes of a line. -/
def State.l2Dirty (s : State) (n : Nat) : Bool := match s.l2Line n with | some l => l.dirty ≠ 0 | none => false

/-- Write bytes at the backing store (system scope); a slice's copy is kept equal. -/
def State.systemWrite (s : State) (pa n x : Nat) (h : Hint) : State :=
  let s := { s with mem := writeBytes s.mem pa (toBytes n x) }
  let s := match s.l2Line (lineOf pa) with
    | some l => s.l2Put (l.put (pa % 128) n x false) h
    | none => s
  s.homeWritten pa n

/-- Read bytes from the backing store (system scope), the slice's own dirty bytes written there first; the slice's copy is
brought up to date (R255, R297). -/
def State.systemRead (s : State) (pa n : Nat) (h : Hint) : Nat × State :=
  let s := s.l2Clean (lineOf pa)
  let x := ofBytes (readBytes s.mem pa n)
  match s.l2Line (lineOf pa) with
  | some l => (x, s.l2Put { s.backingLine (lineOf pa) with hint := l.hint } h)
  | none => (x, s)

/-! ### First-level storage (R247) -/

/-- Bay b of cluster n keeps its sets at keys from 128 × (16 n + b); the uniform cache of cluster n from 128 × n. (DESIGN CHOICE, log 43; DEDUCED, log 63) -/
def bayKey (n b line : Nat) : Nat := 128 * (16 * n + b) + line % 128
def uniKey (n line : Nat) : Nat := 128 * n + line % 128

def State.baySet (s : State) (n b line : Nat) : List Line := tgetD s.bayLines (bayKey n b line) []
def State.bayLine (s : State) (n b line : Nat) : Option Line := findLine (s.baySet n b line) line

/-- The 8-byte words of a line that hold dirty bytes. -/
def Line.dirtyWords (l : Line) : List Nat := (List.range 16).filter (fun i => l.dirty.toNat >>> (8 * i) % 256 ≠ 0)

/-- Carry a bay's dirty bytes of a line to the home slice; the line stays, clean. What a write there sets off, it sets off for each word
that the line has written (R360). -/
def State.carryLine (s : State) (l : Line) : State :=
  if l.dirty = 0 then s
  else
    let home := s.homeLine l.line
    let merged := (setBits 128 l.dirty.toNat).foldl (fun h i => h.put i 1 (l.get i 1) true) home
    let s :=
      if (homeOf (128 * l.line)).cached then s.l2Put merged .normal
      else s.writeDirty l
    l.dirtyWords.foldl (fun s i => s.homeWritten (128 * l.line + 8 * i) 8) s

/-- The same by the bays of a die, with the messages to a far home and back. -/
def State.carryFrom (s : State) (die : Nat) (l : Line) : State := if l.dirty = 0 then s else (s.reach die (128 * l.line)).carryLine l

def State.bayClean (s : State) (n b line : Nat) : State :=
  match s.bayLine n b line with
  | none => s
  | some l =>
    let s := s.carryFrom (dieOf n) l
    let set := (s.baySet n b line).map (fun x => if x.line = line then { x with dirty := 0 } else x)
    { s with bayLines := tput s.bayLines (bayKey n b line) set }

def State.bayDrop (s : State) (n b line : Nat) : State :=
  { s with bayLines := tput s.bayLines (bayKey n b line) (dropLine (s.baySet n b line) line) }

/-- Put a line into a bay's cache, evicting another to its home where the set is full. -/
def State.bayPut (s : State) (n b : Nat) (l : Line) (h : Hint) : State :=
  let (set, out) := touch (s.baySet n b l.line) 8 6 l h
  let s := { s with bayLines := tput s.bayLines (bayKey n b l.line) set }
  match out with
  | some v => s.carryFrom (dieOf n) v
  | none => s

/-- A bay's copy of a line, filled from the home where the bay has none. (DEDUCED, log 63) -/
def State.bayFill (s : State) (n b line : Nat) (h : Hint) : Line × State :=
  match s.bayLine n b line with
  | some l => (l, s)
  | none =>
    let s := (s.reach (dieOf n) (128 * line)).l2Fill line h
    ({ s.homeLine line with dirty := 0, hint := .normal }, s)

/-- A copy of a line brought up to what the home holds, but for its own dirty bytes. -/
def Line.renewed (l home : Line) : Line :=
  (setBits 128 l.dirty.toNat).foldl (fun h i => h.put i 1 (l.get i 1) true) { home with dirty := 0, hint := l.hint }

/-- A slice gives up a line once it is clean; one that could not be written back keeps its dirty bytes alone (R97, R408). -/
def State.l2Leave (s : State) (n : Nat) : State :=
  match s.l2Line n with
  | none => s
  | some l => if l.dirty = 0 then s.l2Drop n else s.l2Swap (l.renewed (s.backingLine n))

/-- A bay's copies hold nothing older than its context may now read (R291, R300, R333). (DEDUCED, log 63) -/
def State.bayRenew (s : State) (n b : Nat) : State :=
  { s with bayLines := s.bayLines.map (fun p =>
      if p.1 / 128 = 16 * n + b then (p.1, p.2.map (fun l => l.renewed (s.homeLine l.line))) else p) }

/-- The bays of a context acquire: what its slot, flight, barrier or start has been released with is what they read from now on
(R291, R300, R333). (DEDUCED, log 63) -/
def State.refreshBays (s : State) (n slot : Nat) : State :=
  match s.ctx? n slot with
  | none => s
  | some c => (setBits 16 c.bays.toNat).foldl (fun s b => s.bayRenew n b) s

/-- Every line a bay holds. -/
def State.bayAll (s : State) (n b : Nat) : List Line :=
  (s.bayLines.filter (fun p => p.1 / 128 = 16 * n + b)).flatMap Prod.snd

/-- Write a bay's dirty lines back to their home slices; then, for a stopped or saved context, drop every line (R368, R387). -/
def State.bayWriteBack (s : State) (n b : Nat) (drop : Bool) : State :=
  let s := (s.bayAll n b).foldl (fun s l => s.bayClean n b l.line) s
  if drop then { s with bayLines := s.bayLines.filter (fun p => p.1 / 128 != 16 * n + b) } else s

/-- Write every dirty copy of a line that any line cache holds back to its home slice. -/
def State.cleanEverywhere (s : State) (line : Nat) : State :=
  (s.bayLines.filter (fun p => p.2.any (fun l => l.line = line))).foldl
    (fun s p => s.bayClean (p.1 / 2048) (p.1 / 128 % 16) line) s

/-- Drop every first-level copy of a line. -/
def State.dropFirstLevel (s : State) (line : Nat) : State :=
  { s with bayLines := s.bayLines.map (fun p => (p.1, dropLine p.2 line)),
           uniLines := s.uniLines.map (fun p => (p.1, dropLine p.2 line)) }

/-! ### One element at a scope (R255) -/

/-- A scope at which an access to a physical address is performed: the flag window is always system (R91). (DEDUCED, log 21) -/
def effScope (pa : Nat) (sc : Scope) : Scope := if homeOf pa = .flag then .system else sc

def narrowScope (sc : Scope) : Bool := sc = .lane || sc = .core || sc = .bay

/-- Bring a bay's clean copy of a line up to what its home now holds. -/
def State.bayRefresh (s : State) (n b line : Nat) : State :=
  match s.bayLine n b line with
  | none => s
  | some l => s.bayPut n b { s.homeLine line with dirty := 0, hint := l.hint } .normal

/-- Read an element for an agent at a scope; a core names its bay, a generator or engine none. (DEDUCED, log 63) -/
def State.readAt (s : State) (n : Nat) (bay : Option Nat) (sc : Scope) (pa size : Nat) (h : Hint) : Nat × State :=
  let line := lineOf pa
  if !(homeOf pa).cached then (ofBytes (readBytes s.mem pa size), s)
  else
    match bay with
    | some b =>
      if narrowScope sc then
        let (l, s) := s.bayFill n b line h
        (l.get (pa % 128) size, s.bayPut n b l h)
      else
        let s := s.bayClean n b line
        if effScope pa sc = .system then
          let (x, s) := s.systemRead pa size h
          (x, s.bayRefresh n b line)
        else
          let s := s.l2Fill line h
          (s.homeRead pa size, s.bayRefresh n b line)
    | none =>
      if effScope pa sc = .system then s.systemRead pa size h
      else
        let s := s.l2Fill line h
        (s.homeRead pa size, s)

/-- Write an element for an agent at a scope. -/
def State.writeAt (s : State) (n : Nat) (bay : Option Nat) (sc : Scope) (pa size x : Nat) (h : Hint) : State :=
  let line := lineOf pa
  if !(homeOf pa).cached then s.homeWrite pa size x h
  else
    match bay with
    | some b =>
      if narrowScope sc then
        let (l, s) := s.bayFill n b line h
        s.bayPut n b (l.put (pa % 128) size x true) h
      else
        let s := s.bayClean n b line
        let s := if effScope pa sc = .system then s.systemWrite pa size x h else s.homeWrite pa size x h
        match s.bayLine n b line with
        | some l => s.bayPut n b (l.put (pa % 128) size x false) h
        | none => s
    | none => if effScope pa sc = .system then s.systemWrite pa size x h else s.homeWrite pa size x h

/-- A generator's load leaves its line in the uniform cache, most recent first, four ways (R247). -/
def State.uniTouch (s : State) (n pa : Nat) : State :=
  let line := lineOf pa
  if (homeOf pa).cached then
    let set := s.homeLine line :: dropLine (tgetD s.uniLines (uniKey n line) []) line
    { s with uniLines := tput s.uniLines (uniKey n line) (set.take 4) }
  else s

/-- The uniform cache is written through: a copy that it holds follows the generator's store or atomic (R247). -/
def State.uniWrite (s : State) (n pa : Nat) : State :=
  let line := lineOf pa
  let key := uniKey n line
  let set := tgetD s.uniLines key []
  if set.any (fun l => l.line = line) then
    { s with uniLines := tput s.uniLines key (set.map (fun l => if l.line = line then { s.homeLine line with dirty := 0, hint := l.hint } else l)) }
  else s

/-- An atomic at its home (R281): the old value, and the state with the new one; at system scope on host memory the new value
is written to host memory as well. -/
def State.atomicAt (s : State) (sc : Scope) (pa size : Nat) (h : Hint) (f : Nat → Nat) : Nat × State :=
  if !(homeOf pa).cached then
    let old := ofBytes (readBytes s.mem pa size)
    (old, s.homeWrite pa size (f old) h)
  else
    let s := if effScope pa sc = .system then (s.systemRead pa size h).2 else s.l2Fill (lineOf pa) h
    let old := s.homeRead pa size
    let s := if effScope pa sc = .system then s.systemWrite pa size (f old) h else s.homeWrite pa size (f old) h
    (old, s)

/-- Number ranges of lines that hold bytes of [pa, pa + n). -/
def linesOf (pa n : Nat) : List Nat := if n = 0 then [] else (List.range (lineOf (pa + n - 1) - lineOf pa + 1)).map (· + lineOf pa)

/-- Act on bytes line by line: the address, the number of bytes, and their value. -/
def State.byLine (s : State) (f : State → Nat → Nat → Nat → State) (pa : Nat) (bs : List Byte) : State :=
  (linesOf pa bs.length).foldl (fun s line =>
    let lo := max pa (128 * line)
    let n := min (pa + bs.length) (128 * line + 128) - lo
    f s lo n (ofBytes ((bs.drop (lo - pa)).take n))) s

/-- Write bytes at system scope: the device's own records (R91, R366, R391, R393, R426). -/
def State.systemBytes (s : State) (pa : Nat) (bs : List Byte) : State := s.byLine (fun s a n x => s.systemWrite a n x .normal) pa bs

/-- Write bytes at the home (device scope). -/
def State.deviceBytes (s : State) (pa : Nat) (bs : List Byte) : State := s.byLine (fun s a n x => s.homeWrite a n x .normal) pa bs

end Sys2Proof.Machine
end

