-- ==== Sys2Proof/Machine/Xlate.lean ====
section
/-! DEFINITION. Virtual addresses: page tables, walks, TLBs and walker caches (R256 to R264). -/

namespace Sys2Proof.Machine

/-- Translation kinds (R260), and ALIGN (R280, R298); 0 stands for a table that lies behind a failed link (R383), which is no
translation fault. -/
abbrev Kind := BitVec 4
def kLink : Kind := 0
def kNotValid : Kind := 1
def kWrite : Kind := 2
def kMalformed : Kind := 3
def kNoPhys : Kind := 4
def kTableErr : Kind := 5
def kAlign : Kind := 6

/-- The lowest index bit of table t, and how many index bits it has (R257). -/
def tableLow (t : Nat) : Nat := [56, 46, 36, 26, 16, 12].getD t 12
def tableBits (t : Nat) : Nat := [16, 10, 10, 10, 10, 4].getD t 4

/-- XLROOT of an address space (R256). -/
def State.xlroot (s : State) (space : BitVec 2) : W64 := tgetD s.regs.xlroot space.toNat 0
def State.spaceOn (s : State) (space : BitVec 2) : Bool := bit (s.xlroot space) 0

/-- The page size, in address bits, that a leaf of table t maps; none for a reserved SIZE (R257, R258). -/
def leafBits (t size : Nat) : Option Nat :=
  match t, size with
  | 2, 0 => some 36
  | 3, 0 => some 26
  | 3, 1 => some 31
  | 4, 0 => some 16
  | 4, 1 => some 21
  | 5, 0 => some 12
  | _, _ => none

def hintOf (n : Nat) : Hint := if n = 1 then .evictFirst else if n = 2 then .evictLast else .normal

/-- What one table entry says (R258). -/
inductive Pte where
  | invalid
  | malformed
  | table (pa : Nat)
  | leaf (bits pa : Nat) (ord : BitVec 2) (w : Bool) (hint : Hint)
  deriving DecidableEq, Repr

/-- Entry e of table t, with the malformed cases of R258. -/
def readPte (t e : Nat) : Pte :=
  if bits e 0 0 = 0 then .invalid
  else if bits e 63 54 ≠ 0 ∨ bits e 9 8 ≠ 0 ∨ bits e 5 5 ≠ 0 ∨ bits e 11 10 = 3 ∨ bits e 7 6 = 3 then .malformed
  else
    let pa := bits e 53 12 * 4096
    if bits e 1 1 = 1 then
      match leafBits t (bits e 3 2) with
      | none => .malformed
      | some n =>
        if pa % 2 ^ n ≠ 0 then .malformed
        else .leaf n pa (BitVec.ofNat 2 (bits e 7 6)) (bits e 4 4 = 1) (hintOf (bits e 11 10))
    else if t = 5 ∨ bits e 11 10 ≠ 0 ∨ bits e 7 6 ≠ 0 ∨ bits e 4 2 ≠ 0 then .malformed
    else if t < 4 ∧ bits e 12 12 = 1 then .malformed
    else .table pa

/-- The stack whose walkers serve an address for a die: of the die's near stacks, the one that va bits 38:36 mod 3 name. The two dies near
a stack share its walkers (R9, R261). -/
def walkerStack (die : Nat) (va : W72) : Nat := 3 * (die / 2) + slice va 38 36 % 3

/-- The walker that a miss goes to: one of the stack's 16 (R261). (DESIGN CHOICE, log 43) -/
def State.walkerOf (s : State) (die : Nat) (va : W72) : Nat := 16 * walkerStack die va + Config.walkerPick s.fresh % 16

/-- A walker's cached entry that leads to table t + 1 (R261). -/
def State.walkerHit (s : State) (unit : Nat) (space : BitVec 2) (va : W72) (t : Nat) : Option Nat :=
  (s.walkers.find? (fun p => p.1 = unit && p.2.space = space && p.2.bits = tableLow t
    && p.2.base.toNat >>> tableLow t = va.toNat >>> tableLow t)).map (fun p => p.2.pa)

/-- A walk from table t at `pa` (R257 to R260): the leaf, or the kind it fails with; and the entries that led on, to cache.
An entry is read from its home; a 2 MiB or 2 GiB page takes whichever of its 32 leaves the walker meets (R259). (DESIGN CHOICE, log 11; DEDUCED, log 26) -/
def State.walkFrom (s : State) (unit : Option Nat) (space : BitVec 2) (va : W72) :
    Nat → Nat → Nat → Except Kind TlbEnt × List TlbEnt
  | 0, _, _ => (.error kMalformed, [])
  | fuel + 1, t, pa =>
    let at_ (i : Nat) : Nat := pa + 8 * i
    let ix := bits va.toNat (tableLow t + tableBits t - 1) (tableLow t)
    let hit := match unit with | some u => s.walkerHit u space va t | none => none
    match hit with
    | some next => s.walkFrom unit space va fuel (t + 1) next
    | none =>
      if homeOf (at_ ix) = .absent || !s.peerOk (at_ ix) then (.error kNoPhys, [])
      else if !s.linkOpen (at_ ix) then (.error kLink, [])
      else if s.badLine (at_ ix) then (.error kTableErr, [])
      else
        match readPte t (s.homeRead (at_ ix) 8) with
        | .invalid => (.error kNotValid, [])
        | .malformed => (.error kMalformed, [])
        | .table next =>
          let (r, seen) := s.walkFrom unit space va fuel (t + 1) next
          (r, { space := space, base := va, bits := tableLow t, pa := next, ord := 0, w := false, hint := .normal } :: seen)
        | .leaf n p ord w hint =>
          let same := n = 31 ∨ n = 21
          let pick := if same then ix / 32 * 32 + Config.leafPick (s.fresh + at_ ix) % 32 else ix
          if s.badLine (at_ pick) then (.error kTableErr, [])
          else match readPte t (s.homeRead (at_ pick) 8) with
          | .leaf n' p' ord' w' hint' =>
            if n' = n then (.ok { space := space, base := va, bits := n, pa := p', ord := ord', w := w', hint := hint' }, [])
            else (.ok { space := space, base := va, bits := n, pa := p, ord := ord, w := w, hint := hint }, [])
          | _ => (.ok { space := space, base := va, bits := n, pa := p, ord := ord, w := w, hint := hint }, [])

/-- A whole walk. -/
def State.walk (s : State) (unit : Option Nat) (space : BitVec 2) (va : W72) : Except Kind TlbEnt × List TlbEnt :=
  if s.spaceOn space then s.walkFrom unit space va 6 0 (slice (s.xlroot space) 53 19 * 2 ^ 19) else (.error kNotValid, [])

/-! ### TLBs -/

def TlbEnt.maps (e : TlbEnt) (space : BitVec 2) (va : W72) : Bool :=
  e.space = space && e.base.toNat >>> e.bits = va.toNat >>> e.bits

def tlbFind (t : List TlbEnt) (space : BitVec 2) (va : W72) : Option TlbEnt := t.find? (fun e => e.maps space va)

/-- A TLB with an entry added, the oldest leaving where it is full. (DESIGN CHOICE, log 43) -/
def tlbAdd (t : List TlbEnt) (cap : Nat) (e : TlbEnt) : List TlbEnt := (e :: t.filter (fun x => !x.maps e.space e.base)).take cap

/-- Where an access goes: its physical address, attribute and hint. -/
structure Place where
  pa   : Nat
  ord  : BitVec 2
  hint : Hint
  deriving DecidableEq, Repr

/-- The place of an address in the page of an entry: WRITE through a leaf with W 0, NOPHYS outside the assigned ranges and at
a peer that is not valid (R253, R260, R411). (DEDUCED, log 21) -/
def State.placeIn (s : State) (e : TlbEnt) (va : W72) (write : Bool) : Except Kind Place :=
  if write && !e.w then .error kWrite
  else
    let pa := e.pa + va.toNat % 2 ^ e.bits
    match homeOf pa with
    | .absent => .error kNoPhys
    | .flag => .ok ⟨pa, 0, e.hint⟩
    | _ => if s.peerOk pa then .ok ⟨pa, e.ord, e.hint⟩ else .error kNoPhys

/-- A translation that the front die makes for itself, straight from the tables. -/
def State.xlateFront (s : State) (space : BitVec 2) (va : W72) (write : Bool) : Except Kind Place :=
  match (s.walk none space va).1 with
  | .error k => .error k
  | .ok e => s.placeIn e va write

/-- The entry that a cluster's or its die's TLB holds; a die TLB hit enters the cluster's (R261). -/
def State.tlbLook (s : State) (n : Nat) (space : BitVec 2) (va : W72) : Option TlbEnt × State :=
  match tlbFind (s.cluster n).tlb space va with
  | some e => (some e, s)
  | none =>
    match tlbFind (s.die (dieOf n)).tlb space va with
    | some e => (some e, s.setCluster n { s.cluster n with tlb := tlbAdd (s.cluster n).tlb 4096 e })
    | none => (none, s)

/-- A walker's cache with a walk's entries added, the oldest leaving where it is full (R261). (DESIGN CHOICE, log 43) -/
def State.walkerAdd (s : State) (unit : Nat) (seen : List TlbEnt) : State :=
  let (mine, others) := s.walkers.partition (fun p => p.1 = unit)
  { s with walkers := (seen.map (fun x => (unit, x)) ++ mine).take Config.walkerCap ++ others }

/-- Enter a finished walk's entries: the leaf in the die's TLB, the others in the cache of the walker. -/
def State.tlbEnter (s : State) (die unit : Nat) (e : TlbEnt) (seen : List TlbEnt) : State :=
  { (s.setDie die { s.die die with tlb := tlbAdd (s.die die).tlb 32768 e }).walkerAdd unit seen with fresh := s.fresh + 1 }

/-- How a translation for a core, a generator or an engine stands. -/
inductive Xl where
  | place (p : Place)
  | wait (vpn : BitVec 60)
  | fail (k : Kind)
  deriving DecidableEq, Repr

def vpnOf (va : W72) : BitVec 60 := BitVec.ofNat 60 (va.toNat / 4096)

/-- The walks of a die in flight: the 64 that have waited longest. The others are queued behind them in their order of arrival
(R262). -/
def State.walksOf (s : State) (die : Nat) : List Walk := (s.walks.filter (fun w => w.die = die && w.kind.isNone)).take 64

/-- Translate for an agent, named by `user` (its context's uid and its number): from the TLBs, or by joining or starting the
page's walk; a failed walk is seen once by each agent that waited on it (R261, R262). -/
def State.xlate (s : State) (n : Nat) (space : BitVec 2) (va : W72) (write : Bool) (user : Nat × Nat) : Xl × State :=
  if !s.spaceOn space then (.fail kNotValid, s)
  else
    match s.tlbLook n space va with
    | (some e, s) =>
      match s.placeIn e va write with
      | .ok p => (.place p, s)
      | .error k => (.fail k, s)
    | (none, s) =>
      let die := dieOf n
      let same (w : Walk) : Bool := w.die = die && w.space = space && w.vpn = vpnOf va
      match s.walks.find? (fun w => same w && (w.kind.isNone || w.users.contains user)) with
      | some w =>
        match w.kind with
        | some k =>
          let drop (x : Walk) : Walk := if same x && x.kind.isSome then { x with users := x.users.filter (· != user) } else x
          (.fail k, { s with walks := (s.walks.map drop).filter (fun x => x.kind.isNone || x.users != []) })
        | none =>
          let join (x : Walk) : Walk := if same x && x.kind.isNone then { x with users := user :: x.users.filter (· != user) } else x
          (.wait (vpnOf va), { s with walks := s.walks.map join })
      | none => (.wait (vpnOf va), { s with walks := s.walks ++ [⟨die, space, vpnOf va, none, [user], 0⟩] })

/-- The LCLOCK that stands in the error record of a page's failed walk (R426). -/
def State.walkClk (s : State) (die : Nat) (space : BitVec 2) (va : W72) : BitVec 48 :=
  match s.walks.find? (fun w => w.die = die && w.space = space && w.vpn = vpnOf va && w.kind.isSome) with
  | some w => w.clk
  | none => (s.die die).lclock

/-- Whether a page's walk is still in flight for a die, or queued. -/
def State.walking (s : State) (die : Nat) (space : BitVec 2) (vpn : BitVec 60) : Bool :=
  s.walks.any (fun w => w.die = die && w.space = space && w.vpn = vpn && w.kind.isNone)

/-- The name of an agent in `Walk.users`: a context's generator is 0, its core k is k + 1, its engine command's is 129 and the command's
number. -/
def userOf (uid agent : Nat) : Nat × Nat := (uid, agent)

/-- Agents that have gone wait for no walk, and see none end. -/
def State.forgetUsers (s : State) (gone : Nat × Nat → Bool) : State :=
  let leave (w : Walk) : Walk := { w with users := w.users.filter (fun u => !gone u) }
  { s with walks := (s.walks.map leave).filter (fun w => w.kind.isNone || w.users != []) }

/-- Bytes that the front die reads at a virtual address, at device scope; or the address that does not translate, and its kind, 0
for bad data and for a failed link. -/
def State.readVirt (s : State) (space : BitVec 2) : W72 → Nat → Except (Kind × W72) (List Byte)
  | _, 0 => .ok []
  | va, n + 1 =>
    match s.xlateFront space va false with
    | .error k => .error (k, va)
    | .ok p =>
      if !s.linkOpen p.pa || s.badAt p.pa 1 then .error (0, va)
      else match s.readVirt space (va + 1) n with
      | .error e => .error e
      | .ok bs => .ok (BitVec.ofNat 8 (s.homeRead p.pa 1) :: bs)

end Sys2Proof.Machine
end

