-- ==== Sys2Proof/Machine/Records.lean ====
section
/-! DEFINITION. Logical clocks, counters, and the records that the module writes of what happened (R296, R365, R366, R389 to
R393, R426). -/

namespace Sys2Proof.Machine

/-! ### Counters (R389 to R391) -/

/-- Words of the counter record. -/
def cIssued : Nat := 2
def cFetch : Nat := 3
def cBranch : Nat := 4
def cDepend : Nat := 5
def cEmitq : Nat := 6
def cSwitch : Nat := 7
def cExec : Nat := 8
def cStarveFetch : Nat := 9
def cStarveReplay : Nat := 10
def cStarveOther : Nat := 11
def cToll : Nat := 12
def cSlice : Nat := 13
def cOperand : Nat := 14
def cFuture : Nat := 15
def cStreamsat : Nat := 16
def cVoteq : Nat := 17
def cRendezvous : Nat := 18
def cEngine : Nat := 19
def cDiscard : Nat := 20
def cMiss : Level → Nat
  | .i0 => 21
  | .i1 => 22
  | .i2 => 23
def cEmitWords : Nat := 24
def cReplayWords : Nat := 25
def cStops : Nat := 28
def cSaves : Nat := 29

/-- A count raised, saturating at 2^64 − 1 (R390). -/
def countUp (t : Tab Nat) (w k : Nat) : Tab Nat := tput t w (min (tgetD t w 0 + k) (2 ^ 64 - 1))

/-- Every count of one table added to another. -/
def countAll (t u : Tab Nat) : Tab Nat := u.foldl (fun t p => countUp t p.1 p.2) t

def State.countCtx (s : State) (n slot w k : Nat) : State := s.modCtx n slot (fun c => { c with counts := countUp c.counts w k })
def State.countLaunch (s : State) (l w k : Nat) : State := s.modLaunch l (fun x => { x with counts := countUp x.counts w k })

/-- A cluster sends a context's counts to the front die (R390): a message of its die (R296). -/
def State.sendCounts (s : State) (n slot : Nat) : State :=
  match s.ctx? n slot with
  | none => s
  | some c =>
    let s := s.modLaunch c.launch (fun x => { x with counts := countAll x.counts c.counts })
    (s.setCtx n slot { c with counts := [] }).message (some (dieOf n)) none

/-- Word i of a launch's counter record (R391). -/
def Launch.counterWord (l : Launch) (status i : Nat) : W64 :=
  if i = 0 then l.seq
  else if i = 1 then BitVec.ofNat 64 (l.ring.toNat * 256 + status)
  else if i = 26 then BitVec.ofNat 64 (min l.energy (2 ^ 64 - 1))
  else if i = 27 then BitVec.ofNat 64 (min l.swap (2 ^ 64 - 1))
  else if i < 30 then BitVec.ofNat 64 (tgetD l.counts i 0)
  else 0

/-! ### Rings in the flag window -/

/-- The physical address of a record in a ring of 2^log records that begins at a page of the flag window. A ring that passes
the window's end goes on at its start. (DEDUCED, log 27) -/
def ringAt (page log size tail : Nat) : Nat := flagBase + (4096 * page + tail % 2 ^ log * size) % 2 ^ 22

/-- A 32-byte record in the error ring (R426). (DEDUCED, log 27) -/
def State.errorRecord (s : State) (source kind : Nat) (die : Option Nat) (loc unit : Nat) (lseq : W64) : State :=
  let w0 : W64 := BitVec.ofNat 64 (source * 2 ^ 56 + kind * 2 ^ 54 + (s.lclock die).toNat)
  let pa := ringAt (slice s.regs.errCfg 41 32) (slice s.regs.errCfg 31 28) 32 s.regs.errTail.toNat
  let s := s.systemBytes pa (ofWords [w0, BitVec.ofNat 64 loc, BitVec.ofNat 64 (unit % 2 ^ 16), lseq])
  { s with regs := { s.regs with errTail := s.regs.errTail + 1 } }

/-- The source code and unit of an error in the module's own memory behind the slices (R426). -/
def behind (pa : Nat) : Nat × Nat :=
  match homeOf pa with
  | .dram => (1, stackOf pa)
  | .capacity => (2, (pa - 0x10000000000) / 4096 % 4)
  | _ => (3, 12)

/-- The source code and unit of an error at a physical address: the L2 slice where it holds the line, else the storage behind it
(R425, R426). -/
def State.errorSource (s : State) (pa : Nat) : Nat × Nat :=
  if (s.l2Line (lineOf pa)).isSome then (3, stackOf pa)
  else match homeOf pa with
  | .host => (7, 0)
  | .peer => (6, (s.routeOf pa).getD 0)
  | _ => behind pa

/-- The source code and unit of a failed link to a physical address: the host's port, the port of a peer, or a UCIe link, by the die whose
access it held, or for the front die's by the stack (R426). (DEDUCED, log 54) -/
def State.linkUnit (s : State) (pa : Nat) (die : Option Nat) : Nat × Nat :=
  match homeOf pa with
  | .host => (7, 0)
  | .peer => (6, (s.routeOf pa).getD 0)
  | _ => (5, die.getD (stackOf pa))

/-- What an error at storage leaves behind: nothing where there is none, a record where it was corrected or ended with the retry,
and otherwise a lasting record and a granule marked bad (R382, R425, R426). -/
def State.storageError (s : State) (o : Attempt) (pa : Nat) (die : Option Nat) (lseq : W64) : State :=
  let (src, unit) := s.errorSource pa
  let loc := pa / 128 * 128
  match o with
  | .ok => s
  | .corrected => s.errorRecord src 0 die loc unit lseq
  | .transient => s.errorRecord src 1 die loc unit lseq
  | .lasting => (s.errorRecord src 2 die loc unit lseq).spoil pa
  | .linkFailed => s.errorRecord (s.linkUnit pa die).1 2 die 0 (s.linkUnit pa die).2 0

/-- An error in the pools or the line caches of cluster n: one that was corrected is recorded, and a transient one sends the cluster
back to its curve, with a margin record (R424, R426). (DEDUCED, log 53) -/
def State.poolError (s : State) (o : Attempt) (n : Nat) (lseq : W64) : State :=
  match o with
  | .corrected => s.errorRecord 8 0 (some (dieOf n)) 0 n lseq
  | .transient =>
    let s := s.errorRecord 8 3 (some (dieOf n)) 0 n lseq
    s.setCluster n { s.cluster n with vop := Config.curveVoltage n }
  | _ => s

/-- How an attempt at n bytes ends, whatever its storage would answer: a link that is not there fails it, and data already known bad
is a lasting error. (DESIGN CHOICE, log 58) -/
def State.attempt (s : State) (o : Attempt) (pa n : Nat) : Attempt :=
  if !s.linkOpen pa then .linkFailed
  else
    match o with
    | .linkFailed => .linkFailed
    | o => if s.badAt pa n then .lasting else o

/-! ### Trace (R393) -/

/-- A trace record of an event, if its bit is set: the writing die's counter rises, the record goes to the ring of the address
space, and TRTAIL rises even where the record is dropped. `at_` is the context's cluster and slot; none is the front die. (DEDUCED, log 28) -/
def State.trace (s : State) (space : BitVec 2) (event : Nat) (at_ : Option (Nat × Nat)) (seq ttag : W64) (arg : Nat) : State :=
  let r := s.ret space.toNat
  if !bit r.trhi (48 + event) then s
  else
    let die : Option Nat := at_.map (fun p => dieOf p.1)
    let clk := s.lclock die + 1
    let s := s.setLclock clk die
    let place : Nat := match at_ with
      | some (n, slot) => n * 64 + slot * 8
      | none => 2 ^ 11
    let w0 : W64 := BitVec.ofNat 64 (clk.toNat * 65536 + event * 4096 + place)
    let log := slice r.trhi 40 36
    let va : W72 := BitVec.ofNat 72 (slice r.trhi 7 0 * 2 ^ 64 + slice r.trlo 63 12 * 4096 + r.trTail.toNat % 2 ^ log * 32)
    let s := match s.xlateFront space va true with
      | .error _ => s
      | .ok p => if s.linkOpen p.pa then s.systemBytes p.pa (ofWords [w0, seq, ttag, BitVec.ofNat 64 arg]) else s
    s.setRet space.toNat { s.ret space.toNat with trTail := r.trTail + 1 }

/-- A trace record of a context's event. -/
def State.traceCtx (s : State) (n slot event arg : Nat) : State :=
  match s.ctx? n slot with
  | none => s
  | some c =>
    match s.launch? c.launch with
    | none => s
    | some l => s.trace l.ring event (some (n, slot)) l.seq c.ttag arg

/-- A trace record of the front die about a launch. (DEDUCED, log 28) -/
def State.traceLaunch (s : State) (l : Launch) (event arg : Nat) : State := s.trace l.ring event none l.seq 0 arg

/-- A trace record of a module's change of state goes to every address space that traces it (R393, event 9). (DEDUCED, log 28) -/
def State.traceModule (s : State) (m state : Nat) : State :=
  (List.range 4).foldl (fun s n => s.trace (BitVec.ofNat 2 n) 9 none 0 0 (m * 4 + state)) s

/-- A trace record of a warm reset's phase, likewise (R393, event 10). (DEDUCED, log 28) -/
def State.traceReset (s : State) (d phase : Nat) : State :=
  (List.range 4).foldl (fun s n => s.trace (BitVec.ofNat 2 n) 10 none 0 0 (d * 16 + phase)) s

/-! ### Stop records (R365, R366) -/

/-- What a record says of a stop. -/
structure Why where
  cls    : Nat
  reason : Nat := 0
  ecode  : Nat := 0
  retried : Bool := false
  where_ : W64 := 0
  detail : W64 := 0
  kinds  : W64 := 0
  addr   : W72 := 0
  xkind  : Nat := 0
  /-- The core-in-context index of the core that failed. -/
  j      : Option Nat := none
  /-- The LCLOCK of the error record that the stop shares; else the record takes the counter as it stands (R426). -/
  clk    : Option (BitVec 48) := none
  /-- The access that fails had left its instruction behind: no handler can resume there (R411). -/
  late   : Bool := false
  deriving DecidableEq, Repr

/-- The DETAIL word: 0 for the classes from 0x30, which are no generator, program, watchdog or lane class (R365). -/
def Why.detailWord (w : Why) : W64 := if w.cls < 0x30 then w.detail else 0

/-- The eight words of a record, but for FAULTID, DROPPED and RESUMABLE, which are known when it is written. -/
def State.record (s : State) (n slot : Nat) (ring : BitVec 2) (seq ttag : W64) (w : Why) : List W64 :=
  let jbits : Nat := match w.j with | some j => j * 2 ^ 17 + 2 ^ 16 | none => 0
  [BitVec.ofNat 64 (w.cls * 2 ^ 56 + w.reason * 2 ^ 48 + w.ecode * 2 ^ 40 + (if w.retried then 2 ^ 35 else 0) + ring.toNat * 2 ^ 32
      + n * 2 ^ 27 + slot * 2 ^ 24 + jbits),
   seq, w.where_, w.detailWord, w.kinds, w.addr.setWidth 64,
   BitVec.ofNat 64 (w.addr.toNat / 2 ^ 64 * 2 ^ 56 + w.xkind * 2 ^ 52 + (w.clk.getD (s.lclock (some (dieOf n)))).toNat),
   ttag]

/-- Write records of one stop into the fault log of their address space, all under one FAULTID (R365, R366), and count them
for their launch (R391). Answers the records as written. (DEDUCED, log 27) -/
def State.logRecords (s : State) (ring : BitVec 2) (launch dropped : Nat) (resumable : Bool) (ttag : W64) (recs : List (List W64)) :
    State × List (List W64) :=
  let id := (s.trap ring.toNat).faultId
  let stamp (r : List W64) : List W64 :=
    let w := putBits (putBits (wordAt r 0) 39 36 (min dropped 15)) 15 0 id.toNat
    setWord r 0 (putBit w 34 resumable)
  let recs := recs.map stamp
  let put (s : State) (r : List W64) : State :=
    let t := s.trap ring.toNat
    let s := s.systemBytes (ringAt (slice t.flog 41 32) (slice t.flog 31 28) 64 t.flogTail.toNat) (ofWords r)
    let s := s.setTrap ring.toNat { t with flogTail := t.flogTail + 1 }
    let s := s.countLaunch launch cStops 1
    s.trace ring 6 none (wordAt r 1) ttag (wordAt r 0).toNat
  let s := recs.foldl put s
  (s.setTrap ring.toNat { s.trap ring.toNat with faultId := id + 1 }, recs)

end Sys2Proof.Machine
end

