-- ==== Sys2Proof/Machine/Ops.lean ====
section
/-! DEFINITION. Contexts and their registers: what a generator instruction may do to its context, and taking a trap or fault
(R122, R144, R149, R151, R169, R363 to R367, R377). -/

namespace Sys2Proof.Machine

/-! ### Registers of a context -/

def Ctx.gv (c : Ctx) (n : BitVec 6) : W72 := tgetD c.g n.toNat 0
def Ctx.setG (c : Ctx) (n : BitVec 6) (x : W72) : Ctx := { c with g := tput c.g n.toNat x }
def Ctx.kv (c : Ctx) (n : BitVec 3) : Bool := bit c.k n.toNat
def Ctx.setK (c : Ctx) (n : BitVec 3) (b : Bool) : Ctx := { c with k := putBit c.k n.toNat b }

/-- A slot at the start of a barge: OK, no target (R46, R298). -/
def Slot.reset : Slot :=
  { state := .ok, op := 0, code := 0, kind := 0, addr := 0, target := none, value := 0, work := .none, stream := 0,
    scope := .cluster, link := none, defer := none, uncorr := false, dres := false, clk := 0 }

def Ctx.slot (c : Ctx) (f : BitVec 6) : Slot := tgetD c.slots f.toNat Slot.reset
def Ctx.setSlot (c : Ctx) (f : BitVec 6) (x : Slot) : Ctx := { c with slots := tput c.slots f.toNat x }

/-- The status word of a slot (R298). -/
def Slot.status (x : Slot) : W64 :=
  let st : Nat := match x.state with
    | .pending => 0
    | .ok => 1
    | .error => 2
    | .cancelled => 3
  BitVec.ofNat 64 (x.op.toNat * 65536 + x.code.toNat * 256 + x.kind.toNat * 16 + st)

/-- `$fready` (R298). -/
def Ctx.fready (c : Ctx) : W64 :=
  BitVec.ofNat 64 ((2 ^ 64 - 1) - ((c.slots.filter (fun p => p.2.state = .pending)).map (fun p => 2 ^ p.1)).foldl (· + ·) 0)

/-! ### The context in focus -/

def State.focusCtx (s : State) : Option Ctx := s.ctx? s.focus.cl s.focus.slot
def State.launchOf (s : State) (c : Ctx) : Option Launch := s.launch? c.launch
/-- The submission number of a context's launch, 0 where it has none. -/
def State.seqOf (s : State) (c : Ctx) : W64 := match s.launchOf c with | some l => l.seq | none => 0
def State.partition (s : State) (c : Ctx) : W32 := match s.launchOf c with | some l => l.part | none => 0
def State.isLive (s : State) (l : Nat) : Bool := s.launches.any (fun x => x.acc = l)

/-! ### Stream counters (R195, R286) -/

/-- sN of a context: accesses started and neither performed nor failed, engine commands whose slot is PENDING, and matrix operations whose
slot part has not ended. -/
def State.stream (s : State) (uid : Nat) (n : Nat) : Nat :=
  (s.accs.filter (fun a => a.uid = uid && a.stream.toNat = n && !a.done && !a.bad)).length
    + (s.cmds.filter (fun a => a.uid = uid && a.x.ann.os.toNat = n)).length
    + (s.mmas.filter (fun a => a.uid = uid && a.os.toNat = n)).length

def State.streamsZero (s : State) (uid : Nat) : Bool := (List.range 8).all (fun n => s.stream uid n = 0)

/-! ### Step 1 of SWAIT (R196) -/

/-- Every queued emission operation is written in full and every core still in the context has started every word written. -/
def State.allStarted (s : State) (n slot : Nat) : Bool :=
  match s.ctx? n slot with
  | none => true
  | some c => c.queue.isEmpty && (s.liveCores n slot).all (fun p => p.2.buf.isEmpty)

/-! ### Frame slots (R374, R385) -/

def frameKey (space : BitVec 2) (ix : Nat) : Nat := space.toNat * 4096 + ix

/-- The virtual address of a frame slot (R374, R385). -/
def State.frameVa (s : State) (space : BitVec 2) (ix : Nat) : W72 :=
  let t := s.trap space.toNat
  BitVec.ofNat 72 (slice t.framehi 7 0 * 2 ^ 64 + slice t.framelo 63 25 * 2 ^ 25 + ix * 2 ^ 25)

/-- FRAMECNT of an address space. -/
def State.frameCount (s : State) (space : BitVec 2) : Nat := slice (s.trap space.toNat).framehi 44 32

/-- Frame slots taken by a save or a handled trap that has not yet written its frame. -/
def State.framesTaken (s : State) (space : BitVec 2) : List Nat :=
  s.ctxs.flatMap (fun p =>
    if p.2.ring = space then
      (match p.2.save with | some ⟨_, some (_, ix)⟩ => [ix] | _ => [])
        ++ (match p.2.stop with | some x => x.frame.toList | none => [])
    else [])

def State.frameFree (s : State) (space : BitVec 2) (ix : Nat) : Bool :=
  (tget s.frames (frameKey space ix)).isNone && !(s.framesTaken space).contains ix

/-- The lowest free frame slot. -/
def State.freeFrame (s : State) (space : BitVec 2) : Option Nat :=
  (List.range (s.frameCount space)).find? (fun ix => s.frameFree space ix)

/-- FRAMEFREE.NFREE. -/
def State.framesFree (s : State) (space : BitVec 2) : Nat :=
  ((List.range (s.frameCount space)).filter (fun ix => s.frameFree space ix)).length

/-! ### Taking a trap or a fault (R363, R364, R377) -/

/-- The precedence of a class (R364). -/
def stopRank (cls : Nat) : Nat :=
  if cls = 0x35 ∨ cls = 0x32 ∨ cls = 0x33 then 1
  else if 0x20 ≤ cls ∧ cls ≤ 0x26 ∨ cls = 0x30 ∨ cls = 0x31 then 2
  else if cls = 0x10 then 3
  else 4

/-- HBARGE of an address space (R385). -/
def State.hbarge (s : State) (space : BitVec 2) : W72 :=
  let t := s.trap space.toNat
  BitVec.ofNat 72 (slice t.hbctl 7 0 * 2 ^ 64 + t.hblo.toNat)

/-- The frame slot that a handled trap takes; none where the stop ends the task (R364, R377). (DEDUCED, log 46) -/
def State.handlerFrame (s : State) (c : Ctx) (cls : Nat) : Option Nat :=
  if decide (1 ≤ cls ∧ cls ≤ 10) && bit (s.trap c.ring.toNat).hbctl (47 + cls) && s.hbarge c.ring ≠ 0 && c.stretch.isNone then
    s.freeFrame c.ring
  else none

/-- The engine stops a context's commands as FCANCEL stops them (R303, R368 step 3). -/
def State.cancelAll (s : State) (uid : Nat) : State :=
  { s with cmds := s.cmds.map (fun x => if x.uid = uid && !x.ended then { x with cancel := true, ended := true } else x) }

/-- A context stops for a cause (R363 to R367). It goes no further: its generator stops before its next unretired instruction,
and a pending save is dropped (R371). A stop that no handler takes discards what is queued and cancels its commands. Of several
causes the first of R364 decides, among lane words the least emission number (R367), and the others are counted; the stop's limits
count from its first cause, or from the cause that ends what a handler was to have taken (R368). (DEDUCED, log 29) -/
def State.stopCtx (s : State) (n slot : Nat) (lane : Option Nat) (w : Why) : State :=
  match s.ctx? n slot with
  | none => s
  | some c =>
    let r := s.record n slot c.ring (s.seqOf c) c.ttag w
    let began : Nat := match c.stop with | some x => if x.frame.isNone then x.since else s.now | none => s.now
    let fresh (dropped : Nat) (frame : Option Nat) : State :=
      let x : Stop := ⟨BitVec.ofNat 8 w.cls, lane, dropped, [r], began, frame⟩
      let c := { c with stop := some x, status := .blocked, since := s.now, save := none }
      match frame with
      | some _ => s.setCtx n slot c
      | none => (s.setCtx n slot { c with queue := [] }).cancelAll c.uid
    match c.stop with
    | none => fresh 0 (if w.late then none else s.handlerFrame c w.cls)
    | some x =>
      let old := stopRank x.cls.toNat
      let more (k : Nat) : State := s.setCtx n slot { c with stop := some { x with dropped := x.dropped + k } }
      if stopRank w.cls < old then fresh (x.dropped + x.recs.length) none
      else if old < stopRank w.cls then more 1
      else
        match x.lane, lane with
        | some e, some e' =>
          if e = e' then s.setCtx n slot { c with stop := some { x with recs := x.recs ++ [r] } }
          else if e' < e then fresh (x.dropped + x.recs.length) none
          else more 1
        | _, _ => more 1

/-- The order in which READY contexts are served: by the generator's cycle in which they became so, then by number (R202). -/
def Ctx.turn (p : Nat × Ctx) : Nat := p.2.readyAt * 8 + p.1

/-- A context of cluster n becomes READY in this cycle (R122, R202). -/
def State.setReady (s : State) (n slot : Nat) (c : Ctx) : State :=
  s.setCtx n slot { c with status := .ready, since := s.now, readyAt := (s.cluster n).gcycle }

/-- The other half: a stopped or saved context takes its place in a slot again, READY, at the program counter it was saved
with (R376, R378). Its monitor is lost, and it waits for nothing but what its next instruction finds. Every vote that was saved can be read
(R192, R375), also where the cluster's entries are partly taken by others. (DESIGN CHOICE, log 80) -/
def State.resumeCtx (s : State) (n slot : Nat) (c : Ctx) : State :=
  let monitor : Monitor := match c.monitor with | .none => .none | _ => .lost
  let votes := c.votes.map (fun v => { v with needs := [], reserved := true, readable := true })
  s.setReady n slot { c with formed := s.now, stop := none, save := none, wait := .none, bubble := false, monitor := monitor, votes := votes }

/-! ### Code (R130, R131, R144) -/

/-- The module of a code address, and the offset in it. -/
def pcModule (pc : W64) : Nat := slice pc 43 32
def pcOffset (pc : W64) : Nat := slice pc 31 0

/-- Step 1 of R144: `origin` is the module that the program counter was reached from. -/
def State.pcOk (s : State) (pc : W64) (origin : BitVec 12) : Bool :=
  slice pc 63 44 = 0 && slice pc 1 0 = 0 &&
    match s.module? (pcModule pc) with
    | none => false
    | some m => (m.st = .live || (m.st = .draining && origin.toNat = pcModule pc)) && decide (pcOffset pc < m.size)

/-- A word of a module's code as a fetch finds it: what memory holds, or, where the host has written it while the module was in use, any
value that it has held (R131). (DESIGN CHOICE, log 62) -/
def State.codeHeld (s : State) (m : Nat) (y : Module) (w : Nat) : W32 :=
  let held := BitVec.ofNat 32 (s.homeRead (y.pa + 4 * w) 4) ::
    (s.codeWas.filter (fun p => p.1 = m && p.2.1 = w)).map (fun p => p.2.2)
  held.getD (Config.codePick s.now s.focus.cl (s.cluster s.focus.cl).cycle.toNat m w % held.length) 0

/-- Code bytes, by physical address through the module table, zero past the module's end. (DESIGN CHOICE, log 62) -/
def State.codeBytes (s : State) (pc : W64) (n : Nat) : List Byte :=
  match s.module? (pcModule pc) with
  | none => List.replicate n 0
  | some m => (List.range n).map (fun i =>
      if pcOffset pc + i < m.size then
        match s.codeWas with
        | [] => BitVec.ofNat 8 (s.homeRead (m.pa + pcOffset pc + i) 1)
        | _ :: _ => BitVec.ofNat 8 ((s.codeHeld (pcModule pc) m ((pcOffset pc + i) / 4)).toNat / 2 ^ (8 * ((pcOffset pc + i) % 4)))
      else 0)

/-- Word 0 of the instruction at a program counter. -/
def State.codeWord (s : State) (pc : W64) : W32 := BitVec.ofNat 32 (ofBytes (s.codeBytes pc 4))

/-! ### What a generator instruction does (R144, R149 to R151, R169) -/

/-- How a generator instruction ends: it retires with its effect made, it ends its context, it retires and goes on at a code
address, it blocks, or it traps. -/
inductive Gen where
  | retire (s : State)
  /-- TASKEND: the context is gone with its retirement (R171). -/
  | gone (s : State)
  | jump (s : State) (pc : W64)
  | block (s : State) (w : Wait)
  | trap (s : State) (w : Why)

/-- Bytes of an instruction with its payload. -/
def instrBytes (i : Instr) : Nat :=
  let ws := encode i
  4 * ws.length + 8 * payloadOf (ws.headD 0)

/-- A number as a signed 32-bit count holds it (R204). -/
def signed32 (x : Int) : Int := signed 32 (wrap 32 x)

/-- Charge a slice's cost to the toll (R204). Slices are numbered in RATIO's order. -/
def State.charge (s : State) (n sl times : Nat) : State :=
  let c := s.cluster n
  s.setCluster n { c with toll := signed32 (c.toll - ((slice c.costOn (8 * sl + 7) (8 * sl) * times : Nat) : Int)) }

/-- An instruction retires (R169): the count rises, or a YIELD sets it to 0, and the program counter moves; `bubble` where a branch
was taken (R205). -/
def State.retireAt (s : State) (n slot : Nat) (yields bubble : Bool) (pc : W64) : State :=
  match s.ctx? n slot with
  | none => s
  | some c =>
    let c := { c with pc := pc, bubble := bubble, count := if yields then 0 else c.count + 1, retired := c.retired + 1, wait := .none,
                      counts := countUp c.counts cIssued 1 }
    let s := s.setCtx n slot c
    let s := s.charge n 0 1
    s.setCluster n { s.cluster n with issued := true }

/-- A context blocks (R122), and its generator's cycle counts as EMITQ where the emission queue is full, else as DEPEND (R205).
(DEDUCED, log 14; DEDUCED, log 41) -/
def State.blockCtx (s : State) (n slot : Nat) (w : Wait) : State :=
  let s := s.modCtx n slot (fun c => { c with status := .blocked, since := s.now, wait := w })
  s.setCluster n { s.cluster n with category := some (slot, if w = .queueRoom then cEmitq else cDepend) }

/-- How a named g register stands: free, the target of something unfinished, or of an access or a command that met lasting
uncorrectable data (R151, R271, R304). -/
inductive RegState where
  | free
  | busy
  | bad (ecode : Nat) (addr : W72) (clk : BitVec 48)
  deriving DecidableEq, Repr

def RegState.isBad : RegState → Bool
  | .bad _ _ _ => true
  | _ => false

def State.regState (s : State) (c : Ctx) (g : BitVec 6) : RegState :=
  match tget c.gt g.toNat with
  | none => .free
  | some (.access id) =>
    match s.accs.find? (fun a => a.id = id) with
    | none => .free
    | some a => if a.bad then .bad 0 (match a.parts.head? with | some p => p.va | none => 0) a.clk else .busy
  | some (.slot f) =>
    let x := c.slot f
    if x.state = .pending then .busy
    else if x.uncorr then .bad 8 x.addr x.clk
    else .free

/-- Slots of a context whose command read lasting uncorrectable data, unreported (R304). -/
def Ctx.uncorrSlot (c : Ctx) (m : W64) : Option Slot :=
  ((c.slots.filter (fun p => p.2.uncorr && m.toNat.testBit p.1)).head?).map (fun p => p.2)

/-- The record of lasting uncorrectable data at a generator instruction. -/
def whyUncorr (pc : W64) (ecode : Nat) (addr : W72) (clk : BitVec 48) : Why :=
  { cls := 0x30, ecode := ecode, retried := true, where_ := pc, addr := addr, clk := some clk }

/-- The record of a precise generator trap of a class: WHERE is the instruction's address, DETAIL its word 0 (R365). -/
def whyGen (c : Ctx) (i : Instr) (cls reason : Nat) : Why :=
  { cls := cls, reason := reason, where_ := c.pc, detail := ((encode i).headD 0).setWidth 64 }

def isYield : Instr → Bool
  | .yield _ => true
  | _ => false

/-- The context that a meaning sees: the registers that its instruction writes are targets no more. -/
def Ctx.opened (c : Ctx) (writes : List (BitVec 6)) : Ctx := { c with gt := c.gt.filter (fun p => !(writes.any (fun g => g.toNat = p.1))) }

/-- How a meaning ends the run of instruction i, which began in state s with context c. -/
def Gen.outcome (s : State) (i : Instr) (n slot : Nat) (c : Ctx) : Gen → Host.Outcome State Fault Refusal
  | .retire t => .next (t.retireAt n slot (isYield i) false (c.pc + BitVec.ofNat 64 (instrBytes i)))
  | .jump t pc =>
    if s.pcOk pc (BitVec.ofNat 12 (pcModule c.pc)) then .next (t.retireAt n slot false (pc ≠ c.pc + BitVec.ofNat 64 (instrBytes i)) pc)
    else .next (s.stopCtx n slot none (whyGen c i 0x02 0))
  | .gone t => .next (let t := t.charge n 0 1
      t.setCluster n { t.cluster n with issued := true })
  | .block t w => .next (t.blockCtx n slot w)
  | .trap t w => .next (t.stopCtx n slot none w)

/-- Run one generator instruction of the context in focus. First the watchdog, in whose place nothing executes (R169); then the
registers it names (R151, R271, R304); then the instruction's own meaning. A slot of the machine that holds no context does
nothing. (DEDUCED, log 14) -/
def State.generator (s : State) (i : Instr) (reads writes : List (BitVec 6)) (body : Nat → Nat → Ctx → Gen) :
    Host.Outcome State Fault Refusal :=
  let n := s.focus.cl
  let slot := s.focus.slot
  match s.ctx? n slot with
  | none => .next s
  | some c =>
    if c.count = c.deadline && !isYield i then
      .next (s.stopCtx n slot none { cls := 0x10, where_ := c.pc, detail := BitVec.ofNat 64 c.deadline })
    else
      match reads.find? (fun g => (s.regState c g).isBad) with
      | some g =>
        match s.regState c g with
        | .bad e a k => .next (s.stopCtx n slot none (whyUncorr c.pc e a k))
        | _ => .next s
      | none =>
        let busy := (reads ++ writes).filter (fun g => s.regState c g = .busy)
        if busy ≠ [] then .next (s.blockCtx n slot (.regs busy))
        else (body n slot (c.opened writes)).outcome s i n slot (c.opened writes)

end Sys2Proof.Machine
end

