-- ==== Sys2Proof/Machine/Accesses.lean ====
section
/-! DEFINITION. Accesses: the order in which they are performed, and performing them (R281 to R294, R255, R271, R274 to R280). -/

namespace Sys2Proof.Machine

/-! ### Scratchpads as addresses (R248, R250)

A scratchpad byte is named by an address above every physical one: its core and its offset. -/

def spBase : Nat := 2 ^ 60
def spAddr (core off : Nat) : Nat := spBase + core * 2 ^ 20 + off
def spCore (a : Nat) : Nat := (a - spBase) / 2 ^ 20
def spOff (a : Nat) : Nat := a % 2 ^ 20
def isSp (a : Nat) : Bool := decide (spBase ≤ a)

/-- A scratchpad byte; one that nothing has written since the bay was lent is a free value (R46). (DESIGN CHOICE, log 7) -/
def Core.spByte (c : Core) (off : Nat) : Byte := tgetD c.sp off (Config.poolByte (c.epoch * 2 ^ 18 + off))
def Core.spRead (c : Core) (off n : Nat) : Nat := ofBytes ((List.range n).map (fun i => c.spByte (off + i)))
def Core.spWrite (c : Core) (off n x : Nat) : Core := { c with sp := tputs c.sp off (toBytes n x) }

def State.spRead (s : State) (a n : Nat) : Nat :=
  match tget s.cores (spCore a) with
  | some c => c.spRead (spOff a) n
  | none => 0
def State.spWrite (s : State) (a n x : Nat) : State :=
  match tget s.cores (spCore a) with
  | some c => { s with cores := tput s.cores (spCore a) (c.spWrite (spOff a) n x) }
  | none => s

/-! ### Elements -/

def bayOf : Agent → Option Nat
  | .core k => some (k / 8)
  | .matrix b => some b
  | _ => none

def State.readElem (s : State) (n : Nat) (ag : Agent) (sc : Scope) (pa size : Nat) (h : Hint) : Nat × State :=
  if isSp pa then (s.spRead pa size, s) else s.readAt n (bayOf ag) sc pa size h
def State.writeElem (s : State) (n : Nat) (ag : Agent) (sc : Scope) (pa size x : Nat) (h : Hint) : State :=
  if isSp pa then s.spWrite pa size x else s.writeAt n (bayOf ag) sc pa size x h

/-! ### Order (R283 to R288, R294) -/

def Key.lt (a b : Key) : Bool :=
  if a.op ≠ b.op then decide (a.op < b.op) else if a.cls ≠ b.cls then decide (a.cls < b.cls) else decide (a.n < b.n)

def scopeRank : Scope → Nat
  | .lane => 0
  | .core => 1
  | .bay => 2
  | .cluster => 3
  | .die => 4
  | .device => 5
  | .system => 6

def scopeNarrower (a b : Scope) : Bool := decide (scopeRank a < scopeRank b)

/-- Whether an agent lies in the domain of another at a scope (R283). (DEDUCED, log 22) -/
def inDomain (y : Agent) (sc : Scope) (x : Agent) : Bool :=
  match sc with
  | .lane => x = y
  | .core => x = y
  | .bay => match bayOf y with
    | some b => bayOf x = some b
    | none => x = y
  | _ => true

/-- Whether a lane word is a memory access that counts in a stream, or an MMA word whose reads do; and its stream (R146, R278,
R317, R320). -/
def laneStream (w : W64) : Option (BitVec 3) :=
  let op := slice w 9 0
  if (0x200 ≤ op ∧ op ≤ 0x20D ∧ op ≠ 0x20A) ∨ op = 0x240 then some (BitVec.ofNat 3 (slice w 46 44)) else none

def Part.loose (p : Part) : Bool := !isSp p.pa && p.ord = 2
def Part.strong (p : Part) : Bool := !isSp p.pa && p.ord = 0
def Part.overlaps (p q : Part) : Bool := decide (p.pa < q.pa + q.size ∧ q.pa < p.pa + p.size)
/-- A read-modify-write, which is performed at its home whatever its scope (R281). -/
def AccOp.atHome : AccOp → Bool
  | .atom _ => true
  | .fadd => true
  | .fmin => true
  | .fmax => true
  | .cas => true
  | _ => false

/-- Whether a part is performed beyond its compute die: at a scope wider than a bay, or by an atomic, or at a home that no cache holds
(R255, R281, R294). -/
def Part.away (p : Part) (op : AccOp) (sc : Scope) : Bool :=
  !isSp p.pa && (!narrowScope (effScope p.pa sc) || op.atHome || !(homeOf p.pa).cached)

def Access.away (a : Access) : Bool := a.parts.any (fun p => p.away a.op a.scope)

/-- What an access has still to do keeps no successor waiting: each part is to a LOOSE page, or has been performed, and acknowledged
where it and the successor leave their die (R283, R288, R289, R294). -/
def Access.settled (a : Access) (away : Bool) : Bool :=
  a.parts.all (fun p => p.loose || (p.done && (!away || !p.away a.op a.scope || p.acked)))

/-- The bytes that an instruction acts on at its home, as one part, for the orders of R287 and R288. -/
def placePart (pa size : Nat) (ord : BitVec 2) : Part :=
  { lane := 0, reg := 0, elem := 0, va := 0, pa := pa, size := size, ord := ord, hint := .normal, data := 0, cmp := 0, done := false,
    acked := false, lost := false }

/-- Every predecessor that a mask names at a scope has been performed, and acknowledged where the successor leaves its die
(R283, R284, R294). A memory word that a core holds unstarted is a predecessor too; one that has failed is never performed (R295), and a command of LOOSE pages
alone keeps nothing waiting (R288). (DEDUCED, log 22) -/
def State.predsDone (s : State) (n slot uid : Nat) (ag : Agent) (key : Key) (pm : BitVec 8) (sc : Scope) (away : Bool) : Bool :=
  pm = 0 ||
  (s.accs.all (fun a => !(a.uid = uid && a.key.lt key && bit pm a.stream.toNat && inDomain ag sc a.agent) || a.settled away)
  && (s.liveCores n slot).all (fun p => !inDomain ag sc (.core p.1) || p.2.buf.all (fun w =>
      match laneStream w.w with
      | some st => !(bit pm st.toNat && Key.lt ⟨w.op, 0, w.e⟩ key)
      | none => true))
  && s.cmds.all (fun c => c.loose || !(c.uid = uid && c.key.lt key && bit pm c.x.ann.os.toNat && inDomain ag sc .engine))
  && s.mmas.all (fun m => !(m.uid = uid && Key.lt ⟨m.op, 0, m.e⟩ key && bit pm m.os.toNat && inDomain ag sc (.matrix m.bay))))

/-- The orders that hold without a mask: earlier accesses of the same agent for the same context to the same byte, and to STRONG
pages (R287, R288). -/
def State.ownOrder (s : State) (uid : Nat) (ag : Agent) (key : Key) (p : Part) : Bool :=
  s.accs.all (fun x => !(x.uid = uid && x.agent = ag && x.key.lt key) ||
    x.parts.all (fun q => q.done || !(q.overlaps p || (q.strong && p.strong))))

/-- The parts that a choice names and that are still to be performed, by their places; an empty choice names all. -/
def Access.todo (a : Access) (which : List Nat) : List (Nat × Part) :=
  (a.parts.zipIdx.map (fun p => (p.2, p.1))).filter (fun p => !p.2.done && !p.2.lost && (which.isEmpty || which.contains p.1))

/-- Within one access, an element of a byte follows those before it to that byte, and in a lane one in a STRONG page those before it in
STRONG pages (R274, R289). -/
def Access.inner (a : Access) (chosen : List Nat) (i : Nat) (p : Part) : Bool :=
  a.parts.zipIdx.all (fun q => decide (i ≤ q.2) || q.1.done || q.1.lost || chosen.contains q.2 ||
    !(q.1.overlaps p || (q.1.lane = p.lane && q.1.strong && p.strong)))

/-- A part may be performed now: at its scope, in the order that its page and its access's mask ask for. -/
def State.canPart (s : State) (a : Access) (chosen : List Nat) (i : Nat) (p : Part) : Bool :=
  s.predsDone a.cl a.slot a.uid a.agent a.key a.pm (effScope p.pa a.scope) (p.away a.op a.scope)
    && s.ownOrder a.uid a.agent a.key p && a.inner chosen i p

/-- Every part of a choice may be performed, and there is one. -/
def State.canPerform (s : State) (a : Access) (which : List Nat) : Bool :=
  let ps := a.todo which
  !a.done && !a.bad && !ps.isEmpty && ps.all (fun p => s.canPart a (ps.map Prod.fst) p.1 p.2)

/-- Carry performed stores to a wider scope. -/
def State.carryThose (s : State) (mine : Narrow → Bool) (sc : Scope) : State :=
  let go (s : State) (r : Narrow) : State :=
    let s := match bayOf r.agent with
      | some b => if narrowScope sc then s else s.bayClean r.cl b r.line
      | none => s
    if sc = .system then s.l2Clean r.line else s
  let s := (s.narrow.filter mine).foldl go s
  { s with narrow := (s.narrow.map (fun r => if mine r then { r with scope := sc } else r)).filter (fun r => r.scope ≠ .system) }

/-- A store is an earlier narrow one of the named streams of a context, which goes to a wider scope (R283), but none to a LOOSE page
(R288). -/
def Narrow.named (uid : Nat) (ag : Agent) (key : Key) (pm : BitVec 8) (sc : Scope) (r : Narrow) : Bool :=
  r.uid = uid && r.key.lt key && bit pm r.stream.toNat && inDomain ag sc r.agent && scopeNarrower r.scope sc && r.ord ≠ 2

/-- A store is an agent's earlier narrow one to a STRONG page, which goes to the scope of its next access to one (R288). -/
def Narrow.strong (uid : Nat) (ag : Agent) (key : Key) (sc : Scope) (r : Narrow) : Bool :=
  r.uid = uid && r.agent = ag && r.key.lt key && scopeNarrower r.scope sc && r.ord = 0

/-- Carry a context's earlier narrow stores of the named streams to a wider scope (R283). -/
def State.carry (s : State) (uid : Nat) (ag : Agent) (key : Key) (pm : BitVec 8) (sc : Scope) : State :=
  s.carryThose (Narrow.named uid ag key pm sc) sc

/-- Carry an agent's earlier narrow stores to STRONG pages to the scope of its next access to one (R288). -/
def State.carryStrong (s : State) (uid : Nat) (ag : Agent) (key : Key) (sc : Scope) : State := s.carryThose (Narrow.strong uid ag key sc) sc

/-- What is carried outward before an access or an effect at a place. -/
def State.carryFor (s : State) (uid : Nat) (ag : Agent) (key : Key) (pm : BitVec 8) (sc : Scope) (p : Part) : State :=
  let s := s.carry uid ag key pm (effScope p.pa sc)
  if p.strong then s.carryStrong uid ag key (effScope p.pa sc) else s

/-- A store still stands in a line cache or a slice. -/
def State.unwritten (s : State) (r : Narrow) : Bool :=
  s.l2Dirty r.line || (match bayOf r.agent with
    | some b => (match s.bayLine r.cl b r.line with | some l => l.dirty ≠ 0 | none => false)
    | none => false)

/-- A store that has to be carried to host memory, and cannot be while the link is down: the address of its line. What it is carried for
fails with it (R295, R408). (DEDUCED, log 33) -/
def State.cutCarry (s : State) (uid : Nat) (ag : Agent) (key : Key) (pm : BitVec 8) (sc : Scope) (strong : Bool) : Option Nat :=
  if sc ≠ .system then none
  else ((s.narrow.filter (fun r => r.named uid ag key pm sc || (strong && r.strong uid ag key sc))).find? (fun r =>
    !s.linkOpen (128 * r.line) && s.unwritten r)).map (fun r => 128 * r.line)

/-! ### State words (R334, R338) -/

/-- Word 0 and word 1 of a state word. -/
structure SWPair where
  w0 : W64
  w1 : W64
  deriving DecidableEq, Repr

def SWPair.st (w : SWPair) : Nat := slice w.w0 1 0
def SWPair.over_ (w : SWPair) : Bool := decide (2 ≤ w.st)

def State.readSW (s : State) (pa : Nat) : SWPair := ⟨BitVec.ofNat 64 (s.homeRead pa 8), BitVec.ofNat 64 (s.homeRead (pa + 8) 8)⟩

/-- How a slot that joins on a word leaves PENDING (R338). -/
def SWPair.joined (w : SWPair) : SlotWork :=
  if w.st = 3 then .joined .cancelled 0 w.w1
  else if bit w.w0 2 then .joined .error (BitVec.ofNat 8 (slice w.w0 63 56)) w.w1
  else .joined .ok 0 w.w1

/-- An atomic has left a state word over: every slot that joins on it has its answer (R338). -/
def State.joins (s : State) (pa : Nat) (w : SWPair) : State :=
  if !w.over_ then s
  else
    let one (x : Slot) : Slot := match x.work with
      | .join _ p => if p = pa then { x with work := w.joined } else x
      | _ => x
    { s with ctxs := s.ctxs.map (fun p => (p.1, { p.2 with slots := p.2.slots.map (fun q => (q.1, one q.2)) })) }

/-- An atomic operation has written bytes at an address: the state word there, if one is joined on, may be over (R338). -/
def State.joinsAt (s : State) (pa : Nat) : State := s.joins (pa / 16 * 16) (s.readSW (pa / 16 * 16))

/-! ### Values (R149, R269, R275) -/

/-- What a generator load writes into its register (R269). -/
def extend (t : MTy) (x : Nat) : W72 :=
  match t with
  | .i64 => (BitVec.ofNat 64 x).signExtend 72
  | .n64 => BitVec.ofNat 72 (x % 2 ^ 64)
  | .i32 => (BitVec.ofNat 32 x).signExtend 72
  | .n32 => BitVec.ofNat 72 (x % 2 ^ 32)
  | .a72 => BitVec.ofNat 72 x
  | .i16 => (BitVec.ofNat 16 x).signExtend 72
  | .n16 => BitVec.ofNat 72 (x % 2 ^ 16)
  | .i8 => (BitVec.ofNat 8 x).signExtend 72
  | .n8 => BitVec.ofNat 72 (x % 2 ^ 8)

def gatomFn (op : GAtom) (w : Nat) (c old : Nat) : Nat :=
  match op with
  | .add => (old + c) % 2 ^ w
  | .smin => if signed w old ≤ signed w c then old else c
  | .nmin => min old c
  | .smax => if signed w old ≤ signed w c then c else old
  | .nmax => max old c
  | .and => old &&& c
  | .or => old ||| c
  | .xor => old ^^^ c

/-- FP32 addition and the lesser and greater, as the memory units make them (R235, R236, R275). -/
def fp32Add (x y : Nat) : Nat := round ((valueOf .fp32 x).add .rne (valueOf .fp32 y)) .fp32 .rne false
def fp32Least (g : Bool) (x y : Nat) : Nat := round (Exact.least g (valueOf .fp32 x) (valueOf .fp32 y)) .fp32 .rne false

/-- The new value that a read-modify-write gives a byte group. -/
def Access.newValue (op : AccOp) (p : Part) (old : Nat) : Nat :=
  let c := p.data.toNat % 2 ^ (8 * p.size)
  match op with
  | .atom g => gatomFn g (8 * p.size) c old
  | .fadd => fp32Add old c
  | .fmin => fp32Least false old c
  | .fmax => fp32Least true old c
  | .cas => if old = p.cmp.toNat % 2 ^ (8 * p.size) then c else old
  | _ => old

/-! ### Performing -/

/-- Write one lane of a varying register, or of an even pair for a 64-bit value (R56). -/
def Core.setLane (c : Core) (reg lane : Nat) (wide : Bool) (x : W64) : Core :=
  let v := tput c.v (16 * reg + lane) (x.setWidth 32)
  { c with v := if wide then tput v (16 * (reg + 1) + lane) (BitVec.ofNat 32 (x.toNat / 2 ^ 32)) else v }

/-- Fill one lane of a latch that waits for an access's element (R201). -/
def Core.fillLatch (c : Core) (id elem lane : Nat) (x : W64) : Core :=
  { c with latch := c.latch.map (fun l => if l.src = some (id, elem) then { l with lanes := tput l.lanes lane x } else l) }

/-- Deliver a loaded or old value to its destination. -/
def State.deliver (s : State) (a : Access) (p : Part) (x : Nat) : State :=
  match a.dest with
  | .none => s
  | .gen t d => s.modCtx a.cl a.slot (fun c =>
      if c.uid = a.uid && tget c.gt d.toNat = some (.access a.id) then
        { c.setG d (extend t x) with gt := tdel c.gt d.toNat }
      else c)
  | .lanes f nwb =>
    match a.agent with
    | .core k => s.modCore a.cl k (fun c =>
        let y := BitVec.ofNat 64 x
        let c := if nwb then c else c.setLane p.reg p.lane (f = .i64 || f = .n64) y
        c.fillLatch a.id p.elem p.lane y)
    | _ => s

/-- A store below system scope is kept, to be carried further. -/
def State.keepNarrow (s : State) (a : Access) (p : Part) : State :=
  if isSp p.pa || effScope p.pa a.scope = .system then s
  else { s with narrow := ⟨a.uid, a.cl, a.agent, a.stream, a.key, a.scope, lineOf p.pa, p.ord⟩ :: s.narrow }

/-- Perform one part at its storage: the value that it binds, and the state after it. -/
def State.performPart (s : State) (a : Access) (p : Part) : Nat × State :=
  match a.op with
  | .load =>
    let (x, s) := s.readElem a.cl a.agent a.scope p.pa p.size p.hint
    (x, if a.agent = .gen then s.uniTouch a.cl p.pa else s)
  | .store =>
    let s := (s.writeElem a.cl a.agent a.scope p.pa p.size p.data.toNat p.hint).keepNarrow a p
    (p.data.toNat, if a.agent = .gen then s.uniWrite a.cl p.pa else s)
  | .ldcp => s.readElem a.cl a.agent a.scope p.pa p.size p.hint
  | .stcp => (0, (s.writeElem a.cl a.agent a.scope p.pa p.size (s.spRead p.reg p.size) p.hint).keepNarrow a p)
  | .work => (0, s)
  | op =>
    if isSp p.pa then
      let old := s.spRead p.pa p.size
      (old, s.spWrite p.pa p.size (Access.newValue op p old))
    else
      let s := match bayOf a.agent with | some b => s.bayClean a.cl b (lineOf p.pa) | none => s
      let (old, s) := s.atomicAt a.scope p.pa p.size p.hint (Access.newValue op p)
      let s := match bayOf a.agent with | some b => s.bayRefresh a.cl b (lineOf p.pa) | none => s
      let s := if a.agent = .gen then s.uniWrite a.cl p.pa else s
      (old, s.joinsAt p.pa)

/-- What becomes of a value that a part has bound, once its whole word has been performed. -/
def State.settle (s : State) (a : Access) (p : Part) : State :=
  match a.op with
  | .ldcp => s.spWrite p.reg p.size p.data.toNat
  | .store => s
  | .stcp => s
  | .work => s
  | _ => s.deliver a p p.data.toNat

def State.modAcc (s : State) (id : Nat) (f : Access → Access) : State :=
  { s with accs := s.accs.map (fun a => if a.id = id then f a else a) }

/-- Change the part at place i of an access. -/
def Access.modPart (a : Access) (i : Nat) (f : Part → Part) : Access :=
  { a with parts := a.parts.zipIdx.map (fun p => if p.2 = i then f p.1 else p.1) }

/-- The latches that wait for an access have been filled. -/
def State.latchesFull (s : State) (a : Access) : State :=
  match a.agent with
  | .core k => s.modCore a.cl k (fun c =>
      { c with latch := c.latch.map (fun l => match l.src with
          | some (id, _) => if id = a.id then { l with src := none } else l
          | none => l) })
  | _ => s

/-- The record of an access that met lasting uncorrectable data or a failed link: by core and lanes for a lane word, by code
address for the generator (R280, R295, R365). (DEDUCED, log 33) -/
def State.whyAccess (s : State) (a : Access) (cls : Nat) (lost : List Part) : Why :=
  let addr : W72 := match minBy (fun p : Part => p.lane) lost with | some p => p.va | none => 0
  match a.agent with
  | .core k =>
    { cls := cls, retried := true, where_ := a.where_, addr := addr, j := (s.core? a.cl k).map (fun c => c.j), clk := some a.clk,
      kinds := if cls = 0x30 then BitVec.ofNat 64 ((lost.map (fun p => p.lane)).eraseDups.foldl (fun x l => x + 2 ^ (4 * l)) 0) else 0 }
  | _ => { cls := cls, retried := true, where_ := a.where_, addr := addr, clk := some a.clk }

def Access.laneNo (a : Access) : Option Nat :=
  match a.agent with
  | .core _ => some a.where_.toNat
  | _ => none

/-- A core has failed: it starts no later word (R367). -/
def State.failCore (s : State) (n k : Nat) : State := s.modCore n k (fun c => { c with failed := true })

/-- The record of an access that a later finding fails as a translation would have: kinds by lane for a lane word, the kind alone for the
generator, whose instruction has retired (R280, R411). (DEDUCED, log 33) -/
def State.whyLate (s : State) (a : Access) (kind : Nat) (lost : List Part) : Why :=
  let w := { s.whyAccess a 0x24 lost with retried := false, detail := a.word, clk := none }
  match a.agent with
  | .core _ => { w with kinds := BitVec.ofNat 64 ((lost.map (fun p => p.lane)).eraseDups.foldl (fun x l => x + kind * 2 ^ (4 * l)) 0) }
  | _ => { w with cls := 0x03, xkind := kind, late := true }

/-- An access has failed: what waits for it never goes on, its latches are free, and its context stops (R280, R295). It is kept,
and its registers are not written. -/
def State.failAccess (s : State) (a : Access) (w : Why) : State :=
  let s := (s.latchesFull a).modAcc a.id (fun x => { x with bad := true, clk := a.clk })
  let s := match a.agent with | .core k => s.failCore a.cl k | _ => s
  s.stopCtx a.cl a.slot a.laneNo w

/-- A generator's register is no longer the target of an access. -/
def State.freeTarget (s : State) (a : Access) : State :=
  match a.dest with
  | .gen _ d => s.modCtx a.cl a.slot (fun c => { c with gt := tdel c.gt d.toNat })
  | _ => s

/-- A failed link held an access: nothing more of it is performed, and it faults with class LINK (R295). -/
def State.cutAccess (s : State) (a : Access) : State :=
  (s.freeTarget a).failAccess a (s.whyAccess a 0x31 (a.parts.filter (fun p => !p.done)))

/-- The peer of an access has ceased to be valid: nothing more of it is performed, and it fails with NOPHYS (R411). (DEDUCED, log 33) -/
def State.losePeer (s : State) (a : Access) : State :=
  (s.freeTarget a).failAccess a (s.whyLate a 4 (a.parts.filter (fun p => !p.done && !s.peerOk p.pa)))

/-- The last part of an access has been performed or lost: what its parts have bound goes to its registers and its latches, and what
needs no acknowledgement has ended. With a part lost, a load writes no lane, and the context stops; or for a generator's load or
atomic the first reader of its register does (R271, R280). A lost part is never performed, and what follows it never goes on (R283,
R295). (DEDUCED, log 33) -/
def State.finishAccess (s : State) (id : Nat) : State :=
  match s.accs.find? (fun a => a.id = id) with
  | none => s
  | some a =>
    let lost := a.parts.filter (fun p => p.lost)
    if !a.parts.all (fun p => p.done || p.lost) then s
    else if lost.isEmpty then
      let s := (a.parts.foldl (fun s p => s.settle a p) s).latchesFull a
      if a.parts.all (fun p => p.acked) then { s with accs := s.accs.filter (fun x => x.id != id) } else s.modAcc id (fun x => { x with done := true })
    else
      match a.dest, a.op with
      | .gen _ _, _ => s.modAcc id (fun x => { x with bad := true })
      | _, .load => s.failAccess a (s.whyAccess a 0x30 a.parts)
      | _, .ldcp => s.failAccess a (s.whyAccess a 0x30 a.parts)
      | _, _ =>
        let s := if a.parts.all (fun p => p.lost) then s
          else (a.parts.filter (fun p => !p.lost && !lost.any (fun q => q.lane = p.lane))).foldl (fun s p => s.settle a p) s
        s.failAccess a (s.whyAccess a 0x30 lost)

/-- Perform part i of an access (R281), unless its data is bad: then nothing of its lane is performed any more (R280). -/
def State.performOne (s : State) (id i : Nat) : State :=
  match s.accs.find? (fun a => a.id = id) with
  | none => s
  | some a =>
    match a.parts[i]? with
    | none => s
    | some p =>
      if p.done || p.lost then s
      else if !isSp p.pa && s.badAt p.pa p.size then
        s.modAcc id (fun x => { x with parts := x.parts.map (fun q => if q.lane = p.lane && !q.done then { q with lost := true } else q) })
      else
        let (x, s) := s.performPart a p
        s.modAcc id (fun y => y.modPart i (fun q => { q with done := true, acked := !p.away a.op a.scope, data := BitVec.ofNat 128 x }))

/-- The lanes of which some element shares a granule with bad data: none of their elements is performed (R280). -/
def State.badLanes (s : State) (a : Access) : List Nat :=
  (a.parts.filter (fun p => !isSp p.pa && !p.done && s.badAt p.pa p.size)).map (fun p => p.lane)

/-- A part of an access has its bytes in its bay's line cache. -/
def State.inBay (s : State) (a : Access) (p : Part) : Bool :=
  match bayOf a.agent with
  | some b => narrowScope a.scope && (s.bayLine a.cl b (lineOf p.pa)).isSome
  | none => false

/-- The cluster whose pool the parts of a choice that lie in scratchpads are in (R250, R424). -/
def poolOf (cl : Nat) : List Part → Nat
  | p :: _ => if isSp p.pa then spCore p.pa / 128 else cl
  | [] => cl

/-- Perform parts of an access (R281), at the answer of the storage of the first of them that lies in memory: in a bay's line cache or
a core's pool an error is that cluster's own (R424). A failed link faults the access, of which nothing more is performed (R295), and so
does one to what must be carried before it (R408); a peer that is valid no longer fails it with NOPHYS (R411). A request and its answer
pass between the dies where the place is far (R296). (DEDUCED, log 33; DEDUCED, log 28) -/
def State.perform (s : State) (id : Nat) (which : List Nat) (o : Attempt) : State :=
  match s.accs.find? (fun a => a.id = id) with
  | none => s
  | some a =>
    if !s.canPerform a which then s
    else
      let todo := a.todo which
      let ps := todo.map Prod.snd
      let mem := ps.filter (fun p => !isSp p.pa)
      let die := dieOf a.cl
      let seq : W64 := match (s.ctx? a.cl a.slot).bind (fun c => s.launchOf c) with | some l => l.seq | none => 0
      let clk := s.lclock (some die)
      let s := s.modAcc id (fun x => { x with clk := clk })
      let a := { a with clk := clk }
      if mem.any (fun p => !s.peerOk p.pa) then s.losePeer a
      else
      let r : Attempt × State := match mem.head? with
        | none => (Attempt.ok, s.poolError o (poolOf a.cl ps) seq)
        | some p =>
          match mem.find? (fun (q : Part) => !s.linkOpen q.pa), mem.find? (fun (q : Part) => s.badAt q.pa q.size) with
          | some q, _ => (.linkFailed, s.storageError .linkFailed q.pa (some die) seq)
          | none, some q => (if o = .linkFailed then o else .lasting, s.storageError (if o = .linkFailed then o else .lasting) q.pa (some die) seq)
          | none, none =>
            if s.inBay a p && (o = .corrected || o = .transient) then (.ok, s.poolError o a.cl seq)
            else (o, s.storageError o p.pa (some die) seq)
      let o := r.1
      let s := r.2
      if o = .linkFailed then s.cutAccess a
      else
      match ps.findSome? (fun p => s.cutCarry a.uid a.agent a.key a.pm (effScope p.pa a.scope) p.strong) with
      | some pa => (s.storageError .linkFailed pa (some die) seq).cutAccess a
      | none =>
        let s := if mem.any (fun p => p.away a.op a.scope && farFrom die p.pa) then s.exchange die else s
        let s := ps.foldl (fun s p => s.carryFor a.uid a.agent a.key a.pm a.scope p) s
        let lanes := s.badLanes a
        let s := s.modAcc id (fun x => { x with parts := x.parts.map (fun q => if lanes.contains q.lane && !q.done then { q with lost := true } else q) })
        (todo.foldl (fun s p => s.performOne id p.1) s).finishAccess id

/-- An acknowledgement comes back to the issuing die (R294): what the access has performed is known there, and an access that is performed
whole has ended. One that met bad data stays, for the reader of its register to find. The answer's counter has come already, since the
stream counters fall with the performing (R286, R392). (DEDUCED, log 28) -/
def State.acknowledge (s : State) (id : Nat) : State :=
  match s.accs.find? (fun a => a.id = id) with
  | none => s
  | some a =>
    let due := a.parts.filter (fun p => p.done && !p.acked)
    if due.isEmpty || a.bad then s
    else if a.done then { s with accs := s.accs.filter (fun x => x.id != id) }
    else s.modAcc id (fun x => { x with parts := x.parts.map (fun p => if p.done then { p with acked := true } else p) })

/-- Start an access: it counts in its stream until it is performed (R286). One with no part is performed at once. -/
def State.startAccess (s : State) (a : Nat → Access) : State :=
  let x := a s.nextId
  let s := { s with nextId := s.nextId + 1 }
  if x.parts.isEmpty then s.latchesFull x else { s with accs := s.accs ++ [x] }

end Sys2Proof.Machine
end

