-- ==== Sys2Proof/Machine/Sync.lean ====
section
/-! DEFINITION. State words, pushes from the device, faulted launches, and flights (R334 to R352, R369, R386). -/

namespace Sys2Proof.Machine

/-! ### Completions (R386) and faulted launches (R369) -/

/-- The completion that a context owes at its end: its held weight or its credit (R342). -/
def Ctx.post (c : Ctx) (n : Nat) (flagged : Bool) (id : Nat) : Post :=
  { id := id, launch := c.launch, ring := c.ring, die := dieOf n, mode := bargeMode c.barge, succ := bargeSucc c.barge,
    weight := c.held, credit := c.credit, flagged := flagged }

/-- Take every queued barge and frame of a launch out of its queues. -/
def Launch.emptied (l : Launch) : Launch := { l with basins := l.basins.map (fun b => { b with berths := [] }), parked := [], first := [] }

/-- Every barge that a launch has queued, frames left out. -/
def Launch.allQueued (l : Launch) : List (Nat × Queued) :=
  l.basins.flatMap (fun b => b.berths.flatMap (fun p => (p.2.filter (fun q => q.frame.isNone)).map (fun q => (p.1, q))))
    ++ ((l.parked ++ l.first).filter (fun q => q.frame.isNone)).map (fun q => (0, q))

/-- Write STATE of a frame where it stands in memory; nothing where its page no longer translates. -/
def State.markFrame (s : State) (key st : Nat) : State :=
  let space : BitVec 2 := BitVec.ofNat 2 (key / 4096)
  match s.xlateFront space (s.frameVa space (key % 4096) + 6) true with
  | .ok p => if s.linkOpen p.pa then s.homeWrite p.pa 1 st .normal else s
  | .error _ => s

/-- A frame slot becomes FREE. -/
def State.freeFrameAt (s : State) (key : Nat) : State := { s.markFrame key 0 with frames := tdel s.frames key }

/-- Fault a launch (R369): its queued barges and saved frames become flagged completions, and its contexts end, at the front die's order to
their dies (R296). -/
def State.faultLaunch (s : State) (l : Nat) : State :=
  match s.launch? l with
  | none => s
  | some x =>
    if x.faulted then s
    else
      let s := x.allQueued.foldl (fun s p => s.addPost (fun id => x.postOf id p.1 p.2.barge)) s
      let mine := s.frames.filter (fun p => p.2.launch = l)
      let s := mine.foldl (fun s p => s.addPost (p.2.ctx.post p.2.cl true)) s
      let s := mine.foldl (fun s p => s.freeFrameAt p.1) s
      let out (ch : Change) : Change := { ch with left := ch.left.filter (fun u => !mine.any (fun p => p.2.ctx.uid = u)) }
      let s := s.modLaunch l (fun x => { x.emptied with faulted := true, change := x.change.map out })
      (s.launchCtxs l).foldl (fun s p => s.stopCtx p.1 p.2.1 none { cls := 0x35 }) (s.tellDies ((s.launchCtxs l).map (fun p => dieOf p.1)))

/-- A post or a continuation push that cannot reach its memory: a POSTFAIL record, then the launch is faulted (R341, R386). Kind 0 is
an access that failed at its retry. A launch already faulted writes no further record. (DEDUCED, log 32) -/
def State.postFail (s : State) (l die : Nat) (addr : W72) (xkind : Nat) : State :=
  match s.launch? l with
  | none => s
  | some x =>
    if x.faulted then s
    else
      let r := s.record (4 * die) 0 x.ring x.seq 0 { cls := 0x36, retried := xkind = 0 || xkind = 5, addr := addr, xkind := xkind }
      ((s.logRecords x.ring l 0 false 0 [r]).1).faultLaunch l

/-! ### Barges in memory -/

/-- The eight words of the barge at an address, at device scope; or the kind that its translation fails with, 0 for bad data and for
a failed link. -/
def State.readBarge (s : State) (space : BitVec 2) (va : W72) : Except Kind (List W64) :=
  match s.xlateFront space va false with
  | .error k => .error k
  | .ok p => if !s.linkOpen p.pa || s.badAt p.pa 64 then .error 0 else .ok (toWords 8 (s.homeBytes p.pa 64))

/-- Push a continuation (R341): by a context of launch `l` on a die. A refused one posts the completion stamped in it; one in job mode
is refused where it names another job than its launch's (R105). -/
def State.pushCont (s : State) (l die : Nat) (va : W72) : State :=
  match s.launch? l with
  | none => s
  | some x =>
    match s.readBarge x.ring va with
    | .error k => s.postFail l die va k.toNat
    | .ok b =>
      let refuse : State := s.addPost (fun id => x.postOf id die b)
      if s.bargeOk x.part b && (bargeMode b ≠ 2 || bargeSucc b = x.jcb) then (s.push l b x.prio (some die)).getD refuse else refuse

/-! ### State words (R334 to R341) -/

/-- Write a state word at its home, with the hint of its page; at system scope it goes on to host memory (R265, R281, R334). -/
def State.writeSW (s : State) (sc : Scope) (pa : Nat) (h : Hint) (w : SWPair) : State :=
  s.writeAt 0 none sc pa 16 (w.w0.toNat + w.w1.toNat * 2 ^ 64) h

/-- The barge address that a state word registers (R334). (DEDUCED, log 19) -/
def SWPair.cont (w : SWPair) (va : W72) : W72 := putBits (putBits va 53 6 (slice w.w0 55 8)) 5 0 0

/-- One resolution (R336): the word after it, and whether it pushes the continuation; none where the word is over. A PENDING word with
NEED 0, which a plain store can leave, counts on below 0 in its three bits. (DEDUCED, log 32) -/
def SWPair.resolve (w : SWPair) (val : W64) (err : Bool) (code : BitVec 8) (cancel : Bool) : Option (SWPair × Bool) :=
  if w.over_ then none
  else
    let w0 := if w.st = 0 then putBits (putBits w.w0 1 0 1) 7 5 1 else w.w0
    let w0 := if err then putBit w0 2 true else w0
    let w0 := if err && slice w0 63 56 = 0 then putBits w0 63 56 code.toNat else w0
    let need := (slice w0 7 5 + 7) % 8
    let w0 := if cancel then putBits w0 1 0 3
      else if need = 0 then putBits (putBits w0 7 5 0) 1 0 2 else putBits w0 7 5 need
    let fire := decide (slice w0 1 0 ≠ 1) && bit w0 3
    some (⟨if fire then putBit w0 4 true else w0, w.w1 + val⟩, fire)

/-- Perform one resolution of the word at a place at a scope, for a context of launch `l` on a die; none for a double resolution (R336). (DEDUCED, log 32) -/
def State.resolveAt (s : State) (l die : Nat) (sc : Scope) (va : W72) (p : Place) (val : W64) (err : Bool) (code : BitVec 8)
    (cancel : Bool) : Option State :=
  match (s.readSW p.pa).resolve val err code cancel with
  | none => none
  | some (w, fire) =>
    let s := (s.writeSW sc p.pa p.hint w).joins p.pa w
    some (if fire then s.pushCont l die (w.cont va) else s)

/-! ### Flights (R348 to R352) -/

def State.flight? (s : State) (n l fl : Nat) : Option Flight := s.flights.find? (fun x => x.cl = n && x.launch = l && x.fl = fl)
def State.modFlight (s : State) (n l fl : Nat) (f : Flight → Flight) : State :=
  { s with flights := s.flights.map (fun x => if x.cl = n && x.launch = l && x.fl = fl then f x else x) }

def Flight.st (x : Flight) (i : Nat) : Chamber := x.cst.getD i .free
def Flight.setSt (x : Flight) (i : Nat) (c : Chamber) : Flight := { x with cst := x.cst.set i c }

/-- The window address of chamber i, zero for a memory flight (R350). -/
def Flight.addr (x : Flight) (i : Nat) : Nat :=
  if x.window then
    let a : W72 := putBits x.base 24 18 x.core
    (putBits a 17 0 (slice x.base 17 0 + i * x.size)).toNat % 2 ^ 32
  else 0

/-- A commit or a release of chamber i takes effect; `bad` marks a commit by a future that ended other than OK, or by a failed
context. (DEDUCED, log 23) -/
def Flight.step (x : Flight) (i : Nat) (bad : Bool) : Flight :=
  let x := { x with defer := putBit x.defer i false }
  match x.st i with
  | .filling => { x.setSt i .full with bad := if bad then putBit x.bad i true else x.bad }
  | .draining => { x.setSt i .free with bad := putBit x.bad i false }
  | _ => x

def chamberCode : Chamber → Nat
  | .free => 0
  | .filling => 1
  | .full => 2
  | .draining => 3

/-- The 64-byte image of a flight (R348). -/
def Flight.image (x : Flight) : List W64 :=
  let w1 : Nat := slice x.base 71 64 * 2 ^ 56 + x.owner * 2 ^ 53 + boolNat x.window * 2 ^ 52 + (x.count - 1) * 2 ^ 48 + x.size * 2 ^ 24
    + x.waitIx * 2 ^ 12 + x.acqIx * 2 ^ 8
  let fold (w : Nat) (l : List Nat) : Nat := l.foldr (fun y a => y % 2 ^ w + 2 ^ w * a) 0
  [x.base.setWidth 64, BitVec.ofNat 64 w1, BitVec.ofNat 64 (fold 2 (x.cst.map chamberCode)), BitVec.ofNat 64 (fold 3 x.hold),
   BitVec.ofNat 64 (x.defer.toNat * 65536 + x.bad.toNat), 0, 0, 0]

/-- Chambers that a context holds in flights of its cluster and launch, FILLING or DRAINING (R350, R351). -/
def Flight.heldBy (x : Flight) (n l slot : Nat) : List Nat :=
  if x.cl = n && x.launch = l then
    (List.range x.count).filter (fun i => x.hold.getD i 0 = slot && (x.st i = .filling || x.st i = .draining))
  else []

def State.holds (s : State) (n l slot : Nat) : Bool := s.flights.any (fun x => x.heldBy n l slot ≠ [])

/-- A holder that has failed leaves its chambers: FILLING becomes FULL with BAD, DRAINING becomes FREE (R351). (DEDUCED, log 31) -/
def State.dropHeld (s : State) (n l slot : Nat) : State :=
  { s with flights := s.flights.map (fun x => (x.heldBy n l slot).foldl (fun x i => x.step i true) x) }

/-- Whether a context waits for a flight ahead of another that came at `since` (R350). -/
def State.aheadOf (s : State) (n l slot : Nat) (acq : Bool) (fl : BitVec 4) (since : Nat) : Bool :=
  (s.clusterCtxs n).any (fun p => p.1 != slot && p.2.launch = l &&
    (match p.2.wait with
     | .flight a f t => a = acq && f = fl && decide (t < since ∨ (t = since ∧ p.1 < slot))
     | _ => false))

/-! ### Resolving a slot (R300, R337, R350) -/

def State.modSlot (s : State) (n slot : Nat) (f : BitVec 6) (g : Slot → Slot) : State :=
  s.modCtx n slot (fun c => c.setSlot f (g (c.slot f)))

/-- A slot leaves PENDING (R300): its target receives a value, a deferred flight step takes effect, and its link resolves its
state word. A link that finds the word over leaves its fault for later (R337). A slot that joined on a word (OP 0x56) has no
value of R309 to pass on. From then on the context's bays hold nothing older than what the slot stood for (R300, R333). -/
def State.resolveSlot (s : State) (n slot : Nat) (f : BitVec 6) (st : SlotState) (code : BitVec 8) (kind : BitVec 4) (addr : W72)
    (value : W64) (uncorr : Bool) : State :=
  match s.ctx? n slot with
  | none => s
  | some c =>
    let x := c.slot f
    let stored : W64 := if x.op = 0x56 then 0 else value
    let x' := { x with state := st, code := code, kind := kind, addr := addr, value := stored, work := .none, target := none,
                       link := none, defer := none, uncorr := x.uncorr || uncorr }
    let c := c.setSlot f x'
    let c := match x.target with
      | some g =>
        if tget c.gt g.toNat = some (.slot f) && !uncorr then { c.setG g (BitVec.ofNat 72 value.toNat) with gt := tdel c.gt g.toNat } else c
      | none => c
    let s := s.setCtx n slot c
    let s := match x.defer with
      | some (fl, i) => s.modFlight n c.launch fl (fun y => y.step i (decide (st ≠ SlotState.ok)))
      | none => s
    let s := match x.link with
      | none => s
      | some (va, ann) =>
        match s.xlateFront c.ring va true with
        | .error k => s.postFail c.launch (dieOf n) va k.toNat
        | .ok p =>
          let pm := ann.pm ||| putBit 0 x.stream.toNat true
          if !s.linkOpen p.pa || s.badAt p.pa 16
              || (s.cutCarry c.uid .gen ⟨c.ops, 1, c.genSeq⟩ pm (effScope p.pa ann.sc) (p.ord = 0)).isSome then s.postFail c.launch (dieOf n) va 0
          else
            let s := (s.reach (dieOf n) p.pa).carryFor c.uid .gen ⟨c.ops, 1, c.genSeq⟩ pm ann.sc
              (placePart p.pa 16 p.ord)
            match s.resolveAt c.launch (dieOf n) ann.sc va p stored (decide (st = SlotState.error)) code (decide (st = SlotState.cancelled)) with
            | some s => s
            | none => s.modSlot n slot f (fun y => { y with dres := true })
    s.refreshBays n slot

end Sys2Proof.Machine
end

