-- ==== Sys2Proof/Machine/Flags.lean ====
section
/-! DEFINITION. Condition bits: the relations of CMP and the tables of KOP (R154, R157). -/

namespace Sys2Proof.Machine

/-- Whether a relation holds of two exact values (R154). -/
def relHolds (r : Rel) (x y : Int) : Bool :=
  match r with
  | .eq => decide (x = y)
  | .ne => decide (x ≠ y)
  | .lt => decide (x < y)
  | .ge => decide (y ≤ x)

/-- Bit 2 × ka + kb of a table (R157). -/
def kopBit (table : BitVec 4) (a b : Bool) : Bool := bit table (2 * boolNat a + boolNat b)

/-- The condition of a branch (R161). -/
def condHolds (c : BrCond) (k : Bool) : Bool :=
  match c with
  | .always => true
  | .ks => k
  | .kc => !k

end Sys2Proof.Machine
end

