-- ==== Sys2Proof/Machine/GenInt.lean ====
section
/-! DEFINITION. The generator's integer and address instructions (R149 to R160). -/

namespace Sys2Proof.Machine

/-! ### Operand types (R149) -/

/-- The width at which a type forms its result. -/
def gw : GTy → Nat
  | .i64 => 64
  | .n64 => 64
  | .i32 => 32
  | .n32 => 32
  | .a72 => 72

/-- The source value of a register under a type. -/
def gsrc (t : GTy) (x : W72) : Int :=
  match t with
  | .i64 => signed 64 x.toNat
  | .n64 => (x.toNat % 2 ^ 64 : Nat)
  | .i32 => signed 32 x.toNat
  | .n32 => (x.toNat % 2 ^ 32 : Nat)
  | .a72 => (x.toNat : Nat)

/-- The source value of a literal under a type: for `.a72` it is sign-extended first. -/
def glit (t : GTy) (l : GLit) : Int := gsrc t (l.val.signExtend 72)

/-- What a result writes: r modulo 2^w, and the bits above as the type's row says. -/
def gdst (t : GTy) (r : Int) : W72 :=
  match t with
  | .i64 => (BitVec.ofNat 64 (wrap 64 r)).signExtend 72
  | .n64 => BitVec.ofNat 72 (wrap 64 r)
  | .i32 => (BitVec.ofNat 32 (wrap 32 r)).signExtend 72
  | .n32 => BitVec.ofNat 72 (wrap 32 r)
  | .a72 => BitVec.ofNat 72 (wrap 72 r)

/-! ### The operations of R153, on exact integers -/

/-- floor(x / 2^s). -/
def asr (x : Int) (s : Nat) : Int := x / (2 ^ s : Int)

def opAdd (_ : GTy) (x y : Int) : Int := x + y
def opSub (_ : GTy) (x y : Int) : Int := x - y
def opMul (_ : GTy) (x y : Int) : Int := x * y
def opMulh (t : GTy) (x y : Int) : Int := x * y / (2 ^ gw t : Int)
def opDiv (_ : GTy) (x y : Int) : Int := if y = 0 then -1 else x.tdiv y
def opRem (_ : GTy) (x y : Int) : Int := if y = 0 then x else x - y * x.tdiv y
def opAnd (t : GTy) (x y : Int) : Int := ((wrap (gw t) x &&& wrap (gw t) y : Nat) : Int)
def opOr (t : GTy) (x y : Int) : Int := ((wrap (gw t) x ||| wrap (gw t) y : Nat) : Int)
def opXor (t : GTy) (x y : Int) : Int := ((wrap (gw t) x ^^^ wrap (gw t) y : Nat) : Int)
def opMin (_ : GTy) (x y : Int) : Int := if x ≤ y then x else y
def opMax (_ : GTy) (x y : Int) : Int := if x ≤ y then y else x
/-- Shifts take their amount from 64 bits, read as a natural number. -/
def opShl (t : GTy) (x : Int) (s : Nat) : Int := if gw t ≤ s then 0 else x * (2 ^ s : Int)
def opShr (t : GTy) (x : Int) (s : Nat) : Int := if gw t ≤ s then (if x < 0 then -1 else 0) else asr x s

/-! ### The forms of R152 -/

/-- A register form: gd := op(ga, gb). -/
def regForm (s : State) (i : Instr) (op : GTy → Int → Int → Int) (t : GTy) (d a b : BitVec 6) : Host.Outcome State Fault Refusal :=
  s.generator i [a, b] [d] fun n slot c =>
    .retire (s.setCtx n slot (c.setG d (gdst t (op t (gsrc t (c.gv a)) (gsrc t (c.gv b))))))

/-- A literal form: gd := op(ga, literal). -/
def litForm (s : State) (i : Instr) (op : GTy → Int → Int → Int) (t : GTy) (d a : BitVec 6) (l : GLit) : Host.Outcome State Fault Refusal :=
  s.generator i [a] [d] fun n slot c => .retire (s.setCtx n slot (c.setG d (gdst t (op t (gsrc t (c.gv a)) (glit t l)))))

/-- A shift by a register, and by a literal. -/
def shiftReg (s : State) (i : Instr) (op : GTy → Int → Nat → Int) (t : GTy) (d a b : BitVec 6) : Host.Outcome State Fault Refusal :=
  s.generator i [a, b] [d] fun n slot c =>
    .retire (s.setCtx n slot (c.setG d (gdst t (op t (gsrc t (c.gv a)) (slice (c.gv b) 63 0)))))

def shiftLit (s : State) (i : Instr) (op : GTy → Int → Nat → Int) (t : GTy) (d a : BitVec 6) (l : GLit) : Host.Outcome State Fault Refusal :=
  s.generator i [a] [d] fun n slot c => .retire (s.setCtx n slot (c.setG d (gdst t (op t (gsrc t (c.gv a)) l.val.toNat))))

def execAddRegister (t : GTy) (d a b : BitVec 6) (s : State) := regForm s (.addRegister t d a b) opAdd t d a b
def execAddLiteral (t : GTy) (d a : BitVec 6) (l : GLit) (s : State) := litForm s (.addLiteral t d a l) opAdd t d a l
def execSubRegister (t : GTy) (d a b : BitVec 6) (s : State) := regForm s (.subRegister t d a b) opSub t d a b
def execSubLiteral (t : GTy) (d a : BitVec 6) (l : GLit) (s : State) := litForm s (.subLiteral t d a l) opSub t d a l
def execMulRegister (t : GTy) (d a b : BitVec 6) (s : State) := regForm s (.mulRegister t d a b) opMul t d a b
def execMulLiteral (t : GTy) (d a : BitVec 6) (l : GLit) (s : State) := litForm s (.mulLiteral t d a l) opMul t d a l
def execMulhRegister (t : GTy) (d a b : BitVec 6) (s : State) := regForm s (.mulhRegister t d a b) opMulh t d a b
def execMulhLiteral (t : GTy) (d a : BitVec 6) (l : GLit) (s : State) := litForm s (.mulhLiteral t d a l) opMulh t d a l
def execDivRegister (t : GTy) (d a b : BitVec 6) (s : State) := regForm s (.divRegister t d a b) opDiv t d a b
def execDivLiteral (t : GTy) (d a : BitVec 6) (l : GLit) (s : State) := litForm s (.divLiteral t d a l) opDiv t d a l
def execRemRegister (t : GTy) (d a b : BitVec 6) (s : State) := regForm s (.remRegister t d a b) opRem t d a b
def execRemLiteral (t : GTy) (d a : BitVec 6) (l : GLit) (s : State) := litForm s (.remLiteral t d a l) opRem t d a l
def execAndRegister (t : GTy) (d a b : BitVec 6) (s : State) := regForm s (.andRegister t d a b) opAnd t d a b
def execAndLiteral (t : GTy) (d a : BitVec 6) (l : GLit) (s : State) := litForm s (.andLiteral t d a l) opAnd t d a l
def execOrRegister (t : GTy) (d a b : BitVec 6) (s : State) := regForm s (.orRegister t d a b) opOr t d a b
def execOrLiteral (t : GTy) (d a : BitVec 6) (l : GLit) (s : State) := litForm s (.orLiteral t d a l) opOr t d a l
def execXorRegister (t : GTy) (d a b : BitVec 6) (s : State) := regForm s (.xorRegister t d a b) opXor t d a b
def execXorLiteral (t : GTy) (d a : BitVec 6) (l : GLit) (s : State) := litForm s (.xorLiteral t d a l) opXor t d a l
def execShlRegister (t : GTy) (d a b : BitVec 6) (s : State) := shiftReg s (.shlRegister t d a b) opShl t d a b
def execShlLiteral (t : GTy) (d a : BitVec 6) (l : GLit) (s : State) := shiftLit s (.shlLiteral t d a l) opShl t d a l
def execShrRegister (t : GTy) (d a b : BitVec 6) (s : State) := shiftReg s (.shrRegister t d a b) opShr t d a b
def execShrLiteral (t : GTy) (d a : BitVec 6) (l : GLit) (s : State) := shiftLit s (.shrLiteral t d a l) opShr t d a l
def execMinRegister (t : GTy) (d a b : BitVec 6) (s : State) := regForm s (.minRegister t d a b) opMin t d a b
def execMinLiteral (t : GTy) (d a : BitVec 6) (l : GLit) (s : State) := litForm s (.minLiteral t d a l) opMin t d a l
def execMaxRegister (t : GTy) (d a b : BitVec 6) (s : State) := regForm s (.maxRegister t d a b) opMax t d a b
def execMaxLiteral (t : GTy) (d a : BitVec 6) (l : GLit) (s : State) := litForm s (.maxLiteral t d a l) opMax t d a l

/-! ### CMP (R154) -/

/-- The operand type of a compare. -/
def cmpTy : CTy → GTy
  | .i64 => .i64
  | .n64 => .n64
  | .i32 => .i32
  | .a72 => .a72

def execCmpRegister (r : Rel) (t : CTy) (d : BitVec 3) (a b : BitVec 6) (s : State) : Host.Outcome State Fault Refusal :=
  s.generator (.cmpRegister r t d a b) [a, b] [] fun n slot c =>
    .retire (s.setCtx n slot (c.setK d (relHolds r (gsrc (cmpTy t) (c.gv a)) (gsrc (cmpTy t) (c.gv b)))))

def execCmpLiteral (r : Rel) (t : CTy) (d : BitVec 3) (a : BitVec 6) (l : GLit) (s : State) : Host.Outcome State Fault Refusal :=
  s.generator (.cmpLiteral r t d a l) [a] [] fun n slot c =>
    .retire (s.setCtx n slot (c.setK d (relHolds r (gsrc (cmpTy t) (c.gv a)) (glit (cmpTy t) l))))

/-! ### MOV, CLZ, POPC, SEL, KOP, EXT, LEA, ADR (R153, R155 to R160) -/

def execMovRegister (t : GTy) (d a : BitVec 6) (s : State) : Host.Outcome State Fault Refusal :=
  s.generator (.movRegister t d a) [a] [d] fun n slot c => .retire (s.setCtx n slot (c.setG d (gdst t (gsrc t (c.gv a)))))

def execMovLiteral (t : GTy) (d : BitVec 6) (l : GLit) (s : State) : Host.Outcome State Fault Refusal :=
  s.generator (.movLiteral t d l) [] [d] fun n slot c => .retire (s.setCtx n slot (c.setG d (gdst t (glit t l))))

/-- The width of the field that CLZ and POPC look at (R155). -/
def btyWidth : BTy → Nat
  | .n64 => 64
  | .n32 => 32
  | .a72 => 72

def execClz (t : BTy) (d a : BitVec 6) (s : State) : Host.Outcome State Fault Refusal :=
  s.generator (.clz t d a) [a] [d] fun n slot c => .retire (s.setCtx n slot (c.setG d (BitVec.ofNat 72 (clz (btyWidth t) (c.gv a).toNat))))

def execPopc (t : BTy) (d a : BitVec 6) (s : State) : Host.Outcome State Fault Refusal :=
  s.generator (.popc t d a) [a] [d] fun n slot c => .retire (s.setCtx n slot (c.setG d (BitVec.ofNat 72 (popcount (btyWidth t) (c.gv a).toNat))))

def execSel (d : BitVec 6) (k : BitVec 3) (a b : BitVec 6) (s : State) : Host.Outcome State Fault Refusal :=
  s.generator (.sel d k a b) [a, b] [d] fun n slot c => .retire (s.setCtx n slot (c.setG d (if c.kv k then c.gv a else c.gv b)))

def execKop (d a b : BitVec 3) (table : BitVec 4) (s : State) : Host.Outcome State Fault Refusal :=
  s.generator (.kop d a b table) [] [] fun n slot c => .retire (s.setCtx n slot (c.setK d (kopBit table (c.kv a) (c.kv b))))

/-- EXT: the low n + 1 bits, where field b holds n (R158). -/
def execExt (sgn : Bool) (d a m : BitVec 6) (s : State) : Host.Outcome State Fault Refusal :=
  s.generator (.ext sgn d a m) [a] [d] fun n slot c =>
    let w := m.toNat + 1
    let x := (c.gv a).toNat % 2 ^ w
    .retire (s.setCtx n slot (c.setG d (BitVec.ofNat 72 (if sgn then wrap 72 (signed w x) else x))))

def execLea (d a b : BitVec 6) (sh : BitVec 4) (s : State) : Host.Outcome State Fault Refusal :=
  s.generator (.lea d a b sh) [a, b] [d] fun n slot c =>
    .retire (s.setCtx n slot (c.setG d (BitVec.ofNat 72 (wrap 72 (((c.gv a).toNat : Int) + signed 64 (c.gv b).toNat * (2 ^ sh.toNat : Int))))))

/-- A relative code address: the instruction's own address plus 4 × literal, modulo 2^64 (R130). -/
def relTarget (pc : W64) (l : GLit) : W64 := pc + l.val * 4

def execAdr (d : BitVec 6) (l : GLit) (s : State) : Host.Outcome State Fault Refusal :=
  s.generator (.adr d l) [] [d] fun n slot c => .retire (s.setCtx n slot (c.setG d ((relTarget c.pc l).setWidth 72)))

end Sys2Proof.Machine
end

