-- ==== Sys2Proof/Machine/Placing.lean ====
section
/-! DEFINITION. A launch's dies, the boundary of a change, the end of a context and of a launch (R112 to R120, R123, R171, R347,
R387). -/

namespace Sys2Proof.Machine

/-! ### Queued barges in dispatch order -/

def insertQueued (q : Queued) : List Queued → List Queued
  | [] => [q]
  | r :: rs => if q.before r then q :: r :: rs else r :: insertQueued q rs

def sortQueued : List Queued → List Queued
  | [] => []
  | q :: qs => insertQueued q (sortQueued qs)

/-- Deal queued barges round-robin in ascending d among dies (R117, R123). (DEDUCED, log 30) -/
def Basin.deal (b : Basin) (dies : List Nat) : Nat → List Queued → Basin
  | _, [] => b
  | i, q :: qs => (b.modBerth (dies.getD (i % dies.length) 0) (fun x => x ++ [q])).deal dies (i + 1) qs

/-- A launch with every queued barge and frame at the level that it has risen to (R108). -/
def Launch.due (l : Launch) (now : Nat) : Launch :=
  let all (qs : List Queued) : List Queued := qs.map (Queued.due now)
  { l with basins := l.basins.map (fun b => { b with berths := b.berths.map (fun p => (p.1, all p.2)) }),
           parked := all l.parked, first := all l.first }

/-- Empty the berths of a die, dealing what they hold to the dies the launch can still use; with none left, the launch keeps it
for its next grant, saved frames first (R117, R119, R123, R384). -/
def Launch.dropBerths (l : Launch) (d : Nat) : Launch :=
  let dies := l.usable.filter (· != d)
  let of_ (b : Basin) : List Queued := sortQueued (tgetD b.berths d [])
  let emptied (b : Basin) : Basin := { b with berths := tdel b.berths d }
  if dies.isEmpty then
    let qs := l.basins.flatMap of_
    { l with basins := l.basins.map emptied, first := l.first ++ qs.filter (fun q => q.frame.isSome),
             parked := l.parked ++ qs.filter (fun q => q.frame.isNone) }
  else { l with basins := l.basins.map (fun b => (emptied b).deal dies 0 (of_ b)) }

/-- The queued barges and frames of a launch that a die's berths hold. -/
def Launch.onDie (l : Launch) (d : Nat) : List Queued := l.basins.flatMap (fun b => tgetD b.berths d [])

/-! ### The boundary of a change (R115 to R120) -/

/-- How many launches hold a die. -/
def State.holders (s : State) (d : Nat) : Nat := (s.launches.filter (fun l => bit l.dieset d)).length

/-- A die is eligible for a launch in every respect but the count of 8 (R112). -/
def State.allowed (s : State) (l : Launch) (d : Nat) : Bool := bit l.allow d && (s.die d).admitted && (s.die d).phase = 0

/-- Release the contexts of a launch that wait in STEP, but for those on one die (R117, R120). -/
def State.releaseSteps (s : State) (l : Nat) (but : Option Nat) : State :=
  { s with ctxs := s.ctxs.map (fun p =>
      if p.2.launch = l && p.2.wait = .step && but ≠ some (dieOf (p.1 / 8)) then (p.1, { p.2 with wait := .stepDone }) else p) }

/-- The dies of a mask have left a launch: its running commands know it, should a die join it again (R330). -/
def State.noteLost (s : State) (l : Nat) (lost : BitVec 8) : State :=
  let mine (c : Cmd) : Bool := c.begun && (s.launchCtxs l).any (fun p => p.2.2.uid = c.uid)
  { s with cmds := s.cmds.map (fun c => if mine c then { c with lostDies := c.lostDies ||| lost } else c) }

/-- The die set of a launch becomes another: `$dieset` and `$diegen` change for every context at once (R114), by a message of the
front die to each of their dies (R296). (DEDUCED, log 30) -/
def State.newDieset (s : State) (l : Nat) (f : Launch → Launch) : State :=
  let s := match s.launch? l with | some x => s.noteLost l (x.dieset &&& ~~~(f x).dieset) | none => s
  let s := s.modLaunch l (fun x => let y := f x; { y with diegen := y.diegen + 1 })
  let s := s.tellDies ((s.launchCtxs l).map (fun p => dieOf p.1))
  match s.launch? l with
  | none => s
  | some x => s.traceLaunch x 1 x.diegen.toNat

/-- Ask for a save of a context (R118, R371, R384). One request stands at a time; a boundary's or a reset's takes the place of one that
is yet to be taken, and a reset's also that of a move (R118, R384). All but a pre-emption's are orders of the front die to the context's die
(R296). (DEDUCED, log 44; DEDUCED, log 28) -/
def State.requestSave (s : State) (n slot : Nat) (w : SaveWhy) : State :=
  match s.ctx? n slot with
  | none => s
  | some c =>
    let ask (taken : Option (Nat × Nat)) : State :=
      let s := if w = .level7 then s else s.tellDies [dieOf n]
      { s.setCtx n slot { c with save := some ⟨w, taken⟩ } with moves := s.moves.filter (fun m => m.1 != c.uid) }
    if c.stop.isSome then s
    else
      match c.save with
      | none => ask none
      | some ⟨_, none⟩ => if w = .boundary || w = .reset then ask none else s
      | some ⟨.migrate _ _, some t⟩ => if w = .reset then ask (some t) else s
      | some ⟨_, some _⟩ => s

/-- A context cannot be drained or saved: it is STUCK, and its launch is faulted (R118, R368, R369, R372). (DEDUCED, log 44) -/
def State.stickCtx (s : State) (n slot : Nat) : State :=
  match s.ctx? n slot with
  | none => s
  | some c => (s.stopCtx n slot none { cls := 0x33 }).faultLaunch c.launch

/-- A change still holds at its boundary: the added die, which the launch does not hold already, may join without taking it past MAXDIES, or the
launch keeps MINDIES without the withdrawn one (R112, R115). (DEDUCED, log 48) -/
def State.changeHolds (s : State) (x : Launch) (ch : Change) : Bool :=
  let held := (setBits 8 x.dieset.toNat).length
  if ch.add then s.allowed x ch.die && decide (s.holders ch.die < 8) && !bit x.dieset ch.die && decide (held < x.maxDies)
  else decide (x.minDies < held)

/-- The boundary is reached when every member has executed STEP or ended (R117). A change that no longer holds is dropped; barges that were
parked while no die was usable (R123) stay so until the launch's next grant. Members
waiting in STEP on a withdrawn die are to be saved; one with a stretch open cannot be, and faults the launch (R118). (DEDUCED, log 48;
DESIGN CHOICE, log 48) -/
def State.boundary (s : State) (l : Nat) : State :=
  match s.launch? l with
  | none => s
  | some x =>
    match x.change with
    | none => s
    | some ch =>
      if ch.left ≠ [] then s
      else if !s.changeHolds x ch then (s.modLaunch l (fun x => { x with change := none })).releaseSteps l none
      else if ch.add then
        (s.newDieset l (fun x => { x with dieset := putBit x.dieset ch.die true, change := none })).releaseSteps l none
      else
        let saved := (s.launchCtxs l).filter (fun p => dieOf p.1 = ch.die && ch.inStep.contains p.2.2.uid)
        let s := s.newDieset l (fun x => { (x.due s.now).dropBerths ch.die with dieset := putBit x.dieset ch.die false, change := none })
        let s := s.releaseSteps l (some ch.die)
        let s := saved.foldl (fun s p => s.requestSave p.1 p.2.1 .boundary) s
        (saved.filter (fun p => p.2.2.stretch.isSome)).foldl (fun s p => s.stickCtx p.1 p.2.1) s

/-- A member of the boundary set has executed STEP, or has ended. -/
def State.reached (s : State) (l uid : Nat) (inStep : Bool) : State :=
  let mark (x : Launch) : Launch :=
    match x.change with
    | none => x
    | some ch => { x with change := some { ch with left := ch.left.filter (· != uid),
                                                   inStep := if inStep then uid :: ch.inStep else ch.inStep.filter (· != uid) } }
  (s.modLaunch l mark).boundary l

/-- A die leaves a launch in the cycle its CDIEMASK bit clears (R119, R120). -/
def State.loseDie (s : State) (d l : Nat) : State :=
  match s.launch? l with
  | none => s
  | some x =>
    let ofThis : Bool := match x.change with | some ch => decide (ch.die = d) | none => false
    let withdrawn : Bool := match x.change with | some ch => !ch.add | none => false
    let clear (y : Launch) : Launch := if ofThis then { y with change := none } else y
    let s :=
      if bit x.dieset d then
        s.newDieset l (fun y =>
          let y := clear ((y.due s.now).dropBerths d)
          let y := { y with dieset := putBit y.dieset d false }
          { y with waitAt := if y.dieset = 0 then some s.now else y.waitAt })
      else s.modLaunch l clear
    if ofThis then s.releaseSteps l (if withdrawn then some d else none) else s

/-! ### The end of a launch (R96, R182, R347) -/

/-- A launch that has ended, and holds no context or frame any more, is live no longer; one that was not admitted, once its record has
posted (R96, R103, R347). (DEDUCED, log 61) -/
def State.reap (s : State) (l : Nat) : State :=
  match s.launch? l with
  | none => s
  | some x =>
    let due := x.admitted || !s.ringCmds.any (fun c => c.acc = l)
    if x.ended && due && (s.launchCtxs l).isEmpty && !s.frames.any (fun p => p.2.launch = l) then
      let caps (c : Cluster) : Cluster := { c with capt := c.capt.filter (fun e => e.1 / 256 != l) }
      { s with launches := s.launches.filter (fun y => y.acc != l),
               clusters := s.clusters.map (fun p => (p.1, caps p.2)),
               flights := s.flights.filter (fun f => f.launch != l), watches := s.watches.filter (fun p => p.2.launch != l),
               regs := { s.regs with gone := s.regs.gone ++ [l] } }
    else s

/-! ### The end of a context (R122, R171, R368, R373) -/

/-- Bays lent to a context. -/
def Ctx.bayList (c : Ctx) : List Nat := setBits 16 c.bays.toNat

/-- Moves whose context is still to be moved: what they have reserved (R128). -/
def State.liveMoves (s : State) : List (Nat × Nat × Nat) :=
  s.moves.filter (fun m => s.allCtxs.any (fun p => p.2.2.uid = m.1 &&
    (match p.2.2.save with | some ⟨.migrate _ _, _⟩ => true | _ => false)))

def State.freeBays (s : State) (n : Nat) : List Nat :=
  let moved : Nat := ((s.liveMoves.filter (fun m => m.2.1 / 8 = n)).map (fun m => m.2.2)).foldl (· ||| ·) 0
  let used := (s.clusterCtxs n).foldl (fun a p => a ||| p.2.bays.toNat) moved
  (List.range 16).filter (fun b => !used.testBit b)

def State.freeSlots (s : State) (n : Nat) : List Nat :=
  (List.range 8).filter (fun k => (s.ctx? n k).isNone && !s.liveMoves.any (fun m => m.2.1 = 8 * n + k))

/-- Each lent bay's line cache writes back, and drops its lines where asked. -/
def State.writeBackBays (s : State) (n : Nat) (c : Ctx) (drop : Bool) : State :=
  c.bayList.foldl (fun s b => s.bayWriteBack n b drop) s

/-- An access of another context through a window to one of these cores, of which an element there is still to be performed, fails with the
window fault: it is never performed into a pool that another context has received (R252). -/
def State.failWindows (s : State) (uid : Nat) (keys : List Nat) : State :=
  let there (p : Part) : Bool := !p.done && isSp p.pa && keys.contains (spCore p.pa)
  let hit (a : Access) : Bool := a.uid != uid && !a.done && !a.bad && a.parts.any there
  (s.accs.filter hit).foldl (fun s a => s.failAccess a (s.whyLate a 8 (a.parts.filter there))) s

/-- A context leaves its slot: its counts go to the front die, its bays return, and nothing of it stays in the cluster. -/
def State.removeCtx (s : State) (n slot : Nat) : State :=
  match s.ctx? n slot with
  | none => s
  | some c =>
    let s := s.failWindows c.uid ((s.coresOf n slot).map (fun p => coreKey n p.1))
    let s := s.sendCounts n slot
    let s := s.delCtx n slot
    let s := { s with cores := s.cores.filter (fun p => !(p.1 / 128 = n && p.2.slot = slot)),
                      accs := s.accs.filter (fun a => a.uid != c.uid),
                      narrow := s.narrow.filter (fun r => r.uid != c.uid),
                      cmds := s.cmds.filter (fun x => x.uid != c.uid),
                      mmas := s.mmas.filter (fun x => x.uid != c.uid) }.forgetUsers (fun u => u.1 = c.uid)
    let k := s.cluster n
    s.setCluster n { k with ports := k.ports.filter (fun p => p.2 != slot), idleAt := s.now }

/-- A context has ended, at TASKEND or by a stop: it leaves its slot, and counts no more for a boundary (R117). (DEDUCED, log 48) -/
def State.endCtx (s : State) (n slot : Nat) : State :=
  match s.ctx? n slot with
  | none => s
  | some c => ((s.removeCtx n slot).message (some (dieOf n)) none).reached c.launch c.uid false

/-- A request for a save waits while its context itself has still to act on a chamber of a window flight that it owns (R352). (DEDUCED, log 31) -/
def State.windowHeld (s : State) (n slot : Nat) (c : Ctx) : Bool :=
  s.flights.any (fun x => x.uid = c.uid && x.window && (x.heldBy n c.launch slot).any (fun i => !bit x.defer i))

/-- The multicast at the head of a context's queue has begun, and so has no boundary before its end (R189). -/
def Ctx.sending (c : Ctx) : Bool := match c.queue.head? with | some o => o.targets.isSome | none => false

/-- The request for a save that can be taken now, with the frame slot that it takes: one is free, and no stretch is open (R189, R371). -/
def State.saveNow (s : State) (n slot : Nat) : Option (Ctx × SaveWhy × Nat) :=
  match s.ctx? n slot with
  | none => none
  | some c =>
    match c.save, c.stretch, c.stop, s.freeFrame c.ring with
    | some ⟨w, none⟩, none, none, some ix => if s.windowHeld n slot c then none else some (c, w, ix)
    | _, _, _, _ => none

def State.canSave (s : State) (n slot : Nat) : Bool := (s.saveNow n slot).isSome

/-- A request for a save is taken: the generator and the port stop here, and the drain begins. -/
def State.takeSave (s : State) (n slot : Nat) : State :=
  match s.saveNow n slot with
  | none => s
  | some (c, w, ix) =>
    let s := s.setCtx n slot { c with save := some ⟨w, some (s.now, ix)⟩, status := .blocked, since := s.now }
    let k := s.cluster n
    s.setCluster n { k with ports := if c.sending then k.ports else k.ports.filter (fun p => p.2 != slot) }

/-- A context being saved or stopped starts no further generator instruction and no port writes for it, but for the words that a
stop leaves in its queue. -/
def Ctx.halted (c : Ctx) : Bool :=
  c.stop.isSome || (match c.save with | some ⟨_, some _⟩ => true | _ => false)

/-- Another context of a cluster is READY. -/
def State.otherReady (s : State) (n slot : Nat) : Bool := (s.clusterCtxs n).any (fun p => p.1 != slot && p.2.status = .ready)

end Sys2Proof.Machine
end

