-- ==== Sys2Proof/Machine/Fetch.lean ====
section
/-! DEFINITION. The code caches, and fetching a generator instruction (R130 to R136, R144). -/

namespace Sys2Proof.Machine

/-! ### The code caches (R132) -/

def codeSets : Level → Nat
  | .i0 => 256
  | .i1 => 4096
  | .i2 => 32768

def codeWays : Level → Nat
  | .i0 => 8
  | .i1 => 16
  | .i2 => 16

def CodeCaches.table (c : CodeCaches) : Level → Tab (List CodeTag)
  | .i0 => c.i0
  | .i1 => c.i1
  | .i2 => c.i2

def CodeCaches.setTable (c : CodeCaches) (t : Tab (List CodeTag)) : Level → CodeCaches
  | .i0 => { c with i0 := t }
  | .i1 => { c with i1 := t }
  | .i2 => { c with i2 := t }

/-- A line is tagged by code address: its number is the address over 128. -/
def codeLine (pc : W64) : Nat := pc.toNat / 128
def lineModule (line : Nat) : Nat := line * 128 / 2 ^ 32 % 4096
def lineOffset (line : Nat) : Nat := line * 128 % 2 ^ 32

/-- The key of a code line's set (R132). (DESIGN CHOICE, log 43) -/
def codeKey (lvl : Level) (unit line : Nat) : Nat := unit * codeSets lvl + line % codeSets lvl
def CodeCaches.set (c : CodeCaches) (lvl : Level) (unit line : Nat) : List CodeTag := tgetD (c.table lvl) (codeKey lvl unit line) []
def CodeCaches.has (c : CodeCaches) (lvl : Level) (unit line : Nat) : Bool := (c.set lvl unit line).any (fun t => t.line = line)

/-- Put a line first in its set, the least recently used leaving a full one. -/
def CodeCaches.put (c : CodeCaches) (lvl : Level) (unit line : Nat) (seq : Bool) : CodeCaches :=
  let rest := (c.set lvl unit line).filter (fun t => t.line != line)
  c.setTable (tput (c.table lvl) (codeKey lvl unit line) ((⟨line, seq⟩ :: rest).take (codeWays lvl))) lvl

/-- A line that is used becomes the most recent of its set (R132). -/
def CodeCaches.used (c : CodeCaches) (lvl : Level) (unit line : Nat) : CodeCaches :=
  match (c.set lvl unit line).find? (fun t => t.line = line) with
  | some t => c.put lvl unit line t.seq
  | none => c

/-- Take a line out of a level. -/
def CodeCaches.drop (c : CodeCaches) (lvl : Level) (unit line : Nat) : CodeCaches :=
  c.setTable (tput (c.table lvl) (codeKey lvl unit line) ((c.set lvl unit line).filter (fun t => t.line != line))) lvl

/-- The unit of each level that serves generator n. -/
def codeUnit (lvl : Level) (n : Nat) : Nat :=
  match lvl with
  | .i0 => n
  | .i1 => dieOf n
  | .i2 => 0

def CodeCaches.filling (c : CodeCaches) (lvl : Level) (unit line : Nat) : Bool :=
  c.fills.any (fun f => f.lvl = lvl && f.unit = unit && f.line = line)

/-- Ask for a line at a level for generator n: nothing where it is there or on its way, but that an outer level that holds it has used
it (R132). A miss at a level asks the next; a die's I1 asks the front die (R296). (DEDUCED, log 28) -/
def State.askFill (s : State) (n : Nat) (line : Nat) (seq : Bool) (soft : Option Nat) (slot : Option Nat) : List Level → State
  | [] => s
  | lvl :: outer =>
    let unit := codeUnit lvl n
    if s.code.has lvl unit line then (if lvl = .i0 then s else { s with code := s.code.used lvl unit line })
    else if s.code.filling lvl unit line then s
    else
      let s := match slot with | some k => s.countCtx n k (cMiss lvl) 1 | none => s
      let f : Fill := ⟨lvl, unit, line, seq, soft⟩
      let s := { s with code := { s.code with fills := s.code.fills ++ [f] } }
      let s := if lvl = .i1 then s.message (some unit) none else s
      s.askFill n line seq soft slot outer

def levelsFrom : Level → List Level
  | .i0 => [.i0, .i1, .i2]
  | .i1 => [.i1, .i2]
  | .i2 => [.i2]

/-- Whether sequential prefetch may ask for a line: within the module, below its CODESIZE (R134). -/
def State.seqOk (s : State) (m line : Nat) : Bool :=
  lineModule line = m && (match s.module? m with | some x => decide (lineOffset line < x.size) | none => false)

/-- A demand fetch misses I0: the line, and the next SEQDEPTH lines (R134). -/
def State.demand (s : State) (n slot line : Nat) : State :=
  let s := s.askFill n line false none (some slot) (levelsFrom .i0)
  (List.range s.regs.seqDepth.toNat).foldl (fun s k =>
    if s.seqOk (lineModule line) (line + k + 1) then s.askFill n (line + k + 1) true none none (levelsFrom .i0) else s) s

/-- Decode enters a line: it becomes most recent, and a line that sequential prefetch brought asks for another (R134). -/
def State.enterLine (s : State) (n line : Nat) : State :=
  let seq := (s.code.set .i0 n line).any (fun t => t.line = line && t.seq)
  let s := { s with code := s.code.put .i0 n line false }
  if seq && s.regs.seqDepth ≠ 0 && s.seqOk (lineModule line) (line + s.regs.seqDepth.toNat) then
    s.askFill n (line + s.regs.seqDepth.toNat) true none none (levelsFrom .i0)
  else s

/-- IPF and IPFR (R136): n lines from a start address. The distinct lines of a generator's prefetches that are on their way hold the 16
entries of its queue; a line that is already filling takes none. (DESIGN CHOICE, log 72) -/
def State.prefetch (s : State) (gen : Nat) (lvl : Level) (start : W64) (lines : Nat) : State :=
  let m := slice start 43 32
  (List.range lines).foldl (fun s i =>
    let a : W64 := start + BitVec.ofNat 64 (128 * i)
    let line := codeLine a
    let live := match s.module? m with | some x => (x.st = .live || x.st = .draining) && decide (lineOffset line < x.size) | none => false
    if slice a 63 44 ≠ 0 || slice a 43 32 ≠ m || !live || s.code.has lvl (codeUnit lvl gen) line then s
    else if 16 ≤ ((s.code.fills.filter (fun f => f.soft = some gen)).map (fun f => f.line)).eraseDups.length then s
    else
      let s := if lvl = .i2 then s.message (some (dieOf gen)) none else s
      s.askFill gen line false (some gen) none (levelsFrom lvl)) s

/-! ### Fetching (R133, R144) -/

/-- Lines that hold n bytes of code from an address. -/
def codeLines (pc : W64) (n : Nat) : List Nat := (List.range ((pc.toNat + n - 1) / 128 - pc.toNat / 128 + 1)).map (· + codeLine pc)

/-- What a generator does in a cycle: it runs an instruction, or something else has happened. -/
inductive Fetched where
  | run (i : Instr) (s : State)
  | done (s : State)

/-- A slice is open in a cluster cycle (R203). Slices are numbered in RATIO's order. (DESIGN CHOICE, log 15) -/
def State.sliceOpen (s : State) (n sl : Nat) : Bool :=
  let c := s.cluster n
  match slice c.ratio (2 * sl + 1) (2 * sl) with
  | 0 => true
  | 1 => slice c.cycle 1 0 ≠ 3
  | 2 => slice c.cycle 0 0 = 0
  | _ => slice c.cycle 1 0 = 0

/-- A trap of fetch or decode, in whose place the watchdog comes first (R144, R364). -/
def State.fetchTrap (s : State) (n slot : Nat) (c : Ctx) (cls : Nat) : State :=
  if c.count = c.deadline then s.stopCtx n slot none { cls := 0x10, where_ := c.pc, detail := BitVec.ofNat 64 c.deadline }
  else s.stopCtx n slot none { cls := cls, where_ := c.pc, detail := (s.codeWord c.pc).setWidth 64 }

/-- The context of a cluster in ISSUE. -/
def State.issuing (s : State) (n : Nat) : Option (Nat × Ctx) := (s.clusterCtxs n).find? (fun p => p.2.status = .issue)

/-- Fetch and decode the next instruction of the context in ISSUE (R144 steps 1 to 5), once a cycle while the generator slice is
open. A fetch comes from the module of its own program counter, so that a RESUMEd frame whose PC software has moved into another,
DRAINING module is served there: R137 restores it, and R138 lets nothing enter. (DESIGN CHOICE, log 78) -/
def State.fetchGen (s : State) (n : Nat) : Fetched :=
  match s.issuing n with
  | none => .done s
  | some (slot, c) =>
    if c.halted || (s.cluster n).issued || !s.sliceOpen n 0 then .done s
    else
      let s := { s with focus := { s.focus with cl := n, slot := slot } }
      if !s.pcOk c.pc (BitVec.ofNat 12 (pcModule c.pc)) then .done (s.fetchTrap n slot c 0x02)
      else
        let have_ (s : State) (bytes : Nat) : Option State :=
          match (codeLines c.pc bytes).find? (fun l => !s.code.has .i0 n l) with
          | none => none
          | some l => some ((s.demand n slot l).setCluster n { s.cluster n with starved := true })
        match have_ s 4 with
        | some s => .done s
        | none =>
          let w0 := s.codeWord c.pc
          let size := match s.module? (pcModule c.pc) with | some m => m.size | none => 0
          let total := lengthOf w0 + 8 * payloadOf w0
          let fits := decide (pcOffset c.pc + total ≤ size)
          match have_ s (if fits then total else 4) with
          | some s => .done s
          | none =>
            let s := (codeLines c.pc (if fits then total else 4)).foldl (fun s l => s.enterLine n l) s
            match decode (s.codeBytes c.pc 16) with
            | .ok i => if fits then .run i s else .done (s.fetchTrap n slot c 0x02)
            | .error .fields => .done (s.fetchTrap n slot c (if fits then 0x01 else 0x02))
            | .error _ => .done (s.fetchTrap n slot c 0x01)

/-- The lane words of an emission payload: those after the instruction (R130, R145, R177). -/
def State.payload (s : State) (c : Ctx) (i : Instr) (count : Nat) : List W64 :=
  toWords count (s.codeBytes (c.pc + BitVec.ofNat 64 (4 * (encode i).length)) (8 * count))

end Sys2Proof.Machine
end

