-- ==== Sys2Proof/Machine/GenFlow.lean ====
section
/-! DEFINITION. Branches, calls, loops, code prefetch, system registers, YIELD, STEP, TASKEND, TRAP and NOP (R136, R161 to R173). -/

namespace Sys2Proof.Machine

/-! ### Branches, calls and loops -/

def execBr (c : BrCond) (k : BitVec 3) (l : GLit) (s : State) : Host.Outcome State Fault Refusal :=
  s.generator (.br c k l) [] [] fun _ _ x => if condHolds c (x.kv k) then .jump s (relTarget x.pc l) else .retire s

def execBrr (c : BrCond) (k : BitVec 3) (a : BitVec 6) (s : State) : Host.Outcome State Fault Refusal :=
  s.generator (.brr c k a) [a] [] fun _ _ x => if condHolds c (x.kv k) then .jump s ((x.gv a).setWidth 64) else .retire s

/-- The link of a call: the address of the next instruction, zero-extended (R162). -/
def linkOf (x : Ctx) (i : Instr) : W72 := (x.pc + BitVec.ofNat 64 (instrBytes i)).setWidth 72

def execCall (d : BitVec 6) (l : GLit) (s : State) : Host.Outcome State Fault Refusal :=
  s.generator (.call d l) [] [d] fun n slot x => .jump (s.setCtx n slot (x.setG d (linkOf x (.call d l)))) (relTarget x.pc l)

def execCallr (d a : BitVec 6) (s : State) : Host.Outcome State Fault Refusal :=
  s.generator (.callr d a) [a] [d] fun n slot x =>
    .jump (s.setCtx n slot (x.setG d (linkOf x (.callr d a)))) ((x.gv a).setWidth 64)

/-- LOOP (R163): a count of 0 only retires. (DEDUCED, log 40) -/
def execLoop (d : BitVec 6) (l : GLit) (s : State) : Host.Outcome State Fault Refusal :=
  s.generator (.loop d l) [d] [d] fun n slot x =>
    let m := slice (x.gv d) 63 0
    if m = 0 then .retire s
    else
      let s' := s.setCtx n slot (x.setG d (BitVec.ofNat 72 (m - 1)))
      if m = 1 then .retire s' else .jump s' (relTarget x.pc l)

/-! ### Code prefetch (R136) -/

def execIpf (lvl : Level) (m : BitVec 6) (l : GLit) (s : State) : Host.Outcome State Fault Refusal :=
  s.generator (.ipf lvl m l) [] [] fun n _ x => .retire (s.prefetch n lvl (relTarget x.pc l) (m.toNat + 1))

def execIpfr (lvl : Level) (m a : BitVec 6) (s : State) : Host.Outcome State Fault Refusal :=
  s.generator (.ipfr lvl m a) [a] [] fun n _ x => .retire (s.prefetch n lvl ((x.gv a).setWidth 64) (m.toNat + 1))

/-! ### System registers (R166, R167) -/

/-- The value of a context's system register (R114, R167); none for an unassigned number. -/
def State.sysreg (s : State) (n slot : Nat) (x : Ctx) (r : Nat) : Option W64 :=
  let l := s.launchOf x
  let ofL (f : Launch → W64) : W64 := match l with | some y => f y | none => 0
  match r with
  | 0x000 => some s.devshape
  | 0x001 => some (s.cluster n).cycle
  | 0x003 => some (BitVec.ofNat 64 slot)
  | 0x004 => some (ofL (fun y => y.seq))
  | 0x005 => some (x.ring.setWidth 64)
  | 0x006 => some (ofL (fun y => y.part.setWidth 64))
  | 0x007 => some x.entry
  | 0x008 => some (BitVec.ofNat 64 (x.deadline - x.count))
  | 0x009 => some ((s.die (dieOf n)).lclock.setWidth 64)
  | 0x010 => some (BitVec.ofNat 64 (dieOf n))
  | 0x011 => some (ofL (fun y => y.dieset.setWidth 64))
  | 0x012 => some (ofL (fun y => BitVec.ofNat 64 (popcount (dieOf n) y.dieset.toNat)))
  | 0x013 => some (ofL (fun y => y.diegen.setWidth 64))
  | 0x014 => some (BitVec.ofNat 64 (n % 4))
  | 0x015 => some (x.bays.setWidth 64)
  | 0x020 => some x.fready
  | 0x030 => some x.ttag
  | 0x031 => some x.uscratch
  | _ => none

/-- SYSRD (R166). A read of `$fready` reads every slot, and so raises a double resolution left on one (R337). -/
def execSysrd (d : BitVec 6) (l : GLit) (s : State) : Host.Outcome State Fault Refusal :=
  s.generator (.sysrd d l) [] [d] fun n slot x =>
    if l.val = 0x020 && x.slots.any (fun p => p.2.dres) then
      .trap (s.setCtx n slot { x with slots := x.slots.map (fun p => (p.1, { p.2 with dres := false })) }) (whyGen x (.sysrd d l) 0x08 2)
    else
      match s.sysreg n slot x l.val.toNat with
      | some v => .retire (s.setCtx n slot (x.setG d (v.setWidth 72)))
      | none => .trap s (whyGen x (.sysrd d l) 0x01 0)

def execSyswr (a : BitVec 6) (l : GLit) (s : State) : Host.Outcome State Fault Refusal :=
  s.generator (.syswr a l) [a] [] fun n slot x =>
    match l.val.toNat with
    | 0x030 => .retire (s.setCtx n slot { x with ttag := (x.gv a).setWidth 64 })
    | 0x031 => .retire (s.setCtx n slot { x with uscratch := (x.gv a).setWidth 64 })
    | _ => .trap s (whyGen x (.syswr a l) 0x01 0)

/-! ### YIELD, STEP, TASKEND, TRAP, NOP -/

/-- YIELD (R168, R202): a new deadline and a count of 0; a save requested is taken after it retires, and otherwise the generator
turns to another context that is READY. -/
def execYield (l : GLit) (s : State) : Host.Outcome State Fault Refusal :=
  match s.generator (.yield l) [] [] (fun n slot x => .retire (s.setCtx n slot { x with deadline := l.val.toNat })) with
  | .next t =>
    let n := s.focus.cl
    let slot := s.focus.slot
    match t.ctx? n slot with
    | none => .next t
    | some x =>
      if x.stop.isSome then .next t
      else
        let t := if bit x.ttag 63 then t.traceCtx n slot 11 l.val.toNat else t
        let t := t.takeSave n slot
        match t.ctx? n slot with
        | some y =>
          if !y.halted && t.otherReady n slot then .next (t.setReady n slot y) else .next t
        | none => .next t
  | o => o

/-- STEP (R170, R117): a member of a pending change's boundary set waits until the boundary is reached; the one that reaches it goes on, unless
the boundary has withdrawn its own die (R118). -/
def execStep (s : State) : Host.Outcome State Fault Refusal :=
  s.generator .step [] [] fun _ _ x =>
    if x.wait = .stepDone then .retire s
    else
      match (s.launchOf x).bind (fun l => l.change) with
      | none => .retire s
      | some ch =>
        if ch.inStep.contains x.uid then .block s .step
        else if ch.left.contains x.uid then
          let s' := (s.message (some (dieOf s.focus.cl)) none).reached x.launch x.uid true
          let held (t : State) : Bool := match t.launchOf x with | some l => bit l.dieset (dieOf s.focus.cl) | none => false
          let waits : Bool := match s'.launchOf x with | some l => l.change.isSome | none => true
          if waits || (held s && !held s') then .block s' .step else .retire s'
        else .retire s

/-- What SWAIT and TASKEND find first: a double resolution left over, or uncorrectable data that no instruction has met (R271,
R304, R337). -/
def State.leftOver (s : State) (x : Ctx) (i : Instr) : Option Why :=
  if x.slots.any (fun p => p.2.dres) then some (whyGen x i 0x08 2)
  else
    match x.uncorrSlot (BitVec.allOnes 64) with
    | some y => some (whyUncorr x.pc 8 y.addr y.clk)
    | none =>
      match s.accs.find? (fun a => a.uid = x.uid && a.bad) with
      | some a => some (whyUncorr x.pc 0 (match a.parts.head? with | some p => p.va | none => 0) a.clk)
      | none => none

/-- Everything that TASKEND waits for (R171). -/
def State.idleCtx (s : State) (n slot : Nat) (x : Ctx) : Bool :=
  s.allStarted n slot && x.slots.all (fun p => p.2.state ≠ .pending) && s.streamsZero x.uid

/-- TASKEND (R171, R387): with a chamber held it raises the open-chamber fault; else it waits, and then the barge retires: its
bays write back and return, its completion is to be posted, and its slot is FREE. -/
def execTaskend (s : State) : Host.Outcome State Fault Refusal :=
  s.generator .taskend [] [] fun n slot x =>
    if s.holds n x.launch slot then .trap s (whyGen x .taskend 0x11 0)
    else
      match s.leftOver x .taskend with
      | some w => .trap s w
      | none =>
        if !s.idleCtx n slot x then .block s .taskend
        else
          let s := s.setCtx n slot { x with retired := x.retired + 1, counts := countUp x.counts cIssued 1 }
          let s := s.traceCtx n slot 3 (x.retired + 1)
          let s := s.writeBackBays n x false
          let s := s.addPost (x.post n false)
          .gone ((s.endCtx n slot).reap x.launch)

/-- TRAP (R172): the program trap, with its code in the record. -/
def execTrap (l : GLit) (s : State) : Host.Outcome State Fault Refusal :=
  s.generator (.trap l) [] [] fun _ _ x => .trap s { cls := 0x04, where_ := x.pc, detail := BitVec.ofNat 64 (slice l.val 15 0) }

def execNop (s : State) : Host.Outcome State Fault Refusal := s.generator .nop [] [] fun _ _ _ => .retire s

end Sys2Proof.Machine
end

