-- ==== Sys2Proof/Machine/Emission.lean ====
section
/-! DEFINITION. Emission, capture, votes and stream counters: the generator's instructions and the ports (R174 to R196, R299). -/

namespace Sys2Proof.Machine

/-! ### The capture store (R182) -/

def captKey (launch : Nat) (id : BitVec 8) : Nat := launch * 256 + id.toNat

/-- An entry that a saved frame names is protected (R188, R190). -/
def State.framed (s : State) (n key : Nat) : Bool := s.frames.any (fun p => p.2.keys.contains (n, key))

def CapEntry.blocks (e : CapEntry) : Nat := (e.words.length + 63) / 64

/-- Entries of cluster n that a port is reading. -/
def State.reading (s : State) (n : Nat) : List Nat :=
  (s.cluster n).ports.filterMap (fun p =>
    match (s.ctx? n p.2).bind (fun c => c.queue.head?.map (fun o => (c, o))) with
    | some (c, o) => if o.kind = .replay || o.kind = .replayM then some (captKey c.launch o.id) else none
    | none => none)

/-- Evict the least recently used resident entries until the rest fit in a number of blocks. -/
def evictCapt (room : Nat) (keep : List Nat) : Nat → Tab CapEntry → Tab CapEntry
  | 0, t => t
  | fuel + 1, t =>
    let live := t.filter (fun p => p.2.resident)
    if (live.map (fun p => p.2.blocks)).foldl (· + ·) 0 ≤ room then t
    else
      match minBy (fun p : Nat × CapEntry => p.2.used) (live.filter (fun p => !keep.contains p.1)) with
      | none => t
      | some v => evictCapt room keep fuel (tput t v.1 { v.2 with resident := false })

/-- The stretches being recorded in cluster n: each is to be an entry, and holds its blocks of the store (R182). (DEDUCED, log 67) -/
def State.stretches (s : State) (n : Nat) : List Stretch := (s.clusterCtxs n).filterMap (fun p => p.2.stretch)
def Stretch.blocks (x : Stretch) : Nat := (x.words.length + 63) / 64

/-- Keep the store of cluster n to its 2,048 blocks, those of the stretches among them. (DEDUCED, log 67) -/
def State.fitCapt (s : State) (n : Nat) (keep : List Nat) : State :=
  let room := 2048 - ((s.stretches n).map Stretch.blocks).foldl (· + ·) 0
  let c := s.cluster n
  s.setCluster n { c with capt := evictCapt room (keep ++ s.reading n) 257 c.capt }

/-- Make an entry resident, its place in least recent use as it is. -/
def State.loadCapt (s : State) (n key : Nat) (e : CapEntry) : State :=
  let c := s.cluster n
  (s.setCluster n { c with capt := tput c.capt key { e with resident := true } }).fitCapt n [key]

/-- Put an entry in the store, resident and most recently used. (DEDUCED, log 67) -/
def State.putCapt (s : State) (n key : Nat) (e : CapEntry) : State :=
  let c := s.cluster n
  (s.setCluster n { c with captTick := c.captTick + 1 }).loadCapt n key { e with used := c.captTick }

/-! ### EMIT (R177, R178) -/

/-- The slots of an EMIT literal that are in use: hole, word, target. -/
def emitSlots (l : W64) : List (BitVec 3 × Nat × BitVec 3) :=
  (List.range 4).filterMap (fun i =>
    let x := slice l (16 * i + 15) (16 * i)
    if x.testBit 15 then some (BitVec.ofNat 3 (bits x 14 12), bits x 11 6, BitVec.ofNat 3 (bits x 5 3)) else none)

/-- Queue an emission operation: it takes its place in the context's emission order. -/
def queueOp (c : Ctx) (now : Nat) (o : EmitOp) : Ctx := { c with queue := c.queue ++ [{ o with num := c.ops + 1, since := now }], ops := c.ops + 1 }

def blankOp : EmitOp :=
  { kind := .emit, words := [], entryCl := 0, id := 0, gen := 0, snap := [], next := 0, codePc := 0, dest := 0, dieWide := false, num := 0,
    since := 0, targets := none, fetched := false }

def execEmit (m : BitVec 6) (l : GLit) (s : State) : Host.Outcome State Fault Refusal :=
  s.generator (.emit m l) [] [] fun n slot x =>
    let count := m.toNat + 1
    let words := s.payload x (.emit m l) count
    match x.stretch with
    | some st =>
      let items := emitSlots l.val
      let holes := st.holes.map (fun h => h.1) ++ items.map (fun h => h.1)
      if !decide holes.Nodup || decide (8192 < st.words.length + count) then .trap s (whyGen x (.emit m l) 0x05 0)
      else
        let pos := st.words.length
        .retire ((s.setCtx n slot { x with stretch := some { st with words := st.words ++ words,
                                                                     holes := st.holes ++ items.map (fun h => (h.1, pos + h.2.1, h.2.2)) } }).fitCapt n [])
    | none =>
      if l.val ≠ 0 then .trap s (whyGen x (.emit m l) 0x05 0)
      else if 4 ≤ x.queue.length then .block s .queueRoom
      else .retire (s.setCtx n slot (queueOp x s.now { blankOp with words := words, codePc := x.pc }))

/-- The destination set of a multicast, read when the instruction retires; `.DIE` keeps the dies the launch then holds, and `.CL` the die
that the context is then on (R179). (DESIGN CHOICE, log 73) -/
def State.destSet (s : State) (n : Nat) (x : Ctx) (die : Bool) (g : W72) : W72 :=
  let dies : Nat := if die then slice g 15 8 &&& (match s.launchOf x with | some l => l.dieset.toNat | none => 0) else 2 ^ dieOf n
  BitVec.ofNat 72 (slice g 3 0 + dies * 256)

def execEmitM (die : Bool) (m a : BitVec 6) (len : ILen) (s : State) : Host.Outcome State Fault Refusal :=
  s.generator (.emitM die m a len) [a] [] fun n slot x =>
    if x.stretch.isSome then .trap s (whyGen x (.emitM die m a len) 0x05 0)
    else if 4 ≤ x.queue.length then .block s .queueRoom
    else
      let words := s.payload x (.emitM die m a len) (m.toNat + 1)
      .retire (s.setCtx n slot (queueOp x s.now { blankOp with kind := .emitM, words := words, codePc := x.pc, dieWide := die,
                                                               dest := s.destSet n x die (x.gv a) }))

/-! ### Capture (R183 to R188) -/

/-- An operation in the context's own queue reads the entry. -/
def Ctx.readsEntry (x : Ctx) (n : Nat) (id : BitVec 8) : Bool :=
  x.queue.any (fun o => (o.kind = .replay || o.kind = .replayM) && o.id = id && o.entryCl = n)

def litId (l : GLit) : BitVec 8 := BitVec.ofNat 8 l.val.toNat

/-- A capture begins: its generation is one above that of the entry it replaces, and 0 where there is none (R183).
(DESIGN CHOICE, log 66) -/
def execCaptBegin (l : GLit) (s : State) : Host.Outcome State Fault Refusal :=
  s.generator (.captBegin l) [] [] fun n slot x =>
    let key := captKey x.launch (litId l)
    let c := s.cluster n
    let old := tget c.capt key
    if x.stretch.isSome || (old.isNone && decide (256 ≤ c.capt.length + (s.stretches n).length)) || s.framed n key then .trap s (whyGen x (.captBegin l) 0x05 0)
    else if x.readsEntry n (litId l) then .block s (.capture (litId l))
    else
      let gen := match old with | some e => e.gen + 1 | none => 0
      let s := s.setCluster n { c with capt := tdel c.capt key }
      .retire (s.setCtx n slot { x with stretch := some ⟨litId l, gen, [], []⟩ })

def execCaptEnd (s : State) : Host.Outcome State Fault Refusal :=
  s.generator .captEnd [] [] fun n slot x =>
    match x.stretch with
    | none => .trap s (whyGen x .captEnd 0x05 0)
    | some st =>
      if st.words = [] then .trap s (whyGen x .captEnd 0x05 0)
      else
        let e : CapEntry := { words := st.words, holes := st.holes, gen := st.gen, resident := true, used := 0 }
        .retire ((s.setCtx n slot { x with stretch := none }).putCapt n (captKey x.launch st.id) e)

def execCaptDrop (l : GLit) (s : State) : Host.Outcome State Fault Refusal :=
  s.generator (.captDrop l) [] [] fun n slot x =>
    let key := captKey x.launch (litId l)
    match x.stretch with
    | some st =>
      if st.id = litId l then .retire (s.setCtx n slot { x with stretch := none }) else .trap s (whyGen x (.captDrop l) 0x05 0)
    | none =>
      if s.framed n key then .trap s (whyGen x (.captDrop l) 0x05 0)
      else if x.readsEntry n (litId l) then .block s (.capture (litId l))
      else
        let c := s.cluster n
        .retire (s.setCluster n { c with capt := tdel c.capt key })

def execCaptLoad (l : GLit) (s : State) : Host.Outcome State Fault Refusal :=
  s.generator (.captLoad l) [] [] fun n _ x =>
    if x.stretch.isSome then .trap s (whyGen x (.captLoad l) 0x05 0)
    else
      let key := captKey x.launch (litId l)
      match tget (s.cluster n).capt key with
      | some e => .retire (s.loadCapt n key e)
      | none => .retire s

/-- REPLAY and REPLAY.M: the entry with a snapshot of the hole registers (R187). A full queue holds the instruction before it looks for
its entry (R181, R402). -/
def State.replayBody (s : State) (i : Instr) (id : BitVec 8) (o : EmitOp) (n slot : Nat) (x : Ctx) : Gen :=
  if x.stretch.isSome then .trap s (whyGen x i 0x05 0)
  else if 4 ≤ x.queue.length then .block s .queueRoom
  else
    match tget (s.cluster n).capt (captKey x.launch id) with
    | none => .trap s (whyGen x i 0x05 0)
    | some e =>
      let c := s.cluster n
      let s := s.setCluster n { c with capt := tput c.capt (captKey x.launch id) { e with used := c.captTick }, captTick := c.captTick + 1 }
      .retire (s.setCtx n slot (queueOp x s.now { o with entryCl := n, id := id, gen := e.gen, snap := tgets x.h 0 8 0 }))

def execReplay (l : GLit) (s : State) : Host.Outcome State Fault Refusal :=
  s.generator (.replay l) [] [] fun n slot x => s.replayBody (.replay l) (litId l) { blankOp with kind := .replay } n slot x

def execReplayM (die : Bool) (a : BitVec 6) (l : GLit) (s : State) : Host.Outcome State Fault Refusal :=
  s.generator (.replayM die a l) [a] [] fun n slot x =>
    s.replayBody (.replayM die a l) (litId l) { blankOp with kind := .replayM, dieWide := die, dest := s.destSet n x die (x.gv a) } n slot x

def execHset (h : BitVec 3) (a : BitVec 6) (s : State) : Host.Outcome State Fault Refusal :=
  s.generator (.hset h a) [a] [] fun n slot x => .retire (s.setCtx n slot { x with h := tput x.h h.toNat ((x.gv a).setWidth 16) })

/-! ### Votes and stream counters (R192 to R196) -/

def execVrd (d : BitVec 6) (s : State) : Host.Outcome State Fault Refusal :=
  s.generator (.vrd d) [] [d] fun n slot x =>
    match x.votes with
    | v :: vs => if v.readable then .retire (s.setCtx n slot { x.setG d (v.value.setWidth 72) with votes := vs }) else .block s .vote
    | [] => .block s .vote

def execVtest (k : BitVec 3) (s : State) : Host.Outcome State Fault Refusal :=
  s.generator (.vtest k) [] [] fun n slot x =>
    .retire (s.setCtx n slot (x.setK k (match x.votes with | v :: _ => v.readable | [] => false)))

/-- Every stream of a mask stands at n or below. -/
def State.streamsBelow (s : State) (uid : Nat) (mask : BitVec 8) (n : Nat) : Bool :=
  (setBits 8 mask.toNat).all (fun i => decide (s.stream uid i ≤ n))

/-- A wait that stands after step 1 of SWAIT, which is not gone through again (R196, R285). -/
def Wait.started : Wait → Bool
  | .allWritten => true
  | .counters _ _ => true
  | .preds _ _ => true
  | .walk _ => true
  | _ => false

def execSwait (l : GLit) (s : State) : Host.Outcome State Fault Refusal :=
  s.generator (.swait l) [] [] fun n slot x =>
    let mask := BitVec.ofNat 8 l.val.toNat
    let lim := slice l.val 17 8
    match s.leftOver x (.swait l) with
    | some w => .trap s w
    | none =>
      if !x.wait.started && !s.allStarted n slot then .block s .written
      else if !s.streamsBelow x.uid mask lim then .block s (.counters mask lim)
      else .retire s

def execSrd (d : BitVec 6) (m : BitVec 3) (s : State) : Host.Outcome State Fault Refusal :=
  s.generator (.srd d m) [] [d] fun n slot x => .retire (s.setCtx n slot (x.setG d (BitVec.ofNat 72 (s.stream x.uid m.toNat))))

/-! ### The ports (R174, R180, R181, R187, R189, R299) -/

/-- A word with its hole items patched from a snapshot (R178, R187). -/
def patchWord (w : W64) (snap : List (BitVec 16)) (items : List (BitVec 3 × Nat × BitVec 3)) : W64 :=
  items.foldl (fun w it =>
    let x := (snap.getD it.1.toNat 0).toNat
    match it.2.2.toNat with
    | 0 => putBits w 19 10 x
    | 1 => putBits w 29 20 x
    | 2 => putBits w 39 30 x
    | 3 => putBits w 53 44 x
    | 4 => putBits w 42 40 x
    | 5 => putBits w 60 55 x
    | 6 => putBits w 46 44 x
    | _ => putBits w 54 47 x) w

/-- An operation's words and hole table: its own, or its capture entry's; none while the entry is not resident. An entry of
another cluster is read from that cluster's backing area, once it has come (R190). There, from the restore on, nothing protects
it: a replay whose entry is then dropped ends with no further words, and one whose entry is captured again takes the new words,
since R190 names no comparison of generations. (DESIGN CHOICE, log 79) -/
def State.opWords (s : State) (n launch : Nat) (o : EmitOp) : Option (List W64 × List (BitVec 3 × Nat × BitVec 3)) :=
  match o.kind with
  | .emit => some (o.words, [])
  | .emitM => some (o.words, [])
  | _ =>
    match tget (s.cluster o.entryCl).capt (captKey launch o.id) with
    | some e => if (if o.entryCl = n then e.resident else o.fetched) then some (e.words, e.holes) else none
    | none => some ([], [])

def OpKind.multi : OpKind → Bool
  | .emitM => true
  | .replayM => true
  | _ => false

/-- The head operation that a port of cluster n serves, with its context. -/
def State.served (s : State) (n port : Nat) : Option (Nat × Ctx × EmitOp) :=
  match tget (s.cluster n).ports port with
  | none => none
  | some slot =>
    match s.ctx? n slot with
    | none => none
    | some c => c.queue.head?.map (fun o => (slot, c, o))

/-- A multicast by another port has begun to write into a context and has not ended (R180). -/
def State.midMulticast (s : State) (uid n port : Nat) : Bool :=
  (List.range 32).any (fun m => (List.range 2).any (fun q => !(m = n && q = port) &&
    (match s.served m q with
     | some (_, _, o) => decide (0 < o.next) && (match o.targets with | some t => t.contains uid | none => false)
     | none => false)))

/-- The targets that a multicast finds when its port begins it, and how many copies are discarded (R180). -/
def State.multicastTargets (s : State) (launch : Nat) (dest : W72) : List Nat × Nat :=
  let held : Nat := match s.launch? launch with | some l => l.dieset.toNat | none => 0
  let dsts := (setBits 8 (slice dest 15 8)).flatMap (fun d => (setBits 4 (slice dest 3 0)).map (fun c => 4 * d + c))
  let found := dsts.filterMap (fun n =>
    if held.testBit (dieOf n) then ((s.clusterCtxs n).find? (fun p => p.2.launch = launch)).map (fun p => p.2.uid) else none)
  (found, dsts.length - found.length)

/-- A free port takes the head operation of the context whose head has waited longest (R181). -/
def execPortOperationStart (n : BitVec 5) (port : BitVec 1) (s : State) : Host.Outcome State Fault Refusal :=
  let n := n.toNat
  let k := s.cluster n
  if (tget k.ports port.toNat).isSome then .next s
  else
    let cands := (s.clusterCtxs n).filter (fun p => p.2.queue ≠ [] && !p.2.halted && !k.ports.any (fun q => q.2 = p.1))
    match minBy (fun p : Nat × Ctx => match p.2.queue with | o :: _ => o.since * 8 + p.1 | [] => 0) cands with
    | none => .next s
    | some (slot, c) =>
      match c.queue with
      | [] => .next s
      | o :: os =>
        let s := s.setCluster n { k with ports := tput k.ports port.toNat slot }
        if o.kind ≠ .emit && s.canSave n slot then .next (s.takeSave n slot)
        else if o.kind.multi then
          let (ts, lost) := s.multicastTargets c.launch o.dest
          let s := s.setCtx n slot { c with queue := { o with targets := some ts } :: os }
          .next (s.countCtx n slot cDiscard lost)
        else .next s

/-- Whether the slot that an MMA word names lets the port write the word (R299). -/
def slotTakesMma (c : Ctx) (w : W64) : Bool :=
  if slice w 9 0 ≠ 0x240 then true
  else
    let x := c.slot (BitVec.ofNat 6 (slice w 60 55))
    match x.state, x.work with
    | .pending, .mma _ _ => true
    | .pending, _ => false
    | _, _ => true

/-- What a VOTE combines to with no part: 1 for `.all`, all ones for `.first`, else 0 (R228). -/
def voteStart (w : W64) : W64 := if slice w 56 54 = 1 then 1 else if slice w 56 54 = 3 then BitVec.allOnes 64 else 0

/-- Write a word into a context's stream buffers (R174): its emission number; for an MMA word its slot becomes PENDING or is
joined (R299); for a VOTE word an entry (R192). `num` is the number of the emission operation it counts with. -/
def State.writeWord (s : State) (key num : Nat) (w : W64) : State :=
  let n := key / 8
  let slot := key % 8
  match s.ctx? n slot with
  | none => s
  | some c =>
    let cores := s.liveCores n slot
    let e := c.nextE
    let c := { c with nextE := e + 1 }
    let c := if slice w 9 0 = 0x240 then
        let f := BitVec.ofNat 6 (slice w 60 55)
        let x := c.slot f
        let (parts, failed) := match x.state, x.work with | .pending, .mma p b => (p, b) | _, _ => (0, false)
        c.setSlot f { x with state := .pending, op := 0x240, code := 0, kind := 0, addr := 0, target := none,
                             work := .mma (parts + cores.length) failed, stream := BitVec.ofNat 3 (slice w 46 44), scope := .bay }
      else c
    let c := if slice w 9 0 = 0x4B then
        { c with votes := c.votes ++ [⟨e, (s.cluster n).gcycle, cores.map (fun p => p.1), voteStart w, false, false⟩] }
      else c
    let s := s.setCtx n slot c
    cores.foldl (fun s p => s.modCore n p.1 (fun x => { x with buf := x.buf ++ [⟨e, w, num⟩] })) s

/-- Every core of a context has a free entry in its buffer, the slot of an MMA word is free for it, and no multicast is half
written into the context. -/
def State.takesWord (s : State) (key n port : Nat) (w : W64) : Bool :=
  (match s.ctx? (key / 8) (key % 8) with
   | none => true
   | some c => slotTakesMma c w && !s.midMulticast c.uid n port) &&
  (s.liveCores (key / 8) (key % 8)).all (fun p => decide (p.2.buf.length < 512))

/-- A port writes the next word of its operation, one a generator cycle; after the last the operation ends (R174, R180, R181,
R187). Between the words of a unicast replay, and after its last and after a multicast's, a requested save is taken, whether the port
could write or not (R189). -/
def execPortWordWrite (n : BitVec 5) (port : BitVec 1) (s : State) : Host.Outcome State Fault Refusal :=
  let n := n.toNat
  let k := s.cluster n
  match s.served n port.toNat with
  | none => .next { s with clusters := tput s.clusters n { k with ports := tdel k.ports port.toNat } }
  | some (slot, c, o) =>
    if o.kind = .replay && s.canSave n slot then .next (s.takeSave n slot)
    else if bit k.wrote port.toNat || !s.sliceOpen n 0 then .next s
    else
      if c.halted && !c.sending then .next s
      else
        match s.opWords n c.launch o with
        | none => .next s
        | some (words, holes) =>
          let own := ctxKey n slot
          let keyOf (u : Nat) : Option Nat := (s.ctxByUid u).map (fun p => ctxKey p.1 p.2.1)
          let targets := if o.kind.multi then (o.targets.getD []).filterMap keyOf else [own]
          let w := patchWord (words.getD o.next 0) o.snap (holes.filter (fun h => h.2.1 = o.next))
          let ends (s : State) (next : Nat) : State :=
            if words.length ≤ next then
              let s := s.modCtx n slot (fun c => { c with queue := (c.queue.drop 1).map (fun q => { q with since := s.now }) })
              s.setCluster n { s.cluster n with ports := tdel (s.cluster n).ports port.toNat }
            else s.modCtx n slot (fun c => { c with queue := match c.queue with
                | q :: qs => { q with next := next } :: qs
                | [] => [] })
          if words.length ≤ o.next then .next (ends s o.next)
          else if !targets.all (fun t => s.takesWord t n port.toNat w) then .next s
          else
            let num (t : Nat) : Nat := if o.kind.multi && t != own then (match tget s.ctxs t with | some c => c.ops | none => 0) else o.num
            let s := targets.foldl (fun s t => s.writeWord t (num t) w) s
            let far := ((targets.map (fun t => dieOf (t / 8))).eraseDups).filter (· != dieOf n)
            let s := far.foldl (fun s d => s.message (some (dieOf n)) (some d)) s
            let s := s.countCtx n slot (if o.kind = .emit || o.kind = .emitM then cEmitWords else cReplayWords) 1
            let s := s.setCluster n { s.cluster n with wrote := putBit (s.cluster n).wrote port.toNat true }
            let s := ends s (o.next + 1)
            .next (if o.kind = .replay || (o.kind.multi && words.length ≤ o.next + 1) then s.takeSave n slot else s)

/-- The stack whose base die holds the capture-store backing area of cluster n (R17). -/
def backingStack (n : Nat) : Nat := 3 * (n / 8) + n % 3

/-- A context's replay, at the head of its queue with a port, waits for its entry's words (R187, R190). -/
def State.readsBack (s : State) (n slot : Nat) : Bool :=
  match s.ctx? n slot with
  | none => false
  | some c =>
    match c.queue with
    | [] => false
    | op :: _ => (op.kind = .replay || op.kind = .replayM) && (s.opWords n c.launch op).isNone && (s.cluster n).ports.any (fun p => p.2 = slot)

/-- A replay's entry comes back from the backing area of the cluster that it is of (R187, R190); one of another cluster does not enter
this one's store. The stack's storage answers as for any read; the backing area has no address, so its record's LOC is 0.
(DESIGN CHOICE, log 58) -/
def execReplayReadback (n : BitVec 5) (slot : Tried (BitVec 3)) (s : State) : Host.Outcome State Fault Refusal :=
  let n := n.toNat
  let o := slot.how
  let slot := slot.what.toNat
  match s.ctx? n slot with
  | none => .next s
  | some c =>
    match c.queue with
    | [] => .next s
    | op :: ops =>
      let key := captKey c.launch op.id
      match tget (s.cluster op.entryCl).capt key with
      | none => .next s
      | some e =>
        if !s.readsBack n slot then .next s
        else
          let die := dieOf n
          let stack := backingStack op.entryCl
          let clk := s.lclock (some die)
          let rec_ (kind : Nat) : State := s.errorRecord 1 kind (some die) 0 stack (s.seqOf c)
          let come (s : State) : State :=
            if op.entryCl = n then s.putCapt n key e
            else (if stack / 3 ≠ die / 2 then s.exchange die else s).setCtx n slot { c with queue := { op with fetched := true } :: ops }
          match o with
          | .ok => .next (come s)
          | .corrected => .next (come (rec_ 0))
          | .transient => .next (come (rec_ 1))
          | .lasting => .next ((rec_ 2).stopCtx n slot none (whyUncorr c.pc 0 0 clk))
          | .linkFailed =>
            .next ((s.errorRecord 5 2 (some die) 0 die 0).stopCtx n slot none { cls := 0x31, retried := true, where_ := c.pc, clk := some clk })

/-- Vote entries reserved in a cluster (R192). -/
def State.votesHeld (s : State) (n : Nat) : Nat :=
  ((s.clusterCtxs n).map (fun p => (p.2.votes.filter (fun v => v.reserved)).length)).foldl (· + ·) 0

/-- Entries that no core has still to execute take a free place in the queue. -/
def reserveIdle : Nat → List VoteEnt → List VoteEnt
  | _, [] => []
  | room, v :: vs =>
    if v.needs = [] && !v.reserved && decide (0 < room) then { v with reserved := true } :: reserveIdle (room - 1) vs else v :: reserveIdle room vs

/-- Combined entries whose word was written 24 generator cycles ago, or earlier, become readable (R193). -/
def execVoteReady (n : BitVec 5) (slot : BitVec 3) (s : State) : Host.Outcome State Fault Refusal :=
  let t := (s.cluster n.toNat).gcycle
  let room := 16 - s.votesHeld n.toNat
  let ripe (v : VoteEnt) : VoteEnt := if v.needs = [] && v.reserved && decide (v.written + 24 ≤ t) then { v with readable := true } else v
  .next (s.modCtx n.toNat slot.toNat (fun c => { c with votes := (reserveIdle room c.votes).map ripe }))

end Sys2Proof.Machine
end

