-- ==== Sys2Proof/Machine/GenMem.lean ====
section
/-! DEFINITION. The generator's loads, stores and atomics, and what every generator memory instruction does before its effect
(R269 to R271, R285, R286, R332). -/

namespace Sys2Proof.Machine

/-- The record of a failed link that a generator instruction met (R295, R383). -/
def whyLink (pc : W64) (addr : W72) (clk : BitVec 48) : Why := { cls := 0x31, retried := true, where_ := pc, addr := addr, clk := some clk }

/-- The memory trap of a generator instruction (R271): a translation kind, or ALIGN; a table behind a failed link is a failed link
(R383), and a table entry that the retry could not read is RETRIED, with its error record's LCLOCK (R382, R426). -/
def whyMem (x : Ctx) (i : Instr) (va : W72) (k : Kind) (clk : BitVec 48) : Why :=
  if k = kLink then whyLink x.pc va clk
  else { whyGen x i 0x03 0 with addr := va, xkind := k.toNat, retried := k = kTableErr, clk := if k = kTableErr then some clk else none }

def Ctx.key (x : Ctx) : Key := ⟨x.ops, 1, x.genSeq⟩

/-- What comes first: a stream that stands at 1,023, and with a nonzero mask step 1 of SWAIT, hold the instruction (R285, R286). -/
def State.memWait (s : State) (n slot : Nat) (x : Ctx) (ann : Ann) : Option Wait :=
  if ann.pm ≠ 0 && !x.wait.started && !s.allStarted n slot then some .written
  else if 1023 ≤ s.stream x.uid ann.os.toNat then some (.counters (putBit 0 ann.os.toNat true) 1022)
  else none

/-- Then the address: alignment, then translation, which may wait for a walk (R271). -/
def State.memAddr (s : State) (i : Instr) (n : Nat) (x : Ctx) (va : W72) (align : Nat) (write : Bool) (k : State → Place → Gen) : Gen :=
  if va.toNat % align ≠ 0 then .trap s (whyMem x i va kAlign 0)
  else
    let clk := s.walkClk (dieOf n) x.ring va
    match s.xlate n x.ring va write (userOf x.uid 0) with
    | (.fail e, s) => .trap s (whyMem x i va e clk)
    | (.wait v, s) => .block s (.walk [v])
    | (.place p, s) => k s p

def mtySize : MTy → Nat
  | .i64 => 8
  | .n64 => 8
  | .i32 => 4
  | .n32 => 4
  | .a72 => 16
  | .i16 => 2
  | .n16 => 2
  | .i8 => 1
  | .n8 => 1

/-- The address of a generator memory instruction (R270). -/
def memVa (x : Ctx) (a : BitVec 6) (m : MX) : W72 := x.gv a + m.off.signExtend 72

/-- Start the access of LD, ST, ATOM or CAS: it retires, and its register, if it has one, is the target of the access until it
is performed (R271, R285). -/
def State.genAccess (s : State) (i : Instr) (n slot : Nat) (x : Ctx) (va : W72) (size : Nat) (ann : Ann) (op : AccOp) (dest : Option (MTy × BitVec 6))
    (data cmp : BitVec 128) : Gen :=
  match s.memWait n slot x ann with
  | some w => .block s w
  | none =>
    s.memAddr i n x va size (op ≠ .load) fun s p =>
      let part : Part := { lane := 0, reg := 0, elem := 0, va := va, pa := p.pa, size := size, ord := p.ord, hint := p.hint, data := data,
                           cmp := cmp, done := false, acked := false, lost := false }
      let id := s.nextId
      let s := s.startAccess (fun id =>
        { id := id, cl := n, slot := slot, uid := x.uid, agent := .gen, stream := ann.os, pm := ann.pm, scope := ann.sc, key := x.key, op := op,
          dest := (match dest with | some (t, d) => .gen t d | none => .none), parts := [part], where_ := x.pc, word := ((encode i).headD 0).setWidth 64, done := false, bad := false, clk := 0 })
      let x := { x with genSeq := x.genSeq + 1 }
      let x := match dest with | some (_, d) => { x with gt := tput x.gt d.toNat (.access id) } | none => x
      .retire (s.setCtx n slot x)

def execLd (t : MTy) (d a : BitVec 6) (m : MX) (s : State) : Host.Outcome State Fault Refusal :=
  s.generator (.ld t d a m) [a] [d] fun n slot x =>
    s.genAccess (.ld t d a m) n slot x (memVa x a m) (mtySize t) m.ann .load (some (t, d)) 0 0

def execSt (t : MTy) (g a : BitVec 6) (m : MX) (s : State) : Host.Outcome State Fault Refusal :=
  s.generator (.st t g a m) [g, a] [] fun n slot x =>
    s.genAccess (.st t g a m) n slot x (memVa x a m) (mtySize t) m.ann .store none ((x.gv g).setWidth 128) 0

/-- ATOM and CAS write their old value zero-extended (R270). -/
def oldTy (narrow : Bool) : MTy := if narrow then .n32 else .n64

def execAtom (narrow : Bool) (op : GAtom) (d a g : BitVec 6) (m : MX) (s : State) : Host.Outcome State Fault Refusal :=
  s.generator (.atom narrow op d a g m) [a, g] [d] fun n slot x =>
    s.genAccess (.atom narrow op d a g m) n slot x (memVa x a m) (mtySize (oldTy narrow)) m.ann (.atom op) (some (oldTy narrow, d))
      ((x.gv g).setWidth 128) 0

def execCas (narrow : Bool) (d a g : BitVec 6) (m : MX) (s : State) : Host.Outcome State Fault Refusal :=
  s.generator (.cas narrow d a g m) [a, g, d] [d] fun n slot x =>
    s.genAccess (.cas narrow d a g m) n slot x (memVa x a m) (mtySize (oldTy narrow)) m.ann .cas (some (oldTy narrow, d))
      ((x.gv g).setWidth 128) ((x.gv d).setWidth 128)

/-- The context with its monitor as carrying has left it, which may have fired it. -/
def State.monitored (s : State) (n slot : Nat) (x : Ctx) : Ctx :=
  { x with monitor := match s.ctx? n slot with | some y => y.monitor | none => x.monitor }

/-- The same with its place in emission order taken. -/
def State.afterCarry (s : State) (n slot : Nat) (x : Ctx) : Ctx := { s.monitored n slot x with genSeq := x.genSeq + 1 }

/-- A generator instruction acts at a place itself: it faults where a link to it has failed or its bytes are bad (R271, R295, R383),
and else it sends its request and hears the reply (R296). -/
def State.atHome (s : State) (n : Nat) (x : Ctx) (va : W72) (pa size : Nat) (k : State → Gen) : Gen :=
  let die := dieOf n
  let clk := s.lclock (some die)
  if !s.linkOpen pa then .trap (s.storageError .linkFailed pa (some die) (s.seqOf x)) (whyLink x.pc va clk)
  else if s.badAt pa size then .trap (s.storageError .lasting (s.badPlace pa size pa) (some die) (s.seqOf x)) (whyUncorr x.pc 0 va clk)
  else k (s.reach die pa)

/-- What comes before the effect of an instruction of R332: its predecessors at its scope (R283), and with an address the orders that
hold there without a mask (R287, R288). -/
def State.syncReady (s : State) (n slot : Nat) (x : Ctx) (ann : Ann) (place : Option (Nat × Nat × BitVec 2)) : Bool :=
  match place with
  | none => s.predsDone n slot x.uid .gen x.key ann.pm ann.sc true
  | some (pa, size, ord) =>
    s.predsDone n slot x.uid .gen x.key ann.pm (effScope pa ann.sc) true && s.ownOrder x.uid .gen x.key (placePart pa size ord)

/-- What an instruction of R332 must first carry to host memory is held by a failed link: it faults with LINK (R295, R408).
(DEDUCED, log 33) -/
def State.carried (s : State) (n : Nat) (x : Ctx) (va : W72) (ann : Ann) (sc : Scope) (strong : Bool) (k : State → Gen) : Gen :=
  match s.cutCarry x.uid .gen x.key ann.pm sc strong with
  | some pa => .trap (s.storageError .linkFailed pa (some (dieOf n)) (s.seqOf x)) (whyLink x.pc va (s.lclock (some (dieOf n))))
  | none => k s

/-- The instructions of R332: their own effect, `k`, comes after what syncReady asks for, and they stay BLOCKED until then; narrower
stores that the mask names are carried first (R283). -/
def State.syncOp (s : State) (i : Instr) (n slot : Nat) (x : Ctx) (ann : Ann) (va : W72) (align : Nat) (write : Bool)
    (k : State → Ctx → Place → Gen) : Gen :=
  match s.memWait n slot x ann with
  | some w => .block s w
  | none =>
    s.memAddr i n x va align write fun s p =>
      let place := some (p.pa, align, p.ord)
      if !s.syncReady n slot x ann place then .block s (.preds ann place)
      else
        s.atHome n x va p.pa align fun s =>
          s.carried n x va ann (effScope p.pa ann.sc) (p.ord = 0) fun s =>
          let s := s.carryFor x.uid .gen x.key ann.pm ann.sc (placePart p.pa align p.ord)
          let x := s.afterCarry n slot x
          k (s.setCtx n slot x) x p

/-- The same for an instruction that names no address: a flight step. -/
def State.syncStep (s : State) (n slot : Nat) (x : Ctx) (ann : Ann) (k : State → Ctx → Gen) : Gen :=
  match s.memWait n slot x ann with
  | some w => .block s w
  | none =>
    if !s.syncReady n slot x ann none then .block s (.preds ann none)
    else
      s.carried n x 0 ann ann.sc false fun s =>
      let s := s.carry x.uid .gen x.key ann.pm ann.sc
      let x := s.afterCarry n slot x
      k (s.setCtx n slot x) x

end Sys2Proof.Machine
end

