-- ==== Sys2Proof/Machine/Futures.lean ====
section
/-! DEFINITION. Future slots, state words, and the pushing of barges by the generator (R298 to R304, R334 to R347). -/

namespace Sys2Proof.Machine

/-! ### Waiting, testing, cancelling (R302 to R304) -/

/-- A deferred double resolution, or uncorrectable data, on one of the slots of a mask (R304, R337). -/
def slotFault (x : Ctx) (i : Instr) (m : W64) : Option Why :=
  if x.slots.any (fun p => p.2.dres && m.toNat.testBit p.1) then some (whyGen x i 0x08 2)
  else (x.uncorrSlot m).map (fun y => whyUncorr x.pc 8 y.addr y.clk)

/-- The fault left on a slot that an instruction has waited for (R304, R337). -/
def waitedFault (x : Ctx) (i : Instr) (f : BitVec 6) : Option Why :=
  if x.wait = .slot f then slotFault x i (BitVec.ofNat 64 (2 ^ f.toNat)) else none

/-- Its fault reported, a deferred double resolution is over. -/
def clearDres (x : Ctx) (m : W64) : Ctx :=
  { x with slots := x.slots.map (fun p => if m.toNat.testBit p.1 then (p.1, { p.2 with dres := false }) else p) }

/-- The lowest set bit of a mask, 64 where it has none. -/
def lowestBit (m : W64) : Nat := ((setBits 64 m.toNat).head?).getD 64

/-- Slots of a mask in some of the given states. -/
def slotsIn (x : Ctx) (m : W64) (sts : List SlotState) : W64 :=
  BitVec.ofNat 64 (((setBits 64 m.toNat).filter (fun f => sts.contains (x.slot (BitVec.ofNat 6 f)).state)).foldl (fun a f => a + 2 ^ f) 0)

/-- FWAIT: read the mask; a fault left on its slots comes first; then wait, or answer. -/
def State.fwait (s : State) (i : Instr) (d a : BitVec 6) (w : W64 → Wait) (answer : Ctx → W64 → Option W64) : Host.Outcome State Fault Refusal :=
  s.generator i [a] [d] fun n slot x =>
    let m : W64 := (x.gv a).setWidth 64
    match slotFault x i m with
    | some e => .trap (s.setCtx n slot (clearDres x m)) e
    | none =>
      match answer x m with
      | some v => .retire (s.setCtx n slot (x.setG d (v.setWidth 72)))
      | none => .block s (w m)

/-- What each FWAIT answers, where it need not wait (R302). -/
def anyAnswer (x : Ctx) (m : W64) : Option W64 :=
  if m = 0 then some 64 else if m &&& x.fready ≠ 0 then some (BitVec.ofNat 64 (lowestBit (m &&& x.fready))) else none
def allAnswer (x : Ctx) (m : W64) : Option W64 :=
  if m &&& ~~~x.fready = 0 then some (slotsIn x m [.error, .cancelled]) else none
def ffrAnswer (x : Ctx) (m : W64) : Option W64 :=
  let failed := slotsIn x m [.error]
  if m &&& ~~~x.fready = 0 ∨ failed ≠ 0 then some (BitVec.ofNat 64 (lowestBit failed)) else none

def execFwaitAny (d a : BitVec 6) (s : State) : Host.Outcome State Fault Refusal := s.fwait (.fwaitAny d a) d a .fany anyAnswer
def execFwaitAll (d a : BitVec 6) (s : State) : Host.Outcome State Fault Refusal := s.fwait (.fwaitAll d a) d a .fall allAnswer
def execFwaitFfr (d a : BitVec 6) (s : State) : Host.Outcome State Fault Refusal := s.fwait (.fwaitFfr d a) d a .fffr ffrAnswer

/-- The mask of one slot. -/
def slotMask (f : BitVec 6) : W64 := BitVec.ofNat 64 (2 ^ f.toNat)

def execFtest (d f : BitVec 6) (s : State) : Host.Outcome State Fault Refusal :=
  s.generator (.ftest d f) [] [d] fun n slot x =>
    if (x.slot f).dres then .trap (s.setCtx n slot (clearDres x (slotMask f))) (whyGen x (.ftest d f) 0x08 2)
    else .retire (s.setCtx n slot (x.setG d ((x.slot f).status.setWidth 72)))

/-- The address that ended a slot with XLATE or UNCORR; else 0 (R302). -/
def execFtestAddr (d f : BitVec 6) (s : State) : Host.Outcome State Fault Refusal :=
  s.generator (.ftestAddr d f) [] [d] fun n slot x =>
    let y := x.slot f
    if y.dres then .trap (s.setCtx n slot (clearDres x (slotMask f))) (whyGen x (.ftestAddr d f) 0x08 2)
    else .retire (s.setCtx n slot (x.setG d (if y.state = .error && (y.code = 3 || y.code = 8) then y.addr else 0)))

/-- FCANCEL (R303, R338): a command stops at an element boundary, and its slot ends CANCELLED; an FLOAD slot is detached; a slot
that is not PENDING, or an MMA slot, stays as it is. -/
def State.fcancel (s : State) (n slot : Nat) (f : BitVec 6) : State :=
  match s.ctx? n slot with
  | none => s
  | some c =>
    let x := c.slot f
    if x.state ≠ .pending then s
    else
      match x.work with
      | .command id => { s with cmds := s.cmds.map (fun y => if y.id = id && !y.ended then { y with cancel := true, ended := true } else y) }
      | .join _ _ => s.resolveSlot n slot f .cancelled 0 0 0 0 false
      | .joined _ _ _ => s.resolveSlot n slot f .cancelled 0 0 0 0 false
      | _ => s

def execFcancel (f : BitVec 6) (s : State) : Host.Outcome State Fault Refusal :=
  s.generator (.fcancel f) [] [] fun n slot _ => .retire (s.fcancel n slot f)

/-! ### State words (R335 to R341) -/

/-- FSTORE (R337). Of a slot that is not PENDING it reads the state and the code, and so raises a double resolution left on it.
(DEDUCED, log 25) -/
def execFstore (f a : BitVec 6) (y : SX) (s : State) : Host.Outcome State Fault Refusal :=
  s.generator (.fstore f a y) [a] [] fun n slot x =>
    if (x.slot f).dres && (x.slot f).state ≠ .pending then
      .trap (s.setCtx n slot (clearDres x (slotMask f))) (whyGen x (.fstore f a y) 0x08 2)
    else
    s.syncOp (.fstore f a y) n slot x y.ann (x.gv a) 16 true fun s x p =>
      let w := s.readSW p.pa
      let sl := x.slot f
      if w.over_ then .trap s (whyGen x (.fstore f a y) 0x08 1)
      else if sl.link.isSome || sl.defer.isSome then .trap s (whyGen x (.fstore f a y) 0x09 2)
      else
        let s := if w.st = 0 then s.writeSW y.ann.sc p.pa p.hint { w with w0 := putBits (putBits w.w0 1 0 1) 7 5 1 } else s
        if sl.state = .pending then .retire (s.modCtx n slot (fun z => z.setSlot f { sl with link := some (x.gv a, y.ann) }))
        else
          match s.resolveAt x.launch (dieOf n) y.ann.sc (x.gv a) p sl.value (sl.state = .error) sl.code (sl.state = .cancelled) with
          | some s => .retire s
          | none => .trap s (whyGen x (.fstore f a y) 0x08 1)

/-- FLOAD (R338): the slot joins on the word, or leaves PENDING at once. It reads the word after the context's own earlier accesses to
it (R287, R288); and a fault left on a slot that it has waited for comes first (R304, R337). -/
def execFload (tv : Bool) (f a gt : BitVec 6) (len : ILen) (s : State) : Host.Outcome State Fault Refusal :=
  s.generator (.fload tv f a gt len) [a] (if tv then [gt] else []) fun n slot x =>
    if (x.slot f).state = .pending then .block s (.slot f)
    else
      match waitedFault x (.fload tv f a gt len) f with
      | some e => .trap (s.setCtx n slot (clearDres x (slotMask f))) e
      | none =>
        s.memAddr (.fload tv f a gt len) n x (x.gv a) 16 false fun s p =>
          if !s.ownOrder x.uid .gen x.key (placePart p.pa 16 p.ord) then .block s (.preds { os := 0, pm := 0, sc := .device } (some (p.pa, 16, p.ord)))
          else
            s.atHome n x (x.gv a) p.pa 16 fun s =>
              let s := if p.ord = 0 then s.carryStrong x.uid .gen x.key .device else s
              let w := s.readSW p.pa
              let sl : Slot := { Slot.reset with state := .pending, op := 0x56, work := .join (x.gv a) p.pa, target := if tv then some gt else none,
                                                 scope := .device, dres := (x.slot f).dres, uncorr := (x.slot f).uncorr,
                                                 addr := (x.slot f).addr, clk := (x.slot f).clk }
              let x := (s.monitored n slot x).setSlot f sl
              let x := if tv then { x with gt := tput x.gt gt.toNat (.slot f) } else x
              let s := s.setCtx n slot x
              if w.over_ then
                match w.joined with
                | .joined st code v => .retire (s.resolveSlot n slot f st code 0 0 v false)
                | _ => .retire s
              else .retire s

/-- What a pushed barge counts against, by the mode of the barge that pushes or registers it (R339, R345). -/
inductive Stamp where
  | none
  | tree (succ : W72)
  | job (jcb : W72)
  deriving DecidableEq, Repr

/-- What a barge's image holds where FREG and SPAWN stamp it (R44). (DEDUCED, log 25) -/
def stampOf (b : List W64) : Stamp :=
  match (bargeMode b).toNat with
  | 0 => .none
  | 1 => .tree (bargeSucc b)
  | _ => .job (bargeSucc b)

/-- The limit on EXPECTED (R105). -/
def expectedMax : Nat := 2 ^ 48 - 1

/-- Take k job-mode pushes from credit, then from EXPECTED; none past the limit (R105, R343, R345). -/
def State.takeCredit (s : State) (n slot : Nat) (x : Ctx) (k : Nat) : Option State :=
  let used := min k x.credit
  let rise := k - used
  match s.launchOf x with
  | none => none
  | some l =>
    if expectedMax < l.expected + rise then none
    else some ((s.modLaunch x.launch (fun l => { l with expected := l.expected + rise })).setCtx n slot { x with credit := x.credit - used })

/-- FREG (R339): take what the barge will count against, stamp it, check it, and register it; or give back what was taken, as where the
barge cannot be read. A barge in a STRONG page comes after the context's earlier accesses to such pages, carried to the scope (R288).
(DEDUCED, log 19) -/
def execFreg (a b c : BitVec 6) (y : SX) (s : State) : Host.Outcome State Fault Refusal :=
  s.generator (.freg a b c y) [a, b, c] [] fun n slot x =>
    let i := Instr.freg a b c y
    let va := x.gv a
    let vb := x.gv b
    let gc : W64 := (x.gv c).setWidth 64
    s.syncOp i n slot x y.ann va 16 true fun s x p =>
      let before := s
      let stamp := stampOf x.barge
      let fault (s : State) (r : Nat) : Gen := .trap s (whyGen x i 0x07 r)
      if vb.toNat % 64 ≠ 0 || slice vb 71 54 ≠ slice va 71 54 then fault s 2
      else
        let taken : Option State := match stamp with
          | .none => if gc = 0 then some s else none
          | .tree _ => if gc ≠ 0 && decide (gc.toNat < x.held.toNat) then some (s.setCtx n slot { x with held := x.held - gc }) else none
          | .job _ => s.takeCredit n slot x 1
        match taken with
        | none => fault s 3
        | some s =>
          let clk := s.walkClk (dieOf n) x.ring vb
          match s.xlate n x.ring vb true (userOf x.uid 0) with
          | (.fail e, _) => .trap before (whyMem x i vb e clk)
          | (.wait v, t) => .block { before with walks := t.walks } (.walk [v])
          | (.place q, s) =>
            if !s.ownOrder x.uid .gen x.key (placePart q.pa 64 q.ord) then .block before (.preds y.ann (some (q.pa, 64, q.ord)))
            else
              before.atHome n x vb q.pa 64 fun _ =>
              before.carried n x vb y.ann (effScope q.pa y.ann.sc) (q.ord = 0) fun _ =>
                let s := s.reach (dieOf n) q.pa
                let s := if q.ord = 0 then s.carryStrong x.uid .gen x.key (effScope q.pa y.ann.sc) else s
                let image := toWords 8 (s.homeBytes q.pa 64)
                let image := match stamp with
                  | .none => stampBarge image 0 0 0
                  | .tree succ => stampBarge image 1 succ gc
                  | .job jcb => stampBarge image 2 jcb 0
                let write (s : State) (j : Nat) : State := s.homeWrite (q.pa + 8 * j) 8 (wordAt image j).toNat q.hint
                let s := [0, 2, 4, 5].foldl write s
                /- what the failure of a registration gives back -/
                let back (s : State) : State := match stamp with
                  | .tree _ => s.modCtx n slot (fun z => { z with held := z.held + gc })
                  | .job _ => s.modCtx n slot (fun z => { z with credit := z.credit + 1 })
                  | .none => s
                if !s.bargeOk (s.partition x) image then fault (back s) 4
                else
                  let w := s.readSW p.pa
                  if bit w.w0 3 then fault (back s) 1
                  else
                    let w0 := putBits (putBit w.w0 3 true) 55 8 (slice vb 53 6)
                    let w' : SWPair := ⟨if w.over_ then putBit w0 4 true else w0, w.w1⟩
                    let s := s.writeSW y.ann.sc p.pa p.hint w'
                    .retire (if w.over_ then s.pushCont x.launch (dieOf n) vb else s)

def execFsetInit (m : BitVec 3) (a : BitVec 6) (y : SX) (s : State) : Host.Outcome State Fault Refusal :=
  s.generator (.fsetInit m a y) [a] [] fun n slot x =>
    s.syncOp (.fsetInit m a y) n slot x y.ann (x.gv a) 16 true fun s x p =>
      if (s.readSW p.pa).st = 1 then .trap s (whyGen x (.fsetInit m a y) 0x09 1)
      else .retire (s.writeSW y.ann.sc p.pa p.hint ⟨BitVec.ofNat 64 (m.toNat * 32 + 1), 0⟩)

/-- FSET.RES and FSET.CAN: one resolution (R335, R336). -/
def State.fset (s : State) (i : Instr) (a : BitVec 6) (reads : List (BitVec 6)) (y : SX) (val : Ctx → W64) (cancel : Bool) :
    Host.Outcome State Fault Refusal :=
  s.generator i reads [] fun n slot x =>
    s.syncOp i n slot x y.ann (x.gv a) 16 true fun s x p =>
      match s.resolveAt x.launch (dieOf n) y.ann.sc (x.gv a) p (val x) false 0 cancel with
      | some s => .retire s
      | none => .trap s (whyGen x i 0x08 1)

def execFsetRes (a b : BitVec 6) (y : SX) (s : State) : Host.Outcome State Fault Refusal :=
  s.fset (.fsetRes a b y) a [a, b] y (fun x => (x.gv b).setWidth 64) false

def execFsetCan (a : BitVec 6) (y : SX) (s : State) : Host.Outcome State Fault Refusal := s.fset (.fsetCan a y) a [a] y (fun _ => 0) true

/-! ### SPAWN, JRAISE, BQUERY (R343 to R346) -/

/-- Push barges in order, all or none; the fault's reason where one is refused (R345, R346). -/
def State.pushAll (s : State) (launch die prio : Nat) (part : W32) : List (List W64) → Except Nat State
  | [] => .ok s
  | b :: bs =>
    if !s.bargeOk part b then .error 2
    else
      match s.push launch b prio (some die) with
      | none => .error 4
      | some s => s.pushAll launch die prio part bs

/-- The three SPAWNs: `list` gives the values of i, `root` keeps the image's own stamp (R345). -/
def State.spawn (s : State) (i : Instr) (reads : List (BitVec 6)) (a : BitVec 6) (m : MX) (list : Ctx → Option (List Nat)) (root : Bool) :
    Host.Outcome State Fault Refusal :=
  s.generator i reads [] fun n slot x =>
    let va := x.gv a
    let fault (s : State) (r : Nat) : Gen := .trap s (whyGen x i 0x06 r)
    if va.toNat % 64 ≠ 0 then fault s 1
    else
      s.syncOp i n slot x m.ann va 64 false fun s x p =>
        match s.launchOf x, list x with
        | none, _ => .retire s
        | some _, some [] => .retire s
        | some l, ls =>
          let w := m.off
          let (data, s) := s.readAt n none m.ann.sc p.pa 64 p.hint
          let image := toWords 8 (toBytes 64 data)
          let image := stampPrio image (min (bargePrio image) l.prio)
          let items := ls.getD [0]
          let k := items.length
          let bs := items.map (fun j => if ls.isSome then setWord image 7 (BitVec.ofNat 64 j) else image)
          if root then
            if decide (2 ≤ (bargeMode image).toNat) || w ≠ 0 then fault s 6
            else
              match s.pushAll x.launch (dieOf n) l.prio l.part bs with
              | .ok s => .retire s
              | .error r => fault s r
          else
            let stamp := stampOf x.barge
            let bs := bs.map (fun b => match stamp with
              | .none => stampBarge b 0 0 0
              | .tree succ => stampBarge b 1 succ w
              | .job jcb => stampBarge b 2 jcb 0)
            let took : Except Nat State := match stamp with
              | .none => if w = 0 then .ok s else .error 3
              | .tree _ =>
                if w ≠ 0 && decide (k * w.toNat < x.held.toNat) then .ok (s.setCtx n slot { x with held := x.held - BitVec.ofNat 64 (k * w.toNat) })
                else .error 3
              | .job _ => match s.takeCredit n slot x k with | some s => .ok s | none => .error 5
            match took with
            | .error r => fault s r
            | .ok t =>
              match t.pushAll x.launch (dieOf n) l.prio l.part bs with
              | .ok t => .retire t
              | .error r => fault s r

def execSpawn (a : BitVec 6) (m : MX) (s : State) : Host.Outcome State Fault Refusal := s.spawn (.spawn a m) [a] a m (fun _ => none) false

def execSpawnMask (a c : BitVec 6) (m : MX) (s : State) : Host.Outcome State Fault Refusal :=
  s.spawn (.spawnMask a c m) [a, c] a m (fun x => some (setBits 64 (slice (x.gv c) 63 0))) false

def execSpawnRoot (a : BitVec 6) (m : MX) (s : State) : Host.Outcome State Fault Refusal := s.spawn (.spawnRoot a m) [a] a m (fun _ => none) true

def execJraise (l : GLit) (s : State) : Host.Outcome State Fault Refusal :=
  s.generator (.jraise l) [] [] fun n slot x =>
    match s.launchOf x with
    | none => .trap s (whyGen x (.jraise l) 0x06 5)
    | some y =>
      if bargeMode x.barge ≠ 2 || decide (expectedMax < y.expected + l.val.toNat) then .trap s (whyGen x (.jraise l) 0x06 5)
      else
        let s := s.modLaunch x.launch (fun y => { y with expected := y.expected + l.val.toNat })
        .retire (s.setCtx n slot { x with credit := x.credit + l.val.toNat })

/-- The items of BQUERY (R344). -/
def State.bquery (s : State) (x : Ctx) (item : Nat) : Nat :=
  let job := bargeMode x.barge = 2
  match s.launchOf x with
  | none => 0
  | some l =>
    match item with
    | 0 => x.held.toNat
    | 1 => x.credit
    | 2 => if job then l.expected else 0
    | 3 => if job then l.doneN else 0
    | _ => match l.basin? (bargeEntry x.barge) with | some b => b.occupancy | none => 0

def execBquery (d : BitVec 6) (l : GLit) (s : State) : Host.Outcome State Fault Refusal :=
  s.generator (.bquery d l) [] [d] fun n slot x => .retire (s.setCtx n slot (x.setG d (BitVec.ofNat 72 (s.bquery x l.val.toNat))))

end Sys2Proof.Machine
end

