-- ==== Sys2Proof/Machine/Waiting.lean ====
section
/-! DEFINITION. Flights, barriers, monitors and watchpoints, and the clearing of a blocked context's cause (R348 to R361, R122). -/

namespace Sys2Proof.Machine

/-! ### Flights (R349, R350) -/

/-- The flight that an instruction names, unless its owner is away (R352) or it is absent. -/
def State.withFlight (s : State) (i : Instr) (n : Nat) (x : Ctx) (fl : Nat) (k : Flight → Gen) : Gen :=
  match s.flight? n x.launch fl with
  | none => .trap s (whyGen x i 0x0A 1)
  | some y => if y.away && y.uid ≠ x.uid then .block s (.owner (BitVec.ofNat 4 fl)) else k y

/-- The shape register of FL.INIT: chambers and chamber bytes; none where it is refused (R349). -/
def flightShape (g : W72) : Option (Nat × Nat) :=
  let size := slice g 31 8
  if slice g 71 32 ≠ 0 ∨ slice g 7 4 ≠ 0 ∨ size = 0 ∨ size % 128 ≠ 0 then none else some (slice g 3 0 + 1, size)

/-- The base of a window flight, with its core's index j in place of the core, and the core; none where R251 or the bound
refuses it (R349). -/
def State.windowBase (s : State) (n slot : Nat) (x : Ctx) (g : W72) (count size : Nat) : Option (W72 × Nat) :=
  let a : W72 := BitVec.ofNat 72 (slice g 31 0)
  let k := slice a 24 18
  let here := if bit a 27 then slice a 26 25 = n % 4 else slice a 26 25 = 0
  match s.core? n k with
  | none => none
  | some c =>
    if slice a 31 28 ≠ 0 || !decide here || c.slot ≠ slot || decide (sgran (s.partition x) * 4096 < slice a 17 0 + count * size) then none
    else some (putBits a 24 18 c.j, k)

def execFlInit (win : Bool) (a g : BitVec 6) (l : GLit) (s : State) : Host.Outcome State Fault Refusal :=
  s.generator (.flInit win a g l) [a, g] [] fun n slot x =>
    let i := Instr.flInit win a g l
    let fl := l.val.toNat
    let fault (r : Nat) : Gen := .trap s (whyGen x i 0x0A r)
    let old := s.flight? n x.launch fl
    let away := match old with | some y => y.away && y.uid ≠ x.uid | none => false
    if away then .block s (.owner (BitVec.ofNat 4 fl))
    else
      match flightShape (x.gv g) with
      | none => fault 2
      | some (count, size) =>
        let base := if win then s.windowBase n slot x (x.gv a) count size
          else if (x.gv a).toNat % 128 ≠ 0 then none else some (x.gv a, 0)
        match base with
        | none => fault 2
        | some (b, k) =>
          let busy := match old with | some y => !y.cst.all (fun z => decide (z = Chamber.free)) | none => false
          if busy then fault 3
          else if old.isNone && decide (32 ≤ (s.flights.filter (fun (z : Flight) => z.cl = n)).length) then fault 5
          else
            let y : Flight := { cl := n, launch := x.launch, fl := fl, owner := slot, uid := x.uid, core := k, window := win, base := b,
                                count := count, size := size, waitIx := 0, acqIx := 0, cst := List.replicate count .free,
                                hold := List.replicate count 0, defer := 0, bad := 0, away := false }
            let rest := s.flights.filter (fun z => !(z.cl = n && z.launch = x.launch && z.fl = fl))
            .retire { s with flights := rest ++ [y] }

/-- FL.ACQ and FL.WAIT: take the next chamber once it is FREE or FULL, in the order of arrival (R350), which an absence of the flight's owner
does not change (R352). What was released with it is what the context's bays read from then on (R333). -/
def State.takeChamber (s : State) (i : Instr) (d : BitVec 6) (l : GLit) (acq : Bool) : Host.Outcome State Fault Refusal :=
  s.generator i [] [d] fun n slot x =>
    let fl := l.val.toNat
    let since := match x.wait with | .flight a f t => if a = acq && f.toNat = fl then t else s.now | _ => s.now
    match s.flight? n x.launch fl with
    | none => .trap s (whyGen x i 0x0A 1)
    | some y =>
      let away := y.away && y.uid ≠ x.uid
      let j := if acq then y.acqIx else y.waitIx
      let ready := y.st j = (if acq then .free else .full)
      if away || !decide ready || s.aheadOf n x.launch slot acq (BitVec.ofNat 4 fl) since then .block s (.flight acq (BitVec.ofNat 4 fl) since)
      else
        let next := (j + 1) % y.count
        let z := { y.setSt j (if acq then .filling else .draining) with hold := y.hold.set j slot }
        let z := if acq then { z with acqIx := next } else { z with waitIx := next }
        let v := j + (if acq then 0 else boolNat (bit y.bad j) * 256) + y.addr j * 2 ^ 32
        .retire (((s.modFlight n x.launch fl (fun _ => z)).setCtx n slot (x.setG d (BitVec.ofNat 72 v))).refreshBays n slot)

def execFlAcq (d : BitVec 6) (l : GLit) (s : State) : Host.Outcome State Fault Refusal := s.takeChamber (.flAcq d l) d l true
def execFlWait (d : BitVec 6) (l : GLit) (s : State) : Host.Outcome State Fault Refusal := s.takeChamber (.flWait d l) d l false

/-- FL.COMMIT and FL.REL, at once or when slot f leaves PENDING (R350). A slot that is not PENDING is read, with a double resolution left on it
(R337). (DEDUCED, log 23) -/
def State.flightStep (s : State) (i : Instr) (a : BitVec 6) (m : MX) (commit : Bool) (f : Option (BitVec 6)) : Host.Outcome State Fault Refusal :=
  s.generator i [a] [] fun n slot x =>
    let fl := m.off.toNat
    s.withFlight i n x fl fun _ =>
      s.syncStep n slot x m.ann fun s x =>
        match s.flight? n x.launch fl with
        | none => .trap s (whyGen x i 0x0A 1)
        | some y =>
          let j := slice (x.gv a) 63 0
          if decide (y.count ≤ j) || y.st j ≠ (if commit then .filling else .draining) || y.hold.getD j 0 ≠ slot then .trap s (whyGen x i 0x0A 3)
          else if bit y.defer j then .trap s (whyGen x i 0x0A 4)
          else
            match f with
            | none => .retire (s.modFlight n x.launch fl (fun y => y.step j false))
            | some f =>
              let sl := x.slot f
              if sl.dres && sl.state ≠ .pending then .trap (s.setCtx n slot (clearDres x (slotMask f))) (whyGen x i 0x08 2)
              else if sl.defer.isSome || sl.link.isSome then .trap s (whyGen x i 0x0A 4)
              else if sl.state = .pending then
                let s := s.modFlight n x.launch fl (fun y => { y with defer := putBit y.defer j true })
                .retire (s.setCtx n slot (x.setSlot f { sl with defer := some (fl, j) }))
              else .retire (s.modFlight n x.launch fl (fun y => y.step j (sl.state ≠ .ok)))

def execFlCommit (a : BitVec 6) (m : MX) (s : State) : Host.Outcome State Fault Refusal := s.flightStep (.flCommit a m) a m true none
/-- FL.COMMIT.F (R350). (DEDUCED, log 23) -/
def execFlCommitF (f a : BitVec 6) (m : MX) (s : State) : Host.Outcome State Fault Refusal := s.flightStep (.flCommitF f a m) a m true (some f)
def execFlRel (a : BitVec 6) (m : MX) (s : State) : Host.Outcome State Fault Refusal := s.flightStep (.flRel a m) a m false none
/-- FL.REL.F (R350). (DEDUCED, log 23) -/
def execFlRelF (f a : BitVec 6) (m : MX) (s : State) : Host.Outcome State Fault Refusal := s.flightStep (.flRelF f a m) a m false (some f)

/-! ### Barriers (R353 to R355) -/

/-- Every word has started and completed, and every access has been performed. -/
def State.quiet (s : State) (n slot : Nat) (x : Ctx) : Bool := s.allStarted n slot && s.streamsZero x.uid

/-- Narrower stores of a context, carried to a scope in every stream. -/
def State.carryAll (s : State) (x : Ctx) (sc : Scope) : State := s.carry x.uid .gen ⟨x.ops + 1, 0, 0⟩ 0xFF sc

def execBarCl (s : State) : Host.Outcome State Fault Refusal :=
  s.generator .barCl [] [] fun n slot x => if s.quiet n slot x then .retire ((s.carryAll x .cluster).refreshBays n slot) else .block s .barCl

def execBarDie (b : BitVec 2) (s : State) : Host.Outcome State Fault Refusal :=
  s.generator (.barDie b) [] [] fun n slot x =>
    let arrive : Gen := if s.quiet n slot x then .block (s.carryAll x .die) (.barDie b true false) else .block s (.barDie b false false)
    match x.wait with
    | .barDie c arrived released =>
      if c = b && released then .retire s
      else if c = b && arrived then .block s x.wait
      else arrive
    | _ => arrive

/-- The members of a die barrier: the contexts of the launch on the die, and those being moved within it (R128, R354). -/
def State.members (s : State) (launch die : Nat) : List (Nat × Nat × Ctx) := (s.launchCtxs launch).filter (fun p => dieOf p.1 = die)

def Ctx.arrivedAt (c : Ctx) (b : BitVec 2) : Bool :=
  match c.wait with
  | .barDie x arrived released => x = b && arrived && !released
  | _ => false

/-- A die barrier at which every member has arrived releases them all at once (R354). A saved context is a member where it is restored, from
then on. While its die is in a warm reset it releases nothing (R355). (DEDUCED, log 31) -/
def execBarrierRelease (launch : Nat) (die : BitVec 3) (b : BitVec 2) (s : State) : Host.Outcome State Fault Refusal :=
  let ms := s.members launch die.toNat
  if ms.isEmpty || !ms.all (fun p => p.2.2.arrivedAt b) || !(s.die die.toNat).admitted then .next s
  else
    let go (p : Nat × Ctx) : Nat × Ctx :=
      if p.2.launch = launch && dieOf (p.1 / 8) = die.toNat && p.2.arrivedAt b then (p.1, { p.2 with wait := .barDie b true true }) else p
    .next (ms.foldl (fun s p => s.refreshBays p.1 p.2.1) { s with ctxs := s.ctxs.map go })

/-! ### Monitors (R356, R357) -/

/-- Monitors armed at a unit: a stack, or the front die. -/
def State.monitorsAt (s : State) (unit : Nat) : Nat :=
  (s.ctxs.filter (fun p => match p.2.monitor with | .armed line => homeUnit (128 * line) = some unit | _ => false)).length

def execMon (d a : BitVec 6) (y : SX) (s : State) : Host.Outcome State Fault Refusal :=
  s.generator (.mon d a y) [a] [d] fun n slot x =>
    s.syncOp (.mon d a y) n slot x y.ann (x.gv a) 8 false fun s x p =>
      let v := s.homeRead p.pa 8
      let x := { x with monitor := .none }
      let s := s.setCtx n slot x
      let m : Monitor := match homeUnit p.pa with
        | none => .lost
        | some u => if s.monitorsAt u < (if u = 12 then 4096 else 1024) then .armed (lineOf p.pa) else .lost
      .retire (s.setCtx n slot { x.setG d (BitVec.ofNat 72 v) with monitor := m })

/-- MWAIT (R357). Its limit counts cycles of its cluster; one that has expired shows as a limit of 0 in the wait. -/
def execMwait (d a : BitVec 6) (s : State) : Host.Outcome State Fault Refusal :=
  s.generator (.mwait d a) [a] [d] fun n slot x =>
    let done (reason : Nat) : Gen := .retire (s.setCtx n slot { x.setG d (BitVec.ofNat 72 reason) with monitor := .none })
    let expired := match x.wait with | .mwait (some 0) => true | _ => false
    if expired then done 1
    else
      match x.monitor with
      | .fired => done 0
      | .lost => done 2
      | .none => done 3
      | .armed _ =>
        match x.wait with
        | .mwait t => .block s (.mwait t)
        | _ =>
          let lim := slice (x.gv a) 31 0
          .block s (.mwait (if lim = 0 then none else some ((s.cluster n).cycle.toNat + lim)))

/-- The limit of an MWAIT runs out before its monitor fires: the context becomes READY. -/
def execMwaitLimit (n : BitVec 5) (slot : BitVec 3) (s : State) : Host.Outcome State Fault Refusal :=
  match s.ctx? n.toNat slot.toNat with
  | none => .next s
  | some c =>
    match c.status, c.wait, c.monitor with
    | .blocked, .mwait (some t), .armed _ =>
      if t ≤ (s.cluster n.toNat).cycle.toNat && !c.halted then .next (s.setReady n.toNat slot.toNat { c with wait := .mwait (some 0) })
      else .next s
    | _, _, _ => .next s

/-! ### Watchpoints (R358 to R361) -/

/-- The failure value of WP.SET. -/
def wpFail (r : Nat) : W72 := BitVec.ofNat 72 (2 ^ 63 + r)

def execWpSet (d a : BitVec 6) (y : SX) (s : State) : Host.Outcome State Fault Refusal :=
  s.generator (.wpSet d a y) [a] [d] fun n slot x =>
    s.syncOp (.wpSet d a y) n slot x y.ann (x.gv a) 64 false fun s x p =>
      let (data, s) := s.readAt n none y.ann.sc p.pa 64 p.hint
      let r := toWords 8 (toBytes 64 data)
      let w1 := wordAt r 1
      let start : W72 := BitVec.ofNat 72 (slice w1 63 56 * 2 ^ 64 + (wordAt r 0).toNat)
      let words := slice w1 55 47 + 1
      let barge : W72 := BitVec.ofNat 72 (slice (wordAt r 5) 7 0 * 2 ^ 64 + (wordAt r 4).toNat)
      let answer (s : State) (v : W72) : Gen := .retire (s.modCtx n slot (fun c => c.setG d v))
      let valid := start.toNat % 8 = 0 && slice w1 45 0 = 0 && slice (wordAt r 5) 63 8 = 0 && wordAt r 6 = 0 && wordAt r 7 = 0
        && barge.toNat % 64 = 0 && decide (start.toNat % 4096 + 8 * words ≤ 4096)
      if !valid then answer s (wpFail 2)
      else
        s.memAddr (.wpSet d a y) n x barge 64 false fun s q =>
          if !s.ownOrder x.uid .gen x.key (placePart q.pa 64 q.ord) then .block s (.preds y.ann (some (q.pa, 64, q.ord)))
          else
            s.atHome n x barge q.pa 64 fun s =>
              s.carried n x barge y.ann (effScope q.pa y.ann.sc) (q.ord = 0) fun s =>
              let s := if q.ord = 0 then s.carryStrong x.uid .gen x.key (effScope q.pa y.ann.sc) else s
              let (bdata, s) := s.readAt n none y.ann.sc q.pa 64 q.hint
              let image := toWords 8 (toBytes 64 bdata)
              match s.xlate n x.ring start false (userOf x.uid 0) with
              | (.wait v, s) => .block s (.walk [v])
              | (.fail _, s) => answer s (wpFail 4)
              | (.place w, s) =>
                match homeUnit w.pa with
                | none => answer s (wpFail 4)
                | some u =>
                  if u = 12 then answer s (wpFail 4)
                  else if !s.bargeOk (s.partition x) image || bargeMode image ≠ 0 then answer s (wpFail 3)
                  else
                    match (List.range 64).find? (fun j => (tget s.watches (64 * u + j)).isNone) with
                    | none => answer s (wpFail 1)
                    | some j =>
                      let h := 64 * u + j
                      let wp : Watch := { id := s.nextId, launch := x.launch, start := start, pa := w.pa, words := words, once := bit w1 46, armed := true,
                                          value := wordAt r 2, mask := wordAt r 3, image := image }
                      answer { s with watches := tput s.watches h wp, nextId := s.nextId + 1 } (BitVec.ofNat 72 h)

def execWpClr (a : BitVec 6) (s : State) : Host.Outcome State Fault Refusal :=
  s.generator (.wpClr a) [a] [] fun _ _ x =>
    let h := slice (x.gv a) 9 0
    match tget s.watches h with
    | some w => if w.launch = x.launch then .retire { s with watches := tdel s.watches h } else .retire s
    | none => .retire s

/-! ### The cause of a blocked context clears (R122, R151) -/

/-- Whether what a context waits for has come. (DEDUCED, log 14) -/
def State.causeClear (s : State) (n slot : Nat) (x : Ctx) : Bool :=
  match x.wait with
  | .none => true
  | .regs r => !r.any (fun g => s.regState x g = .busy)
  | .slot f => (x.slot f).state ≠ .pending
  | .engineRoom => decide ((s.cmds.filter (fun c => c.cl = n && !c.ended)).length < 64)
  | .queueRoom => decide (x.queue.length < 4)
  | .stream m => decide (s.stream x.uid m.toNat < 1023)
  | .walk vs => !vs.any (fun v => s.walking (dieOf n) x.ring v)
  | .written => s.allStarted n slot
  | .allWritten => true
  | .counters mask lim => s.streamsBelow x.uid mask lim
  | .preds ann place => s.syncReady n slot x ann place
  | .fany m => (anyAnswer x m).isSome || (slotFault x .nop m).isSome
  | .fall m => (allAnswer x m).isSome || (slotFault x .nop m).isSome
  | .fffr m => (ffrAnswer x m).isSome || (slotFault x .nop m).isSome
  | .vote => match x.votes with | v :: _ => v.readable | [] => false
  | .capture id => !x.readsEntry n id
  | .barCl => s.quiet n slot x
  | .barDie _ arrived released => if arrived then released else s.quiet n slot x
  | .mwait _ => match x.monitor with | .armed _ => false | _ => true
  | .step => false
  | .stepDone => true
  | .taskend => s.idleCtx n slot x || (s.leftOver x .taskend).isSome || s.holds n x.launch slot
  | .flight acq fl since =>
    match s.flight? n x.launch fl.toNat with
    | none => true
    | some y =>
      !(y.away && y.uid ≠ x.uid) &&
        (y.st (if acq then y.acqIx else y.waitIx) = (if acq then .free else .full) && !s.aheadOf n x.launch slot acq fl since)
  | .owner fl => match s.flight? n x.launch fl.toNat with | none => true | some y => !y.away || y.uid = x.uid

/-- A BLOCKED context whose cause has cleared becomes READY; its instruction is executed again when it is picked. One that waited for step 1
of SWAIT has gone through it (R196). -/
def execContextUnblock (n : BitVec 5) (slot : BitVec 3) (s : State) : Host.Outcome State Fault Refusal :=
  match s.ctx? n.toNat slot.toNat with
  | none => .next s
  | some c =>
    if c.status = .blocked && !c.halted && s.causeClear n.toNat slot.toNat c then
      .next (s.setReady n.toNat slot.toNat { c with wait := if c.wait = .written then .allWritten else c.wait })
    else .next s

/-- The generator takes the context that has been READY longest into ISSUE (R202). -/
def execContextPick (n : BitVec 5) (s : State) : Host.Outcome State Fault Refusal :=
  let n := n.toNat
  let cs := s.clusterCtxs n
  if cs.any (fun p => p.2.status = .issue) then .next s
  else
    match minBy Ctx.turn (cs.filter (fun p => p.2.status = .ready && !p.2.halted)) with
    | none => .next s
    | some (slot, c) =>
      let s := s.setCtx n slot { c with status := .issue, since := s.now }
      .next (s.setCluster n { s.cluster n with switched := true })

/-- The watchdog (R169, R370): an instruction other than YIELD is next, and the count stands at the deadline. -/
def execWatchdog (n : BitVec 5) (s : State) : Host.Outcome State Fault Refusal :=
  match s.issuing n.toNat with
  | none => .next s
  | some (slot, c) =>
    let yields := match decode (s.codeBytes c.pc 16) with | .ok i => isYield i | .error _ => false
    if c.count = c.deadline && !c.halted && !yields then
      .next (s.stopCtx n.toNat slot none { cls := 0x10, where_ := c.pc, detail := BitVec.ofNat 64 c.deadline })
    else .next s

end Sys2Proof.Machine
end

