-- ==== Sys2Proof/Machine/Operands.lean ====
section
/-! DEFINITION. Every operand form of the lane words, their destinations and latches, and what a lane word does before its own
effect (R148, R197 to R201, R207 to R210, R266, R267). -/

namespace Sys2Proof.Machine

/-! ### Registers of a core -/

/-- An affine register; a0 is base 0 and stride 1 (R18, R46). -/
def Core.areg (x : Core) (n : BitVec 4) : AReg := if n = 0 then ⟨0, 1, .n32⟩ else tgetD x.a n.toNat ⟨0, 0, .untyped⟩

/-- A mask register; m0 is the live mask. -/
def Core.mask (x : Core) (n : BitVec 3) : BitVec 16 := if n = 0 then x.live else tgetD x.m n.toNat 0

/-- The lanes that a word with a governing mask acts on: live, and set in the mask. -/
def Core.gov (x : Core) (gm : BitVec 3) : BitVec 16 := x.live &&& x.mask gm

/-- The context lane number of a lane (R18). -/
def Core.ctxLane (x : Core) (l : Nat) : Nat := 16 * x.j + l

def Core.qv (x : Core) (n : BitVec 4) : W64 := tgetD x.q n.toNat 0
def Core.vv (x : Core) (n l : Nat) : Nat := (tgetD x.v (16 * n + l) 0).toNat
/-- The 64-bit value of an even pair (R56). -/
def Core.pairv (x : Core) (n l : Nat) : Nat := x.vv n l + x.vv (n + 1) l * 2 ^ 32
def Core.tagV (x : Core) (n : Nat) : Fmt := tgetD x.vtag n .untyped
def Core.lat (x : Core) (n : Nat) : Latch := x.latch.getD n ⟨[], .untyped, none⟩
def Core.tileTag (x : Core) (z : BitVec 4) : Fmt := tgetD x.ztag z.toNat .untyped

/-- base + l × stride modulo 2^64. -/
def Core.affv (x : Core) (n : BitVec 4) (l : Nat) : Nat :=
  wrap 64 (((x.areg n).base.toNat : Int) + (x.ctxLane l : Int) * (x.areg n).stride.toInt)

/-! ### Sources (R207, R208, R267) -/

def Fmt.isSigned (f : Fmt) : Bool := f = .i4 || f = .i8 || f = .i32 || f = .i64
def Fmt.isInt (f : Fmt) : Bool := decide (8 ≤ f.code)

/-- The value of a short constant, −64 to 63. -/
def immInt (n : BitVec 7) : Int := (n.toNat : Int) - 64

/-- An integer as an exact value. -/
def exactInt (i : Int) : Exact := if i = 0 then .zero false else .fin i 1

/-- The code of a format that an operand supplies to a lane. -/
def Core.data (x : Core) (f : Fmt) (o : Opd) (l : Nat) : Nat :=
  let raw : Nat := match o with
    | .v n => if Fmt.wide f then x.pairv n.toNat l else x.vv n.toNat l
    | .a n => x.affv n l
    | .q n => (x.qv n).toNat
    | .b n => (tgetD (x.lat n.toNat).lanes l 0).toNat
    | .imm n => round (exactInt (immInt n)) f .rne true
    | _ => 0
  raw % 2 ^ Fmt.width f

/-- The same, read as an integer under the format's signedness. -/
def Core.int (x : Core) (f : Fmt) (o : Opd) (l : Nat) : Int :=
  if Fmt.isSigned f then signed (Fmt.width f) (x.data f o l) else (x.data f o l : Nat)

/-- An index: a 32-bit natural number, whatever the word's format. -/
def Core.index (x : Core) (o : Opd) (l : Nat) : Nat :=
  match o with
  | .imm n => wrap 32 (immInt n)
  | o => x.data .n32 o l

/-- A 64-bit address operand. -/
def Core.addr (x : Core) (o : Opd) (l : Nat) : Nat := x.data .n64 o l

/-- A signed 32-bit offset operand. -/
def Core.offset (x : Core) (o : Opd) (l : Nat) : Int := signed 32 (x.index o l)

/-! ### Tags (R58, R59, R209) -/

/-- Registers of a v operand. -/
def Opd.regs (o : Opd) (k : Nat) : List Nat :=
  match o with
  | .v n => (List.range k).map (fun i => n.toNat + i)
  | _ => []

/-- Registers that a value of a format takes. -/
def regsFor (f : Fmt) : Nat := if Fmt.wide f then 2 else 1

/-- Every tag that a source operand of `k` registers carries is one accepted; q registers, short constants and masks carry none. -/
def Core.tagOk (x : Core) (o : Opd) (k : Nat) (p : Fmt → Bool) : Bool :=
  match o with
  | .v _ => (Opd.regs o k).all (fun r => p (x.tagV r))
  | .a n => p (x.areg n).tag
  | .b n => p (x.lat n.toNat).tag
  | _ => true

/-- fmt's code, or the code of the same width and the other signedness. -/
def sameInt (f t : Fmt) : Bool := Fmt.isInt t && Fmt.width t = Fmt.width f
/-- Any tag of the width group. -/
def sameWidth (f t : Fmt) : Bool := t ≠ .untyped && Fmt.width t = Fmt.width f
def isI32 (t : Fmt) : Bool := t = .i32 || t = .n32
def isI64 (t : Fmt) : Bool := t = .i64 || t = .n64
def isAff (t : Fmt) : Bool := isI32 t || isI64 t

/-- A data source at a format, under a rule for its tags. -/
def Core.dataTag (x : Core) (f : Fmt) (p : Fmt → Fmt → Bool) (o : Opd) : Bool := x.tagOk o (regsFor f) (p f)
def Core.indexTag (x : Core) (o : Opd) : Bool := x.tagOk o 1 isI32
def Core.addrTag (x : Core) (o : Opd) : Bool := x.tagOk o 2 isI64

/-! ### Destinations and latches (R201, R210) -/

def lanes16 : List Nat := List.range 16

/-- Push a result into the latches. -/
def Core.push (x : Core) (l : Latch) : Core := { x with latch := (l :: x.latch).take 4 }

/-- Write a v destination: `res` gives each lane that is written its code. The tag is set, and a latch pushed; with
no-write-back the register keeps value and tag, and the latch holds zero in the other lanes. (DEDUCED, log 35) -/
def Core.putV (x : Core) (n : BitVec 8) (f : Fmt) (nwb : Bool) (res : Nat → Option Nat) : Core :=
  let put (v : Tab W32) (l : Nat) : Tab W32 :=
    match res l with
    | none => v
    | some y =>
      let v := tput v (16 * n.toNat + l) (BitVec.ofNat 32 y)
      if Fmt.wide f then tput v (16 * (n.toNat + 1) + l) (BitVec.ofNat 32 (y / 2 ^ 32)) else v
  let x' := if nwb then x else
    { x with v := lanes16.foldl put x.v, vtag := (Opd.regs (.v n) (regsFor f)).foldl (fun t r => tput t r f) x.vtag }
  let after (l : Nat) : Nat := if nwb then (res l).getD 0 else if Fmt.wide f then x'.pairv n.toNat l else x'.vv n.toNat l
  x'.push ⟨lanes16.map (fun l => (l, BitVec.ofNat 64 (after l))), f, none⟩

/-- Write a q destination: the result's image, extended by the format's signedness. -/
def Core.putQ (x : Core) (n : BitVec 4) (f : Fmt) (nwb : Bool) (y : Nat) : Core :=
  if nwb then x
  else { x with q := tput x.q n.toNat (if Fmt.isSigned f then sext64 (Fmt.width f) y else BitVec.ofNat 64 (y % 2 ^ Fmt.width f)) }

/-- Write a mask destination: all sixteen bits. -/
def Core.putM (x : Core) (n : BitVec 3) (nwb : Bool) (y : BitVec 16) : Core := if nwb then x else { x with m := tput x.m n.toNat y }

/-- A result for each live lane of the governing mask, or once for the core where the destination is a q register. -/
def Core.each (x : Core) (w : LA) (f : Fmt) (op : Nat → Nat) : Core :=
  match w.d with
  | .v n => x.putV n f w.nwb (fun l => if bit (x.gov w.gm) l then some (op l) else none)
  | .q n => x.putQ n f w.nwb (op 0)
  | _ => x

/-- A mask of the lanes of the governing mask where a test holds. -/
def Core.eachMask (x : Core) (w : LA) (p : Nat → Bool) : Core :=
  match w.d with
  | .m n => x.putM n w.nwb (BitVec.ofNat 16 ((lanes16.filter (fun l => bit (x.gov w.gm) l && p l)).foldl (fun a l => a + 2 ^ l) 0))
  | _ => x

/-! ### What a lane word needs -/

/-- A core's operands before a word may start: the v registers and latches it names, whether its source tags are accepted, and
whether it would write part of a q register (R199). -/
structure LaneUse where
  regs    : List Nat
  latches : List Nat
  tags    : Bool
  part    : Bool

/-- A v register or latch that an access has still to fill. -/
def State.filling (s : State) (n k uid : Nat) (x : Core) (u : LaneUse) : Bool :=
  u.latches.any (fun b => (x.lat b).src.isSome) ||
  s.accs.any (fun a => a.cl = n && a.uid = uid && a.agent = .core k && !a.done &&
    (match a.dest with
     | .lanes f nwb => !nwb && a.parts.any (fun p => u.regs.contains p.reg || (Fmt.wide f && u.regs.contains (p.reg + 1)))
     | _ => false))

/-- Latches that operands read. -/
def latchesOf (os : List Opd) : List Nat := os.filterMap (fun o => match o with | .b n => some n.toNat | _ => none)

/-- The registers of an operand lie inside the partition (R41, R42): 64 v registers to a granule, one tile to a granule. -/
def insidePart (p : W32) (o : Opd) (k : Nat) : Bool :=
  match o with
  | .v n => decide (n.toNat + k ≤ 64 * vgran p)
  | .z n => decide (n.toNat < agran p)
  | _ => true

/-- How a word ends on a core: it completes, it has to wait for a reason that R206 counts, or it fails. -/
inductive LaneEnd where
  | done (s : State)
  | wait (s : State) (why : Nat)
  | fault (s : State) (w : Why)

/-- The slice of a lane opcode, in RATIO's order (R203). -/
def laneSlice (op : Nat) : Nat :=
  if op < 0x100 then 1
  else if op < 0x120 ∨ (0x140 ≤ op ∧ op < 0x200) then 2
  else if op < 0x140 then 3
  else if 0x240 ≤ op then 4
  else 5

/-- A word starts and completes on a core (R175, R204): it leaves the buffer, and its slice is charged. -/
def State.startWord (s : State) (n k op : Nat) : State :=
  (s.charge n (laneSlice op) 1).modCore n k (fun x => { x with buf := x.buf.drop 1, ran := true })

/-- The head word waits. -/
def State.waitCore (s : State) (n k why : Nat) : State := s.modCore n k (fun x => { x with why := why })

/-- The core in focus fails its word (R148, R367): the word has no effect, the core starts no later one, the context stops. (DEDUCED, log 29) -/
def State.laneFault (s : State) (e : Nat) (bits : W64) (w : Why) : State :=
  let n := s.focus.cl
  let k := s.focus.core
  let j := (s.core? n k).map (fun x => x.j)
  (s.failCore n k).stopCtx n s.focus.slot (some e) { w with where_ := BitVec.ofNat 64 e, detail := bits, j := j }

/-- Run a lane word on the core in focus: the checks of R148 with the partition, the wait for its operands, R199, the tags, then
its own effect. `inside` holds each operand with its register count. -/
def State.lane (s : State) (i : Instr) (inside : List (Opd × Nat)) (use_ : Core → LaneUse)
    (body : Nat → Nat → Ctx → Core → Nat → LaneEnd) : Host.Outcome State Fault Refusal :=
  let n := s.focus.cl
  let k := s.focus.core
  match s.ctx? n s.focus.slot, s.core? n k with
  | some c, some x =>
    let e := match x.buf.head? with | some h => h.e | none => c.nextE
    let bits := (encodeLane i).getD 0
    let fail (cls : Nat) : Host.Outcome State Fault Refusal := .next (s.laneFault e bits { cls := cls })
    if !i.wf || !inside.all (fun p => insidePart (s.partition c) p.1 p.2) then fail 0x20
    else
      let u := use_ x
      if s.filling n k c.uid x u then .next (s.waitCore n k cOperand)
      else if u.part then fail 0x22
      else if !u.tags then fail 0x21
      else
        match body n k c x e with
        | .done t => .next (t.startWord n k (slice bits 9 0))
        | .wait t why => .next (t.waitCore n k why)
        | .fault t w => .next (t.laneFault e bits w)
  | _, _ => .next s

/-- The use of an LA word whose data operands stand at the given register counts. -/
def laUse (w : LA) (narrow : Bool) (da ka kb kc : Nat) (tags : Core → Bool) (x : Core) : LaneUse :=
  { regs := Opd.regs w.d da ++ Opd.regs w.a ka ++ Opd.regs w.b kb ++ Opd.regs w.c kc, latches := latchesOf [w.a, w.b, w.c], tags := tags x,
    part := !narrow && w.gm ≠ 0 && !w.nwb && (match w.d with | .q _ => true | _ => false) }

/-- An LA word whose whole effect is on its core's registers. `df` is the format of its result; A, B and C take the register
counts given. -/
def State.laneLA (s : State) (i : Instr) (w : LA) (df : Fmt) (ka kb kc : Nat) (narrow : Bool) (tags : Core → Bool) (eff : Core → Core) :
    Host.Outcome State Fault Refusal :=
  s.lane i [(w.d, regsFor df), (w.a, ka), (w.b, kb), (w.c, kc)] (laUse w narrow (regsFor df) ka kb kc tags) fun n k _ x _ =>
    .done (s.setCore n k (eff x))

end Sys2Proof.Machine
end

