-- ==== Sys2Proof/Machine/LaneAff.lean ====
section
/-! DEFINITION. The affine words and the promotions (R218 to R221). -/

namespace Sys2Proof.Machine

/-- The value of a U-class operand of an affine word (R219). -/
def Core.unif (x : Core) (f : Fmt) (o : Opd) : Int :=
  match o with
  | .q n => if Fmt.isSigned f then (x.qv n).toInt else ((x.qv n).toNat : Int)
  | o => x.int f o 0

/-- An affine pair: an affine register's, or a uniform value with stride 0. -/
def Core.pair (x : Core) (f : Fmt) (o : Opd) : Int × Int :=
  match o with
  | .a n => (((x.areg n).base.toNat : Int), (x.areg n).stride.toInt)
  | o => (x.unif f o, 0)

/-- Write an affine destination: the base wraps; a stride out of range wraps under `.wrap`, and otherwise the word fails (R200). -/
def Core.putA (x : Core) (w : LA) (p : Int × Int) : Option Core :=
  let inside := decide (-(2 ^ 31 : Int) ≤ p.2 ∧ p.2 < (2 ^ 31 : Int))
  if !inside && w.sub ≠ 1 then none
  else if w.nwb then some x
  else match w.d with
    | .a n => some { x with a := tput x.a n.toNat ⟨BitVec.ofNat 64 (wrap 64 p.1), BitVec.ofNat 32 (wrap 32 p.2), w.fmt⟩ }
    | _ => some x

/-- An affine word (R218): its affine sources carry I32 or I64 tags. -/
def State.affWord (s : State) (i : Instr) (w : LA) (op : Core → Int × Int) : Host.Outcome State Fault Refusal :=
  s.lane i [(w.d, 1), (w.a, 1), (w.b, 1)] (laUse w false 1 1 1 0 (fun x => [w.a, w.b].all (fun o => x.tagOk o 1 isAff))) fun n k _ x _ =>
    match x.putA w (op x) with
    | some y => .done (s.setCore n k y)
    | none => .fault s { cls := 0x23 }

def execAffAdd (w : LA) (s : State) : Host.Outcome State Fault Refusal :=
  s.affWord (.affAdd w) w fun x => ((x.pair w.fmt w.a).1 + (x.pair w.fmt w.b).1, (x.pair w.fmt w.a).2 + (x.pair w.fmt w.b).2)
def execAffSub (w : LA) (s : State) : Host.Outcome State Fault Refusal :=
  s.affWord (.affSub w) w fun x => ((x.pair w.fmt w.a).1 - (x.pair w.fmt w.b).1, (x.pair w.fmt w.a).2 - (x.pair w.fmt w.b).2)
def execAffMul (w : LA) (s : State) : Host.Outcome State Fault Refusal :=
  s.affWord (.affMul w) w fun x => ((x.pair w.fmt w.a).1 * x.unif w.fmt w.b, (x.pair w.fmt w.a).2 * x.unif w.fmt w.b)

/-- A shift of 64 or more gives base 0, and a nonzero stride leaves every range, as a shift by 64 does. -/
def execAffShl (w : LA) (s : State) : Host.Outcome State Fault Refusal :=
  s.affWord (.affShl w) w fun x =>
    let u := min (wrap 64 (x.unif w.fmt w.b)) 64
    ((x.pair w.fmt w.a).1 * (2 ^ u : Int), (x.pair w.fmt w.a).2 * (2 ^ u : Int))

def execAffMk (w : LA) (s : State) : Host.Outcome State Fault Refusal :=
  s.affWord (.affMk w) w fun x => (x.unif w.fmt w.a, x.unif w.fmt w.b)
def execAffStr (w : LA) (s : State) : Host.Outcome State Fault Refusal :=
  s.affWord (.affStr w) w fun x => ((x.pair w.fmt w.a).1, x.unif w.fmt w.b)
def execPromQa (w : LA) (s : State) : Host.Outcome State Fault Refusal :=
  s.affWord (.promQa w) w fun x => (x.unif w.fmt w.a, 0)

/-! ### Promotions to a varying register, and extraction (R220, R221) -/

def execPromQv (w : LA) (s : State) : Host.Outcome State Fault Refusal :=
  s.laneLA (.promQv w) w w.fmt 0 0 0 false (fun _ => true) fun x => x.each w w.fmt (fun l => x.data w.fmt w.a l)

def execPromAv (w : LA) (s : State) : Host.Outcome State Fault Refusal :=
  s.laneLA (.promAv w) w w.fmt 0 0 0 false (fun x => x.tagOk w.a 1 isAff) fun x => x.each w w.fmt (fun l => x.data w.fmt w.a l)

def execXtr (w : LA) (s : State) : Host.Outcome State Fault Refusal :=
  let f := w.fmt
  s.laneLA (.xtr w) w f (regsFor f) 1 0 true (fun x => x.dataTag f sameWidth w.a && x.indexTag w.b) fun x =>
    let k := x.index w.b 0
    match w.d with
    | .q n => x.putQ n f w.nwb (if decide (k < 16) && bit (x.gov w.gm) k then x.data f w.a k else 0)
    | _ => x

end Sys2Proof.Machine
end

