-- ==== Sys2Proof/Machine/LaneInt.lean ====
section
/-! DEFINITION. The lane integer words, compare, select and move (R212 to R217). -/

namespace Sys2Proof.Machine

/-! ### Results (R213) -/

/-- A result clamped to the range of a format, as its image. -/
def clampInt (f : Fmt) (r : Int) : Nat :=
  wrap (Fmt.width f) (if r < intMin f then intMin f else if intMax f < r then intMax f else r)

/-- How an integer word forms its exact result from x, y and z at a format; shifts and bit fields take the image of y. -/
abbrev IntOp := Fmt → Int → Int → Int → Int

def ioAdd : IntOp := fun _ x y _ => x + y
def ioSub : IntOp := fun _ x y _ => x - y
def ioMul : IntOp := fun _ x y _ => x * y
def ioMulh : IntOp := fun f x y _ => x * y / (2 ^ Fmt.width f : Int)
def ioMad : IntOp := fun _ x y z => x * y + z
def ioDiv : IntOp := fun _ x y _ => if y = 0 then -1 else x.tdiv y
def ioRem : IntOp := fun _ x y _ => if y = 0 then x else x - y * x.tdiv y
def ioMin : IntOp := fun _ x y _ => if x ≤ y then x else y
def ioMax : IntOp := fun _ x y _ => if x ≤ y then y else x
def ioAbs : IntOp := fun _ x _ _ => if x < 0 then -x else x
/-- The w-bit image of an integer. -/
def image (f : Fmt) (x : Int) : Nat := wrap (Fmt.width f) x
def ioAnd : IntOp := fun f x y _ => ((image f x &&& image f y : Nat) : Int)
def ioOr : IntOp := fun f x y _ => ((image f x ||| image f y : Nat) : Int)
def ioXor : IntOp := fun f x y _ => ((image f x ^^^ image f y : Nat) : Int)
def ioShl : IntOp := fun f x y _ => if Fmt.width f ≤ image f y then 0 else x * (2 ^ image f y : Int)
def ioShr : IntOp := fun f x y _ => if Fmt.width f ≤ image f y then (if x < 0 then -1 else 0) else x / (2 ^ image f y : Int)
def ioClz : IntOp := fun f x _ _ => (clz (Fmt.width f) (image f x) : Nat)
def ioPopc : IntOp := fun f x _ _ => (popcount (Fmt.width f) (image f x) : Nat)

/-- The position and length that a control value holds (R214). -/
def fieldPos (f : Fmt) (y : Int) : Nat := bits (image f y) 6 0
def fieldLen (f : Fmt) (y : Int) : Nat := min (bits (image f y) 14 8) (Fmt.width f)

/-- BFX (R214): bits beyond the image are copies of the sign, or zeros. -/
def ioBfx : IntOp := fun f x y _ =>
  let len := fieldLen f y
  -- floor division carries the sign of a signed x past bit w − 1
  let field : Nat := wrap len (x / (2 ^ fieldPos f y : Int))
  if len = 0 then 0 else if Fmt.isSigned f then signed len field else field

/-- BFI (R214): the low bits of x put into z; bits past the image are dropped. -/
def ioBfi : IntOp := fun f x y z =>
  let pos := fieldPos f y
  let len := min (fieldLen f y) (Fmt.width f - pos)
  ((if len = 0 then image f z else (putBits (BitVec.ofNat 64 (image f z)) (pos + len - 1) pos (image f x)).toNat : Nat) : Int)

/-- An integer word (R212): its sources carry fmt's code or the other signedness; `.sat` clamps. -/
def State.intWord (s : State) (i : Instr) (w : LA) (op : IntOp) : Host.Outcome State Fault Refusal :=
  let f := w.fmt
  let k := regsFor f
  s.laneLA i w f k k k false (fun x => [w.a, w.b, w.c].all (x.dataTag f sameInt)) fun x =>
    x.each w f (fun l =>
      let r := op f (x.int f w.a l) (x.int f w.b l) (x.int f w.c l)
      if w.sub = 1 then clampInt f r else image f r)

def execIadd (w : LA) (s : State) : Host.Outcome State Fault Refusal := s.intWord (.iadd w) w ioAdd
def execIsub (w : LA) (s : State) : Host.Outcome State Fault Refusal := s.intWord (.isub w) w ioSub
def execImul (w : LA) (s : State) : Host.Outcome State Fault Refusal := s.intWord (.imul w) w ioMul
def execImulh (w : LA) (s : State) : Host.Outcome State Fault Refusal := s.intWord (.imulh w) w ioMulh
def execImad (w : LA) (s : State) : Host.Outcome State Fault Refusal := s.intWord (.imad w) w ioMad
def execIdiv (w : LA) (s : State) : Host.Outcome State Fault Refusal := s.intWord (.idiv w) w ioDiv
def execIrem (w : LA) (s : State) : Host.Outcome State Fault Refusal := s.intWord (.irem w) w ioRem
def execImin (w : LA) (s : State) : Host.Outcome State Fault Refusal := s.intWord (.imin w) w ioMin
def execImax (w : LA) (s : State) : Host.Outcome State Fault Refusal := s.intWord (.imax w) w ioMax
def execIabs (w : LA) (s : State) : Host.Outcome State Fault Refusal := s.intWord (.iabs w) w ioAbs
def execLaneAnd (w : LA) (s : State) : Host.Outcome State Fault Refusal := s.intWord (.laneAnd w) w ioAnd
def execLaneOr (w : LA) (s : State) : Host.Outcome State Fault Refusal := s.intWord (.laneOr w) w ioOr
def execLaneXor (w : LA) (s : State) : Host.Outcome State Fault Refusal := s.intWord (.laneXor w) w ioXor
def execLaneShl (w : LA) (s : State) : Host.Outcome State Fault Refusal := s.intWord (.laneShl w) w ioShl
def execLaneShr (w : LA) (s : State) : Host.Outcome State Fault Refusal := s.intWord (.laneShr w) w ioShr
def execLaneClz (w : LA) (s : State) : Host.Outcome State Fault Refusal := s.intWord (.laneClz w) w ioClz
def execLanePopc (w : LA) (s : State) : Host.Outcome State Fault Refusal := s.intWord (.lanePopc w) w ioPopc
def execBfx (w : LA) (s : State) : Host.Outcome State Fault Refusal := s.intWord (.bfx w) w ioBfx
def execBfi (w : LA) (s : State) : Host.Outcome State Fault Refusal := s.intWord (.bfi w) w ioBfi

/-! ### Compare, select and move (R215 to R217) -/

/-- The relations of ICMP. -/
def icmpHolds (sub : BitVec 3) (x y : Int) : Bool :=
  match sub.toNat with
  | 0 => x = y
  | 1 => x ≠ y
  | 2 => x < y
  | 3 => y ≤ x
  | 4 => x ≤ y
  | _ => y < x

def execIcmp (w : LA) (s : State) : Host.Outcome State Fault Refusal :=
  let f := w.fmt
  let k := regsFor f
  s.laneLA (.icmp w) w f k k 0 false (fun x => [w.a, w.b].all (x.dataTag f sameInt)) fun x =>
    x.eachMask w (fun l => icmpHolds w.sub (x.int f w.a l) (x.int f w.b l))

/-- SEL: a q destination goes by the mask bit of the lowest live lane (R216). -/
def execLaneSel (w : LA) (s : State) : Host.Outcome State Fault Refusal :=
  let f := w.fmt
  let k := regsFor f
  s.laneLA (.laneSel w) w f k k 0 false (fun x => [w.a, w.b].all (x.dataTag f sameWidth)) fun x =>
    let mc : BitVec 16 := match w.c with | .m n => x.mask n | _ => 0
    let first := ((setBits 16 x.live.toNat).head?).getD 0
    let pick (l : Nat) : Bool := match w.d with | .q _ => bit mc first | _ => bit mc l
    x.each w f (fun l => if pick l then x.data f w.a l else x.data f w.b l)

def execLaneMov (w : LA) (s : State) : Host.Outcome State Fault Refusal :=
  let f := w.fmt
  s.laneLA (.laneMov w) w f (regsFor f) 0 0 false (fun x => x.dataTag f sameWidth w.a) fun x => x.each w f (fun l => x.data f w.a l)

end Sys2Proof.Machine
end

