-- ==== Sys2Proof/Machine/Special.lean ====
section
/-! DEFINITION. The special functions as one rounding of the exact function (R240, R241). Each function is enclosed between
two rationals at a rising number of bits until both round alike, which they do for every value whose exact result is no
rounding boundary; the sources whose result is exact are answered first. -/

namespace Sys2Proof.Machine

/-! Fixed point: a number x at p bits stands for x / 2^p. -/

/-- The sum of a series in fixed point: `t` is a term before its division by `div k`, and becomes the next by `next k`. -/
def series (next : Nat → Int → Int) (out : Nat → Int → Int) : Nat → Nat → Int → Int → Int
  | 0, _, _, acc => acc
  | n + 1, k, t, acc => if t = 0 then acc else series next out n (k + 1) (next k t) (acc + out k t)

/-- artanh(1 / m) at p bits. -/
def atanhInv (p m : Nat) : Int :=
  series (fun _ t => t / (m * m : Nat)) (fun k t => t / (2 * k + 1 : Nat)) p 0 ((2 ^ p / m : Nat) : Int) 0

/-- arctan(1 / m) at p bits. -/
def atanInv (p m : Nat) : Int :=
  series (fun _ t => -(t / (m * m : Nat))) (fun k t => t / (2 * k + 1 : Nat)) p 0 ((2 ^ p / m : Nat) : Int) 0

def ln2At (p : Nat) : Int := 2 * atanhInv p 3
def piAt (p : Nat) : Int := 16 * atanInv p 5 - 4 * atanInv p 239

/-- e^x for 0 ≤ x < 1, at p bits. -/
def expAt (p : Nat) (x : Int) : Int :=
  series (fun k t => t * x / 2 ^ p / (k + 1 : Nat)) (fun _ t => t) (p + 4) 0 (2 ^ p) 0

/-- sin x and cos x for 0 ≤ x < 2, at p bits. -/
def sinAt (p : Nat) (x : Int) : Int :=
  series (fun k t => -(t * x / 2 ^ p * x / 2 ^ p / ((2 * k + 2) * (2 * k + 3) : Nat))) (fun _ t => t) (p + 4) 0 x 0
def cosAt (p : Nat) (x : Int) : Int :=
  series (fun k t => -(t * x / 2 ^ p * x / 2 ^ p / ((2 * k + 1) * (2 * k + 2) : Nat))) (fun _ t => t) (p + 4) 0 (2 ^ p) 0

/-- ln x for 1 ≤ x < 2, at p bits. -/
def lnAt (p : Nat) (x : Int) : Int :=
  let z := (x - 2 ^ p) * 2 ^ p / (x + 2 ^ p)
  2 * series (fun _ t => t * z / 2 ^ p * z / 2 ^ p) (fun k t => t / (2 * k + 1 : Nat)) p 0 z 0

/-- 2^x at p bits, for x at p bits. -/
def exp2At (p : Nat) (x : Int) : Int :=
  let n := x / 2 ^ p
  let f := x - n * 2 ^ p
  let m := expAt p (f * ln2At p / 2 ^ p)
  if n < 0 then m / 2 ^ (-n).toNat else m * 2 ^ n.toNat

/-- e^x at p bits, for x at p bits. -/
def expAny (p : Nat) (x : Int) : Int := exp2At p (x * 2 ^ p / ln2At p)

/-- erf x at p bits, for 0 ≤ x < 8: 2 / √π times the Taylor series. -/
def erfAt (p : Nat) (x : Int) : Int :=
  let q := p + 128
  let y := x * 2 ^ 128
  let s := series (fun k t => -(t * y / 2 ^ q * y / 2 ^ q / (k + 1 : Nat))) (fun k t => t / (2 * k + 1 : Nat)) (q + 400) 0 y 0
  let rootPi : Int := isqrt ((piAt q).toNat * 2 ^ q)
  (2 * s * 2 ^ q / rootPi) / 2 ^ 128

/-- The nine functions of R240 but for those that are rational or a square root. -/
inductive Fn where
  | exp2 | log2 | sin | cos | tanh | sigm | erf
  deriving DecidableEq, Repr

/-- A source n / d at p bits, rounded down. -/
def fixed (p : Nat) (n : Int) (d : Nat) : Int := n * 2 ^ p / (d : Int)

/-- F(n / d) at p bits, within 2^24 units at the last place for the sources it is used on. -/
def fnAt (fn : Fn) (p : Nat) (n : Int) (d : Nat) : Int :=
  let one : Int := 2 ^ p
  match fn with
  | .exp2 => exp2At (p + 320) (fixed (p + 320) n d) / 2 ^ 320
  | .log2 =>
    let e := floorLog2 n.natAbs d
    let m : Int := if e < 0 then fixed p (n * 2 ^ (-e).toNat) d else fixed p n (d * 2 ^ e.toNat)
    e * one + lnAt p m * one / ln2At p
  | .sin =>
    -- reduce to half-turns in [0, 2), then to [0, 1/2]
    let x := fixed p n d % (2 * one)
    let (s, x) : Int × Int := if x < one then (1, x) else (-1, x - one)
    let x := if 2 * x > one then one - x else x
    s * (if 4 * x ≤ one then sinAt p (x * piAt p / one) else cosAt p ((one / 2 - x) * piAt p / one))
  | .cos =>
    let x := fixed p n d % (2 * one)
    let x := if x > one then 2 * one - x else x
    let (s, x) : Int × Int := if 2 * x ≤ one then (1, x) else (-1, one - x)
    s * (if 4 * x ≤ one then cosAt p (x * piAt p / one) else sinAt p ((one / 2 - x) * piAt p / one))
  | .tanh =>
    let y := fixed p n.natAbs d
    let e := expAny p (-2 * y)
    (if n < 0 then -1 else 1) * ((one - e) * one / (one + e))
  | .sigm => one * one / (one + expAny p (-(fixed p n d)))
  | .erf => (if n < 0 then -1 else 1) * erfAt p (fixed p n.natAbs d)

/-- The exact value of a fixed-point number. -/
def ofFixed (p : Nat) (x : Int) : Exact := if x = 0 then .zero false else .fin x (2 ^ p)

/-- Round a function's value: at each precision both ends of the enclosure are rounded, and the first agreement answers. (DEDUCED, log 39) -/
def roundFn (fn : Fn) (n : Int) (d : Nat) (f : Fmt) (r : Rnd) : List Nat → Nat
  | [] => round (ofFixed 2048 (fnAt fn 2048 n d)) f r false
  | p :: ps =>
    let v := fnAt fn p n d
    let lo := v - 2 ^ 24
    let hi := v + 2 ^ 24
    let a := round (ofFixed p lo) f r false
    let b := round (ofFixed p hi) f r false
    if a = b && decide ((lo < 0) = (hi < 0)) && lo ≠ 0 && hi ≠ 0 then a else roundFn fn n d f r ps

/-- The precisions in bits that are tried in turn (R240, R241). (DEDUCED, log 39) -/
def precisions : List Nat := [320, 640, 1280, 2048]

/-- A magnitude at least k. -/
def atLeast (k : Nat) (n : Int) (d : Nat) : Bool := decide (k * d ≤ n.natAbs)

/-- A power of two, as an exact value: 2^k. -/
def pow2 (k : Int) : Exact := scaled false 1 k

/-- A value just below one, and a value just above zero: for a function this near to its limit, every rounding of the true
value is the rounding of this one. -/
def nearOne : Exact := .fin (2 ^ 60 - 1) (2 ^ 60)
def nearZero : Exact := .fin 1 (2 ^ 1000)

/-- n / d is an integer; it is an integer plus one half. -/
def isInt (n : Int) (d : Nat) : Bool := n % (d : Int) = 0
def isHalf (n : Int) (d : Nat) : Bool := 2 * n % (d : Int) = 0 && !isInt n d

/-- The special words of R240 and R241, as a code of fmt. (DEDUCED, log 39) -/
def special (fn : Fn) (x : Exact) (f : Fmt) (r : Rnd) : Nat :=
  let out (e : Exact) : Nat := round e f r false
  match fn, x with
  | _, .nan => canonNan f
  | .exp2, .inf neg => out (if neg then .zero false else .inf false)
  | .exp2, .zero _ => out (.fin 1 1)
  | .exp2, .fin n d =>
    if isInt n d then (if atLeast 4096 n d then out (if n < 0 then nearZero else pow2 4096) else out (pow2 (n / (d : Int))))
    else if n < 0 && atLeast 200 n d then out nearZero
    else if atLeast 256 n d then out (pow2 4096)
    else roundFn .exp2 n d f r precisions
  | .log2, .inf neg => if neg then canonNan f else out (.inf false)
  | .log2, .zero _ => out (.inf true)
  | .log2, .fin n d =>
    if n < 0 then canonNan f
    else
      let e := floorLog2 n.natAbs d
      if (if e < 0 then n * 2 ^ (-e).toNat = d else n = (d : Int) * 2 ^ e.toNat) then
        out (if e = 0 then .zero false else .fin e 1)
      else roundFn .log2 n d f r precisions
  | .sin, .inf _ => canonNan f
  | .sin, .zero neg => out (.zero neg)
  | .sin, .fin n d =>
    if isInt n d then out (.zero (decide (n < 0)))
    else if isHalf n d then out (if (2 * n / (d : Int)) % 4 = 1 then .fin 1 1 else .fin (-1) 1)
    else roundFn .sin n d f r precisions
  | .cos, .inf _ => canonNan f
  | .cos, .zero _ => out (.fin 1 1)
  | .cos, .fin n d =>
    if isHalf n d then out (.zero false)
    else if isInt n d then out (if n / (d : Int) % 2 = 0 then .fin 1 1 else .fin (-1) 1)
    else roundFn .cos n d f r precisions
  | .tanh, .inf neg => out (if neg then .fin (-1) 1 else .fin 1 1)
  | .tanh, .zero neg => out (.zero neg)
  | .tanh, .fin n d =>
    if atLeast 64 n d then out (if n < 0 then nearOne.neg else nearOne) else roundFn .tanh n d f r precisions
  | .sigm, .inf neg => out (if neg then .zero false else .fin 1 1)
  | .sigm, .zero _ => out (.fin 1 2)
  | .sigm, .fin n d =>
    if atLeast 256 n d then out (if n < 0 then nearZero else nearOne) else roundFn .sigm n d f r precisions
  | .erf, .inf neg => out (if neg then .fin (-1) 1 else .fin 1 1)
  | .erf, .zero neg => out (.zero neg)
  | .erf, .fin n d =>
    if atLeast 8 n d then out (if n < 0 then nearOne.neg else nearOne) else roundFn .erf n d f r precisions

/-- 1 / x (R240, R241). -/
def recip (x : Exact) : Exact := (Exact.fin 1 1).div x

/-- 1 / √x (R240, R241). -/
def recipSqrt : Exact → Exact
  | .nan => .nan
  | .inf neg => if neg then .nan else .zero false
  | .zero neg => .inf neg
  | .fin n d =>
    if n < 0 then .nan
    else
      let (a, b) := sqrtNear 512 d n.natAbs
      .fin a b

end Sys2Proof.Machine
end

