-- ==== Sys2Proof/Machine/LaneFloat.lean ====
section
/-! DEFINITION. Floating-point arithmetic, comparison, classification, scaling and the special functions (R231 to R241). -/

namespace Sys2Proof.Machine

/-- The exact value that an operand supplies to a lane. -/
def Core.real (x : Core) (f : Fmt) (o : Opd) (l : Nat) : Exact := valueOf f (x.data f o l)

/-- Sources carry exactly fmt's tag (R231). -/
def exactTag (f t : Fmt) : Bool := t = f

def Core.floatTags (x : Core) (w : LA) : Bool := [w.a, w.b, w.c].all (x.dataTag w.fmt exactTag)

/-- The natural format of an integer format's width. -/
def Fmt.natural (f : Fmt) : Fmt := match f with | .i4 => .n4 | .i8 => .n8 | .i32 => .n32 | .i64 => .n64 | f => f

/-- A result as `each` writes it, but that a q destination receives zeros above it whatever its format (R231). (DEDUCED, log 18) -/
def Core.eachZero (x : Core) (w : LA) (f : Fmt) (op : Nat → Nat) : Core :=
  match w.d with
  | .q n => x.putQ n (Fmt.natural f) w.nwb (op 0)
  | _ => x.each w f op

/-- A floating-point word whose result is a code of its own format. (DEDUCED, log 18) -/
def State.floatWord (s : State) (i : Instr) (w : LA) (op : Core → Nat → Nat) : Host.Outcome State Fault Refusal :=
  s.laneLA i w w.fmt 1 1 1 false (fun x => x.floatTags w) fun x => x.each w w.fmt (op x)

/-- One rounding of an exact result under the word's mode (R235). -/
def State.arith (s : State) (i : Instr) (w : LA) (op : Exact → Exact → Exact → Exact) : Host.Outcome State Fault Refusal :=
  s.floatWord i w fun x l => round (op (x.real w.fmt w.a l) (x.real w.fmt w.b l) (x.real w.fmt w.c l)) w.fmt w.rnd false

def execFadd (w : LA) (s : State) : Host.Outcome State Fault Refusal := s.arith (.fadd w) w fun x y _ => x.add w.rnd y
def execFsub (w : LA) (s : State) : Host.Outcome State Fault Refusal := s.arith (.fsub w) w fun x y _ => x.add w.rnd y.neg
def execFmul (w : LA) (s : State) : Host.Outcome State Fault Refusal := s.arith (.fmul w) w fun x y _ => x.mul y
def execFma (w : LA) (s : State) : Host.Outcome State Fault Refusal := s.arith (.fma w) w fun x y z => (x.mul y).add w.rnd z
def execFnma (w : LA) (s : State) : Host.Outcome State Fault Refusal := s.arith (.fnma w) w fun x y z => (x.mul y).neg.add w.rnd z
def execFdiv (w : LA) (s : State) : Host.Outcome State Fault Refusal := s.arith (.fdiv w) w fun x y _ => x.div y
def execFsqrt (w : LA) (s : State) : Host.Outcome State Fault Refusal := s.arith (.fsqrt w) w fun x _ _ => x.sqrt
def execFmin (w : LA) (s : State) : Host.Outcome State Fault Refusal := s.arith (.fmin w) w fun x y _ => Exact.least false x y
def execFmax (w : LA) (s : State) : Host.Outcome State Fault Refusal := s.arith (.fmax w) w fun x y _ => Exact.least true x y

/-! ### Signs (R236) -/

/-- The sign bit of a code, and the code with another sign; a NaN gives the canonical NaN. -/
def signOf (f : Fmt) (c : Nat) : Bool := c.testBit (Fmt.width f - 1)
def withSign (f : Fmt) (c : Nat) (neg : Bool) : Nat :=
  if valueOf f c = .nan then canonNan f else c % 2 ^ (Fmt.width f - 1) + boolNat neg * 2 ^ (Fmt.width f - 1)

def execFabs (w : LA) (s : State) : Host.Outcome State Fault Refusal :=
  s.floatWord (.fabs w) w fun x l => withSign w.fmt (x.data w.fmt w.a l) false
def execFneg (w : LA) (s : State) : Host.Outcome State Fault Refusal :=
  s.floatWord (.fneg w) w fun x l => withSign w.fmt (x.data w.fmt w.a l) (!signOf w.fmt (x.data w.fmt w.a l))
def execFsgn (w : LA) (s : State) : Host.Outcome State Fault Refusal :=
  s.floatWord (.fsgn w) w fun x l =>
    let a := signOf w.fmt (x.data w.fmt w.a l)
    let b := signOf w.fmt (x.data w.fmt w.b l)
    withSign w.fmt (x.data w.fmt w.a l) (match w.sub.toNat with | 0 => b | 1 => !b | _ => a != b)

/-! ### Comparison and classification (R237, R238) -/

def fcmpHolds (sub : BitVec 3) (x y : Exact) : Bool :=
  if x = .nan || y = .nan then sub = 1 || sub = 6
  else
    match sub.toNat, x.cmp y with
    | 0, o => o = .eq
    | 1, o => o ≠ .eq
    | 2, o => o = .lt
    | 3, o => o ≠ .lt
    | 4, o => o ≠ .gt
    | 5, o => o = .gt
    | _, _ => false

def execFcmp (w : LA) (s : State) : Host.Outcome State Fault Refusal :=
  s.laneLA (.fcmp w) w w.fmt 1 1 0 false (fun x => x.floatTags w) fun x =>
    x.eachMask w (fun l => fcmpHolds w.sub (x.real w.fmt w.a l) (x.real w.fmt w.b l))

/-- The class of a code (R237): one bit. -/
def classOf (f : Fmt) (c : Nat) : Nat :=
  let sub : Bool := match floatShape f with | some s => c % 2 ^ s.signBit / 2 ^ s.fbits = 0 | none => false
  match valueOf f c with
  | .nan => 2 ^ 8
  | .inf neg => if neg then 1 else 2 ^ 7
  | .zero neg => if neg then 2 ^ 3 else 2 ^ 4
  | .fin n _ => if n < 0 then (if sub then 2 ^ 2 else 2 ^ 1) else (if sub then 2 ^ 5 else 2 ^ 6)

def execFclass (w : LA) (s : State) : Host.Outcome State Fault Refusal :=
  s.laneLA (.fclass w) w .n32 1 0 0 false (fun x => x.floatTags w) fun x => x.each w .n32 (fun l => classOf w.fmt (x.data w.fmt w.a l))

/-! ### Integers, scaling, exponents (R239) -/

/-- A value rounded to an integer under a mode; a zero keeps the value's sign. -/
def integral (r : Rnd) : Exact → Exact
  | .fin n d =>
    let neg := decide (n < 0)
    let (m, exact, half) := divPow n.natAbs d 0
    let m' := if takesUpper r neg exact half (m % 2 = 0) then m + 1 else m
    if m' = 0 then .zero neg else .fin (if neg then -(m' : Int) else m') 1
  | x => x

def execFrnd (w : LA) (s : State) : Host.Outcome State Fault Refusal := s.arith (.frnd w) w fun x _ _ => integral w.rnd x

/-- FSCALE (R239): past every exponent of the formats a scale goes the same way, so it is held to ±4,096. (DEDUCED, log 38) -/
def execFscale (w : LA) (s : State) : Host.Outcome State Fault Refusal :=
  s.laneLA (.fscale w) w w.fmt 1 1 0 false
    (fun x => x.dataTag w.fmt exactTag w.a && (match w.b with | .a _ => x.tagOk w.b 1 isAff | o => x.indexTag o)) fun x =>
    x.each w w.fmt (fun l =>
      let n := x.offset w.b l
      let n := if n < -4096 then -4096 else if 4096 < n then 4096 else n
      round ((x.real w.fmt w.a l).scale n) w.fmt w.rnd false)

/-- FGETEXP of a value, as I32 (R239). -/
def getExp : Exact → Nat
  | .fin n d => wrap 32 (floorLog2 n.natAbs d)
  | .zero _ => 0x80000000
  | _ => 0x7FFFFFFF

def execFgetexp (w : LA) (s : State) : Host.Outcome State Fault Refusal :=
  s.laneLA (.fgetexp w) w .i32 1 0 0 false (fun x => x.floatTags w) fun x => x.eachZero w .i32 (fun l => getExp (x.real w.fmt w.a l))

/-! ### Special functions (R240, R241) -/

/-- One of the functions that Special encloses. -/
def State.specialWord (s : State) (i : Instr) (w : LA) (fn : Fn) : Host.Outcome State Fault Refusal :=
  s.floatWord i w fun x l => special fn (x.real w.fmt w.a l) w.fmt w.rnd

def execFrcp (w : LA) (s : State) : Host.Outcome State Fault Refusal := s.arith (.frcp w) w fun x _ _ => recip x
def execFrsq (w : LA) (s : State) : Host.Outcome State Fault Refusal := s.arith (.frsq w) w fun x _ _ => recipSqrt x
def execFexp2 (w : LA) (s : State) : Host.Outcome State Fault Refusal := s.specialWord (.fexp2 w) w .exp2
def execFlog2 (w : LA) (s : State) : Host.Outcome State Fault Refusal := s.specialWord (.flog2 w) w .log2
def execFsin (w : LA) (s : State) : Host.Outcome State Fault Refusal := s.specialWord (.fsin w) w .sin
def execFcos (w : LA) (s : State) : Host.Outcome State Fault Refusal := s.specialWord (.fcos w) w .cos
def execFtanh (w : LA) (s : State) : Host.Outcome State Fault Refusal := s.specialWord (.ftanh w) w .tanh
def execFsigm (w : LA) (s : State) : Host.Outcome State Fault Refusal := s.specialWord (.fsigm w) w .sigm
def execFerf (w : LA) (s : State) : Host.Outcome State Fault Refusal := s.specialWord (.ferf w) w .erf

end Sys2Proof.Machine
end

