-- ==== Sys2Proof/Machine/LaneConv.lean ====
section
/-! DEFINITION. Conversion between formats, L6 block scaling, and bit planes (R242 to R246). -/

namespace Sys2Proof.Machine

/-- CVT's source format, held in its C field (R242). -/
def cvtSrc (w : LA) : Fmt := match w.c with | .z n => (Fmt.ofCode n.toNat).getD .untyped | _ => .untyped

/-- CVT (R242 to R244); a q destination receives zeros above it (R231). (DEDUCED, log 18) Where src is dst, `.sat` makes an
infinity the greatest finite value of its sign, as round(..., sat) says (R64), though R242 says that every code but a NaN passes
unchanged. (DESIGN CHOICE, log 82) -/
def execCvt (w : LA) (s : State) : Host.Outcome State Fault Refusal :=
  let src := cvtSrc w
  let use_ (x : Core) : LaneUse :=
    let u := laUse w false (regsFor w.fmt) (regsFor src) 0 0 (fun x => x.dataTag src exactTag w.a) x
    { u with regs := Opd.regs w.d (regsFor w.fmt) ++ Opd.regs w.a (regsFor src) }
  s.lane (.cvt w) [(w.d, regsFor w.fmt), (w.a, regsFor src)] use_ fun n k _ x _ =>
    .done (s.setCore n k (x.eachZero w w.fmt (fun l => round (x.real src w.a l) w.fmt w.rnd (w.sub = 1))))

/-- An E8 scale byte from an operand (R243). -/
def Core.scaleByte (x : Core) (o : Opd) (l : Nat) : Nat := x.data .n8 o l

def execCvtBlk (w : LA) (s : State) : Host.Outcome State Fault Refusal :=
  s.laneLA (.cvtBlk w) w .l6 1 1 0 false (fun x => x.dataTag .fp32 exactTag w.a && x.dataTag .n8 exactTag w.b) fun x =>
    x.each w .l6 (fun l =>
      let sc := x.scaleByte w.b l
      if sc = 0xFF then 0x20 else round ((x.real .fp32 w.a l).scale (127 - (sc : Int))) .l6 w.rnd true)

/-- The scale that BSCALE picks (R244): the least under which the magnitude is at most 3444 × 2^−9. -/
def blockScale : Exact → Nat
  | .nan => 0xFF
  | .inf _ => 0xFF
  | .zero _ => 0x7F
  | .fin n d =>
    let fits (sc : Nat) : Bool := ((Exact.fin n d).abs.scale (127 - (sc : Int))).cmp (.fin 3444 512) != .gt
    ((List.range 255).find? fits).getD 254

def execBscale (w : LA) (s : State) : Host.Outcome State Fault Refusal :=
  s.laneLA (.bscale w) w .n8 1 0 0 false (fun x => x.floatTags w) fun x => x.each w .n8 (fun l => blockScale (x.real .fp32 w.a l))

/-- The planes of a brick format (R245). -/
def planes (f : Fmt) : Nat := if f = .l6 then 6 else 4

/-- The number whose bits a test gives. -/
def bitsWhere (n : Nat) (p : Nat → Bool) : Nat := ((List.range n).filter p).foldl (fun a i => a + 2 ^ i) 0

/-- PLANE.PK (R245): lane i of the pair takes plane word i of the 64 elements. -/
def execPlanePk (w : LA) (s : State) : Host.Outcome State Fault Refusal :=
  let f := w.fmt
  s.lane (.planePk w) [(w.d, 2), (w.a, 4)] (laUse w false 2 4 0 0 (fun x => x.tagOk w.a 4 (exactTag f))) fun n k _ x _ =>
    match w.d, w.a with
    | .v d, .v a =>
      let word (i : Nat) : Nat := bitsWhere 64 (fun e => bit (x.gov w.gm) (e % 16) && (x.vv (a.toNat + e / 16) (e % 16)).testBit i)
      .done (s.setCore n k (x.putV d .n64 w.nwb (fun l => if l < planes f then some (word l) else none)))
    | _, _ => .done s

/-- PLANE.UP (R246): four registers, each with its latch. -/
def execPlaneUp (w : LA) (s : State) : Host.Outcome State Fault Refusal :=
  let f := w.fmt
  s.lane (.planeUp w) [(w.d, 4), (w.a, 2)] (laUse w false 4 2 0 0 (fun x => x.tagOk w.a 2 isI64)) fun n k _ x _ =>
    match w.d, w.a with
    | .v d, .v a =>
      let code (r l : Nat) : Nat := bitsWhere (planes f) (fun i => (x.pairv a.toNat i).testBit (16 * r + l))
      let put (y : Core) (r : Nat) : Core :=
        y.putV (d + BitVec.ofNat 8 r) f w.nwb (fun l => if bit (x.gov w.gm) l then some (code r l) else none)
      .done (s.setCore n k ([0, 1, 2, 3].foldl put x))
    | _, _ => .done s

end Sys2Proof.Machine
end

