-- ==== Sys2Proof/Machine/LaneCross.lean ====
section
/-! DEFINITION. Shuffles, reductions, scans, intersection and compaction: the words that read other lanes of their core (R225 to
R227, R229, R230). -/

namespace Sys2Proof.Machine

/-! ### Shuffles and broadcast (R225) -/

/-- A shuffle: each lane takes the lane that `src` gives for its own number and index. -/
def State.shuffle (s : State) (i : Instr) (w : LA) (src : Nat → Nat → Nat) : Host.Outcome State Fault Refusal :=
  let f := w.fmt
  s.laneLA i w f (regsFor f) 1 0 false (fun x => x.dataTag f sameWidth w.a && x.indexTag w.b) fun x =>
    x.each w f (fun l => x.data f w.a (src l (x.index w.b l % 16) % 16))

def execShfl (w : LA) (s : State) : Host.Outcome State Fault Refusal := s.shuffle (.shfl w) w (fun _ k => k)
def execShflRot (w : LA) (s : State) : Host.Outcome State Fault Refusal := s.shuffle (.shflRot w) w (fun l k => l + k)
def execShflXor (w : LA) (s : State) : Host.Outcome State Fault Refusal := s.shuffle (.shflXor w) w (fun l k => l ^^^ k)
def execBcast (w : LA) (s : State) : Host.Outcome State Fault Refusal := s.shuffle (.bcast w) w (fun _ k => k)

/-! ### Reductions and scans (R226, R227) -/

/-- How two codes combine in a reduction or a scan. -/
abbrev RedFn := Fmt → Rnd → Nat → Nat → Nat

/-- Integers of two codes. -/
def codeInt (f : Fmt) (x : Nat) : Int := if Fmt.isSigned f then signed (Fmt.width f) x else (x : Nat)

def rfAdd : RedFn := fun f r x y =>
  if Fmt.isInt f then (x + y) % 2 ^ Fmt.width f else round ((valueOf f x).add r (valueOf f y)) f r false
def rfLeast (greatest : Bool) : RedFn := fun f _ x y =>
  if Fmt.isInt f then (if codeInt f x ≤ codeInt f y then (if greatest then y else x) else (if greatest then x else y))
  else round (Exact.least greatest (valueOf f x) (valueOf f y)) f .rne false
def rfAnd : RedFn := fun _ _ x y => x &&& y
def rfOr : RedFn := fun _ _ x y => x ||| y

/-- One level of the tree: neighbours combine, an empty one passes the other unchanged (R226). -/
def redLevel (op : Nat → Nat → Nat) : List (Option Nat) → List (Option Nat)
  | x :: y :: t =>
    (match x, y with
     | some a, some b => some (op a b)
     | some a, none => some a
     | none, b => b) :: redLevel op t
  | t => t

/-- The tree over sixteen lanes. -/
def redTree (op : Nat → Nat → Nat) (lanes : List (Option Nat)) : Option Nat :=
  (redLevel op (redLevel op (redLevel op (redLevel op lanes)))).headD none

/-- A code as a result carries it: any NaN is the canonical one (R51). -/
def canonCode (f : Fmt) (x : Nat) : Nat := if valueOf f x = .nan then canonNan f else x

/-- The lanes that a reduction or scan takes: live and in the governing mask. A NaN is canonical from the start, as every later
NaN of the tree or the scan is, so that a lane which passes alone carries no payload (R51). (DEDUCED, log 70) -/
def Core.selected (x : Core) (w : LA) : List (Option Nat) :=
  lanes16.map (fun l => if bit (x.gov w.gm) l then some (canonCode w.fmt (x.data w.fmt w.a l)) else none)

/-- Sources of a reduction or scan: an integer format as the integer words, a floating one exactly. -/
def Core.redTag (x : Core) (w : LA) : Bool := x.dataTag w.fmt (fun f t => if Fmt.isInt f then sameInt f t else t = f) w.a

def State.reduce (s : State) (i : Instr) (w : LA) (op : RedFn) (empty : Nat) : Host.Outcome State Fault Refusal :=
  s.laneLA i w w.fmt (regsFor w.fmt) 0 0 true (fun x => x.redTag w) fun x =>
    match w.d with
    | .q n => x.putQ n w.fmt w.nwb ((redTree (op w.fmt w.rnd) (x.selected w)).getD empty)
    | _ => x

def execRedAdd (w : LA) (s : State) : Host.Outcome State Fault Refusal := s.reduce (.redAdd w) w rfAdd 0
def execRedMin (w : LA) (s : State) : Host.Outcome State Fault Refusal := s.reduce (.redMin w) w (rfLeast false) 0
def execRedMax (w : LA) (s : State) : Host.Outcome State Fault Refusal := s.reduce (.redMax w) w (rfLeast true) 0
def execRedAnd (w : LA) (s : State) : Host.Outcome State Fault Refusal := s.reduce (.redAnd w) w rfAnd (2 ^ 64 - 1)
def execRedOr (w : LA) (s : State) : Host.Outcome State Fault Refusal := s.reduce (.redOr w) w rfOr 0

/-- Scan in ascending lane order; an exclusive scan writes what came before. The first selected lane starts the
sum (R227). -/
def scanLanes (op : Nat → Nat → Nat) (ex : Bool) (ident : Nat) : Option Nat → List (Option Nat) → List (Option Nat)
  | _, [] => []
  | acc, none :: t => none :: scanLanes op ex ident acc t
  | acc, some a :: t =>
    let acc' := match acc with | some b => op b a | none => a
    some (if ex then acc.getD ident else acc') :: scanLanes op ex ident (some acc') t

/-- The least value of a format, as its code. -/
def leastCode (f : Fmt) : Nat := if Fmt.isInt f then wrap (Fmt.width f) (intMin f) else round (.inf true) f .rne false

def State.scan (s : State) (i : Instr) (w : LA) (op : RedFn) (ident : Nat) : Host.Outcome State Fault Refusal :=
  s.laneLA i w w.fmt (regsFor w.fmt) 0 0 false (fun x => x.redTag w) fun x =>
    let res := scanLanes (op w.fmt w.rnd) (w.sub = 1) ident none (x.selected w)
    match w.d with
    | .v n => x.putV n w.fmt w.nwb (fun l => res.getD l none)
    | _ => x

def execScanAdd (w : LA) (s : State) : Host.Outcome State Fault Refusal := s.scan (.scanAdd w) w rfAdd 0
def execScanMax (w : LA) (s : State) : Host.Outcome State Fault Refusal := s.scan (.scanMax w) w (rfLeast true) (leastCode w.fmt)

/-! ### ISECT, COMPACT, EXPAND (R229, R230) -/

/-- ISECT: counts into every live lane of the governing mask, matches into the mask. -/
def execIsect (w : LA) (s : State) : Host.Outcome State Fault Refusal :=
  let f := w.fmt
  let k := regsFor f
  s.lane (.isect w) [(w.d, 1), (w.a, k), (w.b, k)]
    (laUse w false 1 k k 0 (fun x => [w.a, w.b].all (x.dataTag f sameInt))) fun n kk _ x _ =>
    let sel := setBits 16 (x.gov w.gm).toNat
    let a (l : Nat) : Nat := x.data f w.a l
    let b (l : Nat) : Nat := x.data f w.b l
    let h := (sel.getLast?).getD 0
    let lim := min (a h) (b h)
    let adva := (sel.filter (fun l => decide (a l ≤ lim))).length
    let advb := (sel.filter (fun l => decide (b l ≤ lim))).length
    let hits := (sel.filter (fun l => sel.any (fun j => a l = b j))).foldl (fun m l => m + 2 ^ l) 0
    let y := match w.d with
      | .v d => x.putV d .n32 w.nwb (fun l => if sel.contains l then some (adva + 256 * advb) else none)
      | _ => x
    let y := match w.c with | .m m => y.putM m w.nwb (BitVec.ofNat 16 hits) | _ => y
    .done (s.setCore n kk y)

/-- COMPACT and EXPAND, by what the i-th selected lane moves. With no write-back b0 holds what vd would have been given: after
COMPACT the moved values in lanes 0 to n-1, though R201 zeroes b0 outside the governing mask, since R230 lets that mask select
sources alone. (DESIGN CHOICE, log 81) -/
def State.pack (s : State) (i : Instr) (w : LA) (res : (Nat → Nat) → List Nat → Nat → Option Nat) : Host.Outcome State Fault Refusal :=
  let f := w.fmt
  s.laneLA i w f (regsFor f) 0 0 false (fun x => x.dataTag f sameWidth w.a) fun x =>
    match w.d with
    | .v n => x.putV n f w.nwb (res (fun l => x.data f w.a l) (setBits 16 (x.gov w.gm).toNat))
    | _ => x

def execCompact (w : LA) (s : State) : Host.Outcome State Fault Refusal :=
  s.pack (.compact w) w fun a sel i => (sel[i]?).map a
def execExpand (w : LA) (s : State) : Host.Outcome State Fault Refusal :=
  s.pack (.expand w) w fun a sel l => if sel.contains l then some (a (sel.idxOf l)) else none

end Sys2Proof.Machine
end

