-- ==== Sys2Proof/Machine/LaneMask.lean ====
section
/-! DEFINITION. The mask words, LEXIT and VOTE (R175, R192, R222 to R224, R228). -/

namespace Sys2Proof.Machine

/-- The mask that an operand names. -/
def Core.maskOf (x : Core) (o : Opd) : BitVec 16 := match o with | .m n => x.mask n | _ => 0

/-- A mask word: sixteen bits, limited to the live mask (R222). -/
def State.maskWord (s : State) (i : Instr) (w : LA) (op : Core → BitVec 16) : Host.Outcome State Fault Refusal :=
  s.laneLA i w .untyped 1 0 0 false (fun x => x.indexTag w.a) fun x =>
    match w.d with
    | .m n => x.putM n w.nwb (op x &&& x.live)
    | _ => x

def execMAnd (w : LA) (s : State) : Host.Outcome State Fault Refusal := s.maskWord (.mAnd w) w fun x => x.maskOf w.a &&& x.maskOf w.b
def execMOr (w : LA) (s : State) : Host.Outcome State Fault Refusal := s.maskWord (.mOr w) w fun x => x.maskOf w.a ||| x.maskOf w.b
def execMXor (w : LA) (s : State) : Host.Outcome State Fault Refusal := s.maskWord (.mXor w) w fun x => x.maskOf w.a ^^^ x.maskOf w.b
def execMNot (w : LA) (s : State) : Host.Outcome State Fault Refusal := s.maskWord (.mNot w) w fun x => ~~~(x.maskOf w.a)
def execMFromq (w : LA) (s : State) : Host.Outcome State Fault Refusal :=
  s.maskWord (.mFromq w) w fun x => BitVec.ofNat 16 (x.index w.a 0)

/-- M.TOQ (R223). -/
def execMToq (w : LA) (s : State) : Host.Outcome State Fault Refusal :=
  s.laneLA (.mToq w) w .untyped 0 0 0 true (fun _ => true) fun x =>
    match w.d with
    | .q n => if w.nwb then x else { x with q := tput x.q n.toNat ((x.maskOf w.a &&& x.gov w.gm).setWidth 64) }
    | _ => x

/-! ### Leaving (R175, R224) -/

/-- One part of an MMA slot ends (R300). (DEDUCED, log 34) -/
def Ctx.endPart (c : Ctx) (f : BitVec 6) (failed : Bool) : Ctx :=
  let x := c.slot f
  match x.state, x.work with
  | .pending, .mma p b => c.setSlot f { x with work := .mma (p - 1) (b || failed) }
  | _, _ => c

/-- A core leaves its context: what is left in its buffer is discarded, so it issues none of those matrix operations, and no vote
waits for it. (DEDUCED, log 34) -/
def State.leaveCore (s : State) (n slot k : Nat) : State :=
  match s.core? n k with
  | none => s
  | some x =>
    let mmas := x.buf.filter (fun w => slice w.w 9 0 = 0x240)
    let end_ (c : Ctx) (w : SWord) : Ctx := c.endPart (BitVec.ofNat 6 (slice w.w 60 55)) false
    let s := s.modCtx n slot (fun c =>
      let c := mmas.foldl end_ c
      { c with votes := c.votes.map (fun v => { v with needs := v.needs.filter (· != k) }) })
    s.setCore n k { x with left := true, buf := [], hold := none }

/-- LEXIT (R224). -/
def execLexit (w : LA) (s : State) : Host.Outcome State Fault Refusal :=
  s.lane (.lexit w) [] (laUse w true 0 0 0 0 (fun _ => true)) fun n k _ x _ =>
    let live := x.live &&& ~~~(x.gov w.gm)
    let s := if live = 0 then s.leaveCore n s.focus.slot k else s
    .done (s.modCore n k (fun y => { y with live := live }))

/-! ### VOTE (R192, R228) -/

/-- A core's part of a vote, by kind. -/
def Core.votePart (x : Core) (w : LA) : Nat :=
  let g := x.gov w.gm
  let on := setBits 16 (g &&& x.maskOf w.a).toNat
  match w.sub.toNat with
  | 0 => boolNat (on ≠ [])
  | 1 => boolNat (g &&& ~~~(x.maskOf w.a) = 0)
  | 2 => on.length
  | 3 => match on.head? with | some l => x.ctxLane l | none => 2 ^ 64 - 1
  | _ => match w.a with | .q n => if g = 0 then 0 else (x.qv n).toNat | _ => 0

/-- How parts combine. -/
def voteJoin (sub : BitVec 3) (a b : Nat) : Nat :=
  match sub.toNat with
  | 0 => a ||| b
  | 1 => a &&& b
  | 3 => min a b
  | _ => (a + b) % 2 ^ 64

/-- VOTE: the first core that reaches the word reserves an entry; while none is free the word waits (R192). -/
def execVote (w : LA) (s : State) : Host.Outcome State Fault Refusal :=
  s.lane (.vote w) [] (laUse w true 0 0 0 0 (fun _ => true)) fun n k c x e =>
    if c.votes.any (fun v => v.e = e && !v.reserved) && decide (16 ≤ s.votesHeld n) then .wait s cVoteq
    else
      let cast (v : VoteEnt) : VoteEnt :=
        if v.e = e && v.needs.contains k then
          { v with reserved := true, needs := v.needs.filter (· != k),
                   value := BitVec.ofNat 64 (voteJoin w.sub v.value.toNat (x.votePart w)) }
        else v
      .done (s.setCtx n s.focus.slot { c with votes := c.votes.map cast })

end Sys2Proof.Machine
end

