-- ==== Sys2Proof/Machine/LaneMem.lean ====
section
/-! DEFINITION. The lane memory words (R265 to R280). -/

namespace Sys2Proof.Machine

/-! ### Checks (R280) -/

/-- Where one lane's element goes, or why it fails. -/
inductive Spot where
  | at_ (p : Part)
  | wait
  | fail (kind : Nat)
  deriving DecidableEq, Repr

/-- One element that a lane asks for: its address before translation, and what it carries. -/
structure Want where
  lane : Nat
  reg  : Nat
  elem : Nat
  size : Nat
  data : Nat
  cmp  : Nat
  deriving DecidableEq, Repr

def Want.part (w : Want) (va : W72) (pa : Nat) (ord : BitVec 2) (h : Hint) : Part :=
  { lane := w.lane, reg := w.reg, elem := w.elem, va := va, pa := pa, size := w.size, ord := ord, hint := h,
    data := BitVec.ofNat 128 w.data, cmp := BitVec.ofNat 128 w.cmp, done := false, acked := false, lost := false }

/-- Translate wanted elements one after another for core k; a walk that failed is not forgotten before all have been found. -/
def State.placeMem (s : State) (n k : Nat) (c : Ctx) (write : Bool) : List (Want × W72) → List Spot × State
  | [] => ([], s)
  | (w, va) :: t =>
    match s.xlate n c.ring va write (userOf c.uid (k + 1)) with
    | (.place p, s') => let (r, u) := s'.placeMem n k c write t; (.at_ (w.part va p.pa p.ord p.hint) :: r, u)
    | (.wait _, s') => let (r, u) := s'.placeMem n k c write t; (.wait :: r, u)
    | (.fail e, _) => let (r, u) := s.placeMem n k c write t; (.fail e.toNat :: r, u)

/-- Walks that failed for a core have been seen by it. -/
def State.forgetWalks (s : State) (user : Nat × Nat) : State :=
  let drop (w : Walk) : Walk := if w.kind.isSome then { w with users := w.users.filter (· != user) } else w
  { s with walks := (s.walks.map drop).filter (fun w => w.kind.isNone || w.users != []) }

/-- The scratchpad bytes of a launch's partition (R248). -/
def scratchSize (p : W32) : Nat := sgran p * 4096

/-- An element in a scratchpad, by the core's key and offset. -/
def Want.inSp (w : Want) (key off : Nat) : Spot := .at_ (w.part (BitVec.ofNat 72 off) (spAddr key off) 1 .normal)

/-- Where a window address leads (R250, R251): the core's key. -/
def State.windowCore (s : State) (n : Nat) (c : Ctx) (wa : Nat) : Option Nat :=
  let diew := wa.testBit 27
  let cl := bits wa 26 25
  let target := if diew then 4 * dieOf n + cl else n
  if bits wa 31 28 ≠ 0 || (!diew && cl ≠ 0) then none
  else
    match s.core? target (bits wa 24 18) with
    | none => none
    | some x =>
      match s.ctx? target x.slot with
      | some d => if d.launch = c.launch then some (coreKey target (bits wa 24 18)) else none
      | none => none

/-- The kinds of the lanes that failed, four bits a lane, each with the first of its failures; and its lowest failing address. -/
def kindWord (fails : List (Nat × Nat)) : W64 :=
  BitVec.ofNat 64 ((lanes16.filterMap (fun l => (fails.find? (fun f => f.1 = l)).map (fun f => f.2 * 2 ^ (4 * l)))).foldl (· + ·) 0)

/-- The stop of a lane word whose lanes fail, each with its kind (R280): a table behind a failed link is a failed link (R383), and a
table entry that the retry could not read is RETRIED, with its error record's LCLOCK (R382, R426). (DEDUCED, log 33) -/
def whyLanes (fails : List (Nat × Nat × W72)) (first : Nat × Nat × W72) (clk : BitVec 48) : Why :=
  if first.2.1 = kLink.toNat then { cls := 0x31, retried := true, addr := first.2.2, clk := some clk }
  else
    let table := fails.any (fun g => g.2.1 = kTableErr.toNat)
    { cls := 0x24, retried := table, kinds := kindWord (fails.map (fun g => (g.1, g.2.1))), addr := first.2.2,
      clk := if table then some clk else none }

/-- Start a lane word's access once every lane passes its checks. `items` holds each element with the address it names; `early`
the kinds that stand before any translation; `spots` finds the places. No lane fails alone: one failure stops them all. -/
def State.laneAccess (s : State) (i : Instr) (n k : Nat) (c : Ctx) (e : Nat) (w : LM) (op : AccOp) (dest : Dest)
    (fails : List (Nat × Nat × W72)) (items : List (Want × W72)) (find : State → List (Want × W72) → List Spot × State)
    (upd : Core → Nat → Bool → Core) : LaneEnd :=
  if 1023 ≤ s.stream c.uid w.os.toNat then .wait s cStreamsat
  else
    let bad := fails.map (fun f => f.1)
    let todo := items.filter (fun p => !bad.contains p.1.lane)
    let (spots, t) := find s todo
    if spots.any (fun p => p = .wait) then .wait t cOperand
    else
      let late := (todo.zip spots).filterMap (fun p => match p.2 with | .fail kd => some (p.1.1.lane, kd, p.1.2) | _ => none)
      let all := fails ++ late
      match minBy (fun f : Nat × Nat × W72 => f.1) all with
      | some f => .fault (s.forgetWalks (userOf c.uid (k + 1))) (whyLanes all f (s.walkClk (dieOf n) c.ring f.2.2))
      | none =>
        let parts := spots.filterMap (fun p => match p with | .at_ q => some q | _ => none)
        let id := t.nextId
        let t := t.modCore n k (fun x => upd x id (parts ≠ []))
        let word := (encodeLane i).getD 0
        let opn := match (s.core? n k).bind (fun x => x.buf.head?) with | some h => h.op | none => c.ops
        .done (t.startAccess (fun id =>
          { id := id, cl := n, slot := s.focus.slot, uid := c.uid, agent := .core k, stream := w.os, pm := w.pm, scope := w.sc,
            key := ⟨opn, 0, e⟩, op := op, dest := dest, parts := parts, where_ := BitVec.ofNat 64 e, word := word, done := false, bad := false,
            clk := 0 }))

/-! ### Addresses and destinations -/

/-- The lanes that a memory word acts on. -/
def Core.lanesOf (x : Core) (w : LM) : List Nat := setBits 16 (x.gov w.gm).toNat

/-- A lane's virtual address (R266). -/
def Core.vaddr (x : Core) (w : LM) (l : Nat) : W72 :=
  (BitVec.ofInt 64 ((x.addr w.a l : Int) + x.offset w.b l)).signExtend 72

/-- A lane's scratch offset or window address (R274). -/
def Core.saddr (x : Core) (w : LM) (l : Nat) : Nat := wrap 32 ((x.index w.a l : Int) + x.offset w.b l)

/-- A memory word's elements and the registers that each takes (R273). -/
def LMcount (w : LM) : Nat := memCount w.fmt w.wid
def LMregs (w : LM) : Nat := LMcount w * regsFor w.fmt

/-- Set a loading word's tags and push its latches, which the access fills (R58, R201). In a lane outside the mask a latch holds
the register's value, or zero with no-write-back. -/
def loadUpd (w : LM) (count : Nat) (x : Core) (id : Nat) (waits : Bool) : Core :=
  match w.d with
  | .v d =>
    let r := regsFor w.fmt
    let x := if w.nwb then x else { x with vtag := (Opd.regs w.d (count * r)).foldl (fun t g => tput t g w.fmt) x.vtag }
    (List.range count).foldl (fun x j =>
      let reg := d.toNat + j * r
      let keep (l : Nat) : Nat := if w.nwb || bit (x.gov w.gm) l then 0 else if Fmt.wide w.fmt then x.pairv reg l else x.vv reg l
      x.push ⟨lanes16.map (fun l => (l, BitVec.ofNat 64 (keep l))), w.fmt, if waits then some (id, j) else none⟩) x
  | _ => x

/-- The use of a memory word: the registers of its operands, and its tags. -/
def lmUse (w : LM) (kd ka kb : Nat) (tags : Core → Bool) (x : Core) : LaneUse :=
  { regs := Opd.regs w.d kd ++ Opd.regs w.a ka ++ Opd.regs w.b kb, latches := latchesOf [w.d, w.a, w.b], tags := tags x, part := false }

/-- The elements of a load or store: `va` gives a lane's address, `size` the bytes of one element. -/
def Core.wants (x : Core) (w : LM) (count : Nat) (va : Nat → W72) (data : Nat → Nat → Nat) : List (Want × W72) :=
  (x.lanesOf w).flatMap (fun l => (List.range count).map (fun j =>
    let reg := match w.d with | .v d => d.toNat + j * regsFor w.fmt | _ => 0
    (⟨l, reg, j, Fmt.bytes w.fmt, data j l, 0⟩, va l + BitVec.ofNat 72 (j * Fmt.bytes w.fmt))))

/-- The stored image of element j in a lane: the operand, or a register after D. -/
def Core.stored (x : Core) (w : LM) (j l : Nat) : Nat :=
  match w.d with
  | .v d => x.data w.fmt (.v (d + BitVec.ofNat 8 (j * regsFor w.fmt))) l
  | o => x.data w.fmt o l

/-- A lane fails its alignment. -/
def Core.misaligned (x : Core) (w : LM) (size : Nat) (va : Nat → W72) : List (Nat × Nat × W72) :=
  (x.lanesOf w).filterMap (fun l => if (va l).toNat % size ≠ 0 then some (l, 6, va l) else none)

/-! ### LD, ST and their scratchpad and window forms (R272 to R274) -/

def execLaneLd (w : LM) (s : State) : Host.Outcome State Fault Refusal :=
  s.lane (.laneLd w) [(w.d, LMregs w), (w.a, 2), (w.b, 1)]
    (lmUse w (LMregs w) 2 1 (fun x => x.addrTag w.a && x.indexTag w.b)) fun n k c x e =>
    s.laneAccess (.laneLd w) n k c e w .load (.lanes w.fmt w.nwb) (x.misaligned w (Fmt.bytes w.fmt) (x.vaddr w))
      (x.wants w (LMcount w) (x.vaddr w) (fun _ _ => 0)) (fun s t => s.placeMem n k c false t) (loadUpd w (LMcount w))

def execLaneSt (w : LM) (s : State) : Host.Outcome State Fault Refusal :=
  s.lane (.laneSt w) [(w.d, LMregs w), (w.a, 2), (w.b, 1)]
    (lmUse w (LMregs w) 2 1 (fun x => x.tagOk w.d (LMregs w) (sameWidth w.fmt) && x.addrTag w.a && x.indexTag w.b)) fun n k c x e =>
    s.laneAccess (.laneSt w) n k c e w .store .none (x.misaligned w (Fmt.bytes w.fmt) (x.vaddr w))
      (x.wants w (LMcount w) (x.vaddr w) (x.stored w)) (fun s t => s.placeMem n k c true t) (fun x _ _ => x)

/-- Scratchpad addresses as 72-bit ones. -/
def Core.sva (x : Core) (w : LM) (l : Nat) : W72 := BitVec.ofNat 72 (x.saddr w l)

/-- A lane's bytes reach past the scratchpad's last offset (R248). (DEDUCED, log 35) -/
def Core.pastEnd (x : Core) (w : LM) (part : W32) (bytes mask : Nat) (va : Nat → W72) : List (Nat × Nat × W72) :=
  (x.lanesOf w).filterMap (fun l => if decide (scratchSize part < (va l).toNat % mask + bytes) then some (l, 7, va l) else none)

/-- Elements in the core's own scratchpad. -/
def placeSp (key : Nat) (s : State) (t : List (Want × W72)) : List Spot × State := (t.map (fun p => p.1.inSp key p.2.toNat), s)

/-- Elements through a window, by the core that each lane's address names (R250, R251). -/
def placeWin (n : Nat) (c : Ctx) (s : State) (t : List (Want × W72)) : List Spot × State :=
  (t.map (fun p => match s.windowCore n c p.2.toNat with
    | some key => p.1.inSp key (bits p.2.toNat 17 0)
    | none => .fail 8), s)

/-- The checks of a scratch word, of which a lane reports the first that it fails. (DEDUCED, log 35) -/
def Core.scratchFails (x : Core) (w : LM) (part : W32) (size bytes mask : Nat) : List (Nat × Nat × W72) :=
  let al := x.misaligned w size (x.sva w)
  al ++ (x.pastEnd w part bytes mask (x.sva w)).filter (fun f => !al.any (fun g => g.1 = f.1))

/-- LD.SP, ST.SP, LD.WIN and ST.WIN. -/
def State.scratchWord (s : State) (i : Instr) (w : LM) (load win : Bool) : Host.Outcome State Fault Refusal :=
  let tags (x : Core) : Bool := (load || x.tagOk w.d (LMregs w) (sameWidth w.fmt)) && x.indexTag w.a && x.indexTag w.b
  s.lane i [(w.d, LMregs w), (w.a, 1), (w.b, 1)] (lmUse w (LMregs w) 1 1 tags) fun n k c x e =>
    let fails := x.scratchFails w (s.partition c) (Fmt.bytes w.fmt) (LMcount w * Fmt.bytes w.fmt) (if win then 2 ^ 18 else 2 ^ 32)
    let find := if win then placeWin n c else placeSp (coreKey n k)
    s.laneAccess i n k c e w (if load then .load else .store) (if load then .lanes w.fmt w.nwb else .none) fails
      (x.wants w (LMcount w) (x.sva w) (if load then fun _ _ => 0 else x.stored w)) find (if load then loadUpd w (LMcount w) else fun x _ _ => x)

def execLdSp (w : LM) (s : State) : Host.Outcome State Fault Refusal := s.scratchWord (.ldSp w) w true false
def execStSp (w : LM) (s : State) : Host.Outcome State Fault Refusal := s.scratchWord (.stSp w) w false false
def execLdWin (w : LM) (s : State) : Host.Outcome State Fault Refusal := s.scratchWord (.ldWin w) w true true
def execStWin (w : LM) (s : State) : Host.Outcome State Fault Refusal := s.scratchWord (.stWin w) w false true

/-! ### ATOM and CAS (R275, R276) -/

/-- The memory units' operation of an ATOM. -/
def atomOp (w : LM) : AccOp :=
  match w.wid.toNat, w.fmt with
  | 0, .fp32 => .fadd
  | 0, _ => .atom .add
  | 1, .fp32 => .fmin
  | 1, f => .atom (if Fmt.isSigned f then .smin else .nmin)
  | 2, .fp32 => .fmax
  | 2, f => .atom (if Fmt.isSigned f then .smax else .nmax)
  | _, _ => .atom .or

/-- A lane's own address takes no offset operand in ATOM and CAS. -/
def Core.vaddr0 (x : Core) (w : LM) (l : Nat) : W72 := (BitVec.ofNat 64 (x.addr w.a l)).signExtend 72

def State.atomWord (s : State) (i : Instr) (w : LM) (op : AccOp) (cas : Bool) : Host.Outcome State Fault Refusal :=
  let k := regsFor w.fmt
  let tags (x : Core) : Bool :=
    x.addrTag w.a && x.dataTag w.fmt (if w.fmt = .fp32 then (fun f t => t = f) else sameWidth) w.b
      && (!cas || x.tagOk w.d k (sameWidth w.fmt))
  s.lane i [(w.d, k), (w.a, 2), (w.b, k)] (lmUse w k 2 k tags) fun n kk c x e =>
    let items := (x.lanesOf w).map (fun l =>
      let reg := match w.d with | .v d => d.toNat | _ => 0
      ((⟨l, reg, 0, Fmt.bytes w.fmt, x.data w.fmt w.b l, if cas then x.data w.fmt w.d l else 0⟩ : Want), x.vaddr0 w l))
    s.laneAccess i n kk c e w op (.lanes w.fmt w.nwb) (x.misaligned w (Fmt.bytes w.fmt) (x.vaddr0 w)) items
      (fun s t => s.placeMem n kk c true t) (loadUpd w 1)

def execLaneAtom (w : LM) (s : State) : Host.Outcome State Fault Refusal := s.atomWord (.laneAtom w) w (atomOp w) false
def execLaneCas (w : LM) (s : State) : Host.Outcome State Fault Refusal := s.atomWord (.laneCas w) w .cas true

/-! ### LDCP, STCP and PREF (R277, R278) -/

/-- A copy between memory and the core's own scratchpad. -/
def State.copyWord (s : State) (i : Instr) (w : LM) (load : Bool) : Host.Outcome State Fault Refusal :=
  let bytes := 2 ^ (w.wid.toNat + 1)
  s.lane i [(w.a, 2), (w.b, 1)] (lmUse w 0 2 1 (fun x => x.addrTag w.a && x.indexTag w.b)) fun n k c x e =>
    let soff (l : Nat) : Nat := x.index w.b l
    let fails := (x.lanesOf w).filterMap (fun l =>
      if (x.vaddr0 w l).toNat % bytes ≠ 0 ∨ soff l % bytes ≠ 0 then some (l, 6, x.vaddr0 w l)
      else if scratchSize (s.partition c) < soff l + bytes then some (l, 7, x.vaddr0 w l) else none)
    let items := (x.lanesOf w).map (fun l => ((⟨l, spAddr (coreKey n k) (soff l), 0, bytes, 0, 0⟩ : Want), x.vaddr0 w l))
    s.laneAccess i n k c e w (if load then .ldcp else .stcp) .none fails items (fun s t => s.placeMem n k c (!load) t) (fun x _ _ => x)

def execLdcp (w : LM) (s : State) : Host.Outcome State Fault Refusal := s.copyWord (.ldcp w) w true
def execStcp (w : LM) (s : State) : Host.Outcome State Fault Refusal := s.copyWord (.stcp w) w false

/-- PREF: each line that translates to cached memory and can be read is brought in; the others are dropped. (DEDUCED, log 36) -/
def execPref (w : LM) (s : State) : Host.Outcome State Fault Refusal :=
  s.lane (.pref w) [(w.a, 2), (w.b, 1)] (lmUse w 0 2 1 (fun x => x.addrTag w.a && x.indexTag w.b)) fun n k c x _ =>
    let items := (x.lanesOf w).flatMap (fun l => (List.range (2 ^ (w.wid.toNat - 1))).map (fun j =>
      ((⟨l, 0, j, 1, 0, 0⟩ : Want), BitVec.ofNat 72 ((x.vaddr w l).toNat / 128 * 128) + BitVec.ofNat 72 (128 * j))))
    let (spots, t) := s.placeMem n k c false items
    if spots.any (fun p => p = .wait) then .wait t cOperand
    else
      let pull (s : State) (p : Part) : State :=
        if !(homeOf p.pa).cached || !s.linkOpen p.pa || s.badAt (p.pa / 128 * 128) 128 then s
        else if narrowScope w.sc then
          let (l, s) := s.bayFill n (k / 8) (lineOf p.pa) p.hint
          s.bayPut n (k / 8) l p.hint
        else (s.reach (dieOf n) p.pa).l2Fill (lineOf p.pa) p.hint
      .done ((spots.filterMap (fun p => match p with | .at_ q => some q | _ => none)).foldl pull (t.forgetWalks (userOf c.uid (k + 1))))

/-! ### SGATH, SSCAT and HIST (R279) -/

/-- The indexed scratchpad words: p = soff + idx × e. -/
def State.indexedWord (s : State) (i : Instr) (w : LM) (op : AccOp) (load : Bool) (data : Core → Nat → Nat) : Host.Outcome State Fault Refusal :=
  let r := regsFor w.fmt
  let size := Fmt.bytes w.fmt
  let tags (x : Core) : Bool := (load || x.tagOk w.d r (sameWidth w.fmt)) && x.indexTag w.a && x.indexTag w.b
  s.lane i [(w.d, r), (w.a, 1), (w.b, 1)] (lmUse w r 1 1 tags) fun n k c x e =>
    let p (l : Nat) : W72 := BitVec.ofNat 72 ((x.index w.a l + x.index w.b l * size) % 2 ^ 32)
    let al := x.misaligned w size p
    let fails := al ++ (x.pastEnd w (s.partition c) size (2 ^ 32) p).filter (fun f => !al.any (fun g => g.1 = f.1))
    s.laneAccess i n k c e w op (if load then .lanes w.fmt w.nwb else .none) fails (x.wants w 1 p (fun _ l => data x l))
      (placeSp (coreKey n k)) (if load then loadUpd w 1 else fun x _ _ => x)

def execSgath (w : LM) (s : State) : Host.Outcome State Fault Refusal := s.indexedWord (.sgath w) w .load true (fun _ _ => 0)
def execSscat (w : LM) (s : State) : Host.Outcome State Fault Refusal := s.indexedWord (.sscat w) w .store false (fun x l => x.data w.fmt w.d l)
def execHist (w : LM) (s : State) : Host.Outcome State Fault Refusal := s.indexedWord (.hist w) w (.atom .add) true (fun _ _ => 1)

end Sys2Proof.Machine
end

