-- ==== Sys2Proof/Machine/Tensors.lean ====
section
/-! DEFINITION. Tensor descriptors: their fields and checks, where an element lies, and who owns it (R70 to R88). -/

namespace Sys2Proof.Machine

/-- A tensor descriptor (R73); lists have five items, dimension 0 first. -/
structure Desc where
  words  : List W64
  base   : W72
  fmt    : Option Fmt
  rank   : Nat
  dist   : Bool
  perm   : List Nat
  padv   : Nat
  ext    : List Nat
  org    : List Int
  cnt    : List Nat
  stride : List Int
  own    : W72
  blk    : List Nat
  deriving DecidableEq, Repr

def dims : List Nat := [0, 1, 2, 3, 4]

/-- A 72-bit address whose high byte stands elsewhere. -/
def addr72 (hi : Nat) (lo : W64) : W72 := BitVec.ofNat 72 (hi * 2 ^ 64 + lo.toNat)

/-- The fields of sixteen words. -/
def descOf (ws : List W64) : Desc :=
  let w (i : Nat) : W64 := wordAt ws i
  let f := slice (w 1) 55 52
  { words := ws, base := addr72 (slice (w 1) 63 56) (w 0), fmt := if f = 0 then none else Fmt.ofCode f, rank := slice (w 1) 51 49,
    dist := bit (w 1) 48, perm := dims.map (fun i => slice (w 1) (33 + 3 * i + 2) (33 + 3 * i)), padv := slice (w 1) 31 0,
    ext := dims.map (fun i => slice (w (2 + 2 * i)) 63 32), org := dims.map (fun i => signed 32 (w (2 + 2 * i)).toNat),
    cnt := dims.map (fun i => slice (w (3 + 2 * i)) 63 40), stride := dims.map (fun i => signed 40 (w (3 + 2 * i)).toNat),
    own := addr72 (slice (w 13) 63 56) (w 12),
    blk := [slice (w 13) 55 32, slice (w 13) 31 8, slice (w 14) 63 40, slice (w 14) 39 16, slice (w 15) 63 40] }

def Desc.format (d : Desc) : Fmt := d.fmt.getD .untyped
/-- A format held in bricks (R66). -/
def Desc.brick (d : Desc) : Bool := d.format = .l6 || d.format = .i4 || d.format = .n4
def Desc.bsize (d : Desc) : Nat := if d.format = .l6 then 152 else 96
/-- Bytes of one unit of access: an element, or a brick. -/
def Desc.unitSize (d : Desc) : Nat := if d.brick then d.bsize else Fmt.bytes d.format
/-- What addresses and strides must be multiples of. -/
def Desc.align (d : Desc) : Nat := if d.brick then 8 else Fmt.bytes d.format

def Desc.extI (d : Desc) (i : Nat) : Nat := d.ext.getD i 1
def Desc.cntI (d : Desc) (i : Nat) : Nat := d.cnt.getD i 1
def Desc.blkI (d : Desc) (i : Nat) : Nat := d.blk.getD i 1
def Desc.orgI (d : Desc) (i : Nat) : Int := d.org.getD i 0
def Desc.strideI (d : Desc) (i : Nat) : Int := d.stride.getD i 0
/-- Blocks in dimension i (R83). -/
def Desc.nbI (d : Desc) (i : Nat) : Nat := (d.extI i + d.blkI i - 1) / d.blkI i
def Desc.blocks (d : Desc) : Nat := (dims.map d.nbI).foldl (· * ·) 1
def Desc.identity (d : Desc) : Bool := d.perm = dims

/-- The conditions of R75 and R84 that the words of a descriptor show; owner entries are judged as they are read. -/
def Desc.ok (d : Desc) (source : Bool) : Bool :=
  let w (i : Nat) : W64 := wordAt d.words i
  let above (i : Nat) : Bool := decide (d.rank ≤ i)
  !bit (w 1) 32 && slice (w 13) 7 0 = 0 && slice (w 14) 15 0 = 0 && slice (w 15) 39 0 = 0 && d.strideI 0 = 0
    && d.fmt.isSome && decide (1 ≤ d.rank ∧ d.rank ≤ 5)
    && dims.all (fun i => d.extI i ≠ 0 && d.cntI i ≠ 0 && (!d.dist || d.blkI i ≠ 0))
    && dims.all (fun i => !above i || (d.extI i = 1 && d.cntI i = 1 && (!d.dist || d.blkI i = 1) && d.orgI i = 0 && d.strideI i = 0
        && d.perm.getD i 9 = i))
    && dims.all (fun i => d.perm.contains i)
    && (!source || d.identity)
    && (d.dist || d.base.toNat % d.align = 0)
    && dims.all (fun i => d.extI i ≤ 1 || d.strideI i % (d.align : Int) = 0)
    && (!source || d.format ≠ .l6 || (d.orgI 0 % 24 = 0 && d.cntI 0 % 24 = 0))
    && (source || !d.brick ||
        (d.orgI 0 % 192 = 0 && ((d.orgI 0 + d.cntI 0) % 192 = 0 || decide ((d.extI 0 : Int) ≤ d.orgI 0 + d.cntI 0))
          && dims.all (fun i => d.extI i ≤ 1 || d.strideI i % (d.bsize : Int) = 0)))
    && (d.dist || (d.own = 0 && d.blk.all (· == 0)))
    && (!d.dist || (d.base = 0 && d.own.toNat % 16 = 0 && decide (d.blocks ≤ 2 ^ 24)
        && (!d.brick || (d.blkI 0 % 192 = 0 && decide (d.extI 0 ≤ d.blkI 0)))))

/-! ### Coordinates (R70, R71, R76) -/

/-- Position number o of a box of counts. -/
def posOf (cnt : List Nat) (o : Nat) : List Nat :=
  match cnt with
  | [] => []
  | c :: cs => o % c :: posOf cs (o / c)

def boxSize (cnt : List Nat) : Nat := cnt.foldl (· * ·) 1

def Desc.coord (d : Desc) (w : List Nat) : List Int := dims.map (fun i => d.orgI i + (w.getD i 0 : Int))
def Desc.valid (d : Desc) (x : List Int) : Bool := dims.all (fun i => decide (0 ≤ x.getD i 0 ∧ x.getD i 0 < (d.extI i : Int)))

/-- The block of a valid coordinate, and the coordinate within it (R83). -/
def Desc.blockOf (d : Desc) (x : List Int) : Nat :=
  (dims.reverse).foldl (fun b i => (x.getD i 0).toNat / d.blkI i + d.nbI i * b) 0
def Desc.local_ (d : Desc) (x : List Int) : List Int := dims.map (fun i => x.getD i 0 % (d.blkI i : Int))

/-- What an owner entry says (R85). -/
inductive Owner where
  | die (d : Nat) (addr : W72)
  | peer (p : Nat) (addr : W72)
  | absent
  deriving DecidableEq, Repr

/-- An owner entry's two words; none where it is refused. -/
def Desc.ownerOf (d : Desc) (w0 w1 : W64) : Option Owner :=
  let a := addr72 (slice w1 63 56) w0
  let die := slice w1 53 51
  let peer := slice w1 50 39
  if slice w1 38 0 ≠ 0 then none
  else
    match slice w1 55 54 with
    | 0 => if peer = 0 ∧ a.toNat % d.align = 0 then some (.die die a) else none
    | 1 => if die = 0 ∧ peer < 2048 ∧ a.toNat % d.align = 0 then some (.peer peer a) else none
    | 2 => if die = 0 ∧ peer = 0 ∧ a = 0 then some .absent else none
    | _ => none

/-- The owner of block b, among the entries that a command has read. -/
def Desc.owner (d : Desc) (own : List (Nat × W64 × W64)) (b : Nat) : Owner :=
  match own.find? (fun e => e.1 = b) with
  | some (_, w0, w1) => (d.ownerOf w0 w1).getD .absent
  | none => .absent

/-- Where the unit that holds a valid coordinate lies (R71, R83): its block and address; none in an absent block. -/
def Desc.place (d : Desc) (own : List (Nat × W64 × W64)) (x : List Int) : Option (Nat × W72) :=
  let off (x : List Int) : Int :=
    let x0 := x.getD 0 0
    let first : Int := if d.brick then x0 / 192 * (d.bsize : Int) else x0 * (Fmt.bytes d.format : Int)
    [1, 2, 3, 4].foldl (fun s i => s + x.getD i 0 * d.strideI i) first
  if d.dist then
    let b := d.blockOf x
    let at_ (a : W72) : Option (Nat × W72) := some (b, a + BitVec.ofInt 72 (off (d.local_ x)))
    match d.owner own b with
    | .die _ a => at_ a
    | .peer _ a => at_ a
    | .absent => none
  else some (0, d.base + BitVec.ofInt 72 (off x))

/-- The place of an element in its brick. -/
def Desc.inBrick (d : Desc) (x : List Int) : Nat :=
  let x0 := if d.dist then (d.local_ x).getD 0 0 else x.getD 0 0
  (x0 % 192).toNat

/-! ### Elements -/

/-- An element on its way: not moved, padding, a stored code with its scale (0x7F but for L6), or an exact value. -/
inductive Elt where
  | none
  | pad
  | code (c scale : Nat)
  | exact (x : Exact)
  deriving DecidableEq, Repr

/-- The padding code of a descriptor (R74). -/
def Desc.padCode (d : Desc) : Nat :=
  match d.format with
  | .i64 => wrap 64 (signed 32 d.padv)
  | .l6 => d.padv % 64
  | f => d.padv % 2 ^ Fmt.width f

/-- The exact value of a code under a scale (R77). -/
def scaledValue (f : Fmt) (c scale : Nat) : Exact :=
  if f = .l6 then (if scale = 0xFF then .nan else (valueOf .l6 c).scale ((scale : Int) - 127)) else valueOf f c

/-- The exact value of an element read from a source. -/
def Desc.value (s : Desc) : Elt → Exact
  | .code c sc => scaledValue s.format c sc
  | .exact x => x
  | _ => scaledValue s.format s.padCode 0x7F

/-- The code that an element takes in a destination (R77): between equal formats the code itself. -/
def Desc.store (s d : Desc) (r : Rnd) (sat : Bool) (e : Elt) : Nat :=
  match e with
  | .exact x => round x d.format r sat
  | .code c _ => if s.format = d.format then c else round (s.value e) d.format r sat
  | _ => if s.format = d.format then s.padCode else round (s.value e) d.format r sat

/-! ### Bricks (R66, R72, R79) -/

def brickPlanes (f : Fmt) : Nat := if f = .l6 then 6 else 4

/-- The code of element e of a brick. -/
def brickCode (f : Fmt) (bs : List Byte) (e : Nat) : Nat :=
  let p := brickPlanes f
  let on (i : Nat) : Bool := (bs.getD (8 * (p * (e / 64) + i) + e % 64 / 8) 0).toNat.testBit (e % 8)
  ((List.range p).filter on).foldl (fun a i => a + 2 ^ i) 0

/-- The scale of element e of an L6 brick. -/
def brickScale (f : Fmt) (bs : List Byte) (e : Nat) : Nat := if f = .l6 then (bs.getD (144 + e / 24) 0).toNat else 0x7F

/-- The bytes of a brick with the given codes and scales. -/
def brickBytes (f : Fmt) (code : Nat → Nat) (scale : Nat → Nat) : List Byte :=
  let p := brickPlanes f
  let plane (k : Nat) : List Byte := -- byte k of the planes: group, plane, byte
    let g := k / (8 * p)
    let i := k / 8 % p
    let j := k % 8
    [BitVec.ofNat 8 (((List.range 8).filter (fun b => (code (64 * g + 8 * j + b)).testBit i)).foldl (fun a b => a + 2 ^ b) 0)]
  (List.range (24 * p)).flatMap plane ++ (if f = .l6 then (List.range 8).map (fun b => BitVec.ofNat 8 (scale b)) else [])

end Sys2Proof.Machine
end

