-- ==== Sys2Proof/Machine/Engines.lean ====
section
/-! DEFINITION. The copy engines: accepting a command, beginning it, and moving its data unit by unit (R300 to R312, R322 to
R330). -/

namespace Sys2Proof.Machine

/-! ### Accepting a command (R299, R305 to R307) -/

/-- Commands of cluster n's engine that have not ended. -/
def State.held (s : State) (n : Nat) : Nat := (s.cmds.filter (fun c => c.cl = n && !c.ended)).length

/-- A command retires when its engine accepts it: its slot, and its target if it has one, become PENDING. A fault left on a slot that it
has waited for comes first (R304, R337). -/
def State.command (s : State) (i : Instr) (major : BitVec 10) (op : EngOp) (f a b c : BitVec 6) (reads : List (BitVec 6)) (gt : Option (BitVec 6))
    (x : EX) : Host.Outcome State Fault Refusal :=
  s.generator i reads gt.toList fun n slot y =>
    let sl := y.slot f
    if sl.state = .pending then .block s (.slot f)
    else if (waitedFault y i f).isSome then
      match waitedFault y i f with
      | some e => .trap (s.setCtx n slot (clearDres y (slotMask f))) e
      | none => .retire s
    else if 64 ≤ s.held n then .block s .engineRoom
    else if 1023 ≤ s.stream y.uid x.ann.os.toNat then .block s (.stream x.ann.os)
    else
      let id := s.nextId
      let cmd : Cmd :=
        { id := id, cl := n, slot := slot, uid := y.uid, f := f, op := op, a := y.gv a, b := y.gv b, c := y.gv c, x := x, key := ⟨y.ops, 1, y.genSeq⟩,
          begun := false, pos := 0, ra := [], rb := [], rc := [], oa := [], ob := [], sel := [], plan := [], merge := ⟨0, 0, 0, none, none, none, none⟩,
          value := match op with | .gather => BitVec.allOnes 64 | .scatter => BitVec.allOnes 64 | _ => 0,
          code := 0, kind := 0, addr := 0, clk := 0, cancel := false, ended := false, loose := false, lostDies := 0 }
      let sl' := { Slot.reset with state := .pending, op := major, work := .command id, target := gt, stream := x.ann.os, scope := x.ann.sc,
                                   dres := sl.dres, uncorr := sl.uncorr, addr := sl.addr, clk := sl.clk }
      let y := { y.setSlot f sl' with genSeq := y.genSeq + 1 }
      let y := match gt with | some g => { y with gt := tput y.gt g.toNat (.slot f) } | none => y
      .retire { s.setCtx n slot y with cmds := s.cmds ++ [cmd], nextId := id + 1 }

/-- The target that TV names. -/
def tvTarget (tv : Bool) (gt : BitVec 6) : Option (BitVec 6) := if tv then some gt else none

def execCopy (f a b : BitVec 6) (x : EX) (s : State) : Host.Outcome State Fault Refusal :=
  s.command (.copy f a b x) 0x70 .copy f a b 0 [a, b] none x
def execGather (tv : Bool) (f a b c gt : BitVec 6) (x : EX) (s : State) : Host.Outcome State Fault Refusal :=
  s.command (.gather tv f a b c gt x) 0x71 .gather f a b c [a, b, c] (tvTarget tv gt) x
def execScatter (tv : Bool) (f a b c gt : BitVec 6) (x : EX) (s : State) : Host.Outcome State Fault Refusal :=
  s.command (.scatter tv f a b c gt x) 0x72 .scatter f a b c [a, b, c] (tvTarget tv gt) x
def execSpmm (set : Bool) (f a b c : BitVec 6) (x : EX) (s : State) : Host.Outcome State Fault Refusal :=
  s.command (.spmm set f a b c x) 0x73 (.spmm set) f a b c [a, b, c] none x
def execMergeU (tv dz : Bool) (f a b c gt : BitVec 6) (x : EX) (s : State) : Host.Outcome State Fault Refusal :=
  s.command (.mergeU tv dz f a b c gt x) 0x74 (.mergeU dz) f a b c [a, b, c] (tvTarget tv gt) x
def execMergeI (tv : Bool) (f a b c gt : BitVec 6) (x : EX) (s : State) : Host.Outcome State Fault Refusal :=
  s.command (.mergeI tv f a b c gt x) 0x75 .mergeI f a b c [a, b, c] (tvTarget tv gt) x
def execClBcast (f a b : BitVec 6) (x : EX) (s : State) : Host.Outcome State Fault Refusal :=
  s.command (.clBcast f a b x) 0x76 .bcast f a b 0 [a, b] none x
def execClReduce (op : RedOp) (f a b : BitVec 6) (x : EX) (s : State) : Host.Outcome State Fault Refusal :=
  s.command (.clReduce op f a b x) 0x77 (.reduce op) f a b 0 [a, b] none x
def execClAllred (op : RedOp) (f a b : BitVec 6) (x : EX) (s : State) : Host.Outcome State Fault Refusal :=
  s.command (.clAllred op f a b x) 0x78 (.allred op) f a b 0 [a, b] none x
def execClGather (f a b : BitVec 6) (x : EX) (s : State) : Host.Outcome State Fault Refusal :=
  s.command (.clGather f a b x) 0x79 .clGather f a b 0 [a, b] none x
def execClScatter (f a b : BitVec 6) (x : EX) (s : State) : Host.Outcome State Fault Refusal :=
  s.command (.clScatter f a b x) 0x7A .clScatter f a b 0 [a, b] none x
def execClA2a (f a b : BitVec 6) (x : EX) (s : State) : Host.Outcome State Fault Refusal :=
  s.command (.clA2a f a b x) 0x7B .a2a f a b 0 [a, b] none x
def execWback (f a b : BitVec 6) (x : EX) (s : State) : Host.Outcome State Fault Refusal :=
  s.command (.wback f a b x) 0x7C .wback f a b 0 [a, b] none x
def execDropr (f a b : BitVec 6) (x : EX) (s : State) : Host.Outcome State Fault Refusal :=
  s.command (.dropr f a b x) 0x7D .dropr f a b 0 [a, b] none x
def execFill (f a b : BitVec 6) (x : EX) (s : State) : Host.Outcome State Fault Refusal :=
  s.command (.fill f a b x) 0x7E .fill f a b 0 [a, b] none x

/-! ### An engine's accesses -/

/-- How a command ends other than OK (R308): its code, kind and address, and the value its target receives where that has
become known (R309). -/
structure Halt where
  code  : BitVec 8
  kind  : BitVec 4
  addr  : W72
  value : Option W64
  /-- The LCLOCK of the error record that it stands for (R426). -/
  clk   : BitVec 48
  deriving DecidableEq, Repr

/-- A halt of a code alone. -/
def hCode (code : BitVec 8) : Halt := ⟨code, 0, 0, none, 0⟩
def hDesc : Halt := hCode 0x01
def hOverlap : Halt := hCode 0x02
def hOwner : Halt := hCode 0x04
def hScope : Halt := hCode 0x0B
/-- A record that breaks its rules (R308). (DEDUCED, log 24) -/
def hBadrec : Halt := hCode 0x0C

/-- A run of an engine's accesses: the state, and how the first of them at storage ends; it stops at a halt, or, with none, at a
translation that has to wait for its walk. -/
abbrev Eng := StateT (State × Attempt) (Except (Option Halt × State))

def halt {α : Type} (h : Halt) : Eng α := fun p => .error (some h, p.1)
def getS : Eng State := fun p => .ok (p.1, p)
def setS (s : State) : Eng Unit := fun p => .ok ((), (s, p.2))

/-- A run in which the command's value is known (R309). -/
def knowing {α : Type} (v : W64) (m : Eng α) : Eng α := fun p =>
  match m p with
  | .error (h, s) => .error (h.map (fun h => { h with value := some v }), s)
  | .ok r => .ok r

/-- The context's address space and launch of a command. -/
def State.cmdCtx (s : State) (c : Cmd) : Option Ctx := s.ctx? c.cl c.slot
def State.cmdRing (s : State) (c : Cmd) : BitVec 2 := match s.cmdCtx c with | some x => x.ring | none => 0
def State.cmdSeq (s : State) (c : Cmd) : W64 := match (s.cmdCtx c).bind (fun x => s.launchOf x) with | some l => l.seq | none => 0

/-- A command as an agent that waits for walks. -/
def Cmd.user (c : Cmd) : Nat × Nat := userOf c.uid (129 + c.id)

/-- Before an access of the command by cluster n's engine to some bytes: its translation, which may wait for the page's walk as any agent's
does (R262); its storage's answer, and the messages to and from a far home (R296); lost data ends the command (R304), and so does a
failed link, to the bytes, to a table, or to what must be carried before them (R383, R408). An access to the flag window is of system
scope, for the stores that come before it too (R91, R264). -/
def engPlace (c : Cmd) (n : Nat) (va : W72) (size : Nat) (write : Bool) : Eng Place := fun p =>
  let table := p.1.walkClk (dieOf n) (p.1.cmdRing c) va
  match p.1.xlate n (p.1.cmdRing c) va write c.user with
  | (.wait _, s) => .error (none, s)
  | (.fail k, s) => .error (some (if k = kLink then ⟨0x0A, 0, va, none, table⟩ else ⟨0x03, k, va, none, 0⟩), s)
  | (.place q, s) =>
    let die := some (dieOf n)
    let clk := s.lclock die
    let o := s.attempt p.2 q.pa size
    let s := s.storageError o q.pa die (s.cmdSeq c)
    let wider := effScope q.pa c.x.ann.sc ≠ c.x.ann.sc
    let cut := if wider then s.cutCarry c.uid .engine c.key c.x.ann.pm .system false else none
    if o = .linkFailed then .error (some ⟨0x0A, 0, va, none, clk⟩, s)
    else if cut.isSome then .error (some ⟨0x0A, 0, va, none, clk⟩, s.storageError .linkFailed (cut.getD 0) die (s.cmdSeq c))
    else
      let s := if wider then s.carry c.uid .engine c.key c.x.ann.pm .system else s
      let s := s.reach (dieOf n) q.pa
      if o = .lasting then .error (some ⟨0x08, 0, va, none, clk⟩, s)
      else
        let h := match c.x.hint with | .normal => q.hint | x => x
        .ok ({ q with hint := h }, (s, .ok))

/-- Read an aligned element. -/
def engRead (c : Cmd) (n : Nat) (va : W72) (size : Nat) : Eng Nat := do
  let q ← engPlace c n va size false
  let s ← getS
  let (x, s) := s.readElem n .engine c.x.ann.sc q.pa size q.hint
  setS s
  return x

/-- Perform a write at its place; one narrower than system may be carried further (R283). -/
def engPerform (c : Cmd) (n : Nat) (q : Place) (size x : Nat) : Eng Unit := do
  let s ← getS
  let s := s.writeElem n .engine c.x.ann.sc q.pa size x q.hint
  let s := if effScope q.pa c.x.ann.sc = .system then s
    else { s with narrow := ⟨c.uid, c.cl, .engine, c.x.ann.os, c.key, c.x.ann.sc, lineOf q.pa, q.ord⟩ :: s.narrow }
  setS s

/-- Write an aligned element. -/
def engWrite (c : Cmd) (n : Nat) (va : W72) (size x : Nat) : Eng Unit := do
  let q ← engPlace c n va size true
  engPerform c n q size x

/-- Read n 8-byte words. -/
def engWords (c : Cmd) (n : Nat) (va : W72) : Nat → Eng (List W64)
  | 0 => return []
  | k + 1 => do
    let x ← engRead c n va 8
    let xs ← engWords c n (va + 8) k
    return BitVec.ofNat 64 x :: xs

/-- A list of actions, one after another. -/
def engAll {α β : Type} (f : α → Eng β) : List α → Eng (List β)
  | [] => return []
  | x :: xs => do
    let y ← f x
    let ys ← engAll f xs
    return y :: ys

/-- Write the 8-byte words of a brick that are not to be passed over, as one access: all have their places before one is written
(R78). -/
def engPut (c : Cmd) (n : Nat) (va : W72) (words : Nat) (bs : List Byte) (pass : W72 → Bool) : Eng Unit := do
  let at_ (i : Nat) : W72 := va + BitVec.ofNat 72 (8 * i)
  let qs ← engAll (fun i => do
    let q ← engPlace c n (at_ i) 8 true
    return (q, ofBytes ((bs.drop (8 * i)).take 8))) ((List.range words).filter (fun i => !pass (at_ i)))
  let _ ← engAll (fun p => engPerform c n p.1 8 p.2) qs
  return ()

/-! ### What a transfer moves (R77, R311, R327, R328) -/

/-- The source and destination of a command, as read. -/
def Cmd.src (c : Cmd) : Desc := descOf c.ra
def Cmd.dst (c : Cmd) : Desc := descOf c.rb

def Cmd.isReduce (c : Cmd) : Bool := match c.op with | .reduce _ => true | .allred _ => true | _ => false
def Cmd.collective (c : Cmd) : Bool :=
  match c.op with
  | .bcast => true
  | .clGather => true
  | .clScatter => true
  | .a2a => true
  | _ => c.isReduce

/-- The source coordinate that a destination window position takes its element from; none where the row is not moved. -/
def Cmd.sourceAt (c : Cmd) (w : List Nat) : Option (List Int) :=
  let s := c.src
  let d := c.dst
  let t := d.rank - 1
  match c.op with
  | .gather =>
    match c.sel[w.getD t 0]? with
    | some r => some (s.coord (w.set t r))
    | none => none
  | .scatter =>
    if c.sel.contains (w.getD t 0) then some (s.coord (w.set t (c.sel.idxOf (w.getD t 0)))) else none
  | .bcast =>
    -- the window is the whole tensor: its coordinate within the block
    some (s.coord ((d.local_ (d.coord w)).map Int.toNat))
  | _ => some (s.coord (dims.map (fun j => ((dims.filter (fun i => d.perm.getD i 9 = j)).map (fun i => w.getD i 0)).headD 0)))

/-- A window position's coordinate is valid, and its row is moved (R76, R311). -/
def Cmd.moved (c : Cmd) (o : Nat) : Bool :=
  let w := posOf c.dst.cnt o
  c.dst.valid (c.dst.coord w) && (c.isReduce || (c.sourceAt w).isSome)

/-- The units of the destination's window, by the ordinal of their first position: every valid position, or for bricks every one
at the start of a brick. -/
def Cmd.units (c : Cmd) : List Nat :=
  let d := c.dst
  (List.range (boxSize d.cnt)).filter (fun o =>
    let w := posOf d.cnt o
    d.valid (d.coord w) && (!d.brick || (d.coord w).getD 0 0 % 192 = 0))

/-- How many elements a destination unit has. -/
def Desc.unitLen (d : Desc) : Nat := if d.brick then 192 else 1

/-- Element e of the unit at o lies below EXT0: it is no tail element (R72). -/
def Cmd.live (c : Cmd) (o e : Nat) : Bool := decide ((c.dst.coord (posOf c.dst.cnt o)).getD 0 0 + (e : Int) < (c.dst.extI 0 : Int))

/-- Where a unit is written. -/
def Cmd.target (c : Cmd) (o : Nat) : Option (Nat × W72) := c.dst.place c.ob (c.dst.coord (posOf c.dst.cnt o))
def Cmd.targetBlock (c : Cmd) (o : Nat) : Nat := match c.target o with | some (b, _) => b | none => 0

/-- How strongly a position's element claims its destination: a block of higher index, then valid data before padding, then the
later position (R80, R87). (DEDUCED, log 37) -/
def Cmd.claim (c : Cmd) (o : Nat) (valid : Bool) : Nat × Nat × Nat := (c.targetBlock o, boolNat valid, o)

/-- Which of two claims on an element yields (R80, R87). (DEDUCED, log 37) -/
def claimLt (a b : Nat × Nat × Nat) : Bool :=
  if a.1 ≠ b.1 then decide (a.1 < b.1) else if a.2.1 ≠ b.2.1 then decide (a.2.1 < b.2.1) else decide (a.2.2 < b.2.2)

/-- A coordinate of the source has storage: it is valid, and not in an absent block. -/
def Cmd.real (c : Cmd) (x : List Int) : Bool := c.src.valid x && (c.src.place c.oa x).isSome

/-- Of the units that share a destination, the one whose element it takes for its e-th. (DEDUCED, log 37) -/
def Cmd.winner (c : Cmd) (shared : List Nat) (e : Nat) : Option Nat :=
  let key (o : Nat) := c.claim o (c.isReduce || (match c.sourceAt (posOf c.dst.cnt (o + e)) with | some x => c.real x | none => false))
  (shared.filter (fun o => c.live o e && c.moved (o + e))).foldl (fun b o => match b with
    | none => some o
    | some p => if claimLt (key p) (key o) then some o else some p) none

/-- Of the units that name one destination, the one that writes it: of the highest block the latest in element order. (DEDUCED, log 37) -/
def Cmd.lasts (c : Cmd) : List Nat :=
  let hits := c.units.filter (fun o => (c.target o).isSome && (List.range c.dst.unitLen).any (fun e => c.live o e && c.moved (o + e)))
  hits.filter (fun o => !hits.any (fun p =>
    (c.target p).map Prod.snd = (c.target o).map Prod.snd && claimLt (c.claim o true) (c.claim p true)))

/-- The position of a unit within its block. -/
def Cmd.within (c : Cmd) (o : Nat) : List Int := c.dst.local_ (c.dst.coord (posOf c.dst.cnt o))

/-- CL.BCAST and CL.ALLRED write one position of every block together. -/
def Cmd.everyBlock (c : Cmd) : Bool := match c.op with | .bcast => true | .allred _ => true | _ => false

/-- The units that are written together with unit o: every source read of a position precedes every write of it (R328). -/
def Cmd.group (c : Cmd) (o : Nat) : List Nat :=
  if c.everyBlock then c.lasts.filter (fun p => c.within p = c.within o) else [o]

/-- A word of a brick of block b is written through a block of higher index (R87). -/
def Cmd.covered (c : Cmd) (b : Nat) (va : W72) : Bool :=
  c.dst.dist && c.lasts.any (fun p => match c.target p with
    | some (b', a) => decide (b < b' ∧ a.toNat ≤ va.toNat ∧ va.toNat < a.toNat + c.dst.bsize)
    | none => false)

/-- The engine that writes block b of a destination (R327): a die owner's own, else the issuing cluster's. -/
def Cmd.engine (c : Cmd) (b : Nat) : Nat :=
  if c.collective && c.dst.dist then
    match c.dst.owner c.ob b with
    | .die d _ => 4 * d + b % 4
    | _ => c.cl
  else c.cl

/-- Read one element of a tensor. -/
def engElt (c : Cmd) (n : Nat) (s : Desc) (own : List (Nat × W64 × W64)) (x : List Int) : Eng Elt :=
  if !s.valid x then return .pad
  else
    match s.place own x with
    | none => return .pad
    | some (_, va) =>
      if s.brick then do
        let ws ← engWords c n va (s.bsize / 8)
        let bs := ofWords ws
        let e := s.inBrick x
        return .code (brickCode s.format bs e) (brickScale s.format bs e)
      else do
        let v ← engRead c n va (Fmt.bytes s.format)
        return .code v 0x7F

/-- A reduction's step (R329). -/
def redStep (op : RedOp) (f : Fmt) (r : Rnd) (acc v : Exact) : Exact :=
  let isInt := Fmt.isInt f
  match op with
  | .add => if isInt then acc.add .rne v else valueOf .fp32 (round (acc.add r v) .fp32 r false)
  | .min => if isInt then Exact.least false acc v else valueOf .fp32 (round (Exact.least false acc v) .fp32 r false)
  | .max => if isInt then Exact.least true acc v else valueOf .fp32 (round (Exact.least true acc v) .fp32 r false)

/-- The reduction over the source's blocks, in ascending order, at a local coordinate. -/
def engReduce (c : Cmd) (n : Nat) (op : RedOp) (loc : List Int) : Eng Elt := do
  let s := c.src
  let at_ (b : Nat) : List Int :=
    let y := posOf (dims.map s.nbI) b
    dims.map (fun i => loc.getD i 0 + (y.getD i 0 : Int) * (s.blkI i : Int))
  let es ← engAll (fun b => engElt c n s c.oa (at_ b)) (List.range s.blocks)
  match es.map s.value with
  | [] => return .pad
  | v :: vs => return .exact (vs.foldl (redStep op s.format c.x.rnd) v)

/-- The element that the unit at p supplies as its e-th, read by cluster n's engine (R327). -/
def engSource (c : Cmd) (n p e : Nat) : Eng Elt :=
  let w := posOf c.dst.cnt (p + e)
  match c.op with
  | .reduce op => engReduce c n op (w.map (fun (y : Nat) => (y : Int)))
  | .allred op => engReduce c n op (c.dst.local_ (c.dst.coord w))
  | _ =>
    match c.sourceAt w with
    | some x => engElt c n c.src c.oa x
    | none => return .none

/-- The elements of a unit, each with the ordinal of the position that it comes from: of the positions that share an element's destination,
only the one that it takes is read (R80). (DESIGN CHOICE, log 37) -/
def engElts (c : Cmd) (o : Nat) : Eng (List (Elt × Nat)) := do
  let shared := c.units.filter (fun p => (c.target p).map Prod.snd = (c.target o).map Prod.snd)
  engAll (fun e =>
    match if c.live o e then c.winner shared e else none with
    | none => return (.none, 0)
    | some p => do
      let x ← engSource c (c.engine (c.targetBlock o)) p e
      return (x, p + e)) (List.range c.dst.unitLen)

/-- The scale byte of block b of a destination brick, of which `old` are the bytes it held (R72, R79): that of the source block of
its valid element latest in element order; where no such element moves and some of the block is not moved, the one it has; else 0x7F, as
where a reduction writes it. (DEDUCED, log 37; DESIGN CHOICE, log 37) -/
def Cmd.scaleOf (c : Cmd) (els : List (Elt × Nat)) (live : Nat → Bool) (old : List Byte) (b : Nat) : Nat :=
  let here := ((List.range 24).map (fun k => 24 * b + k)).filter live
  let data := here.filterMap (fun e => match els.getD e (.none, 0) with | (.code _ sc, o) => some (sc, o) | _ => none)
  match if c.src.format = .l6 then maxBy Prod.snd data else none with
  | some (sc, _) => sc
  | none => if here.any (fun e => (els.getD e (.none, 0)).1 = .none) then brickScale c.dst.format old (24 * b) else 0x7F

/-- Write a unit: an element, or a brick, whose elements that are not moved keep their codes (R72, R79). The tail elements of the unit
that writes a brick are zero, whatever another row has there. (DEDUCED, log 37; DESIGN CHOICE, log 71) -/
def engStore (c : Cmd) (o : Nat) (els : List (Elt × Nat)) : Eng Unit :=
  match c.target o with
  | none => return ()
  | some (b, va) => do
    let s := c.src
    let d := c.dst
    let n := c.engine b
    if d.brick then do
      let keeps := (List.range 192).any (fun e => c.live o e && (els.getD e (.none, 0)).1 = .none)
      let old ← if keeps then engWords c n va (d.bsize / 8) else pure []
      let old := ofWords old
      let code (e : Nat) : Nat :=
        if !c.live o e then 0
        else match (els.getD e (.none, 0)).1 with
          | .none => brickCode d.format old e
          | x => s.store d c.x.rnd c.x.sat x
      engPut c n va (d.bsize / 8) (brickBytes d.format code (c.scaleOf els (c.live o) old)) (c.covered b)
    else
      match (els.headD (.none, 0)).1 with
      | .none => return ()
      | x => engWrite c n va (Fmt.bytes d.format) (s.store d c.x.rnd c.x.sat x)

/-- Move one unit of COPY, GATHER, SCATTER or a collective, with the units that are written together with it. (DEDUCED, log 37;
DESIGN CHOICE, log 71) -/
def engUnit (c : Cmd) (o : Nat) : Eng Unit := do
  let os := c.group o
  let els ← engAll (engElts c) os
  let _ ← engAll (fun p => engStore c p.1 p.2) (os.zip els)
  return ()

/-! ### SPMM (R322 to R324) -/

/-- A sparse record. -/
structure Sparse where
  ptr   : W72
  col   : W72
  val   : W72
  ifmt  : Nat
  vfmt  : Nat
  rows  : Nat
  cols  : Nat
  deriving DecidableEq, Repr

def sparseOf (ws : List W64) : Sparse :=
  let w (i : Nat) : W64 := wordAt ws i
  { ptr := addr72 (slice (w 3) 63 56) (w 0), col := addr72 (slice (w 3) 55 48) (w 1), val := addr72 (slice (w 3) 47 40) (w 2),
    ifmt := slice (w 3) 39 36, vfmt := slice (w 3) 35 32, rows := slice (w 4) 63 32, cols := slice (w 4) 31 0 }

/-- Bytes of an index of IFMT 0xD or 0xF, and of a value of VFMT 0x1, 0x2 or 0x3. -/
def ixBytes (f : Nat) : Nat := if f = 0xD then 4 else 8
def valFmt (f : Nat) : Fmt := (Fmt.ofCode f).getD .fp32
def valBytes (f : Nat) : Nat := Fmt.bytes (valFmt f)
def ixOk (f : Nat) : Bool := f = 0xD || f = 0xF
def valOk (f : Nat) : Bool := f = 1 || f = 2 || f = 3

def Sparse.ok (r : Sparse) (ws : List W64) : Bool :=
  slice (wordAt ws 3) 31 0 = 0 && [5, 6, 7].all (fun i => wordAt ws i = 0) && ixOk r.ifmt && valOk r.vfmt && r.rows ≠ 0 && r.cols ≠ 0
    && r.ptr.toNat % ixBytes r.ifmt = 0 && r.col.toNat % ixBytes r.ifmt = 0 && r.val.toNat % valBytes r.vfmt = 0

/-- Byte ranges that meet. -/
def meets (a b : Nat × Nat) : Bool := decide (a.1 < b.2 ∧ b.1 < a.2)

/-- The bounds of some units of a size. -/
def boundsOf (size : Nat) (as : List W72) : Option (Nat × Nat) :=
  match minBy BitVec.toNat as, maxBy BitVec.toNat as with
  | some lo, some hi => some (lo.toNat, hi.toNat + size)
  | _, _ => none

/-- The bounds of a descriptor's window, its valid coordinates alone. -/
def Desc.bounds (d : Desc) : Option (Nat × Nat) :=
  boundsOf d.unitSize ((List.range (boxSize d.cnt)).filterMap (fun o =>
    let x := d.coord (posOf d.cnt o)
    if d.valid x then (d.place [] x).map Prod.snd else none))

def meetsAny (a : Option (Nat × Nat)) (bs : List (Nat × Nat)) : Bool :=
  match a with
  | some r => bs.any (meets r)
  | none => false

/-- Read every row pointer, and check that they ascend and that nothing written overlaps the columns and values read. (DEDUCED, log 37) -/
def engPointers (c : Cmd) : Eng Cmd := do
  let r := sparseOf c.ra
  let ib := ixBytes r.ifmt
  let ps ← engAll (fun i => engRead c c.cl (r.ptr + BitVec.ofNat 72 (i * ib)) ib) (List.range (r.rows + 1))
  if (ps.zip (ps.drop 1)).any (fun p => decide (p.2 < p.1)) then halt (hCode 0x05)
  else
    let lo := ps.headD 0
    let hi := ps.getLastD 0
    let span (base : W72) (size : Nat) : Nat × Nat := (base.toNat + lo * size, base.toNat + hi * size)
    let reads := if lo < hi then [span r.col ib, span r.val (valBytes r.vfmt)] else []
    if meetsAny (descOf c.rc).bounds reads then halt hOverlap else return { c with sel := ps }

/-- One row of SPMM: all of Y's row is read before any of it is written. (DEDUCED, log 37) -/
def engRow (c : Cmd) (i : Nat) : Eng Cmd := do
  let r := sparseOf c.ra
  let x := descOf c.rb
  let y := descOf c.rc
  let set := match c.op with | .spmm b => b | _ => false
  let ps := (List.range (c.sel.getD (i + 1) 0 - c.sel.getD i 0)).map (fun k => c.sel.getD i 0 + k)
  let cols ← engAll (fun p => engRead c c.cl (r.col + BitVec.ofNat 72 (p * ixBytes r.ifmt)) (ixBytes r.ifmt)) ps
  if cols.any (fun k => decide (r.cols ≤ k)) then return { c with code := 0x05 }
  else
    let js := List.range (y.cntI 0)
    let vals ← engAll (fun p => engRead c c.cl (r.val + BitVec.ofNat 72 (p * valBytes r.vfmt)) (valBytes r.vfmt)) ps
    let old ← engAll (fun j => if set then return Elt.exact (.zero false) else engElt c c.cl y [] (y.coord [j, i])) js
    let res ← engAll (fun j => do
      let xs ← engAll (fun k => engElt c c.cl x [] (x.coord [j, k])) cols
      let step (acc : Exact) (p : Nat × Elt) : Exact :=
        valueOf .fp32 (round (acc.add c.x.rnd ((valueOf (valFmt r.vfmt) p.1).mul (x.value p.2))) .fp32 c.x.rnd false)
      return (vals.zip xs).foldl step (y.value (old.getD j .pad))) js
    let _ ← engAll (fun j => do
      let at_ := y.coord [j, i]
      if y.valid at_ then
        match y.place [] at_ with
        | some (_, va) => engWrite c c.cl va (Fmt.bytes y.format) (round (res.getD j .nan) y.format c.x.rnd c.x.sat)
        | none => return ()
      else return ()) js
    return c

/-! ### The merge unit (R325, R326) -/

/-- A run record. -/
structure Run where
  idx  : W72
  val  : W72
  ifmt : Nat
  vfmt : Nat
  len  : Nat
  deriving DecidableEq, Repr

def runOf (ws : List W64) : Run :=
  let w (i : Nat) : W64 := wordAt ws i
  { idx := addr72 (slice (w 2) 63 56) (w 0), val := addr72 (slice (w 2) 55 48) (w 1), ifmt := slice (w 2) 47 44, vfmt := slice (w 2) 43 40,
    len := slice (w 2) 39 0 }

def Run.ok (r : Run) (ws : List W64) : Bool :=
  wordAt ws 3 = 0 && ixOk r.ifmt && (r.vfmt = 0 || valOk r.vfmt) && r.idx.toNat % ixBytes r.ifmt = 0
    && (r.vfmt = 0 || r.val.toNat % valBytes r.vfmt = 0)

/-- The bytes of a run's arrays; an empty array has none. -/
def Run.ranges (r : Run) : List (Nat × Nat) :=
  if r.len = 0 then []
  else (r.idx.toNat, r.idx.toNat + r.len * ixBytes r.ifmt) ::
    (if r.vfmt = 0 then [] else [(r.val.toNat, r.val.toNat + r.len * valBytes r.vfmt)])

/-- The checks of MERGE's runs (R325). (DEDUCED, log 24) -/
def runsOk (a b o : Run) (wa wb wo : List W64) : Bool :=
  a.ok wa && b.ok wb && o.ok wo && a.ifmt = b.ifmt && a.ifmt = o.ifmt && (a.vfmt = 0) = (b.vfmt = 0) && (a.vfmt = 0) = (o.vfmt = 0)

/-- The index at a run's head, read once; it must exceed the one before it. -/
def engHead (c : Cmd) (r : Run) (i : Nat) (head before : Option Nat) : Eng (Option Nat) :=
  match head with
  | some h => return some h
  | none =>
    if r.len ≤ i then return none
    else do
      let h ← engRead c c.cl (r.idx + BitVec.ofNat 72 (i * ixBytes r.ifmt)) (ixBytes r.ifmt)
      match before with
      | some p => if h ≤ p then halt (hCode 0x06) else return some h
      | none => return some h

/-- The value of entry i of a run. -/
def engVal (c : Cmd) (r : Run) (i : Nat) : Eng Exact :=
  if r.vfmt = 0 then return .zero false
  else do
    let v ← engRead c c.cl (r.val + BitVec.ofNat 72 (i * valBytes r.vfmt)) (valBytes r.vfmt)
    return valueOf (valFmt r.vfmt) v

/-- Put an entry at the end of the result, or count it where the result is full. -/
def engEmit (c : Cmd) (m : MergeSt) (k : Nat) (v : Exact) (dropz : Bool) : Eng MergeSt := do
  let o := runOf c.rc
  let f := valFmt o.vfmt
  let w := round v f c.x.rnd c.x.sat
  if o.vfmt ≠ 0 && dropz && w % 2 ^ (Fmt.width f - 1) = 0 then return m
  else if o.len ≤ m.n then return { m with n := m.n + 1 }
  else do
    engWrite c c.cl (o.idx + BitVec.ofNat 72 (m.n * ixBytes o.ifmt)) (ixBytes o.ifmt) k
    if o.vfmt ≠ 0 then engWrite c c.cl (o.val + BitVec.ofNat 72 (m.n * valBytes o.vfmt)) (valBytes o.vfmt) w
    return { m with n := m.n + 1 }

/-- One turn of R326's loop. -/
def engMerge (c : Cmd) : Eng Cmd := do
  let a := runOf c.ra
  let b := runOf c.rb
  let m := c.merge
  let inter := c.op = .mergeI
  let dz := match c.op with | .mergeU z => z | _ => false
  let ha ← engHead c a m.i m.ha m.pa
  let hb ← engHead c b m.j m.hb m.pb
  let takeA : MergeSt := { m with i := m.i + 1, ha := none, hb := hb, pa := ha }
  let takeB : MergeSt := { m with j := m.j + 1, ha := ha, hb := none, pb := hb }
  let m' ← match ha, hb with
    | some x, some y =>
      if x < y then (if inter then pure takeA else do
        let v ← engVal c a m.i
        engEmit c takeA x v dz)
      else if y < x then (if inter then pure takeB else do
        let v ← engVal c b m.j
        engEmit c takeB y v dz)
      else do
        let v ← engVal c a m.i
        let w ← engVal c b m.j
        engEmit c { takeA with j := m.j + 1, hb := none, pb := hb } x (if inter then v.mul w else v.add c.x.rnd w) dz
    | some x, none => if inter then pure takeA else do
        let v ← engVal c a m.i
        engEmit c takeA x v dz
    | none, some y => if inter then pure takeB else do
        let v ← engVal c b m.j
        engEmit c takeB y v dz
    | none, none => pure m
  let cap := (runOf c.rc).len
  let tooMany := decide (cap < m'.n)
  let atEnd := decide (m'.i = a.len ∧ m'.j = b.len)
  return { c with merge := m', value := BitVec.ofNat 64 (if atEnd && tooMany then m'.n else min m'.n cap),
                  code := if atEnd && tooMany then 0x07 else c.code }

/-! ### Range commands (R312) -/

/-- The length of a range command, and how many pages it touches. -/
def Cmd.length (c : Cmd) : Nat := slice c.b 63 0
def Cmd.pieces (c : Cmd) : Nat := if c.length = 0 then 0 else (c.a.toNat % 4096 + c.length + 4095) / 4096

/-- What a range command does with a line. -/
def State.rangeLine (s : State) (op : EngOp) (sc : Scope) (h : Hint) (line : Nat) : State :=
  match op with
  | .wback =>
    let s := s.cleanEverywhere line
    if sc = .system then s.l2Clean line else s
  | .dropr =>
    let s := (s.cleanEverywhere line).dropFirstLevel line
    if sc = .system then (s.l2Clean line).l2Leave line else s
  | .fill => s.l2Fill line h
  | _ => s

/-- A range command would read or write onward bad data in a line: FILL reads the line, and the others write what is dirty of it (R304,
R383). -/
def State.rangeBad (s : State) (op : EngOp) (line : Nat) : Bool :=
  s.badLine (128 * line) && (op = .fill || s.l2Dirty line
    || s.bayLines.any (fun p => p.2.any (fun l => l.line = line && l.dirty ≠ 0)))

/-- Page piece k of a range command. Bad data anywhere in it ends the command before the piece is done. -/
def engPiece (c : Cmd) (k : Nat) : Eng Unit := do
  let first := c.a.toNat
  let page := first / 4096 * 4096 + 4096 * k
  let lo := max first page
  let hi := min (first + c.length) (page + 4096)
  let q ← engPlace c c.cl (BitVec.ofNat 72 lo) 1 false
  let s ← getS
  match (linesOf q.pa (hi - lo)).find? (s.rangeBad c.op) with
  | some l =>
    let die := some (dieOf c.cl)
    setS (s.storageError .lasting (s.badPlace (128 * l) 128 (128 * l)) die (s.cmdSeq c))
    halt ⟨0x08, 0, BitVec.ofNat 72 (max lo (lo / 4096 * 4096 + 128 * l % 4096)), none, s.lclock die⟩
  | none => setS ((linesOf q.pa (hi - lo)).foldl (fun s l => s.rangeLine c.op c.x.ann.sc q.hint l) s)

/-! ### Beginning a command (R75, R81, R88, R307, R309, R327) -/

/-- Read a tensor descriptor. -/
def engDesc (c : Cmd) (va : W72) : Eng (List W64) := if va.toNat % 64 ≠ 0 then halt hDesc else engWords c c.cl va 16

/-- Read a record of another kind. (DEDUCED, log 24) -/
def engRecord (c : Cmd) (va : W72) (align words : Nat) : Eng (List W64) :=
  if va.toNat % align ≠ 0 then halt hBadrec else engWords c c.cl va words

/-- Read the owner entries of the blocks that a command uses; a refused one refuses the descriptor. -/
def engOwners (c : Cmd) (d : Desc) (bs : List Nat) : Eng (List (Nat × W64 × W64)) :=
  if !d.dist then return []
  else engAll (fun b => do
    let ws ← engWords c c.cl (d.own + BitVec.ofNat 72 (16 * b)) 2
    match d.ownerOf (wordAt ws 0) (wordAt ws 1) with
    | some _ => return (b, wordAt ws 0, wordAt ws 1)
    | none => halt hDesc) bs

/-- A window that is the whole tensor, in full blocks (R328). -/
def Desc.whole (d : Desc) : Bool :=
  dims.all (fun i => d.orgI i = 0 && d.cntI i = d.extI i && d.extI i % d.blkI i = 0)

/-- The descriptors of a command agree (R77, R311, R328). -/
def Cmd.agree (c : Cmd) : Bool :=
  let s := c.src
  let d := c.dst
  let copy := dims.all (fun i => d.cntI i = s.cntI (d.perm.getD i 0))
  match c.op with
  | .copy => copy
  | .gather => s.rank = d.rank && s.identity && d.identity && s.cnt = d.cnt
  | .scatter => s.rank = d.rank && s.identity && d.identity && s.cnt = d.cnt
  | .bcast => !s.dist && d.dist && s.identity && d.identity && d.whole && s.cnt = d.blk
  | .reduce _ => s.dist && !d.dist && s.identity && d.identity && s.whole && d.cnt = s.blk
  | .allred _ => s.dist && d.dist && s.identity && d.identity && s.whole && d.blk = s.blk
  | .clGather => s.dist && !d.dist && copy
  | .clScatter => !s.dist && d.dist && copy
  | .a2a => s.dist && d.dist && copy
  | _ => true

/-- The blocks of a descriptor's window. -/
def Desc.windowBlocks (d : Desc) : List Nat :=
  ((List.range (boxSize d.cnt)).filterMap (fun o =>
    let x := d.coord (posOf d.cnt o)
    if d.valid x then some (d.blockOf x) else none)).eraseDups

/-- The destination blocks whose owner entries a command uses: a collective checks every one of its window (R88, R327). -/
def Cmd.dstBlocks (c : Cmd) : List Nat :=
  if c.collective then c.dst.windowBlocks
  else (((List.range (boxSize c.dst.cnt)).filter c.moved).map (fun o => c.dst.blockOf (c.dst.coord (posOf c.dst.cnt o)))).eraseDups

/-- Source coordinates that a command reads, once the destination's owner entries are known: the valid ones of the positions
that are moved and not clipped. -/
def Cmd.reads (c : Cmd) : List (List Int) :=
  ((List.range (boxSize c.dst.cnt)).filter (fun o => c.moved o && (c.target o).isSome)).filterMap (fun o =>
    (c.sourceAt (posOf c.dst.cnt o)).bind (fun x => if c.src.valid x then some x else none))

def Cmd.srcBlocks (c : Cmd) : List Nat := if c.collective then c.src.windowBlocks else (c.reads.map c.src.blockOf).eraseDups

/-- The units in the order they are written, one for each group. -/
def Cmd.planOf (c : Cmd) : List Nat :=
  if c.everyBlock then c.lasts.filter (fun o => !c.lasts.any (fun p => decide (p < o) && c.within p = c.within o)) else c.lasts

/-- R81: the bounds of what is read and of what is written meet. (DEDUCED, log 37) -/
def Cmd.overlaps (c : Cmd) : Bool :=
  let rs := c.reads.filterMap (fun x => (c.src.place c.oa x).map Prod.snd)
  match boundsOf c.src.unitSize rs, boundsOf c.dst.unitSize (c.plan.filterMap (fun o => (c.target o).map Prod.snd)) with
  | some a, some b => meets a b
  | _, _ => false

/-- A die owner that the launch does not hold, or has lost since the command began (R327, R330). -/
def State.ownersGone (s : State) (c : Cmd) : Bool :=
  let held : Nat := match (s.cmdCtx c).bind (fun x => s.launchOf x) with | some l => l.dieset.toNat | none => 0
  let lost (d : Desc) (own : List (Nat × W64 × W64)) : Bool :=
    own.any (fun e => match d.ownerOf e.2.1 e.2.2 with | some (.die k _) => !held.testBit k || bit c.lostDies k | _ => false)
  lost c.src c.oa || lost c.dst c.ob

def Cmd.peers (c : Cmd) : Bool :=
  let peer (d : Desc) (own : List (Nat × W64 × W64)) : Bool :=
    own.any (fun e => match d.ownerOf e.2.1 e.2.2 with | some (.peer _ _) => true | _ => false)
  peer c.src c.oa || peer c.dst c.ob

/-- Read and judge the descriptors, the row mask and the owner entries of a transfer. -/
def engTransfer (c : Cmd) : Eng Cmd := do
  let ra ← engDesc c c.a
  let rb ← engDesc c c.b
  let c := { c with ra := ra, rb := rb }
  if !(c.src.ok true && c.dst.ok false && c.agree) then halt hDesc
  else do
    let rows := c.src.cntI (c.src.rank - 1)
    let masked := c.op = .gather || c.op = .scatter
    let mask ← if masked then engAll (fun k => engRead c c.cl (c.c + BitVec.ofNat 72 k) 1) (List.range ((rows + 7) / 8)) else pure []
    let sel := if masked then (List.range rows).filter (fun r => (mask.getD (r / 8) 0).testBit (r % 8)) else []
    let c := { c with sel := sel, value := if masked then BitVec.ofNat 64 sel.length else c.value }
    knowing c.value do
      let ob ← engOwners c c.dst c.dstBlocks
      let c := { c with ob := ob }
      let oa ← engOwners c c.src c.srcBlocks
      let c := { c with oa := oa }
      let c := { c with plan := c.planOf }
      let s ← getS
      let moves := c.op != .bcast && !c.isReduce
      if moves && c.overlaps then halt hOverlap
      else if c.collective && s.ownersGone c then halt hOwner
      else if c.collective && c.peers && c.x.ann.sc ≠ .system then halt hScope
      else return c

def fpFmt (d : Desc) : Bool := d.format = .fp32 || d.format = .fp16 || d.format = .bf16

/-- Read and judge the records of SPMM. -/
def engSparse (c : Cmd) : Eng Cmd := do
  let ra ← engRecord c c.a 64 8
  let rb ← engDesc c c.b
  let rc ← engDesc c c.c
  let c := { c with ra := ra, rb := rb, rc := rc }
  let r := sparseOf ra
  let x := descOf rb
  let y := descOf rc
  let shape (d : Desc) : Bool := d.rank = 2 && !d.dist && d.identity && fpFmt d
  if !r.ok ra then halt hBadrec
  else if !(x.ok true && y.ok false && shape x && shape y && y.cntI 0 = x.cntI 0 && y.cntI 1 = r.rows && x.cntI 1 = r.cols) then halt hDesc
  else
    let ptrs := (r.ptr.toNat, r.ptr.toNat + (r.rows + 1) * ixBytes r.ifmt)
    if meetsAny y.bounds (ptrs :: x.bounds.toList) then halt hOverlap else return { c with plan := List.range r.rows }

/-- Read and judge the records of a merge. -/
def engRuns (c : Cmd) : Eng Cmd := do
  let ra ← engRecord c c.a 32 4
  let rb ← engRecord c c.b 32 4
  let rc ← engRecord c c.c 32 4
  let a := runOf ra
  let b := runOf rb
  let o := runOf rc
  if !runsOk a b o ra rb rc then halt hBadrec
  else if o.ranges.any (fun r => (a.ranges ++ b.ranges).any (meets r)) then halt hOverlap
  else return { c with ra := ra, rb := rb, rc := rc }

/-- Begin: nothing is written. -/
def engBegin (c : Cmd) : Eng Cmd :=
  match c.op with
  | .spmm _ => engSparse c
  | .mergeU _ => engRuns c
  | .mergeI => engRuns c
  | .wback => if 2 ^ 54 < c.length then halt hBadrec else return c
  | .dropr => if 2 ^ 54 < c.length then halt hBadrec else return c
  | .fill => if 2 ^ 54 < c.length then halt hBadrec else return c
  | _ => engTransfer c

/-- A command that has begun has no more to do. -/
def Cmd.finished (c : Cmd) : Bool :=
  match c.op with
  | .spmm _ => c.sel ≠ [] && decide (c.plan.length ≤ c.pos)
  | .mergeU _ => c.merge.i = (runOf c.ra).len && c.merge.j = (runOf c.rb).len
  | .mergeI => c.merge.i = (runOf c.ra).len && c.merge.j = (runOf c.rb).len
  | .wback => decide (c.pieces ≤ c.pos)
  | .dropr => decide (c.pieces ≤ c.pos)
  | .fill => decide (c.pieces ≤ c.pos)
  | _ => decide (c.plan.length ≤ c.pos)

/-- The next unit. (DEDUCED, log 37) -/
def engStep (c : Cmd) : Eng Cmd :=
  let next : Cmd := { c with pos := c.pos + 1 }
  match c.op with
  | .spmm _ => if c.sel = [] then engPointers c else engRow next (c.plan.getD c.pos 0)
  | .mergeU _ => engMerge c
  | .mergeI => engMerge c
  | .wback => do engPiece c c.pos; return next
  | .dropr => do engPiece c c.pos; return next
  | .fill => do engPiece c c.pos; return next
  | _ => do engUnit c (c.plan.getD c.pos 0); return next

/-! ### The events -/

/-- Put a command back; one that has no more to do has ended. -/
def State.putCmd (s : State) (c : Cmd) : State :=
  let c := if c.begun && c.finished then { c with ended := true } else c
  { s with cmds := s.cmds.map (fun x => if x.id = c.id then c else x) }

/-- The bytes that a command has still to read or write, once they are known. -/
def Cmd.ahead (c : Cmd) : Option (List (Nat × Nat)) :=
  match c.op with
  | .spmm _ =>
    let r := sparseOf c.ra
    let span (base : W72) (size : Nat) : Nat × Nat := (base.toNat + c.sel.getD c.pos 0 * size, base.toNat + c.sel.getLastD 0 * size)
    if c.sel = [] then none
    else some ([span r.col (ixBytes r.ifmt), span r.val (valBytes r.vfmt)] ++ (descOf c.rb).bounds.toList ++ (descOf c.rc).bounds.toList)
  | .mergeU _ => some ((runOf c.ra).ranges ++ (runOf c.rb).ranges ++ (runOf c.rc).ranges)
  | .mergeI => some ((runOf c.ra).ranges ++ (runOf c.rb).ranges ++ (runOf c.rc).ranges)
  | .wback => some [(max c.a.toNat (c.a.toNat / 4096 * 4096 + 4096 * c.pos), c.a.toNat + c.length)]
  | .dropr => some [(max c.a.toNat (c.a.toNat / 4096 * 4096 + 4096 * c.pos), c.a.toNat + c.length)]
  | .fill => some [(max c.a.toNat (c.a.toNat / 4096 * 4096 + 4096 * c.pos), c.a.toNat + c.length)]
  | _ =>
    let sources := if c.isReduce then (List.range (boxSize c.src.cnt)).map (fun o => c.src.coord (posOf c.src.cnt o)) else c.reads
    let units (d : Desc) (vas : List W72) : List (Nat × Nat) := vas.map (fun va => (va.toNat, va.toNat + d.unitSize))
    some (units c.dst (((c.plan.drop c.pos).flatMap c.group).filterMap (fun o => (c.target o).map Prod.snd))
      ++ units c.src (sources.filterMap (fun x => (c.src.place c.oa x).map Prod.snd)))

/-- Every page that a command has still to touch is LOOSE, or it has no more to do (R288). -/
def State.onlyLoose (s : State) (c : Cmd) : Bool :=
  let loose (va : Nat) : Bool := match s.xlateFront (s.cmdRing c) (BitVec.ofNat 72 va) false with | .ok p => p.ord = 2 | .error _ => false
  let pages (r : Nat × Nat) : List Nat := (List.range ((r.2 + 4095) / 4096 - r.1 / 4096)).map (fun k => (r.1 / 4096 + k) * 4096)
  c.finished || (match c.ahead with
    | some rs => (rs.filter (fun r => decide (r.1 < r.2))).all (fun r => (pages r).all loose)
    | none => false)

/-- Run part of a command; a halt ends it with its code. One that has to wait for a walk has done nothing but join or start it, and comes
to this part again (R262). (DEDUCED, log 43) -/
def State.runEngine (s : State) (c : Cmd) (o : Attempt) (f : Cmd → Eng Cmd) : State :=
  match (f c) (s, o) with
  | .ok (c', (s', _)) => s'.putCmd { c' with begun := true, loose := s'.onlyLoose { c' with begun := true } }
  | .error (none, s') => { s with walks := s'.walks }
  | .error (some h, s') =>
    let c' : Cmd :=
      { c with begun := true, ended := true, code := h.code, kind := h.kind, addr := h.addr, clk := h.clk, value := h.value.getD c.value }
    { s' with cmds := s'.cmds.map (fun x => if x.id = c.id then c' else x) }

/-- Emission operations queued before a command have been written. -/
def State.writtenBefore (s : State) (c : Cmd) : Bool :=
  match s.cmdCtx c with
  | some x => x.queue.all (fun o => decide (c.key.op < o.num))
  | none => true

/-- An engine begins a command, of which it runs eight at most, once the words queued before it are written and its predecessors
performed: it reads the records (R307), of which the first meets the answer that storage gives. -/
def execEngineCommandStart (id : Tried Nat) (s : State) : Host.Outcome State Fault Refusal :=
  match s.cmds.find? (fun c => c.id = id.what) with
  | none => .next s
  | some c =>
    if c.begun || c.ended || decide (8 ≤ (s.cmds.filter (fun x => x.cl = c.cl && x.begun && !x.ended)).length) || !s.writtenBefore c
        || !s.predsDone c.cl c.slot c.uid .engine c.key c.x.ann.pm c.x.ann.sc true then .next s
    else
      match s.cutCarry c.uid .engine c.key c.x.ann.pm c.x.ann.sc false with
      | some pa =>
        let die := some (dieOf c.cl)
        .next ((s.storageError .linkFailed pa die (s.cmdSeq c)).runEngine c id.how (fun _ => halt ⟨0x0A, 0, 0, none, s.lclock die⟩))
      | none => .next ((s.carry c.uid .engine c.key c.x.ann.pm c.x.ann.sc).runEngine c id.how engBegin)

/-- The next access of a running command (R281, R309); a collective that has lost a die ends with OWNER (R330). -/
def State.engineAccess (s : State) (c : Cmd) (o : Attempt) : State :=
  if !c.begun || c.ended then s
  else if c.collective && s.ownersGone c then
    { s with cmds := s.cmds.map (fun x => if x.id = c.id then { c with ended := true, code := hOwner.code } else x) }
  else s.runEngine c o engStep

end Sys2Proof.Machine
end

