-- ==== Sys2Proof/Machine/Choosing.lean ====
section
/-! DEFINITION. The candidate of a generator: the queued barge or frame that it would form or restore a context for (R108, R121, R124,
R127, R371). -/

namespace Sys2Proof.Machine

/-- A launch has a context on a cluster, or one on its way there (R19, R128). (DEDUCED, log 20) -/
def State.launchOn (s : State) (l n : Nat) : Bool :=
  (s.clusterCtxs n).any (fun p => p.2.launch = l)
    || s.liveMoves.any (fun m => m.2.1 / 8 = n && s.allCtxs.any (fun p => p.2.2.uid = m.1 && p.2.2.launch = l))

/-- A launch whose berths on a die hold LOWAT barges or fewer is not served by a cluster whose EFFRANK exceeds EFFCUT (R127). -/
def State.spared (s : State) (l : Launch) (n : Nat) : Bool :=
  decide (((l.onDie (dieOf n)).filter (fun q => q.frame.isNone)).length ≤ s.lowat ∧ s.effcut < s.effRank n)

/-- Whether a head comes before another in R124: the higher level, a frame before a barge, the one that reached the level first, the
earlier push. Launches are compared in acceptance order, so an equal leaves the earlier one. -/
def Queued.ahead (a b : Queued) : Bool :=
  if a.level ≠ b.level then decide (b.level < a.level)
  else if a.frame.isSome ≠ b.frame.isSome then a.frame.isSome
  else if a.since ≠ b.since then decide (a.since < b.since)
  else decide (a.push < b.push)

def bestHead : List (Launch × Queued) → Option (Launch × Queued)
  | [] => none
  | x :: xs =>
    match bestHead xs with
    | none => some x
    | some y => if y.2.ahead x.2 then some y else some x

/-- The head barges of the berths on a generator's die, at the levels that they have risen to, of the launches that it may form a context
for (R108, R124). -/
def State.heads (s : State) (n : Nat) : List (Launch × Queued) :=
  let d := dieOf n
  (s.launches.filter (fun l => l.usable.contains d && !s.launchOn l.acc n && !s.spared l n)).flatMap (fun l =>
    (l.basins.filterMap (fun b => firstQueued ((tgetD b.berths d []).map (Queued.due s.now)))).map (fun q => (l, q)))

/-- The candidate of generator n (R124). (DEDUCED, log 20) -/
def State.candidate (s : State) (n : Nat) : Option (Launch × Queued) := bestHead (s.heads n)

/-- The bays that a candidate needs: the entry's MINBAYS, or a frame's own number. -/
def State.needs (s : State) (q : Queued) : Nat :=
  match q.frame with
  | some key => match tget s.frames key with | some f => f.ctx.bayList.length | none => 0
  | none => match s.entryOf q.barge with | some e => e.minBays | none => 0

/-- A generator can take its candidate: it has a slot and the bays (R121, R124), and its cluster is not calibrating (R423). (DEDUCED, log 20) -/
def State.canTake (s : State) (n : Nat) (q : Queued) : Bool :=
  (s.cluster n).calib.isNone && s.freeSlots n ≠ [] && decide (s.needs q ≤ (s.freeBays n).length)

/-- Note whether the candidate of generator n waits for free bays, and since when (R371). (DEDUCED, log 47) -/
def State.noteWaiting (s : State) (n : Nat) : State :=
  let c := s.cluster n
  let now : Option (Nat × Nat) :=
    match s.candidate n with
    | some (_, q) =>
      if s.freeSlots n ≠ [] && decide ((s.freeBays n).length < s.needs q) then
        match c.waiting with
        | some (push, t) => some (q.push, if push = q.push then t else s.now)
        | none => some (q.push, s.now)
      else none
    | none => none
  s.setCluster n { c with waiting := now }

end Sys2Proof.Machine
end

