-- ==== Sys2Proof/Machine/Matrix.lean ====
section
/-! DEFINITION. The matrix engines and the accumulator words (R67 to R69, R313 to R321). -/

namespace Sys2Proof.Machine

/-! ### Operand descriptors (R314 to R316) -/

/-- An operand descriptor. -/
structure MmaOpd where
  tilep : Nat
  rowp  : Nat
  kind  : Nat
  rot   : Nat
  base  : Nat
  steps : Nat
  gang  : List Nat
  deriving DecidableEq, Repr

def opdOf (q q1 : W64) : MmaOpd :=
  { tilep := slice q 53 36, rowp := slice q 35 24, kind := slice q 20 20, rot := [0, 1, 2, 4].getD (slice q 19 18) 0, base := slice q 17 0,
    steps := slice q1 16 8 + 1, gang := setBits 8 (slice q1 7 0) }

/-- The k values of a K-step, the K-steps of a slab, and the bytes of a slab's row (R315). -/
def kStep (f : Fmt) : Nat :=
  match f with
  | .fp32 => 4
  | .fp16 => 16
  | .bf16 => 16
  | .l6 => 96
  | _ => 32
def slabSteps (f : Fmt) : Nat := if f = .l6 then 2 else 1
def rowBytes (f : Fmt) : Nat :=
  match f with
  | .fp32 => 16
  | .l6 => 152
  | _ => 32
def stepsOk (f : Fmt) (n : Nat) : Bool :=
  match f with
  | .fp32 => decide (1 ≤ n ∧ n ≤ 256)
  | .fp16 => decide (1 ≤ n ∧ n ≤ 64)
  | .bf16 => decide (1 ≤ n ∧ n ≤ 64)
  | .l6 => decide (n % 2 = 0 ∧ 2 ≤ n ∧ n ≤ 10)
  | _ => decide (1 ≤ n ∧ n ≤ 32)

/-- The places of a bay that supply an operand for the core at place `own` (R314). -/
def MmaOpd.places (o : MmaOpd) (own : Nat) : List Nat := if o.gang = [] then [own] else o.gang

def MmaOpd.slabs (o : MmaOpd) (f : Fmt) : Nat := o.steps / slabSteps f

/-- The start of row i of slab s, and of its 8-byte word w (R315). -/
def MmaOpd.rowAt (o : MmaOpd) (g s i : Nat) : Nat := o.base + s / g * o.tilep + i * o.rowp
def MmaOpd.wordAt (o : MmaOpd) (f : Fmt) (g s i w : Nat) : Nat := o.rowAt g s i + 8 * ((w + o.rot * i) % (rowBytes f / 8))

/-- The conditions of R316 that an operand's own registers show. -/
def MmaOpd.ok (o : MmaOpd) (q q1 : W64) (f : Fmt) (part : W32) : Bool :=
  let g := max 1 o.gang.length
  slice q 63 54 = 0 && slice q 23 21 = 0 && slice q1 63 17 = 0 && decide (o.gang.length = 0 ∨ 2 ≤ o.gang.length ∧ o.gang.length ≤ 6)
    && stepsOk f o.steps && o.base % 8 = 0 && o.rowp % 8 = 0 && o.tilep % 8 = 0 && !(o.kind = 1 && f = .l6)
    && decide (o.rowAt g (o.slabs f - 1) 31 + rowBytes f ≤ (if o.kind = 1 then vgran part else sgran part) * 4096)

/-- The v registers that the core at a place supplies for an operand. -/
def MmaOpd.regsAt (o : MmaOpd) (f : Fmt) (own place : Nat) : List Nat :=
  let ps := o.places own
  if o.kind = 0 || !ps.contains place then []
  else
    let ss := (List.range (o.slabs f)).filter (fun s => ps.getD (s % ps.length) own = place)
    ((ss.flatMap (fun s => (List.range 32).flatMap (fun i => (List.range (rowBytes f / 8)).flatMap (fun w =>
      let a := o.rowAt ps.length s i + 8 * w
      [a / 64, (a + 7) / 64])))).eraseDups)

/-! ### Operations in a bay -/

/-- Both operands of an operation, and the place of its core in the bay. -/
def MmaOp.opdA (m : MmaOp) : MmaOpd := opdOf m.qa m.qa1
def MmaOp.opdB (m : MmaOp) : MmaOpd := opdOf m.qb m.qb1
def MmaOp.own (m : MmaOp) : Nat := m.core % 8
/-- Every place that supplies a slab of an operation. -/
def MmaOp.places (m : MmaOp) : List Nat := (m.opdA.places m.own ++ m.opdB.places m.own).eraseDups
/-- The cluster's core at a place of an operation's bay. -/
def MmaOp.coreAt (m : MmaOp) (p : Nat) : Nat := 8 * m.bay + p
/-- The engine has read its operands. -/
def MmaOp.read (m : MmaOp) : Bool := m.a ≠ []
def MmaOp.regsOf (m : MmaOp) (p : Nat) : List Nat := m.opdA.regsAt m.fmt m.own p ++ m.opdB.regsAt m.fmt m.own p

/-- The operation leaves its matrix engine (R318). (DEDUCED, log 17) -/
def State.dropMma (s : State) (id : Nat) : State := { s with mmas := s.mmas.filter (fun m => m.id != id) }

/-- The part of its slot that an operation holds ends. -/
def State.endOp (s : State) (m : MmaOp) (failed : Bool) : State :=
  (s.dropMma m.id).modCtx m.cl m.slot (fun c => if c.uid = m.uid then c.endPart m.f failed else c)

/-- The places whose cores an MMA word would name on a core that is about to start it: none where the core issues nothing. -/
def Core.wouldName (x : Core) (w : W64) : List Nat :=
  match decodeLane w with
  | some (.mma w) =>
    match w.a, w.b with
    | .q a, .q b => if x.gov w.gm = 0 then [] else (opdOf (x.qv a) (x.qv (a + 1))).gang ++ (opdOf (x.qv b) (x.qv (b + 1))).gang
    | _, _ => []
  | _ => []

/-- A core that has yet to start an MMA word may name a place in it: the word is its next and names it, or words before it may still
change what it names. (DEDUCED, log 17) -/
def Core.mayName (x : Core) (e place : Nat) : Bool :=
  match x.buf with
  | [] => false
  | w :: ws => if w.e = e then (x.wouldName w.w).contains place else ws.any (fun v => v.e = e)

/-- A core of a bay that has yet to start an MMA word may name a place in it. -/
def State.bayBehind (s : State) (n bay slot e place : Nat) : Bool :=
  (s.liveCores n slot).any (fun p => p.1 / 8 = bay && p.2.mayName e place)

/-- A core holds at an MMA word until the engine has read what the core supplies to every operation of the word (R317), those of cores
that have yet to start it among them; and the word of an issuing core waits for its engine. (DEDUCED, log 17) -/
def State.mmaHolds (s : State) (n k : Nat) (x : Core) : Bool :=
  match x.hold with
  | none => false
  | some e => s.bayBehind n (k / 8) x.slot e (k % 8) ||
      s.mmas.any (fun m => m.cl = n && m.bay = k / 8 && m.e = e && !m.read && (m.places.contains (k % 8) || (m.core = k && m.queued.isNone)))

/-- The format-tag check of the v registers that a core supplies (R316): a failure is the supplier's, and the operation is not
performed. (DEDUCED, log 17) -/
def State.judgeTags (s : State) (m : MmaOp) : State :=
  let wrong (p : Nat) : Bool :=
    match s.core? m.cl (m.coreAt p) with
    | some x => x.hold = some m.e && (m.regsOf p).any (fun r => !sameWidth m.fmt (x.tagV r))
    | none => false
  match m.places.find? wrong with
  | none => s
  | some p =>
    let k := m.coreAt p
    let s := (s.endOp m true).failCore m.cl k
    s.stopCtx m.cl m.slot (some m.e)
      { cls := 0x21, where_ := BitVec.ofNat 64 m.e, detail := m.word, j := (s.core? m.cl k).map (fun x => x.j) }

/-- Judge the tags of every operation of a bay that has not been read. -/
def State.judgeBay (s : State) (n bay : Nat) : State :=
  (s.mmas.filter (fun m => m.cl = n && m.bay = bay && !m.read)).foldl (fun s m => s.judgeTags m) s

/-- MMA on one core (R313, R316, R317). A core that issues nothing ends its part of the slot. (DEDUCED, log 17) -/
def execMma (w : LE) (s : State) : Host.Outcome State Fault Refusal :=
  s.lane (.mma w) [(w.d, 1)]
    (fun x => { regs := [], latches := [], tags := (match w.d with | .z z => x.tileTag z = .fp32 | _ => true), part := false })
    fun n k c x e =>
      match w.d, w.a, w.b with
      | .z z, .q a, .q b =>
        let bay := k / 8
        let hold (s : State) : State := s.modCore n k (fun y => { y with hold := some e })
        if x.gov w.gm = 0 then
          .done ((hold (s.modCtx n s.focus.slot (fun c => c.endPart w.fslot false))).judgeBay n bay)
        else if 1023 ≤ s.stream c.uid w.os.toNat then .wait s cStreamsat
        else
          let opn := match x.buf.head? with | some h => h.op | none => c.ops
          let m : MmaOp :=
            { id := s.nextId, cl := n, bay := bay, core := k, slot := s.focus.slot, uid := c.uid, e := e, op := opn, fmt := w.fmt, f := w.fslot,
              z := z.toNat, qa := x.qv a, qa1 := x.qv (a + 1), qb := x.qv b, qb1 := x.qv (b + 1), pm := w.pm, os := w.os, queued := none, step := 0,
              a := [], b := [], word := w.bits }
          let part := s.partition c
          if !(m.opdA.ok m.qa m.qa1 w.fmt part && m.opdB.ok m.qb m.qb1 w.fmt part && m.opdA.steps = m.opdB.steps) then
            .fault (s.modCtx n s.focus.slot (fun c => c.endPart w.fslot true)) { cls := 0x25 }
          else
            let s := { s with mmas := s.mmas ++ [m], nextId := s.nextId + 1 }
            let s := s.charge n 4 (m.opdA.steps - 1)
            .done ((hold s).judgeBay n bay)
      | _, _, _ => .done s

/-- The engine of a bay accepts an operation (R317): every core that supplies it has started the word and has left it no write to
come, its predecessors are performed, and there is room. A supplier that has left the context fails the operation (R316). (DEDUCED, log 17) -/
def execMmaAccept (id : Nat) (s : State) : Host.Outcome State Fault Refusal :=
  match s.mmas.find? (fun m => m.id = id) with
  | none => .next s
  | some m =>
    let core (p : Nat) : Option Core := s.core? m.cl (m.coreAt p)
    let gone (p : Nat) : Bool := match core p with | some x => x.left | none => true
    let started (p : Nat) : Bool := match core p with | some x => !x.buf.any (fun w => w.e = m.e) && x.hold = some m.e | none => false
    let ready (p : Nat) : Bool :=
      match core p with
      | some x => !s.filling m.cl (m.coreAt p) m.uid x { regs := m.regsOf p, latches := [], tags := true, part := false }
      | none => false
    if m.queued.isSome then .next s
    else if m.places.any gone then
      let s := (s.endOp m true).failCore m.cl m.core
      .next (s.stopCtx m.cl m.slot (some m.e)
        { cls := 0x25, where_ := BitVec.ofNat 64 m.e, detail := m.word, j := (s.core? m.cl m.core).map (fun x => x.j) })
    else if m.places.all started && m.places.all ready && s.predsDone m.cl m.slot m.uid (.matrix m.bay) ⟨m.op, 0, m.e⟩ m.pm .bay false
        && decide ((s.mmas.filter (fun x => x.cl = m.cl && x.bay = m.bay && x.queued.isSome)).length < 16) then
      .next { s with mmas := (s.mmas.filter (fun x => x.id != id)) ++ [{ m with queued := some s.now }] }
    else .next s

/-! ### The arithmetic (R67 to R69, R318) -/

/-- The bytes of one operand, slab by slab, row by row. -/
def State.mmaRead (s : State) (m : MmaOp) (o : MmaOpd) : List Byte :=
  let ps := o.places m.own
  let at_ (place off : Nat) : Byte :=
    match s.core? m.cl (m.coreAt place) with
    | none => 0
    | some x => if o.kind = 0 then x.spByte off else BitVec.ofNat 8 (x.vv (off / 64) (off % 64 / 4) >>> (8 * (off % 4)))
  (List.range (o.slabs m.fmt)).flatMap (fun sl => (List.range 32).flatMap (fun i => (List.range (rowBytes m.fmt / 8)).flatMap (fun w =>
    (List.range 8).map (fun b => at_ (ps.getD (sl % ps.length) m.own) (o.wordAt m.fmt ps.length sl i w + b)))))

/-- A row of a slab. -/
def rowOf (f : Fmt) (bs : List Byte) (sl i : Nat) : List Byte := (bs.drop ((32 * sl + i) * rowBytes f)).take (rowBytes f)

/-- Element e of a row of a byte format. -/
def eltOf (f : Fmt) (row : List Byte) (e : Nat) : Nat := ofBytes ((row.drop (e * Fmt.bytes f)).take (Fmt.bytes f))

/-- Exact sums of products: an infinity or NaN decides (R67); zeros keep −0 only where every product is −0. -/
def sumExact : List Exact → Exact
  | [] => .zero true
  | x :: xs => x.add .rne (sumExact xs)

/-- The contribution of a summation group of a float format. -/
def groupV (f : Fmt) (as bs : List Nat) : Exact := sumExact ((as.zip bs).map (fun p => (valueOf f p.1).mul (valueOf f p.2)))

/-- The term of one pair of L6 codes, in units of 2^-21 (R68). -/
def l6Term (a b : Nat) : Int :=
  if a % 32 = 0 ∨ b % 32 = 0 then 0
  else
    let m := a % 32 + b % 32 -- msum + 40, so e + 10 = m / 4 and f = m mod 4
    let p : Int := (t6 (m % 4) * 2 ^ (m / 4) : Nat)
    if (a.testBit 5) != (b.testBit 5) then -p else p

/-- The block sum of R68, scaled. -/
def l6Block (as bs : List Nat) (sa sb : Nat) : Exact :=
  if sa = 0xFF ∨ sb = 0xFF then .nan
  else if (as.zip bs).any (fun p => p.1 = 0x20 || p.2 = 0x20) then .nan
  else
    let acc := ((as.zip bs).map (fun p => l6Term p.1 p.2)).foldl (· + ·) 0
    (exactInt acc).scale (-21 + ((sa : Int) - 127) + ((sb : Int) - 127))

/-- The contributions of one K-step to element (i, j), in ascending k. -/
def stepGroups (f : Fmt) (a b : List Byte) (step i j : Nat) : List Exact :=
  if f = .l6 then
    let ra := rowOf f a (step / 2) i
    let rb := rowOf f b (step / 2) j
    (List.range 4).map (fun g =>
      let blk := 4 * (step % 2) + g
      let es := (List.range 24).map (fun k => 24 * blk + k)
      l6Block (es.map (brickCodeOf ra)) (es.map (brickCodeOf rb)) (ra.getD (144 + blk) 0).toNat (rb.getD (144 + blk) 0).toNat)
  else
    let es := List.range (kStep f)
    [groupV f (es.map (eltOf f (rowOf f a step i))) (es.map (eltOf f (rowOf f b step j)))]
where
  /-- The code of an element of an L6 brick (R66). -/
  brickCodeOf (bs : List Byte) (e : Nat) : Nat :=
    ((List.range 6).filter (fun i => (bs.getD (8 * (6 * (e / 64) + i) + e % 64 / 8) 0).toNat.testBit (e % 8))).foldl (fun a i => a + 2 ^ i) 0

/-- C := round(C + V) (R67). -/
def accumulate (c : Nat) (v : Exact) : Nat := round ((valueOf .fp32 c).add .rne v) .fp32 .rne false

/-- One K-step of an operation on its tile: element 32 i + j is zd[i][j]. -/
def Core.mmaStep (x : Core) (m : MmaOp) : Core :=
  let elem (t : Tab W32) (n : Nat) : Tab W32 :=
    let key := 1024 * m.z + n
    let c := (tgetD x.z key 0).toNat
    tput t key (BitVec.ofNat 32 ((stepGroups m.fmt m.a m.b m.step (n / 32) (n % 32)).foldl accumulate c))
  { x with z := (List.range 1024).foldl elem x.z, ztag := tput x.ztag m.z .fp32 }

/-- The engine of a bay completes a K-step of the first operation it has accepted: at the first it reads every slab, and after the
last the slot part ends (R318, R319). (DEDUCED, log 17) -/
def execMmaStep (n : BitVec 5) (bay : BitVec 4) (s : State) : Host.Outcome State Fault Refusal :=
  match s.mmas.find? (fun m => m.cl = n.toNat && m.bay = bay.toNat && m.queued.isSome) with
  | none => .next s
  | some m =>
    let m := if m.read then m else { m with a := s.mmaRead m m.opdA, b := s.mmaRead m m.opdB }
    let s := s.modCore m.cl m.core (fun x => x.mmaStep m)
    let m := { m with step := m.step + 1 }
    if m.opdA.steps ≤ m.step then .next (s.endOp m false)
    else .next { s with mmas := s.mmas.map (fun x => if x.id = m.id then m else x) }

/-! ### The accumulator words (R320, R321) -/

/-- A core's tile has an operation whose slot part has not ended. -/
def State.tileBusy (s : State) (n k z : Nat) : Bool := s.mmas.any (fun m => m.cl = n && m.core = k && m.z = z)

/-- Elements of one accumulator word. -/
def accCount (w : LM) : Nat :=
  match w.wid.toNat with
  | 2 => 2
  | 3 => 4
  | _ => 1

def tileOf (o : Opd) : Nat := match o with | .z z => z.toNat | _ => 0

/-- The first element that a lane's index names. -/
def Core.accElem (x : Core) (w : LM) (l : Nat) : Nat := x.index w.b l % 1024 / accCount w * accCount w

/-- The use of an accumulator word. -/
def accUse (w : LM) (tags : Core → Bool) (x : Core) : LaneUse :=
  { regs := Opd.regs w.d (accCount w) ++ Opd.regs w.b 1, latches := latchesOf [w.d, w.b], tags := x.indexTag w.b && tags x, part := false }

/-- ACC.RD: each register of the result pushes a latch, as a load's does. -/
def execAccRd (w : LM) (s : State) : Host.Outcome State Fault Refusal :=
  s.lane (.accRd w) [(w.d, accCount w), (w.a, 1), (w.b, 1)]
    (accUse w (fun x => match w.a with | .z z => x.tileTag z = .fp32 | _ => true)) fun n k _ x _ =>
      let z := tileOf w.a
      if s.tileBusy n k z && !w.peek then .fault s { cls := 0x26 }
      else
        match w.d with
        | .v d =>
          let one (y : Core) (j : Nat) : Core := y.putV (d + BitVec.ofNat 8 j) .fp32 w.nwb
            (fun l => if bit (x.gov w.gm) l then some (tgetD x.z (1024 * z + x.accElem w l + j) 0).toNat else none)
          .done (s.setCore n k ((List.range (accCount w)).foldl one x))
        | _ => .done s

def execAccWr (w : LM) (s : State) : Host.Outcome State Fault Refusal :=
  s.lane (.accWr w) [(w.d, accCount w), (w.a, 1), (w.b, 1)]
    (accUse w (fun x => x.tagOk w.d (accCount w) (fun t => t = .fp32))) fun n k _ x _ =>
      let z := tileOf w.a
      if s.tileBusy n k z then .wait s cFuture
      else
        let value (j l : Nat) : Nat := match w.d with | .v d => x.data .fp32 (.v (d + BitVec.ofNat 8 j)) l | o => x.data .fp32 o l
        let put (t : Tab W32) (l : Nat) : Tab W32 :=
          (List.range (accCount w)).foldl (fun t j => tput t (1024 * z + x.accElem w l + j) (BitVec.ofNat 32 (value j l))) t
        .done (s.setCore n k { x with z := (setBits 16 (x.gov w.gm).toNat).foldl put x.z, ztag := tput x.ztag z .fp32 })

def execAccClr (w : LA) (s : State) : Host.Outcome State Fault Refusal :=
  s.lane (.accClr w) [(w.d, 1)] (fun _ => { regs := [], latches := [], tags := true, part := false }) fun n k _ x _ =>
    let z := tileOf w.d
    if s.tileBusy n k z then .wait s cFuture
    else if x.gov w.gm = 0 then .done s
    else .done (s.setCore n k { x with z := x.z.filter (fun p => p.1 / 1024 != z), ztag := tput x.ztag z .fp32 })

end Sys2Proof.Machine
end

