-- ==== Sys2Proof/Machine/Issue.lean ====
section
/-! DEFINITION. When a core starts the word at the head of its buffer, and what a cluster cycle counts (R175, R202 to R206). -/

namespace Sys2Proof.Machine

/-- A core may still start words for its context: nothing has stopped the context, or a handled trap lets what is written drain,
or the stop came in this very cycle (R367, R368, R372). -/
def Ctx.drains (c : Ctx) (now : Nat) : Bool :=
  match c.stop with
  | none => true
  | some x => x.frame.isSome || x.since = now

/-- A memory word that this core has started, whose mask reaches past its core, and whose predecessors are unperformed: it stalls
the words behind it (R284). -/
def State.stalled (s : State) (n k slot uid : Nat) : Bool :=
  s.accs.any (fun a => a.cl = n && a.uid = uid && a.agent = .core k && !a.done && !a.bad && a.pm ≠ 0 && (a.todo []).any (fun p =>
    let sc := effScope p.2.pa a.scope
    decide (3 ≤ scopeRank sc) && !s.predsDone n slot uid a.agent a.key a.pm sc (p.2.away a.op a.scope)))

/-- The MMA word that a core has started still waits: for its engine's queue, or at its rendezvous (R206, R317). -/
def State.mmaWaits (s : State) (n k : Nat) (x : Core) : Nat :=
  if !s.mmaHolds n k x then 0
  else if s.mmas.any (fun m => m.cl = n && m.core = k && m.queued.isNone)
      && decide (16 ≤ (s.mmas.filter (fun m => m.cl = n && m.bay = k / 8 && m.queued.isSome)).length) then cEngine
  else cRendezvous

/-- What an MMA word that still waits counts: SLICE first, where the matrix slice is closed (R206). -/
def State.mmaHead (s : State) (n k : Nat) (x : Core) : Nat := if s.sliceOpen n (laneSlice 0x240) then s.mmaWaits n k x else cSlice

/-- Why the head word of a core cannot be tried in this cycle, the toll apart: a counter's word, 0 where it can. An MMA word that still
waits is the head until it has done so. (DEDUCED, log 41) -/
def State.headWaits (s : State) (n k : Nat) (x : Core) (uid : Nat) : Nat :=
  match x.buf with
  | [] => if s.mmaWaits n k x = 0 then cStarveOther else s.mmaHead n k x
  | w :: _ =>
    if s.mmaWaits n k x ≠ 0 then s.mmaHead n k x
    else if !s.sliceOpen n (laneSlice (slice w.w 9 0)) then cSlice
    else if s.stalled n k x.slot uid then cOperand
    else 0

/-- Trying the head word of a core: whether it starts or fails, and does not have to wait. -/
abbrev Trial := State → Nat → Nat → Bool

/-- A context has a core with a word ready: one that starts when it is tried. -/
def State.wordReady (s : State) (could : Trial) (n slot : Nat) (c : Ctx) : Bool :=
  c.drains s.now && (s.liveCores n slot).any (fun p => !p.2.failed && s.headWaits n p.1 p.2 c.uid = 0 && could s n p.1)

/-- The context that a cycle which began with T below 0 serves: round-robin in ascending number (R204). (DEDUCED, log 16) -/
def State.nextServed (s : State) (could : Trial) (n : Nat) : Option Nat :=
  let ready := ((s.clusterCtxs n).filter (fun p => s.wordReady could n p.1 p.2)).map Prod.fst
  match ready.find? (fun k => decide ((s.cluster n).rr < k)) with
  | some k => some k
  | none => ready.head?

/-- T stands below −CAP, so that no core starts a word, or the cycle serves another context (R204). -/
def State.tolled (s : State) (n slot : Nat) : Bool :=
  let c := s.cluster n
  decide (c.began < -((slice c.cfgOn 61 32 : Nat) : Int)) ||
    (decide (c.began < 0) && (match c.served with | some k => k ≠ slot | none => false))

/-- Whether the toll withholds a context's cores in this cycle; the choice of the one context stands for the whole cycle. (DEDUCED, log 16) -/
def State.withheld (s : State) (could : Trial) (n slot : Nat) : Bool × State :=
  let c := s.cluster n
  if 0 ≤ c.began || c.served.isSome || s.tolled n slot then (s.tolled n slot, s)
  else
    match s.nextServed could n with
    | none => (true, s)
    | some k => (k ≠ slot, s.setCluster n { c with served := some k, rr := k })

/-- A core's cycle (R175): the word that it starts, with the core in focus; or the state with the reason why it starts none. -/
def State.fetchCore (s : State) (could : Trial) (n k : Nat) : Fetched :=
  match s.core? n k with
  | none => .done s
  | some x =>
    match s.ctx? n x.slot, x.buf with
    | some c, w :: _ =>
      if x.left || x.failed || x.ran || !c.drains s.now then .done s
      else
        let why := s.headWaits n k x c.uid
        if why ≠ 0 then .done (s.waitCore n k why)
        else
          match s.withheld could n x.slot with
          | (true, s) => .done (s.waitCore n k cToll)
          | (false, s) =>
            let s := { s with focus := ⟨n, x.slot, k⟩ }
            match decodeLane w.w with
            | some i => .run i s
            | none => .done (s.laneFault w.e w.w { cls := 0x20 })
    | _, _ => .done s

/-! ### A cluster cycle (R204 to R206) -/

/-- What a lent core counts in a cycle (R206): a withheld core TOLL, before what its head word waits for. A core whose head word has failed
counts OPERAND until it leaves. (DEDUCED, log 41; DESIGN CHOICE, log 41) -/
def State.coreCategory (s : State) (n k : Nat) (x : Core) (c : Ctx) : Nat :=
  if x.ran then cExec
  else if x.buf = [] && s.mmaWaits n k x = 0 then
    if (s.cluster n).starved && c.status = .issue then cStarveFetch
    else
      match c.queue with
      | o :: _ => if (o.kind = .replay || o.kind = .replayM) && (s.opWords n c.launch o).isNone then cStarveReplay else cStarveOther
      | [] => cStarveOther
  else if s.tolled n x.slot then cToll
  else
    let w := s.headWaits n k x c.uid
    if w ≠ 0 then w else if x.why ≠ 0 then x.why else cOperand

/-- What the context in ISSUE waits for where neither a fetch nor a block shows it: the bubble after a taken branch, the change to it, or
a distance (R150, R205). (DEDUCED, log 41) -/
def State.idleCategory (s : State) (n slot : Nat) : Nat :=
  if (match s.ctx? n slot with | some c => c.bubble | none => false) then cBranch
  else if (s.cluster n).switched then cSwitch
  else cDepend

/-- What the generator's cycle counts, and for which context (R205): nothing where an instruction retired, since a retirement counts
itself. The cycle of a context that blocked counts for it; between contexts the cycle is the SWITCH of the one to come. (DEDUCED, log 41) -/
def State.genCategory (s : State) (n : Nat) : Option (Nat × Nat) :=
  let k := s.cluster n
  if k.issued then none
  else
    match s.issuing n, k.category with
    | some (slot, _), none => some (slot, if k.starved then cFetch else s.idleCategory n slot)
    | some (slot, _), some c => some (if k.starved then (slot, cFetch) else c)
    | none, some c => some c
    | none, none =>
      (minBy Ctx.turn ((s.clusterCtxs n).filter (fun p => p.2.status = .ready))).map (fun p => (p.1, cSwitch))

/-- The counts of the cycle that ends. (DEDUCED, log 41) -/
def State.countCycle (s : State) (n : Nat) : State :=
  let mine := s.cores.filter (fun p => p.1 / 128 = n)
  let lent := mine.length
  let s := mine.foldl (fun s p =>
    match s.ctx? n p.2.slot with
    | some c => s.countCtx n p.2.slot (s.coreCategory n (p.1 % 128) p.2 c) 1
    | none => s) s
  let s := s.setCluster n { s.cluster n with unlent := (s.cluster n).unlent + (128 - lent) }
  if !s.sliceOpen n 0 then s
  else
    match s.genCategory n with
    | some (slot, w) => s.countCtx n slot w 1
    | none => if (s.cluster n).issued then s else s.setCluster n { s.cluster n with noctx := (s.cluster n).noctx + 1 }

/-- Every context of a cluster sends its counts to the front die, which it does each 2^16 cycles (R390). -/
def State.sendAll (s : State) (n : Nat) : State := (s.clusterCtxs n).foldl (fun s p => s.sendCounts n p.1) s

/-- A cluster cycle begins (R204, R419): the cycle before it is counted, the settings written before now are in effect, and the
toll refills; a new RATIO is in effect from a cycle on whose `$cycle` mod 4 is 0, counts go out every 2^16 cycles (R390), and a candidate
that waits for bays is noted (R371).
(DESIGN CHOICE, log 15; DEDUCED, log 16) -/
def execTollRefill (n : BitVec 5) (s : State) : Host.Outcome State Fault Refusal :=
  let n := n.toNat
  let s := s.countCycle n
  let s := if slice (s.cluster n).cycle 15 0 = 0xFFFF then s.sendAll n else s
  let c := s.cluster n
  let cfg := c.tollCfg
  let cap : Int := (slice cfg 61 32 : Nat)
  let fill : Int := (slice cfg 31 16 / 2 ^ c.shift : Nat)
  let ratio := if slice (c.cycle + 1) 1 0 = 0 then BitVec.ofNat 12 (slice cfg 11 0) else c.ratio
  let c := { c with cycle := c.cycle + 1, ratio := ratio, gcycle := if s.sliceOpen n 0 then c.gcycle + 1 else c.gcycle, cfgOn := cfg, costOn := c.tollCost,
                    began := c.toll, toll := min (c.toll + fill) cap, served := none, switched := false, issued := false, wrote := 0,
                    starved := false, category := none }
  let s := (s.setCluster n c).noteWaiting n
  .next { s with cores := s.cores.map (fun p => if p.1 / 128 = n then (p.1, { p.2 with ran := false, why := 0 }) else p) }

end Sys2Proof.Machine
end

