-- ==== Sys2Proof/Machine/Storage.lean ====
section
/-! DEFINITION. The steps of storage: code fills, page walks, the performing of accesses, the resolving of slots, and dropping
translations (R132 to R135, R262, R263, R281, R294, R300 to R304). -/

namespace Sys2Proof.Machine

/-! ### Code fills (R132, R133, R135, R137) -/

/-- The level that a level fills from, and the unit of it that serves one of the level's units. -/
def outerOf (lvl : Level) (unit : Nat) : Option (Level × Nat) :=
  match lvl with
  | .i0 => some (.i1, dieOf unit)
  | .i1 => some (.i2, 0)
  | .i2 => none

/-- The generators that a unit of a level serves. -/
def servedBy (lvl : Level) (unit n : Nat) : Bool := codeUnit lvl n = unit

/-- The contexts whose fetch waits for a line through a unit of a level: in ISSUE, with the line among those of their instruction and
on its way to their I0 (R135). -/
def State.fetching (s : State) (lvl : Level) (unit line : Nat) : List (Nat × Nat × Ctx) :=
  s.allCtxs.filter (fun p => servedBy lvl unit p.1 && p.2.2.status = .issue && !p.2.2.halted && s.code.filling .i0 p.1 line
    && (codeLines p.2.2.pc (let w := s.codeWord p.2.2.pc; lengthOf w + 8 * payloadOf w)).contains line)

/-- Stop every context whose fetch waits for a line through a unit (R135, R295), under the LCLOCK of the error's record (R426). -/
def State.faultFetch (s : State) (lvl : Level) (unit line cls : Nat) (clk : BitVec 48) : State :=
  let under (f : Fill) : Bool :=
    match lvl, f.lvl with
    | .i2, _ => true
    | .i1, .i1 => f.unit = unit
    | .i1, .i0 => dieOf f.unit = unit
    | .i0, .i0 => f.unit = unit
    | _, _ => false
  let hit := s.fetching lvl unit line
  let s := { s with code := { s.code with fills := s.code.fills.filter (fun f => f.line != line || !under f) } }
  hit.foldl (fun s p => s.stopCtx p.1 p.2.1 none { cls := cls, retried := true, where_ := p.2.2.pc, clk := some clk }) s

/-- The physical address of a code line. -/
def State.codePa (s : State) (line : Nat) : Nat := match s.module? (lineModule line) with | some x => x.pa + lineOffset line | none => 0

/-- An error in a line of a code cache is recorded, for the launch whose fetch has met it (R426). UNIT is the cluster of an I0, the die of an
I1, and 8, for the front die, of the I2. (DESIGN CHOICE, log 58) -/
def State.codeRecord (s : State) (kind : Nat) (lvl : Level) (unit line : Nat) (seq : W64) : State :=
  let die : Option Nat := match lvl with | .i0 => some (dieOf unit) | .i1 => some unit | .i2 => none
  s.errorRecord 4 kind die (s.codePa line) (match lvl with | .i2 => 8 | _ => unit) seq

/-- A generator finds an uncorrectable error in a line of its I0: the line is discarded, and fetched again from the next level (R135). -/
def State.codeLost (s : State) (n line : Nat) : State :=
  if !s.code.has .i0 n line then s
  else
    let s := s.codeRecord 1 .i0 n line (match s.issuing n with | some p => s.seqOf p.2 | none => 0)
    { s with code := s.code.drop .i0 n line }.askFill n line false none none (levelsFrom .i0)

/-- A code line arrives at a level, at an I1 by the front die's answer (R296). A fill for a module that is not LIVE or DRAINING is dropped. One that finds an error in the
level it fills from discards that level's line and fetches it again; an error in DRAM, tried twice, faults the fetching contexts. -/
def execCodeFillArrival (lvl : Level) (unit : BitVec 5) (line : W64) (o : Attempt) (s : State) : Host.Outcome State Fault Refusal :=
  let line := line.toNat
  let unit := unit.toNat
  let mine (f : Fill) : Bool := f.lvl = lvl && f.unit = unit && f.line = line
  match s.code.fills.find? mine with
  | none => .next s
  | some f =>
    let early := match outerOf lvl unit with
      | some (l, u) => s.code.filling l u line
      | none => false
    if early then .next s
    else
      let m := lineModule line
      let drop (s : State) : State := { s with code := { s.code with fills := s.code.fills.filter (fun g => !mine g) } }
      if s.modState m ≠ .live && s.modState m ≠ .draining then .next (drop s)
      else
        let arrive (s : State) : State :=
          let s := drop s
          let s := if lvl = .i1 then s.message none (some unit) else s
          { s with code := s.code.put lvl unit line f.seq }
        let first := (s.fetching lvl unit line).head?
        let die := first.map (fun p => dieOf p.1)
        let seq : W64 := match first with | some p => s.seqOf p.2.2 | none => 0
        let clk := s.lclock die
        match outerOf lvl unit with
        | none =>
          let pa := s.codePa line
          let o := s.attempt o pa 128
          let s := s.storageError o (s.badPlace pa 128 pa) die seq
          match o with
          | .lasting => .next (s.faultFetch lvl unit line 0x30 clk)
          | .linkFailed => .next (s.faultFetch lvl unit line 0x31 clk)
          | _ => .next (arrive s)
        | some (l, u) =>
          let served : State := { s with code := s.code.used l u line }
          match o with
          | .ok => .next (arrive served)
          | .corrected => .next (arrive (served.codeRecord 0 l u line seq))
          | .linkFailed => .next ((s.errorRecord 5 2 die 0 (if lvl = .i0 then dieOf unit else unit) 0).faultFetch lvl unit line 0x31 clk)
          | _ =>
            let s := s.codeRecord 1 l u line seq
            let s := { s with code := s.code.drop l u line }
            .next (s.askFill (if lvl = .i0 then unit else 4 * unit) line f.seq none none (levelsFrom l))

/-! ### Page walks (R257 to R262) -/

/-- The addresses of the entries that a walk reads, the last first. -/
def State.walkTrail (s : State) (unit : Nat) (space : BitVec 2) (va : W72) : Nat → Nat → Nat → List Nat → List Nat
  | 0, _, _, seen => seen
  | fuel + 1, t, pa, seen =>
    let a := pa + 8 * bits va.toNat (tableLow t + tableBits t - 1) (tableLow t)
    match s.walkerHit unit space va t with
    | some next => s.walkTrail unit space va fuel (t + 1) next seen
    | none =>
      if homeOf a = .absent || !s.peerOk a || !s.linkOpen a || s.badLine a then a :: seen
      else match readPte t (s.homeRead a 8) with
      | .table next => s.walkTrail unit space va fuel (t + 1) next (a :: seen)
      | _ => a :: seen

/-- The whole trail of a walk, and the address of the last entry that it reads. -/
def State.trailOf (s : State) (unit : Nat) (space : BitVec 2) (va : W72) : List Nat :=
  s.walkTrail unit space va 6 0 (slice (s.xlroot space) 53 19 * 2 ^ 19) []
def State.walkLast (s : State) (unit : Nat) (space : BitVec 2) (va : W72) : Nat := (s.trailOf unit space va).headD 0

/-- The launch that first waits for a walk, by its submission number; 0 where none does. -/
def State.walkSeq (s : State) (w : Walk) : W64 :=
  match w.users.getLast?.bind (fun u => s.ctxByUid u.1) with
  | some p => s.seqOf p.2.2
  | none => 0

/-- A page walk finishes, one of the 64 that a die has in flight: its leaf enters the die's TLB, or it failed and every agent that
waited on it will find its kind. A table beyond the die's near stacks was asked for over the front die (R296). (DEDUCED, log 28) -/
def execPageWalkDone (die : BitVec 3) (space : BitVec 2) (vpn : BitVec 60) (o : Attempt) (s : State) : Host.Outcome State Fault Refusal :=
  let die := die.toNat
  let mine (w : Walk) : Bool := w.die = die && w.space = space && w.vpn = vpn && w.kind.isNone
  match (s.walksOf die).find? mine with
  | none => .next s
  | some w =>
    let va : W72 := BitVec.ofNat 72 (vpn.toNat * 4096)
    let unit := s.walkerOf die va
    let last := s.walkLast unit space va
    let o := if s.peerOk last then s.attempt o (last / 128 * 128) 128 else .ok
    let far := (s.trailOf unit space va).any (farFrom die)
    let clk := s.lclock (some die)
    let s := s.storageError o (s.badPlace (last / 128 * 128) 128 last) (some die) (s.walkSeq w)
    let s := if far then s.exchange die else s
    let rest := s.walks.filter (fun x => !mine x)
    let fail (k : Kind) : State :=
      if w.users = [] then { s with walks := rest } else { s with walks := rest ++ [{ w with kind := some k, clk := clk }] }
    match o with
    | .lasting => .next (fail kTableErr)
    | .linkFailed => .next (fail kLink)
    | _ =>
      match s.walk (some unit) space va with
      | (.error k, _) => .next (fail k)
      | (.ok e, seen) => .next ({ s with walks := rest }.tlbEnter die unit e seen)

/-! ### Accesses (R281, R294) and slots (R300) -/

/-- An access is performed at its storage, or the parts of it that are named; so is the next access of an engine's command. -/
def execAccessPerformed (id : Nat) (o : Tried (List Nat)) (s : State) : Host.Outcome State Fault Refusal :=
  match s.cmds.find? (fun c => c.id = id) with
  | some c => .next (s.engineAccess c o.how)
  | none => .next (s.perform id o.what o.how)

def execAccessAcknowledgement (id : Nat) (s : State) : Host.Outcome State Fault Refusal := .next (s.acknowledge id)

/-- A slot leaves PENDING in one step: an engine command that has ended, the last part of its matrix operations, or a state word
that it joined. -/
def execSlotResolve (n : BitVec 5) (slot : BitVec 3) (f : BitVec 6) (s : State) : Host.Outcome State Fault Refusal :=
  let n := n.toNat
  let slot := slot.toNat
  match s.ctx? n slot with
  | none => .next s
  | some c =>
    let x := c.slot f
    if x.state ≠ .pending then .next s
    else
      match x.work with
      | .command id =>
        match s.cmds.find? (fun y => y.id = id) with
        | none => .next s
        | some y =>
          if !y.ended then .next s
          else
            let s := ({ s with cmds := s.cmds.filter (fun z => z.id != id) }.forgetUsers (· = y.user)).modSlot n slot f (fun z => { z with clk := y.clk })
            let st := if y.cancel then SlotState.cancelled else if y.code ≠ 0 then .error else .ok
            let code := if y.cancel then 0 else y.code
            .next (s.resolveSlot n slot f st code (if code = 3 then y.kind else 0) y.addr y.value (code = 8))
      | .mma 0 failed => .next (s.resolveSlot n slot f (if failed then .error else .ok) (if failed then 9 else 0) 0 0 0 false)
      | .joined st code v => .next (s.resolveSlot n slot f st code 0 0 v false)
      | _ => .next s

/-! ### Dropping translations (R256, R263) -/

/-- Bytes of a page meet the named range; a count of 0 names the whole space. -/
def inDrop (vpn count bits : Nat) (base : W72) : Bool :=
  count = 0 || decide (base.toNat / 2 ^ bits * 2 ^ bits < (vpn + count) * 4096 ∧ vpn * 4096 < (base.toNat / 2 ^ bits + 1) * 2 ^ bits)

/-- A write of TLBICMD: every entry that maps a byte of the named pages goes, and what a walk of them has failed with; and what has been
translated through one of them is waited for (R263). -/
def execTlbDrop (x : W64) (s : State) : Host.Outcome State Fault Refusal :=
  let r := s.regs
  if r.tlbiBusy || !bit x 0 then .next s
  else
    let space : BitVec 2 := BitVec.ofNat 2 (slice x 2 1)
    let vpn := slice r.tlbiVa 59 0
    let count := slice r.tlbiCnt 39 0
    let goes (e : TlbEnt) : Bool := e.space = space && inDrop vpn count e.bits e.base
    let ringOf (a : Access) : Option (BitVec 2) := (s.ctx? a.cl a.slot).map (fun c => c.ring)
    let gone := (s.clusters.flatMap (fun p => p.2.tlb) ++ s.dies.flatMap (fun p => p.2.tlb)).filter goes
    let through (a : Access) : Bool := !a.done && !a.bad && ringOf a = some space &&
      a.parts.any (fun p => !isSp p.pa && (inDrop vpn count 0 p.va || gone.any (fun e => e.maps space p.va)))
    let waits := (s.accs.filter through).map (fun a => a.id)
    .next { s with
      clusters := s.clusters.map (fun p => (p.1, { p.2 with tlb := p.2.tlb.filter (fun e => !goes e) })),
      dies := s.dies.map (fun p => (p.1, { p.2 with tlb := p.2.tlb.filter (fun e => !goes e) })),
      walkers := s.walkers.filter (fun p => !goes p.2),
      walks := s.walks.filter (fun w => !(w.kind.isSome && w.space = space && inDrop vpn count 12 (BitVec.ofNat 72 (w.vpn.toNat * 4096)))),
      regs := { r with tlbiBusy := true, tlbiSpace := space, tlbiWait := waits } }

/-- A drop ends once every access through what it removed has been performed, and its stores stand at device scope. -/
def execTlbDropDone (s : State) : Host.Outcome State Fault Refusal :=
  if !s.regs.tlbiBusy || s.accs.any (fun a => !a.done && !a.bad && s.regs.tlbiWait.contains a.id) then .next s
  else
    let mine (r : Narrow) : Bool := s.allCtxs.any (fun p => p.2.2.uid = r.uid && p.2.2.ring = s.regs.tlbiSpace) && scopeNarrower r.scope .device
    let s := s.carryThose mine .device
    .next { s with regs := { s.regs with tlbiBusy := false, tlbiWait := [] } }

end Sys2Proof.Machine
end

