-- ==== Sys2Proof/Machine/Frames.lean ====
section
/-! DEFINITION. Context frames: their bytes, writing them, and restoring them (R118, R190, R371 to R381). -/

namespace Sys2Proof.Machine

/-! ### Virtual bytes, page by page -/

/-- Write bytes at device scope; each page is translated once. One behind a failed link answers 0. -/
def State.virtWrite (s : State) (space : BitVec 2) : Nat → W72 → List Byte → Except Kind State
  | 0, _, _ => .ok s
  | fuel + 1, va, bs =>
    if bs = [] then .ok s
    else
      let n := 4096 - va.toNat % 4096
      match s.xlateFront space va true with
      | .error k => .error k
      | .ok p =>
        if s.linkOpen p.pa then (s.deviceBytes p.pa (bs.take n)).virtWrite space fuel (va + BitVec.ofNat 72 n) (bs.drop n) else .error kLink

/-- Read bytes at device scope; none where one does not translate or cannot be read. -/
def State.virtRead (s : State) (space : BitVec 2) (va : W72) (n : Nat) : Option (List Byte) :=
  match s.readVirt space va n with
  | .error _ => none
  | .ok bs => some bs

/-! ### The bytes of a frame (R374, R375) -/

def zeros (n : Nat) : List Byte := List.replicate n 0

/-- A slot's entry: its status, an FLOAD join, and the state word's address. -/
def Slot.frameBytes (x : Slot) : List Byte :=
  match x.work with
  | .join a _ =>
    let link : Nat := 2 ^ 63 + (match x.target with | some g => 2 ^ 62 + g.toNat * 2 ^ 56 | none => 0)
    toBytes 8 x.status.toNat ++ toBytes 8 link ++ toBytes 16 a.toNat
  | _ => toBytes 8 x.status.toNat ++ zeros 24

def opKindCode : OpKind → Nat
  | .emit => 1
  | .replay => 2
  | .emitM => 3
  | .replayM => 4

/-- An OPS record. -/
def EmitOp.frameBytes (o : EmitOp) : List Byte :=
  let emits := o.kind = .emit || o.kind = .emitM
  [BitVec.ofNat 8 (opKindCode o.kind), if emits then 0 else o.id, if emits then 0 else BitVec.ofNat 8 o.entryCl, 0]
    ++ toBytes 4 (if emits then 0 else o.gen.toNat) ++ toBytes 8 o.next
    ++ (List.range 8).flatMap (fun i => toBytes 2 (o.snap.getD i 0).toNat) ++ toBytes 8 (if emits then o.codePc.toNat else 0)
    ++ toBytes 9 o.dest.toNat ++ zeros 15

/-- A list of bytes cut or padded to a length. -/
def fit (n : Nat) (bs : List Byte) : List Byte := (bs ++ zeros n).take n

/-- Chambers that a context holds in flights of its cluster: the flight's place, its number, and whether it is DRAINING. -/
def State.chambersOf (s : State) (n l slot : Nat) : List (Flight × Nat) :=
  s.flights.flatMap (fun x => (x.heldBy n l slot).map (fun i => (x, i)))

/-- The generator's part of a frame, bytes 0x0000 to 0x1FFF, with DIGEST zero. -/
def State.frameHead (s : State) (n slot : Nat) (c : Ctx) (st : Nat) (rec : List W64) : List Byte :=
  let l := s.launchOf c
  let owned (i : Nat) : List W64 :=
    match s.flights.find? (fun x => x.uid = c.uid && x.fl = i) with
    | some x => x.image
    | none => List.replicate 8 0
  let held := (s.chambersOf n c.launch slot).filter (fun p => p.1.uid != c.uid)
  let votes := c.votes.map (fun v => v.value)
  toBytes 4 0x4D52465A ++ toBytes 2 1 ++ [BitVec.ofNat 8 st, BitVec.ofNat 8 c.bayList.length] ++ zeros 8
    ++ toBytes 8 (match l with | some y => y.seq.toNat | none => 0) ++ toBytes 4 (s.partition c).toNat
    ++ [c.ring.setWidth 8, BitVec.ofNat 8 n, BitVec.ofNat 8 slot, 0] ++ zeros 8 ++ zeros 24
    ++ fit 64 (ofWords c.barge) ++ fit 64 (ofWords rec)
    ++ toBytes 8 c.pc.toNat ++ toBytes 4 c.count ++ toBytes 4 c.deadline ++ toBytes 8 c.held.toNat ++ toBytes 8 c.credit
    ++ toBytes 8 c.ttag.toNat ++ toBytes 8 c.uscratch.toNat ++ [c.k] ++ zeros 15
    ++ (List.range 64).flatMap (fun i => toBytes 16 (tgetD c.g i 0).toNat)
    ++ (List.range 64).flatMap (fun i => (tgetD c.slots i Slot.reset).frameBytes)
    ++ (List.range 8).flatMap (fun i => toBytes 2 (tgetD c.h i 0).toNat)
    ++ toBytes 8 c.nextE ++ toBytes 8 c.queue.length ++ fit 256 (c.queue.flatMap EmitOp.frameBytes) ++ zeros 224
    ++ fit 128 (ofWords votes) ++ toBytes 8 votes.length ++ zeros 120
    ++ (List.range 16).flatMap (fun i => ofWords (owned i))
    ++ fit 32 ((held.take 16).flatMap (fun p => toBytes 2 (p.1.fl + 16 * p.2 + 256 + (if p.1.st p.2 = .draining then 512 else 0))))
    ++ zeros 3040

/-- The tag codes of consecutive registers, two to a byte. -/
def tagBytes (n : Nat) (tag : Nat → Fmt) : List Byte :=
  (List.range (n / 2)).map (fun i => BitVec.ofNat 8 (Fmt.code (tag (2 * i)) + 16 * Fmt.code (tag (2 * i + 1))))

/-- A core block. -/
def Core.block (x : Core) (k : Nat) : List Byte :=
  (List.range 16).flatMap (fun i =>
      let a := x.areg (BitVec.ofNat 4 i)
      toBytes 8 a.base.toNat ++ toBytes 4 a.stride.toNat ++ [BitVec.ofNat 8 (Fmt.code a.tag), 0, 0, 0])
    ++ (List.range 16).flatMap (fun i => toBytes 8 (tgetD x.q i 0).toNat)
    ++ (List.range 8).flatMap (fun i => toBytes 2 (x.mask (BitVec.ofNat 3 i)).toNat)
    ++ [BitVec.ofNat 8 k, BitVec.ofNat 8 (boolNat x.left)] ++ zeros 14
    ++ tagBytes 16 (fun i => tgetD x.ztag i .untyped) ++ zeros 88 ++ tagBytes 256 (fun i => tgetD x.vtag i .untyped) ++ zeros 384

/-- A core's pool: varying registers, scratchpad, tiles (R41). -/
def Core.pool (x : Core) (part : W32) : List Byte :=
  (List.range (1024 * vgran part)).flatMap (fun i => toBytes 4 (tgetD x.v i 0).toNat)
    ++ (List.range (4096 * sgran part)).map x.spByte
    ++ (List.range (1024 * agran part)).flatMap (fun i => toBytes 4 (tgetD x.z i 0).toNat)

def poolSize (part : W32) : Nat := 4096 * (vgran part + sgran part + agran part)

/-- Software may change a byte of a frame (R374, R375). -/
def frameRW (a : Nat) : Bool :=
  if a < 0x2000 then
    decide (0x08 ≤ a ∧ a < 0x10 ∨ 0xC0 ≤ a ∧ a < 0xC8 ∨ 0xE0 ≤ a ∧ a < 0xF1 ∨ 0x100 ≤ a ∧ a < 0x500)
  else
    let o := (a - 0x2000) % 1024
    decide (o < 0x100 ∧ o % 16 < 12 ∨ 0x100 ≤ o ∧ o < 0x180 ∨ 0x182 ≤ o ∧ o < 0x190)

/-- Bytes that are reserved in a frame of some cores (R374, R375, R379). -/
def frameRSV (cores a : Nat) : Bool :=
  if a < 0x2000 then
    decide (a = 0x1F ∨ 0x28 ≤ a ∧ a < 0x40 ∨ 0xF1 ≤ a ∧ a < 0x100 ∨ 0xE20 ≤ a ∧ a < 0xF00 ∨ 0xF88 ≤ a ∧ a < 0x1000 ∨ 0x1420 ≤ a)
  else
    let o := (a - 0x2000) % 1024
    decide ((a - 0x2000) / 1024 < cores) && decide (0x192 ≤ o ∧ o < 0x1A0 ∨ 0x1A8 ≤ o ∧ o < 0x200 ∨ 0x280 ≤ o)

/-- DIGEST of bytes 0x0000 to 0x21FFF. (PRESUMED, log 13) -/
def frameDigest (bs : List Byte) : List Byte :=
  let kept (p : Byte × Nat) : Byte := if frameRW p.2 || decide (0x20 ≤ p.2 ∧ p.2 < 0x28) then 0 else p.1
  (sha256 (bs.zipIdx.map kept)).take 8

/-- The cores of a context in ascending j, with their cluster numbers. -/
def State.frameCores (s : State) (n slot : Nat) : List (Nat × Core) := s.coresOf n slot

/-- The whole image of a frame: its header with DIGEST, its core blocks, and its pools. -/
def State.frameImage (s : State) (n slot : Nat) (c : Ctx) (st : Nat) (rec : List W64) : List Byte :=
  let cores := s.frameCores n slot
  let blocks := fit 0x20000 (cores.flatMap (fun p => p.2.block p.1))
  let body := s.frameHead n slot c st rec ++ blocks
  (body.take 0x20 ++ frameDigest body ++ body.drop 0x28) ++ cores.flatMap (fun p => p.2.pool (s.partition c))

/-! ### Saving (R372, R373) -/

/-- The drain of R372 has come to its end: every word has run, votes have combined, matrix operations and commands have ended,
owned window flights are at rest, and the streams are zero. -/
def State.drained (s : State) (n slot : Nat) (c : Ctx) : Bool :=
  (s.liveCores n slot).all (fun p => p.2.buf.isEmpty)
    && c.votes.all (fun v => v.needs = [])
    && c.slots.all (fun p => p.2.state ≠ .pending || (match p.2.work with | .join _ _ => true | _ => false))
    && s.flights.all (fun x => x.uid != c.uid || !x.window || x.cst.all (fun z => decide (z = Chamber.free ∨ z = Chamber.full)))
    && s.streamsZero c.uid && !c.sending && !s.midMulticast c.uid 32 0

/-- The capture entries that a context's queued operations name (R190). -/
def Ctx.entryKeys (c : Ctx) : List (Nat × Nat) :=
  c.queue.filterMap (fun o => if o.kind = .replay || o.kind = .replayM then some (o.entryCl, captKey c.launch o.id) else none)

/-- Put a frame into a berth, at the head of its level (R108, R118, R371): on the die given, if the launch can use it, else on the
lowest that it can; with none, the launch keeps it for its next grant. -/
def State.queueFrame (s : State) (l key die : Nat) (c : Ctx) : State :=
  match s.launch? l with
  | none => s
  | some x =>
    let q : Queued := ⟨c.barge, c.level, s.now, s.pushes, some key, true, none⟩
    let d := if x.usable.contains die then some die else x.usable.head?
    let x' := match d with
      | some d => ((x.withBasin (bargeEntry c.barge)).getD x).addTo (bargeEntry c.barge) d q
      | none => { x with first := x.first ++ [q] }
    { s.modLaunch l (fun _ => x') with pushes := s.pushes + 1 }

/-- Estimate the energy of a save or a restore for its launch; the interval's end charges it (R394). (DESIGN CHOICE, log 10) -/
def State.chargeSwap (s : State) (l : Nat) : State :=
  { s with fresh := s.fresh + 1,
           regs := { s.regs with swaps := tput s.regs.swaps l (tgetD s.regs.swaps l 0 + Config.swapEnergy s.fresh) } }

/-- Write a context's frame, bays written back and dropped, and take the context out of its cluster; one that a reset saves has done
with a pending boundary (R120). None where the frame area does not translate. -/
def State.saveFrame (s : State) (n slot ix st : Nat) (rec : List W64) : Option State :=
  match s.ctx? n slot with
  | none => none
  | some c =>
    let s := s.writeBackBays n c true
    let image := s.frameImage n slot c st rec
    match s.virtWrite c.ring (image.length / 4096 + 2) (s.frameVa c.ring ix) image with
    | .error _ => none
    | .ok s =>
      let held := (s.chambersOf n c.launch slot).map (fun p => (p.1.uid, p.1.fl, p.2))
      let cmdPa := match s.xlateFront c.ring (s.frameVa c.ring ix + 8) false with | .ok p => p.pa | .error _ => 0
      let away (x : Flight) : Flight :=
        let x := if x.uid = c.uid then { x with away := true } else x
        (x.heldBy n c.launch slot).foldl (fun x i => { x with hold := x.hold.set i 8 }) x
      let f : Frame := { state := st, launch := c.launch, ctx := { c with counts := [] }, cores := (s.frameCores n slot).map Prod.snd, cl := n,
                         slot := slot, held := held, keys := c.entryKeys, cmdPa := cmdPa, cmd := 0 }
      let s := { s with flights := s.flights.map away, frames := tput s.frames (frameKey c.ring ix) f }
      let s := s.countLaunch c.launch cSaves 1
      let s := s.traceCtx n slot 4 ix
      let reset := match c.save with | some ⟨.reset, _⟩ => true | _ => false
      some ((if reset then s.endCtx n slot else s.removeCtx n slot).chargeSwap c.launch)

/-! ### Restoring (R376, R191) -/

/-- The 32-bit words of bytes, by their place. -/
def words32 (bs : List Byte) : Nat → Nat → Tab W32
  | _, 0 => []
  | i, n + 1 => (i, BitVec.ofNat 32 (ofBytes (bs.take 4))) :: words32 (bs.drop 4) (i + 1) n

/-- The 64-bit word at an offset of some bytes. -/
def atWord (bs : List Byte) (off n : Nat) : Nat := ofBytes ((bs.drop off).take n)

/-- A core as its block and pool say, in a new place. -/
def Core.restored (x : Core) (slot epoch : Nat) (part : W32) (block pool : List Byte) : Core :=
  let va := 4096 * vgran part
  let sa := 4096 * sgran part
  let areg (i : Nat) : AReg :=
    ⟨BitVec.ofNat 64 (atWord block (16 * i) 8), BitVec.ofNat 32 (atWord block (16 * i + 8) 4), (x.areg (BitVec.ofNat 4 i)).tag⟩
  { x with
    slot := slot, epoch := epoch, latch := [], buf := [], hold := none, failed := false, ran := false, why := 0,
    a := (List.range 16).map (fun i => (i, areg i)),
    q := (List.range 16).map (fun i => (i, BitVec.ofNat 64 (atWord block (0x100 + 8 * i) 8))),
    m := (List.range 8).map (fun i => (i, BitVec.ofNat 16 (atWord block (0x180 + 2 * i) 2))),
    v := words32 pool 0 (1024 * vgran part),
    sp := (List.range sa).zip ((pool.drop va).take sa),
    z := words32 (pool.drop (va + sa)) 0 (1024 * agran part) }

/-- The cores of bays, in ascending order. -/
def coresIn (bays : List Nat) : List Nat := bays.flatMap (fun b => (List.range 8).map (fun p => 8 * b + p))

/-- A mask of bays. -/
def bayMask (bays : List Nat) : BitVec 16 := BitVec.ofNat 16 (bays.foldl (fun a b => a + 2 ^ b) 0)

/-- The generator's registers as a frame's header says. -/
def Ctx.restored (c : Ctx) (head : List Byte) : Ctx :=
  { c with
    pc := BitVec.ofNat 64 (atWord head 0xC0 8), ttag := BitVec.ofNat 64 (atWord head 0xE0 8), uscratch := BitVec.ofNat 64 (atWord head 0xE8 8),
    k := BitVec.ofNat 8 (atWord head 0xF0 1), g := (List.range 64).map (fun i => (i, BitVec.ofNat 72 (atWord head (0x100 + 16 * i) 9))) }

/-- An FLOAD join performed again at the restore (R376). -/
def State.rejoin (s : State) (n slot : Nat) (f : BitVec 6) : State :=
  match s.ctx? n slot with
  | none => s
  | some c =>
    let x := c.slot f
    match x.state, x.work with
    | .pending, .join va _ =>
      /- where the join fails, the target is not written -/
      let bare : State := s.setCtx n slot { c.setSlot f { x with target := none } with
        gt := match x.target with | some g => tdel c.gt g.toNat | none => c.gt }
      match s.xlateFront c.ring va false with
      | .error k => bare.resolveSlot n slot f .error 3 k va 0 false
      | .ok p =>
        if !s.linkOpen p.pa then bare.resolveSlot n slot f .error 0x0A 0 va 0 false
        else if s.badAt p.pa 16 then bare.resolveSlot n slot f .error 8 0 va 0 false
        else
          let w := s.readSW p.pa
          if w.over_ then s.modSlot n slot f (fun y => { y with work := w.joined })
          else s.modSlot n slot f (fun y => { y with work := .join va p.pa })
    | _, _ => s

/-- A flight whose owner has come back to cluster n (R352): on another cluster than before, its entry moves there, and the window of
a die flight with it. (DEDUCED, log 31) -/
def Flight.homecoming (x : Flight) (n slot : Nat) (coreOf : Nat → Nat) : Flight :=
  let x := if x.cl = n then x else { x with base := if x.window && bit x.base 27 then putBits x.base 26 25 (n % 4) else x.base,
                                            hold := x.hold.map (fun _ => 8) }
  { x with cl := n, owner := slot, away := false, core := if x.window then coreOf (slice x.base 24 18) else x.core }

/-- A chamber that a saved context held, by its flight's owner: it goes back to the context where the flight is on its new cluster, and
else it is left as a failed holder leaves it (R351, R376). (DEDUCED, log 31) -/
def State.giveBack (s : State) (n slot l : Nat) (p : Nat × Nat × Nat) : State :=
  { s with flights := s.flights.map (fun x =>
      if x.uid = p.1 && x.launch = l && x.fl = p.2.1 then (if x.cl = n then { x with hold := x.hold.set p.2.2 slot } else x.step p.2.2 true) else x) }

/-- Put a frame's context into a slot of cluster n, on given bays. None where its memory cannot be read. -/
def State.restoreFrame (s : State) (n slot key : Nat) (bays : List Nat) : Option State :=
  match tget s.frames key with
  | none => none
  | some f =>
    let ring : BitVec 2 := BitVec.ofNat 2 (key / 4096)
    let va := s.frameVa ring (key % 4096)
    let part := s.partition f.ctx
    let nc := f.cores.length
    match s.virtRead ring va (0x22000 + nc * poolSize part) with
    | none => none
    | some image =>
      let ks := coresIn bays
      let block (j : Nat) : List Byte := (image.drop (0x2000 + 1024 * j)).take 1024
      let pool (j : Nat) : List Byte := (image.drop (0x22000 + poolSize part * j)).take (poolSize part)
      let put (t : Tab Core) (p : Core × Nat) : Tab Core :=
        tput t (coreKey n (ks.getD p.2 0)) (p.1.restored slot (s.fresh + p.2) part (block p.2) (pool p.2))
      let s := { s with cores := f.cores.zipIdx.foldl put s.cores, fresh := s.fresh + nc }
      let c := { f.ctx.restored image with bays := bayMask bays, counts := [], queue := f.ctx.queue.map (fun o => { o with fetched := false }) }
      let s := s.resumeCtx n slot c
      let s := if f.ctx.wait = .step && (match f.ctx.save with | some ⟨.boundary, _⟩ => true | _ => false) then
          s.modCtx n slot (fun c => { c with wait := .stepDone }) else s
      let coreOf (j : Nat) : Nat := ks.getD j 0
      let mine := (s.flights.filter (fun x => x.uid = c.uid)).map (fun x => x.homecoming n slot coreOf)
      let rest := s.flights.filter (fun x => x.uid != c.uid && !mine.any (fun y => y.cl = x.cl && y.launch = x.launch && y.fl = x.fl))
      let s := { s with flights := rest ++ mine }
      let s := f.held.foldl (fun s p => s.giveBack n slot c.launch p) s
      let s := (List.range 64).foldl (fun s i => s.rejoin n slot (BitVec.ofNat 6 i)) s
      let s := (s.refreshBays n slot).traceCtx n slot 5 (key % 4096)
      some ((s.freeFrameAt key).chargeSwap c.launch)

/-! ### Discarding (R377 to R379) -/

/-- Steps 5 to 7 of R368 on a frame's state, and the frame becomes FREE. (DEDUCED, log 42) -/
def State.discardFrame (s : State) (key : Nat) : State :=
  match tget s.frames key with
  | none => s
  | some f =>
    let s := f.held.foldl (fun s p => s.giveBack 32 8 f.launch p) s
    let home (x : Flight) : Flight := if x.uid = f.ctx.uid then { x with away := false } else x
    let s := { s with flights := s.flights.map home }
    let s := s.addPost (f.ctx.post f.cl true)
    ((s.freeFrameAt key).reached f.launch f.ctx.uid false).reap f.launch

/-- The checks of R379, on the frame as memory holds it. -/
def State.frameGood (s : State) (key : Nat) : Bool :=
  let ring : BitVec 2 := BitVec.ofNat 2 (key / 4096)
  match tget s.frames key, s.virtRead ring (s.frameVa ring (key % 4096)) 0x22000 with
  | some f, some bs =>
    let pc : W64 := BitVec.ofNat 64 (atWord bs 0xC0 8)
    atWord bs 0 4 = 0x4D52465A && atWord bs 4 2 = 1 && (bs.drop 0x20).take 8 = frameDigest bs
      && bs.zipIdx.all (fun p => !frameRSV f.cores.length p.2 || p.1 = 0) && slice pc 63 44 = 0 && slice pc 1 0 = 0
  | _, _ => false

/-- A TRAPPED frame to whose CMD RESUME has been written (R378, R379). From now on it counts for the module that its program counter, as
software has left it, lies in (R137, R374). (DEDUCED, log 42) -/
def execFrameResume (space : BitVec 2) (index : BitVec 12) (s : State) : Host.Outcome State Fault Refusal :=
  let key := frameKey space index.toNat
  match tget s.frames key with
  | none => .next s
  | some f =>
    if f.state ≠ 2 || f.cmd ≠ 1 then .next s
    else if s.frameGood key then
      let pc : W64 := match s.virtRead space (s.frameVa space index.toNat + 0xC0) 8 with
        | some bs => BitVec.ofNat 64 (atWord bs 0 8)
        | none => f.ctx.pc
      let s := s.markFrame key 3
      let s := { s with frames := tput s.frames key { f with state := 3, ctx := { f.ctx with pc := pc } } }
      .next (s.queueFrame f.launch key (dieOf f.cl) f.ctx)
    else
      let seq : W64 := match s.launch? f.launch with | some l => l.seq | none => 0
      let r := s.record f.cl f.slot space seq f.ctx.ttag { cls := 0x34, where_ := f.ctx.pc }
      let s := (s.logRecords space f.launch 0 false f.ctx.ttag [r]).1
      .next (s.discardFrame key)

/-- A TRAPPED frame to whose CMD DISCARD has been written (R378). (DEDUCED, log 42) -/
def execFrameDiscard (space : BitVec 2) (index : BitVec 12) (s : State) : Host.Outcome State Fault Refusal :=
  let key := frameKey space index.toNat
  match tget s.frames key with
  | none => .next s
  | some f => if f.state ≠ 2 || f.cmd ≠ 2 then .next s else .next (s.discardFrame key)

end Sys2Proof.Machine
end

