-- ==== Sys2Proof/Machine/Stops.lean ====
section
/-! DEFINITION. Ending a stopped task, and saving a context: the drains, their limits, and what follows them (R368, R369, R371 to
R373, R377, R381). -/

namespace Sys2Proof.Machine

/-! ### Ending a task (R368) -/

/-- An access of a stopped context waits for one that has failed, and so is never performed (R295). (DEDUCED, log 33) -/
def State.behindBad (s : State) (a : Access) : Bool :=
  s.accs.any (fun x => x.uid = a.uid && x.bad && x.key.lt a.key && (a.todo []).any (fun p =>
    (bit a.pm x.stream.toNat && inDomain a.agent (effScope p.2.pa a.scope) x.agent)
      || (x.agent = a.agent && x.parts.any (fun q => !q.done && (q.overlaps p.2 || (q.strong && p.2.strong))))))

/-- What a failed access holds up fails with it. -/
def State.dropBehind (s : State) (uid : Nat) : State :=
  ((s.accs.filter (fun a => a.uid = uid && !a.done && !a.bad)).map (fun a => a.id)).foldl (fun s id =>
    match s.accs.find? (fun a => a.id = id) with
    | some a => if s.behindBad a then (s.latchesFull a).modAcc id (fun x => { x with bad := true }) else s
    | none => s) s

/-- Steps 2 and 3: the rest of every buffer is discarded, with the parts that its MMA words had in their slots; operations that wait
at their rendezvous are dropped; FLOAD slots are detached. -/
def State.dropRest (s : State) (n slot : Nat) : State :=
  match s.ctx? n slot with
  | none => s
  | some c =>
    let cores := s.coresOf n slot
    let gone := cores.flatMap (fun p => p.2.buf.filter (fun w => slice w.w 9 0 = 0x240))
    let s := s.setCtx n slot (gone.foldl (fun c w => c.endPart (BitVec.ofNat 6 (slice w.w 60 55)) false) c)
    let s := cores.foldl (fun s p => s.modCore n p.1 (fun x => { x with buf := [] })) s
    let s := (s.mmas.filter (fun m => m.uid = c.uid && m.queued.isNone)).foldl (fun s m => s.endOp m true) s
    let s := s.dropBehind c.uid
    (List.range 64).foldl (fun s i =>
      match (c.slot (BitVec.ofNat 6 i)).work with
      | .join _ _ => s.fcancel n slot (BitVec.ofNat 6 i)
      | .joined _ _ _ => s.fcancel n slot (BitVec.ofNat 6 i)
      | _ => s) s

/-- Step 4: every slot has left PENDING and every stream counter is zero. -/
def State.stopDrained (s : State) (n slot : Nat) : Bool :=
  match s.ctx? n slot with
  | none => true
  | some c => c.slots.all (fun p => p.2.state ≠ .pending) && s.streamsZero c.uid

/-- Steps 5 to 7: chambers, bays, the flagged completion and the records; then the slot is FREE. A die's reset writes its bays back
in a phase of its own (R384). -/
def State.finishStop (s : State) (n slot : Nat) : State :=
  match s.ctx? n slot with
  | none => s
  | some c =>
    match c.stop with
    | none => s
    | some x =>
      let s := s.dropHeld n c.launch slot
      let s := if x.cls = 0x32 then s else s.writeBackBays n c true
      let s := s.addPost (c.post n true)
      let s := (s.logRecords c.ring c.launch x.dropped false c.ttag x.recs).1
      (s.endCtx n slot).reap c.launch

/-- The drain of a stop goes as far as it can; once it is complete, the task ends. -/
def execStopDrainEnd (n : BitVec 5) (slot : BitVec 3) (s : State) : Host.Outcome State Fault Refusal :=
  let n := n.toNat
  let slot := slot.toNat
  match s.ctx? n slot with
  | none => .next s
  | some c =>
    match c.stop with
    | some ⟨_, _, _, _, _, none⟩ =>
      let s := s.dropRest n slot
      .next (if s.stopDrained n slot then s.finishStop n slot else s)
    | _ => .next s

/-- How long a drain may take (R368, R372). -/
def drainLimit : Nat := 2 ^ 16

/-- Step 4 is not complete 2^16 cycles after step 1. The task ends there. In a launch that is faulted already, no context counts as
STUCK. (DEDUCED, log 44) -/
def execStuck (n : BitVec 5) (slot : BitVec 3) (s : State) : Host.Outcome State Fault Refusal :=
  let n := n.toNat
  let slot := slot.toNat
  match s.ctx? n slot with
  | none => .next s
  | some c =>
    match c.stop with
    | some ⟨_, _, _, _, since, none⟩ =>
      let u := s.dropRest n slot
      if s.now < since + drainLimit || u.stopDrained n slot then .next s
      else
        let faulted := match u.launchOf c with | some l => l.faulted | none => true
        if faulted then .next (u.finishStop n slot)
        else .next (((u.stopCtx n slot none { cls := 0x33 }).finishStop n slot).faultLaunch c.launch)
    | _ => .next s

/-! ### Saving (R371 to R373) -/

/-- When the drain of a save, or of a handled trap, began. -/
def Ctx.drainSince (c : Ctx) : Option Nat :=
  match c.stop, c.save with
  | some ⟨_, _, _, _, since, some _⟩, _ => some since
  | none, some ⟨_, some (since, _)⟩ => some since
  | _, _ => none

/-- Step 4 of R372 is not complete within its bound. (DEDUCED, log 44) -/
def execSaveDrainLimit (n : BitVec 5) (slot : BitVec 3) (s : State) : Host.Outcome State Fault Refusal :=
  let n := n.toNat
  let slot := slot.toNat
  match s.ctx? n slot with
  | none => .next s
  | some c =>
    let commands := c.slots.any (fun p => p.2.state = .pending && (match p.2.work with | .command _ => true | _ => false))
    match c.drainSince with
    | some since => if since + drainLimit ≤ s.now && commands then .next (s.stickCtx n slot) else .next s
    | none => .next s

/-- A request that is taken where the context waits: in STEP, for a withdrawn die (R118, R371); at a die barrier or in STEP, for a
warm reset (R384); at a die barrier, for a move (R381). -/
def Ctx.takenHere (c : Ctx) (w : SaveWhy) : Bool :=
  c.status = .blocked &&
    match w, c.wait with
    | .boundary, .step => true
    | .reset, .step => true
    | .reset, .barDie _ _ released => !released
    | .migrate _ _, .barDie _ true false => true
    | _, _ => false

/-- Another context holds a chamber, or waits, on a flight that the context owns (R381). -/
def State.flightShared (s : State) (n slot : Nat) (c : Ctx) : Bool :=
  s.flights.any (fun x => x.uid = c.uid &&
    ((List.range x.count).any (fun i => x.hold.getD i 0 ≠ slot && (x.st i = .filling || x.st i = .draining)) ||
      (s.clusterCtxs n).any (fun p => p.1 != slot && p.2.launch = c.launch &&
        (match p.2.wait with | .flight _ f _ => f.toNat = x.fl | _ => false))))

/-- A move is dropped: what it reserved is free again (R128, R381). -/
def State.dropMove (s : State) (n slot : Nat) : State :=
  match s.ctx? n slot with
  | none => s
  | some c => { s.setCtx n slot { c with save := none } with moves := s.moves.filter (fun m => m.1 != c.uid) }

/-- The barrier that a moved context waits at has not released it. (DEDUCED, log 45) -/
def Ctx.atBarrier (c : Ctx) : Bool := match c.wait with | .barDie _ true false => true | _ => false

/-- Move a drained context to another cluster of its die, in one step: its frame is written and restored there. It stays a member of
its barrier, arrived, and of a boundary set that it is in. None where its frame cannot be written. (DEDUCED, log 45) -/
def State.moveCtx (s : State) (n slot ix cl sl : Nat) (c : Ctx) : Option State :=
  let bays := match s.moves.find? (fun m => m.1 = c.uid) with | some m => setBits 16 m.2.2 | none => []
  match s.saveFrame n slot ix 1 [] with
  | none => none
  | some t =>
    match t.restoreFrame cl sl (frameKey c.ring ix) bays with
    | none => none
    | some t =>
      let t := t.modCtx cl sl (fun d => { d with status := .blocked, since := c.since, wait := c.wait })
      some { t with moves := t.moves.filter (fun m => m.1 != c.uid) }

/-- A handled trap saves its context as a TRAPPED frame, and pushes the handler's barge to the die (R377). A push that is refused
discards the frame. None where the frame cannot be written. (DEDUCED, log 46) -/
def State.trapFrame (s : State) (n slot ix : Nat) (c : Ctx) (x : Stop) : Option State :=
  let key := frameKey c.ring ix
  let (logged, recs) := s.logRecords c.ring c.launch x.dropped true c.ttag x.recs
  match logged.saveFrame n slot ix 2 (recs.headD []) with
  | none => none
  | some t =>
    let pushed : Option State :=
      match t.readBarge c.ring (t.hbarge c.ring), t.launch? c.launch with
      | .ok b, some l =>
        let b := setWord (setWord b 6 ((t.frameVa c.ring ix).setWidth 64)) 7 (wordAt (recs.headD []) 0)
        let b := stampBarge b 0 0 0
        if t.bargeOk l.part b then t.push c.launch b l.prio (some (dieOf n)) else none
      | _, _ => none
    match pushed with
    | some t => some t
    | none =>
      match s.saveFrame n slot ix 2 [] with
      | none => none
      | some t => some ((t.logRecords c.ring c.launch x.dropped false c.ttag x.recs).1.discardFrame key)

/-- A drained context's frame is written, its bays return, and the frame is placed (R371 to R373, R377, R381). A request that can be
taken where the context waits is taken here. (DEDUCED, log 42; DEDUCED, log 46) -/
def execFrameWrite (n : BitVec 5) (slot : BitVec 3) (s : State) : Host.Outcome State Fault Refusal :=
  let n := n.toNat
  let slot := slot.toNat
  match s.ctx? n slot with
  | none => .next s
  | some c =>
    match c.stop, c.save with
    | some x, _ =>
      match x.frame with
      | none => .next s
      | some ix =>
        if !s.drained n slot c then .next s
        else
          match s.trapFrame n slot ix c x with
          | some t => .next t
          | none => .next (s.stickCtx n slot)
    | none, none => .next s
    | none, some ⟨w, none⟩ =>
      match w with
      | .migrate _ _ =>
        if !c.atBarrier || (s.freeFrame c.ring).isNone || s.flightShared n slot c then .next (s.dropMove n slot)
        else .next (s.takeSave n slot)
      | _ => if c.takenHere w then .next (s.takeSave n slot) else .next s
    | none, some ⟨w, some (_, ix)⟩ =>
      let queue (die : Nat) : State :=
        match s.saveFrame n slot ix 1 [] with
        | none => s.stickCtx n slot
        | some t => t.queueFrame c.launch (frameKey c.ring ix) die c
      match w with
      | .migrate cl sl =>
        if !c.atBarrier || s.flightShared n slot c then .next (s.dropMove n slot)
        else if !s.drained n slot c then .next s
        else
          match s.moveCtx n slot ix cl sl c with
          | some t => .next t
          | none => .next (s.stickCtx n slot)
      | .level7 => if s.drained n slot c then .next (queue (dieOf n)) else .next s
      | .boundary => if s.drained n slot c then .next (queue 8) else .next s
      | .reset => if s.drained n slot c then .next (queue 8) else .next s

end Sys2Proof.Machine
end

