-- ==== Sys2Proof/Machine/Forming.lean ====
section
/-! DEFINITION. Choosing what a generator runs next, forming and restoring contexts, aging, stealing, and moving contexts between
clusters (R108, R121 to R128, R371). -/

namespace Sys2Proof.Machine

/-! ### Forming a context (R121, R125, R127, R46) -/

/-- Another generator of the die can take the same candidate and goes first: the lowest EFFRANK, then the lowest c (R127). -/
def State.beaten (s : State) (n : Nat) (l : Launch) (q : Queued) : Bool :=
  ((List.range 4).map (fun c => 4 * dieOf n + c)).any (fun m =>
    decide (m ≠ n ∧ (s.effRank m < s.effRank n ∨ (s.effRank m = s.effRank n ∧ m < n)))
      && (match s.candidate m with
          | some (l', q') => l'.acc = l.acc && q'.push = q.push && s.canTake m q'
          | none => false))

/-- Take a barge or frame out of a launch's queues. -/
def Launch.unqueue (l : Launch) (push : Nat) : Launch :=
  let keep (qs : List Queued) : List Queued := qs.filter (fun q => q.push != push)
  { l with basins := l.basins.map (fun b => { b with berths := b.berths.map (fun p => (p.1, keep p.2)) }),
           parked := keep l.parked, first := keep l.first }

/-- The bays that the governor lends (R125). -/
def State.governed (s : State) (l : Launch) (e : Entry) (entry : BitVec 44) (free : Nat) : Nat :=
  let occ := match l.basin? entry with | some b => b.occupancy | none => 0
  if s.hiwat ≤ occ then min e.maxBays free
  else if s.lowat < occ then min ((e.minBays + e.maxBays) / 2) free
  else e.minBays

/-- A core as it is lent: every register zero and untyped, every lane live (R46). (DESIGN CHOICE, log 7) -/
def Core.lent (slot j epoch : Nat) : Core :=
  { slot := slot, j := j, live := 0xFFFF, left := false, v := [], vtag := [], a := [], q := [], m := [], latch := [], z := [], ztag := [],
    sp := [], epoch := epoch, buf := [], hold := none, failed := false, ran := false, why := 0 }

/-- A context at the start of a barge (R46, R167, R169). P0 and P1 are zero-extended into g2 and g3. (DESIGN CHOICE, log 69) -/
def Ctx.start (uid : Nat) (l : Launch) (q : Queued) (e : Entry) (bays : List Nat) (now : Nat) : Ctx :=
  let entry : W64 := (bargeEntry q.barge).setWidth 64
  { uid := uid, launch := l.acc, ring := l.ring, barge := q.barge, entry := entry, level := q.level, bays := bayMask bays, status := .ready,
    since := now, readyAt := 0, formed := now, wait := .none, pc := entry, bubble := false,
    g := [(0, bargeArg q.barge), (1, (wordAt q.barge 3).setWidth 72), (2, (wordAt q.barge 6).setWidth 72), (3, (wordAt q.barge 7).setWidth 72)],
    gt := [], k := 0, slots := [], h := [], count := 0, deadline := e.budget, retired := 0, ttag := 0, uscratch := 0, nextE := 0, ops := 0,
    genSeq := 0, queue := [], votes := [], stretch := none, held := bargeWeight q.barge, credit := 0, monitor := .none, save := none,
    stop := none, counts := [] }

/-- Lend bays to a new context in a slot of cluster n. A continuation's context acquires what its state word was resolved with (R333). -/
def State.formCtx (s : State) (n slot : Nat) (l : Launch) (q : Queued) (e : Entry) (bays : List Nat) : State :=
  let ks := coresIn bays
  let put (t : Tab Core) (p : Nat × Nat) : Tab Core := tput t (coreKey n p.1) (Core.lent slot p.2 (s.fresh + p.2))
  let s := { s with cores := ks.zipIdx.foldl put s.cores, fresh := s.fresh + ks.length, nextId := s.nextId + 1 }
  let s := s.setReady n slot (Ctx.start (s.nextId - 1) l q e bays s.now)
  let s := s.setCluster n { s.cluster n with idleAt := s.now }
  (s.refreshBays n slot).traceCtx n slot 2 bays.length

/-- Restore a queued frame in a slot of cluster n; one that cannot be read back is discarded, with a BADFRAME record. -/
def State.takeFrame (s : State) (n slot key : Nat) : State :=
  match tget s.frames key with
  | none => s
  | some f =>
    match s.restoreFrame n slot key ((s.freeBays n).take f.ctx.bayList.length) with
    | some t => t
    | none =>
      let seq : W64 := match s.launch? f.launch with | some l => l.seq | none => 0
      let r := s.record f.cl f.slot f.ctx.ring seq f.ctx.ttag { cls := 0x34, where_ := f.ctx.pc }
      ((s.logRecords f.ctx.ring f.launch 0 false f.ctx.ttag [r]).1).discardFrame key

/-- A watchpoint whose push is refused disarms (R360). -/
def State.disarm (s : State) (watch : Option Nat) : State :=
  { s with watches := s.watches.map (fun p => if watch = some p.2.id then (p.1, { p.2 with armed := false }) else p) }

/-- The generator takes its candidate, which the front die's queue engine sends it (R296). A barge whose module has been unloaded does
not run: its completion is posted, flagged, and its watchpoint disarms (R45, R360). -/
def State.form (s : State) (n : Nat) (l : Launch) (q : Queued) : State :=
  match s.freeSlots n with
  | [] => s
  | slot :: _ =>
    let out := (s.modLaunch l.acc (fun x => x.unqueue q.push)).message none (some (dieOf n))
    match q.frame with
    | some key => out.takeFrame n slot key
    | none =>
      match s.modState (bargeModule q.barge), s.entryOf q.barge with
      | .live, some e =>
        let free := s.freeBays n
        let count := s.governed (l.unqueue q.push) e (bargeEntry q.barge) free.length
        out.formCtx n slot l q e (free.take count)
      | _, _ => (out.addPost (fun id => l.postOf id (dieOf n) q.barge)).disarm q.watch

/-- A generator forms a context for its candidate, if it has a slot and the bays for it, and no generator of its die that goes before
it takes the same one. -/
def execContextForm (n : BitVec 5) (s : State) : Host.Outcome State Fault Refusal :=
  let n := n.toNat
  match s.candidate n with
  | none => .next s
  | some (l, q) => if s.canTake n q && !s.beaten n l q then .next (s.form n l q) else .next s

/-- A generator whose candidate is a saved frame restores it (R376). (DEDUCED, log 42) -/
def execFrameRestore (n : BitVec 5) (s : State) : Host.Outcome State Fault Refusal :=
  let n := n.toNat
  match s.candidate n with
  | none => .next s
  | some (l, q) => if q.frame.isSome && s.canTake n q && !s.beaten n l q then .next (s.form n l q) else .next s

/-! ### Aging (R108) -/

/-- A queued barge or frame that has waited 2^20 cycles at its level rises by one, to 7 at most. (DEDUCED, log 47) -/
def execBargeAging (launch push : Nat) (s : State) : Host.Outcome State Fault Refusal :=
  let one (q : Queued) : Queued := if q.push = push then q.aged s.now else q
  let age (l : Launch) : Launch :=
    { l with basins := l.basins.map (fun b => { b with berths := b.berths.map (fun p => (p.1, p.2.map one)) }),
             parked := l.parked.map one, first := l.first.map one }
  .next (s.modLaunch launch age)

/-! ### Stealing (R126) -/

/-- A generator is idle: a free slot, a free bay, and no candidate. -/
def State.idleGen (s : State) (n : Nat) : Bool := s.freeSlots n ≠ [] && s.freeBays n ≠ [] && (s.candidate n).isNone

/-- The nonempty berths on other dies of basins of launches that hold the stealer's die, in their order; a launch that is to give that die
up at its boundary is left out. (DEDUCED, log 47; DESIGN CHOICE, log 47) -/
def State.stealList (s : State) (n : Nat) : List (Nat × Nat × Nat) :=
  let d := dieOf n
  (s.launches.filter (fun l => l.usable.contains d)).flatMap (fun l =>
    l.basins.flatMap (fun b =>
      (b.berths.filter (fun p => p.1 != d && p.2.any (fun q => q.frame.isNone))).map (fun p => (l.acc, b.entry.toNat, p.1))))

/-- The LFSR steps once (R126). -/
def lfsrStep (x : BitVec 16) : BitVec 16 :=
  let fb := (bit x 0).xor ((bit x 2).xor ((bit x 3).xor (bit x 5)))
  putBit (x >>> 1) 15 fb

/-- An idle generator asks for a barge: a message to the front die's queue engines (R126, R129, R296). (DEDUCED, log 47) -/
def execStealRequest (n : BitVec 5) (s : State) : Host.Outcome State Fault Refusal :=
  let n := n.toNat
  let c := s.cluster n
  let gap := 64 * s.stealgap
  if gap = 0 || !s.idleGen n || c.steal.isSome || decide (s.now < c.stealAt + gap) then .next s
  else
    let list := s.stealList n
    let pick := if list = [] then none else list[c.lfsr.toNat % list.length]?
    .next ((s.setCluster n { c with lfsr := lfsrStep c.lfsr, stealAt := s.now, steal := pick }).message (some (dieOf n)) none)

/-- The victim's queue engine moves its berth's last barge to the same basin's berth on the stealer's die; an empty berth answers with
nothing. -/
def execStealAnswer (n : BitVec 5) (s : State) : Host.Outcome State Fault Refusal :=
  let n := n.toNat
  let c := s.cluster n
  match c.steal with
  | none => .next s
  | some (acc, entry, d) =>
    let s := (s.setCluster n { c with steal := none }).message none (some (dieOf n))
    match s.launch? acc with
    | none => .next s
    | some l =>
      let e : BitVec 44 := BitVec.ofNat 44 entry
      let tail := (l.basin? e).bind (fun b => lastQueued (((tgetD b.berths d []).filter (fun q => q.frame.isNone)).map (Queued.due s.now)))
      match tail with
      | none => .next s
      | some q =>
        if !l.usable.contains (dieOf n) then .next s
        else .next ((s.modLaunch acc (fun x => (x.unqueue q.push).addTo e (dieOf n) q)).traceLaunch l 7 d)

/-! ### Moving a context (R128) -/

/-- The front die moves a context of a hot cluster that waits at a die barrier to another cluster of its die: the lowest that
qualifies. (DEDUCED, log 45) -/
def execHotspotMigration (n : BitVec 5) (slot : BitVec 3) (s : State) : Host.Outcome State Fault Refusal :=
  let n := n.toNat
  let slot := slot.toNat
  match s.ctx? n slot with
  | none => .next s
  | some c =>
    let still := c.atBarrier && c.save.isNone && c.stop.isNone && c.slots.all (fun p => p.2.state ≠ .pending) && s.streamsZero c.uid
      && !s.holds n c.launch slot && !s.flightShared n slot c
    let fits (m : Nat) : Bool :=
      decide (m ≠ n) && (s.cluster m).calib.isNone && s.freeSlots m ≠ [] && !s.launchOn c.launch m && decide (c.bayList.length ≤ (s.freeBays m).length)
    if !still then .next s
    else
      match ((List.range 4).map (fun k => 4 * dieOf n + k)).find? fits with
      | none => .next s
      | some m =>
        let sl := ((s.freeSlots m).head?).getD 0
        let bays := (s.freeBays m).take c.bayList.length
        let s := s.requestSave n slot (.migrate m sl)
        .next { s with moves := s.moves ++ [(c.uid, 8 * m + sl, (bayMask bays).toNat)] }

/-! ### Pre-emption for a level-7 candidate (R371) -/

/-- A level-7 candidate has waited 2^20 cycles for bays since it was chosen: the context of the lowest level below 7, and among equals the one
formed latest, is asked to be saved; no other in its place where it is leaving already. (DEDUCED, log 47) -/
def execPreemptionRequest (n : BitVec 5) (s : State) : Host.Outcome State Fault Refusal :=
  let n := n.toNat
  let pending := (s.clusterCtxs n).any (fun p => match p.2.save with | some ⟨.level7, _⟩ => true | _ => false)
  match s.candidate n with
  | none => .next s
  | some (_, q) =>
    let long : Bool := match (s.cluster n).waiting with | some (push, t) => push = q.push && decide (t + ageCycles ≤ s.now) | none => false
    let waits := long && decide (q.level = 7 ∧ (s.freeBays n).length < s.needs q)
    let low := (s.clusterCtxs n).filter (fun p => decide (p.2.level < 7))
    let least := match minBy (fun p : Nat × Ctx => p.2.level) low with | some p => p.2.level | none => 0
    match maxBy (fun p : Nat × Ctx => p.2.formed) (low.filter (fun p => p.2.level = least)) with
    | none => .next s
    | some (slot, c) => if waits && !pending && c.save.isNone && c.stop.isNone then .next (s.requestSave n slot .level7) else .next s

end Sys2Proof.Machine
end

