-- ==== Sys2Proof/Machine/Dies.lean ====
section
/-! DEFINITION. The work distributor: which dies a launch is given, and the changes of its die set (R112 to R119). -/

namespace Sys2Proof.Machine

/-- How many launches hold a die, or are to have it added at their boundary. (DEDUCED, log 48) -/
def State.claims (s : State) (d : Nat) : Nat :=
  s.holders d + (s.launches.filter (fun l => match l.change with | some c => c.add && decide (c.die = d) && !bit l.dieset d | none => false)).length

/-- A die is eligible for a launch (R112). -/
def State.eligible (s : State) (l : Launch) (d : Nat) : Bool := s.allowed l d && !bit l.dieset d && decide (s.claims d < 8)

def State.eligibleDies (s : State) (l : Launch) : List Nat := (List.range 8).filter (fun d => s.eligible l d)

/-- The sum of the EFFRANK values of a die's clusters. -/
def State.dieRank (s : State) (d : Nat) : Nat := ((List.range 4).map (fun c => s.effRank (4 * d + c))).foldl (· + ·) 0

/-- A die comes before another in R113's preference: fewest launches, lowest rank, lowest d. -/
def State.prefers (s : State) (a b : Nat) : Bool :=
  if s.holders a ≠ s.holders b then decide (s.holders a < s.holders b)
  else if s.dieRank a ≠ s.dieRank b then decide (s.dieRank a < s.dieRank b)
  else decide (a < b)

def State.insertDie (s : State) (d : Nat) : List Nat → List Nat
  | [] => [d]
  | e :: es => if s.prefers d e then d :: e :: es else e :: s.insertDie d es

/-- Dies in R113's order of preference. -/
def State.inPreference (s : State) (ds : List Nat) : List Nat := ds.foldr s.insertDie []

/-! ### Grants (R113, R119) -/

/-- A launch that waits for a grant: also one that is live after its job's end, with frames that no die holds (R113, R119, R347). -/
def Launch.waits (l : Launch) : Bool := l.admitted && l.dieset = 0 && l.waitAt.isSome

/-- A waiting launch has waited 2^24 cycles for its grant (R113). -/
def Launch.past (l : Launch) (now : Nat) : Bool :=
  l.waits && (l.capped || (match l.waitAt with | some t => decide (t + 2 ^ 24 ≤ now) | none => false))

/-- A launch is considered before another: higher PRIO, then earlier acceptance. -/
def Launch.first_ (a b : Launch) : Bool := decide (b.prio < a.prio ∨ (a.prio = b.prio ∧ a.acc < b.acc))

/-- A launch left short by a reset that a die could be added to (R119). (DEDUCED, log 48) -/
def State.restorable (s : State) (l : Launch) : Bool :=
  decide (l.dieset ≠ 0 ∧ (setBits 8 l.dieset.toNat).length < l.minDies) && l.change.isNone && s.eligibleDies l ≠ []

/-- The dies that a launch can be granted now: those eligible for it that no launch past the cap, considered before it, can use. (DEDUCED, log 48) -/
def State.grantable (s : State) (l : Launch) : List Nat :=
  let capped := s.launches.filter (fun w => w.past s.now && w.acc ≠ l.acc && w.first_ l)
  (s.eligibleDies l).filter (fun d => !capped.any (fun w => s.eligible w d))

/-- The distributor can grant a waiting launch its least number of dies (R113). (DEDUCED, log 48) -/
def State.canGrant (s : State) (l : Launch) : Bool := l.waits && decide (l.minDies ≤ (s.grantable l).length)

/-- Deal queued barges and frames round-robin in ascending d among dies. (DEDUCED, log 30) -/
def Launch.dealAll (dies : List Nat) : Launch → Nat → List Queued → Launch
  | l, _, [] => l
  | l, i, q :: qs =>
    let e := bargeEntry q.barge
    dealAll dies (((l.withBasin e).getD l).addTo e (dies.getD (i % dies.length) 0) q) (i + 1) qs

/-- The distributor grants a waiting launch its dies, tells them (R296), and deals what waits for them: saved frames first, then barges
(R113, R123). -/
def execDieGrant (launch : Nat) (s : State) : Host.Outcome State Fault Refusal :=
  match s.launch? launch with
  | none => .next s
  | some l =>
    let earlier := s.launches.any (fun w => w.acc ≠ l.acc && w.first_ l && s.canGrant w) || s.launches.any s.restorable
    if !s.canGrant l || earlier then .next s
    else
      let ds := (s.inPreference (s.grantable l)).take l.maxDies
      let dies := (List.range 8).filter (fun d => ds.contains d)
      let set : BitVec 8 := BitVec.ofNat 8 (dies.foldl (fun a d => a + 2 ^ d) 0)
      let l := { l with dieset := set, diegen := if l.granted then l.diegen + 1 else 0, granted := true, waitAt := none, capped := false,
                        first := [], parked := [] }
      let waiting := match s.launch? launch with | some x => x.first ++ x.parked | none => []
      let l := Launch.dealAll dies l 0 waiting
      let told := dies.foldl (fun s d => s.message none (some d)) s
      .next ((told.modLaunch launch (fun _ => l)).traceLaunch l 0 set.toNat)

/-- A launch has waited 2^24 cycles for its grant (R113). -/
def execGrantWaitCap (launch : Nat) (s : State) : Host.Outcome State Fault Refusal :=
  let cap (l : Launch) : Launch := if l.past s.now then { l with capped := true } else l
  .next (s.modLaunch launch cap)

/-! ### Changes (R115 to R117) -/

/-- Request a change: its boundary set is every context of the launch that holds a barge now. -/
def State.requestChange (s : State) (l d : Nat) (add : Bool) : State :=
  let members := (s.launchCtxs l).map (fun p => p.2.2.uid)
  (s.modLaunch l (fun x => { x with change := some ⟨d, add, members, []⟩ })).boundary l

/-- An add: where the launch was left short, or where GROW is 1 and its berths hold more than HIWAT barges (R115, R119). (DEDUCED, log 48) -/
def execDieAddRequest (launch : Nat) (s : State) : Host.Outcome State Fault Refusal :=
  match s.launch? launch with
  | none => .next s
  | some l =>
    let held := (setBits 8 l.dieset.toNat).length
    let restores := s.restorable l
    let grows := s.grow && decide (s.hiwat < l.queued) && !s.launches.any s.restorable
    if l.change.isSome || held = 0 || decide (l.maxDies ≤ held) || !(restores || grows && !l.ended) then .next s
    else
      match (s.inPreference (s.eligibleDies l)).head? with
      | none => .next s
      | some d => .next (s.requestChange launch d true)

/-- Whether one holder gives a die up before another: the lowest PRIO, then the latest acceptance (R115). -/
def yieldsFirst (a b : Launch) : Bool := decide (a.prio < b.prio ∨ (a.prio = b.prio ∧ b.acc < a.acc))

/-- The holder from which a die is withdrawn first (R116). (DEDUCED, log 48) -/
def firstHolder : List (Launch × Nat) → Option (Launch × Nat)
  | [] => none
  | x :: xs =>
    match firstHolder xs with
    | none => some x
    | some y => if yieldsFirst y.1 x.1 then some y else some x

/-- A withdrawal for a launch that has waited past the cap: of a die that is eligible for it but for its eight holders, from a holder
with more than its MINDIES dies; of several such dies of one holder, the lowest. (DEDUCED, log 48; DESIGN CHOICE, log 75) -/
def execDieWithdrawRequest (launch : Nat) (s : State) : Host.Outcome State Fault Refusal :=
  match s.launch? launch with
  | none => .next s
  | some w =>
    if !w.past s.now then .next s
    else
      let leaving (d : Nat) : Bool := s.launches.any (fun l => match l.change with | some c => !c.add && c.die = d | none => false)
      let full := (List.range 8).filter (fun d => s.allowed w d && decide (8 ≤ s.holders d) && !leaving d)
      let found := full.flatMap (fun d =>
        (s.launches.filter (fun l => bit l.dieset d && l.change.isNone && decide (l.minDies < (setBits 8 l.dieset.toNat).length))).map
          (fun l => (l, d)))
      match firstHolder found with
      | none => .next s
      | some (l, d) => .next (s.requestChange l.acc d false)

end Sys2Proof.Machine
end

