-- ==== Sys2Proof/Machine/Rings.lean ====
section
/-! DEFINITION. The command processors: their rings, the commands, and buffer handles (R90 to R102, R107). -/

namespace Sys2Proof.Machine

/-! ### Registers of a processor (R93) -/

def Cp.sqSize (c : Cp) : Nat := 2 ^ slice c.ring 55 52
def Cp.cqSize (c : Cp) : Nat := 2 ^ slice c.ring 59 56

/-- Both rings lie within the 4 MiB window, and their sizes are in range. (DEDUCED, log 49) -/
def Cp.ringOk (c : Cp) : Bool :=
  let size (l : Nat) : Bool := decide (6 ≤ l ∧ l ≤ 14)
  size (slice c.ring 55 52) && size (slice c.ring 59 56)
    && decide (4096 * slice c.ring 9 0 + 64 * c.sqSize ≤ 2 ^ 22 ∧ 4096 * slice c.ring 41 32 + 32 * c.cqSize ≤ 2 ^ 22)

/-- The fields of CPRING that a write sets. -/
def cpringMask : W64 := 0x0FF003FF000003FF

/-- A write of CPRINGn (R93). (DESIGN CHOICE, log 56) -/
def execCpringWrite (cp : BitVec 2) (x : W64) (s : State) : Host.Outcome State Fault Refusal :=
  let c := s.cp cp.toNat
  if c.halted then .next (s.setCp cp.toNat { c with ring := x &&& cpringMask }) else .next s

def execSqtailWrite (cp : BitVec 2) (x : W64) (s : State) : Host.Outcome State Fault Refusal :=
  .next (s.setCp cp.toNat { s.cp cp.toNat with sqTail := BitVec.ofNat 14 (slice x 29 16) })

def execCqheadWrite (cp : BitVec 2) (x : W64) (s : State) : Host.Outcome State Fault Refusal :=
  .next (s.setCp cp.toNat { s.cp cp.toNat with cqHead := BitVec.ofNat 14 (slice x 29 16) })

/-- HALT is written. With 1, no entry is in hand between steps, so the processor is halted at once; with 0, it takes entries where CPRING
is valid and the firmware has been accepted, and before that it stays HALTED (R93, R413). (DEDUCED, log 49) -/
def State.writeHalt (s : State) (p : Nat) (halt : Bool) : State :=
  let c := s.cp p
  if halt then s.setCp p { c with halt := true, halted := true }
  else if !c.ringOk then s.setCp p { c with halt := false, halted := true, cfgErr := true }
  else s.setCp p { c with halt := false, halted := s.regs.ident.fwStat ≠ 2 }

/-- HALT written 1. (DEDUCED, log 49) -/
def execHaltRequest (cp : BitVec 2) (s : State) : Host.Outcome State Fault Refusal := .next (s.writeHalt cp.toNat true)

/-- HALT written 0. (DEDUCED, log 49) -/
def execHaltResume (cp : BitVec 2) (s : State) : Host.Outcome State Fault Refusal := .next (s.writeHalt cp.toNat false)

/-! ### Commands (R94 to R96) -/

def opLaunch : BitVec 8 := 1
def opFlush : BitVec 8 := 2
def opInval : BitVec 8 := 3
def opBind : BitVec 8 := 4
def opUnbind : BitVec 8 := 5
def opAbort : BitVec 8 := 6
def opMark : BitVec 8 := 7

/-- An entry that R95 lets through: its OP, its reserved fields, and its arguments, lengths and NHANDLE within their ranges.
(DESIGN CHOICE, log 77) -/
def entryOk (e : List W64) : Bool :=
  let op := slice (wordAt e 1) 15 8
  let a0 := wordAt e 3
  let a1 := wordAt e 4
  let zeroAddr := wordAt e 2 = 0 && slice (wordAt e 1) 7 0 = 0
  let lenOk := decide (1 ≤ a0.toNat ∧ a0.toNat ≤ 2 ^ 54)
  slice (wordAt e 1) 63 16 = 0 && wordAt e 5 = 0 && wordAt e 7 = 0 &&
    match op with
    | 1 => slice a1 63 27 = 0 && slice a1 15 8 = 0 && decide (slice a1 26 16 ≤ 1024)
    | 2 => lenOk && a1 = 0
    | 3 => lenOk && a1 = 0
    | 4 => lenOk && slice a1 63 17 = 0
    | 5 => zeroAddr && a0 = 0 && slice a1 63 16 = 0
    | 6 => zeroAddr && a1 = 0
    | 7 => zeroAddr && a0 = 0 && a1 = 0
    | _ => false

/-- A command completes: its record is due after those of the commands that completed before it (R98). -/
def State.complete (s : State) (acc status : Nat) (errs : Nat) : State :=
  match s.ringCmds.find? (fun c => c.acc = acc) with
  | none => s
  | some c =>
    let set (x : RingCmd) : RingCmd :=
      if x.acc = acc then { x with status := some (BitVec.ofNat 8 status), errs := BitVec.ofNat 32 errs } else x
    let p := s.cp c.ring.toNat
    { s with ringCmds := s.ringCmds.map set }.setCp c.ring.toNat { p with done := p.done ++ [acc] }

/-- A launch as its LAUNCH is accepted: live, not started. -/
def Launch.accepted (acc : Nat) (ring : BitVec 2) (seq : W64) : Launch :=
  { acc := acc, ring := ring, seq := seq, part := 0, prio := 0, allow := 0, minDies := 0, maxDies := 0, jcb := 0, reads := [], writes := [],
    admitted := false, granted := false, waitAt := none, capped := false, dieset := 0, diegen := 0, change := none, expected := 0, doneN := 0,
    errs := 0, aborted := false, faulted := false, ended := false, basins := [], parked := [], first := [], counts := [], energy := 0,
    swap := 0 }

/-- The processor examines the entry at SQHEAD (R96). A command that R95 refuses completes at its acceptance. (DEDUCED, log 50) -/
def execSubmissionExamine (cp : BitVec 2) (s : State) : Host.Outcome State Fault Refusal :=
  let c := s.cp cp.toNat
  let head := c.sqHead.toNat % c.sqSize
  if c.halted || head = c.sqTail.toNat % c.sqSize then .next s
  else
    let pa := flagBase + (4096 * slice c.ring 9 0 + 64 * head) % 2 ^ 22
    let e := toWords 8 (s.homeBytes pa 64)
    let op : BitVec 8 := BitVec.ofNat 8 (slice (wordAt e 1) 15 8)
    if wordAt e 0 ≠ c.subSeq then .next (s.setCp cp.toNat { c with seqErr := true, halt := true, halted := true })
    else if op = opLaunch && decide (4096 ≤ s.launches.length) then .next s
    else
      let acc := s.accepted
      let bad := !entryOk e
      let cmd : RingCmd :=
        { acc := acc, ring := cp, seq := wordAt e 0, tag := wordAt e 6, op := op,
          addr := BitVec.ofNat 72 (slice (wordAt e 1) 7 0 * 2 ^ 64 + (wordAt e 2).toNat), arg0 := wordAt e 3, arg1 := wordAt e 4, bad := bad,
          status := none, errs := 0, target := none }
      let s := s.setCp cp.toNat { c with subSeq := c.subSeq + 1, sqHead := BitVec.ofNat 14 ((head + 1) % c.sqSize) }
      let s := { s with accepted := acc + 1, ringCmds := s.ringCmds ++ [cmd] }
      if bad then .next (s.complete acc 2 0)
      else if op = opLaunch then .next { s with launches := s.launches ++ [Launch.accepted acc cp (wordAt e 0)] }
      else .next s

/-- A completion record is posted where the ring has room (R98): the record, then CMPSEQ and CQTAIL. With it the waits on the command
are released (R106). -/
def execCompletionRecordPost (cp : BitVec 2) (s : State) : Host.Outcome State Fault Refusal :=
  let c := s.cp cp.toNat
  let tail := c.cqTail.toNat % c.cqSize
  match c.done with
  | [] => .next s
  | acc :: rest =>
    match s.ringCmds.find? (fun x => x.acc = acc) with
    | none => .next s
    | some x =>
      if (tail + 1) % c.cqSize = c.cqHead.toNat % c.cqSize then .next s
      else
        let status := match x.status with | some y => y.toNat | none => 0
        let rec_ : List W64 := [c.cmpSeq + 1, x.seq, x.tag, BitVec.ofNat 64 (x.errs.toNat * 2 ^ 32 + status)]
        let pa := flagBase + (4096 * slice c.ring 41 32 + 32 * tail) % 2 ^ 22
        let s := s.systemBytes pa (ofWords rec_)
        let s := s.setCp cp.toNat { c with cmpSeq := c.cmpSeq + 1, cqTail := BitVec.ofNat 14 ((tail + 1) % c.cqSize), done := rest }
        .next ({ s with ringCmds := s.ringCmds.filter (fun y => y.acc != acc),
                        handles := s.handles.map (fun (p : Nat × Handle) => (p.1, { p.2 with readers := p.2.readers.filter (· != acc) })) }.reap acc)

/-! ### When a command starts (R97, R101) -/

def State.ringCmd? (s : State) (acc : Nat) : Option RingCmd := s.ringCmds.find? (fun c => c.acc = acc && c.status.isNone && !c.bad)

/-- Commands of a ring accepted before another and not yet completed. -/
def State.unfinished (s : State) (c : RingCmd) : List RingCmd :=
  s.ringCmds.filter (fun x => x.ring = c.ring && decide (x.acc < c.acc) && x.status.isNone)

/-- No earlier FLUSH or INVAL holds a command. -/
def State.unheld (s : State) (c : RingCmd) : Bool := (s.unfinished c).all (fun x => x.op ≠ opFlush && x.op ≠ opInval)

/-- The items of a handle list: handle, READ, WRITE; an error's address does not translate or lies in bad data. -/
def State.handleList (s : State) (c : RingCmd) : Option (List W32) :=
  let va : W72 := BitVec.ofNat 72 (slice c.arg1 7 0 * 2 ^ 64 + c.arg0.toNat)
  let n := slice c.arg1 26 16
  (s.virtRead c.ring va (4 * n)).map (fun bs => (List.range n).map (fun i => BitVec.ofNat 32 (ofBytes ((bs.drop (4 * i)).take 4))))

def itemHandle (x : W32) : Nat := slice x 15 0
def itemRead (x : W32) : Bool := bit x 16
def itemWrite (x : W32) : Bool := bit x 17

/-- A list that is well formed under R100, but for whether its handles are bound. (DEDUCED, log 50) -/
def listOk (c : RingCmd) (items : List W32) : Bool :=
  (items = [] || c.arg0.toNat % 4 = 0) && items.all (fun x => slice x 31 18 = 0 && (itemRead x || itemWrite x))
    && decide ((items.map itemHandle).Nodup)

/-- Whether a command uses a handle, and whether as a writer: BIND and UNBIND do as a writer would. (DEDUCED, log 50) -/
def State.usesHandle (s : State) (c : RingCmd) (h : Nat) (writing : Bool) : Bool :=
  if c.op = opBind || c.op = opUnbind then slice c.arg1 15 0 = h
  else if c.op ≠ opLaunch then false
  else
    match s.launch? c.acc with
    | some l =>
      if l.admitted then l.writes.contains h || (!writing && l.reads.contains h)
      else match s.handleList c with
        | some items => items.any (fun x => itemHandle x = h && (itemWrite x || !writing))
        | none => false
    | none =>
      match tget s.handles h with
      | some t => t.writer = some c.acc || (!writing && t.readers.contains c.acc)
      | none => false

/-- The handle waits of R101 are met: no earlier command that writes the handle, or for a writer that uses it at all, has yet to
complete. A launch completes for these waits once its record has posted (R106). (DEDUCED, log 50) -/
def State.handleFree (s : State) (acc h : Nat) (write : Bool) : Bool :=
  !s.ringCmds.any (fun c => decide (c.acc < acc) && !c.bad && (c.op = opLaunch || c.status.isNone) && s.usesHandle c h (!write))

/-! ### Ranges of virtual memory (R97, R101, R102) -/

/-- Act on each line of a range, page by page, until a page does not translate; whether all did. (DEDUCED, log 51) -/
def State.overLines (s : State) (space : BitVec 2) (f : State → Nat → Nat → Nat → State) : Nat → W72 → Nat → State × Bool
  | 0, _, _ => (s, true)
  | fuel + 1, va, len =>
    if len = 0 then (s, true)
    else
      let n := min len (4096 - va.toNat % 4096)
      match s.xlateFront space va false with
      | .error _ => (s, false)
      | .ok p =>
        let go (s : State) (line : Nat) : State :=
          let lo := if line = lineOf p.pa then p.pa % 128 else 0
          let hi := if line = lineOf (p.pa + n - 1) then (p.pa + n - 1) % 128 else 127
          f s line lo hi
        ((linesOf p.pa n).foldl go s).overLines space f fuel (va + BitVec.ofNat 72 n) (len - n)

/-- The same over a handle's range: a page that does not translate is passed by. (DEDUCED, log 51) -/
def State.overHandle (s : State) (space : BitVec 2) (f : State → Nat → State) : Nat → W72 → Nat → State
  | 0, _, _ => s
  | fuel + 1, va, len =>
    if len = 0 then s
    else
      let n := min len (4096 - va.toNat % 4096)
      let s := match s.xlateFront space va false with
        | .error _ => s
        | .ok p => (linesOf p.pa n).foldl f s
      s.overHandle space f fuel (va + BitVec.ofNat 72 n) (len - n)

/-- Every dirty copy of a line is written back to its home, and to its memory (R97, R102). Where the link to host memory is down, the
failure is recorded and the slice keeps what is dirty (R408, R426). (DEDUCED, log 51; DESIGN CHOICE, log 51) -/
def State.flushLine (s : State) (line : Nat) : State :=
  let s := s.cleanEverywhere line
  if s.l2Dirty line && !s.linkOpen (128 * line) then s.storageError .linkFailed (128 * line) none 0 else s.l2Clean line

/-- Every copy of bytes lo to hi of a line is dropped; what else of the line is dirty is written back first. (DEDUCED, log 51) -/
def State.invalLine (s : State) (line lo hi : Nat) : State :=
  let mask : BitVec 128 := BitVec.ofNat 128 (2 ^ 128 - 1 - (2 ^ (hi + 1) - 2 ^ lo))
  let keep (l : Line) : Line := if l.line = line then { l with dirty := l.dirty &&& mask } else l
  let all (t : Tab (List Line)) : Tab (List Line) := t.map (fun p => (p.1, p.2.map keep))
  let s := { s with bayLines := all s.bayLines, l2 := all s.l2 }
  ((s.flushLine line).dropFirstLevel line).l2Leave line

/-- How many pages a range touches at most. -/
def pagesOf (len : Nat) : Nat := len / 4096 + 2

def execFlush (cmd : Nat) (s : State) : Host.Outcome State Fault Refusal :=
  match s.ringCmd? cmd with
  | none => .next s
  | some c =>
    if c.op ≠ opFlush || s.unfinished c ≠ [] then .next s
    else
      let (s, ok) := s.overLines c.ring (fun s line _ _ => s.flushLine line) (pagesOf c.arg0.toNat) c.addr c.arg0.toNat
      .next (s.complete cmd (if ok then 0 else 8) 0)

def execInval (cmd : Nat) (s : State) : Host.Outcome State Fault Refusal :=
  match s.ringCmd? cmd with
  | none => .next s
  | some c =>
    if c.op ≠ opInval || s.unfinished c ≠ [] then .next s
    else
      let (s, ok) := s.overLines c.ring (fun s line lo hi => s.invalLine line lo hi) (pagesOf c.arg0.toNat) c.addr c.arg0.toNat
      .next (s.complete cmd (if ok then 0 else 8) 0)

/-! ### Buffer handles (R99 to R102) -/

def execBind (cmd : Nat) (s : State) : Host.Outcome State Fault Refusal :=
  match s.ringCmd? cmd with
  | none => .next s
  | some c =>
    let h := slice c.arg1 15 0
    if c.op ≠ opBind || !s.unheld c || !s.handleFree cmd h true then .next s
    else
      let t : Handle := { space := c.ring, addr := c.addr, len := c.arg0.toNat, hostvis := bit c.arg1 16, writer := none, readers := [] }
      .next ({ s with handles := tput s.handles h t }.complete cmd 0 0)

def execUnbind (cmd : Nat) (s : State) : Host.Outcome State Fault Refusal :=
  match s.ringCmd? cmd with
  | none => .next s
  | some c =>
    let h := slice c.arg1 15 0
    if c.op ≠ opUnbind || !s.unheld c || !s.handleFree cmd h true then .next s
    else .next ({ s with handles := tdel s.handles h }.complete cmd 0 0)

/-- Before a launch's barges are queued: dirty copies of its handles' ranges reach device scope, and every first-level copy is dropped
(R101). (DEDUCED, log 51) -/
def State.openHandle (s : State) (h : Nat) : State :=
  match tget s.handles h with
  | none => s
  | some t => s.overHandle t.space (fun s line => (s.cleanEverywhere line).dropFirstLevel line) (pagesOf t.len) t.addr t.len

/-- A writer's HOSTVIS handle is written back to system scope (R102). (DEDUCED, log 51) -/
def State.closeHandle (s : State) (h : Nat) : State :=
  match tget s.handles h with
  | none => s
  | some t => if t.hostvis then s.overHandle t.space (fun s line => s.flushLine line) (pagesOf t.len) t.addr t.len else s

/-! ### MARK and ABORT (R95, R107) -/

def execMark (cmd : Nat) (s : State) : Host.Outcome State Fault Refusal :=
  match s.ringCmd? cmd with
  | none => .next s
  | some c => if c.op = opMark then .next (s.complete cmd 0 0) else .next s

/-- The words of a job control block (R104). -/
def jcbWords (expected done errs state : Nat) (seq : W64) : List W64 :=
  [BitVec.ofNat 64 expected, BitVec.ofNat 64 done, BitVec.ofNat 64 (errs % 2 ^ 32 * 2 ^ 32 + state), seq]

/-- Write the first words of a job control block; none where it does not translate for a write or cannot be written. (DEDUCED, log 51) -/
def State.writeJcb (s : State) (space : BitVec 2) (va : W72) (ws : List W64) : Option State :=
  match s.xlateFront space va true with
  | .error _ => none
  | .ok p => if s.linkOpen p.pa && !s.badAt p.pa 64 then some (s.deviceBytes p.pa (ofWords ws)) else none

def recJcb (r : List W64) : W72 := BitVec.ofNat 72 (slice (wordAt r 2) 7 0 * 2 ^ 64 + (wordAt r 1).toNat)

/-- A launch that is not admitted ends: nothing of it was queued. What waits for its handles goes on once its record has posted, and
with that it is live no longer (R103). -/
def State.endUnadmitted (s : State) (acc status : Nat) : State :=
  (s.modLaunch acc (fun l => { l with ended := true })).complete acc status 0

/-- ABORT of a launch that has queued no barge: its job control block is written where its record allows. (DEDUCED, log 50) -/
def State.abortEarly (s : State) (c : RingCmd) : State :=
  let block : Option State :=
    match s.virtRead c.ring c.addr 64 with
    | none => none
    | some bs =>
      let r := toWords 8 bs
      if (recJcb r).toNat % 64 ≠ 0 then none else s.writeJcb c.ring (recJcb r) (jcbWords 0 0 0 3 c.seq ++ [0, 0, 0, 0])
  (block.getD s).endUnadmitted c.acc 5

/-- ABORT of a launch that runs: what it has queued is removed, each with its flagged completion; frames stay. (DEDUCED, log 50) -/
def State.abortQueued (s : State) (l : Launch) : State :=
  let s := l.allQueued.foldl (fun s p => s.addPost (fun id => l.postOf id p.1 p.2.barge)) s
  let frames (qs : List Queued) : List Queued := qs.filter (fun q => q.frame.isSome)
  s.modLaunch l.acc (fun l =>
    { l with aborted := true, parked := frames l.parked, first := frames l.first,
             basins := l.basins.map (fun b => { b with berths := b.berths.map (fun p => (p.1, frames p.2)) }) })

/-- ABORT acts at once, and completes once the launch's own record has posted. (DEDUCED, log 50) -/
def execAbort (cmd : Nat) (s : State) : Host.Outcome State Fault Refusal :=
  match s.ringCmd? cmd with
  | none => .next s
  | some c =>
    if c.op ≠ opAbort then .next s
    else
      match c.target with
      | some acc => if s.ringCmds.any (fun x => x.acc = acc) then .next s else .next (s.complete cmd 0 0)
      | none =>
        match s.launches.find? (fun l => l.ring = c.ring && l.seq = c.arg0 && !l.ended) with
        | none => .next (s.complete cmd 7 0)
        | some l =>
          let mark (x : RingCmd) : RingCmd := if x.acc = cmd then { x with target := some l.acc } else x
          let s := { s with ringCmds := s.ringCmds.map mark }
          if l.admitted then .next (s.abortQueued l)
          else match s.ringCmds.find? (fun x => x.acc = l.acc) with
            | some x => .next (s.abortEarly x)
            | none => .next s

end Sys2Proof.Machine
end

