-- ==== Sys2Proof/Machine/Launches.lean ====
section
/-! DEFINITION. A launch's admission, its completions, and its end (R47, R48, R102 to R106, R386 to R391). -/

namespace Sys2Proof.Machine

/-! ### Admission (R47, R48, R103) -/

def recPart (r : List W64) : W32 := BitVec.ofNat 32 (slice (wordAt r 0) 63 32)
def recBarges (r : List W64) : W72 := BitVec.ofNat 72 (slice (wordAt r 4) 7 0 * 2 ^ 64 + (wordAt r 3).toNat)
def recCount (r : List W64) : Nat := slice (wordAt r 2) 31 8

/-- The checks of R48 that the record alone decides, and its SEQ (R103). (DEDUCED, log 50) -/
def recordOk (c : RingCmd) (r : List W64) : Bool :=
  let w0 := wordAt r 0
  let min := slice w0 3 0
  let max := slice w0 7 4
  c.addr.toNat % 64 = 0 && slice w0 31 19 = 0 && slice (wordAt r 2) 63 32 = 0 && slice (wordAt r 4) 63 8 = 0 && wordAt r 6 = 0
    && wordAt r 7 = 0 && partOk (recPart r) && decide (1 ≤ min ∧ min ≤ max ∧ max ≤ 8) && decide (min ≤ popcount 8 (slice w0 15 8))
    && recCount r ≠ 0 && (recJcb r).toNat % 64 = 0 && (recBarges r).toNat % 64 = 0 && wordAt r 5 = c.seq

/-- Read barges one by one, in array order; none where one cannot be read. -/
def State.readBarges (s : State) (space : BitVec 2) (va : W72) : Nat → Option (List (List W64))
  | 0 => some []
  | n + 1 =>
    match s.readBarge space va with
    | .error _ => none
    | .ok b => (s.readBarges space (va + 64) n).map (fun bs => b :: bs)

/-- The checks of R48 on the initial barges. -/
def State.bargesOk (s : State) (r : List W64) (bs : List (List W64)) : Bool :=
  bs.all (fun b => s.bargeOk (recPart r) b && bargeMode b = 2 && bargeSucc b = recJcb r)
    && decide (((bs.map bargeEntry).eraseDups).length ≤ 1024)

/-- Queue the initial barges of a launch in array order; they wait for its grant (R103, R123). -/
def Launch.queueInitial (now : Nat) : Launch → Nat → List (List W64) → Launch
  | l, _, [] => l
  | l, push, b :: bs =>
    let q : Queued := ⟨b, min (bargePrio b) l.prio, now, push, none, false, none⟩
    let l := (l.withBasin (bargeEntry b)).getD l
    queueInitial now { l with parked := l.parked ++ [q] } (push + 1) bs

/-- A launch whose record and barges pass: its handles are made current, its job control block is written, and its barges are queued.
None where the block cannot be written. -/
def State.admitLaunch (s : State) (c : RingCmd) (r : List W64) (bs : List (List W64)) (items : List W32) : Option State :=
  let w0 := wordAt r 0
  let hs := items.map itemHandle
  match s.writeJcb c.ring (recJcb r) (jcbWords bs.length 0 0 1 c.seq ++ [0, 0, 0, 0]) with
  | none => none
  | some s =>
    let s := hs.foldl State.openHandle s
    let use (s : State) (x : W32) : State :=
      match tget s.handles (itemHandle x) with
      | none => s
      | some t =>
        let t : Handle := { t with writer := if itemWrite x then some c.acc else t.writer,
                                   readers := if itemRead x then t.readers ++ [c.acc] else t.readers }
        { s with handles := tput s.handles (itemHandle x) t }
    let s := items.foldl use s
    let fill (l : Launch) : Launch :=
      let l := { l with part := recPart r, prio := slice w0 18 16, allow := BitVec.ofNat 8 (slice w0 15 8), minDies := slice w0 3 0,
                        maxDies := slice w0 7 4, jcb := recJcb r, reads := (items.filter itemRead).map itemHandle,
                        writes := (items.filter itemWrite).map itemHandle, admitted := true, waitAt := some s.now, expected := bs.length }
      Launch.queueInitial s.now l s.pushes bs
    some { s.modLaunch c.acc fill with pushes := s.pushes + bs.length }

/-- A LAUNCH that has started (R97, R100, R101, R103). -/
def execLaunch (launch : Nat) (o : Attempt) (s : State) : Host.Outcome State Fault Refusal :=
  match s.ringCmd? launch, s.launch? launch with
  | some c, some l =>
    if c.op ≠ opLaunch || l.admitted || l.ended || !s.unheld c then .next s
    else
      match s.handleList c with
      | none => .next (s.endUnadmitted launch 8)
      | some items =>
        if !listOk c items then .next (s.endUnadmitted launch 3)
        else if !items.all (fun x => s.handleFree launch (itemHandle x) (itemWrite x)) then .next s
        else if !items.all (fun x => (tget s.handles (itemHandle x)).isSome) then .next (s.endUnadmitted launch 3)
        else
          match s.virtRead c.ring c.addr 64 with
          | none => .next (s.endUnadmitted launch 8)
          | some bs =>
            let r := toWords 8 bs
            let pa := match s.xlateFront c.ring c.addr false with | .ok p => p.pa | .error _ => 0
            let how := s.attempt o pa 64
            let s := s.storageError how (s.badPlace pa 64 pa) none c.seq
            match how with
            | .lasting => .next (s.endUnadmitted launch 8)
            | .linkFailed => .next (s.endUnadmitted launch 8)
            | _ =>
              if !recordOk c r then .next (s.endUnadmitted launch 1)
              else
                match s.readBarges c.ring (recBarges r) (recCount r) with
                | none => .next (s.endUnadmitted launch 8)
                | some barges =>
                  if !s.bargesOk r barges then .next (s.endUnadmitted launch 1)
                  else
                    match s.admitLaunch c r barges items with
                    | some t => .next t
                    | none => .next (s.endUnadmitted launch 8)
  | _, _ => .next s

/-! ### Posts (R386 to R388) -/

/-- Add to an 8-byte word at its home, for the launch of a submission number; none where it cannot be written, with the kind. -/
def State.addAt (s : State) (space : BitVec 2) (va : W72) (x : Nat) (seq : W64) (o : Attempt) : Except Kind State :=
  match s.xlateFront space va true with
  | .error k => .error k
  | .ok p =>
    let bad : Bool := match s.attempt o p.pa 8 with | .lasting => true | .linkFailed => true | _ => false
    if bad then .error 0
    else .ok (((s.storageError (s.attempt o p.pa 8) p.pa none seq).atomicAt .device p.pa 8 p.hint (fun old => (old + x) % 2 ^ 64)).2)

/-- A tree's post: the error word first for a flagged one, then the weight. (DEDUCED, log 32; DEDUCED, log 52) -/
def State.postTree (s : State) (p : Post) (o : Attempt) : State :=
  let seq : W64 := match s.launch? p.launch with | some l => l.seq | none => 0
  let fail (va : W72) (k : Kind) : State :=
    let s := match s.xlateFront p.ring va true with
      | .ok q => s.storageError (s.attempt o q.pa 8) q.pa none seq
      | .error _ => s
    s.postFail p.launch p.die va k.toNat
  match s.xlateFront p.ring p.succ true with
  | .error k => fail p.succ k
  | .ok _ =>
    let s' := if p.flagged then s.addAt p.ring (p.succ + 8) 1 seq o else .ok s
    match s' with
    | .error k => fail (p.succ + 8) k
    | .ok t =>
      match t.addAt p.ring p.succ p.weight.toNat seq o with
      | .error k => fail p.succ k
      | .ok t => t

/-- A completion is posted. A job's is a message to the front die, which keeps the job table; a tree's crosses it and is answered (R296).
Of a die in reset, posts follow the write-back of its bays (R384, R387). (DEDUCED, log 52) -/
def execCompletionPost (id : Nat) (o : Attempt) (s : State) : Host.Outcome State Fault Refusal :=
  match s.posts.find? (fun p => p.id = id) with
  | none => .next s
  | some p =>
    let phase := (s.die p.die).phase
    if phase = 1 ∨ phase = 2 then .next s
    else
    let s := { s with posts := s.posts.filter (fun q => q.id != id) }
    if p.mode = 1 then .next ((s.exchange p.die).postTree p o)
    else if p.mode = 2 then
      let add (l : Launch) : Launch := { l with doneN := l.doneN + 1 + p.credit, errs := if p.flagged then l.errs + 1 else l.errs }
      .next ((s.message (some p.die) none).modLaunch p.launch add)
    else .next s

/-! ### The end of a job (R102, R104, R106, R391) -/

/-- The counter record of a launch goes to the dump ring of its address space, where EN is set. -/
def State.dumpCounters (s : State) (l : Launch) (status : Nat) : State :=
  let r := s.ret l.ring.toNat
  if !bit r.ctrDump 0 then s
  else
    let pa := ringAt (slice r.ctrDump 41 32) (slice r.ctrDump 31 28) 512 r.dumpTail.toNat
    let s := s.systemBytes pa (ofWords ((List.range 64).map (fun i => l.counterWord status i)))
    s.setRet l.ring.toNat { s.ret l.ring.toNat with dumpTail := r.dumpTail + 1 }

/-- STATE of the block and STATUS of the record: faulted, aborted, or done with or without errors. (DEDUCED, log 50) -/
def Launch.outcome (l : Launch) : Nat × Nat :=
  if l.faulted then (4, 6) else if l.aborted then (3, 5) else if l.errs ≠ 0 then (2, 4) else (2, 0)

/-- What a job's end leaves of its queues: saved frames, and basins that hold one (R123, R347). -/
def Launch.endQueues (l : Launch) : Launch :=
  let keep (qs : List Queued) : List Queued := qs.filter (fun q => q.frame.isSome || bargeMode q.barge = 2)
  let basins := l.basins.map (fun b => { b with berths := b.berths.map (fun p => (p.1, keep p.2)) })
  { l with basins := basins.filter (fun b => b.berths.any (fun p => p.2 ≠ [])), parked := keep l.parked, first := keep l.first }

/-- DONE has reached EXPECTED: the queued barges of other modes and the watchpoints go, then writebacks, the block, the counter record
with what its running contexts have counted (R390), and the completion record that is due (R106, R347). (DEDUCED, log 52; DEDUCED, log 61) -/
def execJobEnd (launch : Nat) (s : State) : Host.Outcome State Fault Refusal :=
  match s.launch? launch with
  | none => .next s
  | some l =>
    if !l.admitted || l.ended || l.doneN ≠ l.expected then .next s
    else
      let (state, status) := l.outcome
      let s := l.writes.foldl State.closeHandle s
      let s := (s.writeJcb l.ring l.jcb (jcbWords l.expected l.doneN l.errs state l.seq)).getD s
      let s := (s.launchCtxs launch).foldl (fun s p => s.sendCounts p.1 p.2.1) s
      let s := s.dumpCounters ((s.launch? launch).getD l) status
      let s := s.traceLaunch l 8 l.doneN
      let s := s.modLaunch launch (fun x => { x.endQueues with ended := true })
      let s := { s with watches := s.watches.filter (fun p => p.2.launch != launch) }
      .next ((s.complete launch status l.errs).reap launch)

/-! ### Counts of a running context (R390) -/

def execCounterSend (n : BitVec 5) (slot : BitVec 3) (s : State) : Host.Outcome State Fault Refusal :=
  .next (s.sendCounts n.toNat slot.toNat)

end Sys2Proof.Machine
end

