-- ==== Sys2Proof/Machine/Modules.lean ====
section
/-! DEFINITION. Modules: how a number becomes LIVE, drains, is purged and is free again; and the sequential prefetch depth (R38, R40,
R137 to R139, R414). -/

namespace Sys2Proof.Machine

/-! ### Entry records (R38) -/

/-- An entry record that the loader lets through. -/
def Entry.ok (e : Entry) : Bool :=
  slice e.offset 1 0 = 0 && decide (1 ≤ e.minBays ∧ e.minBays ≤ e.maxBays ∧ e.maxBays ≤ 16 ∧ 1 ≤ e.budget ∧ e.budget ≤ 65536)

/-! ### MODCMD (R139) -/

def modNum (x : W64) : Nat := slice x 27 16

/-- A measurement register is extended (R414). (PRESUMED, log 13) -/
def State.extendMeas (s : State) (n : Nat) (data : List Byte) : State :=
  let i := s.regs.ident
  let old : BitVec 256 := tgetD i.meas n 0
  let new : BitVec 256 := BitVec.ofNat 256 (ofBytes (sha256 (toBytes 32 old.toNat ++ data)))
  { s with regs := { s.regs with ident := { i with meas := tput i.meas n new } } }

def State.modFailed (s : State) : State := { s with regs := { s.regs with modErr := true } }

def State.setModule (s : State) (m : Nat) (x : Module) : State := { s with regs := { s.regs with modules := tput s.regs.modules m x } }

/-- A command that is written while another is in hand is ignored; one that acts is in hand no more (R139). (DEDUCED, log 76) -/
def State.modTaken (s : State) (x : W64) : Option State :=
  if s.regs.modBusy = none ∨ s.regs.modBusy = some x then some { s with regs := { s.regs with modBusy := none } } else none

/-- A write of MODCMD puts its command in hand. -/
def State.modWrite (s : State) (x : W64) : State :=
  if s.regs.modBusy = none ∧ (slice x 1 0 = 1 ∨ slice x 1 0 = 2) then { s with regs := { s.regs with modBusy := some x } } else s

/-- MAKELIVE: the number is FREE, and the code lies in stacked DRAM. -/
def execMakelive (x : W64) (s : State) : Host.Outcome State Fault Refusal :=
  let m := modNum x
  let pa := slice s.regs.modPa 53 8 * 256
  let size := s.regs.modSize.toNat
  if slice x 1 0 ≠ 1 then .next s
  else
  match s.modTaken x with
  | none => .next s
  | some s =>
  if m = 0 || s.modState m ≠ .free || size = 0 || size % 4 ≠ 0 || homeOf pa ≠ .dram || homeOf (pa + size - 1) ≠ .dram then
    .next s.modFailed
  else
    let s := s.setModule m { st := .live, pa := pa, size := size, entries := tgetD s.regs.staged m [] }
    let s := s.extendMeas 2 (toBytes 2 m ++ sha256 (s.homeBytes pa size))
    .next (s.traceModule m 1)

/-- UNLOAD: a LIVE number drains. -/
def execUnload (x : W64) (s : State) : Host.Outcome State Fault Refusal :=
  let m := modNum x
  if slice x 1 0 ≠ 2 then .next s
  else
  match s.modTaken x with
  | none => .next s
  | some s =>
    match s.module? m with
    | some y => if y.st = .live then .next ((s.setModule m { y with st := .draining }).traceModule m 2) else .next s.modFailed
    | none => .next s.modFailed

/-- A DRAINING number that no queued barge names and no program counter lies in becomes PURGING. -/
def execModulePurge (m : BitVec 12) (s : State) : Host.Outcome State Fault Refusal :=
  let m := m.toNat
  match s.module? m with
  | some y =>
    if y.st = .draining && s.queuedNaming m = 0 && s.countersIn m = 0 then .next ((s.setModule m { y with st := .purging }).traceModule m 3)
    else .next s
  | none => .next s

/-- The lines of a module leave every code cache, and every fill for it is dropped. -/
def CodeCaches.purge (c : CodeCaches) (m : Nat) : CodeCaches :=
  let clean (t : Tab (List CodeTag)) : Tab (List CodeTag) := t.map (fun p => (p.1, p.2.filter (fun x => lineModule x.line != m)))
  { i0 := clean c.i0, i1 := clean c.i1, i2 := clean c.i2, fills := c.fills.filter (fun f => lineModule f.line != m) }

/-- A PURGING number's lines and fills are gone, and it is FREE. (DESIGN CHOICE, log 62) -/
def execModuleFree (m : BitVec 12) (s : State) : Host.Outcome State Fault Refusal :=
  let m := m.toNat
  match s.module? m with
  | some y =>
    if y.st = .purging then
      let s := { s with code := s.code.purge m, codeWas := s.codeWas.filter (fun p => p.1 != m), regs := { s.regs with modules := tdel s.regs.modules m, loaded := tdel s.regs.loaded m } }
      .next (s.traceModule m 0)
    else .next s
  | none => .next s

/-- FETCHCTL: 0 to 4 lines. -/
def execFetchctlWrite (x : W64) (s : State) : Host.Outcome State Fault Refusal :=
  let d := slice x 2 0
  if 4 < d then .next s else .next { s with regs := { s.regs with seqDepth := BitVec.ofNat 3 d } }

/-- MODQRES (R139). -/
def State.modQuery (s : State) : W64 :=
  let m := s.regs.modQ.toNat
  let st : Nat := match s.modState m with
    | .free => 0
    | .live => 1
    | .draining => 2
    | .purging => 3
  BitVec.ofNat 64 (st * 2 ^ 62 + s.countersIn m % 2 ^ 16 * 2 ^ 24 + s.queuedNaming m % 2 ^ 24)

end Sys2Proof.Machine
end

