-- ==== Sys2Proof/Machine/Power.lean ====
section
/-! DEFINITION. Power, margins, scrubbing, energy, and what the links' own errors do (R295, R382, R383, R394, R418 to R428). -/

namespace Sys2Proof.Machine

/-! ### The toll's registers (R418, R419, R428) -/

def State.expert (s : State) : Bool := bit s.regs.powerctl 63
def State.plimit (s : State) : Nat := slice s.regs.powerctl 15 0
def State.guardBand (s : State) : Nat := slice s.regs.powerctl 47 40

/-- The fields of TOLLCFG and TOLLCOST that a write sets. -/
def tollCfgMask : W64 := 0x3FFFFFFFFFFF0FFF
def tollCostMask : W64 := 0x0000FFFFFFFFFFFF

/-- TOLLCFG takes a value; one whose CAP is 0 is ignored as a whole. -/
def State.setTollCfg (s : State) (n : Nat) (x : W64) : State :=
  if slice x 61 32 = 0 then s else s.setCluster n { s.cluster n with tollCfg := x &&& tollCfgMask }

def State.setTollCost (s : State) (n : Nat) (x : W64) : State :=
  s.setCluster n { s.cluster n with tollCost := x &&& tollCostMask }

/-- A host's write of TOLLCFG, taken in expert control. It is in effect from the next cycle. -/
def execTollcfgWrite (n : BitVec 5) (x : W64) (s : State) : Host.Outcome State Fault Refusal :=
  if s.expert then .next (s.setTollCfg n.toNat x) else .next s

def execTollcostWrite (n : BitVec 5) (x : W64) (s : State) : Host.Outcome State Fault Refusal :=
  if s.expert then .next (s.setTollCost n.toNat x) else .next s

/-- A new RATIO takes effect at the first cycle after its write in which `$cycle` mod 4 is 0: what the cycle's own beginning has done.
(DEDUCED, log 16) -/
def execRatioChange (n : BitVec 5) (s : State) : Host.Outcome State Fault Refusal :=
  let n := n.toNat
  let c := s.cluster n
  if slice c.cycle 1 0 = 0 then .next (s.setCluster n { c with ratio := BitVec.ofNat 12 (slice c.cfgOn 11 0) })
  else .next s

/-! ### Basic and expert control (R127, R427, R428) -/

/-- Usboulo writes every expert field from PLIMIT and the curves. (DESIGN CHOICE, log 8; DESIGN CHOICE, log 9) -/
def State.usbouloWrites (s : State) : State :=
  let p := s.plimit
  let s := (List.range 32).foldl (fun s n =>
    let s := (s.setTollCfg n (Config.basicToll (32 * p + n))).setTollCost n (Config.basicCost (32 * p + n))
    { s with regs := { s.regs with effRank := tput s.regs.effRank n (Config.effRank n) } }) s
  let r := s.regs
  { s with regs := { r with powerctl := putBits r.powerctl 47 40 Config.basicGuard.toNat,
                            govctl := putBits r.govctl 15 11 Config.basicEffCut.toNat } }

/-- POWERCTL: a PLIMIT outside 300 to 2,400 makes the whole write ignored; GUARD is taken in expert control alone. In basic control
Usboulo then writes the expert fields. (DESIGN CHOICE, log 9; DEDUCED, log 60) -/
def execPowerctlWrite (x : W64) (s : State) : Host.Outcome State Fault Refusal :=
  let p := slice x 15 0
  if p < 300 ∨ 2400 < p then .next s
  else
    let guardNow := if s.expert then slice x 47 40 else s.guardBand
    let w : W64 := BitVec.ofNat 64 (boolNat (bit x 63) * 2 ^ 63 + guardNow * 2 ^ 40 + boolNat (bit x 32) * 2 ^ 32 + p)
    let s := { s with regs := { s.regs with powerctl := w } }
    .next (if bit x 63 then s else s.usbouloWrites)

/-! ### Power and heat (R421, R422) -/

/-- 2^20 cycles. -/
def powerCycles : Nat := 2 ^ 20

/-- An interval ends: SHIFT rises after one above PLIMIT, or while the module throttles; it falls after one at or below nine tenths. (DESIGN CHOICE, log 58) -/
def execPowerInterval (watts : Nat) (s : State) : Host.Outcome State Fault Refusal :=
  if s.now < s.regs.powerAt + powerCycles then .next s
  else
    let s := { s with regs := { s.regs with powerAt := s.regs.powerAt + powerCycles } }
    let up := s.regs.throttle || decide (s.plimit < watts)
    let down := decide (10 * watts ≤ 9 * s.plimit)
    let move (k : Nat) : Nat := if up then min (k + 1) 4 else if down then k - 1 else k
    .next ((List.range 32).foldl (fun s n => s.setCluster n { s.cluster n with shift := move (s.cluster n).shift }) s)

def execThrottleEnd (celsius : BitVec 8) (s : State) : Host.Outcome State Fault Refusal :=
  if 95 ≤ celsius.toNat then .next s else .next { s with regs := { s.regs with tmax := celsius, throttle := false } }

/-- Power is lost, and with it everything the module holds, its time among it (R25). The far side's memory and what is still to come
stay. (DESIGN CHOICE, log 5) -/
def State.lost (s : State) : State :=
  { State.reset with powered := false, agenda := s.agenda, fresh := s.fresh, nextId := s.nextId,
                     mem := s.mem.filter (fun c => decide (0x10000000000000 ≤ c.1)) }

/-- The hottest junction reads 95 °C or more; at 105 °C the module trips (R422). -/
def execThrottle (celsius : BitVec 8) (s : State) : Host.Outcome State Fault Refusal :=
  if celsius.toNat < 95 then .next s
  else if 105 ≤ celsius.toNat then .next s.lost
  else .next { s with regs := { s.regs with tmax := celsius, throttle := true } }

/-- At 105 °C the module trips. -/
def execThermalTrip (celsius : BitVec 8) (s : State) : Host.Outcome State Fault Refusal :=
  if celsius.toNat < 105 then .next s else .next s.lost

/-! ### Margins (R423, R424) -/

def curveOf (n : Nat) : Nat := (Config.curveVoltage n).toNat

/-- An error that margins record (KIND 11) sends the cluster back to its curve (R424). (DEDUCED, log 53) -/
def State.marginRecord (s : State) (n : Nat) : State := s.errorRecord 9 3 (some (dieOf n)) 0 n 0

/-- Calibration begins on a cluster that has held no context and no bay for 2^20 cycles. (DEDUCED, log 53) -/
def execCalibrationStart (n : BitVec 5) (s : State) : Host.Outcome State Fault Refusal :=
  let n := n.toNat
  let c := s.cluster n
  let free := (s.clusterCtxs n).isEmpty && !s.liveMoves.any (fun m => m.2.1 / 8 = n) && decide (c.idleAt + 2 ^ 20 ≤ s.now)
  if bit s.regs.powerctl 32 && free && c.calib.isNone && (s.candidate n).isNone then
    .next (s.setCluster n { c with calib := some (c.vop.toNat, s.now), vop := BitVec.ofNat 12 (curveOf n - 5) })
  else .next s

/-- A test of 2^16 cycles at one step ends. A candidate that has appeared ends the calibration as it was before; else a failure, or
200 mV below the curve, ends it with the lowest passing step, and a pass goes one step lower. (DEDUCED, log 53) -/
def execCalibrationStep (n : BitVec 5) (pass : Bool) (s : State) : Host.Outcome State Fault Refusal :=
  let n := n.toNat
  let c := s.cluster n
  match c.calib with
  | none => .next s
  | some (before, t) =>
    if s.now < t + 2 ^ 16 then .next s
    else
      let curve := curveOf n
      let v := c.vop.toNat
      let done (lowest : Nat) : Cluster :=
        { c with calib := none, vop := BitVec.ofNat 12 (min curve (lowest + s.guardBand)), margin := BitVec.ofNat 8 (curve - lowest) }
      let noted : State := if pass then s else s.marginRecord n
      if (s.candidate n).isSome then .next (noted.setCluster n { c with calib := none, vop := BitVec.ofNat 12 before })
      else if !pass then .next (noted.setCluster n (done (v + 5)))
      else if v + 200 ≤ curve then .next (s.setCluster n (done v))
      else .next (s.setCluster n { c with calib := some (before, s.now), vop := BitVec.ofNat 12 (v - 5) })

/-! ### Scrubbing (R425) -/

/-- One line is scrubbed, in its L2 slice or in its DRAM: what can be corrected is recorded, what cannot is tried again, and a lasting error
leaves the line as it is. One of the DRAM under a line that a slice holds leaves the slice's copy good. (DESIGN CHOICE, log 58) -/
def execScrubLine (pa : BitVec 54) (inSlice : Bool) (o : Attempt) (s : State) : Host.Outcome State Fault Refusal :=
  let pa := pa.toNat
  let held := (s.l2Line (lineOf pa)).isSome
  let stored := if inSlice then held else homeOf pa = .dram || homeOf pa = .capacity
  if slice s.regs.scrub 15 0 = 0 || !stored then .next s
  else
    let rec_ (kind : Nat) : State :=
      let (src, unit) := if inSlice then (3, stackOf pa) else behind pa
      s.errorRecord src kind none (pa / 128 * 128) unit 0
    let met := if inSlice || !held then s.badLine pa else false
    match if met then .lasting else o with
    | .corrected => .next (rec_ 0)
    | .transient => .next (rec_ 1)
    | .lasting => .next (if met || held && !inSlice then rec_ 2 else (rec_ 2).spoil pa)
    | _ => .next s

/-! ### Energy (R394) -/

/-- The estimates of an interval, those of saves and restores among them, are scaled to the measurement and charged to their launches;
what is left of it, with the shares of launches that have gone since, stands apart in housekeeping. (DESIGN CHOICE, log 10) -/
def execEnergyInterval (measured : Nat) (s : State) : Host.Outcome State Fault Refusal :=
  if s.now < s.regs.energyAt + powerCycles then .next s
  else
    let swap (a : Nat) : Nat := tgetD s.regs.swaps a 0
    let est (a : Nat) : Nat := Config.energyEstimate s.fresh (a + 1) + swap a
    let accs := (s.launches.map (fun l => l.acc) ++ s.regs.gone).eraseDups
    let total := Config.energyEstimate s.fresh 0 + (accs.map est).foldl (· + ·) 0
    let scaled (x : Nat) : Nat := if total = 0 then 0 else x * measured / total
    let given := (s.launches.map (fun l => scaled (est l.acc))).foldl (· + ·) 0
    let r := s.regs
    let r := { r with hkEnergy := r.hkEnergy + BitVec.ofNat 64 (measured - given), modEnergy := r.modEnergy + BitVec.ofNat 64 measured,
                      energyAt := r.energyAt + powerCycles, swaps := [], gone := [] }
    let charge (l : Launch) : Launch := { l with energy := l.energy + scaled (est l.acc), swap := l.swap + scaled (swap l.acc) }
    .next { s with launches := s.launches.map charge, regs := r, fresh := s.fresh + 1 }

/-! ### Links (R10, R295, R382, R383) -/

/-- SOURCE and UNIT of a link, and the die whose counter its record carries (R426). -/
def linkSource : LinkName → Nat × Nat
  | .near d _ => (5, d)
  | .front d => (5, d)
  | .stack k => (5, k)
  | .finzu p => (6, p)
  | .host => (7, 0)

/-- A link of R10 or R17, or the host's port. -/
def realLink : LinkName → Bool
  | .near d k => decide (d < 8 ∧ k / 3 = d / 2)
  | .front d => decide (d < 8)
  | .stack k => decide (k < 12)
  | .finzu p => decide (p < 16)
  | .host => true

/-- An access of a die to an address goes over a link: to a stack that is not near, and to the flag window, over the front link; to a
peer, over those of the die and of the die that carries the port; on to host memory or to the capacity tier, whose controllers are the
front die's, over the stack link, where the slice does not hold the line or the access goes past it to the storage behind (`past`) (R9,
R10, R253, R255, R411). (DEDUCED, log 54) -/
def State.crosses (s : State) (l : LinkName) (die pa : Nat) (past : Bool) : Bool :=
  match l with
  | .near d k => d = die && !farFrom die pa && homeUnit pa = some k
  | .front d =>
    if homeOf pa = .peer then
      match s.routeOf pa with
      | some p => p / 2 != die && (d = die || d = p / 2)
      | none => false
    else d = die && farFrom die pa
  | .stack k => homeUnit pa = some k && (farFrom die pa
      || ((homeOf pa = .host || homeOf pa = .capacity) && (past || (s.l2Line (lineOf pa)).isNone)))
  | .finzu p => homeOf pa = .peer && s.routeOf pa = some p
  | .host => homeOf pa = .host

def State.retrainPort (s : State) (p : Nat) (st : BitVec 2) : State :=
  let f := tgetD s.regs.finzu p ⟨0, 0, 0⟩
  let f := { f with state := st, retrains := if f.retrains = 0xFFFF then f.retrains else f.retrains + 1 }
  { s with regs := { s.regs with finzu := tput s.regs.finzu p f } }

/-- A flit fails its check and is replayed; one that fails again retrains the link, which is a transient error. (DEDUCED, log 54) -/
def execLinkFlitError (l : LinkName) (again : Bool) (s : State) : Host.Outcome State Fault Refusal :=
  if !again || !realLink l then .next s
  else
    let (src, unit) := linkSource l
    let s := match l with | .finzu p => if (tgetD s.regs.finzu p ⟨0, 0, 0⟩).state = 2 then s.retrainPort p 2 else s | _ => s
    .next (s.errorRecord src 1 none 0 unit 0)

end Sys2Proof.Machine
end

