-- ==== Sys2Proof/Machine/WarmReset.lean ====
section
/-! DEFINITION. The warm reset of a compute die, phase by phase, and the failure of a link, which can start one (R27, R119, R120, R383
to R385, R424). -/

namespace Sys2Proof.Machine

/-- The contexts on a die. -/
def State.ctxsOn (s : State) (d : Nat) : List (Nat × Nat × Ctx) := s.allCtxs.filter (fun p => dieOf p.1 = d)

/-- A die enters a phase, which is traced. The front die, which has the die's answer on the phase before, orders the next (R296).
(DEDUCED, log 28) -/
def State.enterPhase (s : State) (d phase : Nat) : State :=
  let s := if phase = 1 then s else s.message (some d) none
  ((s.setDie d { s.die d with phase := BitVec.ofNat 4 phase, since := s.now }).traceReset d phase).tellDies [d]

/-- Phase 1 begins: the die is no longer admitted and leaves every launch, and its contexts are to be saved, or end. `cause` is 1 for the
host's write and 2 for a link's failure. -/
def State.startReset (s : State) (d : Nat) (abandon : Bool) (cause : Nat) : State :=
  let x := s.die d
  let s := s.setDie d { x with admitted := false, count := x.count + 1, cause := BitVec.ofNat 8 cause, result := 0 }
  let s := s.enterPhase d 1
  let s := (s.launches.map (fun l => l.acc)).foldl (fun s l => s.loseDie d l) s
  (s.ctxsOn d).foldl (fun s p => if abandon then s.stopCtx p.1 p.2.1 none { cls := 0x32 } else s.requestSave p.1 p.2.1 .reset) s

/-- A write of DRCTL (R385). -/
def execWarmReset (die : BitVec 3) (x : W64) (s : State) : Host.Outcome State Fault Refusal :=
  let d := die.toNat
  if bit x 0 && (s.die d).phase ≠ 0 then .next s
  else
    let s := s.setDie d { s.die d with auto := bit x 3, mode := bit x 2 }
    .next (if bit x 0 then s.startReset d (bit x 2) 1 else s)

/-- The limit of phase 1: what has not been saved by then ends, but for what is ending already. -/
def execResetStopLimit (die : BitVec 3) (s : State) : Host.Outcome State Fault Refusal :=
  let d := die.toNat
  let x := s.die d
  if x.phase ≠ 1 || decide (s.now < x.since + 2 ^ 20) then .next s
  else
    let ending (c : Ctx) : Bool := match c.stop with | some y => stopRank y.cls.toNat = 1 | none => false
    .next (((s.ctxsOn d).filter (fun p => !ending p.2.2)).foldl (fun s p => s.stopCtx p.1 p.2.1 none { cls := 0x32 }) s)

/-- Phase 2: no context is left on the die, and so no request of one. -/
def execQuiesce (die : BitVec 3) (s : State) : Host.Outcome State Fault Refusal :=
  let d := die.toNat
  if (s.die d).phase ≠ 1 || !(s.ctxsOn d).isEmpty then .next s else .next (s.enterPhase d 2)

/-- The home of an address cannot be reached from a die: its far side's link is not there, or a link of the die on the way to it has
failed. -/
def State.cutOff (s : State) (die pa : Nat) : Bool := !s.linkOpen pa || s.downLinks.any (fun l => s.crosses l die pa false)

/-- A bay's lines whose home cannot be reached are lost, each recorded as a lasting error. -/
def State.loseLines (s : State) (n b : Nat) : State :=
  ((s.bayAll n b).filter (fun l => l.dirty ≠ 0 && s.cutOff (dieOf n) (128 * l.line))).foldl
    (fun s l => (s.errorRecord 8 2 (some (dieOf n)) (128 * l.line) n 0).bayDrop n b l.line) s

/-- Phase 3: every bay's line cache writes back and drops. -/
def execWriteback (die : BitVec 3) (s : State) : Host.Outcome State Fault Refusal :=
  let d := die.toNat
  if (s.die d).phase ≠ 2 then .next s
  else
    let bays := (List.range 4).flatMap (fun c => (List.range 16).map (fun b => (4 * d + c, b)))
    .next (bays.foldl (fun s p => (s.loseLines p.1 p.2).bayWriteBack p.1 p.2 true) (s.enterPhase d 3))

/-- Phase 4: requests to the die are answered with errors, those of its two Finzu ports among them. -/
def execIsolate (die : BitVec 3) (s : State) : Host.Outcome State Fault Refusal :=
  let d := die.toNat
  if (s.die d).phase ≠ 3 then .next s else .next (s.enterPhase d 4)

/-- A reset that fails stops: RESULT 1, PHASE 0, and the die stays out. -/
def State.resetFailed (s : State) (d : Nat) : State := s.setDie d { s.die d with phase := 0, result := 1 }

/-- A link of a compute die. -/
def ofDie (d : Nat) : LinkName → Bool
  | .near e _ => e = d
  | .front e => e = d
  | _ => false

/-- Phase 5: the die's links are retrained. -/
def execRetrain (die : BitVec 3) (ok : Bool) (s : State) : Host.Outcome State Fault Refusal :=
  let d := die.toNat
  if (s.die d).phase ≠ 4 then .next s
  else
    let s := s.enterPhase d 5
    .next (if ok then { s with downLinks := s.downLinks.filter (fun l => !ofDie d l) } else s.resetFailed d)

/-- Phase 6: `$cycle` and the toll count of each cluster start again, and the in-field test runs on each. Where it fails, the clusters
that `failed` names go back to their curves (R424). (DEDUCED, log 53) -/
def execTest (die : BitVec 3) (failed : BitVec 4) (s : State) : Host.Outcome State Fault Refusal :=
  let d := die.toNat
  if (s.die d).phase ≠ 5 then .next s
  else
    let clusters := (List.range 4).map (fun c => 4 * d + c)
    let s := clusters.foldl (fun s n => s.setCluster n { s.cluster n with cycle := 0, toll := 0, began := 0 }) (s.enterPhase d 6)
    if failed = 0 then .next s
    else
      let s := (clusters.filter (fun n => bit failed (n % 4))).foldl (fun s n => (s.marginRecord n).setCluster n { s.cluster n with vop := Config.curveVoltage n }) s
      .next (s.resetFailed d)

/-- Phase 7: the die is admitted again, and the reset is complete. -/
def execReadmit (die : BitVec 3) (s : State) : Host.Outcome State Fault Refusal :=
  let d := die.toNat
  if (s.die d).phase ≠ 6 then .next s
  else
    let s := s.enterPhase d 7
    .next (s.setDie d { s.die d with admitted := true, phase := 0, result := 0 })

/-- A code fill is on its way over a link: to an I1 from the I2, or to the I2 from the module's memory (R10, R132). (DEDUCED, log 54) -/
def State.fillCrosses (s : State) (l : LinkName) (f : Fill) : Bool :=
  match f.lvl with
  | .i0 => false
  | .i1 => l = .front f.unit && !s.code.filling .i2 0 f.line
  | .i2 => match homeUnit (s.codePa f.line) with | some k => l = .stack k | none => false

/-- A page walk in flight uses a link: between its die and the base die of its walker, or from there to the last table that it reads, on
another stack or past a slice that does not hold it (R9, R10). (DEDUCED, log 54) -/
def State.walkCrosses (s : State) (l : LinkName) (w : Walk) : Bool :=
  let va : W72 := BitVec.ofNat 72 (w.vpn.toNat * 4096)
  let unit := walkerStack w.die va
  let last := s.walkLast (s.walkerOf w.die va) w.space va
  match l with
  | .near d k => d = w.die && k = unit
  | .front _ => false
  | .stack k => (homeUnit last ≠ some unit && (k = unit || homeUnit last = some k)) || s.crosses (.stack k) w.die last false
  | .finzu p => homeOf last = .peer && s.routeOf last = some p
  | .host => homeOf last = .host

/-- A replay read-back comes over a link: from the base die of its backing area to the cluster's die (R10, R17). (DEDUCED, log 54) -/
def replayCrosses (l : LinkName) (n entryCl : Nat) : Bool :=
  let k := backingStack entryCl
  match l with
  | .near d j => d = dieOf n && j = k && k / 3 = dieOf n / 2
  | .front d => d = dieOf n && k / 3 != dieOf n / 2
  | .stack j => j = k && k / 3 != dieOf n / 2
  | _ => false

/-- Fault what a failed link held, under the LCLOCK of its record: accesses, code fills, page walks and replay read-backs (R295, R383).
(DEDUCED, log 54) -/
def State.cutLink (s : State) (l : LinkName) (clk : BitVec 48) : State :=
  let across (a : Access) (p : Part) : Bool := !p.done && !isSp p.pa && !s.inBay a p && s.crosses l (dieOf a.cl) p.pa (effScope p.pa a.scope = .system)
  let accs := s.accs.filter (fun a => !a.done && !a.bad && a.parts.zipIdx.any (fun p => across a p.1 && s.canPerform a [p.2]))
  let fills := s.code.fills.filter (s.fillCrosses l)
  let walks := ((List.range 8).flatMap s.walksOf).filter (s.walkCrosses l)
  let reads := s.allCtxs.filter (fun p => s.readsBack p.1 p.2.1 && (match p.2.2.queue.head? with
    | some o => replayCrosses l p.1 o.entryCl
    | none => false))
  let s := accs.foldl (fun s a => s.cutAccess { a with clk := clk }) s
  let s := fills.foldl (fun s f => s.faultFetch f.lvl f.unit f.line 0x31 clk) s
  let cut := s.walks.map (fun w => if walks.contains w then { w with kind := some kLink, clk := clk } else w)
  let s := { s with walks := cut.filter (fun w => w.kind.isNone || w.users != []) }
  reads.foldl (fun s p => s.stopCtx p.1 p.2.1 none { cls := 0x31, retried := true, where_ := p.2.2.pc, clk := some clk }) s

/-- A link fails after its retraining: a lasting error, and everything that it held is faulted with LINK (R295). The failure of a compute
die's own link starts an ABANDON reset of the die where AUTO is set (R383); a Finzu port has counted its retraining and is FAILED (R410),
and the host's port is down. (DEDUCED, log 54) -/
def execLinkFailure (l : LinkName) (s : State) : Host.Outcome State Fault Refusal :=
  if !realLink l then .next s
  else
    let (src, unit) := linkSource l
    let clk := s.lclock none
    let s := (s.errorRecord src 2 none 0 unit 0).cutLink l clk
    let down (s : State) : State := { s with downLinks := l :: s.downLinks.filter (· ≠ l) }
    let reset (d : Nat) : State :=
      let s := down s
      if (s.die d).auto && (s.die d).phase = 0 then s.startReset d true 2 else s
    match l with
    | .near d _ => .next (reset d)
    | .front d => .next (reset d)
    | .stack _ => .next (down s)
    | .finzu p => .next (s.retrainPort p 3)
    | .host => .next { s with regs := { s.regs with hostUp := false } }

end Sys2Proof.Machine
end

