-- ==== Sys2Proof/Machine/Outside.lean ====
section
/-! DEFINITION. What the host, peers and the power supply do to the module: links, memory, the firmware's check and attestation (R25,
R90, R91, R255, R407 to R416). -/

namespace Sys2Proof.Machine

/-! ### Links to the outside (R408 to R410) -/

def execHostLinkDown (s : State) : Host.Outcome State Fault Refusal := .next { s with regs := { s.regs with hostUp := false } }
def execHostLinkUp (s : State) : Host.Outcome State Fault Refusal := .next { s with regs := { s.regs with hostUp := true } }

/-- FZCMD: the selected ports train again. -/
def execFinzuRetrain (x : W64) (s : State) : Host.Outcome State Fault Refusal :=
  .next ((setBits 16 (slice x 15 0)).foldl (fun s p => s.retrainPort p 1) s)

/-- A port's training ends: it is up with the far end's identity, or FAILED. -/
def execFinzuPortTrained (port : BitVec 4) (remote : W32) (ok : Bool) (s : State) : Host.Outcome State Fault Refusal :=
  let f := tgetD s.regs.finzu port.toNat ⟨0, 0, 0⟩
  if 2 ≤ f.state.toNat then .next s
  else
    let f := if ok then { f with state := 2, remote := remote } else { f with state := 3 }
    .next { s with regs := { s.regs with finzu := tput s.regs.finzu port.toNat f } }

/-! ### Requests from outside (R91, R255, R412) -/

/-- The bytes that a write carries. -/
def requestBytes (r : OutsideAccess) : List Byte := toBytes (min r.size 128) r.data.toNat

/-- Every byte of a request lies in one of the ranges. (DEDUCED, log 57) -/
def requestIn (r : OutsideAccess) (ok : Home → Bool) : Bool :=
  decide (1 ≤ r.size ∧ r.size ≤ 128) && ok (homeOf r.addr.toNat) && homeOf (r.addr.toNat + r.size - 1) = homeOf r.addr.toNat

def storedHome : Home → Bool
  | .dram => true
  | .capacity => true
  | _ => false

/-- The words of a module's code that a write to n bytes reaches. -/
def Module.wordsIn (y : Module) (pa n : Nat) : List Nat :=
  if pa < y.pa + y.size ∧ y.pa < pa + n then
    (List.range (n / 4 + 2)).filterMap (fun i =>
      let a := 4 * (pa / 4 + i)
      if y.pa ≤ a ∧ a < y.pa + y.size ∧ a < pa + n then some ((a - y.pa) / 4) else none)
  else []

/-- Before a write from outside to the code of a module in use: the values that its words lose are kept (R131). (DESIGN CHOICE, log 62) -/
def State.noteCode (s : State) (pa n : Nat) : State :=
  { s with codeWas := s.codeWas ++ s.regs.modules.flatMap (fun p =>
      (p.2.wordsIn pa n).map (fun w => (p.1, w, BitVec.ofNat 32 (s.homeRead (p.2.pa + 4 * w) 4)))) }

/-- With its image refused, the module answers the management block alone (R413). -/
def State.refused (s : State) : Bool := s.regs.ident.fwStat = 3

/-- What an atomic of a peer leaves at its bytes (R270, R275, R276). -/
def outsideValue (r : OutsideAccess) (old : Nat) : Nat :=
  let w := 8 * r.size
  let c := r.data.toNat % 2 ^ w
  match r.kind with
  | .atom op => gatomFn op w c old
  | .fadd => fp32Add old c
  | .fmin => fp32Least false old c
  | .fmax => fp32Least true old c
  | .cas => if old = r.data.toNat / 2 ^ w % 2 ^ w then c else old
  | _ => old

/-- The size and alignment that an atomic of a peer takes: 4 or 8 bytes, and 4 for FP32. -/
def outsideSized (r : OutsideAccess) : Bool :=
  let float := r.kind = .fadd || r.kind = .fmin || r.kind = .fmax
  (r.size = 4 || (r.size = 8 && !float)) && r.addr.toNat % r.size = 0

/-- A peer's request is performed at its home at system scope, or refused with an error reply that changes nothing, as from ISOLATE on is
one on a port of a die in reset (R384). An atomic may leave a state word over, which slots have joined on (R338). (DEDUCED, log 57) -/
def execPeerRequest (peer : BitVec 12) (port : BitVec 4) (r : OutsideAccess) (s : State) : Host.Outcome State Fault Refusal :=
  let e := tgetD s.regs.peers peer.toNat 0
  let pa := r.addr.toNat
  let good := bit e 63 && bit e 62 && s.portServes port.toNat peer.toNat && !s.isolated (port.toNat / 2) && requestIn r storedHome
  if !good || s.refused || s.badAt pa r.size then .next s
  else
    match r.kind with
    | .read => .next ((linesOf pa r.size).foldl (fun s l => s.l2Clean l) s)
    | .write => .next ((s.noteCode pa r.size).systemBytes pa (requestBytes r))
    | _ => .next (if outsideSized r then ((s.noteCode pa r.size).atomicAt .system pa r.size .normal (outsideValue r)).2.joinsAt pa else s)

/-- A host's access to the flag window: coherent, and performed where the window is. -/
def execHostFlagWindowAccess (r : OutsideAccess) (s : State) : Host.Outcome State Fault Refusal :=
  if !s.regs.hostUp || s.refused || !requestIn r (fun h => h = .flag) then .next s
  else
    match r.kind with
    | .write => .next (s.deviceBytes r.addr.toNat (requestBytes r))
    | _ => .next s

/-- A host's access through the device memory aperture, performed at the home slice. One that meets a lasting error fails, a read that meets
one anywhere in its lines, and the error is recorded (R408). -/
def execHostApertureAccess (r : OutsideAccess) (o : Attempt) (s : State) : Host.Outcome State Fault Refusal :=
  let pa := r.addr.toNat
  if !s.regs.hostUp || s.refused || !requestIn r storedHome then .next s
  else
    let read := r.kind = .read
    let at_ := if read then pa / 128 * 128 else pa
    let n := if read then 128 * (linesOf pa r.size).length else r.size
    let o := s.attempt o at_ n
    let s := s.storageError o (if o = .lasting then s.badPlace at_ n pa else pa) none 0
    match o with
    | .lasting => .next s
    | .linkFailed => .next s
    | _ =>
      match r.kind with
      | .read => .next ((linesOf pa r.size).foldl (fun s l => s.l2Fill l .normal) s)
      | .write => .next ((s.noteCode pa r.size).deviceBytes pa (requestBytes r))
      | _ => .next s

/-- A write that the host or a peer makes to its own memory. (DESIGN CHOICE, log 6) -/
def State.outsideStore (s : State) (pa : BitVec 54) (data : List Byte) : State :=
  if pa.toNat < 0x10000000000000 then s else { s with mem := writeBytes s.mem pa.toNat data }

/-! ### Power (R25, R413) -/

def execPowerOn (s : State) : Host.Outcome State Fault Refusal := if s.powered then .next s else .next { s.lost with powered := true }
def execPowerOff (s : State) : Host.Outcome State Fault Refusal := .next s.lost

/-! ### The firmware's check (R413, R414) -/

def State.setIdent (s : State) (i : Ident) : State := { s with regs := { s.regs with ident := i } }

/-- FWCTL: a write starts the check. (DEDUCED, log 55) -/
def execFirmwareCheck (x : W64) (s : State) : Host.Outcome State Fault Refusal :=
  .next (s.setIdent { s.regs.ident with fwPa := BitVec.ofNat 42 (slice x 53 12), fwStat := 1 })

/-- What names the image: its address, and the SHA-256 of its first 4 KiB. (DESIGN CHOICE, log 12) -/
def State.imageName (s : State) : Nat × BitVec 256 :=
  let pa := s.regs.ident.fwPa.toNat * 4096
  (pa, BitVec.ofNat 256 (ofBytes (sha256 (s.homeBytes pa 4096))))

/-- The check ends. An image that fails leaves every command processor halted. One that is accepted is measured, once in a power-on, and
Usboulo sets the expert fields; a processor whose HALT was cleared meanwhile takes entries from now on (R93, R413). (DESIGN CHOICE, log 9;
DEDUCED, log 49; DEDUCED, log 55) -/
def execFirmwareCheckDone (s : State) : Host.Outcome State Fault Refusal :=
  let i := s.regs.ident
  if i.fwStat ≠ 1 then .next s
  else
    let (pa, h) := s.imageName
    if !Config.imageSigned pa h then
      .next ((List.range 4).foldl (fun s p => s.setCp p { s.cp p with halted := true }) (s.setIdent { i with fwStat := 3 }))
    else
      let s := s.setIdent { i with fwStat := 2, fwVer := Config.imageVersion pa h }
      let s := if (tget i.meas 0).isSome then s
        else (s.extendMeas 0 (toBytes 32 (Config.imageHash pa h).toNat)).extendMeas 1 (toBytes 32 Config.usbouloConfig.toNat)
      let resume (s : State) (p : Nat) : State := if (s.cp p).halt || !(s.cp p).ringOk then s else s.writeHalt p false
      .next ((List.range 4).foldl resume (if s.expert then s else s.usbouloWrites))

/-! ### Attestation (R415, R416) -/

def execIdbootWrite (x : W64) (s : State) : Host.Outcome State Fault Refusal :=
  let i := s.regs.ident
  if i.idSet then .next s else .next (s.setIdent { i with idSet := true, bootIdx := BitVec.ofNat 15 (slice x 14 0) })

/-- ATTREQ: GO builds a report, ignored while one is being built; PAGE is as it was last written when the report is. (DEDUCED, log 55) -/
def execAttestationRequest (x : W64) (s : State) : Host.Outcome State Fault Refusal :=
  let i := s.regs.ident
  .next (s.setIdent { i with attPage := BitVec.ofNat 10 (slice x 41 32), busy := i.busy || bit x 0 })

/-- Bytes 0x000 to 0x17F of a report. -/
def State.reportBody (s : State) : List Byte :=
  let i := s.regs.ident
  toBytes 8 0x5454415A ++ toBytes 4 i.bootIdx.toNat ++ toBytes 4 i.count.toNat
    ++ (List.range 4).flatMap (fun n => toBytes 8 (tgetD i.nonce n 0).toNat) ++ toBytes 8 s.devshape.toNat ++ toBytes 8 i.fwVer.toNat
    ++ (List.range 8).flatMap (fun n => toBytes 32 (tgetD i.meas n 0).toNat) ++ toBytes 56 Config.topKey.toNat ++ zeros 8

/-- The report is written at system scope, and then BUSY clears; or there is none to write. -/
def execAttestationReportDone (s : State) : Host.Outcome State Fault Refusal :=
  let i := s.regs.ident
  let ends (r : BitVec 2) : Ident := { i with busy := false, result := r }
  if !i.busy then .next s
  else if !i.idSet then .next (s.setIdent (ends 1))
  else if 1024 ≤ i.count.toNat then .next (s.setIdent (ends 2))
  else if 1022 < i.attPage.toNat then .next (s.setIdent (ends 3))
  else
    let body := s.reportBody
    let sig := Config.hssSign i.bootIdx.toNat i.count.toNat (BitVec.ofNat 3072 (ofBytes body))
    let s := s.systemBytes (flagBase + 4096 * i.attPage.toNat) (body ++ toBytes 4 5236 ++ toBytes 5236 sig.toNat)
    .next (s.setIdent { ends 0 with count := i.count + 1 })

end Sys2Proof.Machine
end

