-- ==== Sys2Proof/Machine/Registers.lean ====
section
/-! DEFINITION. The management block: writes of its registers, and what a read returns (R5, R26, R93, R129, R139, R256, R385, R395, R410,
R415, R418, R427). -/

namespace Sys2Proof.Machine

/-! ### Placement registers (R129) -/

/-- GOVCTL: LOWAT at or above HIWAT makes the whole write ignored; EFFCUT is taken in expert control alone. (DESIGN CHOICE, log 9; DEDUCED, log 60) -/
def execGovctlWrite (x : W64) (s : State) : Host.Outcome State Fault Refusal :=
  if slice x 47 32 ≤ slice x 31 16 then .next s
  else
    let cut := if s.expert then slice x 15 11 else s.effcut
    let w : W64 := BitVec.ofNat 64 (slice x 47 16 * 2 ^ 16 + cut * 2 ^ 11 + slice x 10 3 * 8 + boolNat (bit x 0))
    .next { s with regs := { s.regs with govctl := w } }

/-- LQRES for a launch: VALID, PEND, DIESET, DIEGEN and NCTX. -/
def State.launchWord (s : State) (l : Launch) : W64 :=
  BitVec.ofNat 64 (2 ^ 63 + boolNat l.change.isSome * 2 ^ 62 + l.dieset.toNat * 2 ^ 48 + l.diegen.toNat * 2 ^ 16
    + (s.launchCtxs l.acc).length % 2 ^ 9)

/-- LQSEQ: the query is latched at the write. -/
def execLaunchQuery (x : W64) (s : State) : Host.Outcome State Fault Refusal :=
  let found := s.launches.find? (fun l => l.ring = s.regs.lqCp && l.seq = x)
  let res := match found with | some l => s.launchWord l | none => 0
  .next { s with regs := { s.regs with lqSeq := x, lqRes := res } }

/-! ### Translation and frames (R256, R385) -/

/-- XLROOT: ignored while a launch of the ring is live. -/
def execXlrootWrite (space : BitVec 2) (x : W64) (s : State) : Host.Outcome State Fault Refusal :=
  if s.launches.any (fun l => l.ring = space) then .next s
  else .next { s with regs := { s.regs with xlroot := tput s.regs.xlroot space.toNat (x &&& 0x003FFFFFFFF80001) } }

/-- A frame slot of an address space is not FREE. -/
def State.framesUsed (s : State) (space : BitVec 2) : Bool :=
  s.frames.any (fun p => p.1 / 4096 = space.toNat) || s.framesTaken space ≠ []

def execFrameloWrite (space : BitVec 2) (x : W64) (s : State) : Host.Outcome State Fault Refusal :=
  if s.framesUsed space then .next s
  else .next (s.setTrap space.toNat { s.trap space.toNat with framelo := x &&& 0xFFFFFFFFFE000000 })

def execFramehiWrite (space : BitVec 2) (x : W64) (s : State) : Host.Outcome State Fault Refusal :=
  if s.framesUsed space || decide (4096 < slice x 44 32) then .next s
  else .next (s.setTrap space.toNat { s.trap space.toNat with framehi := x &&& 0x00001FFF000000FF })

/-! ### Retirement registers (R395) -/

/-- CTRQIX: a word of a live launch's counter record is latched, or all ones. -/
def execCounterQuery (space : BitVec 2) (x : W64) (s : State) : Host.Outcome State Fault Refusal :=
  let r := s.ret space.toNat
  let ix := slice x 5 0
  let v : W64 := match s.launches.find? (fun l => l.ring = space && l.seq = r.ctrqSeq) with
    | some l => l.counterWord 0 ix
    | none => BitVec.allOnes 64
  .next (s.setRet space.toNat { r with ctrqIx := BitVec.ofNat 6 ix, ctrqRes := v })

def execCtrdumpWrite (space : BitVec 2) (x : W64) (s : State) : Host.Outcome State Fault Refusal :=
  let log := slice x 31 28
  if log < 2 ∨ 8 < log then .next s
  else .next (s.setRet space.toNat { s.ret space.toNat with ctrDump := x &&& 0x000003FFF0000001 })

/-- EVMASK of an address space. -/
def RetRegs.evmask (r : RetRegs) : Nat := slice r.trhi 63 48

def execTrloWrite (space : BitVec 2) (x : W64) (s : State) : Host.Outcome State Fault Refusal :=
  let r := s.ret space.toNat
  if r.evmask ≠ 0 then .next s else .next (s.setRet space.toNat { r with trlo := x &&& 0xFFFFFFFFFFFFF000 })

/-- TRHI: while EVMASK is not zero, a write sets EVMASK alone. -/
def execTrhiWrite (space : BitVec 2) (x : W64) (s : State) : Host.Outcome State Fault Refusal :=
  let r := s.ret space.toNat
  let w := if r.evmask ≠ 0 then putBits r.trhi 63 48 (slice x 63 48) else x &&& 0xFFFF01F0000000FF
  .next (s.setRet space.toNat { r with trhi := w })

/-! ### Registers with no behaviour of their own (R5) -/

/-- A register at its place in a block, and the block's number. -/
def blockOf (base size off : Nat) : Nat × Nat := ((off - base) / size, (off - base) % size)

def State.setRegs (s : State) (r : Regs) : State := { s with regs := r }

/-- A write of a register whose fields are plain RW or W1C fields; any other offset is read-only, reserved, or written by an event of its
own. (DESIGN CHOICE, log 9; DESIGN CHOICE, log 56; DEDUCED, log 60) -/
def State.writePlain (s : State) (off : Nat) (x : W64) : State :=
  let r := s.regs
  if off = 0x808 then s.setRegs { r with scrub := x &&& 0xFFFF }
  else if off = 0x810 then s.setRegs { r with errCfg := x &&& 0x000003FFF0000000 }
  else if 0x1000 ≤ off ∧ off < 0x1400 then
    let (n, o) := blockOf 0x1000 0x100 off
    let c := s.cp n
    if o = 0x28 then (s.setCp n { c with cfgErr := c.cfgErr && !bit x 3, seqErr := c.seqErr && !bit x 2 }).writeHalt n (bit x 0) else s
  else if off = 0x2010 then s.setRegs { r with lqCp := BitVec.ofNat 2 (slice x 1 0) }
  else if 0x2100 ≤ off ∧ off < 0x2200 then
    if s.expert && off % 8 = 0 then s.setRegs { r with effRank := tput r.effRank ((off - 0x2100) / 8) (BitVec.ofNat 5 (slice x 4 0)) } else s
  else if off = 0x3000 then s.modWrite x
  else if off = 0x3008 then s.setRegs { r with modPa := x &&& 0x003FFFFFFFFFFF00 }
  else if off = 0x3010 then s.setRegs { r with modSize := x.setWidth 32 }
  else if off = 0x3018 then s.setRegs { r with modErr := r.modErr && !bit x 2 }
  else if off = 0x3020 then s.setRegs { r with modQ := BitVec.ofNat 12 (slice x 11 0) }
  else if off = 0x4020 then s.setRegs { r with tlbiVa := x &&& 0x0FFFFFFFFFFFFFFF }
  else if off = 0x4028 then s.setRegs { r with tlbiCnt := x &&& 0x000000FFFFFFFFFF }
  else if 0x5000 ≤ off ∧ off < 0x5100 then
    let (n, o) := blockOf 0x5000 0x40 off
    let t := s.trap n
    if o = 0 then s.setTrap n { t with hblo := x }
    else if o = 8 then s.setTrap n { t with hbctl := x &&& 0x03FF0000000000FF }
    else if o = 0x20 then s.setTrap n { t with flog := x &&& 0x000003FFF0000000 }
    else s
  else if 0x7000 ≤ off ∧ off < 0x7100 then
    let (n, o) := blockOf 0x7000 0x40 off
    if o = 0x28 then s.setRet n { s.ret n with ctrqSeq := x } else s
  else if 0x7A10 ≤ off ∧ off < 0x7A30 then
    if off % 8 = 0 then s.setIdent { r.ident with nonce := tput r.ident.nonce ((off - 0x7A10) / 8) x } else s
  else if 0x8000 ≤ off ∧ off % 8 = 0 then s.setRegs { r with peers := tput r.peers ((off - 0x8000) / 8) (x &&& 0xC000FFFFFFFFFFFF) }
  else s

/-- A write of a plain management register. (DESIGN CHOICE, log 56) -/
def execRegisterWrite (offset : BitVec 16) (x : W64) (s : State) : Host.Outcome State Fault Refusal := .next (s.writePlain offset.toNat x)

/-! ### Reads (R5) -/

/-- The registers of a cluster (R418). (DEDUCED, log 16) -/
def State.readToll (s : State) (n o : Nat) : W64 :=
  let c := s.cluster n
  if o = 0 then c.tollCfg
  else if o = 8 then c.tollCost
  else if o = 0x10 then BitVec.ofNat 64 (c.shift * 2 ^ 32 + wrap 32 c.began)
  else if o = 0x18 then BitVec.ofNat 64 (c.vop.toNat * 256 + c.margin.toNat)
  else 0

/-- The registers of a command processor (R93). -/
def State.readCp (s : State) (n o : Nat) : W64 :=
  let c := s.cp n
  if o = 0 then c.ring
  else if o = 8 then BitVec.ofNat 64 (c.sqTail.toNat * 65536 + c.sqHead.toNat)
  else if o = 0x10 then BitVec.ofNat 64 (c.cqHead.toNat * 65536 + c.cqTail.toNat)
  else if o = 0x18 then c.subSeq
  else if o = 0x20 then c.cmpSeq
  else if o = 0x28 then BitVec.ofNat 64 (boolNat c.cfgErr * 8 + boolNat c.seqErr * 4 + boolNat c.halted * 2 + boolNat c.halt)
  else 0

/-- The trap registers of an address space (R385). -/
def State.readTrap (s : State) (n o : Nat) : W64 :=
  let t := s.trap n
  if o = 0 then t.hblo
  else if o = 8 then t.hbctl
  else if o = 0x10 then t.framelo
  else if o = 0x18 then t.framehi
  else if o = 0x20 then t.flog
  else if o = 0x28 then t.flogTail
  else if o = 0x30 then BitVec.ofNat 64 (s.framesFree (BitVec.ofNat 2 n))
  else 0

/-- DRCTL and DRSTAT of a die (R385). -/
def State.readReset (s : State) (d o : Nat) : W64 :=
  let x := s.die d
  if o = 0 then BitVec.ofNat 64 (boolNat x.auto * 8 + boolNat x.mode * 4)
  else BitVec.ofNat 64 (x.count.toNat * 2 ^ 48 + x.cause.toNat * 2 ^ 40 + x.result.toNat * 16 + x.phase.toNat)

/-- The retirement registers of an address space (R395). -/
def State.readRet (s : State) (n o : Nat) : W64 :=
  let r := s.ret n
  if o = 0 then r.ctrDump
  else if o = 8 then r.dumpTail
  else if o = 0x10 then r.trlo
  else if o = 0x18 then r.trhi
  else if o = 0x20 then r.trTail
  else if o = 0x28 then r.ctrqSeq
  else if o = 0x30 then r.ctrqIx.setWidth 64
  else r.ctrqRes

/-- The identity registers (R415). -/
def State.readIdent (s : State) (off : Nat) : W64 :=
  let i := s.regs.ident
  if off = 0x7A00 then BitVec.ofNat 64 (boolNat i.idSet * 2 ^ 63 + i.bootIdx.toNat)
  else if off = 0x7A08 then BitVec.ofNat 64 (i.attPage.toNat * 2 ^ 32)
  else if off < 0x7A30 then tgetD i.nonce ((off - 0x7A10) / 8) 0
  else if off = 0x7A30 then BitVec.ofNat 64 (i.count.toNat * 2 ^ 48 + i.result.toNat * 2 + boolNat i.busy)
  else if off = 0x7A38 then BitVec.ofNat 64 (i.fwPa.toNat * 4096 + i.fwStat.toNat)
  else 0

/-- What a read of the management block returns. Reserved and write-only fields read as zero, and so does an offset that no map gives or
that is no multiple of 8. (DESIGN CHOICE, log 68) -/
def State.readReg (s : State) (off : Nat) : W64 :=
  let r := s.regs
  if off % 8 ≠ 0 then 0
  else if off = 0 then s.devshape
  else if 0x400 ≤ off ∧ off < 0x800 then s.readToll (blockOf 0x400 0x20 off).1 (blockOf 0x400 0x20 off).2
  else if off = 0x800 then r.powerctl
  else if off = 0x808 then r.scrub
  else if off = 0x810 then r.errCfg
  else if off = 0x818 then r.errTail
  else if off = 0x820 then BitVec.ofNat 64 (r.tmax.toNat * 2 ^ 56 + boolNat r.throttle)
  else if 0x1000 ≤ off ∧ off < 0x1400 then s.readCp (blockOf 0x1000 0x100 off).1 (blockOf 0x1000 0x100 off).2
  else if off = 0x2000 then r.govctl
  else if off = 0x2008 then r.lqSeq
  else if off = 0x2010 then r.lqCp.setWidth 64
  else if off = 0x2018 then r.lqRes
  else if 0x2100 ≤ off ∧ off < 0x2200 then BitVec.ofNat 64 (s.effRank ((off - 0x2100) / 8))
  else if off = 0x3008 then r.modPa
  else if off = 0x3010 then r.modSize.setWidth 64
  else if off = 0x3018 then BitVec.ofNat 64 (boolNat r.modErr * 4 + boolNat r.modBusy.isSome * 2)
  else if off = 0x3020 then r.modQ.setWidth 64
  else if off = 0x3028 then s.modQuery
  else if off = 0x3030 then r.seqDepth.setWidth 64
  else if 0x4000 ≤ off ∧ off < 0x4020 then s.xlroot (BitVec.ofNat 2 ((off - 0x4000) / 8))
  else if off = 0x4020 then r.tlbiVa
  else if off = 0x4028 then r.tlbiCnt
  else if off = 0x4038 then BitVec.ofNat 64 (boolNat r.tlbiBusy)
  else if 0x5000 ≤ off ∧ off < 0x5100 then s.readTrap (blockOf 0x5000 0x40 off).1 (blockOf 0x5000 0x40 off).2
  else if 0x6000 ≤ off ∧ off < 0x6080 then s.readReset (blockOf 0x6000 0x10 off).1 (blockOf 0x6000 0x10 off).2
  else if 0x7000 ≤ off ∧ off < 0x7100 then s.readRet (blockOf 0x7000 0x40 off).1 (blockOf 0x7000 0x40 off).2
  else if off = 0x7100 then r.hkEnergy
  else if off = 0x7108 then r.modEnergy
  else if 0x7800 ≤ off ∧ off < 0x7880 then
    let f := tgetD r.finzu ((off - 0x7800) / 8) ⟨0, 0, 0⟩
    BitVec.ofNat 64 (f.retrains.toNat * 2 ^ 48 + f.remote.toNat * 2 ^ 16 + f.state.toNat)
  else if 0x7A00 ≤ off ∧ off < 0x7A40 then s.readIdent off
  else if 0x8000 ≤ off ∧ off < 0x10000 then tgetD r.peers ((off - 0x8000) / 8) 0
  else 0

end Sys2Proof.Machine
end

