-- ==== Sys2Proof/Machine/Dispatch.lean ====
section
/-! DEFINITION. One arm for each instruction and event of the module, each a call of its own meaning. -/

namespace Sys2Proof.Machine

/-- What an instruction or an event does to the module. -/
def exec (i : Instr) (s : State) : Host.Outcome State Fault Refusal :=
  match i with
  | .addRegister t d a b => Sys2Proof.Machine.execAddRegister t d a b s
  | .addLiteral t d a l => Sys2Proof.Machine.execAddLiteral t d a l s
  | .subRegister t d a b => Sys2Proof.Machine.execSubRegister t d a b s
  | .subLiteral t d a l => Sys2Proof.Machine.execSubLiteral t d a l s
  | .mulRegister t d a b => Sys2Proof.Machine.execMulRegister t d a b s
  | .mulLiteral t d a l => Sys2Proof.Machine.execMulLiteral t d a l s
  | .mulhRegister t d a b => Sys2Proof.Machine.execMulhRegister t d a b s
  | .mulhLiteral t d a l => Sys2Proof.Machine.execMulhLiteral t d a l s
  | .divRegister t d a b => Sys2Proof.Machine.execDivRegister t d a b s
  | .divLiteral t d a l => Sys2Proof.Machine.execDivLiteral t d a l s
  | .remRegister t d a b => Sys2Proof.Machine.execRemRegister t d a b s
  | .remLiteral t d a l => Sys2Proof.Machine.execRemLiteral t d a l s
  | .andRegister t d a b => Sys2Proof.Machine.execAndRegister t d a b s
  | .andLiteral t d a l => Sys2Proof.Machine.execAndLiteral t d a l s
  | .orRegister t d a b => Sys2Proof.Machine.execOrRegister t d a b s
  | .orLiteral t d a l => Sys2Proof.Machine.execOrLiteral t d a l s
  | .xorRegister t d a b => Sys2Proof.Machine.execXorRegister t d a b s
  | .xorLiteral t d a l => Sys2Proof.Machine.execXorLiteral t d a l s
  | .shlRegister t d a b => Sys2Proof.Machine.execShlRegister t d a b s
  | .shlLiteral t d a l => Sys2Proof.Machine.execShlLiteral t d a l s
  | .shrRegister t d a b => Sys2Proof.Machine.execShrRegister t d a b s
  | .shrLiteral t d a l => Sys2Proof.Machine.execShrLiteral t d a l s
  | .minRegister t d a b => Sys2Proof.Machine.execMinRegister t d a b s
  | .minLiteral t d a l => Sys2Proof.Machine.execMinLiteral t d a l s
  | .maxRegister t d a b => Sys2Proof.Machine.execMaxRegister t d a b s
  | .maxLiteral t d a l => Sys2Proof.Machine.execMaxLiteral t d a l s
  | .cmpRegister r t d a b => Sys2Proof.Machine.execCmpRegister r t d a b s
  | .cmpLiteral r t d a l => Sys2Proof.Machine.execCmpLiteral r t d a l s
  | .movRegister t d a => Sys2Proof.Machine.execMovRegister t d a s
  | .movLiteral t d l => Sys2Proof.Machine.execMovLiteral t d l s
  | .clz t d a => Sys2Proof.Machine.execClz t d a s
  | .popc t d a => Sys2Proof.Machine.execPopc t d a s
  | .sel d c a b => Sys2Proof.Machine.execSel d c a b s
  | .kop d a b table => Sys2Proof.Machine.execKop d a b table s
  | .ext signed d a n => Sys2Proof.Machine.execExt signed d a n s
  | .lea d a b sh => Sys2Proof.Machine.execLea d a b sh s
  | .ld t d a x => Sys2Proof.Machine.execLd t d a x s
  | .st t d a x => Sys2Proof.Machine.execSt t d a x s
  | .atom narrow op d a c x => Sys2Proof.Machine.execAtom narrow op d a c x s
  | .cas narrow d a c x => Sys2Proof.Machine.execCas narrow d a c x s
  | .br c k l => Sys2Proof.Machine.execBr c k l s
  | .brr c k a => Sys2Proof.Machine.execBrr c k a s
  | .call d l => Sys2Proof.Machine.execCall d l s
  | .callr d a => Sys2Proof.Machine.execCallr d a s
  | .loop d l => Sys2Proof.Machine.execLoop d l s
  | .ipf lvl n l => Sys2Proof.Machine.execIpf lvl n l s
  | .ipfr lvl n a => Sys2Proof.Machine.execIpfr lvl n a s
  | .sysrd d l => Sys2Proof.Machine.execSysrd d l s
  | .syswr a l => Sys2Proof.Machine.execSyswr a l s
  | .yield l => Sys2Proof.Machine.execYield l s
  | .step => Sys2Proof.Machine.execStep s
  | .taskend => Sys2Proof.Machine.execTaskend s
  | .trap l => Sys2Proof.Machine.execTrap l s
  | .nop => Sys2Proof.Machine.execNop s
  | .adr d l => Sys2Proof.Machine.execAdr d l s
  | .emit n l => Sys2Proof.Machine.execEmit n l s
  | .emitM die n a len => Sys2Proof.Machine.execEmitM die n a len s
  | .captBegin l => Sys2Proof.Machine.execCaptBegin l s
  | .captEnd => Sys2Proof.Machine.execCaptEnd s
  | .captDrop l => Sys2Proof.Machine.execCaptDrop l s
  | .captLoad l => Sys2Proof.Machine.execCaptLoad l s
  | .replay l => Sys2Proof.Machine.execReplay l s
  | .replayM die a l => Sys2Proof.Machine.execReplayM die a l s
  | .hset n a => Sys2Proof.Machine.execHset n a s
  | .vrd d => Sys2Proof.Machine.execVrd d s
  | .vtest k => Sys2Proof.Machine.execVtest k s
  | .swait l => Sys2Proof.Machine.execSwait l s
  | .srd d n => Sys2Proof.Machine.execSrd d n s
  | .fwaitAny d a => Sys2Proof.Machine.execFwaitAny d a s
  | .fwaitAll d a => Sys2Proof.Machine.execFwaitAll d a s
  | .fwaitFfr d a => Sys2Proof.Machine.execFwaitFfr d a s
  | .ftest d f => Sys2Proof.Machine.execFtest d f s
  | .ftestAddr d f => Sys2Proof.Machine.execFtestAddr d f s
  | .fcancel f => Sys2Proof.Machine.execFcancel f s
  | .fstore f a x => Sys2Proof.Machine.execFstore f a x s
  | .fload tv f a gt len => Sys2Proof.Machine.execFload tv f a gt len s
  | .freg a b c x => Sys2Proof.Machine.execFreg a b c x s
  | .fsetInit n a x => Sys2Proof.Machine.execFsetInit n a x s
  | .fsetRes a b x => Sys2Proof.Machine.execFsetRes a b x s
  | .fsetCan a x => Sys2Proof.Machine.execFsetCan a x s
  | .spawn a x => Sys2Proof.Machine.execSpawn a x s
  | .spawnMask a c x => Sys2Proof.Machine.execSpawnMask a c x s
  | .spawnRoot a x => Sys2Proof.Machine.execSpawnRoot a x s
  | .jraise l => Sys2Proof.Machine.execJraise l s
  | .bquery d l => Sys2Proof.Machine.execBquery d l s
  | .flInit win a c l => Sys2Proof.Machine.execFlInit win a c l s
  | .flAcq d l => Sys2Proof.Machine.execFlAcq d l s
  | .flCommit a x => Sys2Proof.Machine.execFlCommit a x s
  | .flCommitF f a x => Sys2Proof.Machine.execFlCommitF f a x s
  | .flWait d l => Sys2Proof.Machine.execFlWait d l s
  | .flRel a x => Sys2Proof.Machine.execFlRel a x s
  | .flRelF f a x => Sys2Proof.Machine.execFlRelF f a x s
  | .barCl => Sys2Proof.Machine.execBarCl s
  | .barDie n => Sys2Proof.Machine.execBarDie n s
  | .mon d a x => Sys2Proof.Machine.execMon d a x s
  | .mwait d a => Sys2Proof.Machine.execMwait d a s
  | .wpSet d a x => Sys2Proof.Machine.execWpSet d a x s
  | .wpClr a => Sys2Proof.Machine.execWpClr a s
  | .copy f a b x => Sys2Proof.Machine.execCopy f a b x s
  | .gather tv f a b c gt x => Sys2Proof.Machine.execGather tv f a b c gt x s
  | .scatter tv f a b c gt x => Sys2Proof.Machine.execScatter tv f a b c gt x s
  | .spmm set f a b c x => Sys2Proof.Machine.execSpmm set f a b c x s
  | .mergeU tv dz f a b c gt x => Sys2Proof.Machine.execMergeU tv dz f a b c gt x s
  | .mergeI tv f a b c gt x => Sys2Proof.Machine.execMergeI tv f a b c gt x s
  | .clBcast f a b x => Sys2Proof.Machine.execClBcast f a b x s
  | .clReduce op f a b x => Sys2Proof.Machine.execClReduce op f a b x s
  | .clAllred op f a b x => Sys2Proof.Machine.execClAllred op f a b x s
  | .clGather f a b x => Sys2Proof.Machine.execClGather f a b x s
  | .clScatter f a b x => Sys2Proof.Machine.execClScatter f a b x s
  | .clA2a f a b x => Sys2Proof.Machine.execClA2a f a b x s
  | .wback f a b x => Sys2Proof.Machine.execWback f a b x s
  | .dropr f a b x => Sys2Proof.Machine.execDropr f a b x s
  | .fill f a b x => Sys2Proof.Machine.execFill f a b x s
  | .iadd w => Sys2Proof.Machine.execIadd w s
  | .isub w => Sys2Proof.Machine.execIsub w s
  | .imul w => Sys2Proof.Machine.execImul w s
  | .imulh w => Sys2Proof.Machine.execImulh w s
  | .imad w => Sys2Proof.Machine.execImad w s
  | .idiv w => Sys2Proof.Machine.execIdiv w s
  | .irem w => Sys2Proof.Machine.execIrem w s
  | .imin w => Sys2Proof.Machine.execImin w s
  | .imax w => Sys2Proof.Machine.execImax w s
  | .iabs w => Sys2Proof.Machine.execIabs w s
  | .laneAnd w => Sys2Proof.Machine.execLaneAnd w s
  | .laneOr w => Sys2Proof.Machine.execLaneOr w s
  | .laneXor w => Sys2Proof.Machine.execLaneXor w s
  | .laneShl w => Sys2Proof.Machine.execLaneShl w s
  | .laneShr w => Sys2Proof.Machine.execLaneShr w s
  | .laneClz w => Sys2Proof.Machine.execLaneClz w s
  | .lanePopc w => Sys2Proof.Machine.execLanePopc w s
  | .bfx w => Sys2Proof.Machine.execBfx w s
  | .bfi w => Sys2Proof.Machine.execBfi w s
  | .icmp w => Sys2Proof.Machine.execIcmp w s
  | .laneSel w => Sys2Proof.Machine.execLaneSel w s
  | .laneMov w => Sys2Proof.Machine.execLaneMov w s
  | .affAdd w => Sys2Proof.Machine.execAffAdd w s
  | .affSub w => Sys2Proof.Machine.execAffSub w s
  | .affMul w => Sys2Proof.Machine.execAffMul w s
  | .affShl w => Sys2Proof.Machine.execAffShl w s
  | .affMk w => Sys2Proof.Machine.execAffMk w s
  | .affStr w => Sys2Proof.Machine.execAffStr w s
  | .promQa w => Sys2Proof.Machine.execPromQa w s
  | .promQv w => Sys2Proof.Machine.execPromQv w s
  | .promAv w => Sys2Proof.Machine.execPromAv w s
  | .xtr w => Sys2Proof.Machine.execXtr w s
  | .mAnd w => Sys2Proof.Machine.execMAnd w s
  | .mOr w => Sys2Proof.Machine.execMOr w s
  | .mXor w => Sys2Proof.Machine.execMXor w s
  | .mNot w => Sys2Proof.Machine.execMNot w s
  | .mFromq w => Sys2Proof.Machine.execMFromq w s
  | .mToq w => Sys2Proof.Machine.execMToq w s
  | .lexit w => Sys2Proof.Machine.execLexit w s
  | .shfl w => Sys2Proof.Machine.execShfl w s
  | .shflRot w => Sys2Proof.Machine.execShflRot w s
  | .shflXor w => Sys2Proof.Machine.execShflXor w s
  | .bcast w => Sys2Proof.Machine.execBcast w s
  | .redAdd w => Sys2Proof.Machine.execRedAdd w s
  | .redMin w => Sys2Proof.Machine.execRedMin w s
  | .redMax w => Sys2Proof.Machine.execRedMax w s
  | .redAnd w => Sys2Proof.Machine.execRedAnd w s
  | .redOr w => Sys2Proof.Machine.execRedOr w s
  | .scanAdd w => Sys2Proof.Machine.execScanAdd w s
  | .scanMax w => Sys2Proof.Machine.execScanMax w s
  | .vote w => Sys2Proof.Machine.execVote w s
  | .isect w => Sys2Proof.Machine.execIsect w s
  | .compact w => Sys2Proof.Machine.execCompact w s
  | .expand w => Sys2Proof.Machine.execExpand w s
  | .fadd w => Sys2Proof.Machine.execFadd w s
  | .fsub w => Sys2Proof.Machine.execFsub w s
  | .fmul w => Sys2Proof.Machine.execFmul w s
  | .fma w => Sys2Proof.Machine.execFma w s
  | .fnma w => Sys2Proof.Machine.execFnma w s
  | .fdiv w => Sys2Proof.Machine.execFdiv w s
  | .fsqrt w => Sys2Proof.Machine.execFsqrt w s
  | .fmin w => Sys2Proof.Machine.execFmin w s
  | .fmax w => Sys2Proof.Machine.execFmax w s
  | .fabs w => Sys2Proof.Machine.execFabs w s
  | .fneg w => Sys2Proof.Machine.execFneg w s
  | .fcmp w => Sys2Proof.Machine.execFcmp w s
  | .fclass w => Sys2Proof.Machine.execFclass w s
  | .fsgn w => Sys2Proof.Machine.execFsgn w s
  | .frnd w => Sys2Proof.Machine.execFrnd w s
  | .fscale w => Sys2Proof.Machine.execFscale w s
  | .fgetexp w => Sys2Proof.Machine.execFgetexp w s
  | .frcp w => Sys2Proof.Machine.execFrcp w s
  | .frsq w => Sys2Proof.Machine.execFrsq w s
  | .fexp2 w => Sys2Proof.Machine.execFexp2 w s
  | .flog2 w => Sys2Proof.Machine.execFlog2 w s
  | .fsin w => Sys2Proof.Machine.execFsin w s
  | .fcos w => Sys2Proof.Machine.execFcos w s
  | .ftanh w => Sys2Proof.Machine.execFtanh w s
  | .fsigm w => Sys2Proof.Machine.execFsigm w s
  | .ferf w => Sys2Proof.Machine.execFerf w s
  | .cvt w => Sys2Proof.Machine.execCvt w s
  | .cvtBlk w => Sys2Proof.Machine.execCvtBlk w s
  | .bscale w => Sys2Proof.Machine.execBscale w s
  | .planePk w => Sys2Proof.Machine.execPlanePk w s
  | .planeUp w => Sys2Proof.Machine.execPlaneUp w s
  | .laneLd w => Sys2Proof.Machine.execLaneLd w s
  | .laneSt w => Sys2Proof.Machine.execLaneSt w s
  | .ldSp w => Sys2Proof.Machine.execLdSp w s
  | .stSp w => Sys2Proof.Machine.execStSp w s
  | .ldWin w => Sys2Proof.Machine.execLdWin w s
  | .stWin w => Sys2Proof.Machine.execStWin w s
  | .laneAtom w => Sys2Proof.Machine.execLaneAtom w s
  | .laneCas w => Sys2Proof.Machine.execLaneCas w s
  | .ldcp w => Sys2Proof.Machine.execLdcp w s
  | .stcp w => Sys2Proof.Machine.execStcp w s
  | .pref w => Sys2Proof.Machine.execPref w s
  | .sgath w => Sys2Proof.Machine.execSgath w s
  | .sscat w => Sys2Proof.Machine.execSscat w s
  | .hist w => Sys2Proof.Machine.execHist w s
  | .accRd w => Sys2Proof.Machine.execAccRd w s
  | .accWr w => Sys2Proof.Machine.execAccWr w s
  | .accClr w => Sys2Proof.Machine.execAccClr w s
  | .mma w => Sys2Proof.Machine.execMma w s
  | .contextForm n => Sys2Proof.Machine.execContextForm n s
  | .contextPick n => Sys2Proof.Machine.execContextPick n s
  | .contextUnblock n slot => Sys2Proof.Machine.execContextUnblock n slot s
  | .watchdog n => Sys2Proof.Machine.execWatchdog n s
  | .portOperationStart n port => Sys2Proof.Machine.execPortOperationStart n port s
  | .portWordWrite n port => Sys2Proof.Machine.execPortWordWrite n port s
  | .replayReadback n slot => Sys2Proof.Machine.execReplayReadback n slot s
  | .voteReady n slot => Sys2Proof.Machine.execVoteReady n slot s
  | .codeFillArrival lvl unit line o => Sys2Proof.Machine.execCodeFillArrival lvl unit line o s
  | .pageWalkDone die space vpn o => Sys2Proof.Machine.execPageWalkDone die space vpn o s
  | .accessPerformed id o => Sys2Proof.Machine.execAccessPerformed id o s
  | .accessAcknowledgement id => Sys2Proof.Machine.execAccessAcknowledgement id s
  | .engineCommandStart id => Sys2Proof.Machine.execEngineCommandStart id s
  | .slotResolve n slot f => Sys2Proof.Machine.execSlotResolve n slot f s
  | .mmaAccept id => Sys2Proof.Machine.execMmaAccept id s
  | .mmaStep n bay => Sys2Proof.Machine.execMmaStep n bay s
  | .barrierRelease launch die b => Sys2Proof.Machine.execBarrierRelease launch die b s
  | .completionPost id o => Sys2Proof.Machine.execCompletionPost id o s
  | .stopDrainEnd n slot => Sys2Proof.Machine.execStopDrainEnd n slot s
  | .stuck n slot => Sys2Proof.Machine.execStuck n slot s
  | .preemptionRequest n => Sys2Proof.Machine.execPreemptionRequest n s
  | .frameWrite n slot => Sys2Proof.Machine.execFrameWrite n slot s
  | .saveDrainLimit n slot => Sys2Proof.Machine.execSaveDrainLimit n slot s
  | .frameRestore n => Sys2Proof.Machine.execFrameRestore n s
  | .frameResume space index => Sys2Proof.Machine.execFrameResume space index s
  | .frameDiscard space index => Sys2Proof.Machine.execFrameDiscard space index s
  | .bargeAging launch push => Sys2Proof.Machine.execBargeAging launch push s
  | .dieGrant launch => Sys2Proof.Machine.execDieGrant launch s
  | .grantWaitCap launch => Sys2Proof.Machine.execGrantWaitCap launch s
  | .dieAddRequest launch => Sys2Proof.Machine.execDieAddRequest launch s
  | .dieWithdrawRequest launch => Sys2Proof.Machine.execDieWithdrawRequest launch s
  | .stealRequest n => Sys2Proof.Machine.execStealRequest n s
  | .stealAnswer n => Sys2Proof.Machine.execStealAnswer n s
  | .hotspotMigration n slot => Sys2Proof.Machine.execHotspotMigration n slot s
  | .submissionExamine cp => Sys2Proof.Machine.execSubmissionExamine cp s
  | .launch launch o => Sys2Proof.Machine.execLaunch launch o s
  | .flush cmd => Sys2Proof.Machine.execFlush cmd s
  | .inval cmd => Sys2Proof.Machine.execInval cmd s
  | .bind cmd => Sys2Proof.Machine.execBind cmd s
  | .unbind cmd => Sys2Proof.Machine.execUnbind cmd s
  | .abort cmd => Sys2Proof.Machine.execAbort cmd s
  | .mark cmd => Sys2Proof.Machine.execMark cmd s
  | .completionRecordPost cp => Sys2Proof.Machine.execCompletionRecordPost cp s
  | .jobEnd launch => Sys2Proof.Machine.execJobEnd launch s
  | .cpringWrite cp x => Sys2Proof.Machine.execCpringWrite cp x s
  | .sqtailWrite cp x => Sys2Proof.Machine.execSqtailWrite cp x s
  | .cqheadWrite cp x => Sys2Proof.Machine.execCqheadWrite cp x s
  | .haltRequest cp => Sys2Proof.Machine.execHaltRequest cp s
  | .haltResume cp => Sys2Proof.Machine.execHaltResume cp s
  | .govctlWrite x => Sys2Proof.Machine.execGovctlWrite x s
  | .launchQuery x => Sys2Proof.Machine.execLaunchQuery x s
  | .makelive x => Sys2Proof.Machine.execMakelive x s
  | .unload x => Sys2Proof.Machine.execUnload x s
  | .modulePurge m => Sys2Proof.Machine.execModulePurge m s
  | .moduleFree m => Sys2Proof.Machine.execModuleFree m s
  | .fetchctlWrite x => Sys2Proof.Machine.execFetchctlWrite x s
  | .xlrootWrite space x => Sys2Proof.Machine.execXlrootWrite space x s
  | .tlbDrop x => Sys2Proof.Machine.execTlbDrop x s
  | .tlbDropDone => Sys2Proof.Machine.execTlbDropDone s
  | .warmReset die x => Sys2Proof.Machine.execWarmReset die x s
  | .resetStopLimit die => Sys2Proof.Machine.execResetStopLimit die s
  | .quiesce die => Sys2Proof.Machine.execQuiesce die s
  | .writeback die => Sys2Proof.Machine.execWriteback die s
  | .isolate die => Sys2Proof.Machine.execIsolate die s
  | .retrain die ok => Sys2Proof.Machine.execRetrain die ok s
  | .test die failed => Sys2Proof.Machine.execTest die failed s
  | .readmit die => Sys2Proof.Machine.execReadmit die s
  | .frameloWrite space x => Sys2Proof.Machine.execFrameloWrite space x s
  | .framehiWrite space x => Sys2Proof.Machine.execFramehiWrite space x s
  | .counterQuery space x => Sys2Proof.Machine.execCounterQuery space x s
  | .ctrdumpWrite space x => Sys2Proof.Machine.execCtrdumpWrite space x s
  | .trloWrite space x => Sys2Proof.Machine.execTrloWrite space x s
  | .trhiWrite space x => Sys2Proof.Machine.execTrhiWrite space x s
  | .counterSend n slot => Sys2Proof.Machine.execCounterSend n slot s
  | .energyInterval measured => Sys2Proof.Machine.execEnergyInterval measured s
  | .tollcfgWrite n x => Sys2Proof.Machine.execTollcfgWrite n x s
  | .tollcostWrite n x => Sys2Proof.Machine.execTollcostWrite n x s
  | .ratioChange n => Sys2Proof.Machine.execRatioChange n s
  | .powerInterval watts => Sys2Proof.Machine.execPowerInterval watts s
  | .powerctlWrite x => Sys2Proof.Machine.execPowerctlWrite x s
  | .throttle celsius => Sys2Proof.Machine.execThrottle celsius s
  | .thermalTrip celsius => Sys2Proof.Machine.execThermalTrip celsius s
  | .calibrationStart n => Sys2Proof.Machine.execCalibrationStart n s
  | .calibrationStep n pass => Sys2Proof.Machine.execCalibrationStep n pass s
  | .scrubLine pa inSlice o => Sys2Proof.Machine.execScrubLine pa inSlice o s
  | .linkFlitError l again => Sys2Proof.Machine.execLinkFlitError l again s
  | .linkFailure l => Sys2Proof.Machine.execLinkFailure l s
  | .finzuRetrain x => Sys2Proof.Machine.execFinzuRetrain x s
  | .finzuPortTrained port remote ok => Sys2Proof.Machine.execFinzuPortTrained port remote ok s
  | .peerRequest peer port r => Sys2Proof.Machine.execPeerRequest peer port r s
  | .hostFlagWindowAccess r => Sys2Proof.Machine.execHostFlagWindowAccess r s
  | .hostApertureAccess r o => Sys2Proof.Machine.execHostApertureAccess r o s
  | .hostLinkDown => Sys2Proof.Machine.execHostLinkDown s
  | .idbootWrite x => Sys2Proof.Machine.execIdbootWrite x s
  | .attestationRequest x => Sys2Proof.Machine.execAttestationRequest x s
  | .attestationReportDone => Sys2Proof.Machine.execAttestationReportDone s
  | .firmwareCheck x => Sys2Proof.Machine.execFirmwareCheck x s
  | .firmwareCheckDone => Sys2Proof.Machine.execFirmwareCheckDone s
  | .powerOn => Sys2Proof.Machine.execPowerOn s
  | .powerOff => Sys2Proof.Machine.execPowerOff s
  | .mwaitLimit n slot => Sys2Proof.Machine.execMwaitLimit n slot s
  | .registerWrite offset x => Sys2Proof.Machine.execRegisterWrite offset x s
  | .tollRefill n => Sys2Proof.Machine.execTollRefill n s
  | .hostLinkUp => Sys2Proof.Machine.execHostLinkUp s
  | .throttleEnd celsius => Sys2Proof.Machine.execThrottleEnd celsius s

end Sys2Proof.Machine
end

