-- ==== Sys2Proof/Machine/Loader.lean ====
section
/-! DEFINITION. Loading a module image: its layout, the checks that refuse it, and the imports that are resolved into its code and data
(R37 to R39, R130, R131). -/

namespace Sys2Proof.Machine

/-! ### The layout of an image (R37) -/

/-- The number in n bytes of an image. -/
def imageNat (bs : List Byte) (off n : Nat) : Nat := ofBytes ((bs.drop off).take n)

def align64 (n : Nat) : Nat := (n + 63) / 64 * 64

def imageEntries (bs : List Byte) : Nat := imageNat bs 0x06 2
def imageImports (bs : List Byte) : Nat := imageNat bs 0x08 4
def imageExports (bs : List Byte) : Nat := imageNat bs 0x0C 4
def imageCodeSize (bs : List Byte) : Nat := imageNat bs 0x10 8
def imageDataSize (bs : List Byte) : Nat := imageNat bs 0x18 8

/-- Each part begins on a 64-byte boundary: the entry records after the header, the imports, the exports, the code, the data. -/
def importsAt (bs : List Byte) : Nat := align64 (64 + 32 * imageEntries bs)
def exportsAt (bs : List Byte) : Nat := align64 (importsAt bs + 16 * imageImports bs)
def codeAt (bs : List Byte) : Nat := align64 (exportsAt bs + 16 * imageExports bs)
def dataAt (bs : List Byte) : Nat := align64 (codeAt bs + imageCodeSize bs)

/-- The header's fields lie in their ranges, and the image holds all its parts. (DESIGN CHOICE, log 64) -/
def headerOk (bs : List Byte) : Bool :=
  imageNat bs 0 4 = 0x444F4D5A && imageNat bs 4 2 = 1 && decide (1 ≤ imageEntries bs ∧ imageEntries bs ≤ 256)
    && imageCodeSize bs % 4 = 0 && decide (imageCodeSize bs < 2 ^ 32 ∧ imageDataSize bs < 2 ^ 32) && imageNat bs 0x30 16 = 0
    && decide (dataAt bs + imageDataSize bs ≤ bs.length)

/-! ### Records (R38, R39) -/

/-- Entry record i, and the hash of its label. -/
def imageEntry (bs : List Byte) (i : Nat) : Entry :=
  let at_ := 64 + 32 * i
  { offset := BitVec.ofNat 32 (imageNat bs at_ 4), minBays := imageNat bs (at_ + 4) 1, maxBays := imageNat bs (at_ + 5) 1,
    partMin := BitVec.ofNat 32 (imageNat bs (at_ + 8) 4), budget := imageNat bs (at_ + 0x0C) 4 }
def entryHash (bs : List Byte) (i : Nat) : Nat := imageNat bs (64 + 32 * i + 0x10) 8

def imageEntryOk (bs : List Byte) (i : Nat) : Bool :=
  (imageEntry bs i).ok && decide ((imageEntry bs i).offset.toNat < imageCodeSize bs) && partOk (imageEntry bs i).partMin && imageNat bs (64 + 32 * i + 6) 2 = 0 && imageNat bs (64 + 32 * i + 0x18) 8 = 0

/-- Export record i. -/
def imageExport (bs : List Byte) (i : Nat) : Export :=
  let at_ := exportsAt bs + 16 * i
  { hash := BitVec.ofNat 64 (imageNat bs at_ 8), offset := BitVec.ofNat 32 (imageNat bs (at_ + 8) 4), data := imageNat bs (at_ + 0x0C) 1 = 1 }

/-- An export's KIND is 0 or 1, and its label lies in its section. (DESIGN CHOICE, log 64) -/
def imageExportOk (bs : List Byte) (i : Nat) : Bool :=
  let e := imageExport bs i
  let at_ := exportsAt bs + 16 * i
  imageNat bs (at_ + 0x0C) 1 ≤ 1 && imageNat bs (at_ + 0x0D) 3 = 0
    && decide (e.offset.toNat ≤ if e.data then imageDataSize bs else imageCodeSize bs)

/-- An import record: its hash, SITE and KIND. -/
structure Import where
  hash : W64
  site : Nat
  kind : Nat
  deriving DecidableEq, Repr

def imageImport (bs : List Byte) (i : Nat) : Import :=
  let at_ := importsAt bs + 16 * i
  { hash := BitVec.ofNat 64 (imageNat bs at_ 8), site := imageNat bs (at_ + 8) 4, kind := imageNat bs (at_ + 0x0C) 1 }

/-- An import's KIND is 0 to 2, and its SITE names a 128-bit instruction of the code, or a barge of the data. (DESIGN CHOICE, log 64) -/
def imageImportOk (bs : List Byte) (i : Nat) : Bool :=
  let m := imageImport bs i
  imageNat bs (importsAt bs + 16 * i + 0x0D) 3 = 0 &&
    if m.kind ≤ 1 then m.site % 4 = 0 && decide (m.site + 16 ≤ imageCodeSize bs) && imageNat bs (codeAt bs + m.site) 1 % 4 = 3
    else m.kind = 2 && m.site % 64 = 0 && decide (m.site + 64 ≤ imageDataSize bs)

def distinct (xs : List Nat) : Bool := xs.eraseDups.length = xs.length

/-- The checks of R39 that look at the image alone. (DESIGN CHOICE, log 64) -/
def imageOk (bs : List Byte) : Bool :=
  headerOk bs && (List.range (imageEntries bs)).all (imageEntryOk bs) && (List.range (imageImports bs)).all (imageImportOk bs)
    && (List.range (imageExports bs)).all (imageExportOk bs) && distinct ((List.range (imageEntries bs)).map (entryHash bs))
    && distinct ((List.range (imageExports bs)).map (fun i => (imageExport bs i).hash.toNat))

/-- What an image offers to imports. -/
def imageLoaded (bs : List Byte) (dataVa : W72) : Loaded :=
  { exports := (List.range (imageExports bs)).map (imageExport bs),
    entries := (List.range (imageEntries bs)).map (fun i => (imageEntry bs i).offset), dataVa := dataVa }

/-! ### Imports (R39, R130) -/

/-- The export that an import matches: of the image itself, else of the lowest loaded module that has it. (DESIGN CHOICE, log 64) -/
def findExport (h : W64) : List (Nat × Loaded) → Option (Nat × Loaded × Export)
  | [] => none
  | (m, l) :: rest =>
    match l.exports.find? (fun e => e.hash = h) with
    | some e => some (m, l, e)
    | none => findExport h rest

/-- Replace bytes. -/
def patch (bs : List Byte) (off : Nat) (new : List Byte) : List Byte := bs.take off ++ new ++ bs.drop (off + new.length)

/-- One import is resolved in the image's bytes: into the 64-bit literal at SITE the distance in 4-byte units from SITE, or the data
address; into bits 43:0 of the barge at SITE the module's number and the entry's offset. None where it is refused. (DESIGN CHOICE, log 64) -/
def resolveImport (m : Nat) (all : List (Nat × Loaded)) (code data : Nat) (bs : List Byte) (i : Import) : Option (List Byte) :=
  match findExport i.hash all with
  | none => none
  | some (k, l, e) =>
    match i.kind with
    | 0 =>
      if e.data then none
      else
        let target : Int := k * 2 ^ 32 + e.offset.toNat
        let site : Int := m * 2 ^ 32 + i.site
        some (patch bs (code + i.site + 8) (toBytes 8 (BitVec.ofInt 64 ((target - site).fdiv 4)).toNat))
    | 1 =>
      if e.data then some (patch bs (code + i.site + 8) (toBytes 8 ((l.dataVa.toNat + e.offset.toNat) % 2 ^ 64))) else none
    | _ =>
      if e.data || !l.entries.contains e.offset then none
      else
        let old := imageNat bs (data + i.site) 8
        some (patch bs (data + i.site) (toBytes 8 (old / 2 ^ 44 * 2 ^ 44 + k * 2 ^ 32 + e.offset.toNat)))

def resolveAll (m : Nat) (all : List (Nat × Loaded)) (code data : Nat) : List Import → List Byte → Option (List Byte)
  | [], bs => some bs
  | i :: rest, bs =>
    match resolveImport m all code data bs i with
    | some bs => resolveAll m all code data rest bs
    | none => none

/-! ### Loading (R39, R131) -/

/-- Where code and data may be put: the code in stacked DRAM from a 256-byte boundary, the data in the module's own memory. -/
def placesOk (bs : List Byte) (pa dataPa : Nat) : Bool :=
  let last := pa + imageCodeSize bs - 1
  let end_ := dataPa + imageDataSize bs - 1
  pa % 256 = 0 && homeOf pa = .dram && homeOf last = .dram
    && (imageDataSize bs = 0 || (storedHome (homeOf dataPa) && homeOf end_ = homeOf dataPa))

/-- The modules whose exports an image may import: those whose unloading has not begun (R39, R137), this image first. -/
def State.importable (s : State) (m : Nat) (own : Loaded) : List (Nat × Loaded) :=
  (m, own) :: s.regs.loaded.filter (fun p => p.1 != m && (s.modState p.1 = .live || s.modState p.1 = .free))

/-- An image is loaded for a FREE module number: its code and data are written with every import resolved, its entry records wait for
MAKELIVE, and its exports can be imported. An image that is refused changes nothing. (DESIGN CHOICE, log 64; DEDUCED, log 65) -/
def State.loadImage (s : State) (m pa dataPa : Nat) (dataVa : W72) (bs : List Byte) : State :=
  if m = 0 || s.modState m ≠ .free || !imageOk bs || !placesOk bs pa dataPa then s
  else
    let own := imageLoaded bs dataVa
    let code := codeAt bs
    let data := dataAt bs
    match resolveAll m (s.importable m own) code data ((List.range (imageImports bs)).map (imageImport bs)) bs with
    | none => s
    | some new =>
      let s := s.deviceBytes pa ((new.drop code).take (imageCodeSize bs))
      let s := s.deviceBytes dataPa ((new.drop data).take (imageDataSize bs))
      { s with regs := { s.regs with
          staged := tput s.regs.staged m ((List.range (imageEntries bs)).map (imageEntry bs)), loaded := tput s.regs.loaded m own } }

end Sys2Proof.Machine
end

