-- ==== Sys2Proof/Machine/Turns.lean ====
section
/-! DEFINITION. What one turn of the module does, and a machine that is about to run one given instruction. -/

namespace Sys2Proof.Machine

/-- A constructor that stands for an event, and so for no word of a program. (DEDUCED, log 59) -/
def isEvent (i : Instr) : Bool := encode i = [] && (encodeLane i).isNone

/-- What a generator's or a core's cycle came to: an instruction to run, or what has happened in its place. -/
def Fetched.run_ : Fetched → Host.Outcome State Fault Refusal
  | .run i s => exec i s
  | .done s => .next s

/-- The head word of a core starts, or fails, when it is tried now (R204): it does not have to wait. (DEDUCED, log 16) -/
def tryHead (s : State) (n k : Nat) : Bool :=
  match s.core? n k with
  | none => false
  | some x =>
    match x.buf.head?.bind (fun w => decodeLane w.w) with
    | none => true
    | some i =>
      match exec i { s with focus := ⟨n, x.slot, k⟩ } with
      | .next t => match t.core? n k with | some y => y.ran || y.failed | none => true
      | _ => true

/-- Power is needed for everything but switching it on, and what the far side does to its own memory. -/
def Act.live (s : State) : Act → Bool
  | .event .powerOn => true
  | .outsideStore _ _ => true
  | _ => s.powered

/-- One act: a generator's cycle, a core's cycle, an event, the loading of an image, or a store of the far side's own. (DESIGN CHOICE, log 1) -/
def State.runAct (s : State) (a : Act) : Host.Outcome State Fault Refusal :=
  if !a.live s then .next s
  else
    match a with
    | .gen n => (s.fetchGen n.toNat).run_
    | .core n k => (s.fetchCore tryHead n.toNat k.toNat).run_
    | .event i => if isEvent i then exec i s else .next s
    | .image m pa dataPa dataVa bytes => .next (s.loadImage m.toNat pa.toNat dataPa.toNat dataVa bytes)
    | .outsideStore pa data => .next (s.outsideStore pa data)
    | .codeError n line => .next (s.codeLost n.toNat line.toNat)

/-- The next turn: module time passes, then its act is done. With nothing to come, one cycle passes. (DESIGN CHOICE, log 1) -/
def State.turn (s : State) : Host.Outcome State Fault Refusal :=
  match s.agenda with
  | [] => .next { s with now := s.now + 1 }
  | t :: rest => { s with now := s.now + t.elapse, agenda := rest }.runAct t.act

/-! ### A machine about to run one instruction -/

/-- Where the instruction of `placed` stands: offset 0 of module 1, at a place of stacked DRAM. -/
def placedPa : Nat := 0x10000

/-- The code of `placed`: one 128-byte line and more, zero but for the instruction. (DESIGN CHOICE, log 2) -/
def placedModule : Module :=
  { st := .live, pa := placedPa, size := 0x1000, entries := [{ offset := 0, minBays := 1, maxBays := 1, partMin := 1, budget := 65536 }] }

/-- The barge of `placed`: entry 0 of module 1, every other field zero. (DESIGN CHOICE, log 2) -/
def placedBarge : List W64 := [0x0000000100000000, 0, 0, 0, 0, 0, 0, 0]

/-- The launch of `placed`: admitted and granted die 0. (DESIGN CHOICE, log 2) -/
def placedLaunch (acc : Nat) : Launch :=
  { Launch.accepted acc 0 1 with part := 1, allow := 1, minDies := 1, maxDies := 1, admitted := true, granted := true, dieset := 1, expected := 1 }

/-- The machine with bytes of code placed where the next step fetches: a LIVE module holds them, a launch has die 0, and context 0 of
cluster 0 has just started its barge, holds bay 0, is in ISSUE, and finds the code's first line in its I0; the next turn is that
generator's cycle. (DESIGN CHOICE, log 2) -/
def State.placed (s : State) (code : List Byte) : State :=
  let l := placedLaunch s.accepted
  let c := { Ctx.start s.nextId l ⟨placedBarge, 0, s.now, s.pushes, none, false, none⟩ ⟨0, 1, 1, 1, 65536⟩ [0] s.now with status := .issue }
  let put (t : Tab Core) (p : Nat × Nat) : Tab Core := tput t (coreKey 0 p.1) (Core.lent 0 p.2 (s.fresh + p.2))
  let t : State :=
    { s with powered := true, agenda := [⟨0, .gen 0⟩], mem := writeBytes s.mem placedPa code, launches := s.launches ++ [l],
             accepted := s.accepted + 1, nextId := s.nextId + 1, fresh := s.fresh + 8, cores := (coresIn [0]).zipIdx.foldl put s.cores,
             code := s.code.put .i0 0 (codeLine 0x0000000100000000) false }
  let t := (t.setModule 1 placedModule).l2Drop (lineOf placedPa)
  (t.setCluster 0 { t.cluster 0 with issued := false, ratio := 0 }).setCtx 0 0 c

end Sys2Proof.Machine
end

