-- ==== Sys2Proof/Machine/Step.lean ====
section
/-! DEFINITION. One step of the module, and a state whose next step runs a given instruction. -/

namespace Sys2Proof.Machine

/-- One step: the next turn of the agenda. (DESIGN CHOICE, log 1) -/
def step (s : State) : Host.Outcome State Fault Refusal := s.turn

/-- The state with an instruction of the opcode table stored where the next step fetches. Every bit above `nbits` is zero. (DESIGN CHOICE, log 2) -/
def State.withFetchWord (s : State) (nbits w : Nat) : State := s.placed (toBytes 16 (w % 2 ^ nbits))

end Sys2Proof.Machine
end

