-- ==== Sys2Proof/Safety.lean ====
section
/-! DEFINITION. The terms that statements about the machine are made in: when an instruction is ready to run, what it leaves alone,
and the invariants of a step. -/

namespace Sys2Proof.Safety

open Sys2Proof.Machine

/-! ### Every step goes on -/

/-- An outcome that is a next state. -/
def GoesOn (o : Host.Outcome State Fault Refusal) : Prop := ∃ t, o = .next t

/-! ### Generator instructions -/

/-- The g registers that a generator instruction reads (R151). -/
def genReads : Instr → List (BitVec 6)
  | .addRegister _ _ a b | .subRegister _ _ a b | .mulRegister _ _ a b | .mulhRegister _ _ a b | .divRegister _ _ a b
  | .remRegister _ _ a b | .andRegister _ _ a b | .orRegister _ _ a b | .xorRegister _ _ a b | .shlRegister _ _ a b
  | .shrRegister _ _ a b | .minRegister _ _ a b | .maxRegister _ _ a b | .cmpRegister _ _ _ a b | .sel _ _ a b | .lea _ a b _ => [a, b]
  | .addLiteral _ _ a _ | .subLiteral _ _ a _ | .mulLiteral _ _ a _ | .mulhLiteral _ _ a _ | .divLiteral _ _ a _
  | .remLiteral _ _ a _ | .andLiteral _ _ a _ | .orLiteral _ _ a _ | .xorLiteral _ _ a _ | .shlLiteral _ _ a _
  | .shrLiteral _ _ a _ | .minLiteral _ _ a _ | .maxLiteral _ _ a _ | .cmpLiteral _ _ _ a _ | .movRegister _ _ a
  | .clz _ _ a | .popc _ _ a | .ext _ _ a _ => [a]
  | .brr _ _ a | .callr _ a | .ipfr _ _ a | .syswr a _ | .emitM _ _ a _ | .replayM _ a _ | .hset _ a => [a]
  | .loop d _ => [d]
  | .ld _ _ a _ => [a]
  | .st _ g a _ => [g, a]
  | .atom _ _ _ a g _ => [a, g]
  | .cas _ d a g _ => [a, g, d]
  | .fwaitAny _ a | .fwaitAll _ a | .fwaitFfr _ a | .fstore _ a _ | .fload _ _ a _ _ | .fsetInit _ a _ | .fsetCan a _ => [a]
  | .freg a b c _ => [a, b, c]
  | .fsetRes a b _ => [a, b]
  | .spawn a _ | .spawnRoot a _ => [a]
  | .spawnMask a c _ => [a, c]
  | .flInit _ a c _ => [a, c]
  | .flCommit a _ | .flCommitF _ a _ | .flRel a _ | .flRelF _ a _ | .mon _ a _ | .mwait _ a | .wpSet _ a _ | .wpClr a => [a]
  | .copy _ a b _ | .clBcast _ a b _ | .clReduce _ _ a b _ | .clAllred _ _ a b _ | .clGather _ a b _ | .clScatter _ a b _
  | .clA2a _ a b _ | .wback _ a b _ | .dropr _ a b _ | .fill _ a b _ => [a, b]
  | .gather _ _ a b c _ _ | .scatter _ _ a b c _ _ | .spmm _ _ a b c _ | .mergeU _ _ _ a b c _ _ | .mergeI _ _ a b c _ _ => [a, b, c]
  | _ => []

/-- The g registers that a generator instruction writes, now or when what it starts has ended (R151). -/
def genWrites : Instr → List (BitVec 6)
  | .addRegister _ d _ _ | .subRegister _ d _ _ | .mulRegister _ d _ _ | .mulhRegister _ d _ _ | .divRegister _ d _ _
  | .remRegister _ d _ _ | .andRegister _ d _ _ | .orRegister _ d _ _ | .xorRegister _ d _ _ | .shlRegister _ d _ _
  | .shrRegister _ d _ _ | .minRegister _ d _ _ | .maxRegister _ d _ _ => [d]
  | .addLiteral _ d _ _ | .subLiteral _ d _ _ | .mulLiteral _ d _ _ | .mulhLiteral _ d _ _ | .divLiteral _ d _ _
  | .remLiteral _ d _ _ | .andLiteral _ d _ _ | .orLiteral _ d _ _ | .xorLiteral _ d _ _ | .shlLiteral _ d _ _
  | .shrLiteral _ d _ _ | .minLiteral _ d _ _ | .maxLiteral _ d _ _ => [d]
  | .movRegister _ d _ | .movLiteral _ d _ | .clz _ d _ | .popc _ d _ | .sel d _ _ _ | .ext _ d _ _ | .lea d _ _ _ | .adr d _ => [d]
  | .call d _ | .callr d _ | .loop d _ | .sysrd d _ | .vrd d | .srd d _ => [d]
  | .ld _ d _ _ | .atom _ _ d _ _ _ | .cas _ d _ _ _ => [d]
  | .fwaitAny d _ | .fwaitAll d _ | .fwaitFfr d _ | .ftest d _ | .ftestAddr d _ | .bquery d _ | .flAcq d _ | .flWait d _
  | .mon d _ _ | .mwait d _ | .wpSet d _ _ => [d]
  | .fload tv _ _ gt _ => if tv then [gt] else []
  | .gather tv _ _ _ _ gt _ | .scatter tv _ _ _ _ gt _ | .mergeU tv _ _ _ _ _ gt _ | .mergeI tv _ _ _ _ gt _ => if tv then [gt] else []
  | _ => []

/-- Generator instruction i is about to run for context c, which the machine acts for: the watchdog has not fired (R169), and every
g register that i names may be read or written (R151). -/
structure Ready (s : State) (i : Instr) (n slot : Nat) (c : Ctx) : Prop where
  onCl     : s.focus.cl = n
  onSlot   : s.focus.slot = slot
  clusters : n < 32
  slots    : slot < 8
  ctx      : s.ctx? n slot = some c
  deadline : c.count ≠ c.deadline ∨ isYield i = true
  regs     : ∀ g ∈ genReads i ++ genWrites i, s.regState c g = .free

/-- The address of the next instruction, past i's payload. -/
def nextPc (i : Instr) (c : Ctx) : W64 := c.pc + BitVec.ofNat 64 (instrBytes i)

/-- What retiring i does to its context, whatever else i does: the program counter moves to pc, the watchdog count rises by one, or a
YIELD clears it (R169), the registers that i writes are no longer targets, and a program counter that does not go on to the next
instruction costs the cycle that R205 counts as BRANCH. -/
def passed (i : Instr) (c : Ctx) (pc : W64) : Ctx :=
  { c with gt := c.gt.filter (fun p => !((genWrites i).any (fun g => g.toNat = p.1))), pc := pc, bubble := decide (pc ≠ nextPc i c),
           count := if isYield i then 0 else c.count + 1, retired := c.retired + 1, wait := .none, counts := countUp c.counts cIssued 1 }

/-- A toll less a cost, as the signed 32-bit count holds it (R204). -/
def lessCost (toll cost : Int) : Int := (BitVec.ofInt 32 (toll - cost)).toInt

/-- What it does to its cluster: the generator's slice is charged, and the cycle has issued an instruction (R204). -/
def charged (k : Cluster) : Cluster := { k with toll := lessCost k.toll (slice k.costOn 7 0 : Nat), issued := true }

/-- An instruction has retired: its own context is now c', its cluster is k charged for it, and every other context and cluster is as
before. -/
structure Leaves (s : State) (n slot : Nat) (t : State) (c' : Ctx) (k : Cluster) : Prop where
  here     : t.ctx? n slot = some c'
  others   : ∀ k, k ≠ ctxKey n slot → tget t.ctxs k = tget s.ctxs k
  cluster  : t.cluster n = charged k
  clusters : ∀ m, m ≠ n → t.cluster m = s.cluster m

/-- The same, of an instruction that changes nothing else in its cluster. -/
abbrev Retired (s : State) (n slot : Nat) (t : State) (c' : Ctx) : Prop := Leaves s n slot t c' (s.cluster n)

/-- i has retired and has changed nothing but its own context, which is now c', and its cluster's toll: every other context, every
core, every special register, and every byte of memory are as before. -/
structure Alone (s : State) (n slot : Nat) (t : State) (c' : Ctx) : Prop extends Leaves s n slot t c' (s.cluster n) where
  rest     : t = { s with ctxs := t.ctxs, clusters := t.clusters }
  bytes    : ∀ pa, t.homeRead pa 1 = s.homeRead pa 1

/-- Running i retires it, writes v to g register d, and changes nothing else. -/
def WritesG (s : State) (i : Instr) (n slot : Nat) (c : Ctx) (pc : W64) (d : BitVec 6) (v : W72) : Prop :=
  ∃ t c', exec i s = .next t ∧ Alone s n slot t c' ∧ c' = { passed i c pc with g := c'.g } ∧
    c'.gv d = v ∧ ∀ g, g ≠ d → c'.gv g = c.gv g

/-- Running i retires it, writes b to condition bit d, and changes nothing else. -/
def WritesK (s : State) (i : Instr) (n slot : Nat) (c : Ctx) (d : BitVec 3) (b : Bool) : Prop :=
  ∃ t c', exec i s = .next t ∧ Alone s n slot t c' ∧ c' = { passed i c (nextPc i c) with k := c'.k } ∧
    c'.kv d = b ∧ ∀ k, k ≠ d → c'.kv k = c.kv k

/-- Running i retires it at pc, makes its context c', and changes nothing else. -/
def Becomes (s : State) (i : Instr) (n slot : Nat) (c' : Ctx) : Prop := ∃ t, exec i s = .next t ∧ Alone s n slot t c'

/-- Context c' has stopped where c stood: one record of class cls, and nothing of its registers or of its program counter has
changed (R363, R364). -/
structure Stopped (c c' : Ctx) (cls : Nat) (detail : W64) : Prop where
  blocked : c'.status = .blocked
  code    : (c'.stop.map (fun x => x.cls)) = some (BitVec.ofNat 8 cls)
  record  : ∃ r, (c'.stop.map (fun x => x.recs)) = some [r] ∧ slice (wordAt r 0) 63 56 = cls ∧ wordAt r 2 = c.pc ∧ wordAt r 3 = detail
  kept    : c'.pc = c.pc ∧ c'.g = c.g ∧ c'.k = c.k ∧ c'.count = c.count ∧ c'.retired = c.retired ∧ c'.slots = c.slots

/-- Running i raises the trap of class cls at i (R364): its own context stops there, and every byte of memory is as before. -/
def Traps (s : State) (i : Instr) (n slot : Nat) (c : Ctx) (cls : Nat) (detail : W64) : Prop :=
  ∃ t c', exec i s = .next t ∧ t.ctx? n slot = some c' ∧ Stopped c c' cls detail ∧
    (∀ k, k ≠ ctxKey n slot → tget t.ctxs k = tget s.ctxs k) ∧ t = { s with ctxs := t.ctxs, cmds := t.cmds } ∧
    ∀ pa, t.homeRead pa 1 = s.homeRead pa 1

/-- Context (n, slot) has become c', BLOCKED: the cycle counts for it, as EMITQ where its queue is full and as DEPEND elsewhere (R205),
and nothing else has changed. -/
structure BlockedOn (s t : State) (n slot : Nat) (c' : Ctx) : Prop where
  here     : t.ctx? n slot = some c'
  others   : ∀ k, k ≠ ctxKey n slot → tget t.ctxs k = tget s.ctxs k
  counts   : t.cluster n = { s.cluster n with category := some (slot, if c'.wait = .queueRoom then 6 else 5) }
  clusters : ∀ m, m ≠ n → t.cluster m = s.cluster m
  rest     : t = { s with ctxs := t.ctxs, clusters := t.clusters }

/-- Running i leaves its context BLOCKED on w, and changes nothing else but what its cluster's cycle counts. -/
def Blocks (s : State) (i : Instr) (n slot : Nat) (c : Ctx) (w : Wait) : Prop :=
  ∃ t, exec i s = .next t ∧ BlockedOn s t n slot { c with status := .blocked, since := s.now, wait := w }

/-! ### Operand types (R149) -/

/-- The width w of a type's result. -/
def width : GTy → Nat
  | .i64 | .n64 => 64
  | .i32 | .n32 => 32
  | .a72 => 72

/-- The value that a register supplies. -/
def source (t : GTy) (x : W72) : Int :=
  match t with
  | .i64 => (x.setWidth 64).toInt
  | .n64 => (x.setWidth 64).toNat
  | .i32 => (x.setWidth 32).toInt
  | .n32 => (x.setWidth 32).toNat
  | .a72 => x.toNat

/-- The value that a literal supplies: its 64 bits read as a register's are, sign-extended first for `.a72`. -/
def litSource (t : GTy) (l : GLit) : Int := source t (match t with | .a72 => l.val.signExtend 72 | _ => l.val.setWidth 72)

/-- What writing the exact result r leaves in the 72 bits: r modulo 2^w, and above it what the type's row says. -/
def written (t : GTy) (r : Int) : W72 :=
  match t with
  | .i64 => (BitVec.ofInt 64 r).signExtend 72
  | .n64 => (BitVec.ofInt 64 r).setWidth 72
  | .i32 => (BitVec.ofInt 32 r).signExtend 72
  | .n32 => (BitVec.ofInt 32 r).setWidth 72
  | .a72 => BitVec.ofInt 72 r

/-- A bitwise operation on bits w - 1:0 of two values. -/
def bitwise (f : BitVec 72 → BitVec 72 → BitVec 72) (t : GTy) (x y : Int) : Int :=
  ((f (BitVec.ofInt 72 x) (BitVec.ofInt 72 y)).toNat % 2 ^ width t : Nat)

/-- x shifted left by s, and right by s, where s is never taken modulo w. -/
def shiftLeft (t : GTy) (x : Int) (s : Nat) : Int := if width t ≤ s then 0 else x * 2 ^ s
def shiftRight (t : GTy) (x : Int) (s : Nat) : Int := if width t ≤ s then (if x < 0 then -1 else 0) else x.fdiv (2 ^ s)

/-- Whenever i is ready, running it writes v to gd and changes nothing else. -/
def Gives (s : State) (n slot : Nat) (c : Ctx) (i : Instr) (d : BitVec 6) (v : W72) : Prop :=
  Ready s i n slot c → WritesG s i n slot c (nextPc i c) d v

/-- A context that has no stop is not stopped already; only then does a trap make a first record. -/
def Running (c : Ctx) : Prop := c.stop = none

/-- A code address that a transfer from code address origin may go to (R144 step 6, R137): a word of a LIVE module's code, or of
the DRAINING module that origin lies in. -/
def CodeAt (s : State) (origin pc : W64) : Prop :=
  slice pc 63 44 = 0 ∧ slice pc 1 0 = 0 ∧ ∃ m, s.module? (slice pc 43 32) = some m ∧
    (m.st = .live ∨ (m.st = .draining ∧ slice origin 43 32 = slice pc 43 32)) ∧ slice pc 31 0 < m.size

/-- Word 0 of an instruction, as a record's DETAIL holds it (R365). -/
def firstWord (i : Instr) : W64 := ((encode i).headD 0).setWidth 64

/-- Blocks of 64 words that the capture store of cluster n holds: those of its resident entries, and of the stretches being recorded
(R182). -/
def captHeld (s : State) (n : Nat) : Nat :=
  let blocks (words : List W64) : Nat := (words.length + 63) / 64
  ((((s.cluster n).capt.filter (fun p => p.2.resident)).map (fun p => blocks p.2.words)) ++ (s.stretches n).map (fun x => blocks x.words)).sum

/-! ### Generator memory instructions (R261, R270, R285, R286) -/

/-- An address that the cluster's own TLB translates to place p, in an address space that is on: nothing waits for a walk. -/
structure Mapped (s : State) (n : Nat) (space : BitVec 2) (va : W72) (write : Bool) (p : Place) : Prop where
  on    : s.spaceOn space = true
  entry : ∃ e, tlbFind (s.cluster n).tlb space va = some e ∧ s.placeIn e va write = .ok p

/-- Its stream has room, and a nonzero mask finds every earlier word started. -/
structure MayStart (s : State) (n slot : Nat) (c : Ctx) (ann : Ann) : Prop where
  room    : s.stream c.uid ann.os.toNat < 1023
  started : ann.pm = 0 ∨ s.allStarted n slot = true

/-- The access that a generator memory instruction starts: one part of `size` bytes at its place, under its annotation, in its place in
the context's emission order (R271, R285). -/
def started (s : State) (n slot : Nat) (c : Ctx) (ann : Ann) (op : AccOp) (dest : Dest) (va : W72) (size : Nat) (p : Place)
    (data cmp : BitVec 128) : Access :=
  { id := s.nextId, cl := n, slot := slot, uid := c.uid, agent := .gen, stream := ann.os, pm := ann.pm, scope := ann.sc,
    key := ⟨c.ops, 1, c.genSeq⟩, op := op, dest := dest,
    parts := [{ lane := 0, reg := 0, elem := 0, va := va, pa := p.pa, size := size, ord := p.ord, hint := p.hint, data := data, cmp := cmp,
                done := false, acked := false, lost := false }],
    where_ := c.pc, word := 0, done := false, bad := false, clk := 0 }

/-- Running i retires it and starts access a, which keeps the first word of i, and whose target is register d if it has one; nothing else
changes, no byte of memory yet. -/
def Starts (s : State) (i : Instr) (n slot : Nat) (c : Ctx) (a : Access) (d : Option (BitVec 6)) : Prop :=
  let p := passed i c (nextPc i c)
  let c' : Ctx := { p with genSeq := c.genSeq + 1, gt := match d with | some g => tput p.gt g.toNat (.access s.nextId) | none => p.gt }
  ∃ t, exec i s = .next t ∧ Retired s n slot t c' ∧
    t = { s with ctxs := t.ctxs, clusters := t.clusters, nextId := s.nextId + 1, accs := s.accs ++ [{ a with word := firstWord i }] } ∧
    ∀ pa, t.homeRead pa 1 = s.homeRead pa 1

/-! ### State words and barges (R254, R332 to R346) -/

/-- A write to the line of pa pushes nothing out of its L2 slice; an address that L2 never holds is not in it; and memory is in its
canonical form. -/
def Roomy (s : State) (pa : Nat) : Prop :=
  (if (homeOf pa).cached then (dropLine (s.l2Set (lineOf pa)) (lineOf pa)).length < 16 else s.l2Line (lineOf pa) = none) ∧
    Memory.wf s.mem = true

/-- Nothing is known bad in the n bytes at pa, and the link to their storage is there: an access to them is answered. -/
def Sound (s : State) (pa n : Nat) : Prop := s.badAt pa n = false ∧ s.linkOpen pa = true

/-- No failed link holds what a generator instruction has to carry to scope sc before its effect: the stores that its mask names, and to a
STRONG page those of its agent to STRONG pages (R283, R288, R408). -/
def Carriable (s : State) (c : Ctx) (ann : Ann) (sc : Scope) (strong : Bool) : Prop :=
  s.cutCarry c.uid .gen ⟨c.ops, 1, c.genSeq⟩ ann.pm sc strong = none

/-- An instruction of R332 is ready to have its effect: its address is aligned and translates, its predecessors are done at its scope
(R283), its agent's earlier accesses to the same bytes and to STRONG pages too (R287, R288), its home answers, and so do those of what is
carried first. -/
structure SyncReady (s : State) (i : Instr) (n slot : Nat) (c : Ctx) (ann : Ann) (va : W72) (align : Nat) (write : Bool) (p : Place) :
    Prop where
  ready   : Ready s i n slot c
  may     : MayStart s n slot c ann
  aligned : va.toNat % align = 0
  mapped  : Mapped s n c.ring va write p
  preds   : s.predsDone n slot c.uid .gen ⟨c.ops, 1, c.genSeq⟩ ann.pm (effScope p.pa ann.sc) true = true
  order   : s.ownOrder c.uid .gen ⟨c.ops, 1, c.genSeq⟩ (placePart p.pa align p.ord) = true
  sound   : Sound s p.pa align
  open_   : Carriable s c ann (effScope p.pa ann.sc) (decide (p.ord = 0))

/-- The state in which its effect at place p begins: its request has gone to the home (R296), and the narrow stores that its mask names
(R283), and to a STRONG page its agent's to STRONG pages (R288), have been carried to its scope. -/
def carried (s : State) (n : Nat) (c : Ctx) (ann : Ann) (p : Place) (align : Nat) : State :=
  (s.reach (n / 4) p.pa).carryFor c.uid .gen ⟨c.ops, 1, c.genSeq⟩ ann.pm ann.sc (placePart p.pa align p.ord)

/-- The same of an instruction of R332 that names no address (R350). -/
def carriedStep (s : State) (c : Ctx) (ann : Ann) : State := s.carry c.uid .gen ⟨c.ops, 1, c.genSeq⟩ ann.pm ann.sc

/-- Context c after an instruction of R332 that retires and writes no register; its monitor may fire. -/
def synced (i : Instr) (c c' : Ctx) : Prop :=
  c' = { passed i c (nextPc i c) with genSeq := c.genSeq + 1, monitor := c'.monitor }

/-- Running i stops its own context with one record of class cls and REASON reason, the program counter and the registers as they
were, and every byte of memory as in s0. -/
def StopsIn (s : State) (i : Instr) (n slot : Nat) (c : Ctx) (s0 : State) (cls reason : Nat) : Prop :=
  ∃ t c' r, exec i s = .next t ∧ t.ctx? n slot = some c' ∧ Stopped c c' cls (firstWord i) ∧ c'.stop.map (fun x => x.recs) = some [r] ∧
    slice (wordAt r 0) 55 48 = reason ∧ ∀ a, t.homeRead a 1 = s0.homeRead a 1

/-- STATE, NEED, REG, FIRED and ERR of word 0 of a state word (R334). -/
def swState (w : W64) : Nat := slice w 1 0
def swNeed (w : W64) : Nat := slice w 7 5
def swReg (w : W64) : Bool := w.getLsbD 3
def swFired (w : W64) : Bool := w.getLsbD 4
def swErr (w : W64) : Bool := w.getLsbD 2

/-- The resolution (val, err, code, cancel) of R336 takes the words w0 and w1 of a state word that is not over to v0 and v1. -/
structure Resolution (w0 w1 val : W64) (err : Bool) (code : BitVec 8) (cancel : Bool) (v0 v1 : W64) : Prop where
  inResult : v1 = w1 + val
  inCont   : slice v0 55 8 = slice w0 55 8 ∧ swReg v0 = swReg w0
  inErr    : swErr v0 = (swErr w0 || err)
  inCode   : slice v0 63 56 = if err ∧ slice w0 63 56 = 0 then code.toNat else slice w0 63 56
  inState  : let need := if swState w0 = 0 then 1 else swNeed w0
           if cancel then swState v0 = 3 ∧ swNeed v0 = need
           else if need = 1 then swState v0 = 2 ∧ swNeed v0 = 0 else swState v0 = 1 ∧ swNeed v0 = need - 1
  inFired  : swFired v0 = (swFired w0 || (swReg w0 && swState v0 != 1))

/-- A resolution pushes the continuation: one is registered, and the word is over with it (R336, R340). -/
def fires (w0 v0 : W64) : Prop := swReg w0 = true ∧ swState v0 ≠ 1

/-- The 16 bytes at pa now hold v0 and v1, and every other byte is as in s0. -/
def HoldsWords (s0 t : State) (pa : Nat) (v0 v1 : W64) : Prop :=
  t.homeRead pa 8 = v0.toNat ∧ t.homeRead (pa + 8) 8 = v1.toNat ∧
    ∀ a, a < pa ∨ pa + 16 ≤ a → t.homeRead a 1 = s0.homeRead a 1

/-- A launch has barge b queued for die d with push number k, its level at most the launch's priority. -/
def HasQueued (t : State) (launch d : Nat) (b : List W64) (k : Nat) : Prop :=
  ∃ l, t.launch? launch = some l ∧ ∃ x ∈ l.allQueued, x.1 = d ∧ x.2.barge = b ∧ x.2.push = k ∧ x.2.level ≤ l.prio

/-- Launch q can take one more push, into a berth of die d. -/
def HasBerth (q : Launch) (d : Nat) : Prop :=
  q.aborted = false ∧ q.faulted = false ∧ q.dieset.getLsbD d = true ∧ q.change = none ∧ q.basins.length < 1024

/-- The barge address that word 0 of a state word at va names (R334). -/
def contAt (va : W72) (w0 : W64) : W72 := BitVec.ofNat 72 (slice va 71 54 * 2 ^ 54 + slice w0 55 8 * 64)

/-- In t the continuation at va has been pushed from die d, with the word written as in s1 (R341): the barge there is queued, or, refused,
is a completion flagged as entry-gone; where it cannot be read, the launch is faulted. -/
def Continued (s1 t : State) (c : Ctx) (d : Nat) (va : W72) : Prop :=
  ∀ q, s1.launchOf c = some q → match s1.readBarge q.ring va with
    | .ok b => (s1.bargeOk q.part b = true → (bargeMode b = 2 → bargeSucc b = q.jcb) → HasBerth q d → ∃ k, HasQueued t c.launch d b k) ∧
      (s1.bargeOk q.part b = false → ∃ p ∈ t.posts, p.launch = c.launch ∧ p.mode = bargeMode b ∧ p.succ = bargeSucc b ∧
        p.weight = bargeWeight b ∧ p.flagged = true)
    | .error _ => ∃ q', t.launch? c.launch = some q' ∧ q'.faulted = true

/-- What a barge that SPAWN builds carries, by the mode of the barge that pushes it (R345). -/
def stamped (own image : List W64) (w : W64) : List W64 :=
  match (bargeMode own).toNat with
  | 0 => stampBarge image 0 0 0
  | 1 => stampBarge image 1 (bargeSucc own) w
  | _ => stampBarge image 2 (bargeSucc own) 0

/-! ### Lane words (R148, R197 to R211) -/

/-- Registers that a value of format f takes (R56). -/
def regCount (f : Fmt) : Nat := if Fmt.width f = 64 then 2 else 1

/-- The k registers of a v operand, or the tile, lie inside the partition p (R41). -/
def Inside (p : W32) (o : Opd) (k : Nat) : Prop :=
  match o with
  | .v r => r.toNat + k ≤ 64 * slice p 5 0
  | .z r => r.toNat < slice p 21 16
  | _ => True

/-- No access has still to fill the latch or any of the k registers of operand o (R176, R266). -/
def Settled (s : State) (n k uid : Nat) (x : Core) (o : Opd) (regs : Nat) : Prop :=
  match o with
  | .b r => (x.lat r.toNat).src = none
  | .v r => ∀ a ∈ s.accs, a.cl = n → a.uid = uid → a.agent = .core k → a.done = false → ∀ f, a.dest = .lanes f false →
      ∀ p ∈ a.parts, ∀ e < regCount f, ¬(r.toNat ≤ p.reg + e ∧ p.reg + e < r.toNat + regs)
  | _ => True

/-- The machine acts for core k of context c: their state is x and c. -/
structure LaneHere (s : State) (n slot k : Nat) (c : Ctx) (x : Core) : Prop where
  onCl     : s.focus.cl = n
  onSlot   : s.focus.slot = slot
  onCore   : s.focus.core = k
  clusters : n < 32
  slots    : slot < 8
  cores    : k < 128
  ctx      : s.ctx? n slot = some c
  core     : s.core? n k = some x

/-- Lane word i is at the head of core k of context c, which the machine acts for: its encoding is legal, its operands with their
register counts lie in the partition, and no load has still to write one of them. -/
structure LaneReady (s : State) (i : Instr) (n slot k : Nat) (c : Ctx) (x : Core) (os : List (Opd × Nat)) : Prop
    extends LaneHere s n slot k c x where
  legal    : i.wf = true
  inside   : ∀ p ∈ os, Inside (s.partition c) p.1 p.2
  settled  : ∀ p ∈ os, Settled s n k c.uid x p.1 p.2

/-- Every register that source o reads carries a tag of T; q registers, short constants and masks carry none (R209). -/
def Tagged (x : Core) (o : Opd) (regs : Nat) (T : Fmt → Prop) : Prop :=
  match o with
  | .v r => ∀ e < regs, T (x.tagV (r.toNat + e))
  | .a r => T (x.areg r).tag
  | .b r => T (x.lat r.toNat).tag
  | _ => True

/-- An integer format, a signed one, a binary floating-point one. -/
def isIntFmt (f : Fmt) : Bool := f ∈ [Fmt.i4, .n4, .i8, .n8, .i32, .n32, .i64, .n64]
def isSignedFmt (f : Fmt) : Bool := f ∈ [Fmt.i4, .i8, .i32, .i64]

/-- The tags of R209's table: f's code or the same width's other signedness; any of f's width group; I32; I64; an affine source. -/
def SameInt (f t : Fmt) : Prop := isIntFmt t = true ∧ Fmt.width t = Fmt.width f
def SameWidth (f t : Fmt) : Prop := t ≠ .untyped ∧ Fmt.width t = Fmt.width f
def IsI32 (t : Fmt) : Prop := t = .i32 ∨ t = .n32
def IsI64 (t : Fmt) : Prop := t = .i64 ∨ t = .n64
def IsAff (t : Fmt) : Prop := IsI32 t ∨ IsI64 t

/-- A destination that R199 allows: not part of a q register. -/
def Whole (w : LA) : Prop := (∀ r, w.d ≠ .q r) ∨ w.gm = 0 ∨ w.nwb = true

/-- The lanes of R210's "each live lane": set in m0 and in the governing mask. -/
def onLane (x : Core) (gm : BitVec 3) (l : Nat) : Bool := x.live.getLsbD l && (x.mask gm).getLsbD l

/-- The cost that lane word i is charged, its slice's in the cost register (R203, R204). -/
def costOf (s : State) (i : Instr) (n : Nat) : Int :=
  let u := laneSlice (slice ((encodeLane i).getD 0) 9 0)
  (slice (s.cluster n).costOn (8 * u + 7) (8 * u) : Nat)

/-- A lane word has started and completed on core k, whose registers are then those of y: it leaves the buffer, and its cluster is
charged its slice. Every other core is as before, and so is every other cluster. -/
structure LaneDone (s : State) (i : Instr) (n k : Nat) (y : Core) (t : State) : Prop where
  here     : t.core? n k = some { y with buf := y.buf.drop 1, ran := true }
  others   : ∀ m, m ≠ coreKey n k → tget t.cores m = tget s.cores m
  cluster  : t.cluster n = { s.cluster n with toll := lessCost (s.cluster n).toll (costOf s i n) }
  clusters : ∀ m, m ≠ n → t.cluster m = s.cluster m

/-- Running i completes it and changes its core x as P says; nothing else changes, and no byte of memory. -/
def Performs (s : State) (i : Instr) (n k : Nat) (P : Core → Prop) : Prop :=
  ∃ t y, exec i s = .next t ∧ LaneDone s i n k y t ∧ t = { s with cores := t.cores, clusters := t.clusters } ∧ P y ∧
    ∀ pa, t.homeRead pa 1 = s.homeRead pa 1

/-- What lane l of the register or pair d holds for a value of format f. -/
def held (y : Core) (f : Fmt) (d l : Nat) : Nat :=
  if Fmt.width f = 64 then y.vv d l + y.vv (d + 1) l * 2 ^ 32 else y.vv d l

/-- The latches have taken a result of format f (R201). -/
def Pushed (x y : Core) (f : Fmt) (lane : Nat → Nat) : Prop :=
  ∃ b, y.latch = (b :: x.latch).take 4 ∧ b.tag = f ∧ b.src = none ∧ ∀ l < 16, tgetD b.lanes l 0 = BitVec.ofNat 64 (lane l)

/-- y is x after a word has written a v destination (R56, R201, R210): `res` gives each lane that it writes its value. -/
structure PutsV (x y : Core) (d : Nat) (f : Fmt) (nwb : Bool) (res : Nat → Option Nat) : Prop where
  rest   : y = { x with v := y.v, vtag := y.vtag, latch := y.latch }
  kept   : nwb = true → y.v = x.v ∧ y.vtag = x.vtag
  wrote  : nwb = false → ∀ l < 16, ∀ r, res l = some r → held y f d l = r % 2 ^ (32 * regCount f)
  masked : nwb = false → ∀ l < 16, res l = none → held y f d l = held x f d l
  others : ∀ r l, l < 16 → r < d ∨ d + regCount f ≤ r → y.vv r l = x.vv r l
  tags   : ∀ r, y.tagV r = if nwb = false ∧ d ≤ r ∧ r < d + regCount f then f else x.tagV r
  pushed : Pushed x y f (fun l => if nwb then (res l).getD 0 else held y f d l)

/-- y is x after a word has written result r of format f to a q destination (R210). -/
structure PutsQ (x y : Core) (d : BitVec 4) (f : Fmt) (nwb : Bool) (r : Nat) : Prop where
  rest   : y = { x with q := y.q }
  wrote  : y.qv d = if nwb then x.qv d else if isSignedFmt f then BitVec.ofInt 64 (signed (Fmt.width f) r) else BitVec.ofNat 64 (r % 2 ^ Fmt.width f)
  others : ∀ e, e ≠ d → y.qv e = x.qv e

/-- y is x after a word has written a mask destination whose bit l is p l (R210). -/
structure PutsM (x y : Core) (d : BitVec 3) (nwb : Bool) (p : Nat → Bool) : Prop where
  rest   : y = { x with m := y.m }
  wrote  : ∀ l < 16, (y.mask d).getLsbD l = if nwb then (x.mask d).getLsbD l else p l
  others : ∀ e, e ≠ d → y.mask e = x.mask e

/-- y is x after a word has written (base, stride) to an affine destination (R200, R219). -/
structure PutsA (x y : Core) (d : BitVec 4) (f : Fmt) (nwb : Bool) (base stride : Int) : Prop where
  rest   : y = { x with a := y.a }
  wrote  : y.areg d = if nwb then x.areg d else ⟨BitVec.ofInt 64 base, BitVec.ofInt 32 stride, f⟩
  others : ∀ e, e ≠ d → y.areg e = x.areg e

/-- A word gives result r l in each live lane l of a v destination, or r 0 once for a q destination. -/
def EachLane (x y : Core) (w : LA) (f : Fmt) (r : Nat → Nat) : Prop :=
  match w.d with
  | .v d => PutsV x y d.toNat f w.nwb (fun l => if onLane x w.gm l then some (r l) else none)
  | .q d => PutsQ x y d f w.nwb (r 0)
  | _ => False

/-- The same, of a word of the floating-point chapter: a q destination receives zeros above bit w - 1 (R231). -/
def EachCode (x y : Core) (w : LA) (f : Fmt) (r : Nat → Nat) : Prop :=
  match w.d with
  | .q d => y = { x with q := y.q } ∧ (∀ e, e ≠ d → y.qv e = x.qv e) ∧
      y.qv d = if w.nwb then x.qv d else BitVec.ofNat 64 (r 0 % 2 ^ Fmt.width f)
  | _ => EachLane x y w f r

/-- A word sets each live lane's bit of its mask destination to p l, and every other bit to 0. -/
def EachBit (x y : Core) (w : LA) (p : Nat → Bool) : Prop :=
  match w.d with
  | .m d => PutsM x y d w.nwb (fun l => onLane x w.gm l && p l)
  | _ => False

/-- Lane l's value of a v destination is r l where that is given; other lanes keep theirs. -/
def LanesGiven (x y : Core) (w : LA) (f : Fmt) (r : Nat → Option Nat) : Prop :=
  match w.d with
  | .v d => PutsV x y d.toNat f w.nwb r
  | _ => False

/-- A q destination takes r. -/
def QGiven (x y : Core) (w : LA) (f : Fmt) (r : Nat) : Prop :=
  match w.d with
  | .q d => PutsQ x y d f w.nwb r
  | _ => False

/-- A mask destination's bit l is p l. -/
def MaskGiven (x y : Core) (w : LA) (p : Nat → Bool) : Prop :=
  match w.d with
  | .m d => PutsM x y d w.nwb p
  | _ => False

/-- The operands of an LA word, its result in format f, with the registers that each takes. -/
def laOpds (w : LA) (f : Fmt) (ka kb kc : Nat) : List (Opd × Nat) := [(w.d, regCount f), (w.a, ka), (w.b, kb), (w.c, kc)]

/-- An affine destination takes (base, stride). -/
def AGiven (x y : Core) (w : LA) (f : Fmt) (base stride : Int) : Prop :=
  match w.d with
  | .a d => PutsA x y d f w.nwb base stride
  | _ => False

/-- The emission number of the word at the head of a core's buffer. -/
def headE (c : Ctx) (x : Core) : Nat := (x.buf.head?.map (fun h => h.e)).getD c.nextE

/-- Running lane word i raises the lane fault of class cls (R148, R367): the core starts no later word, its registers and the buffer
are as they were, the context stops with one record that names the word by its emission number, and no byte of memory changes. -/
def LaneFaults (s : State) (i : Instr) (n slot k : Nat) (c : Ctx) (x : Core) (cls : Nat) : Prop :=
  ∃ t c' r, exec i s = .next t ∧ t = { s with cores := t.cores, ctxs := t.ctxs, cmds := t.cmds } ∧
    t.core? n k = some { x with failed := true } ∧ (∀ m, m ≠ coreKey n k → tget t.cores m = tget s.cores m) ∧
    t.ctx? n slot = some c' ∧ (∀ m, m ≠ ctxKey n slot → tget t.ctxs m = tget s.ctxs m) ∧
    c'.status = .blocked ∧ c'.pc = c.pc ∧ c'.g = c.g ∧ c'.stop.map (fun y => y.recs) = some [r] ∧ slice (wordAt r 0) 63 56 = cls ∧
    wordAt r 2 = BitVec.ofNat 64 (headE c x) ∧ wordAt r 3 = (encodeLane i).getD 0 ∧
    ∀ pa, t.homeRead pa 1 = s.homeRead pa 1

/-- Running lane word i leaves it at the head of its buffer, and only counts why it waited (R175, R206). -/
def LaneWaits (s : State) (i : Instr) (n k : Nat) (x : Core) (why : Nat) : Prop :=
  ∃ t, exec i s = .next t ∧ t = { s with cores := t.cores } ∧ t.core? n k = some { x with why := why } ∧
    ∀ m, m ≠ coreKey n k → tget t.cores m = tget s.cores m

/-- The lanes of core x that a governing mask selects, ascending. -/
def selected (x : Core) (gm : BitVec 3) : List Nat := (List.range 16).filter (onLane x gm)

/-- What two lanes' values combine to, where either may be empty (R226). -/
def joined (op : Nat → Nat → Nat) : Option Nat → Option Nat → Option Nat
  | some x, some y => some (op x y)
  | some x, none => some x
  | none, y => y

/-- Node p of the tree of R226, `level` levels above the lanes. -/
def treeAt (op : Nat → Nat → Nat) (lane : Nat → Option Nat) : Nat → Nat → Option Nat
  | 0, p => lane p
  | level + 1, p => joined op (treeAt op lane level (2 * p)) (treeAt op lane level (2 * p + 1))

/-- What a scan has gathered before lane l (R227). -/
def gathered (op : Nat → Nat → Nat) (lane : Nat → Option Nat) : Nat → Option Nat
  | 0 => none
  | l + 1 => joined op (gathered op lane l) (lane l)

/-- The operations of R226 on two codes of format f. -/
def addCodes (f : Fmt) (r : Rnd) (x y : Nat) : Nat :=
  if isIntFmt f then (x + y) % 2 ^ Fmt.width f else round ((valueOf f x).add r (valueOf f y)) f r false
def leastCodes (greatest : Bool) (f : Fmt) (x y : Nat) : Nat :=
  let value (z : Nat) : Int := if isSignedFmt f then signed (Fmt.width f) z else z
  if isIntFmt f then (if greatest then (if value x ≤ value y then y else x) else (if value x ≤ value y then x else y))
  else round (Exact.least greatest (valueOf f x) (valueOf f y)) f .rne false

/-! ### Lane memory words (R265 to R280) -/

/-- The access that memory word w starts on core k: its parts under its annotation, in its place in the emission order. -/
def laneAccess (s : State) (n slot k : Nat) (c : Ctx) (x : Core) (i : Instr) (w : LM) (op : AccOp) (dest : Dest) (parts : List Part) : Access :=
  { id := s.nextId, cl := n, slot := slot, uid := c.uid, agent := .core k, stream := w.os, pm := w.pm, scope := w.sc,
    key := ⟨(x.buf.head?.map (fun h => h.op)).getD c.ops, 0, headE c x⟩, op := op, dest := dest, parts := parts,
    where_ := BitVec.ofNat 64 (headE c x), word := (encodeLane i).getD 0, done := false, bad := false, clk := 0 }

/-- One element of a lane, at a place that translation found, or in the scratchpad of the core with a key. -/
def lanePart (l reg elem : Nat) (va : W72) (p : Place) (size data cmp : Nat) : Part :=
  { lane := l, reg := reg, elem := elem, va := va, pa := p.pa, size := size, ord := p.ord, hint := p.hint,
    data := BitVec.ofNat 128 data, cmp := BitVec.ofNat 128 cmp, done := false, acked := false, lost := false }
def scratchPart (l reg elem : Nat) (a : W72) (key off size data : Nat) : Part :=
  lanePart l reg elem a ⟨spAddr key off, 1, .normal⟩ size data 0

/-- Running memory word i completes it on core k, makes the core y, and starts access a if it has a part; nothing else changes, and no
byte of memory yet. -/
def StartsLane (s : State) (i : Instr) (n k : Nat) (a : Access) (P : Core → Prop) : Prop :=
  ∃ t y, exec i s = .next t ∧ LaneDone s i n k y t ∧ P y ∧
    t = { s with cores := t.cores, clusters := t.clusters, nextId := s.nextId + 1, accs := if a.parts = [] then s.accs else s.accs ++ [a] } ∧
    ∀ pa, t.homeRead pa 1 = s.homeRead pa 1

/-- y is x after a load of `count` elements of format f into register d has started (R58, R201): the tags are set, and a latch is
pushed for each element, which the access fills in the lanes it acts on; no register holds another value yet. -/
structure Loads (x y : Core) (d : Nat) (f : Fmt) (nwb : Bool) (gm : BitVec 3) (count id : Nat) : Prop where
  rest    : y = { x with vtag := y.vtag, latch := y.latch }
  tags    : ∀ r, y.tagV r = if nwb = false ∧ d ≤ r ∧ r < d + count * regCount f then f else x.tagV r
  latches : ∃ b : Nat → Latch, y.latch = ((List.range count).reverse.map b ++ x.latch).take 4 ∧ ∀ j < count,
    (b j).tag = f ∧ (b j).src = (if selected x gm = [] then none else some (id, j)) ∧
    ∀ l < 16, tgetD (b j).lanes l 0 = BitVec.ofNat 64 (if nwb || onLane x gm l then 0 else held x f (d + j * regCount f) l)

/-- What a word that loads does to its core: `Loads`, at the D register of the word. -/
def LoadsInto (x y : Core) (w : LM) (count id : Nat) : Prop := ∃ d, w.d = .v d ∧ Loads x y d.toNat w.fmt w.nwb w.gm count id

/-- The register of element j of a memory word: 0 where D is no v register. -/
def elemReg (w : LM) (j : Nat) : Nat := match w.d with | .v d => d.toNat + j * regCount w.fmt | _ => 0

/-- What element j of a storing word holds in lane l. -/
def elemData (x : Core) (w : LM) (j l : Nat) : Nat :=
  match w.d with
  | .v d => held x w.fmt (d.toNat + j * regCount w.fmt) l % 2 ^ Fmt.width w.fmt
  | o => x.data w.fmt o l

/-- The bytes of an element, and those that a word of R273 moves in one lane. -/
def elemBytes (w : LM) : Nat := Fmt.width w.fmt / 8
def elemCount (w : LM) : Nat := if w.wid = 0 then 1 else 2 ^ (w.wid.toNat + 1) / elemBytes w

/-- An operand descriptor of the registers q and q1, of g gang cores, is one that R316 accepts for a format in partition p. -/
structure DescriptorOk (q q1 : W64) (f : Fmt) (p : W32) (g : Nat) : Prop where
  reserved : slice q 63 54 = 0 ∧ slice q 23 21 = 0 ∧ slice q1 63 17 = 0
  gang     : g = (List.range 8).countP (fun i => q1.getLsbD i) ∧ g ≠ 1 ∧ g ≤ 6
  steps    : let n := slice q1 16 8 + 1
    match f with
    | .fp32 => n ≤ 256
    | .fp16 | .bf16 => n ≤ 64
    | .l6 => n % 2 = 0 ∧ n ≤ 10
    | _ => n ≤ 32
  aligned  : slice q 17 0 % 8 = 0 ∧ slice q 35 24 % 8 = 0 ∧ slice q 53 36 % 8 = 0
  kind     : q.getLsbD 20 = true → f ≠ .l6
  bytes    : ∀ sl < (slice q1 16 8 + 1) / (if f = .l6 then 2 else 1), ∀ i < 32,
    slice q 17 0 + sl / max 1 g * slice q 53 36 + i * slice q 35 24 + rowBytes f ≤ 4096 * (if q.getLsbD 20 then slice p 5 0 else slice p 13 8)

/-- No latch waits for an access that has not been started. -/
def FreshLatches (s : State) (x : Core) : Prop := ∀ b ∈ x.latch, ∀ p, b.src = some p → p.1 < s.nextId

/-! ### The machine's own events -/

/-- No address space asks for trace records (R393). -/
def Untraced (s : State) : Prop := ∀ n < 4, slice (s.ret n).trhi 63 48 = 0

/-- Event i happens: what it leaves is t. -/
def Happens (s : State) (i : Instr) (P : State → Prop) : Prop := ∃ t, exec i s = .next t ∧ P t

/-- Context (n, slot) is now c', and every other context is as before. -/
def OneCtx (s t : State) (n slot : Nat) (c' : Ctx) : Prop :=
  t.ctx? n slot = some c' ∧ ∀ m, m ≠ ctxKey n slot → tget t.ctxs m = tget s.ctxs m

/-- Context (n, slot) has left its cluster, and every other context is as before. -/
def CtxGone (s t : State) (n slot : Nat) : Prop :=
  t.ctx? n slot = none ∧ ∀ m, m ≠ ctxKey n slot → tget t.ctxs m = tget s.ctxs m

/-- Cluster n is now k, and every other cluster is as before. -/
def OneCluster (s t : State) (n : Nat) (k : Cluster) : Prop := t.cluster n = k ∧ ∀ m, m ≠ n → t.cluster m = s.cluster m

/-- The bits of a word that a hole target names, high and low (R177). -/
def holeBits (tgt : BitVec 3) : Nat × Nat :=
  [(19, 10), (29, 20), (39, 30), (53, 44), (42, 40), (60, 55), (46, 44), (54, 47)].getD tgt.toNat (0, 0)

/-- Word i of an entry, patched from a snapshot, is w (R187): an item's bits are the low bits of its hole register, the last item's where
two name the same bit, and every other bit is the entry's. -/
def Patched (e : CapEntry) (snap : List (BitVec 16)) (i : Nat) (w : W64) : Prop :=
  let items := e.holes.filter (fun x => decide (x.2.1 = i))
  let names (x : BitVec 3 × Nat × BitVec 3) (b : Nat) : Bool := decide ((holeBits x.2.2).2 ≤ b ∧ b ≤ (holeBits x.2.2).1)
  ∀ b < 64, w.getLsbD b = match (items.filter (names · b)).getLast? with
    | some x => (snap.getD x.1.toNat 0).getLsbD (b - (holeBits x.2.2).2)
    | none => (e.words.getD i 0).getLsbD b

/-- The receiver of a message has set its logical counter: the larger of its own and the sender's, plus one (R296, R392). -/
def Hears (s t : State) (sender receiver : Option Nat) : Prop :=
  t.lclock receiver = BitVec.ofNat 48 (max (s.lclock sender).toNat (s.lclock receiver).toNat + 1)

/-- A core as a context receives it: nothing of what it held before can be seen (R46, R60). -/
structure Lent (y : Core) (slot : Nat) : Prop where
  owner  : y.slot = slot ∧ y.left = false ∧ y.failed = false ∧ y.buf = []
  live   : y.live = 0xFFFF
  v      : ∀ r l, y.vv r l = 0 ∧ y.tagV r = .untyped
  q      : ∀ r, y.qv r = 0
  a      : ∀ r, r ≠ 0 → y.areg r = ⟨0, 0, .untyped⟩
  m      : ∀ r, r ≠ 0 → y.mask r = 0
  latch  : ∀ b, (y.lat b).tag = .untyped
  tiles  : ∀ z, y.tileTag z = .untyped

/-- Where the next error record goes: its ring lies in the flag window (R426). -/
def errorSlot (s : State) : Nat :=
  flagBase + (4096 * slice s.regs.errCfg 41 32 + s.regs.errTail.toNat % 2 ^ slice s.regs.errCfg 31 28 * 32) % 2 ^ 22

/-- One 32-byte record of these four words has gone into the error ring (R426), and no other byte of memory has changed. -/
structure ErrorRecorded (s t : State) (ws : List Nat) : Prop where
  tail   : t.regs.errTail = s.regs.errTail + 1
  record : ∀ i < 4, t.homeRead (errorSlot s + 8 * i) 8 = ws.getD i 0
  others : ∀ a, a < errorSlot s ∨ errorSlot s + 32 ≤ a → t.homeRead a 1 = s.homeRead a 1

/-- The n bytes at pa now hold x, and every other byte is as in s. -/
def Holds (s t : State) (pa n x : Nat) : Prop :=
  t.homeRead pa n = x % 2 ^ (8 * n) ∧ ∀ a, a < pa ∨ pa + n ≤ a → t.homeRead a 1 = s.homeRead a 1

/-- The n bytes at pa lie in one line. -/
def InLine (pa n : Nat) : Prop := 0 < n ∧ pa % 128 + n ≤ 128

/-- Storage answers an access to the line of pa: no granule of it is bad, and the link to it is there. -/
def Answers (s : State) (pa : Nat) : Prop := Sound s (pa / 128 * 128) 128 ∧ s.linkOpen pa = true

/-- No monitor is armed and no watchpoint is set: a write wakes and pushes nothing (R356, R360). -/
def Unwatched (s : State) : Prop := s.watches = [] ∧ ∀ p ∈ s.ctxs, ∀ line, p.2.monitor ≠ .armed line

/-- Where the next stop record of an address space goes: its ring lies in the flag window (R366). -/
def logSlot (s : State) (ring : BitVec 2) : Nat :=
  let r := s.trap ring.toNat
  flagBase + (4096 * slice r.flog 41 32 + r.flogTail.toNat % 2 ^ slice r.flog 31 28 * 64) % 2 ^ 22

/-- Record r of a stop has gone into the fault log under a FAULTID of its own (R365, R366), and no other byte of memory has changed. -/
structure StopLogged (s t : State) (ring : BitVec 2) (r : List W64) (dropped : Nat) (resumable : Bool) : Prop where
  tail   : (t.trap ring.toNat).flogTail = (s.trap ring.toNat).flogTail + 1
  number : (t.trap ring.toNat).faultId = (s.trap ring.toNat).faultId + 1
  first  : ∃ w : W64, t.homeRead (logSlot s ring) 8 = w.toNat ∧ slice w 63 40 = slice (wordAt r 0) 63 40 ∧
    w.getLsbD 35 = (wordAt r 0).getLsbD 35 ∧ slice w 33 16 = slice (wordAt r 0) 33 16 ∧ slice w 39 36 = min dropped 15 ∧
    w.getLsbD 34 = resumable ∧ slice w 15 0 = (s.trap ring.toNat).faultId.toNat
  words  : ∀ i, 0 < i → i < 8 → t.homeRead (logSlot s ring + 8 * i) 8 = (wordAt r i).toNat
  others : ∀ a, a < logSlot s ring ∨ logSlot s ring + 64 ≤ a → t.homeRead a 1 = s.homeRead a 1

/-- The flagged completion of context c of cluster n, as a post (R386). -/
def flaggedPost (c : Ctx) (n id : Nat) : Post :=
  { id := id, launch := c.launch, ring := c.ring, die := n / 4, mode := bargeMode c.barge, succ := bargeSucc c.barge, weight := c.held,
    credit := c.credit, flagged := true }

/-- A launch has frame `key` in a berth of die d, at the head of the level of its context. -/
def HasFrame (t : State) (launch d key : Nat) (c : Ctx) : Prop :=
  ∃ l, t.launch? launch = some l ∧ ∃ q ∈ l.onDie d, q.frame = some key ∧ q.barge = c.barge ∧ q.level = c.level ∧ q.head = true

/-- Launch acc is faulted, and every context of it is stopping (R369). -/
def LaunchFaulted (t : State) (acc : Nat) : Prop :=
  (∃ l, t.launch? acc = some l ∧ l.faulted = true) ∧ ∀ m y, tget t.ctxs m = some y → y.launch = acc → y.stop ≠ none

/-- The lowest free frame slot of an address space is ix. -/
def LowestFree (s : State) (ring : BitVec 2) (ix : Nat) : Prop :=
  ix < s.frameCount ring ∧ s.frameFree ring ix = true ∧ ∀ j < ix, s.frameFree ring j = false

/-! ### Launches and queues -/

/-- Launch acc is now l', as it is found by its number, and every other launch is as before. -/
def OneLaunch (s t : State) (acc : Nat) (l' : Launch) : Prop :=
  t.launch? acc = some l' ∧ ∀ m, m ≠ acc → t.launch? m = s.launch? m

/-- Die d is eligible for launch l (R112). -/
def eligibleFor (s : State) (l : Launch) (d : Nat) : Bool :=
  l.allow.getLsbD d && (s.die d).admitted && decide ((s.die d).phase = 0) && !l.dieset.getLsbD d
    && decide ((s.launches.filter (fun x => x.dieset.getLsbD d || x.change.any (fun h => h.add && h.die = d))).length < 8)

/-- Launch a is considered before launch b (R113). -/
def considered (a b : Launch) : Bool := decide (b.prio < a.prio ∨ (a.prio = b.prio ∧ a.acc < b.acc))

/-- A launch that waits for a grant has waited 2^24 cycles (R113). -/
def pastCap (s : State) (v : Launch) : Bool := v.waits && (v.capped || v.waitAt.any (fun t => decide (t + 2 ^ 24 ≤ s.now)))

/-- The dies that launch l may be granted: those eligible for it that no launch past the cap, considered before it, could use (R113). -/
def mayHold (s : State) (l : Launch) : List Nat :=
  (List.range 8).filter (fun d => eligibleFor s l d &&
    s.launches.all (fun v => !(pastCap s v && v.acc != l.acc && considered v l && eligibleFor s v d)))

/-- Die a is preferred to die b: fewer launches hold it, then the lower sum of its clusters' EFFRANK, then the lower d (R113). -/
def Preferred (s : State) (a b : Nat) : Prop :=
  let held (d : Nat) : Nat := (s.launches.filter (fun x => x.dieset.getLsbD d)).length
  let rank (d : Nat) : Nat := s.effRank (4 * d) + s.effRank (4 * d + 1) + s.effRank (4 * d + 2) + s.effRank (4 * d + 3)
  held a < held b ∨ (held a = held b ∧ (rank a < rank b ∨ (rank a = rank b ∧ a < b)))

/-- How many dies a die set holds. -/
def dieCount (x : BitVec 8) : Nat := ((List.range 8).filter (fun d => x.getLsbD d)).length

/-- No launch waits for a die that a reset took from it (R119). -/
def NoneShort (s : State) : Prop := ∀ l ∈ s.launches, s.restorable l = false

/-- Command acc of ring cp has completed: its status stands in the queue of records that are due (R98). -/
structure Completed (s t : State) (cp : BitVec 2) (acc status errs : Nat) : Prop where
  due    : (t.cp cp.toNat).done = (s.cp cp.toNat).done ++ [acc]
  status : ∀ c ∈ s.ringCmds, c.acc = acc → ∃ d ∈ t.ringCmds, d.acc = acc ∧ d.status = some (BitVec.ofNat 8 status) ∧
    d.errs = BitVec.ofNat 32 errs ∧ d.ring = c.ring ∧ d.seq = c.seq ∧ d.tag = c.tag
  others : ∀ c ∈ s.ringCmds, c.acc ≠ acc → c ∈ t.ringCmds

/-- Command c is the one that has the acceptance number acc, is not refused, and has not completed. -/
def InHand (s : State) (acc : Nat) (c : RingCmd) : Prop :=
  c.acc = acc ∧ c ∈ s.ringCmds ∧ c.status = none ∧ c.bad = false ∧ ∀ d ∈ s.ringCmds, d.acc = acc → d = c

/-- Each set of the line caches and of the slices stands once, under the key of its lines, and holds a line once; the slices hold what
L2 may; and memory is in its canonical form. -/
structure CachesSound (s : State) : Prop where
  bays  : (s.bayLines.map Prod.fst).Pairwise (· < ·) ∧ ∀ p ∈ s.bayLines, (p.2.map Line.line).Nodup ∧ ∀ z ∈ p.2, z.line % 128 = p.1 % 128
  slice : (s.l2.map Prod.fst).Pairwise (· < ·) ∧ ∀ p ∈ s.l2, (p.2.map Line.line).Nodup ∧
    ∀ z ∈ p.2, l2Key (128 * z.line) = p.1 ∧ (homeOf (128 * z.line)).cached = true
  mem   : Memory.wf s.mem = true

/-- Some bay holds x as a dirty byte at address a. -/
def DirtyAbove (s : State) (a x : Nat) : Prop :=
  ∃ p ∈ s.bayLines, ∃ z ∈ p.2, z.line = lineOf a ∧ z.dirty.getLsbD (a % 128) = true ∧ z.get (a % 128) 1 = x

/-- The command that a command is for a part of its range, before any other of its ring's has completed; and the whole command again. -/
def partOf (s u : State) (acc : Nat) (va : W72) (n : Nat) : State :=
  { u with ringCmds := s.ringCmds.map (fun d => if d.acc = acc then { d with addr := va, arg0 := BitVec.ofNat 64 n } else d),
           regs := { u.regs with cps := s.regs.cps } }
def wholeOf (c : RingCmd) (t : State) : State :=
  { t with ringCmds := t.ringCmds.map (fun d => if d.acc = c.acc then { d with addr := c.addr, arg0 := c.arg0 } else d) }

/-- No first-level cache holds a dirty byte of line n. -/
def CleanAbove (s : State) (n : Nat) : Prop := ∀ p ∈ s.bayLines, ∀ y ∈ p.2, y.line = n → y.dirty = 0

/-- The code of the smallest positive normal number of a binary format (R50): a lower code but 0 is subnormal. -/
def smallestNormal (f : Fmt) : Nat := match f with | .fp32 => 2 ^ 23 | .fp16 => 2 ^ 10 | _ => 2 ^ 7

/-! ### Rounding (R50, R53, R62 to R64) -/

/-- The parameters of a binary format (R50): fraction bits, bias, and the codes of the largest finite value, of +infinity (E4M3 has
none: its NaN) and of the canonical NaN. -/
structure Binary where
  frac : Nat
  bias : Nat
  top  : Nat
  inf  : Nat
  nan  : Nat

def binary : Fmt → Option Binary
  | .fp32 => some ⟨23, 127, 0x7F7FFFFF, 0x7F800000, 0x7FC00000⟩
  | .fp16 => some ⟨10, 15, 0x7BFF, 0x7C00, 0x7E00⟩
  | .bf16 => some ⟨7, 127, 0x7F7F, 0x7F80, 0x7FC0⟩
  | .e4m3 => some ⟨3, 7, 0x7E, 0x7F, 0x7F⟩
  | .e5m2 => some ⟨2, 15, 0x7B, 0x7C, 0x7E⟩
  | _ => none

/-- Point m of a format's grid of magnitudes (R63): for a binary format what the code m stands for, its exponent unbounded above; for
L6 0 and every 2^e × t6[f] / 2048 from the smallest up (R53); for an integer format m. -/
def grid (f : Fmt) (m : Nat) : Rat :=
  match binary f with
  | some b =>
    if m < 2 ^ b.frac then m * (2 : Rat) ^ (1 - (b.bias : Int) - b.frac)
    else ((2 ^ b.frac + m % 2 ^ b.frac : Nat) : Rat) * 2 ^ ((m / 2 ^ b.frac : Nat) - (b.bias : Int) - b.frac)
  | none =>
    if f = .l6 then (if m = 0 then 0 else (([2048, 2435, 2896, 3444].getD (m % 4) 0 : Nat) : Rat) * 2 ^ (((m / 4 : Nat) : Int) - 16))
    else m

/-- Grid point m of format f is the candidate that mode r selects for a magnitude that lies above the numbers of `lt` and at those of
`eq`, of a value that is negative or not (R62). -/
def RoundsTo (f : Fmt) (r : Rnd) (neg : Bool) (lt eq : Rat → Prop) (m : Nat) : Prop :=
  ∃ k, (eq (grid f k) ∧ m = k) ∨ (lt (grid f k) ∧ ¬lt (grid f (k + 1)) ∧ ¬eq (grid f (k + 1)) ∧
    let mid := (grid f k + grid f (k + 1)) / 2
    match r with
    | .rtz => m = k
    | .rdn => m = if neg then k + 1 else k
    | .rup => m = if neg then k else k + 1
    | .rne => (lt mid → m = k + 1) ∧ (eq mid → m = k + k % 2) ∧ (¬lt mid → ¬eq mid → m = k)
    | .rna => (lt mid ∨ eq mid → m = k + 1) ∧ (¬lt mid → ¬eq mid → m = k))

/-- A magnitude's code with its sign, in a format whose sign is the most significant bit. -/
def withSign (f : Fmt) (neg : Bool) (m : Nat) : Nat := m + if neg then 2 ^ (Fmt.width f - 1) else 0

/-- The code of infinity with a sign; in E4M3 its NaN (R64). -/
def infinite (f : Fmt) (b : Binary) (neg : Bool) : Nat := if f = .e4m3 then b.nan else withSign f neg b.inf

/-- The greatest and the least value of an integer format (R55). -/
def greatest (f : Fmt) : Int := if isSignedFmt f then 2 ^ (Fmt.width f - 1) - 1 else 2 ^ Fmt.width f - 1
def least (f : Fmt) : Int := if isSignedFmt f then -2 ^ (Fmt.width f - 1) else 0

/-- The code that grid point m is encoded as, or the overflow case of R64 (R63). -/
def coded (f : Fmt) (r : Rnd) (sat neg : Bool) (m : Nat) : Nat :=
  match binary f with
  | some b =>
    if m ≤ b.top then withSign f neg m
    else if sat ∨ r = .rtz ∨ (r = .rup ∧ neg) ∨ (r = .rdn ∧ neg = false) then withSign f neg b.top else infinite f b neg
  | none =>
    if f = .l6 then (if m = 0 then 0 else withSign f neg (min m 31))
    else (max (least f) (min (if neg then -(m : Int) else m) (greatest f)) % 2 ^ Fmt.width f).toNat

/-- Code z of format f is the one rounding of a magnitude, as RoundsTo takes it. -/
def RoundedTo (f : Fmt) (r : Rnd) (sat neg : Bool) (lt eq : Rat → Prop) (z : Nat) : Prop :=
  ∃ m, RoundsTo f r neg lt eq m ∧ z = coded f r sat neg m

/-- The code of 2^e in a binary format, e a normal exponent. -/
def powerCode (b : Binary) (e : Int) : Nat := (e + b.bias).toNat * 2 ^ b.frac

/-! ### Accesses as they are performed (R255, R274, R281) -/

/-- Access a stands alone under its number, and may be performed whole; no failed link holds what must be carried first (R408). -/
structure Due (s : State) (a : Access) : Prop where
  stands : a ∈ s.accs ∧ ∀ y ∈ s.accs, y.id = a.id → y = a
  noCmd  : ∀ y ∈ s.cmds, y.id ≠ a.id
  may    : s.canPerform a [] = true
  whole  : ∀ p ∈ a.parts, p.done = false ∧ p.lost = false
  open_  : ∀ p ∈ a.parts, s.cutCarry a.uid a.agent a.key a.pm (effScope p.pa a.scope) p.strong = none

/-- The state in which access a is performed whole: its request has gone out to a far home and the answer has come back (R296), and the
stores that its mask (R283) and the order of its STRONG pages (R288) name have been carried to its scope. -/
def setOut (s : State) (a : Access) : State :=
  let die := dieOf a.cl
  let clk := s.lclock (some die)
  let s := s.modAcc a.id (fun x => { x with clk := clk })
  let s := if a.parts.any (fun p => !isSp p.pa && p.away a.op a.scope && farFrom die p.pa) then s.exchange die else s
  a.parts.foldl (fun s p => s.carryFor a.uid a.agent a.key a.pm a.scope p) s

/-- The bay in whose line cache an access to pa is performed: a core's plain load, store or copy at a scope within the bay (R255). -/
def throughBay (a : Access) (pa : Nat) : Option Nat :=
  if narrowScope a.scope && (homeOf pa).cached && (a.op = .load || a.op = .store || a.op = .ldcp || a.op = .stcp) then bayOf a.agent else none

/-- The n bytes at pa as access a finds them: in the scratchpad, in its bay's copy, or at their home. -/
def cell (s : State) (a : Access) (pa n : Nat) : Nat :=
  if isSp pa then s.spRead pa n
  else match (throughBay a pa).bind (fun b => s.bayLine a.cl b (lineOf pa)) with
    | some l => l.get (pa % 128) n
    | none => s.homeRead pa n

/-- The n bytes at a lie in the scratchpad of a lent core. -/
def InScratch (s : State) (a n : Nat) : Prop := isSp a = true ∧ (tget s.cores (spCore a)).isSome = true ∧ spOff a + n ≤ 2 ^ 20

/-- The line of part p lies where access a is performed, so that performing it moves no other line: in the bay's cache, or in L2 for a
cached home, of which no bay of the agent holds a copy. -/
def Handy (s : State) (a : Access) (p : Part) : Prop :=
  if isSp p.pa then InScratch s p.pa p.size
  else InLine p.pa p.size ∧ match throughBay a p.pa with
    | some b => s.bayLine a.cl b (lineOf p.pa) ≠ none ∧ (dropLine (s.baySet a.cl b (lineOf p.pa)) (lineOf p.pa)).length < 8
    | none => Roomy s p.pa ∧ ((homeOf p.pa).cached = true → s.l2Line (lineOf p.pa) ≠ none ∧ effScope p.pa a.scope ≠ .system) ∧
        ∀ b, bayOf a.agent = some b → s.bayLine a.cl b (lineOf p.pa) = none

/-- The last of an access's parts, in their order, that covers byte b. -/
def lastOver (a : Access) (b : Nat) : Option Part := (a.parts.filter (fun p => decide (p.pa ≤ b ∧ b < p.pa + p.size))).getLast?

/-- The access's parts fill different places of v registers of format f, and different lanes of latches. -/
def FillsApart (a : Access) (f : Fmt) : Prop :=
  (∀ p ∈ a.parts, p.lane < 16 ∧ 8 * p.size = Fmt.width f) ∧
    ∀ (i j : Nat) p q, a.parts[i]? = some p → a.parts[j]? = some q → i < j →
      p.lane ≠ q.lane ∨ (p.elem ≠ q.elem ∧ (p.reg + regCount f ≤ q.reg ∨ q.reg + regCount f ≤ p.reg))

/-- Core y is x after each part i of access a has given value v i to its place and its latch (R201, R266, R271). -/
structure Filled (x y : Core) (a : Access) (f : Fmt) (nwb : Bool) (v : Nat → Nat) : Prop where
  rest    : y = { x with v := y.v, latch := y.latch, sp := y.sp }
  kept    : nwb = true → y.v = x.v
  wrote   : nwb = false → ∀ (i : Nat) p, a.parts[i]? = some p → held y f p.reg p.lane = v i
  others  : ∀ r l, l < 16 → (∀ p ∈ a.parts, l ≠ p.lane ∨ r < p.reg ∨ p.reg + regCount f ≤ r) → y.vv r l = x.vv r l
  latches : ∀ (j : Nat) b, x.latch[j]? = some b → ∃ z, y.latch[j]? = some z ∧ z.tag = b.tag ∧
    if b.src.map Prod.fst = some a.id then z.src = none ∧ ∀ (i : Nat) p, a.parts[i]? = some p → b.src = some (a.id, p.elem) →
      tgetD z.lanes p.lane 0 = BitVec.ofNat 64 (v i) else z = b

/-- What an atomic access leaves at the address of its part p once its first i parts have been performed. -/
def foldedAt (s : State) (a : Access) (i : Nat) (p : Part) : Nat :=
  ((a.parts.take i).filter (fun q => q.pa = p.pa)).foldl (fun v q => Access.newValue a.op q v) (cell s a p.pa p.size)

/-- The access is one that modifies what it reads; two of its parts name the same bytes or none in common. -/
def Modifies (a : Access) : Prop :=
  ((∃ op, a.op = .atom op) ∨ a.op = .cas ∨ (a.op ∈ [AccOp.fadd, .fmin, .fmax] ∧ ∀ p ∈ a.parts, p.size = 4)) ∧
    ∀ p ∈ a.parts, ∀ q ∈ a.parts, (p.pa = q.pa ∧ p.size = q.size) ∨ p.pa + p.size ≤ q.pa ∨ q.pa + q.size ≤ p.pa

/-- Every slot that joins on the state word at pa has its answer where the word is over (R338). -/
def JoinsAnswered (s t : State) (pa : Nat) : Prop :=
  ∀ m y, tget s.ctxs m = some y → ∃ z, tget t.ctxs m = some z ∧ ∀ f va, (y.slot f).work = .join va pa →
    (z.slot f).work = if (t.readSW pa).over_ then (t.readSW pa).joined else .join va pa

/-! ### What the copy engines move (R77 to R80, R309, R312, R322 to R330) -/

/-- Command y stands alone under its number, is being carried out, and holds every die that it names (R330). -/
structure Works (s : State) (y : Cmd) : Prop where
  stands : y ∈ s.cmds ∧ ∀ z ∈ s.cmds, z.id = y.id → z = y
  begun  : y.begun = true ∧ y.ended = false
  owners : y.collective = true → s.ownersGone y = false

/-- An engine command's n bytes at place q are answered at once, and performing the access moves no other line. -/
structure EngineAt (s : State) (y : Cmd) (q : Place) (n : Nat) : Prop where
  sound  : Sound s q.pa n
  within : InLine q.pa n
  room   : Roomy s q.pa
  held   : (homeOf q.pa).cached = true → s.l2Line (lineOf q.pa) ≠ none ∧ y.x.ann.sc ≠ .system
  scope  : effScope q.pa y.x.ann.sc = y.x.ann.sc

/-- Cluster n's engine reads x in the `size` bytes at va for command y. -/
def EngineReads (s : State) (y : Cmd) (n : Nat) (va : W72) (size x : Nat) : Prop :=
  ∃ q, Mapped s n (s.cmdRing y) va false q ∧ EngineAt s y q size ∧ x = s.homeRead q.pa size

/-- It reads element e of tensor d at coordinate x: padding outside the extents and in an absent block (R76, R86), else the code there,
with the scale of its brick. -/
def ElementAt (s : State) (y : Cmd) (n : Nat) (d : Desc) (own : List (Nat × W64 × W64)) (x : List Int) (e : Elt) : Prop :=
  match if d.valid x then d.place own x else none with
  | none => e = .pad
  | some (_, va) =>
    if d.brick then ∃ ws : List W64, ws.length = d.bsize / 8 ∧
      (∀ (i : Nat) w, ws[i]? = some w → EngineReads s y n (va + BitVec.ofNat 72 (8 * i)) 8 w.toNat) ∧
      e = .code (brickCode d.format (ofWords ws) (d.inBrick x)) (brickScale d.format (ofWords ws) (d.inBrick x))
    else ∃ z, EngineReads s y n va (Fmt.bytes d.format) z ∧ e = .code z 0x7F

/-- One step of a collective's reduction (R329). -/
def reduceStep (op : RedOp) (f : Fmt) (r : Rnd) (a v : Exact) : Exact :=
  let x := match op with
    | .add => a.add (if isIntFmt f then .rne else r) v
    | .min => Exact.least false a v
    | .max => Exact.least true a v
  if isIntFmt f then x else valueOf .fp32 (round x .fp32 r false)

/-- The source element that command y takes for position o of its destination, read by cluster n's engine: what its mapping gives, or
the reduction of one position over the blocks in ascending order (R77, R311, R327 to R329). -/
def SourceAt (s : State) (y : Cmd) (n o : Nat) (e : Elt) : Prop :=
  let w := posOf y.dst.cnt o
  let reduced (op : RedOp) (loc : List Int) : Prop :=
    let block (b : Nat) : List Int :=
      dims.map (fun i => loc.getD i 0 + ((posOf (dims.map y.src.nbI) b).getD i 0 : Int) * (y.src.blkI i : Int))
    ∃ es : List Elt, es.length = y.src.blocks ∧ (∀ (b : Nat) z, es[b]? = some z → ElementAt s y n y.src y.oa (block b) z) ∧
      match es.map y.src.value with
      | [] => e = .pad
      | v :: vs => e = .exact (vs.foldl (reduceStep op y.src.format y.x.rnd) v)
  match y.op with
  | .reduce op => reduced op (w.map (fun (i : Nat) => (i : Int)))
  | .allred op => reduced op (y.dst.local_ (y.dst.coord w))
  | _ => ∃ x, y.sourceAt w = some x ∧ ElementAt s y n y.src y.oa x e

/-- The code that an element takes in the destination (R77): a code moves as it is between equal formats. -/
def codeFor (y : Cmd) (e : Elt) : Nat :=
  let from_ (z scale : Nat) : Nat :=
    if y.src.format = y.dst.format then z else round (scaledValue y.src.format z scale) y.dst.format y.x.rnd y.x.sat
  match e with
  | .exact x => round x y.dst.format y.x.rnd y.x.sat
  | .code z scale => from_ z scale
  | _ => from_ y.src.padCode 0x7F

/-- The addresses, sizes and values that the destination unit at ordinal p is written with, where every element below EXT0 moves: one
element, or the words of a brick that no higher block covers (R66, R72, R79, R87). -/
def unitWrites (y : Cmd) (p : Nat) (els : Nat → Elt) : List (W72 × Nat × Nat) :=
  match y.target p with
  | none => []
  | some (b, va) =>
    let code (e : Nat) : Nat := if y.live p e then codeFor y (els e) else 0
    if y.dst.brick then
      let bs := brickBytes y.dst.format code (y.scaleOf ((List.range 192).map (fun e => (els e, p + e))) (y.live p) [])
      ((List.range (y.dst.bsize / 8)).filter (fun i => !y.covered b (va + BitVec.ofNat 72 (8 * i)))).map (fun i =>
        (va + BitVec.ofNat 72 (8 * i), 8, ofBytes ((bs.drop (8 * i)).take 8)))
    else [(va, Fmt.bytes y.dst.format, code 0)]

/-- Commands that move tensors. -/
def movesTensor : EngOp → Bool
  | .spmm _ | .mergeU _ | .mergeI | .wback | .dropr | .fill => false
  | _ => true

/-- Unit o is due for command y, and with it the units that are written together with it: no other unit names their destinations, and
`els p e` is the element that position p + e takes. -/
structure UnitDue (s : State) (y : Cmd) (o : Nat) (els : Nat → Nat → Elt) : Prop where
  moves : movesTensor y.op = true
  next  : y.plan[y.pos]? = some o
  alone : ∀ p ∈ y.group o, p ∈ y.units ∧ ∀ r ∈ y.units, (y.target r).map Prod.snd = (y.target p).map Prod.snd → r = p
  reads : ∀ p ∈ y.group o, (∃ e < y.dst.unitLen, y.live p e = true) ∧ ∀ e < y.dst.unitLen, y.live p e = true → y.moved (p + e) = true ∧
    SourceAt s y (y.engine (y.targetBlock p)) (p + e) (els p e)

/-- The writes of the units W: each goes through its cluster's engine to a place of its own; afterwards each place holds its value, and
every other byte is as before. -/
structure WritesAll (s t : State) (y : Cmd) (W : List (Nat × W72 × Nat × Nat)) : Prop where
  wrote  : ∀ w ∈ W, ∀ q, Mapped s w.1 (s.cmdRing y) w.2.1 true q → t.homeRead q.pa w.2.2.1 = w.2.2.2 % 2 ^ (8 * w.2.2.1)
  others : ∀ a, (∀ w ∈ W, ∀ q, Mapped s w.1 (s.cmdRing y) w.2.1 true q → a < q.pa ∨ q.pa + w.2.2.1 ≤ a) → t.homeRead a 1 = s.homeRead a 1

/-- The places of the units W: each translates for its cluster's engine, which may write there, and no two share a byte. -/
def PlacedApart (s : State) (y : Cmd) (W : List (Nat × W72 × Nat × Nat)) : Prop :=
  (∀ w ∈ W, ∃ q, Mapped s w.1 (s.cmdRing y) w.2.1 true q ∧ EngineAt s y q w.2.2.1) ∧
    W.Pairwise (fun w v => ∀ q r, Mapped s w.1 (s.cmdRing y) w.2.1 true q → Mapped s v.1 (s.cmdRing y) v.2.1 true r →
      q.pa + w.2.2.1 ≤ r.pa ∨ r.pa + v.2.2.1 ≤ q.pa)

/-- Value v of entry i of a run: 0 where the run has no values (R325). -/
def EntryValue (s : State) (y : Cmd) (r : Run) (i : Nat) (v : Exact) : Prop :=
  if r.vfmt = 0 then v = .zero false
  else ∃ z, EngineReads s y y.cl (r.val + BitVec.ofNat 72 (i * valBytes r.vfmt)) (valBytes r.vfmt) z ∧ v = valueOf (valFmt r.vfmt) z

/-- The elements of row i that SPMM reads: `old` of Y, and for each entry of the sparse row its column, its value, and a row of X. -/
structure RowReads (s : State) (y : Cmd) (set : Bool) (i : Nat) (cols vals : List Nat) (old : Nat → Elt) (xs : Nat → Nat → Elt) : Prop where
  counts : let n := y.sel.getD (i + 1) 0 - y.sel.getD i 0
           cols.length = n ∧ vals.length = n
  inCols : let r := sparseOf y.ra
           ∀ (k : Nat) z, cols[k]? = some z → z < r.cols ∧
             EngineReads s y y.cl (r.col + BitVec.ofNat 72 ((y.sel.getD i 0 + k) * ixBytes r.ifmt)) (ixBytes r.ifmt) z
  inVals : let r := sparseOf y.ra
           ∀ (k : Nat) z, vals[k]? = some z →
             EngineReads s y y.cl (r.val + BitVec.ofNat 72 ((y.sel.getD i 0 + k) * valBytes r.vfmt)) (valBytes r.vfmt) z
  inOld  : ∀ j < (descOf y.rc).cntI 0, if set then old j = .exact (.zero false)
             else ElementAt s y y.cl (descOf y.rc) [] ((descOf y.rc).coord [j, i]) (old j)
  inXs   : ∀ j < (descOf y.rc).cntI 0, ∀ (k : Nat) z, cols[k]? = some z →
             ElementAt s y y.cl (descOf y.rb) [] ((descOf y.rb).coord [j, z]) (xs j k)

/-- The codes and places that a row of SPMM is written with (R322, R324). -/
def rowWrites (y : Cmd) (i : Nat) (vals : List Nat) (old : Nat → Elt) (xs : Nat → Nat → Elt) : List (Nat × W72 × Nat × Nat) :=
  let r := sparseOf y.ra
  let x := descOf y.rb
  let d := descOf y.rc
  let acc (j : Nat) : Exact := vals.zipIdx.foldl (fun a p =>
    valueOf .fp32 (round (a.add y.x.rnd ((valueOf (valFmt r.vfmt) p.1).mul (x.value (xs j p.2)))) .fp32 y.x.rnd false)) (d.value (old j))
  (List.range (d.cntI 0)).filterMap (fun j =>
    if d.valid (d.coord [j, i]) then (d.place [] (d.coord [j, i])).map (fun q =>
      (y.cl, q.2, Fmt.bytes d.format, round (acc j) d.format y.x.rnd y.x.sat)) else none)

/-- The line caches of the bays are well formed: each set stands once, under the key of its lines. -/
def BaysSorted (s : State) : Prop :=
  (s.bayLines.map Prod.fst).Pairwise (· < ·) ∧ ∀ p ∈ s.bayLines, ∀ l ∈ p.2, l.line % 128 = p.1 % 128

/-- The line caches of some bays of cluster n have been brought up to their homes, but for their own dirty bytes (R291, R300, R333); every
other bay's are as they were. -/
def BaysFresh (s t : State) (n : Nat) (bays : BitVec 16) : Prop :=
  ∀ k, match tget s.bayLines k with
    | none => tget t.bayLines k = none
    | some set =>
      if k / 2048 = n ∧ bays.getLsbD (k / 128 % 16) = true then ∃ out, tget t.bayLines k = some out ∧ out.length = set.length ∧
        ∀ (j : Nat) l, set[j]? = some l → ∃ z, out[j]? = some z ∧ z.line = l.line ∧ z.dirty = l.dirty ∧ z.hint = l.hint ∧
          ∀ i < 128, z.get i 1 = if l.dirty.getLsbD i then l.get i 1 else t.homeRead (128 * l.line + i) 1
      else tget t.bayLines k = some set

/-- The code of element e of an L6 brick: bit i of it is bit e mod 64 of plane word i of its group (R66). -/
def l6Code (brick : List Byte) (e : Nat) : Nat :=
  ((List.range 6).map (fun i => if (brick.getD (8 * (6 * (e / 64) + i) + e % 64 / 8) 0).getLsbD (e % 8) then 2 ^ i else 0)).sum

/-- The term of two L6 codes in units of 2^-21: the magnitudes are added, and the sum less 40 is decoded through t6 (R53, R68). -/
def l6Pair (a b : Nat) : Int :=
  if a % 32 = 0 ∨ b % 32 = 0 then 0
  else
    let msum : Int := ((a % 32 + b % 32 : Nat) : Int) - 40
    let p : Int := (([2048, 2435, 2896, 3444].getD (msum % 4).toNat 0 * 2 ^ (msum / 4 + 10).toNat : Nat) : Int)
    if a.testBit 5 = b.testBit 5 then p else -p

/-- The sum of a block's 24 terms. -/
def l6Sum (x y : List Byte) (blk : Nat) : Int := ((List.range 24).map (fun i => l6Pair (l6Code x (24 * blk + i)) (l6Code y (24 * blk + i)))).sum

end Sys2Proof.Safety

namespace Sys2Proof.Machine

/-- The rational number that an exact value is. -/
def Exact.rat : Exact → Option Rat
  | .zero _ => some 0
  | .fin n d => some (n / d)
  | _ => none

/-- The exact value of a special function: y = F(x) (R240). -/
def Fn.isValue (fn : Fn) (x y : ℝ) : Prop :=
  match fn with
  | .exp2 => y = 2 ^ x
  | .log2 => y = Real.logb 2 x
  | .sin => y = Real.sin (Real.pi * x)
  | .cos => y = Real.cos (Real.pi * x)
  | .tanh => y = Real.tanh x
  | .sigm => y = 1 / (1 + Real.exp (-x))
  | .erf => y = 2 / Real.sqrt Real.pi * ∫ t in (0 : ℝ)..x, Real.exp (-t ^ 2)

/-- A source so far out that no rounding boundary lies between the function's value and its limit. -/
def Fn.farOut (fn : Fn) (q : Rat) : Prop :=
  match fn with
  | .exp2 => q ≤ -200 ∨ 256 ≤ q
  | .tanh => 64 ≤ |q|
  | .sigm => 256 ≤ |q|
  | .erf => 8 ≤ |q|
  | _ => False

/-- A value as the formats give it: a quotient has a positive denominator and is not zero. -/
def Exact.sound : Exact → Prop
  | .fin n d => n ≠ 0 ∧ 0 < d
  | _ => True

end Sys2Proof.Machine

namespace Sys2Proof.Safety

open Sys2Proof.Machine

/-- v is what block blk of row x of A and of column y of B contributes: NaN for the scale 0xFF or the code 0x20 anywhere in it, else the
block sum under both scales, +0 where it is zero (R54, R68, R69). -/
structure L6Block (x y : List Byte) (blk : Nat) (v : Exact) : Prop where
  nan  : v = .nan ↔ x.getD (144 + blk) 0 = 0xFF ∨ y.getD (144 + blk) 0 = 0xFF ∨
    ∃ e, e / 24 = blk ∧ (l6Code x e = 0x20 ∨ l6Code y e = 0x20)
  sum  : v ≠ .nan → v.rat = some ((l6Sum x y blk : Rat) / 2 ^ 21 * 2 ^ ((x.getD (144 + blk) 0).toNat - 127 : Int) *
    2 ^ ((y.getD (144 + blk) 0).toNat - 127 : Int))
  zero : v ≠ .nan → l6Sum x y blk = 0 → v = .zero false

end Sys2Proof.Safety
end

