-- ==== Sys2Proof/Certificates/Slice0/Obligations.lean ====
section
/-! DEFINITION. The statements about the SZK-0960 that are to be proved, from the numbered rules of spec/. -/

open Sys2Proof Sys2Proof.Machine Sys2Proof.Safety

/-- R153 (R149, R152): every integer instruction of the generator, in both forms and for every type, computes its exact r, writes r
modulo 2^w and fills the bits above; it changes no condition bit, no other register, no memory, and it never traps on its values.
R153: with MUL, MULH, DIV and REM, fn 0100 is an illegal encoding: whatever the other bits, no instruction is decoded. -/
def Obligations.IntegerInstructionsWriteExactResult : Prop :=
  (∀ (s : State) (n slot : Nat) (c : Ctx) (t : GTy) (d a b : BitVec 6) (l : GLit),
    let x := source t (c.gv a)
    let y := source t (c.gv b)
    let z := litSource t l
    let u := ((c.gv b).setWidth 64).toNat
    Gives s n slot c (.addRegister t d a b) d (written t ((x) + y)) ∧
    Gives s n slot c (.subRegister t d a b) d (written t ((x) - y)) ∧
    Gives s n slot c (.mulRegister t d a b) d (written t ((x) * y)) ∧
    Gives s n slot c (.mulhRegister t d a b) d (written t (((x) * y).fdiv (2 ^ width t))) ∧
    Gives s n slot c (.divRegister t d a b) d (written t (if y = 0 then -1 else (x).tdiv (y))) ∧
    Gives s n slot c (.remRegister t d a b) d (written t (if y = 0 then x else x - y * (x).tdiv (y))) ∧
    Gives s n slot c (.andRegister t d a b) d (written t (bitwise (· &&& ·) t (x) (y))) ∧
    Gives s n slot c (.orRegister t d a b) d (written t (bitwise (· ||| ·) t (x) (y))) ∧
    Gives s n slot c (.xorRegister t d a b) d (written t (bitwise (· ^^^ ·) t (x) (y))) ∧
    Gives s n slot c (.minRegister t d a b) d (written t (min (x) (y))) ∧
    Gives s n slot c (.maxRegister t d a b) d (written t (max (x) (y))) ∧
    Gives s n slot c (.shlRegister t d a b) d (written t (shiftLeft t x u)) ∧
    Gives s n slot c (.shrRegister t d a b) d (written t (shiftRight t x u)) ∧
    Gives s n slot c (.movRegister t d a) d (written t x) ∧
    Gives s n slot c (.addLiteral t d a l) d (written t ((x) + z)) ∧
    Gives s n slot c (.subLiteral t d a l) d (written t ((x) - z)) ∧
    Gives s n slot c (.mulLiteral t d a l) d (written t ((x) * z)) ∧
    Gives s n slot c (.mulhLiteral t d a l) d (written t (((x) * z).fdiv (2 ^ width t))) ∧
    Gives s n slot c (.divLiteral t d a l) d (written t (if z = 0 then -1 else (x).tdiv (z))) ∧
    Gives s n slot c (.remLiteral t d a l) d (written t (if z = 0 then x else x - z * (x).tdiv (z))) ∧
    Gives s n slot c (.andLiteral t d a l) d (written t (bitwise (· &&& ·) t (x) (z))) ∧
    Gives s n slot c (.orLiteral t d a l) d (written t (bitwise (· ||| ·) t (x) (z))) ∧
    Gives s n slot c (.xorLiteral t d a l) d (written t (bitwise (· ^^^ ·) t (x) (z))) ∧
    Gives s n slot c (.minLiteral t d a l) d (written t (min (x) (z))) ∧
    Gives s n slot c (.maxLiteral t d a l) d (written t (max (x) (z))) ∧
    Gives s n slot c (.shlLiteral t d a l) d (written t (shiftLeft t x l.val.toNat)) ∧
    Gives s n slot c (.shrLiteral t d a l) d (written t (shiftRight t x l.val.toNat)) ∧
    Gives s n slot c (.movLiteral t d l) d (written t z)) ∧
  (∀ w0 w1 w2 w3 : W32, 6 ≤ majorOf w0 → majorOf w0 ≤ 13 → w0.toNat / 2 ^ 28 = 4 → ∀ i, decodeWords w0 w1 w2 w3 ≠ .ok i)

/-- R154, R157: CMP and KOP write one condition bit and nothing else.
R155, R156, R158, R159, R160, R195: what CLZ, POPC, SEL, EXT, LEA, ADR and SRD write. -/
def Obligations.ConditionBitAndAddressInstructionsWrite : Prop :=
  (∀ (s : State) (n slot : Nat) (c : Ctx) (r : Rel) (t : CTy) (d ka kb : BitVec 3) (a b : BitVec 6) (l : GLit) (table : BitVec 4),
    let ty : GTy := match t with | .i64 => .i64 | .n64 => .n64 | .i32 => .i32 | .a72 => .a72
    let holds (x y : Int) : Bool := match r with | .eq => x == y | .ne => x != y | .lt => decide (x < y) | .ge => decide (y ≤ x)
    (Ready s (.cmpRegister r t d a b) n slot c →
      WritesK s (.cmpRegister r t d a b) n slot c d (holds (source ty (c.gv a)) (source ty (c.gv b)))) ∧
    (Ready s (.cmpLiteral r t d a l) n slot c →
      WritesK s (.cmpLiteral r t d a l) n slot c d (holds (source ty (c.gv a)) (litSource ty l))) ∧
    (Ready s (.kop d ka kb table) n slot c →
      WritesK s (.kop d ka kb table) n slot c d
        (table.getLsbD ((if c.kv ka then 2 else 0) + (if c.kv kb then 1 else 0))))) ∧
  (∀ (s : State) (n slot : Nat) (c : Ctx) (t : BTy) (d a b m : BitVec 6) (k j : BitVec 3) (sh : BitVec 4) (l : GLit),
    let w : Nat := match t with | .n64 => 64 | .n32 => 32 | .a72 => 72
    (Ready s (.clz t d a) n slot c → ∃ z : Nat, z ≤ w ∧ WritesG s (.clz t d a) n slot c (nextPc (.clz t d a) c) d (BitVec.ofNat 72 z) ∧
      (∀ p, w - z ≤ p → p < w → (c.gv a).getLsbD p = false) ∧ (z < w → (c.gv a).getLsbD (w - 1 - z) = true)) ∧
    Gives s n slot c (.popc t d a) d (BitVec.ofNat 72 ((List.range w).countP (fun p => (c.gv a).getLsbD p))) ∧
    Gives s n slot c (.sel d k a b) d (if c.kv k then c.gv a else c.gv b) ∧
    Gives s n slot c (.ext false d a m) d (((c.gv a).setWidth (m.toNat + 1)).setWidth 72) ∧
    Gives s n slot c (.ext true d a m) d (((c.gv a).setWidth (m.toNat + 1)).signExtend 72) ∧
    Gives s n slot c (.lea d a b sh) d (c.gv a + ((c.gv b).setWidth 64).signExtend 72 * BitVec.ofNat 72 (2 ^ sh.toNat)) ∧
    Gives s n slot c (.adr d l) d ((c.pc + 4 * l.val).setWidth 72) ∧
    Gives s n slot c (.srd d j) d (BitVec.ofNat 72 (s.stream c.uid j.toNat)))

/-- R344: BQUERY writes the item of its table, as the front die's tables stand. -/
def Obligations.BqueryWritesItem : Prop :=
  ∀ (s : State) (n slot : Nat) (c : Ctx) (q : Launch) (d : BitVec 6) (l : GLit), s.launchOf c = some q →
    let job := bargeMode c.barge = 2
    (l.val = 0 → Gives s n slot c (.bquery d l) d (c.held.setWidth 72)) ∧
    (l.val = 1 → Gives s n slot c (.bquery d l) d (BitVec.ofNat 72 c.credit)) ∧
    (l.val = 2 → Gives s n slot c (.bquery d l) d (if job then BitVec.ofNat 72 q.expected else 0)) ∧
    (l.val = 3 → Gives s n slot c (.bquery d l) d (if job then BitVec.ofNat 72 q.doneN else 0)) ∧
    (l.val = 4 → Gives s n slot c (.bquery d l) d
      (match q.basin? (bargeEntry c.barge) with | some b => BitVec.ofNat 72 b.occupancy | none => 0))

/-- R161, R162, R163: BR, BRR, CALL, CALLR and LOOP. Taken, each goes to its target and a call links; not taken, it only retires.
R144 step 6, R161 to R163: a transfer that is taken to an address that holds no code raises the code-address trap at itself, and
every register, the program counter and the count stay as they were.
It rests on choices and readings of the model: log entry 40. -/
def Obligations.TransfersGoToTheirTargets : Prop :=
  (∀ (s : State) (n slot : Nat) (c : Ctx) (cond : BrCond) (k : BitVec 3) (d a : BitVec 6) (l : GLit),
    let taken : Bool := match cond with | .always => true | .ks => c.kv k | .kc => !c.kv k
    let rel : W64 := c.pc + 4 * l.val
    let reg : W64 := (c.gv a).setWidth 64
    let count : W64 := (c.gv d).setWidth 64
    (Ready s (.br cond k l) n slot c →
      (taken = true → CodeAt s c.pc rel → Becomes s (.br cond k l) n slot (passed (.br cond k l) c rel)) ∧
      (taken = false → Becomes s (.br cond k l) n slot (passed (.br cond k l) c (nextPc (.br cond k l) c)))) ∧
    (Ready s (.brr cond k a) n slot c →
      (taken = true → CodeAt s c.pc reg → Becomes s (.brr cond k a) n slot (passed (.brr cond k a) c reg)) ∧
      (taken = false → Becomes s (.brr cond k a) n slot (passed (.brr cond k a) c (nextPc (.brr cond k a) c)))) ∧
    (Ready s (.call d l) n slot c → CodeAt s c.pc rel →
      WritesG s (.call d l) n slot c rel d ((nextPc (.call d l) c).setWidth 72)) ∧
    (Ready s (.callr d a) n slot c → CodeAt s c.pc reg →
      WritesG s (.callr d a) n slot c reg d ((c.pc + 4).setWidth 72)) ∧
    (Ready s (.loop d l) n slot c →
      (count = 0 → Becomes s (.loop d l) n slot { passed (.loop d l) c (nextPc (.loop d l) c) with gt := c.gt }) ∧
      (count = 1 → WritesG s (.loop d l) n slot c (nextPc (.loop d l) c) d 0) ∧
      (count ≠ 0 → count ≠ 1 → CodeAt s c.pc rel → WritesG s (.loop d l) n slot c rel d ((count - 1).setWidth 72)))) ∧
  (∀ (s : State) (n slot : Nat) (c : Ctx) (cond : BrCond) (k : BitVec 3) (d a : BitVec 6) (l : GLit), Running c →
    let taken : Bool := match cond with | .always => true | .ks => c.kv k | .kc => !c.kv k
    let rel : W64 := c.pc + 4 * l.val
    let reg : W64 := (c.gv a).setWidth 64
    (¬ CodeAt s c.pc rel →
      (Ready s (.br cond k l) n slot c → taken = true → Traps s (.br cond k l) n slot c 2 (firstWord (.br cond k l))) ∧
      (Ready s (.call d l) n slot c → Traps s (.call d l) n slot c 2 (firstWord (.call d l))) ∧
      (Ready s (.loop d l) n slot c → 1 < slice (c.gv d) 63 0 → Traps s (.loop d l) n slot c 2 (firstWord (.loop d l)))) ∧
    (¬ CodeAt s c.pc reg →
      (Ready s (.brr cond k a) n slot c → taken = true → Traps s (.brr cond k a) n slot c 2 (firstWord (.brr cond k a))) ∧
      (Ready s (.callr d a) n slot c → Traps s (.callr d a) n slot c 2 (firstWord (.callr d a)))))

/-- R136: IPF and IPFR retire, writing no register, and do no more than ask for code lines: the fills on their way gain entries of this
generator's prefetch queue, and no line has come to a cache yet. The first line named, where a module's code holds it, is then in the
cache or on its way.
It rests on choices and readings of the model: log entries 43, 72. -/
def Obligations.CodePrefetchAsksForLines : Prop :=
  ∀ (s : State) (n slot : Nat) (c : Ctx) (lvl : Level) (m a : BitVec 6) (l : GLit),
    let asks (i : Instr) (start : W64) : Prop := Ready s i n slot c →
      ∃ t, exec i s = .next t ∧ Retired s n slot t (passed i c (nextPc i c)) ∧
        t = { s with ctxs := t.ctxs, clusters := t.clusters, code := t.code, dies := t.dies, lclockF := t.lclockF } ∧
        (∀ k, t.die k = { s.die k with lclock := (t.die k).lclock }) ∧
        (∃ new : List Fill, t.code.fills = s.code.fills ++ new ∧ ∀ f ∈ new, f.soft = some n ∧ f.seq = false) ∧
        (∀ lv unit line, t.code.has lv unit line = true → s.code.has lv unit line = true) ∧
        (CodeAt s start start → (s.code.fills.filter (fun f => f.soft = some n)) = [] →
          t.code.has lvl (codeUnit lvl n) (codeLine start) = true ∨ t.code.filling lvl (codeUnit lvl n) (codeLine start) = true)
    asks (.ipf lvl m l) (c.pc + 4 * l.val) ∧ asks (.ipfr lvl m a) ((c.gv a).setWidth 64)

/-- R166, R167, R337: SYSRD writes the system register that its literal numbers, and traps on every other number; a read of $fready finds
a double resolution that was left on a slot. SYSWR writes $ttag and $uscratch alone, and traps on every other number. -/
def Obligations.SystemRegistersReadAndWrite : Prop :=
  ∀ (s : State) (n slot : Nat) (c : Ctx) (q : Launch) (d a : BitVec 6) (l : GLit), s.launchOf c = some q →
    let die := s.die (n / 4)
    let table : List (Nat × W64) :=
      [(0x000, s.devshape), (0x001, (s.cluster n).cycle), (0x003, BitVec.ofNat 64 slot), (0x004, q.seq), (0x005, c.ring.setWidth 64),
       (0x006, q.part.setWidth 64), (0x007, c.entry), (0x008, BitVec.ofNat 64 (c.deadline - c.count)), (0x009, die.lclock.setWidth 64),
       (0x010, BitVec.ofNat 64 (n / 4)), (0x011, q.dieset.setWidth 64),
       (0x012, BitVec.ofNat 64 ((List.range (n / 4)).countP (fun i => q.dieset.getLsbD i))), (0x013, q.diegen.setWidth 64),
       (0x014, BitVec.ofNat 64 (n % 4)), (0x015, c.bays.setWidth 64), (0x020, c.fready), (0x030, c.ttag), (0x031, c.uscratch)]
    (∀ p ∈ table, l.val.toNat = p.1 → (l.val = 0x020 → ∀ f ∈ c.slots, f.2.dres = false) → Gives s n slot c (.sysrd d l) d (p.2.setWidth 72)) ∧
    (l.val = 0x020 → (∃ f ∈ c.slots, f.2.dres = true) → Running c → Ready s (.sysrd d l) n slot c →
      StopsIn s (.sysrd d l) n slot { c with slots := c.slots.map (fun f => (f.1, { f.2 with dres := false })) } s 8 2) ∧
    ((∀ p ∈ table, l.val.toNat ≠ p.1) → Running c → Ready s (.sysrd d l) n slot c →
      Traps s (.sysrd d l) n slot c 1 (firstWord (.sysrd d l))) ∧
    (Ready s (.syswr a l) n slot c →
      let c' := passed (.syswr a l) c (nextPc (.syswr a l) c)
      (l.val = 0x030 → Becomes s (.syswr a l) n slot { c' with ttag := (c.gv a).setWidth 64 }) ∧
      (l.val = 0x031 → Becomes s (.syswr a l) n slot { c' with uscratch := (c.gv a).setWidth 64 }) ∧
      (l.val ≠ 0x030 → l.val ≠ 0x031 → Running c → Traps s (.syswr a l) n slot c 1 (firstWord (.syswr a l))))

/-- R168, R170, R173: YIELD sets the deadline and clears the count, gives way to a context that is READY, and takes a save that has been
requested; STEP of a context that no change waits for, and NOP, only retire.
R170, R117: STEP of a context that a pending change still waits for counts it as arrived, and holds it while other members are missing.
The last member's STEP reaches the boundary: the die joins the launch, or leaves it, `$diegen` counts the change, every member that waits
in STEP is released, and the last goes on; but on a withdrawn die a member stays in STEP, to be saved (R118).
It rests on choices and readings of the model: log entries 14, 48. -/
def Obligations.YieldStepAndNop : Prop :=
  (∀ (s : State) (n slot : Nat) (c : Ctx) (l : GLit), Running c →
    (Ready s (.yield l) n slot c → c.ttag.getLsbD 63 = false →
      let c' : Ctx := { passed (.yield l) c (nextPc (.yield l) c) with deadline := l.val.toNat }
      (c.save = none → s.otherReady n slot = false → Becomes s (.yield l) n slot c') ∧
      (c.save = none → s.otherReady n slot = true → Becomes s (.yield l) n slot { c' with status := .ready, since := s.now, readyAt := (s.cluster n).gcycle }) ∧
      (∀ why ix, c.save = some ⟨why, none⟩ → c.stretch = none → s.freeFrame c.ring = some ix → s.windowHeld n slot c = false →
        ∃ t, exec (.yield l) s = .next t ∧
          t.ctx? n slot = some { c' with save := some ⟨why, some (s.now, ix)⟩, status := .blocked, since := s.now })) ∧
    (Ready s .step n slot c →
      (∀ q ch, s.launchOf c = some q → q.change = some ch → c.wait ≠ .stepDone → c.uid ∉ ch.left ∧ c.uid ∉ ch.inStep) →
      Becomes s .step n slot (passed .step c (nextPc .step c))) ∧
    (Ready s .nop n slot c → Becomes s .nop n slot (passed .nop c (nextPc .nop c)))) ∧
  ((∀ (s : State) (n slot : Nat) (c : Ctx) (q : Launch) (ch : Change) (other : Nat), Ready s .step n slot c → Running c →
    s.launchOf c = some q → q.change = some ch → c.wait ≠ .stepDone → c.uid ∈ ch.left → c.uid ∉ ch.inStep → other ∈ ch.left → other ≠ c.uid →
    ∃ t c' q', exec .step s = .next t ∧ t.ctx? n slot = some c' ∧ c'.status = .blocked ∧ c'.wait = .step ∧ c'.pc = c.pc ∧ c'.g = c.g ∧
      c'.count = c.count ∧ t.launchOf c' = some q' ∧
      q'.change = some { ch with left := ch.left.filter (· != c.uid), inStep := c.uid :: ch.inStep } ∧
      ∀ pa, t.homeRead pa 1 = s.homeRead pa 1) ∧
  (∀ (s : State) (n slot : Nat) (c : Ctx) (q : Launch) (ch : Change), Ready s .step n slot c → Running c → s.launchOf c = some q →
    q.change = some ch → c.wait ≠ .stepDone → c.uid ∉ ch.inStep → (∀ u, u ∈ ch.left ↔ u = c.uid) →
    let held := (List.range 8).countP (fun d => q.dieset.getLsbD d)
    let changed (t : State) (on : Bool) : Prop := ∃ q', t.launch? c.launch = some q' ∧ q'.change = none ∧ q'.diegen = q.diegen + 1 ∧
      ∀ d < 8, q'.dieset.getLsbD d = if d = ch.die then on else q.dieset.getLsbD d
    let released (t : State) (stays : Nat → Bool) : Prop := ∀ k x, k ≠ ctxKey n slot → tget s.ctxs k = some x → x.launch = c.launch →
      x.wait = .step → stays (k / 32) = false → ∃ y, tget t.ctxs k = some y ∧ y.wait = .stepDone
    let goesOn (t : State) : Prop := ∃ c', t.ctx? n slot = some c' ∧ c'.pc = nextPc .step c ∧ c'.wait = .none ∧ c'.g = c.g ∧ c'.k = c.k
    let plain : Prop := ch.add = false ∧ q.minDies < held ∧ ∀ e ∈ s.ctxs, e.2.launch = c.launch → e.2.stretch = none
    (ch.add = true → s.allowed q ch.die = true → s.holders ch.die < 8 → q.dieset.getLsbD ch.die = false → ch.die < 8 → held < q.maxDies →
      Happens s .step fun t => changed t true ∧ released t (fun _ => false) ∧ goesOn t) ∧
    (plain → n / 4 ≠ ch.die → Happens s .step fun t => changed t false ∧ released t (· == ch.die) ∧ goesOn t) ∧
    (plain → n / 4 = ch.die → q.dieset.getLsbD ch.die = true → c.save = none →
      Happens s .step fun t => changed t false ∧ released t (· == ch.die) ∧
        ∃ c', t.ctx? n slot = some c' ∧ c'.status = .blocked ∧ c'.wait = .step ∧ c'.pc = c.pc ∧ c'.g = c.g ∧ c'.save = some ⟨.boundary, none⟩)))

/-- R171, R172: TASKEND of a context with nothing left to wait for frees its slot, returns its cores, and leaves one completion to
post; while anything is left it waits; with a chamber held it raises the open-chamber fault. TRAP raises the program trap with its code.
It rests on choices and readings of the model: log entry 14. -/
def Obligations.TaskendAndTrap : Prop :=
  ∀ (s : State) (n slot : Nat) (c : Ctx) (l : GLit), Running c →
    let idle : Prop := s.allStarted n slot = true ∧ (∀ p ∈ c.slots, p.2.state ≠ .pending) ∧ ∀ i < 8, s.stream c.uid i = 0
    (Ready s .taskend n slot c →
      (s.holds n c.launch slot = true → Traps s .taskend n slot c 0x11 (firstWord .taskend)) ∧
      (s.holds n c.launch slot = false → s.leftOver c .taskend = none →
        (¬ idle → Blocks s .taskend n slot c .taskend) ∧
        (idle → ∃ t, exec .taskend s = .next t ∧ t.ctx? n slot = none ∧ (∀ k, k < 128 → ∀ x, t.core? n k = some x → x.slot ≠ slot) ∧
          ∃ p ∈ t.posts, p.launch = c.launch ∧ p.die = n / 4 ∧ p.mode = bargeMode c.barge ∧ p.succ = bargeSucc c.barge ∧
            p.weight = c.held ∧ p.credit = c.credit ∧ p.flagged = false))) ∧
    (Ready s (.trap l) n slot c → Traps s (.trap l) n slot c 4 ((l.val.setWidth 16).setWidth 64))

/-- R269, R270, R271, R285: LD, ST, ATOM and CAS of an aligned address that translates retire at once; each has started one access of its
size at its place, and the register it loads is the access's target until then.
R271 (R260, R365): LD, ST, ATOM and CAS of an address that is not aligned raise the memory trap of kind ALIGN, and of an address space
that is off the memory trap of kind NOTVALID; the record names the address, and nothing of the access happens.
It rests on choices and readings of the model: log entries 14, 22. -/
def Obligations.MemoryInstructionsStartOrTrap : Prop :=
  (∀ (s : State) (n slot : Nat) (c : Ctx) (t : MTy) (op : GAtom) (narrow : Bool) (d a g : BitVec 6) (x : MX) (p : Place),
    MayStart s n slot c x.ann →
    let va : W72 := c.gv a + x.off.signExtend 72
    let size : Nat := match t with | .i64 | .n64 => 8 | .i32 | .n32 => 4 | .a72 => 16 | .i16 | .n16 => 2 | .i8 | .n8 => 1
    let rmw : Nat := if narrow then 4 else 8
    let old : MTy := if narrow then .n32 else .n64
    (Ready s (.ld t d a x) n slot c → va.toNat % size = 0 → Mapped s n c.ring va false p →
      Starts s (.ld t d a x) n slot c (started s n slot c x.ann .load (.gen t d) va size p 0 0) (some d)) ∧
    (Ready s (.st t g a x) n slot c → va.toNat % size = 0 → Mapped s n c.ring va true p →
      Starts s (.st t g a x) n slot c (started s n slot c x.ann .store .none va size p ((c.gv g).setWidth 128) 0) none) ∧
    (Ready s (.atom narrow op d a g x) n slot c → va.toNat % rmw = 0 → Mapped s n c.ring va true p →
      Starts s (.atom narrow op d a g x) n slot c
        (started s n slot c x.ann (.atom op) (.gen old d) va rmw p ((c.gv g).setWidth 128) 0) (some d)) ∧
    (Ready s (.cas narrow d a g x) n slot c → va.toNat % rmw = 0 → Mapped s n c.ring va true p →
      Starts s (.cas narrow d a g x) n slot c
        (started s n slot c x.ann .cas (.gen old d) va rmw p ((c.gv g).setWidth 128) ((c.gv d).setWidth 128)) (some d))) ∧
  (∀ (s : State) (n slot : Nat) (c : Ctx) (t : MTy) (op : GAtom) (narrow : Bool) (d a g : BitVec 6) (x : MX), MayStart s n slot c x.ann →
    Running c →
    let va : W72 := c.gv a + x.off.signExtend 72
    let size : Nat := match t with | .i64 | .n64 => 8 | .i32 | .n32 => 4 | .a72 => 16 | .i16 | .n16 => 2 | .i8 | .n8 => 1
    let rmw : Nat := if narrow then 4 else 8
    let kind (z : Nat) : Option Nat := if va.toNat % z ≠ 0 then some 6 else if s.spaceOn c.ring = false then some 1 else none
    let traps (i : Instr) (k : Nat) : Prop := Ready s i n slot c → Traps s i n slot c 3 (firstWord i) ∧
      ∃ t c' r, exec i s = .next t ∧ t.ctx? n slot = some c' ∧ c'.stop.map (fun y => y.recs) = some [r] ∧
        wordAt r 5 = va.setWidth 64 ∧ slice (wordAt r 6) 63 56 = slice va 71 64 ∧ slice (wordAt r 6) 55 52 = k
    (∀ k, kind size = some k → traps (.ld t d a x) k ∧ traps (.st t g a x) k) ∧
    (∀ k, kind rmw = some k → traps (.atom narrow op d a g x) k ∧ traps (.cas narrow d a g x) k))

/-- R240: at every source but those of R241's table, FEXP2, FLOG2, FSIN, FCOS, FTANH, FSIGM and FERF round the true function once. Within
2^-2000 of a rounding boundary nothing is said (log entry 39); where the value is known exactly, FloatingPointWordsRoundOnce says it. -/
def Obligations.SpecialFunctionsRoundTheTrueValue : Prop :=
  ∀ (fn : Fn) (f : Fmt) (r : Rnd) (neg : Bool) (code : Nat) (q : Rat) (y : ℝ), f ∈ [Fmt.fp32, .fp16, .bf16] →
    (valueOf f code).rat = some q → q ≠ 0 → (fn = .log2 → 0 < q) → fn.isValue q y → (neg = true ↔ y < 0) →
    let apart (g : Rat) : Prop := (2 : ℝ) ^ (-2000 : ℤ) < abs ((g : ℝ) - abs y)
    (fn.farOut q ∨ ∀ k, apart (grid f k) ∧ apart ((grid f k + grid f (k + 1)) / 2)) →
    RoundedTo f r false neg (fun g => (g : ℝ) < abs y) (fun g => (g : ℝ) = abs y) (special fn (valueOf f code) f r)

/-- R177, R179, R187: EMIT and EMIT.M queue their inline words, and REPLAY and REPLAY.M a closed entry with a snapshot of the hole
registers, as one emission operation at the end of the context's queue, which holds at most four.
It rests on choices and readings of the model: log entry 73. -/
def Obligations.EmissionQueuesOneOperation : Prop :=
  ∀ (s : State) (n slot : Nat) (c : Ctx) (q : Launch) (die : Bool) (m a : BitVec 6) (len : ILen) (l : GLit) (e : CapEntry),
    c.stretch = none → s.launchOf c = some q →
    let put (i : Instr) (o : EmitOp) : Ctx :=
      { passed i c (nextPc i c) with queue := c.queue ++ [{ o with num := c.ops + 1, since := s.now }], ops := c.ops + 1 }
    let dest : W72 := BitVec.ofNat 72 (slice (c.gv a) 3 0 +
      256 * (if die then slice (c.gv a) 15 8 &&& q.dieset.toNat else 2 ^ (n / 4)))
    let key := captKey c.launch (l.val.setWidth 8)
    let k := s.cluster n
    let used : Cluster := { k with capt := tput k.capt key { e with used := k.captTick }, captTick := k.captTick + 1 }
    let snap := (List.range 8).map (fun h => tgetD c.h h 0)
    let emits (i : Instr) (o : EmitOp) : Prop := Ready s i n slot c →
      (c.queue.length < 4 → Becomes s i n slot (put i o)) ∧ (4 ≤ c.queue.length → Blocks s i n slot c .queueRoom)
    let replays (i : Instr) (o : EmitOp) : Prop := Ready s i n slot c → tget k.capt key = some e →
      (c.queue.length < 4 → ∃ t, exec i s = .next t ∧ Leaves s n slot t (put i o) used ∧
        t = { s with ctxs := t.ctxs, clusters := t.clusters }) ∧
      (4 ≤ c.queue.length → Blocks s i n slot c .queueRoom)
    (l.val = 0 → emits (.emit m l) { blankOp with words := s.payload c (.emit m l) (m.toNat + 1), codePc := c.pc }) ∧
    emits (.emitM die m a len)
      { blankOp with kind := .emitM, words := s.payload c (.emitM die m a len) (m.toNat + 1), codePc := c.pc, dest := dest, dieWide := die } ∧
    replays (.replay l) { blankOp with kind := .replay, entryCl := n, id := l.val.setWidth 8, gen := e.gen, snap := snap } ∧
    replays (.replayM die a l)
      { blankOp with kind := .replayM, entryCl := n, id := l.val.setWidth 8, gen := e.gen, snap := snap, dest := dest, dieWide := die }

/-- R177, R178, R182 to R186: CAPT.BEGIN, CAPT.END, CAPT.DROP, CAPT.LOAD and HSET, and EMIT with a stretch open, each retire. An open
stretch takes the words of EMIT and its named holes, and while the store has room that is all; CAPT.BEGIN opens one, in the entry's next
generation; CAPT.END closes it into a resident entry that is the most recently used; CAPT.DROP discards it or an entry; CAPT.LOAD makes
an entry resident, its place in least recent use as it is; HSET writes a hole register. That a first generation is 0 is the model's
choice (log 66).
R177, R183 to R188: the capture trap: each of these instructions in a place that the rules forbid stops its context with class 0x05 and
changes nothing else. The rows of R188's table are here one by one.
It rests on choices and readings of the model: log entries 66, 67. -/
def Obligations.CaptureStretchesAndEntries : Prop :=
  (∀ (s : State) (n slot : Nat) (c : Ctx) (m a : BitVec 6) (h : BitVec 3) (l : GLit) (st : Stretch) (e : CapEntry),
    let id : BitVec 8 := l.val.setWidth 8
    let key := captKey c.launch id
    let k := s.cluster n
    let on (i : Instr) (c' : Ctx) (k' : Cluster) : Prop := ∃ t, exec i s = .next t ∧ Leaves s n slot t c' k' ∧
      t = { s with ctxs := t.ctxs, clusters := t.clusters }
    let at_ (i : Instr) : Ctx := passed i c (nextPc i c)
    let names (v : W64) : List (BitVec 3) := (emitSlots v).map (fun x => x.1)
    (Ready s (.emit m l) n slot c → c.stretch = some st → (st.holes.map (fun x => x.1) ++ names l.val).Nodup →
      st.words.length + m.toNat + 1 ≤ 8192 →
      let more : Stretch := { st with words := st.words ++ s.payload c (.emit m l) (m.toNat + 1),
                                      holes := st.holes ++ (emitSlots l.val).map (fun x => (x.1, st.words.length + x.2.1, x.2.2)) }
      (captHeld s n < 2048 → Becomes s (.emit m l) n slot { at_ (.emit m l) with stretch := some more }) ∧
      ∃ k', on (.emit m l) { at_ (.emit m l) with stretch := some more } k' ∧ k' = { k with capt := k'.capt }) ∧
    (Ready s (.captBegin l) n slot c → c.stretch = none → s.framed n key = false → c.readsEntry n id = false →
      (tget k.capt key = none → k.capt.length + (s.stretches n).length < 256) →
      on (.captBegin l)
        { at_ (.captBegin l) with stretch := some ⟨id, match tget k.capt key with | some e => e.gen + 1 | none => 0, [], []⟩ }
        { k with capt := tdel k.capt key }) ∧
    (Ready s .captEnd n slot c → c.stretch = some st → st.words ≠ [] →
      ∃ k', on .captEnd { at_ .captEnd with stretch := none } k' ∧ k' = { k with capt := k'.capt, captTick := k.captTick + 1 } ∧
        tget k'.capt (captKey c.launch st.id) = some ⟨st.words, st.holes, st.gen, true, k.captTick⟩) ∧
    (Ready s (.captDrop l) n slot c →
      (c.stretch = some st → st.id = id → Becomes s (.captDrop l) n slot { at_ (.captDrop l) with stretch := none }) ∧
      (c.stretch = none → s.framed n key = false → c.readsEntry n id = false →
        on (.captDrop l) (at_ (.captDrop l)) { k with capt := tdel k.capt key })) ∧
    (Ready s (.captLoad l) n slot c → c.stretch = none →
      (tget k.capt key = none → Becomes s (.captLoad l) n slot (at_ (.captLoad l))) ∧
      (tget k.capt key = some e → ∃ k', on (.captLoad l) (at_ (.captLoad l)) k' ∧
        k' = { k with capt := k'.capt } ∧ tget k'.capt key = some { e with resident := true })) ∧
    (Ready s (.hset h a) n slot c →
      Becomes s (.hset h a) n slot { at_ (.hset h a) with h := tput c.h h.toNat ((c.gv a).setWidth 16) })) ∧
  (∀ (s : State) (n slot : Nat) (c : Ctx) (die : Bool) (m a : BitVec 6) (len : ILen) (l : GLit) (st : Stretch), Running c →
    let key := captKey c.launch (l.val.setWidth 8)
    let traps (i : Instr) : Prop := Ready s i n slot c → Traps s i n slot c 5 (firstWord i)
    (c.stretch.isSome = true → traps (.captBegin l) ∧ traps (.captLoad l) ∧ traps (.emitM die m a len) ∧ traps (.replay l) ∧
      traps (.replayM die a l)) ∧
    (c.stretch = some st →
      (¬ (st.holes.map (fun x => x.1) ++ (emitSlots l.val).map (fun x => x.1)).Nodup → traps (.emit m l)) ∧
      (8192 < st.words.length + m.toNat + 1 → traps (.emit m l)) ∧
      (st.id ≠ l.val.setWidth 8 → traps (.captDrop l)) ∧ (st.words = [] → traps .captEnd)) ∧
    (c.stretch = none → tget (s.cluster n).capt key = none → 256 ≤ (s.cluster n).capt.length + (s.stretches n).length → traps (.captBegin l)) ∧
    (c.stretch = none → traps .captEnd ∧ (l.val ≠ 0 → traps (.emit m l)) ∧ (s.framed n key = true → traps (.captDrop l) ∧ traps (.captBegin l)) ∧
      (tget (s.cluster n).capt key = none → c.queue.length < 4 → traps (.replay l) ∧ traps (.replayM die a l))))

/-- R192 to R196: VRD takes the oldest vote summary once it may be read, VTEST tells whether it may, and SWAIT retires once every word has
started and every stream that its mask names stands at its limit or below; until then VRD and SWAIT block. One that waits for its
streams has its first step behind it.
It rests on choices and readings of the model: log entries 14, 34. -/
def Obligations.VotesAndStreamWaits : Prop :=
  ∀ (s : State) (n slot : Nat) (c : Ctx) (d : BitVec 6) (k : BitVec 3) (l : GLit) (v : VoteEnt) (vs : List VoteEnt),
    (Ready s (.vrd d) n slot c →
      (c.votes = v :: vs → v.readable = true → ∃ t c', exec (.vrd d) s = .next t ∧ Alone s n slot t c' ∧
        c' = { passed (.vrd d) c (nextPc (.vrd d) c) with g := c'.g, votes := vs } ∧ c'.gv d = v.value.setWidth 72 ∧
        ∀ g, g ≠ d → c'.gv g = c.gv g) ∧
      (c.votes = v :: vs → v.readable = false → Blocks s (.vrd d) n slot c .vote) ∧
      (c.votes = [] → Blocks s (.vrd d) n slot c .vote)) ∧
    (Ready s (.vtest k) n slot c →
      (c.votes = v :: vs → WritesK s (.vtest k) n slot c k v.readable) ∧ (c.votes = [] → WritesK s (.vtest k) n slot c k false)) ∧
    (Ready s (.swait l) n slot c → s.leftOver c (.swait l) = none →
      let lim := slice l.val 17 8
      let low : Prop := ∀ i < 8, l.val.getLsbD i = true → s.stream c.uid i ≤ lim
      let one : Prop := s.allStarted n slot = true ∨ c.wait.started = true
      (one → low → Becomes s (.swait l) n slot (passed (.swait l) c (nextPc (.swait l) c))) ∧
      (¬ one → Blocks s (.swait l) n slot c .written) ∧
      (one → ¬ low → Blocks s (.swait l) n slot c (.counters (l.val.setWidth 8) lim)))

/-- R302: what FWAIT.ANY, FWAIT.ALL and FWAIT.FFR answer, and when each waits; a context with no fault left on its slots.
R298, R302, R303: FTEST writes a slot's status, FTEST.ADDR the address that ended it with XLATE or UNCORR; FCANCEL ends an engine
command that has not ended, detaches a slot that joins on a state word, and does nothing to any other slot.
It rests on choices and readings of the model: log entry 14. -/
def Obligations.FutureWaitsAndTests : Prop :=
  (∀ (s : State) (n slot : Nat) (c : Ctx) (d a : BitVec 6), (∀ p ∈ c.slots, p.2.dres = false ∧ p.2.uncorr = false) →
    let m : W64 := (c.gv a).setWidth 64
    let ready (f : BitVec 6) : Prop := m.getLsbD f.toNat = true ∧ c.fready.getLsbD f.toNat = true
    let failed (f : BitVec 6) : Prop := m.getLsbD f.toNat = true ∧ (c.slot f).state = .error
    (Ready s (.fwaitAny d a) n slot c →
      (m = 0 → Gives s n slot c (.fwaitAny d a) d 64) ∧
      (∀ f, ready f → (∀ h, h < f → ¬ ready h) → Gives s n slot c (.fwaitAny d a) d (BitVec.ofNat 72 f.toNat)) ∧
      (m ≠ 0 → (∀ f, ¬ ready f) → Blocks s (.fwaitAny d a) n slot c (.fany m))) ∧
    (Ready s (.fwaitAll d a) n slot c →
      (m &&& ~~~c.fready = 0 → ∃ v, Gives s n slot c (.fwaitAll d a) d v ∧ ∀ j < 72, v.getLsbD j = (decide (j < 64) && m.getLsbD j &&
        decide ((c.slot (BitVec.ofNat 6 j)).state = .error ∨ (c.slot (BitVec.ofNat 6 j)).state = .cancelled))) ∧
      (m &&& ~~~c.fready ≠ 0 → Blocks s (.fwaitAll d a) n slot c (.fall m))) ∧
    (Ready s (.fwaitFfr d a) n slot c →
      (∀ f, failed f → (∀ h, h < f → ¬ failed h) → Gives s n slot c (.fwaitFfr d a) d (BitVec.ofNat 72 f.toNat)) ∧
      ((∀ f, ¬ failed f) → m &&& ~~~c.fready = 0 → Gives s n slot c (.fwaitFfr d a) d 64) ∧
      ((∀ f, ¬ failed f) → m &&& ~~~c.fready ≠ 0 → Blocks s (.fwaitFfr d a) n slot c (.fffr m)))) ∧
  (∀ (s : State) (n slot : Nat) (c : Ctx) (d f : BitVec 6) (id : Nat) (va : W72) (pa : Nat),
    let x := c.slot f
    let state : Nat := match x.state with | .pending => 0 | .ok => 1 | .error => 2 | .cancelled => 3
    let c' := passed (.fcancel f) c (nextPc (.fcancel f) c)
    (x.dres = false →
      Gives s n slot c (.ftest d f) d (BitVec.ofNat 72 (x.op.toNat * 2 ^ 16 + x.code.toNat * 2 ^ 8 + x.kind.toNat * 2 ^ 4 + state)) ∧
      Gives s n slot c (.ftestAddr d f) d (if x.state = .error ∧ (x.code = 3 ∨ x.code = 8) then x.addr else 0)) ∧
    (Ready s (.fcancel f) n slot c →
      (x.state ≠ .pending → Becomes s (.fcancel f) n slot c') ∧
      (x.state = .pending → (∃ p b, x.work = .mma p b) → Becomes s (.fcancel f) n slot c') ∧
      (x.state = .pending → x.work = .command id → ∃ t, exec (.fcancel f) s = .next t ∧ Retired s n slot t c' ∧
        t = { s with ctxs := t.ctxs, clusters := t.clusters, cmds := s.cmds.map (fun y =>
          if y.id = id ∧ y.ended = false then { y with cancel := true, ended := true } else y) }) ∧
      (x.state = .pending → x.work = .join va pa → x.link = none → x.defer = none → ∃ t e, exec (.fcancel f) s = .next t ∧
        t.ctx? n slot = some e ∧ (e.slot f).state = .cancelled ∧ (e.slot f).work = .none ∧ (∀ h, h ≠ f → e.slot h = c.slot h) ∧
        e.pc = c'.pc ∧ e.count = c'.count ∧ (∀ g, x.target ≠ some g → e.gv g = c.gv g) ∧
        ∀ a, t.homeRead a 1 = s.homeRead a 1)))

/-- R335, R336: FSET.INIT arms a state word that is not PENDING, and faults on one that is; FSET.RES and FSET.CAN perform one resolution,
and raise the double-resolve fault on a word that is over. A resolution that ends a word with a continuation registered pushes it from
its own die (R340, R341). -/
def Obligations.FsetArmsAndResolves : Prop :=
  ∀ (s : State) (n slot : Nat) (c : Ctx) (m : BitVec 3) (a b : BitVec 6) (x : SX) (p : Place), Running c →
    let s0 := carried s n c x.ann p 16
    let w0 : W64 := BitVec.ofNat 64 (s0.homeRead p.pa 8)
    let w1 : W64 := BitVec.ofNat 64 (s0.homeRead (p.pa + 8) 8)
    let val : W64 := (c.gv b).setWidth 64
    p.pa % 16 = 0 → Roomy s0 p.pa →
    (SyncReady s (.fsetInit m a x) n slot c x.ann (c.gv a) 16 true p →
      (swState w0 ≠ 1 → ∃ t c', exec (.fsetInit m a x) s = .next t ∧ t.ctx? n slot = some c' ∧ synced (.fsetInit m a x) c c' ∧
        HoldsWords s0 t p.pa (BitVec.ofNat 64 (32 * m.toNat + 1)) 0) ∧
      (swState w0 = 1 → StopsIn s (.fsetInit m a x) n slot c s0 9 1)) ∧
    let s1 (v0 v1 : W64) : State := s0.writeSW x.ann.sc p.pa p.hint ⟨v0, v1⟩
    let pushes (i : Instr) (v0 v1 : W64) : Prop := Happens s i fun t => Continued (s1 v0 v1) t c (n / 4) (contAt (c.gv a) v0) ∧
      ∀ q z, (s1 v0 v1).launchOf c = some q → (s1 v0 v1).readBarge q.ring (contAt (c.gv a) v0) = .ok z → HoldsWords s0 t p.pa v0 v1
    (SyncReady s (.fsetRes a b x) n slot c x.ann (c.gv a) 16 true p →
      (∀ v0 v1, swState w0 < 2 → (swState w0 = 1 → swNeed w0 ≠ 0) → Resolution w0 w1 val false 0 false v0 v1 →
        (¬ fires w0 v0 → ∃ t c', exec (.fsetRes a b x) s = .next t ∧ t.ctx? n slot = some c' ∧ c'.pc = nextPc (.fsetRes a b x) c ∧ c'.g = c.g ∧
          c'.k = c.k ∧ HoldsWords s0 t p.pa v0 v1) ∧
        (fires w0 v0 → pushes (.fsetRes a b x) v0 v1)) ∧
      (2 ≤ swState w0 → StopsIn s (.fsetRes a b x) n slot c s0 8 1)) ∧
    (SyncReady s (.fsetCan a x) n slot c x.ann (c.gv a) 16 true p →
      (∀ v0 v1, swState w0 < 2 → (swState w0 = 1 → swNeed w0 ≠ 0) → Resolution w0 w1 0 false 0 true v0 v1 →
        (¬ fires w0 v0 → ∃ t c', exec (.fsetCan a x) s = .next t ∧ t.ctx? n slot = some c' ∧ c'.pc = nextPc (.fsetCan a x) c ∧ c'.g = c.g ∧
          c'.k = c.k ∧ HoldsWords s0 t p.pa v0 v1) ∧
        (fires w0 v0 → pushes (.fsetCan a x) v0 v1)) ∧
      (2 ≤ swState w0 → StopsIn s (.fsetCan a x) n slot c s0 8 1))

/-- R337, R338: FSTORE links a PENDING slot to a state word, and resolves the word at once from a slot that is not PENDING; FLOAD makes a
slot join on a word, which leaves PENDING at once where the word is over and passes on RESULT. An FSTORE that reads a slot which is not
PENDING, and an FLOAD that has waited for its slot, find the double resolution that was left on it.
It rests on choices and readings of the model: log entry 25. -/
def Obligations.FstoreAndFloadJoinSlotsAndWords : Prop :=
  ∀ (s : State) (n slot : Nat) (c : Ctx) (tv : Bool) (f a gt : BitVec 6) (x : SX) (len : ILen) (p : Place), Running c →
    let s0 := carried s n c x.ann p 16
    let w0 : W64 := BitVec.ofNat 64 (s0.homeRead p.pa 8)
    let w1 : W64 := BitVec.ofNat 64 (s0.homeRead (p.pa + 8) 8)
    let sl := c.slot f
    let found : Ctx := { c with slots := c.slots.map (fun y => if y.1 = f.toNat then (y.1, { y.2 with dres := false }) else y) }
    (Ready s (.fstore f a x) n slot c → sl.state ≠ .pending → sl.dres = true → StopsIn s (.fstore f a x) n slot found s 8 2) ∧
    (SyncReady s (.fstore f a x) n slot c x.ann (c.gv a) 16 true p → p.pa % 16 = 0 → Roomy s0 p.pa → sl.state = .pending ∨ sl.dres = false →
      (2 ≤ swState w0 → StopsIn s (.fstore f a x) n slot c s0 8 1) ∧
      (swState w0 < 2 → sl.link.isSome = true ∨ sl.defer.isSome = true → StopsIn s (.fstore f a x) n slot c s0 9 2) ∧
      (swState w0 < 2 → sl.link = none → sl.defer = none → sl.state = .pending → ∃ t c' v0, exec (.fstore f a x) s = .next t ∧
        t.ctx? n slot = some c' ∧ c'.slot f = { sl with link := some (c.gv a, x.ann) } ∧ c'.g = c.g ∧ c'.pc = nextPc (.fstore f a x) c ∧
        HoldsWords s0 t p.pa v0 w1 ∧ swState v0 = 1 ∧ swNeed v0 = (if swState w0 = 0 then 1 else swNeed w0) ∧
        slice v0 63 8 = slice w0 63 8 ∧ swReg v0 = swReg w0) ∧
      (∀ v0 v1, swState w0 < 2 → (swState w0 = 1 → swNeed w0 ≠ 0) → sl.link = none → sl.defer = none → sl.state ≠ .pending →
        Resolution w0 w1 sl.value (decide (sl.state = .error)) sl.code (decide (sl.state = .cancelled)) v0 v1 → ¬ fires w0 v0 →
        ∃ t c', exec (.fstore f a x) s = .next t ∧ t.ctx? n slot = some c' ∧ c'.g = c.g ∧ c'.pc = nextPc (.fstore f a x) c ∧
          HoldsWords s0 t p.pa v0 v1)) ∧
    (Ready s (.fload tv f a gt len) n slot c → sl.state = .pending → Blocks s (.fload tv f a gt len) n slot c (.slot f)) ∧
    (Ready s (.fload tv f a gt len) n slot c → sl.state ≠ .pending → c.wait = .slot f → sl.dres = true →
      StopsIn s (.fload tv f a gt len) n slot found s 8 2) ∧
    (Ready s (.fload tv f a gt len) n slot c → sl.state ≠ .pending → c.wait ≠ .slot f ∨ (sl.dres = false ∧ sl.uncorr = false) →
      (c.gv a).toNat % 16 = 0 → Mapped s n c.ring (c.gv a) false p →
      s.ownOrder c.uid .gen ⟨c.ops, 1, c.genSeq⟩ (placePart p.pa 16 p.ord) = true → Sound s p.pa 16 →
      let s1 := if p.ord = 0 then s.carryStrong c.uid .gen ⟨c.ops, 1, c.genSeq⟩ .device else s
      let u0 : W64 := BitVec.ofNat 64 (s1.homeRead p.pa 8)
      let u1 : W64 := BitVec.ofNat 64 (s1.homeRead (p.pa + 8) 8)
      ∃ t c', exec (.fload tv f a gt len) s = .next t ∧ t.ctx? n slot = some c' ∧ c'.pc = nextPc (.fload tv f a gt len) c ∧
        (c'.slot f).op = 0x56 ∧ (∀ h, h ≠ f → c'.slot h = c.slot h) ∧ (∀ g, tv = false ∨ g ≠ gt → c'.gv g = c.gv g) ∧
        (swState u0 < 2 → (c'.slot f).state = .pending ∧ (c'.slot f).work = .join (c.gv a) p.pa ∧
          (tv = true → (c'.slot f).target = some gt ∧ tget c'.gt gt.toNat = some (.slot f))) ∧
        (swState u0 = 2 → swErr u0 = false → (c'.slot f).state = .ok) ∧
        (swState u0 = 2 → swErr u0 = true → (c'.slot f).state = .error ∧ (c'.slot f).code.toNat = slice u0 63 56) ∧
        (swState u0 = 3 → (c'.slot f).state = .cancelled) ∧
        (2 ≤ swState u0 → tv = true → c'.gv gt = u1.setWidth 72) ∧ ∀ b, t.homeRead b 1 = s1.homeRead b 1)

/-- R339 (R334, R345): FREG of a barge that passes its checks stamps the barge by the registrant's mode and registers it in a word that has
none: REG is set and CONT names the barge. What the barge will count against is taken first: weight, or a credit, for which EXPECTED rises
where none is left (R105). A word that is over already pushes the barge at once (R340), and one with a continuation gives back what was
taken.
It rests on choices and readings of the model: log entries 19, 25. -/
def Obligations.FregRegistersContinuation : Prop :=
  ∀ (s : State) (n slot : Nat) (c : Ctx) (q : Launch) (a b g : BitVec 6) (x : SX) (p r : Place),
    let i : Instr := .freg a b g x
    let s0 := carried s n c x.ann p 16
    let gc : W64 := (c.gv g).setWidth 64
    let mode := (bargeMode c.barge).toNat
    let key : Key := ⟨c.ops, 1, c.genSeq + 1⟩
    let sc := effScope r.pa x.ann.sc
    let s1 := if r.ord = 0 then s0.carryStrong c.uid .gen key sc else s0
    let image := stamped c.barge (toWords 8 (toBytes 64 (s1.homeRead r.pa 64))) gc
    let s2 := [0, 2, 4, 5].foldl (fun (t : State) j => t.homeWrite (r.pa + 8 * j) 8 (wordAt image j).toNat r.hint) s1
    SyncReady s i n slot c x.ann (c.gv a) 16 true p → s.launchOf c = some q →
    p.pa % 16 = 0 → r.pa % 64 = 0 → l2Key p.pa ≠ l2Key r.pa → Roomy s1 p.pa → Roomy s1 r.pa →
    (c.gv b).toNat % 64 = 0 → slice (c.gv b) 71 54 = slice (c.gv a) 71 54 → Mapped s0 n c.ring (c.gv b) true r →
    s0.ownOrder c.uid .gen key (placePart r.pa 64 r.ord) = true → Sound s0 r.pa 64 →
    s0.cutCarry c.uid .gen key x.ann.pm sc (decide (r.ord = 0)) = none → s0.bargeOk q.part image = true →
    (mode = 0 ∧ gc = 0) ∨ (mode = 1 ∧ gc ≠ 0 ∧ gc < c.held) ∨ (mode = 2 ∧ q.expected + (1 - c.credit) ≤ 2 ^ 48 - 1) →
    let w0 : W64 := BitVec.ofNat 64 (s1.homeRead p.pa 8)
    let w1 : W64 := BitVec.ofNat 64 (s1.homeRead (p.pa + 8) 8)
    let registers (v0 : W64) (t : State) : Prop := t.homeRead p.pa 8 = v0.toNat ∧ toWords 8 (toBytes 64 (t.homeRead r.pa 64)) = image
    let names (v0 : W64) : Prop := swReg v0 = true ∧ slice v0 55 8 = slice (c.gv b) 53 6 ∧ slice v0 2 0 = slice w0 2 0 ∧
      slice v0 7 5 = slice w0 7 5 ∧ slice v0 63 56 = slice w0 63 56
    (swState w0 < 2 → swReg w0 = false → ∃ t c' v0 q', exec i s = .next t ∧ t.ctx? n slot = some c' ∧ c'.pc = nextPc i c ∧ c'.g = c.g ∧
      c'.k = c.k ∧ c'.held = (if mode = 1 then c.held - gc else c.held) ∧ c'.credit = (if mode = 2 then c.credit - 1 else c.credit) ∧
      t.launch? c.launch = some q' ∧ q'.expected = q.expected + (if mode = 2 then 1 - c.credit else 0) ∧
      registers v0 t ∧ names v0 ∧ swFired v0 = swFired w0) ∧
    (2 ≤ swState w0 → swReg w0 = false → ∃ t v0, exec i s = .next t ∧ registers v0 t ∧ names v0 ∧ swFired v0 = true ∧
      Continued (s2.writeSW x.ann.sc p.pa p.hint ⟨v0, w1⟩) t c (n / 4) (c.gv b)) ∧
    (swReg w0 = true → Running c → ∃ t c', exec i s = .next t ∧ t.ctx? n slot = some c' ∧ Stopped c c' 7 (firstWord i) ∧ c'.held = c.held ∧
      (c.credit ≠ 0 → c'.credit = c.credit) ∧ t.homeRead p.pa 8 = w0.toNat)

/-- R345: SPAWN, SPAWN.MASK and SPAWN.ROOT of barges that pass their checks push every one of them in order, stamped by the mode of the
barge that pushes, which gives up weight or credits for them; credits that it lacks raise EXPECTED (R105). A mask of none pushes nothing.
R343 (R105): JRAISE raises EXPECTED of the job and the context's credit by its literal; outside job mode, or past 2^48 - 1, it raises the
SPAWN fault.
It rests on choices and readings of the model: log entry 25. -/
def Obligations.SpawnAndJraiseExtendTheJob : Prop :=
  (∀ (s : State) (n slot : Nat) (c : Ctx) (q : Launch) (a g : BitVec 6) (x : MX) (p : Place),
    let s0 := carried s n c x.ann p 64
    let s1 := (s0.readAt n none x.ann.sc p.pa 64 p.hint).2
    let raw := toWords 8 (toBytes 64 (s0.readAt n none x.ann.sc p.pa 64 p.hint).1)
    let image := stampPrio raw (min (bargePrio raw) q.prio)
    let mode := (bargeMode c.barge).toNat
    let w := x.off
    let mask : W64 := (c.gv g).setWidth 64
    let items := (List.range 64).filter (fun j => mask.getLsbD j)
    let fits (l : List (List W64)) : Prop := (∀ b ∈ l, s1.bargeOk q.part b = true) ∧ q.basins.length + l.length ≤ 1024
    let paid (k : Nat) : Prop := (mode = 0 ∧ w = 0) ∨ (mode = 1 ∧ w ≠ 0 ∧ k * w.toNat < c.held.toNat) ∨
      (mode = 2 ∧ q.expected + (k - c.credit) ≤ 2 ^ 48 - 1)
    let pushes (i : Instr) (l : List (List W64)) (held : W64) (credit rise : Nat) : Prop :=
      ∃ t c', exec i s = .next t ∧ t.ctx? n slot = some c' ∧
        c' = { passed i c (nextPc i c) with genSeq := c.genSeq + 1, held := held, credit := credit, monitor := c'.monitor } ∧
        (∃ q', t.launch? c.launch = some q' ∧ q'.expected = q.expected + rise) ∧
        t.pushes = s1.pushes + l.length ∧ (∀ j b, l[j]? = some b → HasQueued t c.launch (n / 4) b (s1.pushes + j)) ∧
        ∀ b, t.homeRead b 1 = s1.homeRead b 1
    s1.launchOf c = some q → q.aborted = false → q.faulted = false → q.dieset.getLsbD (n / 4) = true → q.change = none →
    (SyncReady s (.spawn a x) n slot c x.ann (c.gv a) 64 false p → fits [stamped c.barge image w] → paid 1 →
      pushes (.spawn a x) [stamped c.barge image w] (if mode = 1 then c.held - w else c.held) (if mode = 2 then c.credit - 1 else c.credit)
        (if mode = 2 then 1 - c.credit else 0)) ∧
    (SyncReady s (.spawnMask a g x) n slot c x.ann (c.gv a) 64 false p →
      let l := items.map (fun j => stamped c.barge (image.set 7 (BitVec.ofNat 64 j)) w)
      (items = [] → ∃ t c', exec (.spawnMask a g x) s = .next t ∧ t.ctx? n slot = some c' ∧ synced (.spawnMask a g x) c c' ∧
        t.pushes = s0.pushes ∧ ∀ b, t.homeRead b 1 = s0.homeRead b 1) ∧
      (items ≠ [] → fits l → paid items.length → pushes (.spawnMask a g x) l
        (if mode = 1 then c.held - BitVec.ofNat 64 (items.length * w.toNat) else c.held)
        (if mode = 2 then c.credit - items.length else c.credit) (if mode = 2 then items.length - c.credit else 0))) ∧
    (SyncReady s (.spawnRoot a x) n slot c x.ann (c.gv a) 64 false p → fits [image] → (bargeMode image).toNat < 2 → w = 0 →
      pushes (.spawnRoot a x) [image] c.held c.credit 0)) ∧
  (∀ (s : State) (n slot : Nat) (c : Ctx) (q : Launch) (l : GLit), Ready s (.jraise l) n slot c → Running c → s.launchOf c = some q →
    (bargeMode c.barge = 2 → q.expected + l.val.toNat ≤ 2 ^ 48 - 1 → ∃ t q', exec (.jraise l) s = .next t ∧
      Retired s n slot t { passed (.jraise l) c (nextPc (.jraise l) c) with credit := c.credit + l.val.toNat } ∧
      t = { s with ctxs := t.ctxs, clusters := t.clusters, launches := t.launches } ∧
      t.launch? c.launch = some q' ∧ q' = { q with expected := q.expected + l.val.toNat }) ∧
    (bargeMode c.barge ≠ 2 ∨ 2 ^ 48 - 1 < q.expected + l.val.toNat → Traps s (.jraise l) n slot c 6 (firstWord (.jraise l))))

/-- R305 to R307 (R151, R299, R301): each of the fifteen engine commands retires when its engine has room: it enters the engine with its
operands, and its slot, and its target if it names one, are PENDING. A PENDING slot, or a full engine, holds it. One that has waited for
its slot finds the double resolution that was left on it (R337).
It rests on choices and readings of the model: log entry 14. -/
def Obligations.EngineCommandsAreAccepted : Prop :=
  ∀ (s : State) (n slot : Nat) (c : Ctx) (tv dz set : Bool) (op : RedOp) (f a b g gt : BitVec 6) (x : EX),
    let t? : Option (BitVec 6) := if tv then some gt else none
    let two : List (Instr × BitVec 10 × EngOp) :=
      [(.copy f a b x, 0x70, .copy), (.clBcast f a b x, 0x76, .bcast), (.clReduce op f a b x, 0x77, .reduce op),
       (.clAllred op f a b x, 0x78, .allred op), (.clGather f a b x, 0x79, .clGather), (.clScatter f a b x, 0x7A, .clScatter),
       (.clA2a f a b x, 0x7B, .a2a), (.wback f a b x, 0x7C, .wback), (.dropr f a b x, 0x7D, .dropr), (.fill f a b x, 0x7E, .fill)]
    let three : List (Instr × BitVec 10 × EngOp × Option (BitVec 6)) :=
      [(.gather tv f a b g gt x, 0x71, .gather, t?), (.scatter tv f a b g gt x, 0x72, .scatter, t?), (.spmm set f a b g x, 0x73, .spmm set, none),
       (.mergeU tv dz f a b g gt x, 0x74, .mergeU dz, t?), (.mergeI tv f a b g gt x, 0x75, .mergeI, t?)]
    let room : Prop := (s.cmds.filter (fun y => y.cl = n && !y.ended)).length < 64
    let accepts (i : Instr) (major : BitVec 10) (e : EngOp) (target : Option (BitVec 6)) (third : Option W72) : Prop :=
      Ready s i n slot c →
      ((c.slot f).state = .pending → Blocks s i n slot c (.slot f)) ∧
      (Running c → (c.slot f).state ≠ .pending → c.wait = .slot f → (c.slot f).dres = true → StopsIn s i n slot
        { c with slots := c.slots.map (fun y => if y.1 = f.toNat then (y.1, { y.2 with dres := false }) else y) } s 8 2) ∧
      let sound : Prop := c.wait ≠ .slot f ∨ ((c.slot f).dres = false ∧ (c.slot f).uncorr = false)
      (sound → (c.slot f).state ≠ .pending → ¬ room → Blocks s i n slot c .engineRoom) ∧
      (sound → (c.slot f).state ≠ .pending → room → 1023 ≤ s.stream c.uid x.ann.os.toNat → Blocks s i n slot c (.stream x.ann.os)) ∧
      (sound → (c.slot f).state ≠ .pending → room → s.stream c.uid x.ann.os.toNat < 1023 → ∃ t c' y, exec i s = .next t ∧ Retired s n slot t c' ∧
        t = { s with ctxs := t.ctxs, clusters := t.clusters, nextId := s.nextId + 1, cmds := s.cmds ++ [y] } ∧
        (y.id = s.nextId ∧ y.cl = n ∧ y.slot = slot ∧ y.uid = c.uid ∧ y.f = f ∧ y.op = e ∧ y.a = c.gv a ∧ y.b = c.gv b ∧ y.x = x ∧
          y.key = ⟨c.ops, 1, c.genSeq⟩ ∧ y.begun = false ∧ y.ended = false ∧ y.cancel = false ∧ ∀ v, third = some v → y.c = v) ∧
        c' = { passed i c (nextPc i c) with genSeq := c.genSeq + 1, slots := c'.slots, gt := c'.gt } ∧
        ((c'.slot f).state = .pending ∧ (c'.slot f).op = major ∧ (c'.slot f).work = .command s.nextId ∧ (c'.slot f).target = target) ∧
        (∀ h, h ≠ f → c'.slot h = c.slot h) ∧ (∀ h, target = some h → tget c'.gt h.toNat = some (.slot f)) ∧
        ∀ pa, t.homeRead pa 1 = s.homeRead pa 1)
    (∀ e ∈ two, accepts e.1 e.2.1 e.2.2 none none) ∧ ∀ e ∈ three, accepts e.1 e.2.1 e.2.2.1 e.2.2.2 (some (c.gv g))

/-- R349: FL.INIT.MEM and FL.INIT.WIN write the whole flight afresh: every chamber FREE, both indices 0, the base, kind and shape named, the
executing context its owner; no other flight, register or byte of memory changes.
It rests on choices and readings of the model: log entry 31. -/
def Obligations.FlightInitWritesItsImage : Prop :=
  ∀ (s : State) (n slot : Nat) (c : Ctx) (a g : BitVec 6) (l : GLit) (x : Core),
    let fl := l.val.toNat
    let count := slice (c.gv g) 3 0 + 1
    let size := slice (c.gv g) 31 8
    let shape : Prop := slice (c.gv g) 71 32 = 0 ∧ slice (c.gv g) 7 4 = 0 ∧ size ≠ 0 ∧ size % 128 = 0
    let room : Prop := match s.flight? n c.launch fl with
      | some y => (y.away = false ∨ y.uid = c.uid) ∧ ∀ z ∈ y.cst, z = .free
      | none => (s.flights.filter (fun z => z.cl = n)).length < 32
    let w : W72 := c.gv a
    let k := slice w 24 18
    let makes (win : Bool) (base : W72) (core : Nat) : Prop :=
      ∃ t y, exec (.flInit win a g l) s = .next t ∧
        Retired s n slot t (passed (.flInit win a g l) c (nextPc (.flInit win a g l) c)) ∧
        t = { s with ctxs := t.ctxs, clusters := t.clusters, flights := t.flights } ∧ t.flight? n c.launch fl = some y ∧
        y = { cl := n, launch := c.launch, fl := fl, owner := slot, uid := c.uid, core := core, window := win, base := base, count := count,
              size := size, waitIx := 0, acqIx := 0, cst := List.replicate count .free, hold := List.replicate count 0, defer := 0, bad := 0,
              away := false } ∧
        ∀ z, (z.cl = n ∧ z.launch = c.launch ∧ z.fl = fl) ∨ (z ∈ t.flights ↔ z ∈ s.flights)
    (Ready s (.flInit false a g l) n slot c → shape → room → w.toNat % 128 = 0 → makes false w 0) ∧
    (Ready s (.flInit true a g l) n slot c → shape → room → slice w 31 28 = 0 →
      slice w 26 25 = (if w.getLsbD 27 then n % 4 else 0) → s.core? n k = some x → x.slot = slot →
      slice w 17 0 + count * size ≤ slice (s.partition c) 13 8 * 4096 → x.j < 128 →
      makes true (BitVec.ofNat 72 (slice w 31 25 * 2 ^ 25 + x.j * 2 ^ 18 + slice w 17 0)) k)

/-- R350: FL.ACQ takes the next FREE chamber and FL.WAIT the next FULL one: it is FILLING or DRAINING for this context, the index moves on,
and the register receives the chamber, its BAD bit and its window address; a chamber that is not ready holds the context.
R350: FL.COMMIT makes a chamber that the context fills FULL, and FL.REL one that it drains FREE; the .F forms wait for a PENDING slot,
which then carries the step, and mark a commit BAD where the slot has ended other than OK.
It rests on choices and readings of the model: log entries 14, 23. -/
def Obligations.FlightCommandsTakeEffect : Prop :=
  (∀ (s : State) (n slot : Nat) (c : Ctx) (d : BitVec 6) (l : GLit) (y : Flight),
    let fl := l.val.toNat
    let addr (j : Nat) : Nat := if y.window then
      (slice y.base 31 25 * 2 ^ 25 + y.core * 2 ^ 18 + (slice y.base 17 0 + j * y.size) % 2 ^ 18) * 2 ^ 32 else 0
    let takes (i : Instr) (j : Nat) (st : Chamber) (v : Nat) (acq wt : Nat) : Prop :=
      ∃ t z, exec i s = .next t ∧ (∃ c', Retired s n slot t c' ∧ c' = { passed i c (nextPc i c) with g := c'.g } ∧
          c'.gv d = BitVec.ofNat 72 v ∧ ∀ h, h ≠ d → c'.gv h = c.gv h) ∧
        t = { s with ctxs := t.ctxs, clusters := t.clusters, flights := t.flights, bayLines := t.bayLines } ∧
        (∀ pa, t.homeRead pa 1 = s.homeRead pa 1) ∧ t.flight? n c.launch fl = some z ∧
        z = { y with cst := y.cst.set j st, hold := y.hold.set j slot, acqIx := acq, waitIx := wt }
    s.flight? n c.launch fl = some y → (y.away = false ∨ y.uid = c.uid) → y.core < 128 →
    y.cst.length = y.count → y.acqIx < y.count → y.waitIx < y.count →
    (∀ p ∈ s.clusterCtxs n, p.1 ≠ slot → ∀ q f u, p.2.wait ≠ .flight q f u) →
    (Ready s (.flAcq d l) n slot c →
      (y.st y.acqIx = .free → takes (.flAcq d l) y.acqIx .filling (y.acqIx + addr y.acqIx) ((y.acqIx + 1) % y.count) y.waitIx) ∧
      (y.st y.acqIx ≠ .free → c.wait = .none → Blocks s (.flAcq d l) n slot c (.flight true (l.val.setWidth 4) s.now))) ∧
    (Ready s (.flWait d l) n slot c →
      (y.st y.waitIx = .full → takes (.flWait d l) y.waitIx .draining
        (y.waitIx + (if y.bad.getLsbD y.waitIx then 2 ^ 8 else 0) + addr y.waitIx) y.acqIx ((y.waitIx + 1) % y.count)) ∧
      (y.st y.waitIx ≠ .full → c.wait = .none → Blocks s (.flWait d l) n slot c (.flight false (l.val.setWidth 4) s.now)))) ∧
  (∀ (s : State) (n slot : Nat) (c : Ctx) (f a : BitVec 6) (x : MX) (y : Flight),
    let fl := x.off.toNat
    let j := slice (c.gv a) 63 0
    let sl := c.slot f
    let s0 := carriedStep s c x.ann
    let ends (i : Instr) (z : Flight) : Prop := ∃ t c', exec i s = .next t ∧ t.ctx? n slot = some c' ∧ synced i c c' ∧
      t.flight? n c.launch fl = some z ∧ ∀ b, t.homeRead b 1 = s0.homeRead b 1
    let defers (i : Instr) : Prop := ∃ t c', exec i s = .next t ∧ t.ctx? n slot = some c' ∧
      c'.slot f = { sl with defer := some (fl, j) } ∧ (∀ h, h ≠ f → c'.slot h = c.slot h) ∧ c'.g = c.g ∧ c'.pc = nextPc i c ∧
      t.flight? n c.launch fl = some { y with defer := putBit y.defer j true } ∧ ∀ b, t.homeRead b 1 = s0.homeRead b 1
    let full (bad : Bool) : Flight := { y with defer := putBit y.defer j false, cst := y.cst.set j .full,
                                               bad := if bad then putBit y.bad j true else y.bad }
    let free : Flight := { y with defer := putBit y.defer j false, cst := y.cst.set j .free, bad := putBit y.bad j false }
    s.flight? n c.launch fl = some y → (y.away = false ∨ y.uid = c.uid) → MayStart s n slot c x.ann →
    s.predsDone n slot c.uid .gen ⟨c.ops, 1, c.genSeq⟩ x.ann.pm x.ann.sc true = true → Carriable s c x.ann x.ann.sc false →
    sl.state = .pending ∨ sl.dres = false → j < y.count → y.cst.length = y.count → y.hold.getD j 0 = slot → y.defer.getLsbD j = false →
    (y.st j = .filling →
      (Ready s (.flCommit a x) n slot c → ends (.flCommit a x) (full false)) ∧
      (Ready s (.flCommitF f a x) n slot c → sl.defer = none → sl.link = none →
        (sl.state = .pending → defers (.flCommitF f a x)) ∧
        (sl.state ≠ .pending → ends (.flCommitF f a x) (full (decide (sl.state ≠ .ok)))))) ∧
    (y.st j = .draining →
      (Ready s (.flRel a x) n slot c → ends (.flRel a x) free) ∧
      (Ready s (.flRelF f a x) n slot c → sl.defer = none → sl.link = none →
        (sl.state = .pending → defers (.flRelF f a x)) ∧ (sl.state ≠ .pending → ends (.flRelF f a x) free))))

/-- R349, R350, R362: the flight fault, with each of its reasons: no flight of that name (1); a shape or a base that is refused (2); a chamber
that is not FREE at FL.INIT, and a step of a chamber out of range or not held so (3); a step of a chamber whose step is deferred, or by a
slot that carries a step or an FSTORE link (4); a new flight in a full table (5). The .F form of a slot that is not PENDING finds a double
resolution that was left on it (R337).
It rests on choices and readings of the model: log entry 23. -/
def Obligations.FlightFaults : Prop :=
  ∀ (s : State) (n slot : Nat) (c : Ctx) (win : Bool) (d f a g : BitVec 6) (l : GLit) (x : MX) (y : Flight), Running c →
    let faults (i : Instr) (reason : Nat) : Prop := Ready s i n slot c →
      Traps s i n slot c 0x0A (firstWord i) ∧ StopsIn s i n slot c s 0x0A reason
    let stops (i : Instr) (reason : Nat) : Prop := Ready s i n slot c → StopsIn s i n slot c (carriedStep s c x.ann) 0x0A reason
    let j := slice (c.gv a) 63 0
    let shape : Prop := slice (c.gv g) 71 32 = 0 ∧ slice (c.gv g) 7 4 = 0 ∧ slice (c.gv g) 31 8 ≠ 0 ∧ slice (c.gv g) 31 8 % 128 = 0
    let here : Prop := ∀ z, s.flight? n c.launch l.val.toNat = some z → z.away = false ∨ z.uid = c.uid
    let based : Prop := win = false ∧ (c.gv a).toNat % 128 = 0
    let held (st : Chamber) : Prop := j < y.count ∧ y.st j = st ∧ y.hold.getD j 0 = slot
    let sl := c.slot f
    let found : Ctx := { c with slots := c.slots.map (fun y => if y.1 = f.toNat then (y.1, { y.2 with dres := false }) else y) }
    let finds (i : Instr) : Prop := Ready s i n slot c → StopsIn s i n slot found (carriedStep s c x.ann) 8 2
    (s.flight? n c.launch l.val.toNat = none → faults (.flAcq d l) 1 ∧ faults (.flWait d l) 1) ∧
    (s.flight? n c.launch x.off.toNat = none →
      faults (.flCommit a x) 1 ∧ faults (.flCommitF f a x) 1 ∧ faults (.flRel a x) 1 ∧ faults (.flRelF f a x) 1) ∧
    (here → ¬ shape → faults (.flInit win a g l) 2) ∧
    (here → (c.gv a).toNat % 128 ≠ 0 → faults (.flInit false a g l) 2) ∧
    (here → slice (c.gv a) 31 28 ≠ 0 ∨ s.core? n (slice (c.gv a) 24 18) = none → faults (.flInit true a g l) 2) ∧
    (here → shape → based → (∃ z, s.flight? n c.launch l.val.toNat = some z ∧ ∃ e ∈ z.cst, e ≠ .free) → faults (.flInit win a g l) 3) ∧
    (shape → based → s.flight? n c.launch l.val.toNat = none → 32 ≤ (s.flights.filter (fun z => z.cl = n)).length →
      faults (.flInit win a g l) 5) ∧
    (s.flight? n c.launch x.off.toNat = some y → (y.away = false ∨ y.uid = c.uid) → MayStart s n slot c x.ann →
      s.predsDone n slot c.uid .gen ⟨c.ops, 1, c.genSeq⟩ x.ann.pm x.ann.sc true = true → Carriable s c x.ann x.ann.sc false →
      (¬ held .filling → stops (.flCommit a x) 3 ∧ stops (.flCommitF f a x) 3) ∧
      (¬ held .draining → stops (.flRel a x) 3 ∧ stops (.flRelF f a x) 3) ∧
      (held .filling → y.defer.getLsbD j = true → stops (.flCommit a x) 4 ∧ stops (.flCommitF f a x) 4) ∧
      (held .draining → y.defer.getLsbD j = true → stops (.flRel a x) 4 ∧ stops (.flRelF f a x) 4) ∧
      (sl.defer.isSome = true ∨ sl.link.isSome = true → sl.state = .pending ∨ sl.dres = false → y.defer.getLsbD j = false →
        (held .filling → stops (.flCommitF f a x) 4) ∧ (held .draining → stops (.flRelF f a x) 4)) ∧
      (sl.state ≠ .pending → sl.dres = true → y.defer.getLsbD j = false →
        (held .filling → finds (.flCommitF f a x)) ∧ (held .draining → finds (.flRelF f a x))))

/-- R353, R354: BAR.CL retires once every word has completed and every access has been performed; BAR.DIE then arrives, and retires once its
barrier has released it; each blocks until then.
R356, R357: MON reads 8 bytes at their home and arms the context's monitor on their line, a lost one where none is free; MWAIT writes why it
ended and disarms, and blocks while the monitor is armed; executed again once the monitor has fired, it ends.
It rests on choices and readings of the model: log entries 14, 31. -/
def Obligations.BarriersAndMonitorsWait : Prop :=
  (∀ (s : State) (n slot : Nat) (c : Ctx) (b : BitVec 2),
    let quiet : Prop := s.allStarted n slot = true ∧ ∀ i < 8, s.stream c.uid i = 0
    (Ready s .barCl n slot c →
      (quiet → ∃ t c', exec .barCl s = .next t ∧ t.ctx? n slot = some c' ∧
        c' = { passed .barCl c (nextPc .barCl c) with monitor := c'.monitor } ∧
        ∀ a, t.homeRead a 1 = (s.carryAll c .cluster).homeRead a 1) ∧
      (¬ quiet → Blocks s .barCl n slot c .barCl)) ∧
    (Ready s (.barDie b) n slot c →
      (c.wait = .none → quiet → ∃ t c', exec (.barDie b) s = .next t ∧ t.ctx? n slot = some c' ∧
        c' = { c with status := .blocked, since := c'.since, wait := .barDie b true false, monitor := c'.monitor } ∧
        ∀ a, t.homeRead a 1 = (s.carryAll c .die).homeRead a 1) ∧
      (c.wait = .none → ¬ quiet → Blocks s (.barDie b) n slot c (.barDie b false false)) ∧
      (c.wait = .barDie b true false → Blocks s (.barDie b) n slot c c.wait) ∧
      (c.wait = .barDie b true true → Becomes s (.barDie b) n slot (passed (.barDie b) c (nextPc (.barDie b) c))))) ∧
  (∀ (s : State) (n slot : Nat) (c : Ctx) (d a : BitVec 6) (x : SX) (p : Place),
    let s0 := carried s n c x.ann p 8
    let armed (u : Nat) : Nat := (s0.ctxs.filter (fun e => e.1 != ctxKey n slot &&
      (match e.2.monitor with | .armed line => decide (homeUnit (128 * line) = some u) | _ => false))).length
    (SyncReady s (.mon d a x) n slot c x.ann (c.gv a) 8 false p → (s0.ctxs.map Prod.fst).Nodup →
      ∃ t c', exec (.mon d a x) s = .next t ∧ t.ctx? n slot = some c' ∧
        c' = { passed (.mon d a x) c (nextPc (.mon d a x) c) with genSeq := c.genSeq + 1, g := c'.g, monitor := c'.monitor } ∧
        c'.gv d = BitVec.ofNat 72 (s0.homeRead p.pa 8) ∧ (∀ h, h ≠ d → c'.gv h = c.gv h) ∧
        c'.monitor = (match homeUnit p.pa with
          | none => .lost
          | some u => if armed u < (if u = 12 then 4096 else 1024) then .armed (p.pa / 128) else .lost) ∧
        ∀ b, t.homeRead b 1 = s0.homeRead b 1) ∧
    (Ready s (.mwait d a) n slot c →
      let answers (v : W72) : Prop := ∃ t c', exec (.mwait d a) s = .next t ∧ Alone s n slot t c' ∧
        c' = { passed (.mwait d a) c (nextPc (.mwait d a) c) with g := c'.g, monitor := .none } ∧ c'.gv d = v ∧ ∀ h, h ≠ d → c'.gv h = c.gv h
      (c.wait = .mwait (some 0) → answers 1) ∧
      (c.wait = .none → c.monitor = .fired → answers 0) ∧
      (c.wait = .none → c.monitor = .lost → answers 2) ∧
      (c.wait = .none → c.monitor = .none → answers 3) ∧
      (∀ lim, c.wait = .mwait lim → lim ≠ some 0 → (c.monitor = .fired → answers 0) ∧ (c.monitor = .lost → answers 2) ∧
        ∀ line, c.monitor = .armed line → Blocks s (.mwait d a) n slot c (.mwait lim)) ∧
      (∀ line, c.wait = .none → c.monitor = .armed line → Blocks s (.mwait d a) n slot c
        (.mwait (if slice (c.gv a) 31 0 = 0 then none else some ((s.cluster n).cycle.toNat + slice (c.gv a) 31 0))))))

/-- R358, R359, R361: WP.SET of a valid record arms the lowest free watchpoint of the home's unit for the launch and answers its handle, and answers
why where it may not; WP.CLR removes a watchpoint of its own launch, and no other. -/
def Obligations.WatchpointsAreSetAndCleared : Prop :=
  ∀ (s : State) (n slot : Nat) (c : Ctx) (d a : BitVec 6) (x : SX) (p q r : Place) (u j : Nat),
    let i : Instr := .wpSet d a x
    let s0 := carried s n c x.ann p 64
    let s1 := (s0.readAt n none x.ann.sc p.pa 64 p.hint).2
    let rec_ := toWords 8 (toBytes 64 (s0.readAt n none x.ann.sc p.pa 64 p.hint).1)
    let w1 := wordAt rec_ 1
    let start : W72 := BitVec.ofNat 72 (slice w1 63 56 * 2 ^ 64 + (wordAt rec_ 0).toNat)
    let barge : W72 := BitVec.ofNat 72 (slice (wordAt rec_ 5) 7 0 * 2 ^ 64 + (wordAt rec_ 4).toNat)
    let words := slice w1 55 47 + 1
    let valid : Prop := start.toNat % 8 = 0 ∧ slice w1 45 0 = 0 ∧ slice (wordAt rec_ 5) 63 8 = 0 ∧ wordAt rec_ 6 = 0 ∧ wordAt rec_ 7 = 0 ∧
      barge.toNat % 64 = 0 ∧ start.toNat % 4096 + 8 * words ≤ 4096
    let key : Key := ⟨c.ops, 1, c.genSeq + 1⟩
    let sc := effScope q.pa x.ann.sc
    let out := if q.ord = 0 then (s1.reach (n / 4) q.pa).carryStrong c.uid .gen key sc else s1.reach (n / 4) q.pa
    let s2 := (out.readAt n none x.ann.sc q.pa 64 q.hint).2
    let image := toWords 8 (toBytes 64 (out.readAt n none x.ann.sc q.pa 64 q.hint).1)
    let answers (s9 : State) (v : W72) : Prop := ∃ t c', exec i s = .next t ∧ t.ctx? n slot = some c' ∧
      c' = { passed i c (nextPc i c) with genSeq := c.genSeq + 1, g := c'.g, monitor := c'.monitor } ∧ c'.gv d = v ∧
      (∀ h, h ≠ d → c'.gv h = c.gv h) ∧ t.watches = s9.watches ∧ ∀ b, t.homeRead b 1 = s9.homeRead b 1
    let fail (k : Nat) : W72 := BitVec.ofNat 72 (2 ^ 63 + k)
    (SyncReady s i n slot c x.ann (c.gv a) 64 false p →
      (¬ valid → answers s1 (fail 2)) ∧
      (valid → Mapped s1 n c.ring barge false q → Sound s1 q.pa 64 →
        s1.ownOrder c.uid .gen key (placePart q.pa 64 q.ord) = true → s1.cutCarry c.uid .gen key x.ann.pm sc (decide (q.ord = 0)) = none →
        Mapped s2 n c.ring start false r →
        (homeUnit r.pa = none ∨ homeUnit r.pa = some 12 → answers s2 (fail 4)) ∧
        (homeUnit r.pa = some u → u ≠ 12 →
          (s2.bargeOk (s2.partition c) image = false ∨ bargeMode image ≠ 0 → answers s2 (fail 3)) ∧
          (s2.bargeOk (s2.partition c) image = true → bargeMode image = 0 →
            (j < 64 → tget s2.watches (64 * u + j) = none → (∀ k < j, tget s2.watches (64 * u + k) ≠ none) →
              let wp : Watch := { id := s2.nextId, launch := c.launch, start := start, pa := r.pa, words := words, once := w1.getLsbD 46, armed := true,
                                  value := wordAt rec_ 2, mask := wordAt rec_ 3, image := image }
              answers { s2 with watches := tput s2.watches (64 * u + j) wp } (BitVec.ofNat 72 (64 * u + j))) ∧
            ((∀ k < 64, tget s2.watches (64 * u + k) ≠ none) → answers s2 (fail 1)))))) ∧
    (Ready s (.wpClr a) n slot c →
      let h := slice (c.gv a) 9 0
      ∃ t, exec (.wpClr a) s = .next t ∧ Retired s n slot t (passed (.wpClr a) c (nextPc (.wpClr a) c)) ∧
        t = { s with ctxs := t.ctxs, clusters := t.clusters, watches := t.watches } ∧ (∀ k, k ≠ h → tget t.watches k = tget s.watches k) ∧
        ((∃ w, tget s.watches h = some w ∧ w.launch = c.launch) → tget t.watches h = none) ∧
        ((∀ w, tget s.watches h = some w → w.launch ≠ c.launch) → tget t.watches h = tget s.watches h))

/-- R18, R207, R208, R219, R203: what each operand form supplies to lane l of a core, how it is read, and the slice of each
opcode. -/
def Obligations.OperandsSupplyTheirValues : Prop :=
  ∀ (x : Core) (f : Fmt) (l : Nat),
    let m := Fmt.width f
    (∀ r, x.data f (.v r) l = held x f r.toNat l % 2 ^ m) ∧
    (∀ r, x.data f (.b r) l = (tgetD (x.lat r.toNat).lanes l 0).toNat % 2 ^ m) ∧
    (∀ r, x.data f (.a r) l = (BitVec.ofInt 64 ((x.areg r).base.toNat + (16 * x.j + l : Nat) * (x.areg r).stride.toInt)).toNat % 2 ^ m) ∧
    (∀ r, x.data f (.q r) l = (x.qv r).toNat % 2 ^ m) ∧
    (∀ v : BitVec 7, x.data f (.imm v) l = round (exactInt ((v.toNat : Int) - 64)) f .rne true % 2 ^ m) ∧
    (x.areg 0 = ⟨0, 1, .n32⟩ ∧ x.mask 0 = x.live) ∧
    (∀ o, x.int f o l = if isSignedFmt f then signed m (x.data f o l) else (x.data f o l : Int)) ∧
    (∀ r, x.index (.v r) l = x.vv r.toNat l) ∧ (∀ r, x.index (.q r) l = (x.qv r).toNat % 2 ^ 32) ∧
    (∀ v : BitVec 7, x.index (.imm v) l = (((v.toNat : Int) - 64) % 2 ^ 32).toNat) ∧
    (∀ r, x.unif f (.q r) = (if isSignedFmt f then (x.qv r).toInt else ((x.qv r).toNat : Int)) ∧ x.pair f (.q r) = (x.unif f (.q r), 0)) ∧
    (∀ r, x.pair f (.a r) = (((x.areg r).base.toNat : Int), (x.areg r).stride.toInt)) ∧
    (∀ v, x.unif f (.imm v) = x.int f (.imm v) l ∧ x.pair f (.imm v) = (x.unif f (.imm v), 0)) ∧
    (∀ op, (0x001 ≤ op ∧ op ≤ 0x04E → laneSlice op = 1) ∧ ((0x100 ≤ op ∧ op ≤ 0x110) ∨ (0x140 ≤ op ∧ op ≤ 0x144) → laneSlice op = 2) ∧
      (0x120 ≤ op ∧ op ≤ 0x128 → laneSlice op = 3) ∧ (op = 0x240 ∨ op = 0x241 → laneSlice op = 4) ∧
      (0x200 ≤ op ∧ op ≤ 0x20F → laneSlice op = 5))

/-- R212, R213, R214: in each live lane, or once for a q destination, an integer word forms its exact result, clamps it under `.sat`,
and writes it modulo 2^w; it changes no other register, no mask, and no memory.
It rests on choices and readings of the model: log entry 35. -/
def Obligations.LaneIntegerWordsWriteExactResult : Prop :=
  ∀ (s : State) (n slot k : Nat) (c : Ctx) (x : Core) (w : LA),
    let f := w.fmt
    let m := Fmt.width f
    let low (r : Int) : Nat := (r % 2 ^ m).toNat
    let least : Int := if isSignedFmt f then -(2 ^ (m - 1)) else 0
    let most : Int := if isSignedFmt f then 2 ^ (m - 1) - 1 else 2 ^ m - 1
    let does (i : Instr) (op : Int → Int → Int → Int) : Prop :=
      LaneReady s i n slot k c x (laOpds w f (regCount f) (regCount f) (regCount f)) → Whole w →
      Tagged x w.a (regCount f) (SameInt f) → Tagged x w.b (regCount f) (SameInt f) → Tagged x w.c (regCount f) (SameInt f) →
      Performs s i n k fun y => EachLane x y w f fun l =>
        let r := op (x.int f w.a l) (x.int f w.b l) (x.int f w.c l)
        low (if w.sub = 1 then max least (min r most) else r)
    does (.iadd w) (fun x y _ => x + y) ∧
    does (.isub w) (fun x y _ => x - y) ∧
    does (.imul w) (fun x y _ => x * y) ∧
    does (.imulh w) (fun x y _ => (x * y).fdiv (2 ^ m)) ∧
    does (.imad w) (fun x y z => x * y + z) ∧
    does (.idiv w) (fun x y _ => if y = 0 then -1 else x.tdiv y) ∧
    does (.irem w) (fun x y _ => if y = 0 then x else x - y * x.tdiv y) ∧
    does (.imin w) (fun x y _ => min x y) ∧
    does (.imax w) (fun x y _ => max x y) ∧
    does (.iabs w) (fun x _ _ => |x|) ∧
    does (.laneAnd w) (fun x y _ => (low x &&& low y : Nat)) ∧
    does (.laneOr w) (fun x y _ => (low x ||| low y : Nat)) ∧
    does (.laneXor w) (fun x y _ => (low x ^^^ low y : Nat)) ∧
    does (.laneShl w) (fun x y _ => if m ≤ low y then 0 else x * 2 ^ low y) ∧
    does (.laneShr w) (fun x y _ => if m ≤ low y then (if x < 0 then -1 else 0) else x.fdiv (2 ^ low y)) ∧
    does (.laneClz w) (fun x _ _ => ((List.range m).countP (fun p => decide (low x < 2 ^ p)) : Nat)) ∧
    does (.lanePopc w) (fun x _ _ => ((List.range m).countP (fun p => (low x).testBit p) : Nat)) ∧
    does (.bfx w) (fun x y _ =>
      let len := min (low y / 2 ^ 8 % 2 ^ 7) m
      let field := x.fdiv (2 ^ (low y % 2 ^ 7)) % 2 ^ len
      if isSignedFmt f ∧ 0 < len ∧ 2 ^ (len - 1) ≤ field then field - 2 ^ len else field) ∧
    does (.bfi w) (fun x y z =>
      let pos := low y % 2 ^ 7
      let len := min (min (low y / 2 ^ 8 % 2 ^ 7) m) (m - pos)
      if len = 0 then low z
      else (low z % 2 ^ pos + low x % 2 ^ len * 2 ^ pos + low z / 2 ^ (pos + len) * 2 ^ (pos + len) : Nat))

/-- R215, R222, R238: the comparisons and the mask words write one mask; bits of lanes that are not live are 0. -/
def Obligations.ComparisonsAndMaskWordsWriteMasks : Prop :=
  ∀ (s : State) (n slot k : Nat) (c : Ctx) (x : Core) (w : LA),
    let f := w.fmt
    let does (i : Instr) (p : Nat → Bool) : Prop :=
      LaneReady s i n slot k c x (laOpds w .untyped 1 0 0) → Tagged x w.a 1 IsI32 →
      Performs s i n k fun y => MaskGiven x y w fun l => p l && x.live.getLsbD l
    let names (o : Opd) (l : Nat) : Bool := match o with | .m r => (x.mask r).getLsbD l | _ => false
    (LaneReady s (.icmp w) n slot k c x (laOpds w f (regCount f) (regCount f) 0) →
      Tagged x w.a (regCount f) (SameInt f) → Tagged x w.b (regCount f) (SameInt f) →
      Performs s (.icmp w) n k fun y => EachBit x y w fun l =>
        let u := x.int f w.a l
        let v := x.int f w.b l
        (w.sub = 0 && u == v) || (w.sub = 1 && u != v) || (w.sub = 2 && decide (u < v)) || (w.sub = 3 && decide (v ≤ u)) ||
          (w.sub = 4 && decide (u ≤ v)) || (w.sub = 5 && decide (v < u))) ∧
    (LaneReady s (.fcmp w) n slot k c x (laOpds w f 1 1 0) → Tagged x w.a 1 (· = f) → Tagged x w.b 1 (· = f) →
      Performs s (.fcmp w) n k fun y => EachBit x y w fun l =>
        let u := valueOf f (x.data f w.a l)
        let v := valueOf f (x.data f w.b l)
        if u = .nan ∨ v = .nan then w.sub = 1 || w.sub = 6
        else
          (w.sub = 0 && u.cmp v == .eq) || (w.sub = 1 && u.cmp v != .eq) || (w.sub = 2 && u.cmp v == .lt) || (w.sub = 3 && u.cmp v != .lt) ||
            (w.sub = 4 && u.cmp v != .gt) || (w.sub = 5 && u.cmp v == .gt)) ∧
    does (.mAnd w) (fun l => names w.a l && names w.b l) ∧
    does (.mOr w) (fun l => names w.a l || names w.b l) ∧
    does (.mXor w) (fun l => names w.a l != names w.b l) ∧
    does (.mNot w) (fun l => !names w.a l) ∧
    does (.mFromq w) (fun l => (x.index w.a 0).testBit l)

/-- R216, R217, R220, R221, R223: the words that move a value between registers of one core.
It rests on choices and readings of the model: log entry 35. -/
def Obligations.MovesAndPromotionsWrite : Prop :=
  ∀ (s : State) (n slot k : Nat) (c : Ctx) (x : Core) (w : LA),
    let f := w.fmt
    let r := regCount f
    let sel (l : Nat) : Bool := match w.c with | .m e => (x.mask e).getLsbD l | _ => false
    (LaneReady s (.laneSel w) n slot k c x (laOpds w f r r 0) → Whole w → Tagged x w.a r (SameWidth f) → Tagged x w.b r (SameWidth f) →
      ∀ first, (∀ l < first, x.live.getLsbD l = false) → x.live.getLsbD first = true →
      Performs s (.laneSel w) n k fun y => EachLane x y w f fun l =>
        if (match w.d with | .q _ => sel first | _ => sel l) then x.data f w.a l else x.data f w.b l) ∧
    (LaneReady s (.laneMov w) n slot k c x (laOpds w f r 0 0) → Whole w → Tagged x w.a r (SameWidth f) →
      Performs s (.laneMov w) n k fun y => EachLane x y w f fun l => x.data f w.a l) ∧
    (LaneReady s (.promQv w) n slot k c x (laOpds w f 0 0 0) →
      Performs s (.promQv w) n k fun y => EachLane x y w f fun l => x.data f w.a l) ∧
    (LaneReady s (.promAv w) n slot k c x (laOpds w f 0 0 0) → Tagged x w.a 1 IsAff →
      Performs s (.promAv w) n k fun y => EachLane x y w f fun l => x.data f w.a l) ∧
    (LaneReady s (.xtr w) n slot k c x (laOpds w f r 1 0) → Tagged x w.a r (SameWidth f) → Tagged x w.b 1 IsI32 →
      Performs s (.xtr w) n k fun y => QGiven x y w f
        (if x.index w.b 0 < 16 ∧ onLane x w.gm (x.index w.b 0) = true then x.data f w.a (x.index w.b 0) else 0)) ∧
    (LaneReady s (.mToq w) n slot k c x (laOpds w .untyped 0 0 0) →
      Performs s (.mToq w) n k fun y => ∃ d e, w.d = .q d ∧ w.a = .m e ∧ y = { x with q := y.q } ∧
        (∀ g, g ≠ d → y.qv g = x.qv g) ∧
        y.qv d = if w.nwb then x.qv d else (x.mask e &&& x.live &&& x.mask w.gm).setWidth 64)

/-- R200, R218, R219: the affine words act on base and stride; the base wraps, and a stride out of range faults without `.wrap`. -/
def Obligations.AffineWordsWriteBaseAndStride : Prop :=
  ∀ (s : State) (n slot k : Nat) (c : Ctx) (x : Core) (w : LA),
    let a := x.pair w.fmt w.a
    let b := x.pair w.fmt w.b
    let ua := x.unif w.fmt w.a
    let ub := x.unif w.fmt w.b
    let u := (BitVec.ofInt 64 ub).toNat
    let does (i : Instr) (base stride : Int) : Prop :=
      LaneReady s i n slot k c x [(w.d, 1), (w.a, 1), (w.b, 1)] → Tagged x w.a 1 IsAff → Tagged x w.b 1 IsAff →
      (w.sub = 1 ∨ (-2 ^ 31 ≤ stride ∧ stride ≤ 2 ^ 31 - 1) → Performs s i n k fun y => AGiven x y w w.fmt base stride) ∧
      (w.sub ≠ 1 → stride < -2 ^ 31 ∨ 2 ^ 31 - 1 < stride → Running c → LaneFaults s i n slot k c x 0x23)
    does (.affAdd w) (a.1 + b.1) (a.2 + b.2) ∧
    does (.affSub w) (a.1 - b.1) (a.2 - b.2) ∧
    does (.affMul w) (a.1 * ub) (a.2 * ub) ∧
    does (.affShl w) (if u < 64 then a.1 * 2 ^ u else 0) (a.2 * 2 ^ u) ∧
    does (.affMk w) ua ub ∧
    does (.affStr w) a.1 ub ∧
    does (.promQa w) ua 0

/-- R51, R225, R226, R227, R229, R230: the words that read other lanes of their core. A NaN that a reduction or scan takes is canonical.
It rests on choices and readings of the model: log entries 14, 35, 70, 81. -/
def Obligations.CrossLaneWordsWrite : Prop :=
  ∀ (s : State) (n slot k : Nat) (c : Ctx) (x : Core) (w : LA),
    let f := w.fmt
    let r := regCount f
    let a (l : Nat) : Nat := x.data f w.a l
    let b (l : Nat) : Nat := x.data f w.b l
    let sel := selected x w.gm
    let lane (l : Nat) : Option Nat := if onLane x w.gm l then some (if valueOf f (a l) = .nan then canonNan f else a l) else none
    let shuffles (i : Instr) (src : Nat → Nat → Nat) : Prop :=
      LaneReady s i n slot k c x (laOpds w f r 1 0) → Tagged x w.a r (SameWidth f) → Tagged x w.b 1 IsI32 →
      Performs s i n k fun y => EachLane x y w f fun l => a (src l (x.index w.b l % 16))
    let gathers (i : Instr) (P : Core → Prop) : Prop :=
      LaneReady s i n slot k c x (laOpds w f r 0 0) → Tagged x w.a r (if isIntFmt f then SameInt f else (· = f)) → Performs s i n k P
    let reduces (i : Instr) (op : Nat → Nat → Nat) (empty : Nat) : Prop :=
      gathers i fun y => QGiven x y w f ((treeAt op lane 4 0).getD empty)
    let scans (i : Instr) (op : Nat → Nat → Nat) (ident : Nat) : Prop :=
      gathers i fun y => LanesGiven x y w f fun l =>
        if onLane x w.gm l then (if w.sub = 1 then some ((gathered op lane l).getD ident) else gathered op lane (l + 1)) else none
    shuffles (.shfl w) (fun _ e => e) ∧
    shuffles (.shflRot w) (fun l e => (l + e) % 16) ∧
    shuffles (.shflXor w) (fun l e => l ^^^ e) ∧
    shuffles (.bcast w) (fun _ e => e) ∧
    reduces (.redAdd w) (addCodes f w.rnd) 0 ∧
    reduces (.redMin w) (leastCodes false f) 0 ∧
    reduces (.redMax w) (leastCodes true f) 0 ∧
    reduces (.redAnd w) (fun u v => u &&& v) (2 ^ Fmt.width f - 1) ∧
    reduces (.redOr w) (fun u v => u ||| v) 0 ∧
    scans (.scanAdd w) (addCodes f w.rnd) 0 ∧
    scans (.scanMax w) (leastCodes true f)
      (if isIntFmt f then (if isSignedFmt f then 2 ^ (Fmt.width f - 1) else 0) else round (.inf true) f .rne false) ∧
    (LaneReady s (.isect w) n slot k c x [(w.d, 1), (w.a, r), (w.b, r)] → Tagged x w.a r (SameInt f) → Tagged x w.b r (SameInt f) →
      let h := sel.getLast?.getD 0
      let lim := min (a h) (b h)
      Performs s (.isect w) n k fun y => ∃ d e z, w.d = .v d ∧ w.c = .m e ∧
        PutsV x z d.toNat .n32 w.nwb (fun l => if onLane x w.gm l then
          some (sel.countP (fun j => decide (a j ≤ lim)) + 256 * sel.countP (fun j => decide (b j ≤ lim))) else none) ∧
        PutsM z y e w.nwb (fun l => onLane x w.gm l && sel.any (fun j => a l = b j))) ∧
    (LaneReady s (.compact w) n slot k c x (laOpds w f r 0 0) → Tagged x w.a r (SameWidth f) →
      Performs s (.compact w) n k fun y => LanesGiven x y w f fun l => sel[l]?.map a) ∧
    (LaneReady s (.expand w) n slot k c x (laOpds w f r 0 0) → Tagged x w.a r (SameWidth f) →
      Performs s (.expand w) n k fun y => LanesGiven x y w f fun l =>
        if onLane x w.gm l then some (a ((List.range l).countP (onLane x w.gm))) else none)

/-- R175, R192, R224, R228: LEXIT takes lanes out of the live mask, and a core whose last lane leaves leaves its context; VOTE gives
the core's part to its entry, or waits while sixteen entries are reserved.
It rests on choices and readings of the model: log entry 34. -/
def Obligations.LexitAndVoteTakeEffect : Prop :=
  ∀ (s : State) (n slot k : Nat) (c : Ctx) (x : Core) (w : LA),
    let live := x.live &&& ~~~(x.mask w.gm)
    let e := headE c x
    let names (l : Nat) : Bool := match w.a with | .m r => (x.mask r).getLsbD l | _ => false
    let cast := (List.range 16).filter (fun l => onLane x w.gm l && names l)
    let part : Nat := match w.sub.toNat with
      | 0 => if cast = [] then 0 else 1
      | 1 => if (selected x w.gm).all names then 1 else 0
      | 2 => cast.length
      | 3 => match cast.head? with | some l => 16 * x.j + l | none => 2 ^ 64 - 1
      | _ => match w.a with | .q r => if selected x w.gm = [] then 0 else (x.qv r).toNat | _ => 0
    let join (v : Nat) : Nat := match w.sub.toNat with
      | 0 => v ||| part
      | 1 => v &&& part
      | 3 => min v part
      | _ => v + part
    (LaneReady s (.lexit w) n slot k c x [] → live ≠ 0 → Performs s (.lexit w) n k fun y => y = { x with live := live }) ∧
    (LaneReady s (.lexit w) n slot k c x [] → live = 0 → ∃ t c', exec (.lexit w) s = .next t ∧
      LaneDone s (.lexit w) n k { x with live := 0, left := true, buf := [], hold := none } t ∧
      t = { s with cores := t.cores, clusters := t.clusters, ctxs := t.ctxs } ∧ t.ctx? n slot = some c' ∧
      (∀ m, m ≠ ctxKey n slot → tget t.ctxs m = tget s.ctxs m) ∧ c' = { c with votes := c'.votes, slots := c'.slots } ∧
      c'.votes = c.votes.map (fun v => { v with needs := v.needs.filter (· ≠ k) }) ∧
      ∀ f : BitVec 6, c'.slot f = match (c.slot f).state, (c.slot f).work with
        | .pending, .mma p b => { c.slot f with work := .mma (p - x.buf.countP (fun h => slice h.w 9 0 = 0x240 && slice h.w 60 55 = f.toNat)) b }
        | _, _ => c.slot f) ∧
    (LaneReady s (.vote w) n slot k c x [] → (∃ v ∈ c.votes, v.e = e ∧ v.reserved = false) → 16 ≤ s.votesHeld n →
      LaneWaits s (.vote w) n k x cVoteq) ∧
    (LaneReady s (.vote w) n slot k c x [] → (s.votesHeld n < 16 ∨ ∀ v ∈ c.votes, v.e = e → v.reserved = true) →
      ∃ t, exec (.vote w) s = .next t ∧ LaneDone s (.vote w) n k x t ∧ t = { s with cores := t.cores, clusters := t.clusters, ctxs := t.ctxs } ∧
        (∀ m, m ≠ ctxKey n slot → tget t.ctxs m = tget s.ctxs m) ∧
        t.ctx? n slot = some { c with votes := c.votes.map (fun v => if v.e = e ∧ k ∈ v.needs then
          { v with reserved := true, needs := v.needs.filter (· ≠ k), value := BitVec.ofNat 64 (join v.value.toNat) } else v) })

/-- R148, R175, R199, R209: what an arithmetic word of a lane raises before it has an effect: the illegal word 0x20, the tag fault 0x21, the
fault 0x22 of a part of q; and that it waits while a register that it names is still to be written.
It rests on choices and readings of the model: log entries 29, 35. -/
def Obligations.LaneFaultsAreRaised : Prop :=
  ∀ (s : State) (n slot k : Nat) (c : Ctx) (x : Core) (w : LA),
    let f := w.fmt
    let r := regCount f
    let ints : List Instr := [.iadd w, .isub w, .imul w, .imulh w, .imad w, .idiv w, .irem w, .imin w, .imax w, .iabs w, .laneAnd w, .laneOr w,
      .laneXor w, .laneShl w, .laneShr w, .laneClz w, .lanePopc w, .bfx w, .bfi w]
    let floats : List Instr := [.fadd w, .fsub w, .fmul w, .fma w, .fnma w, .fdiv w, .fsqrt w, .fmin w, .fmax w, .fabs w, .fneg w, .fsgn w,
      .frnd w, .frcp w, .frsq w, .fexp2 w, .flog2 w, .fsin w, .fcos w, .ftanh w, .fsigm w, .ferf w]
    let badTag (i : Instr) : Prop := if i ∈ ints then ¬(Tagged x w.a r (SameInt f) ∧ Tagged x w.b r (SameInt f) ∧ Tagged x w.c r (SameInt f))
      else ¬(Tagged x w.a 1 (· = f) ∧ Tagged x w.b 1 (· = f) ∧ Tagged x w.c 1 (· = f))
    LaneHere s n slot k c x → Running c →
    (∀ i, (encodeLane i).isSome = true → i.wf = false → LaneFaults s i n slot k c x 0x20) ∧
    (∀ i ∈ ints ++ floats, i.wf = true → (∃ p ∈ laOpds w f r r r, ¬Inside (s.partition c) p.1 p.2) → LaneFaults s i n slot k c x 0x20) ∧
    (∀ i ∈ ints ++ floats, i.wf = true → (∀ p ∈ laOpds w f r r r, Inside (s.partition c) p.1 p.2) →
      (∃ p ∈ laOpds w f r r r, ¬Settled s n k c.uid x p.1 p.2) → LaneWaits s i n k x cOperand) ∧
    (∀ i ∈ ints ++ floats, LaneReady s i n slot k c x (laOpds w f r r r) → ¬Whole w → LaneFaults s i n slot k c x 0x22) ∧
    (∀ i ∈ ints ++ floats, LaneReady s i n slot k c x (laOpds w f r r r) → Whole w → badTag i → LaneFaults s i n slot k c x 0x21)

/-- R231, R234 to R241: in each live lane, or once for a q destination, a floating-point word rounds its exact result once, or works
on its source's code; no value raises a fault.
R50 to R55, R62 to R64: the value of every code; round() takes the candidate that the mode selects and encodes it, or the overflow
or infinite case of the target; FRND takes an integer the same way, and the square root and its reciprocal are rounded once from the
irrational number that they are.
R235, R240, R241: where a function is no finite real, or its sign at zero needs fixing, the table decides; and where it is exactly a
value that is known, or a power of two, that value is the one rounded.
It rests on choices and readings of the model: log entries 18, 38, 39. -/
def Obligations.FloatingPointWordsRoundOnce : Prop :=
  ((∀ (s : State) (n slot k : Nat) (c : Ctx) (x : Core) (w : LA),
    let f := w.fmt
    let m := Fmt.width f
    let a (l : Nat) : Nat := x.data f w.a l
    let u (l : Nat) : Exact := valueOf f (a l)
    let v (l : Nat) : Exact := valueOf f (x.data f w.b l)
    let z (l : Nat) : Exact := valueOf f (x.data f w.c l)
    let neg (g : Nat) : Bool := g.testBit (m - 1)
    let signed_ (l : Nat) (b : Bool) : Nat := if u l = .nan then canonNan f else a l % 2 ^ (m - 1) + (if b then 2 ^ (m - 1) else 0)
    let codes (i : Instr) (op : Nat → Nat) : Prop :=
      LaneReady s i n slot k c x (laOpds w f 1 1 1) → Whole w → Tagged x w.a 1 (· = f) → Tagged x w.b 1 (· = f) → Tagged x w.c 1 (· = f) →
      Performs s i n k fun y => EachCode x y w f op
    let rounds (i : Instr) (op : Nat → Exact) : Prop := codes i fun l => round (op l) f w.rnd false
    rounds (.fadd w) (fun l => (u l).add w.rnd (v l)) ∧
    rounds (.fsub w) (fun l => (u l).add w.rnd (v l).neg) ∧
    rounds (.fmul w) (fun l => (u l).mul (v l)) ∧
    rounds (.fma w) (fun l => ((u l).mul (v l)).add w.rnd (z l)) ∧
    rounds (.fnma w) (fun l => ((u l).mul (v l)).neg.add w.rnd (z l)) ∧
    rounds (.fdiv w) (fun l => (u l).div (v l)) ∧
    rounds (.fsqrt w) (fun l => (u l).sqrt) ∧
    rounds (.fmin w) (fun l => Exact.least false (u l) (v l)) ∧
    rounds (.fmax w) (fun l => Exact.least true (u l) (v l)) ∧
    codes (.fabs w) (fun l => signed_ l false) ∧
    codes (.fneg w) (fun l => signed_ l (!neg (a l))) ∧
    codes (.fsgn w) (fun l => let b := neg (x.data f w.b l)
      signed_ l (if w.sub = 0 then b else if w.sub = 1 then !b else neg (a l) != b)) ∧
    rounds (.frnd w) (fun l => integral w.rnd (u l)) ∧
    rounds (.frcp w) (fun l => (Exact.fin 1 1).div (u l)) ∧
    rounds (.frsq w) (fun l => recipSqrt (u l)) ∧
    codes (.fexp2 w) (fun l => special .exp2 (u l) f w.rnd) ∧
    codes (.flog2 w) (fun l => special .log2 (u l) f w.rnd) ∧
    codes (.fsin w) (fun l => special .sin (u l) f w.rnd) ∧
    codes (.fcos w) (fun l => special .cos (u l) f w.rnd) ∧
    codes (.ftanh w) (fun l => special .tanh (u l) f w.rnd) ∧
    codes (.fsigm w) (fun l => special .sigm (u l) f w.rnd) ∧
    codes (.ferf w) (fun l => special .erf (u l) f w.rnd) ∧
    (LaneReady s (.fclass w) n slot k c x (laOpds w .n32 1 0 0) → Tagged x w.a 1 (· = f) →
      Performs s (.fclass w) n k fun y => EachCode x y w .n32 fun l => 2 ^ match u l with
        | .nan => 8
        | .inf b => if b then 0 else 7
        | .zero b => if b then 3 else 4
        | .fin g _ => if g < 0 then (if a l % 2 ^ (m - 1) < smallestNormal f then 2 else 1) else (if a l % 2 ^ (m - 1) < smallestNormal f then 5 else 6)) ∧
    (LaneReady s (.fgetexp w) n slot k c x (laOpds w .i32 1 0 0) → Whole w → Tagged x w.a 1 (· = f) →
      Performs s (.fgetexp w) n k fun y => ∃ p : Nat → Int, EachCode x y w .i32 (fun l => (p l % 2 ^ 32).toNat) ∧ ∀ l, match u l with
        | .fin g d => (2 : Rat) ^ p l * d ≤ g.natAbs ∧ (g.natAbs : Rat) < 2 ^ (p l + 1) * d
        | .zero _ => p l = -2 ^ 31
        | _ => p l = 2 ^ 31 - 1) ∧
    (LaneReady s (.fscale w) n slot k c x (laOpds w f 1 1 0) → Whole w → Tagged x w.a 1 (· = f) →
      Tagged x w.b 1 (match w.b with | .a _ => IsAff | _ => IsI32) →
      Performs s (.fscale w) n k fun y => EachCode x y w f fun l =>
        round ((u l).scale (max (-4096) (min (signed 32 (x.index w.b l)) 4096))) f w.rnd false)) ∧
  (∀ (f : Fmt), f ≠ .untyped →
    (∀ (code : Nat), code < 2 ^ Fmt.width f →
      let mag := code % 2 ^ (Fmt.width f - 1)
      let neg := code.testBit (Fmt.width f - 1)
      let x := valueOf f code
      x.sound ∧ match binary f with
        | some b => if mag ≤ b.top then x.rat = some (if neg then -grid f mag else grid f mag) ∧ x.isNeg = neg
          else if mag = b.inf ∧ f ≠ .e4m3 then x = .inf neg else x = .nan
        | none => if f = .l6 then (if code = 0x20 then x = .nan else x.rat = some (if neg then -grid f mag else grid f mag))
          else x.rat = some (if isSignedFmt f ∧ neg then (code : Rat) - 2 ^ Fmt.width f else code)) ∧
    (∀ (r : Rnd) (sat : Bool) (x : Exact) (q : Rat), x.sound → x.rat = some q → q ≠ 0 →
      RoundedTo f r sat (decide (q < 0)) (· < |q|) (· = |q|) (round x f r sat)) ∧
    (∀ (r : Rnd) (sat neg : Bool), match binary f with
      | some b => round .nan f r sat = b.nan ∧ round (.zero neg) f r sat = withSign f neg 0 ∧
          round (.inf neg) f r sat = if sat then withSign f neg b.top else infinite f b neg
      | none => round (.zero neg) f r sat = 0 ∧ (if f = .l6 then round .nan f r sat = 0x20 ∧ round (.inf neg) f r sat = 0x20
          else round .nan f r sat = 0 ∧ round (.inf neg) f r sat = ((if neg then least f else greatest f) % 2 ^ Fmt.width f).toNat)) ∧
    (∀ (r : Rnd) (x : Exact), x.sound → match x with
      | .fin n d => ∃ m, RoundsTo .i64 r (decide (n < 0)) (· < |(n : Rat) / d|) (· = |(n : Rat) / d|) m ∧
          (integral r x).rat = some (if n < 0 then -(m : Rat) else m) ∧ (integral r x).isNeg = decide (n < 0)
      | y => integral r x = y) ∧
    (f ∈ [Fmt.fp32, .fp16, .bf16] → ∀ (r : Rnd) (code : Nat) (q : Rat), (valueOf f code).rat = some q → 0 < q →
      RoundedTo f r false false (fun g => g ^ 2 < q) (fun g => g ^ 2 = q) (round (valueOf f code).sqrt f r false) ∧
      RoundedTo f r false false (fun g => g ^ 2 * q < 1) (fun g => g ^ 2 * q = 1) (round (recipSqrt (valueOf f code)) f r false)))) ∧
  ((Exact.sqrt (.inf true) = .nan ∧ Exact.sqrt (.inf false) = .inf false ∧ recipSqrt (.inf true) = .nan ∧ recipSqrt (.inf false) = .zero false ∧
    Exact.sqrt .nan = .nan ∧ recipSqrt .nan = .nan ∧ (∀ b, Exact.sqrt (.zero b) = .zero b ∧ recipSqrt (.zero b) = .inf b) ∧
    ∀ n d, n < 0 → Exact.sqrt (.fin n d) = .nan ∧ recipSqrt (.fin n d) = .nan) ∧
  ∀ (f : Fmt) (b : Binary) (r : Rnd), f ∈ [Fmt.fp32, .fp16, .bf16] → binary f = some b →
    let one := powerCode b 0
    (∀ fn, special fn .nan f r = b.nan) ∧
    special .exp2 (.inf true) f r = 0 ∧ special .exp2 (.inf false) f r = b.inf ∧ (∀ z, special .exp2 (.zero z) f r = one) ∧
    (∀ z, special .log2 (.zero z) f r = withSign f true b.inf) ∧ special .log2 (.inf true) f r = b.nan ∧ special .log2 (.inf false) f r = b.inf ∧
    (∀ z, special .sin (.inf z) f r = b.nan ∧ special .sin (.zero z) f r = withSign f z 0) ∧
    (∀ z, special .cos (.inf z) f r = b.nan ∧ special .cos (.zero z) f r = one) ∧
    (∀ z, special .tanh (.inf z) f r = withSign f z one ∧ special .tanh (.zero z) f r = withSign f z 0) ∧
    special .sigm (.inf true) f r = 0 ∧ special .sigm (.inf false) f r = one ∧ (∀ z, special .sigm (.zero z) f r = powerCode b (-1)) ∧
    (∀ z, special .erf (.inf z) f r = withSign f z one ∧ special .erf (.zero z) f r = withSign f z 0) ∧
    ∀ (x : Exact) (q : Rat), x.sound → x.rat = some q → q ≠ 0 →
      (q < 0 → special .log2 x f r = b.nan) ∧
      (∀ k : Int, q = k → special .sin x f r = withSign f (decide (q < 0)) 0 ∧ special .cos x f r = withSign f (decide (k % 2 = 1)) one ∧
        (-4096 < k → k < 4096 → RoundedTo f r false false (· < (2 : Rat) ^ k) (· = (2 : Rat) ^ k) (special .exp2 x f r))) ∧
      (∀ k : Int, 2 * q = 2 * k + 1 → special .cos x f r = 0 ∧ special .sin x f r = withSign f (decide (k % 2 = 1)) one) ∧
      ∀ k : Int, q = (2 : Rat) ^ k → if k = 0 then special .log2 x f r = 0
        else RoundedTo f r false (decide (k < 0)) (· < |(k : Rat)|) (· = |(k : Rat)|) (special .log2 x f r))

/-- R235: the exact sums, products and quotients of the arithmetic words are those of the rational numbers, and the cases that are no
rational number are those of the table. -/
def Obligations.ExactArithmeticIsRational : Prop :=
  ∀ (r : Rnd) (x y : Exact), x.sound → y.sound →
    let none (z : Exact) : Prop := z = .nan
    (∀ p q, x.rat = some p → y.rat = some q → (x.add r y).rat = some (p + q) ∧ (x.mul y).rat = some (p * q) ∧ x.neg.rat = some (-p) ∧
      (q ≠ 0 → (x.div y).rat = some (p / q)) ∧ (p ≠ 0 → q = 0 → x.div y = .inf (x.isNeg != y.isNeg)) ∧ (p = 0 → q = 0 → none (x.div y)) ∧
      (p + q = 0 → x.isNeg = true → y.isNeg = true → (x.add r y).isNeg = true) ∧
      (p + q = 0 → x.isNeg ≠ y.isNeg → (x.add r y).isNeg = decide (r = .rdn)) ∧
      (p * q = 0 → (x.mul y).isNeg = (x.isNeg != y.isNeg)) ∧
      ∀ k : Int, (x.scale k).rat = some (p * 2 ^ k)) ∧
    (none x ∨ none y → none (x.add r y) ∧ none (x.mul y) ∧ none (x.div y)) ∧
    (∀ a b, x = .inf a → y = .inf b → (a ≠ b → none (x.add r y)) ∧ none (x.div y) ∧ x.mul y = .inf (a != b)) ∧
    (∀ a, x = .inf a → y.rat = some 0 → none (x.mul y) ∧ none (y.mul x)) ∧
    (∀ a q, x = .inf a → y.rat = some q → x.add r y = .inf a ∧ y.add r x = .inf a ∧ x.div y = .inf (a != y.isNeg) ∧
      y.div x = .zero (a != y.isNeg) ∧ (q ≠ 0 → x.mul y = .inf (a != y.isNeg)))

/-- R242 to R246: what the conversions and the bit-plane words write.
It rests on choices and readings of the model: log entries 18, 82. -/
def Obligations.ConversionsWrite : Prop :=
  ∀ (s : State) (n slot k : Nat) (c : Ctx) (x : Core) (w : LA),
    let f := w.fmt
    let planes := if f = .l6 then 6 else 4
    let fp (l : Nat) : Exact := valueOf .fp32 (x.data .fp32 w.a l)
    (∀ src e, w.c = .z e → Fmt.ofCode e.toNat = some src →
      LaneReady s (.cvt w) n slot k c x [(w.d, regCount f), (w.a, regCount src)] → Whole w → Tagged x w.a (regCount src) (· = src) →
      Performs s (.cvt w) n k fun y => EachCode x y w f fun l => round (valueOf src (x.data src w.a l)) f w.rnd (w.sub = 1)) ∧
    (LaneReady s (.cvtBlk w) n slot k c x (laOpds w .l6 1 1 0) → Whole w → Tagged x w.a 1 (· = .fp32) → Tagged x w.b 1 (· = .n8) →
      Performs s (.cvtBlk w) n k fun y => EachCode x y w .l6 fun l =>
        if x.data .n8 w.b l = 0xFF then 0x20 else round ((fp l).scale (127 - (x.data .n8 w.b l : Int))) .l6 w.rnd true) ∧
    (LaneReady s (.bscale w) n slot k c x (laOpds w .n8 1 0 0) → Whole w → Tagged x w.a 1 (· = .fp32) →
      Performs s (.bscale w) n k fun y => ∃ z : Nat → Nat, EachCode x y w .n8 z ∧ ∀ l, match fp l with
        | .nan | .inf _ => z l = 0xFF
        | .zero _ => z l = 0x7F
        | .fin g d =>
          let fits (e : Nat) : Prop := g.natAbs * 2 ^ 127 * 512 ≤ 3444 * d * 2 ^ e
          z l ≤ 254 ∧ (z l < 254 → fits (z l)) ∧ ∀ e < z l, ¬fits e) ∧
    (LaneReady s (.planePk w) n slot k c x [(w.d, 2), (w.a, 4)] → Tagged x w.a 4 (· = f) →
      Performs s (.planePk w) n k fun y => ∃ d a, ∃ word : Nat → Nat, w.d = .v d ∧ w.a = .v a ∧
        PutsV x y d.toNat .n64 w.nwb (fun l => if l < planes then some (word l) else none) ∧
        ∀ l < planes, word l < 2 ^ 64 ∧ ∀ r < 4, ∀ j < 16,
          (word l).testBit (16 * r + j) = (onLane x w.gm j && (x.vv (a.toNat + r) j).testBit l)) ∧
    (LaneReady s (.planeUp w) n slot k c x [(w.d, 4), (w.a, 2)] → Tagged x w.a 2 IsI64 →
      Performs s (.planeUp w) n k fun y => ∃ d a y0 y1 y2, ∃ code : Nat → Nat → Nat, w.d = .v d ∧ w.a = .v a ∧
        let res (r l : Nat) : Option Nat := if onLane x w.gm l then some (code r l) else none
        PutsV x y0 d.toNat f w.nwb (res 0) ∧ PutsV y0 y1 (d.toNat + 1) f w.nwb (res 1) ∧ PutsV y1 y2 (d.toNat + 2) f w.nwb (res 2) ∧
        PutsV y2 y (d.toNat + 3) f w.nwb (res 3) ∧
        ∀ r < 4, ∀ l < 16, code r l < 2 ^ planes ∧ ∀ e < planes, (code r l).testBit e = (held x .i64 a.toNat e).testBit (16 * r + l))

/-- R266, R272 to R277, R285: the words that reach memory check every lane, and then each starts one access whose parts are its lanes'
elements in ascending order; a load sets its tags and pushes its latches at once.
It rests on choices and readings of the model: log entries 14, 22. -/
def Obligations.LaneMemoryWordsStartAccesses : Prop :=
  ∀ (s : State) (n slot k : Nat) (c : Ctx) (x : Core) (w : LM) (P : Nat → Nat → Place),
    let f := w.fmt
    let r := regCount f
    let e := elemBytes w
    let m := elemCount w
    let sel := selected x w.gm
    let va0 (l : Nat) : W72 := (BitVec.ofNat 64 (x.data .n64 w.a l)).signExtend 72
    let va (l : Nat) : W72 := (BitVec.ofInt 64 ((x.data .n64 w.a l : Int) + signed 32 (x.index w.b l))).signExtend 72
    let addrTags : Prop := Tagged x w.a 2 IsI64 ∧ Tagged x w.b 1 IsI32
    let mapped (count : Nat) (va : Nat → W72) (write : Bool) : Prop :=
      ∀ l ∈ sel, ∀ j < count, Mapped s n c.ring (va l + BitVec.ofNat 72 (j * e)) write (P l j)
    let starts (i : Instr) (op : AccOp) (dest : Dest) (parts : List Part) (Q : Core → Prop) : Prop :=
      StartsLane s i n k (laneAccess s n slot k c x i w op dest parts) Q
    let parts (count : Nat) (va : Nat → W72) (data cmp : Nat → Nat → Nat) : List Part := sel.flatMap fun l => (List.range count).map fun j =>
      lanePart l (elemReg w j) j (va l + BitVec.ofNat 72 (j * e)) (P l j) e (data j l) (cmp j l)
    let op : AccOp :=
      if f = .fp32 then (if w.wid = 0 then .fadd else if w.wid = 1 then .fmin else .fmax)
      else if w.wid = 0 then .atom .add
      else if w.wid = 1 then .atom (if isSignedFmt f then .smin else .nmin)
      else if w.wid = 2 then .atom (if isSignedFmt f then .smax else .nmax)
      else .atom .or
    s.stream c.uid w.os.toNat < 1023 → FreshLatches s x →
    (LaneReady s (.laneLd w) n slot k c x [(w.d, m * r), (w.a, 2), (w.b, 1)] → addrTags →
      (∀ l ∈ sel, (va l).toNat % e = 0) → mapped m va false →
      starts (.laneLd w) .load (.lanes f w.nwb) (parts m va (fun _ _ => 0) (fun _ _ => 0)) fun y => LoadsInto x y w m s.nextId) ∧
    (LaneReady s (.laneSt w) n slot k c x [(w.d, m * r), (w.a, 2), (w.b, 1)] → addrTags → Tagged x w.d (m * r) (SameWidth f) →
      (∀ l ∈ sel, (va l).toNat % e = 0) → mapped m va true →
      starts (.laneSt w) .store .none (parts m va (elemData x w) (fun _ _ => 0)) fun y => y = x) ∧
    (LaneReady s (.laneAtom w) n slot k c x [(w.d, r), (w.a, 2), (w.b, r)] → Tagged x w.a 2 IsI64 →
      Tagged x w.b r (if f = .fp32 then (· = f) else SameWidth f) → (∀ l ∈ sel, (va0 l).toNat % e = 0) → mapped 1 va0 true →
      starts (.laneAtom w) op (.lanes f w.nwb) (parts 1 va0 (fun _ l => x.data f w.b l) (fun _ _ => 0)) fun y => LoadsInto x y w 1 s.nextId) ∧
    (LaneReady s (.laneCas w) n slot k c x [(w.d, r), (w.a, 2), (w.b, r)] → Tagged x w.a 2 IsI64 → Tagged x w.b r (SameWidth f) →
      Tagged x w.d r (SameWidth f) → (∀ l ∈ sel, (va0 l).toNat % e = 0) → mapped 1 va0 true →
      starts (.laneCas w) .cas (.lanes f w.nwb) (parts 1 va0 (fun _ l => x.data f w.b l) (fun _ l => x.data f w.d l)) fun y =>
        LoadsInto x y w 1 s.nextId) ∧
    (∀ load : Bool, let i : Instr := if load then .ldcp w else .stcp w
      let z := 2 ^ (w.wid.toNat + 1)
      LaneReady s i n slot k c x [(w.a, 2), (w.b, 1)] → addrTags →
      (∀ l ∈ sel, (va0 l).toNat % z = 0 ∧ x.index w.b l % z = 0 ∧ x.index w.b l + z ≤ 4096 * slice (s.partition c) 13 8) →
      (∀ l ∈ sel, Mapped s n c.ring (va0 l) (!load) (P l 0)) →
      starts i (if load then .ldcp else .stcp) .none
        (sel.map fun l => lanePart l (spAddr (coreKey n k) (x.index w.b l)) 0 (va0 l) (P l 0) z 0 0) fun y => y = x)

/-- R248 to R252, R274, R279: the scratchpad and window words and the indexed scratchpad words start one access of scratchpad bytes.
It rests on choices and readings of the model: log entry 35. -/
def Obligations.ScratchpadWordsStartAccesses : Prop :=
  ∀ (s : State) (n slot k : Nat) (c : Ctx) (x : Core) (w : LM) (key : Nat → Nat → Nat),
    let f := w.fmt
    let r := regCount f
    let e := elemBytes w
    let m := elemCount w
    let sel := selected x w.gm
    let size := 4096 * slice (s.partition c) 13 8
    let so (l : Nat) : Nat := (BitVec.ofInt 32 ((x.index w.a l : Int) + signed 32 (x.index w.b l))).toNat
    let ix (l : Nat) : Nat := (x.index w.a l + x.index w.b l * e) % 2 ^ 32
    let tags : Prop := Tagged x w.a 1 IsI32 ∧ Tagged x w.b 1 IsI32
    let starts (i : Instr) (op : AccOp) (dest : Dest) (parts : List Part) (Q : Core → Prop) : Prop :=
      StartsLane s i n k (laneAccess s n slot k c x i w op dest parts) Q
    let own (data : Nat → Nat → Nat) : List Part := sel.flatMap fun l => (List.range m).map fun j =>
      scratchPart l (elemReg w j) j (BitVec.ofNat 72 (so l + j * e)) (coreKey n k) (so l + j * e) e (data j l)
    let win (data : Nat → Nat → Nat) : List Part := sel.flatMap fun l => (List.range m).map fun j =>
      scratchPart l (elemReg w j) j (BitVec.ofNat 72 ((so l + j * e) % 2 ^ 18)) (key l j) ((so l + j * e) % 2 ^ 18) e (data j l)
    let indexed (data : Nat → Nat) : List Part := sel.map fun l =>
      scratchPart l (elemReg w 0) 0 (BitVec.ofNat 72 (ix l)) (coreKey n k) (ix l) e (data l)
    let ready (i : Instr) (cnt : Nat) : Prop := LaneReady s i n slot k c x [(w.d, cnt * r), (w.a, 1), (w.b, 1)] ∧ tags
    let inOwn : Prop := ∀ l ∈ sel, so l % e = 0 ∧ so l + m * e ≤ size
    let inWin : Prop := ∀ l ∈ sel, so l % e = 0 ∧ so l % 2 ^ 18 + m * e ≤ size ∧ ∀ j < m, s.windowCore n c (so l + j * e) = some (key l j)
    let inIx : Prop := ∀ l ∈ sel, ix l % e = 0 ∧ ix l + e ≤ size
    s.stream c.uid w.os.toNat < 1023 → FreshLatches s x →
    (ready (.ldSp w) m → inOwn → starts (.ldSp w) .load (.lanes f w.nwb) (own fun _ _ => 0) fun y => LoadsInto x y w m s.nextId) ∧
    (ready (.stSp w) m → Tagged x w.d (m * r) (SameWidth f) → inOwn → starts (.stSp w) .store .none (own (elemData x w)) fun y => y = x) ∧
    (ready (.ldWin w) m → inWin → starts (.ldWin w) .load (.lanes f w.nwb) (win fun _ _ => 0) fun y => LoadsInto x y w m s.nextId) ∧
    (ready (.stWin w) m → Tagged x w.d (m * r) (SameWidth f) → inWin → starts (.stWin w) .store .none (win (elemData x w)) fun y => y = x) ∧
    (ready (.sgath w) 1 → inIx → starts (.sgath w) .load (.lanes f w.nwb) (indexed fun _ => 0) fun y => LoadsInto x y w 1 s.nextId) ∧
    (ready (.sscat w) 1 → Tagged x w.d r (SameWidth f) → inIx →
      starts (.sscat w) .store .none (indexed fun l => x.data f w.d l) fun y => y = x) ∧
    (ready (.hist w) 1 → inIx → starts (.hist w) (.atom .add) (.lanes f w.nwb) (indexed fun _ => 1) fun y => LoadsInto x y w 1 s.nextId)

/-- R175, R270, R274, R278, R280, R286, R365: PREF completes, and only moves lines between caches: whatever its scope, every byte that memory holds reads at its
home as before, where the caches have room for the lines and a bay has nothing to write back. A memory word whose stream is full waits;
and one whose lanes include some that are not aligned raises the memory fault: no access starts, and the record lists the kind ALIGN of
each such lane.
It rests on choices and readings of the model: log entries 29, 36. -/
def Obligations.MemoryWordsPrefetchWaitAndFault : Prop :=
  ∀ (s : State) (n slot k : Nat) (c : Ctx) (x : Core) (w : LM) (P : Nat → Nat → Place),
    let e := elemBytes w
    let m := elemCount w
    let sel := selected x w.gm
    let va (l : Nat) : W72 := (BitVec.ofInt 64 ((x.data .n64 w.a l : Int) + signed 32 (x.index w.b l))).signExtend 72
    let line (l j : Nat) : W72 := BitVec.ofNat 72 ((va l).toNat / 128 * 128) + BitVec.ofNat 72 (128 * j)
    let addrTags : Prop := Tagged x w.a 2 IsI64 ∧ Tagged x w.b 1 IsI32
    let mem (i : Instr) : Prop := LaneReady s i n slot k c x [(w.d, m * regCount w.fmt), (w.a, 2), (w.b, 1)] ∧ addrTags ∧
      (i = .laneLd w ∨ (i = .laneSt w ∧ Tagged x w.d (m * regCount w.fmt) (SameWidth w.fmt)))
    (LaneReady s (.pref w) n slot k c x [(w.a, 2), (w.b, 1)] → addrTags →
      (∀ l ∈ sel, ∀ j < 2 ^ (w.wid.toNat - 1), Mapped s n c.ring (line l j) false (P l j)) →
      let lines : List Place := sel.flatMap fun l => (List.range (2 ^ (w.wid.toNat - 1))).map (P l)
      let room : Prop := ∀ key, (tgetD s.l2 key []).length + (lines.filter (fun p => l2Key p.pa = key)).length ≤ 16
      let clean : Prop := ∀ p ∈ s.bayLines, p.1 / 128 = 16 * n + k / 8 → ∀ y ∈ p.2, y.dirty = 0
      ∃ t, exec (.pref w) s = .next t ∧ LaneDone s (.pref w) n k x t ∧ t.accs = s.accs ∧
        (room → narrowScope w.sc = false ∨ clean → ∀ pa, t.homeRead pa 1 = s.homeRead pa 1) ∧
        (narrowScope w.sc = false ∨ clean → t = { s with cores := t.cores, clusters := t.clusters, walks := t.walks, l2 := t.l2, mem := t.mem,
                                                         bayLines := t.bayLines, dies := t.dies, lclockF := t.lclockF }) ∧
        (narrowScope w.sc = false → t.bayLines = s.bayLines) ∧
        ((∀ l ∈ sel, ∀ j < 2 ^ (w.wid.toNat - 1), (homeOf (P l j).pa).cached = false) →
          t = { s with cores := t.cores, clusters := t.clusters, walks := t.walks })) ∧
    (∀ i, mem i → 1023 ≤ s.stream c.uid w.os.toNat → LaneWaits s i n k x cStreamsat) ∧
    (∀ i low, mem i → s.stream c.uid w.os.toNat < 1023 → Running c → low ∈ sel → (va low).toNat % e ≠ 0 → (∀ l ∈ sel, l < low → (va l).toNat % e = 0) →
      (∀ l ∈ sel, (va l).toNat % e = 0 → ∀ j < m, Mapped s n c.ring (va l + BitVec.ofNat 72 (j * e)) (i = .laneSt w) (P l j)) →
      ∃ t c' r, exec i s = .next t ∧ t.accs = s.accs ∧ t.core? n k = some { x with failed := true } ∧ t.ctx? n slot = some c' ∧
        c'.status = .blocked ∧ c'.stop.map (fun y => y.recs) = some [r] ∧ slice (wordAt r 0) 63 56 = 0x24 ∧
        wordAt r 2 = BitVec.ofNat 64 (headE c x) ∧ wordAt r 5 = (va low).setWidth 64 ∧
        (∀ l < 16, slice (wordAt r 4) (4 * l + 3) (4 * l) = if l ∈ sel ∧ (va l).toNat % e ≠ 0 then 6 else 0) ∧
        ∀ pa, t.homeRead pa 1 = s.homeRead pa 1)

/-- R320, R321: ACC.RD, ACC.WR and ACC.CLR read, write and clear the elements of a tile; while an operation on it has not ended, ACC.RD
without PEEK faults, and ACC.WR and ACC.CLR wait.
R204, R313, R314, R316, R317: an MMA word whose descriptors are in order enters its operation, charges each K-step, and holds its core;
a core with no live lane in the mask takes part without one, and a descriptor that is not in order faults.
It rests on choices and readings of the model: log entry 17. -/
def Obligations.TilesAreMovedAndMultiplied : Prop :=
  (∀ (s : State) (n slot k : Nat) (c : Ctx) (x : Core) (w : LM) (v : LA) (z : BitVec 4),
    let count : Nat := if w.wid = 2 then 2 else if w.wid = 3 then 4 else 1
    let elem (l : Nat) : Nat := x.index w.b l % 1024 / count * count
    let tile (y : Core) (z : BitVec 4) (e : Nat) : Nat := (tgetD y.z (1024 * z.toNat + e) 0).toNat
    let sel := selected x w.gm
    let busy : Prop := ∃ m ∈ s.mmas, m.cl = n ∧ m.core = k ∧ m.z = z.toNat
    let value (j l : Nat) : Nat := match w.d with | .v d => x.vv (d.toNat + j) l | o => x.data .fp32 o l
    let ready (i : Instr) : Prop := LaneReady s i n slot k c x [(w.d, count), (w.a, 1), (w.b, 1)] ∧ Tagged x w.b 1 IsI32
    let clr : Prop := LaneReady s (.accClr v) n slot k c x [(v.d, 1)]
    (w.a = .z z → ready (.accRd w) → x.tileTag z = .fp32 →
      (¬busy ∨ w.peek = true → Performs s (.accRd w) n k fun y => ∃ d, w.d = .v d ∧ ∃ ys : Nat → Core, ys 0 = x ∧ ys count = y ∧
        ∀ j < count, PutsV (ys j) (ys (j + 1)) (d.toNat + j) .fp32 w.nwb (fun l => if onLane x w.gm l then some (tile x z (elem l + j)) else none)) ∧
      (busy → w.peek = false → Running c → LaneFaults s (.accRd w) n slot k c x 0x26)) ∧
    (w.a = .z z → ready (.accWr w) → Tagged x w.d count (· = .fp32) →
      (¬busy → Performs s (.accWr w) n k fun y => y = { x with z := y.z, ztag := y.ztag } ∧
        (∀ u, y.tileTag u = if u = z then .fp32 else x.tileTag u) ∧
        (∀ l ∈ sel, (∀ l' ∈ sel, l < l' → elem l' ≠ elem l) → ∀ j < count, tile y z (elem l + j) = value j l) ∧
        (∀ u, ∀ e < 1024, (u ≠ z ∨ ∀ l ∈ sel, e / count * count ≠ elem l) → tile y u e = tile x u e)) ∧
      (busy → LaneWaits s (.accWr w) n k x cFuture)) ∧
    (v.d = .z z → clr →
      (¬busy → selected x v.gm ≠ [] → Performs s (.accClr v) n k fun y => y = { x with z := y.z, ztag := y.ztag } ∧
        (∀ u, y.tileTag u = if u = z then .fp32 else x.tileTag u) ∧ ∀ u, ∀ e < 1024, tile y u e = if u = z then 0 else tile x u e) ∧
      (¬busy → selected x v.gm = [] → Performs s (.accClr v) n k fun y => y = x) ∧
      (busy → LaneWaits s (.accClr v) n k x cFuture))) ∧
  (∀ (s : State) (n slot k : Nat) (c : Ctx) (x : Core) (w : LE) (z a b : BitVec 4) (ga gb : Nat),
    let e := headE c x
    let f := w.fmt
    let q (r : BitVec 4) : W64 := x.qv r
    let part := s.partition c
    let steps := slice (q (a + 1)) 16 8
    let m : MmaOp :=
      { id := s.nextId, cl := n, bay := k / 8, core := k, slot := slot, uid := c.uid, e := e,
        op := (x.buf.head?.map (fun h => h.op)).getD c.ops, fmt := f, f := w.fslot, z := z.toNat, qa := q a,
        qa1 := q (a + 1), qb := q b, qb1 := q (b + 1), pm := w.pm, os := w.os, queued := none, step := 0, a := [], b := [], word := w.bits }
    let legal : Prop := DescriptorOk (q a) (q (a + 1)) f part ga ∧ DescriptorOk (q b) (q (b + 1)) f part gb ∧ steps = slice (q (b + 1)) 16 8
    let others (t : State) : Prop := ∀ j, j ≠ coreKey n k → tget t.cores j = tget s.cores j
    let ended (c' : Ctx) (failed : Bool) : Prop :=
      c' = { c with slots := c'.slots, stop := c'.stop, status := c'.status, since := c'.since, save := c'.save, queue := c'.queue } ∧
      (∀ g, g ≠ w.fslot → c'.slot g = c.slot g) ∧
      ∀ p bad, (c.slot w.fslot).state = .pending → (c.slot w.fslot).work = .mma p bad →
        c'.slot w.fslot = { c.slot w.fslot with work := .mma (p - 1) (bad || failed) }
    w.d = .z z → w.a = .q a → w.b = .q b → LaneReady s (.mma w) n slot k c x [(w.d, 1)] → x.tileTag z = .fp32 →
    (∀ o ∈ s.mmas, o.cl = n → o.bay = k / 8 → o.a ≠ []) →
    (selected x w.gm = [] → ∃ t c', exec (.mma w) s = .next t ∧ LaneDone s (.mma w) n k { x with hold := some e } t ∧
      t = { s with cores := t.cores, clusters := t.clusters, ctxs := t.ctxs } ∧ t.ctx? n slot = some c' ∧ ended c' false ∧ c'.stop = c.stop ∧
      ∀ j, j ≠ ctxKey n slot → tget t.ctxs j = tget s.ctxs j) ∧
    (selected x w.gm ≠ [] → 1023 ≤ s.stream c.uid w.os.toNat → LaneWaits s (.mma w) n k x cStreamsat) ∧
    (selected x w.gm ≠ [] → s.stream c.uid w.os.toNat < 1023 → legal →
      (∀ p ∈ m.places, ∀ y, s.core? n (8 * (k / 8) + p) = some y → p = k % 8 ∨ y.hold = some e → ∀ r ∈ m.regsOf p, SameWidth f (y.tagV r)) →
      ∃ t, exec (.mma w) s = .next t ∧ t = { s with cores := t.cores, clusters := t.clusters, mmas := s.mmas ++ [m], nextId := s.nextId + 1 } ∧
        t.core? n k = some { x with hold := some e, buf := x.buf.drop 1, ran := true } ∧ others t ∧
        t.cluster n = { s.cluster n with toll := lessCost (s.cluster n).toll ((steps + 1) * costOf s (.mma w) n) } ∧
        ∀ j, j ≠ n → t.cluster j = s.cluster j) ∧
    (selected x w.gm ≠ [] → s.stream c.uid w.os.toNat < 1023 → (∀ ga gb, ¬(DescriptorOk (q a) (q (a + 1)) f part ga ∧
        DescriptorOk (q b) (q (b + 1)) f part gb ∧ steps = slice (q (b + 1)) 16 8)) → Running c →
      ∃ t c' r, exec (.mma w) s = .next t ∧ t = { s with cores := t.cores, ctxs := t.ctxs, cmds := t.cmds } ∧ others t ∧
        t.core? n k = some { x with failed := true } ∧ t.ctx? n slot = some c' ∧ ended c' true ∧
        c'.stop.map (fun y => y.recs) = some [r] ∧ slice (wordAt r 0) 63 56 = 0x25 ∧ wordAt r 2 = BitVec.ofNat 64 e))

/-- R46, R121, R122, R124 to R128, R169, R202, R357: a generator forms a context for its candidate, picks the READY context that
became so in the earliest of its cycles, readies a context whose cause has cleared, stops one at its deadline; it steals a barge while it is idle; and the front
die moves a context that waits at a die barrier.
It rests on choices and readings of the model: log entries 4, 20, 45, 47, 69. -/
def Obligations.ContextsFormRunAndMove : Prop :=
  ∀ (s : State) (cl : BitVec 5) (sl : BitVec 3) (c : Ctx) (l : Launch) (q : Queued) (e : Entry) (slot : Nat) (rest : List Nat),
    let n := cl.toNat
    let k := s.cluster n
    (Untraced s → s.candidate n = some (l, q) → s.canTake n q = true → s.beaten n l q = false → q.frame = none →
      s.modState (bargeModule q.barge) = .live → s.entryOf q.barge = some e → s.freeSlots n = slot :: rest →
      Happens s (.contextForm cl) fun t => ∃ x bays, OneCtx s t n slot x ∧ t.mem = s.mem ∧
        bays = (s.freeBays n).take (s.governed (l.unqueue q.push) e (bargeEntry q.barge) (s.freeBays n).length) ∧
        (∀ b < 16, x.bays.getLsbD b = decide (b ∈ bays)) ∧ (∀ b ∈ bays, ∀ p < 8, ∃ y, t.core? n (8 * b + p) = some y ∧ Lent y slot) ∧
        t.launches = s.launches.map (fun y => if y.acc = l.acc then y.unqueue q.push else y) ∧
        x.launch = l.acc ∧ x.barge = q.barge ∧ x.status = .ready ∧ x.since = s.now ∧ x.readyAt = k.gcycle ∧ x.pc = (bargeEntry q.barge).setWidth 64 ∧
        x.gv 0 = bargeArg q.barge ∧ x.gv 1 = (wordAt q.barge 3).setWidth 72 ∧ x.gv 2 = (wordAt q.barge 6).setWidth 72 ∧
        x.gv 3 = (wordAt q.barge 7).setWidth 72 ∧ (∀ g : BitVec 6, 3 < g.toNat → x.gv g = 0) ∧ x.k = 0 ∧ x.gt = [] ∧ x.slots = [] ∧
        x.count = 0 ∧ x.deadline = e.budget ∧ x.level = q.level ∧ Hears s t none (some (n / 4)) ∧ x.held = bargeWeight q.barge ∧ x.credit = 0 ∧ x.queue = [] ∧ x.stop = none) ∧
    ((∀ p ∈ s.clusterCtxs n, p.2.status ≠ .issue) → (slot, c) ∈ s.clusterCtxs n → s.ctx? n slot = some c → slot < 8 → c.status = .ready →
      c.halted = false →
      (∀ p ∈ s.clusterCtxs n, p.2.status = .ready → p.2.halted = false → p.1 < 8 ∧ (p = (slot, c) ∨ c.readyAt < p.2.readyAt ∨
        (c.readyAt = p.2.readyAt ∧ slot < p.1))) →
      Happens s (.contextPick cl) fun t => OneCtx s t n slot { c with status := .issue, since := s.now } ∧
        OneCluster s t n { k with switched := true } ∧ t = { s with ctxs := t.ctxs, clusters := t.clusters }) ∧
    (s.ctx? n sl.toNat = some c → c.status = .blocked → c.halted = false →
      (s.causeClear n sl.toNat c = true → Happens s (.contextUnblock cl sl) fun t =>
        OneCtx s t n sl.toNat { c with status := .ready, since := s.now, readyAt := k.gcycle,
                                       wait := if c.wait = .written then .allWritten else c.wait } ∧ t = { s with ctxs := t.ctxs }) ∧
      (∀ u line, c.wait = .mwait (some u) → c.monitor = .armed line → u ≤ k.cycle.toNat → Happens s (.mwaitLimit cl sl) fun t =>
        OneCtx s t n sl.toNat { c with status := .ready, since := s.now, readyAt := k.gcycle, wait := .mwait (some 0) } ∧ t = { s with ctxs := t.ctxs })) ∧
    (s.issuing n = some (slot, c) → s.ctx? n slot = some c → c.count = c.deadline → Running c → c.halted = false →
      (∀ i, decode (s.codeBytes c.pc 16) = .ok i → isYield i = false) →
      Happens s (.watchdog cl) fun t => ∃ c', OneCtx s t n slot c' ∧ Stopped c c' 0x10 (BitVec.ofNat 64 c.deadline) ∧
        t = { s with ctxs := t.ctxs, cmds := t.cmds }) ∧
    (s.idleGen n = true → k.steal = none → 0 < s.stealgap → k.stealAt + 64 * s.stealgap ≤ s.now →
      let pick := if s.stealList n = [] then none else (s.stealList n)[k.lfsr.toNat % (s.stealList n).length]?
      Happens s (.stealRequest cl) fun t => t = { s with clusters := t.clusters, lclockF := t.lclockF } ∧ Hears s t (some (n / 4)) none ∧
        ∃ x, OneCluster s t n { k with lfsr := x, stealAt := s.now, steal := pick } ∧
        (∀ i < 15, x.getLsbD i = k.lfsr.getLsbD (i + 1)) ∧
        x.getLsbD 15 = ((k.lfsr.getLsbD 0 != k.lfsr.getLsbD 2) != (k.lfsr.getLsbD 3 != k.lfsr.getLsbD 5))) ∧
    (∀ d b, Untraced s → k.steal = some (l.acc, (bargeEntry q.barge).toNat, d) → s.launch? l.acc = some l → l.basin? (bargeEntry q.barge) = some b →
      lastQueued (((tgetD b.berths d []).filter (fun x => x.frame.isNone)).map (Queued.due s.now)) = some q → n / 4 ∈ l.usable →
      Happens s (.stealAnswer cl) fun t => OneCluster s t n { k with steal := none } ∧ Hears s t none (some (n / 4)) ∧
        t = { s with clusters := t.clusters, launches := t.launches, dies := t.dies } ∧
        t.launches = s.launches.map (fun x => if x.acc = l.acc then (x.unqueue q.push).addTo (bargeEntry q.barge) (n / 4) q else x)) ∧
    (∀ m, s.ctx? n sl.toNat = some c → c.atBarrier = true → c.save = none → Running c → (∀ p ∈ c.slots, p.2.state ≠ .pending) →
      s.streamsZero c.uid = true → s.holds n c.launch sl.toNat = false → s.flightShared n sl.toNat c = false → m / 4 = n / 4 → m ≠ n →
      (s.cluster m).calib = none → s.launchOn c.launch m = false → c.bayList.length ≤ (s.freeBays m).length → s.freeSlots m = slot :: rest →
      (∀ j < m, j / 4 = n / 4 → j ≠ n → s.freeSlots j = [] ∨ (s.freeBays j).length < c.bayList.length) →
      Happens s (.hotspotMigration cl sl) fun t => OneCtx s t n sl.toNat { c with save := some ⟨.migrate m slot, none⟩ } ∧
        t = { s with ctxs := t.ctxs, moves := t.moves } ∧
        t.moves = s.moves.filter (fun y => y.1 != c.uid) ++ [(c.uid, 8 * m + slot, (bayMask ((s.freeBays m).take c.bayList.length)).toNat)])

/-- R133, R137, R174, R180, R181, R187, R193, R204, R256 to R263, R299, R418, R419: the ports, the vote queue, code fills, page walks, dropped
translations, and the toll of a cluster, as each goes on by itself. A replay's words are patched from its snapshot; a multicast fixes its
targets as it begins, discards the copies of the others, and writes a word into all its targets or none; no other operation writes into a
context while one is half written there.
It rests on choices and readings of the model: log entries 11, 15, 16, 26, 43, 67, 79. -/
def Obligations.PortsFillsWalksAndTollGoOn : Prop :=
  ∀ (s : State) (cl : BitVec 5) (port : BitVec 1) (sl : BitVec 3) (c : Ctx) (o : EmitOp) (os : List EmitOp) (slot : Nat) (x : W64),
    let n := cl.toNat
    let k := s.cluster n
    let only (t : State) : Prop := t = { s with clusters := t.clusters }
    ((tget k.ports port.toNat) = none → (slot, c) ∈ s.clusterCtxs n → c.queue = o :: os → c.halted = false → o.kind = .emit →
      (∀ p ∈ k.ports, p.2 ≠ slot) → slot < 8 →
      (∀ p ∈ s.clusterCtxs n, p.2.halted = false → (∀ u ∈ k.ports, u.2 ≠ p.1) → ∀ o', p.2.queue.head? = some o' →
        p = (slot, c) ∨ o.since < o'.since ∨ (o.since = o'.since ∧ slot < p.1)) →
      Happens s (.portOperationStart cl port) fun t => OneCluster s t n { k with ports := tput k.ports port.toNat slot } ∧ only t) ∧
    (s.served n port.toNat = some (slot, c, o) → s.ctx? n slot = some c → slot < 8 → c.queue = o :: os → o.kind = .emit → c.halted = false →
      k.wrote.getLsbD port.toNat = false → s.sliceOpen n 0 = true → o.next < o.words.length →
      ((s.liveCores n slot).map (fun y => y.1)).Nodup →
      let w := o.words.getD o.next 0
      let f : BitVec 6 := BitVec.ofNat 6 (slice w 60 55)
      s.takesWord (ctxKey n slot) n port.toNat w = true →
      Happens s (.portWordWrite cl port) fun t => ∃ c', OneCtx s t n slot c' ∧
        c' = { c with nextE := c.nextE + 1, slots := c'.slots, votes := c'.votes, queue := c'.queue, counts := c'.counts } ∧
        (∀ m, (∀ y ∈ s.liveCores n slot, m ≠ coreKey n y.1) → tget t.cores m = tget s.cores m) ∧
        (∀ y ∈ s.liveCores n slot, tget s.cores (coreKey n y.1) = some y.2 →
          t.core? n y.1 = some { y.2 with buf := y.2.buf ++ [⟨c.nextE, w, o.num⟩] }) ∧
        c'.queue = (if o.words.length ≤ o.next + 1 then os.map (fun y => { y with since := s.now }) else { o with next := o.next + 1 } :: os) ∧
        (slice w 9 0 = 0x04B → ∃ v, c'.votes = c.votes ++ [v] ∧ v.e = c.nextE ∧ v.needs = (s.liveCores n slot).map (fun y => y.1) ∧
          v.written = k.gcycle ∧ v.value = (if slice w 56 54 = 1 then 1 else if slice w 56 54 = 3 then BitVec.allOnes 64 else 0) ∧
          v.reserved = false ∧ v.readable = false) ∧ (slice w 9 0 ≠ 0x04B → c'.votes = c.votes) ∧
        (slice w 9 0 = 0x240 → (c.slot f).state ≠ .pending → (c'.slot f).state = .pending ∧ (c'.slot f).op = 0x240 ∧
          (c'.slot f).work = .mma (s.liveCores n slot).length false) ∧ (slice w 9 0 ≠ 0x240 → c'.slots = c.slots)) ∧
    (∀ e w, s.served n port.toNat = some (slot, c, o) → s.ctx? n slot = some c → slot < 8 → c.queue = o :: os → o.kind = .replay → o.entryCl = n →
      tget k.capt (captKey c.launch o.id) = some e → e.resident = true → c.halted = false → c.save = none → k.wrote.getLsbD port.toNat = false →
      s.sliceOpen n 0 = true → o.next < e.words.length → ((s.liveCores n slot).map (fun y => y.1)).Nodup → Patched e o.snap o.next w →
      s.takesWord (ctxKey n slot) n port.toNat w = true →
      Happens s (.portWordWrite cl port) fun t => (∃ c', t.ctx? n slot = some c' ∧ c'.nextE = c.nextE + 1 ∧
          c'.queue = if e.words.length ≤ o.next + 1 then os.map (fun y => { y with since := s.now }) else { o with next := o.next + 1 } :: os) ∧
        ∀ y ∈ s.liveCores n slot, tget s.cores (coreKey n y.1) = some y.2 →
          t.core? n y.1 = some { y.2 with buf := y.2.buf ++ [⟨c.nextE, w, o.num⟩] }) ∧
    (∀ qs, (tget k.ports port.toNat) = none → s.ctx? n slot = some c → s.clusterCtxs n = [(slot, c)] → c.queue = o :: os → c.halted = false →
      c.save = none → o.kind = .emitM ∨ o.kind = .replayM → (∀ p ∈ k.ports, p.2 ≠ slot) → s.launch? c.launch = some qs →
      let dsts := (List.range 32).filter (fun m => o.dest.getLsbD (8 + m / 4) && o.dest.getLsbD (m % 4))
      let holds (m : Nat) : Option Ctx :=
        if qs.dieset.getLsbD (m / 4) then ((s.clusterCtxs m).find? (fun p => p.2.launch = c.launch)).map (fun p => p.2) else none
      Happens s (.portOperationStart cl port) fun t => ∃ ts, OneCtx s t n slot
          { c with queue := { o with targets := some ts } :: os, counts := countUp c.counts cDiscard (dsts.countP (fun m => (holds m).isNone)) } ∧
        (∀ u, u ∈ ts ↔ ∃ m ∈ dsts, ∃ x, holds m = some x ∧ x.uid = u)) ∧
    (∀ ts, s.served n port.toNat = some (slot, c, o) → s.ctx? n slot = some c → c.queue = o :: os → o.kind = .emitM → o.targets = some ts →
      c.halted = false → c.save = none → k.wrote.getLsbD port.toNat = false → s.sliceOpen n 0 = true → o.next < o.words.length →
      (∀ e₁ ∈ s.ctxs, ∀ e₂ ∈ s.ctxs, e₁.1 = e₂.1 ∨ e₁.2.uid = e₂.2.uid → e₁ = e₂) → ts.Nodup → (∀ u ∈ ts, ∃ e ∈ s.ctxs, e.2.uid = u) →
      let w := o.words.getD o.next 0
      let aims (e : Nat × Ctx) : Prop := e ∈ s.ctxs ∧ e.2.uid ∈ ts
      ((∃ e, aims e ∧ s.takesWord e.1 n port.toNat w = false) → Happens s (.portWordWrite cl port) fun t => t = s) ∧
      ((∀ e, aims e → s.takesWord e.1 n port.toNat w = true) → (∀ e, aims e → ((s.liveCores (e.1 / 8) (e.1 % 8)).map (fun y => y.1)).Nodup) →
        (∀ e, aims e → ∀ y ∈ s.liveCores (e.1 / 8) (e.1 % 8), y.1 < 128) →
        Happens s (.portWordWrite cl port) fun t =>
          (∀ e, aims e → ∃ c', tget t.ctxs e.1 = some c' ∧ c'.nextE = e.2.nextE + 1 ∧ ∀ y ∈ s.liveCores (e.1 / 8) (e.1 % 8),
            tget s.cores (coreKey (e.1 / 8) y.1) = some y.2 →
            ∃ z, t.core? (e.1 / 8) y.1 = some { y.2 with buf := y.2.buf ++ [z] } ∧ z.e = e.2.nextE ∧ z.w = w) ∧
          ∃ c', t.ctx? n slot = some c' ∧
            c'.queue = if o.words.length ≤ o.next + 1 then os.map (fun y => { y with since := s.now }) else { o with next := o.next + 1 } :: os)) ∧
    (∀ (m p slot' : Nat) (c' : Ctx) (o' : EmitOp) (ts : List Nat), s.served n port.toNat = some (slot, c, o) → s.ctx? n slot = some c →
      o.kind = .emit → c.halted = false → o.next < o.words.length → m < 32 → p < 2 → ¬(m = n ∧ p = port.toNat) →
      s.served m p = some (slot', c', o') → 0 < o'.next → o'.targets = some ts → c.uid ∈ ts →
      Happens s (.portWordWrite cl port) fun t => t = s) ∧
    (∀ e, s.ctx? n sl.toNat = some c → c.queue = o :: os → o.kind = .replay ∨ o.kind = .replayM → o.entryCl = n →
      tget k.capt (captKey c.launch o.id) = some e → e.resident = false → (∃ p ∈ k.ports, p.2 = sl.toNat) →
      Happens s (.replayReadback cl ⟨sl, .ok⟩) fun t => only t ∧ ∃ y, tget (t.cluster n).capt (captKey c.launch o.id) = some y ∧ y.resident = true ∧
        y.words = e.words ∧ y.holes = e.holes ∧ y.gen = e.gen) ∧
    (∀ e, s.ctx? n sl.toNat = some c → c.queue = o :: os → o.kind = .replay ∨ o.kind = .replayM → o.entryCl ≠ n → o.fetched = false →
      tget (s.cluster o.entryCl).capt (captKey c.launch o.id) = some e → (∃ p ∈ k.ports, p.2 = sl.toNat) →
      Happens s (.replayReadback cl ⟨sl, .ok⟩) fun t => OneCtx s t n sl.toNat { c with queue := { o with fetched := true } :: os } ∧
        t = { s with ctxs := t.ctxs, dies := t.dies, lclockF := t.lclockF }) ∧
    (s.ctx? n sl.toNat = some c → (∀ v ∈ c.votes, v.needs = [] → v.reserved = true) → Happens s (.voteReady cl sl) fun t =>
      OneCtx s t n sl.toNat { c with votes := c.votes.map (fun v => if v.needs = [] ∧ v.written + 24 ≤ k.gcycle then { v with readable := true } else v) } ∧
      t = { s with ctxs := t.ctxs }) ∧
    (∀ lvl (f : Fill) (out : Attempt), f ∈ s.code.fills → f.lvl = lvl → f.unit = cl.toNat → f.line = x.toNat →
      (∀ g ∈ s.code.fills, ∀ l u, outerOf lvl cl.toNat = some (l, u) → ¬(g.lvl = l ∧ g.unit = u ∧ g.line = x.toNat)) →
      let st := s.modState (lineModule x.toNat)
      let gone (t : State) : Prop := ∀ g ∈ t.code.fills, ¬(g.lvl = lvl ∧ g.unit = cl.toNat ∧ g.line = x.toNat)
      (st ≠ .live → st ≠ .draining → Happens s (.codeFillArrival lvl cl x out) fun t => gone t ∧ t.code.i0 = s.code.i0 ∧ t.code.i1 = s.code.i1 ∧
        t.code.i2 = s.code.i2 ∧ t = { s with code := t.code }) ∧
      (st = .live ∨ st = .draining → (lvl = .i2 → ∀ m, s.module? (lineModule x.toNat) = some m → s.attempt out (m.pa + lineOffset x.toNat) 128 = .ok) →
        (lvl ≠ .i2 → out = .ok) → Happens s (.codeFillArrival lvl cl x out) fun t => gone t ∧ t.code.has lvl cl.toNat x.toNat = true ∧
          t = { s with code := t.code, dies := t.dies, lclockF := t.lclockF } ∧ (lvl ≠ .i1 → t.dies = s.dies ∧ t.lclockF = s.lclockF) ∧
          (lvl = .i1 → Hears s t none (some cl.toNat)))) ∧
    (∀ (die : BitVec 3) (space : BitVec 2) (vpn : BitVec 60) (y : Walk) (out : Attempt), y ∈ s.walksOf die.toNat → y.die = die.toNat → y.space = space →
      y.vpn = vpn → y.kind = none → (∀ z ∈ s.walks, z.die = die.toNat → z.space = space → z.vpn = vpn → z.kind = none → z = y) →
      let va : W72 := BitVec.ofNat 72 (vpn.toNat * 4096)
      let u := s.walkerOf die.toNat va
      let rest := s.walks.filter (fun z => !(z.die = die.toNat && z.space = space && z.vpn = vpn && z.kind.isNone))
      (s.peerOk (s.walkLast u space va) = true → s.attempt out (s.walkLast u space va / 128 * 128) 128 = .ok) →
      (∀ kind seen, s.walk (some u) space va = (.error kind, seen) → y.users ≠ [] → Happens s (.pageWalkDone die space vpn out) fun t =>
        t = { s with walks := rest ++ [{ y with kind := some kind, clk := (s.die die.toNat).lclock }], dies := t.dies, lclockF := t.lclockF }) ∧
      (∀ e seen, s.walk (some u) space va = (.ok e, seen) → Happens s (.pageWalkDone die space vpn out) fun t =>
        t.walks = rest ∧ t.ctxs = s.ctxs ∧ t.mem = s.mem ∧ (t.die die.toNat).tlb.head? = some e)) ∧
    (s.regs.tlbiBusy = false → x.getLsbD 0 = true → Happens s (.tlbDrop x) fun t => t.regs.tlbiBusy = true ∧ t.mem = s.mem ∧ t.ctxs = s.ctxs ∧
      let first := slice s.regs.tlbiVa 59 0 * 4096
      let last := first + slice s.regs.tlbiCnt 39 0 * 4096
      let goes (e : TlbEnt) : Prop := e.space.toNat = slice x 2 1 ∧ (slice s.regs.tlbiCnt 39 0 = 0 ∨
        (e.base.toNat / 2 ^ e.bits * 2 ^ e.bits < last ∧ first < (e.base.toNat / 2 ^ e.bits + 1) * 2 ^ e.bits))
      (∀ m e, e ∈ (t.cluster m).tlb ↔ (e ∈ (s.cluster m).tlb ∧ ¬goes e)) ∧ (∀ d e, e ∈ (t.die d).tlb ↔ (e ∈ (s.die d).tlb ∧ ¬goes e))) ∧
    (s.regs.tlbiBusy = true → (∀ a ∈ s.accs, a.id ∈ s.regs.tlbiWait → a.done = true ∨ a.bad = true) →
      Happens s .tlbDropDone fun t => t.regs = { s.regs with tlbiBusy := false, tlbiWait := [] }) ∧
    (∀ space, ((∃ l ∈ s.launches, l.ring = space) → Happens s (.xlrootWrite space x) fun t => t = s) ∧
      ((∀ l ∈ s.launches, l.ring ≠ space) → Happens s (.xlrootWrite space x) fun t =>
        t.xlroot space = x &&& 0x003FFFFFFFF80001 ∧ (∀ u, u ≠ space → t.xlroot u = s.xlroot u) ∧ t = { s with regs := t.regs })) ∧
    (let cap : Int := (slice k.tollCfg 61 32 : Nat)
     let fill : Int := (slice k.tollCfg 31 16 / 2 ^ k.shift : Nat)
     Happens s (.tollRefill cl) fun t => ∃ (u v : Nat) (w : Option (Nat × Nat)), OneCluster s t n
        { k with unlent := u, noctx := v, waiting := w, cycle := k.cycle + 1, category := none,
                 ratio := if slice (k.cycle + 1) 1 0 = 0 then BitVec.ofNat 12 (slice k.tollCfg 11 0) else k.ratio,
                 gcycle := if s.sliceOpen n 0 then k.gcycle + 1 else k.gcycle, cfgOn := k.tollCfg,
                 costOn := k.tollCost, began := k.toll, toll := min (k.toll + fill) cap, served := none, switched := false, issued := false,
                 wrote := 0, starved := false } ∧
        (slice k.cycle 15 0 = 0xFFFF → ∀ j < 8, ∀ y, t.ctx? n j = some y → y.counts = []) ∧ t.mem = s.mem ∧ ∀ j < 128, ∀ y, s.core? n j = some y → t.core? n j = some { y with ran := false, why := 0 }) ∧
    (slice k.cycle 1 0 = 0 → Happens s (.ratioChange cl) fun t =>
      OneCluster s t n { k with ratio := BitVec.ofNat 12 (slice k.cfgOn 11 0) } ∧ only t) ∧
    (s.expert = false → (Happens s (.tollcfgWrite cl x) fun t => t = s) ∧ Happens s (.tollcostWrite cl x) fun t => t = s) ∧
    (s.expert = true → (slice x 61 32 = 0 → Happens s (.tollcfgWrite cl x) fun t => t = s) ∧
      (slice x 61 32 ≠ 0 → Happens s (.tollcfgWrite cl x) fun t => OneCluster s t n { k with tollCfg := x &&& 0x3FFFFFFFFFFF0FFF } ∧ only t) ∧
      Happens s (.tollcostWrite cl x) fun t => OneCluster s t n { k with tollCost := x &&& 0x0000FFFFFFFFFFFF } ∧ only t)

/-- R281, R286, R294, R308, R338: an access is performed, whole or in part. The values of a load go to their registers and latches once all
its parts are performed, those of a store to memory or a scratchpad in the order of its parts, an atomic's old values and new values to
both, and a copy from one to the other; an access that stays in its die has then ended, another ends at its acknowledgement, and one that
meets bad data writes no register (R271). A store to a watched word whose new value matches pushes the watchpoint's barge, with the value
and the word's address in it (R360).
It rests on choices and readings of the model: log entries 5, 6, 32, 33, 58, 63. -/
def Obligations.AccessesArePerformedAndAcknowledged : Prop :=
  ∀ (s : State) (a : Access),
    let s0 := setOut s a
    let ends (t : State) : Prop :=
      if a.away then ∃ b, b = { a with clk := b.clk, parts := b.parts, done := true } ∧ t.accs = s.accs.map (fun y => if y.id = a.id then b else y)
      else t.accs = s.accs.filter (fun y => y.id ≠ a.id)
    let performed (P : State → Prop) : Prop := Happens s (.accessPerformed a.id ⟨[], .ok⟩) fun t => ends t ∧ P t
    let same (t : State) : Prop := ∀ b, cell t a b 1 = cell s0 a b 1
    let stored (t : State) : Prop := ∀ p ∈ a.parts, isSp p.pa = false → effScope p.pa a.scope ≠ .system →
      ⟨a.uid, a.cl, a.agent, a.stream, a.key, a.scope, lineOf p.pa, p.ord⟩ ∈ t.narrow
    let fired (t : State) : Prop := ∀ m y, tget s0.ctxs m = some y → ∃ z, tget t.ctxs m = some z ∧
      ((∃ p ∈ a.parts, isSp p.pa = false ∧ throughBay a p.pa = none ∧ y.monitor = .armed (lineOf p.pa)) → z.monitor = .fired) ∧
      ((∀ p ∈ a.parts, y.monitor ≠ .armed (lineOf p.pa)) → z.monitor = y.monitor)
    (Due s a → (∀ p ∈ a.parts, (isSp p.pa = false → Sound s p.pa p.size) ∧ Handy s0 a p) →
      (∀ p c ty (d : BitVec 6), a.agent = .gen → a.op = .load → a.parts = [p] → a.dest = .gen ty d → s0.ctx? a.cl a.slot = some c → c.uid = a.uid →
        tget c.gt d.toNat = some (.access a.id) → performed fun t => same t ∧ ∃ c', OneCtx s0 t a.cl a.slot c' ∧
          c' = { c with g := c'.g, gt := tdel c.gt d.toNat } ∧ c'.gv d = extend ty (cell s0 a p.pa p.size) ∧ ∀ g, g ≠ d → c'.gv g = c.gv g) ∧
      (∀ p c ty (d : BitVec 6), a.agent = .gen → Modifies a → a.parts = [p] → isSp p.pa = false → a.dest = .gen ty d →
        s0.ctx? a.cl a.slot = some c → c.uid = a.uid → tget c.gt d.toNat = some (.access a.id) → performed fun t => fired t ∧
          Holds s0 t p.pa p.size (Access.newValue a.op p (cell s0 a p.pa p.size)) ∧ JoinsAnswered s0 t (p.pa / 16 * 16) ∧
          ∃ c', t.ctx? a.cl a.slot = some c' ∧ c' = { c with g := c'.g, gt := tdel c.gt d.toNat, slots := c'.slots, monitor := c'.monitor } ∧
            c'.gv d = extend ty (cell s0 a p.pa p.size) ∧ ∀ g, g ≠ d → c'.gv g = c.gv g) ∧
      (a.op = .store → a.dest = .none → performed fun t => fired t ∧ stored t ∧
        (∀ b, cell t a b 1 = match lastOver a b with
          | some p => p.data.toNat / 2 ^ (8 * (b - p.pa)) % 256
          | none => cell s0 a b 1) ∧
        ∀ m y, tget s0.cores m = some y → ∃ z, tget t.cores m = some z ∧ z = { y with sp := z.sp, latch := z.latch }) ∧
      (∀ k x f nwb, a.agent = .core k → a.dest = .lanes f nwb → s0.core? a.cl k = some x → FillsApart a f →
        (a.op = .load → performed fun t => same t ∧ t.ctxs = s0.ctxs ∧ (∀ m, m ≠ coreKey a.cl k → tget t.cores m = tget s0.cores m) ∧
          ∃ y, t.core? a.cl k = some y ∧ y.sp = x.sp ∧ Filled x y a f nwb (fun i => match a.parts[i]? with | some p => cell s0 a p.pa p.size | none => 0)) ∧
        (Modifies a → performed fun t => (∀ p ∈ a.parts, cell t a p.pa p.size = foldedAt s0 a a.parts.length p) ∧
          (∀ b, lastOver a b = none → cell t a b 1 = cell s0 a b 1) ∧
          ∃ y, t.core? a.cl k = some y ∧ Filled x y a f nwb (fun i => match a.parts[i]? with | some p => foldedAt s0 a i p | none => 0))) ∧
      (∀ k, a.agent = .core k → a.dest = .none → (∀ p ∈ a.parts, isSp p.pa = false ∧ p.size ≤ 16 ∧ InScratch s0 p.reg p.size) →
        (a.op = .ldcp → (∀ (i j : Nat) p q, a.parts[i]? = some p → a.parts[j]? = some q → i < j → p.reg + p.size ≤ q.reg ∨ q.reg + q.size ≤ p.reg) →
          performed fun t => (∀ p ∈ a.parts, t.spRead p.reg p.size = cell s0 a p.pa p.size) ∧ t.ctxs = s0.ctxs ∧
            ∀ b, (∀ p ∈ a.parts, b < p.reg ∨ p.reg + p.size ≤ b) → cell t a b 1 = cell s0 a b 1) ∧
        (a.op = .stcp → (∀ (i j : Nat) p q, a.parts[i]? = some p → a.parts[j]? = some q → i < j → p.pa + p.size ≤ q.pa ∨ q.pa + q.size ≤ p.pa) →
          performed fun t => fired t ∧ stored t ∧ (∀ p ∈ a.parts, cell t a p.pa p.size = s0.spRead p.reg p.size) ∧
            ∀ b, lastOver a b = none → cell t a b 1 = cell s0 a b 1))) ∧
    (∀ p key w q (j : Nat), Due s a → Sound s p.pa p.size → Handy s0 a p → a.op = .store → a.dest = .none → a.parts = [p] → isSp p.pa = false →
      throughBay a p.pa = none → tget s0.watches key = some w → (s0.watches.map Prod.fst).Nodup → w.armed = true →
      (∀ e ∈ s0.watches, e.1 ≠ key → e.2.armed = false) → s0.launch? w.launch = some q → j < w.words → w.pa + 8 * j ≤ p.pa →
      p.pa + p.size ≤ w.pa + 8 * j + 8 → 0 < p.size →
      performed fun t =>
        let x : W64 := BitVec.ofNat 64 (t.homeRead (w.pa + 8 * j) 8)
        let image := setWord (setWord w.image 6 x) 7 ((w.start + BitVec.ofNat 72 (8 * j)).setWidth 64)
        (x &&& w.mask ≠ w.value &&& w.mask → t.watches = s0.watches ∧ t.pushes = s0.pushes) ∧
        (x &&& w.mask = w.value &&& w.mask →
          (s0.bargeOk q.part w.image = true → (∃ d, HasBerth q d) → (∃ d k, HasQueued t w.launch d image k) ∧ t.pushes = s0.pushes + 1 ∧
            tget t.watches key = some { w with armed := !w.once }) ∧
          (s0.bargeOk q.part w.image = false → t.pushes = s0.pushes ∧ tget t.watches key = some { w with armed := false }))) ∧
    (∀ (which : List Nat), Due s a → s.canPerform a which = true → a.op = .load → a.pm = 0 → (∀ r ∈ s.narrow, r.uid ≠ a.uid) →
      (∀ p ∈ a.parts, (isSp p.pa = false → Sound s p.pa p.size) ∧ Handy s a p ∧ p.size ≤ 16) → (∃ i, i < a.parts.length ∧ i ∉ which) → which ≠ [] →
      Happens s (.accessPerformed a.id ⟨which, .ok⟩) fun t => t.ctxs = s.ctxs ∧ t.cores = s.cores ∧ (∀ b, cell t a b 1 = cell s a b 1) ∧
        ∃ b, b = { a with clk := b.clk, parts := b.parts } ∧ t.accs = s.accs.map (fun y => if y.id = a.id then b else y) ∧
          b.parts = a.parts.zipIdx.map (fun p => if p.2 ∈ which then
            { p.1 with done := true, acked := !p.1.away a.op a.scope, data := BitVec.ofNat 128 (cell s a p.1.pa p.1.size) } else p.1)) ∧
    (∀ p c, Due s a → a.op = .load → a.parts = [p] → isSp p.pa = false → s.badAt p.pa p.size = true → s.linkOpen p.pa = true →
      s.ctx? a.cl a.slot = some c → c.uid = a.uid →
      (∀ ty d, a.agent = .gen → a.dest = .gen ty d → Happens s (.accessPerformed a.id ⟨[], .ok⟩) fun t =>
        (∃ b ∈ t.accs, b.id = a.id ∧ b.bad = true) ∧ ∃ c', t.ctx? a.cl a.slot = some c' ∧ c'.g = c.g ∧ c'.gt = c.gt) ∧
      (∀ k x f nwb, a.agent = .core k → a.dest = .lanes f nwb → s.core? a.cl k = some x → Running c → Happens s (.accessPerformed a.id ⟨[], .ok⟩) fun t =>
        (∃ b ∈ t.accs, b.id = a.id ∧ b.bad = true) ∧ (∃ y, t.core? a.cl k = some y ∧ y.v = x.v ∧ y.failed = true) ∧
        ∃ c', t.ctx? a.cl a.slot = some c' ∧ c'.stop.map (fun z => z.cls) = some 0x30)) ∧
    ((∀ y ∈ s.cmds, y.id ≠ a.id) → a ∈ s.accs → (∀ y ∈ s.accs, y.id = a.id → y = a) → (∃ p ∈ a.parts, p.done = true ∧ p.acked = false) → a.bad = false →
      Happens s (.accessAcknowledgement a.id) fun t => t.mem = s.mem ∧ t.ctxs = s.ctxs ∧ t.cores = s.cores ∧
        t.accs = if a.done then s.accs.filter (fun y => y.id ≠ a.id) else s.accs.map (fun y => if y.id = a.id then
          { a with parts := a.parts.map (fun p => { p with acked := p.acked || p.done }) } else y))

/-- R300, R307, R309, R312, R317 to R319, R322 to R329: an engine begins a command of any of the fifteen kinds, and then does it unit by
unit: a unit of a transfer takes the codes of its elements to its destination, a range command acts on the lines of a page (FILL
ends at bad data, R304), SPMM writes a
row and MERGE an entry; no other byte changes. A matrix engine accepts an operation and completes its K-steps, and a slot leaves PENDING
with its answer.
It rests on choices and readings of the model: log entries 17, 24, 37, 71. -/
def Obligations.EnginesBeginStepAndAnswer : Prop :=
  ∀ (s : State) (cl : BitVec 5) (sl : BitVec 3) (bay : BitVec 4) (f : BitVec 6) (y : Cmd) (m : MmaOp) (c : Ctx) (x : Core),
    let n := cl.toNat
    let slot := sl.toNat
    let with_ (z : Cmd) : List Cmd := s.cmds.map (fun v => if v.id = y.id then z else v)
    let works (P : State → Prop) : Prop := Happens s (.accessPerformed y.id ⟨[], .ok⟩) P
    let left (t : State) (z : Cmd) : Prop := ∃ b, t.cmds = with_ { z with loose := b }
    let still (t : State) : Prop := ∀ a, t.homeRead a 1 = s.homeRead a 1
    (∀ out : Attempt, y ∈ s.cmds → (∀ z ∈ s.cmds, z.id = y.id → z = y) → y.begun = false → y.ended = false →
      (s.cmds.filter (fun z => z.cl = y.cl && z.begun && !z.ended)).length < 8 →
      (∀ v, s.ctx? y.cl y.slot = some v → ∀ o ∈ v.queue, y.key.op < o.num) →
      s.predsDone y.cl y.slot y.uid .engine y.key y.x.ann.pm y.x.ann.sc true = true →
      let starts (P : State → Prop) : Prop := Happens s (.engineCommandStart ⟨y.id, out⟩) P
      let begins (P : Cmd → Prop) : Prop := starts fun t => ∃ z, t.cmds = with_ z ∧ P z
      let begun (z : Cmd) : Prop := (y.code = 0 → z.code ≠ 0 → z.ended = true) ∧
        z = { y with begun := true, ra := z.ra, rb := z.rb, rc := z.rc, oa := z.oa, ob := z.ob, sel := z.sel, plan := z.plan, value := z.value,
                     code := z.code, kind := z.kind, addr := z.addr, clk := z.clk, ended := z.ended, loose := z.loose }
      starts (fun t => (t.cmds = s.cmds ∧ ∃ w ∈ t.walks, y.user ∈ w.users) ∨ ∃ z, t.cmds = with_ z ∧ begun z) ∧
      (y.op = .wback ∨ y.op = .dropr ∨ y.op = .fill → y.code = 0 → y.pos = 0 →
        s.cutCarry y.uid .engine y.key y.x.ann.pm y.x.ann.sc false = none →
        (2 ^ 54 < slice y.b 63 0 → begins (fun z => z = { y with begun := true, ended := true, code := 0x0C, kind := 0, addr := 0, clk := 0 })) ∧
        (slice y.b 63 0 ≤ 2 ^ 54 → begins (fun z => z = { y with begun := true, ended := decide (slice y.b 63 0 = 0), loose := z.loose })))) ∧
    (Works s y →
      (∀ o els, UnitDue s y o els → let W := (y.group o).flatMap (fun p => (unitWrites y p (els p)).map (fun w => (y.engine (y.targetBlock p), w)))
        PlacedApart s y W → works fun t => WritesAll s t y W ∧
          left t { y with pos := y.pos + 1, ended := decide (y.plan.length ≤ y.pos + 1) }) ∧
      (y.op = .wback ∨ y.op = .dropr ∨ y.op = .fill →
        let first := y.a.toNat
        let page := first / 4096 * 4096 + 4096 * y.pos
        let lo := max first page
        let hi := min (first + slice y.b 63 0) (page + 4096)
        let pages := if slice y.b 63 0 = 0 then 0 else (first % 4096 + slice y.b 63 0 + 4095) / 4096
        ∀ q, Mapped s y.cl (s.cmdRing y) (BitVec.ofNat 72 lo) false q → Sound s q.pa 1 → effScope q.pa y.x.ann.sc = y.x.ann.sc → lo < hi →
          let lines := (List.range ((q.pa + (hi - lo) - 1) / 128 - q.pa / 128 + 1)).map (fun i => q.pa / 128 + i)
          (y.op = .fill → (∃ l ∈ lines, s.badLine (128 * l) = true) → works fun t => ∃ z, t.cmds = with_ z ∧ z.ended = true ∧ z.code = 8) ∧
          ((∀ l ∈ lines, s.badLine (128 * l) = false ∧ s.linkOpen (128 * l) = true) → works fun t => left t { y with pos := y.pos + 1, ended := decide (pages ≤ y.pos + 1) } ∧
            (y.op = .fill → (∀ l ∈ lines, (homeOf (128 * l)).cached = true → t.l2Line l ≠ none) ∧ ((∀ l ∈ lines, Roomy s (128 * l)) → still t)) ∧
            (y.op = .wback → BaysSorted s → ∀ l ∈ lines, CleanAbove t l ∧
              (y.x.ann.sc = .system → ∀ v, t.l2Line l = some v → v.dirty = 0)) ∧
            (y.op = .dropr → ∀ l ∈ lines, (∀ p ∈ t.bayLines, ∀ v ∈ p.2, v.line ≠ l) ∧ (∀ p ∈ t.uniLines, ∀ v ∈ p.2, v.line ≠ l) ∧
              (y.x.ann.sc = .system → t.l2Line l = none)) ∧
            (y.op ≠ .fill → y.x.ann.sc ≠ .system → ((∀ l ∈ lines, CleanAbove s l) → still t) ∧
              ∀ l ∈ lines, ∀ k b v, BaysSorted s → (∀ i ∈ lines, Roomy s (128 * i)) → s.bayLine k b l = some v → b < 16 →
                (∀ p ∈ s.bayLines, p.1 / 128 ≠ 16 * k + b → ∀ u ∈ p.2, u.line = l → u.dirty = 0) → ∀ i < 128,
                  t.homeRead (128 * l + i) 1 = if v.dirty.getLsbD i then v.get i 1 else s.homeRead (128 * l + i) 1))) ∧
      (∀ set, y.op = .spmm set → y.sel = [] →
        let r := sparseOf y.ra
        ∀ ps : List Nat, ps.length = r.rows + 1 →
          (∀ (i : Nat) z, ps[i]? = some z → EngineReads s y y.cl (r.ptr + BitVec.ofNat 72 (i * ixBytes r.ifmt)) (ixBytes r.ifmt) z) →
          works fun t => still t ∧
            ((∃ i, i < r.rows ∧ ps.getD (i + 1) 0 < ps.getD i 0) →
              left t { y with ended := true, code := 0x05, kind := 0, addr := 0, clk := 0 }) ∧
            ((∀ i < r.rows, ps.getD i 0 ≤ ps.getD (i + 1) 0) → ps.headD 0 = ps.getLastD 0 →
              left t { y with sel := ps, ended := decide (y.plan.length ≤ y.pos) })) ∧
      (∀ set i cols vals old xs, y.op = .spmm set → y.sel ≠ [] → y.plan[y.pos]? = some i → RowReads s y set i cols vals old xs →
        (descOf y.rc).brick = false → let W := rowWrites y i vals old xs
        PlacedApart s y W → works fun t => WritesAll s t y W ∧
          left t { y with pos := y.pos + 1, ended := decide (y.plan.length ≤ y.pos + 1) }) ∧
      (∀ u v ea eb, y.op = .mergeI ∨ (∃ dz, y.op = .mergeU dz) → y.merge.ha = some u → y.merge.hb = some v →
        EntryValue s y (runOf y.ra) y.merge.i ea → EntryValue s y (runOf y.rb) y.merge.j eb →
        let inter := decide (y.op = .mergeI)
        let o := runOf y.rc
        let e := if u < v then ea else if v < u then eb else if inter then ea.mul eb else ea.add y.x.rnd eb
        let w := round e (valFmt o.vfmt) y.x.rnd y.x.sat
        let gone := (inter && decide (u ≠ v)) || (decide (y.op = .mergeU true) && decide (o.vfmt ≠ 0 ∧ w % 2 ^ (Fmt.width (valFmt o.vfmt) - 1) = 0))
        let m' : MergeSt := { i := if u ≤ v then y.merge.i + 1 else y.merge.i, j := if v ≤ u then y.merge.j + 1 else y.merge.j,
                              n := if gone then y.merge.n else y.merge.n + 1, ha := if u ≤ v then none else some u, hb := if v ≤ u then none else some v,
                              pa := if u ≤ v then some u else y.merge.pa, pb := if v ≤ u then some v else y.merge.pb }
        let over_ := decide (m'.i = (runOf y.ra).len ∧ m'.j = (runOf y.rb).len)
        let full := decide (over_ = true ∧ o.len < m'.n)
        let z := { y with merge := m', value := BitVec.ofNat 64 (if full then m'.n else min m'.n o.len), code := if full then 0x07 else y.code, ended := over_ }
        let W := if gone ∨ o.len ≤ y.merge.n then [] else
          (y.cl, o.idx + BitVec.ofNat 72 (y.merge.n * ixBytes o.ifmt), ixBytes o.ifmt, min u v) ::
            (if o.vfmt = 0 then [] else [(y.cl, o.val + BitVec.ofNat 72 (y.merge.n * valBytes o.vfmt), valBytes o.vfmt, w)])
        PlacedApart s y W → works fun t => WritesAll s t y W ∧ left t z)) ∧
    (m ∈ s.mmas → (∀ z ∈ s.mmas, z.id = m.id → z = m) → m.queued = none → (∀ p ∈ m.places, ∃ z, s.core? m.cl (8 * m.bay + p) = some z ∧ z.left = false ∧
        z.hold = some m.e ∧ (∀ w ∈ z.buf, w.e ≠ m.e) ∧ ∀ r ∈ m.regsOf p, r < 256 ∧
          Settled s m.cl (8 * m.bay + p) m.uid z (.v (BitVec.ofNat 8 r)) 1) →
      s.predsDone m.cl m.slot m.uid (.matrix m.bay) ⟨m.op, 0, m.e⟩ m.pm .bay false = true →
      (s.mmas.filter (fun z => z.cl = m.cl && z.bay = m.bay && z.queued.isSome)).length < 16 →
      Happens s (.mmaAccept m.id) fun t =>
        t = { s with mmas := s.mmas.filter (fun z => z.id ≠ m.id) ++ [{ m with queued := some s.now }] }) ∧
    (s.mmas.find? (fun z => z.cl = n && z.bay = bay.toNat && z.queued.isSome) = some m → (∀ z ∈ s.mmas, z.id = m.id → z = m) →
      s.core? n m.core = some x → s.ctx? n m.slot = some c → c.uid = m.uid →
      let a := if m.a = [] then s.mmaRead m m.opdA else m.a
      let b := if m.a = [] then s.mmaRead m m.opdB else m.b
      let terms (V : Nat → Nat → List Exact) : Prop := ∀ i < 32, ∀ j < 32,
        if m.fmt = .l6 then (V i j).length = 4 ∧ ∀ (g : Nat) v, (V i j)[g]? = some v →
          L6Block (rowOf .l6 a (m.step / 2) i) (rowOf .l6 b (m.step / 2) j) (4 * (m.step % 2) + g) v
        else V i j = [sumExact ((List.range (kStep m.fmt)).map (fun e =>
          (valueOf m.fmt (eltOf m.fmt (rowOf m.fmt a m.step i) e)).mul (valueOf m.fmt (eltOf m.fmt (rowOf m.fmt b m.step j) e))))]
      let add (r : Nat) (v : Exact) : Nat := round ((valueOf .fp32 r).add .rne v) .fp32 .rne false
      Happens s (.mmaStep cl bay) fun t => ∃ z, t.core? n m.core = some z ∧ z = { x with z := z.z, ztag := z.ztag } ∧
        (∃ V, terms V ∧ ∀ i < 32, ∀ j < 32, (tgetD z.z (1024 * m.z + 32 * i + j) 0).toNat =
          ((V i j).foldl add (tgetD x.z (1024 * m.z + 32 * i + j) 0).toNat) % 2 ^ 32) ∧
        (∀ e, e / 1024 ≠ m.z → tgetD z.z e 0 = tgetD x.z e 0) ∧ tgetD z.ztag m.z .untyped = .fp32 ∧
        (∀ e, e ≠ coreKey n m.core → tget t.cores e = tget s.cores e) ∧ t.mem = s.mem ∧
        (m.step + 1 < m.opdA.steps → t.ctxs = s.ctxs ∧
          t.mmas = s.mmas.map (fun v => if v.id = m.id then { m with a := a, b := b, step := m.step + 1 } else v)) ∧
        (m.opdA.steps ≤ m.step + 1 → t.mmas = s.mmas.filter (fun v => v.id ≠ m.id) ∧ ∃ c', OneCtx s t n m.slot c' ∧ c'.gv = c.gv ∧
          ∀ u h, (c.slot m.f).state = .pending → (c.slot m.f).work = .mma u h → (c'.slot m.f).work = .mma (u - 1) h)) ∧
    (s.ctx? n slot = some c → (c.slot f).state = .pending → (c.slot f).link = none →
      let u := c.slot f
      let answers (st : SlotState) (code : BitVec 8) (kind : BitVec 4) (addr : W72) (v : W64) (bad : Bool) (clk : BitVec 48) (cmds : List Cmd) : Prop :=
        Happens s (.slotResolve cl sl f) fun t =>
          t = { s with ctxs := t.ctxs, flights := t.flights, bayLines := t.bayLines, cmds := cmds, walks := t.walks } ∧
          BaysFresh s t n c.bays ∧
          (match u.defer with
           | none => t.flights = s.flights
           | some (fl, i) => t.flights = s.flights.map (fun z =>
               if z.cl = n ∧ z.launch = c.launch ∧ z.fl = fl then z.step i (decide (st ≠ .ok)) else z)) ∧
          ∃ c', OneCtx s t n slot c' ∧ c' = { c with slots := c'.slots, g := c'.g, gt := c'.gt } ∧ (∀ h, h ≠ f → c'.slot h = c.slot h) ∧
            c'.slot f = { u with state := st, code := code, kind := kind, addr := addr, value := if u.op = 0x56 then 0 else v, work := .none,
                                 target := none, defer := none, uncorr := u.uncorr || bad, clk := clk } ∧
            (∀ g, u.target = some g → tget c.gt g.toNat = some (.slot f) → bad = false → c'.gv g = v.setWidth 72 ∧ tget c'.gt g.toNat = none) ∧
            ∀ g, u.target ≠ some g → c'.gv g = c.gv g
      (y ∈ s.cmds → (∀ z ∈ s.cmds, z.id = y.id → z = y) → u.work = .command y.id → y.ended = true →
        answers (if y.cancel then .cancelled else if y.code = 0 then .ok else .error) (if y.cancel then 0 else y.code)
          (if y.cancel = false ∧ y.code = 3 then y.kind else 0) y.addr y.value (y.cancel = false ∧ y.code = 8) y.clk
          (s.cmds.filter (fun z => z.id ≠ y.id))) ∧
      (∀ failed, u.work = .mma 0 failed → answers (if failed then .error else .ok) (if failed then 9 else 0) 0 0 0 false u.clk s.cmds) ∧
      (∀ st code v, u.work = .joined st code v → answers st code 0 0 v false u.clk s.cmds))

/-- R354, R386, R388, R425, R426: a die barrier releases its members together, a completion is posted to its tree counter or its job, and
the scrubber records what it corrects, in an L2 slice or in the DRAM behind the slices, and knows what it cannot correct as bad.
It rests on choices and readings of the model: log entries 27, 31, 32, 52, 58. -/
def Obligations.BarriersPostsAndScrubbing : Prop :=
  ∀ (s : State) (launch : Nat) (die : BitVec 3) (b : BitVec 2) (p : Post) (pl q : Place) (pa : BitVec 54),
    (let mine (e : Nat × Ctx) : Prop := e.2.launch = launch ∧ e.1 / 32 = die.toNat
     (∃ e ∈ s.ctxs, mine e) → (∀ e ∈ s.ctxs, mine e → e.2.wait = .barDie b true false) → (s.die die.toNat).admitted = true →
      Happens s (.barrierRelease launch die b) fun t => t = { s with ctxs := t.ctxs, bayLines := t.bayLines } ∧ ∀ k c, (k, c) ∈ s.ctxs →
        (k, { c with wait := if c.launch = launch ∧ k / 32 = die.toNat then .barDie b true true else c.wait }) ∈ t.ctxs ∧
        (c.launch = launch → k / 32 = die.toNat → tget s.ctxs k = some c → ∀ h set, tget t.bayLines h = some set → h / 2048 = k / 8 →
          c.bays.getLsbD (h / 128 % 16) = true → ∀ l ∈ set, ∀ i < 128, l.dirty.getLsbD i = false → l.get i 1 = t.homeRead (128 * l.line + i) 1)) ∧
    (p ∈ s.posts → (∀ z ∈ s.posts, z.id = p.id → z = p) → (s.die p.die).phase ≠ 1 → (s.die p.die).phase ≠ 2 →
      let rest := s.posts.filter (fun z => z.id ≠ p.id)
      (p.mode = 0 → Happens s (.completionPost p.id .ok) fun t => t = { s with posts := rest }) ∧
      (p.mode = 2 → Happens s (.completionPost p.id .ok) fun t => t.posts = rest ∧ t.mem = s.mem ∧ Hears s t (some p.die) none ∧
        t.launches = s.launches.map (fun l => if l.acc = p.launch then
          { l with doneN := l.doneN + 1 + p.credit, errs := l.errs + (if p.flagged then 1 else 0) } else l)) ∧
      (p.mode = 1 → s.xlateFront p.ring p.succ true = .ok pl → Sound s pl.pa 16 → InLine pl.pa 16 → Roomy s pl.pa → s.watches = [] →
        (p.flagged = false → Happens s (.completionPost p.id .ok) fun t => t.posts = rest ∧
          Holds s t pl.pa 8 (s.homeRead pl.pa 8 + p.weight.toNat)) ∧
        (p.flagged = true → s.xlateFront p.ring (p.succ + 8) true = .ok q → q.pa = pl.pa + 8 →
          (∀ u : State, u.regs = s.regs → u.badGranules = s.badGranules → u.fresh = s.fresh →
            (∀ a, a < q.pa ∨ q.pa + 8 ≤ a → u.homeRead a 1 = s.homeRead a 1) → u.xlateFront p.ring p.succ true = .ok pl) →
          Happens s (.completionPost p.id .ok) fun t => t.posts = rest ∧ t.homeRead pl.pa 8 = (s.homeRead pl.pa 8 + p.weight.toNat) % 2 ^ 64 ∧
            t.homeRead q.pa 8 = (s.homeRead q.pa 8 + 1) % 2 ^ 64 ∧ ∀ a, a < pl.pa ∨ pl.pa + 16 ≤ a → t.homeRead a 1 = s.homeRead a 1))) ∧
    (∀ inSlice : Bool, slice s.regs.scrub 15 0 ≠ 0 →
      let at_ := pa.toNat
      let held := (s.l2Line (lineOf at_)).isSome
      let dram := decide (homeOf at_ = .dram)
      (if inSlice then held = true else dram = true ∨ homeOf at_ = .capacity) → s.badLine at_ = false → Roomy s (errorSlot s) →
      let found (t : State) (kind : Nat) : Prop := ErrorRecorded s t
        [(if inSlice then 3 else if dram then 1 else 2) * 2 ^ 56 + kind * 2 ^ 54 + s.lclockF.toNat, at_ / 128 * 128,
          if inSlice then stackOf at_ else if dram then at_ / 4096 % 12 else (at_ - 0x10000000000) / 4096 % 4, 0]
      (Happens s (.scrubLine pa inSlice .ok) fun t => t = s) ∧
      (Happens s (.scrubLine pa inSlice .corrected) fun t => found t 0) ∧
      (Happens s (.scrubLine pa inSlice .transient) fun t => found t 1) ∧
      Happens s (.scrubLine pa inSlice .lasting) fun t => found t 2 ∧
        if inSlice = true ∨ held = false then t.badAt at_ 1 = true else t.badGranules = s.badGranules)

/-- R368, R369, R371, R372: a stopped context whose slots and streams have drained ends: its bays return, its flagged completion is queued
and its record written. One that has not drained in 2^16 cycles is STUCK, and so is a save whose commands do not end; both fault the
launch. A level-7 candidate that has waited 2^20 cycles for bays has the lowest and latest context saved, and no other where that one is leaving.
It rests on choices and readings of the model: log entries 28, 42, 44, 47. -/
def Obligations.StopsDrainAndStick : Prop :=
  ∀ (s : State) (cl : BitVec 5) (sl : BitVec 3) (c : Ctx) (l : Launch) (x : Stop) (r : List W64) (q : Queued) (since ix slot : Nat) (w : SaveWhy),
    let n := cl.toNat
    let k := sl.toNat
    let commanded : Prop := ∃ p ∈ c.slots, p.2.state = .pending ∧ ∃ id, p.2.work = .command id
    (s.cores.map Prod.fst).Nodup → s.ctx? n k = some c → s.launch? c.launch = some l → l.acc = c.launch → l.ended = false → l.change = none →
    (c.stop = some x → x.frame = none →
      ((∀ p ∈ c.slots, p.2.state ≠ .pending ∧ p.2.work = .none) → s.streamsZero c.uid = true →
        (x.cls = 0x32 ∨ ∀ b ∈ c.bayList, ∀ y ∈ s.bayAll n b, y.dirty = 0) → x.recs = [r] → r.length = 8 → Untraced s → Unwatched s →
        Roomy s (logSlot s c.ring) → (∀ a ∈ s.accs, a.uid ≠ c.uid → ∀ p ∈ a.parts, isSp p.pa = false) →
        Happens s (.stopDrainEnd cl sl) fun t => CtxGone s t n k ∧ (∀ p ∈ s.coresOf n k, t.core? n p.1 = none) ∧
          t.posts = s.posts ++ [flaggedPost c n s.nextId] ∧ StopLogged s t c.ring r x.dropped false ∧
          ∀ y ∈ t.flights, ∀ j < y.count, y.cl = n → y.launch = c.launch → y.hold.getD j 0 = k → y.st j ≠ .filling ∧ y.st j ≠ .draining) ∧
      (commanded → (∀ p ∈ c.slots, p.2.link = none) →
        (Happens s (.stopDrainEnd cl sl) fun t => (∃ c', t.ctx? n k = some c' ∧ c'.stop = c.stop) ∧
          ∀ p ∈ s.coresOf n k, ∃ y, t.core? n p.1 = some y ∧ y.buf = []) ∧
        (s.now < x.since + 2 ^ 16 → Happens s (.stuck cl sl) fun t => t = s) ∧
        (x.since + 2 ^ 16 ≤ s.now → l.faulted = false → Happens s (.stuck cl sl) fun t => t.ctx? n k = none ∧ LaunchFaulted t c.launch) ∧
        (x.since + 2 ^ 16 ≤ s.now → l.faulted = true → Happens s (.stuck cl sl) fun t => t.ctx? n k = none))) ∧
    (Running c → c.save = some ⟨w, some (since, ix)⟩ → commanded → l.faulted = false →
      (s.now < since + 2 ^ 16 → Happens s (.saveDrainLimit cl sl) fun t => t = s) ∧
      (since + 2 ^ 16 ≤ s.now → Happens s (.saveDrainLimit cl sl) fun t => LaunchFaulted t c.launch ∧
        ∃ c', t.ctx? n k = some c' ∧ c'.stop.map (fun y => y.cls) = some 0x33 ∧ c'.save = none ∧ c'.pc = c.pc ∧ c'.g = c.g)) ∧
    (s.candidate n = some (l, q) → q.level = 7 → (s.cluster n).waiting = some (q.push, since) → since + 2 ^ 20 ≤ s.now →
      (s.freeBays n).length < s.needs q →
      (∀ p ∈ s.clusterCtxs n, ∀ u, p.2.save ≠ some ⟨.level7, u⟩) → slot = k → (slot, c) ∈ s.clusterCtxs n → c.level < 7 →
      (∀ p ∈ s.clusterCtxs n, p = (slot, c) ∨ c.level < p.2.level ∨ (c.level = p.2.level ∧ p.2.formed < c.formed)) →
      (c.save ≠ none ∨ c.stop ≠ none → Happens s (.preemptionRequest cl) fun t => t = s) ∧
      (c.save = none → Running c → Happens s (.preemptionRequest cl) fun t => OneCtx s t n k { c with save := some ⟨.level7, none⟩ } ∧
        t = { s with ctxs := t.ctxs, moves := s.moves.filter (fun y => y.1 ≠ c.uid) }))

/-- R118, R371 to R374, R377: a save takes the lowest free frame slot where the context waits; once the context has drained, the frame holds
it, its bays return, and the frame waits at the head of its level; a handled trap leaves a TRAPPED frame and pushes the handler's barge.
It rests on choices and readings of the model: log entries 10, 13, 28, 42, 46. -/
def Obligations.FramesAreWritten : Prop :=
  ∀ (s u v : State) (cl : BitVec 5) (sl : BitVec 3) (c : Ctx) (l l' : Launch) (x : Stop) (r b : List W64) (w : SaveWhy) (since ix m : Nat),
    let n := cl.toNat
    let k := sl.toNat
    let key := 4096 * c.ring.toNat + ix
    let framed (t : State) (st : Nat) : Prop := t.ctx? n k = none ∧ (∀ p ∈ s.coresOf n k, t.core? n p.1 = none) ∧ ∃ f, tget t.frames key = some f ∧
      f.state = st ∧ f.launch = c.launch ∧ f.cl = n ∧ f.slot = k ∧ f.ctx = { c with counts := f.ctx.counts } ∧ f.cores = (s.coresOf n k).map (fun p => p.2)
    let quiet : Prop := ∀ a ∈ s.accs, ∀ p ∈ a.parts, isSp p.pa = false
    (∀ st rec, let image := s.frameImage n k c st rec
      atWord image 0 4 = 0x4D52465A ∧ atWord image 6 1 = st % 256 ∧ atWord image 0xC0 8 = c.pc.toNat ∧ atWord image 0xE0 8 = c.ttag.toNat ∧
      atWord image 0xF0 1 = c.k.toNat ∧ ∀ i < 64, atWord image (0x100 + 16 * i) 9 = (tgetD c.g i 0).toNat) ∧
    ((s.cores.map Prod.fst).Nodup → s.ctx? n k = some c → s.launch? c.launch = some l → l.change = none → l.ended = false → Unwatched s → quiet → Untraced s →
      (Running c → c.save = some ⟨w, none⟩ → c.status = .blocked → c.stretch = none → LowestFree s c.ring ix → s.windowHeld n k c = false →
        (w = .boundary ∧ c.wait = .step) ∨ (w = .reset ∧ (c.wait = .step ∨ ∃ b a, c.wait = .barDie b a false)) →
        Happens s (.frameWrite cl sl) fun t => OneCtx s t n k { c with save := some ⟨w, some (s.now, ix)⟩, since := s.now } ∧
          t = { s with ctxs := t.ctxs, clusters := t.clusters }) ∧
      (Running c → c.save = some ⟨.migrate m ix, none⟩ → c.atBarrier = false → Happens s (.frameWrite cl sl) fun t =>
        OneCtx s t n k { c with save := none } ∧ t.moves = s.moves.filter (fun y => y.1 ≠ c.uid)) ∧
      (Running c → c.save = some ⟨w, some (since, ix)⟩ → s.drained n k c = true →
        (let image := (s.writeBackBays n c true).frameImage n k c 1 []
         (s.writeBackBays n c true).virtWrite c.ring (image.length / 4096 + 2) (s.frameVa c.ring ix) image = .ok u) →
        (∃ y, l.basin? (bargeEntry c.barge) = some y) → (w = .level7 ∧ n / 4 ∈ l.usable ∧ m = n / 4) ∨
          ((w = .boundary ∨ w = .reset) ∧ l.usable.head? = some m ∧ 8 ∉ l.usable) →
        Happens s (.frameWrite cl sl) fun t => framed t 1 ∧ HasFrame t c.launch m key c) ∧
      (let logged := s.logRecords c.ring c.launch x.dropped true c.ttag [r]
       let word := wordAt (logged.2.headD []) 0
       let image := setWord (setWord b 6 ((v.frameVa c.ring ix).setWidth 64)) 7 word
       c.stop = some x → x.frame = some ix → x.recs = [r] → s.drained n k c = true → logged.1.saveFrame n k ix 2 (logged.2.headD []) = some v →
        v.readBarge c.ring (v.hbarge c.ring) = .ok b → v.launch? c.launch = some l' → v.bargeOk l'.part (stampBarge image 0 0 0) = true →
        n / 4 ∈ l'.usable → l'.aborted = false → l'.faulted = false → (∃ y, l'.basin? (bargeEntry b) = some y) →
        Happens s (.frameWrite cl sl) fun t => framed t 2 ∧ HasQueued t c.launch (n / 4) (stampBarge image 0 0 0) v.pushes))

/-- R376 to R379: a generator restores the frame that its candidate is, with the registers that memory holds; RESUME of a TRAPPED frame queues
it, or ends the task with a BADFRAME record where the frame does not pass; DISCARD ends the task.
It rests on choices and readings of the model: log entries 10, 13, 28, 42, 80. -/
def Obligations.FramesAreRestoredResumedAndDiscarded : Prop :=
  ∀ (s : State) (cl : BitVec 5) (space : BitVec 2) (ix : BitVec 12) (l : Launch) (q : Queued) (f : Frame) (slot : Nat) (rest : List Nat)
    (image : List Byte),
    let n := cl.toNat
    let key := 4096 * space.toNat + ix.toNat
    let part := s.partition f.ctx
    let bays := (s.freeBays n).take f.ctx.bayList.length
    tget s.frames key = some f → Unwatched s → Untraced s →
    (s.candidate n = some (l, q) → q.frame = some key → s.canTake n q = true → s.beaten n l q = false → s.freeSlots n = slot :: rest →
      s.virtRead space (s.frameVa space ix.toNat) (0x22000 + f.cores.length * poolSize part) = some image → f.cores.length = 8 * bays.length →
      (∀ p ∈ f.ctx.slots, ∀ a b, p.2.work ≠ .join a b) → f.held = [] → s.launch? f.launch = some l → f.ctx.launch = f.launch →
      Happens s (.frameRestore cl) fun t => tget t.frames key = none ∧ (∃ c, t.ctx? n slot = some c ∧
          c.pc = BitVec.ofNat 64 (atWord image 0xC0 8) ∧ c.ttag = BitVec.ofNat 64 (atWord image 0xE0 8) ∧
          c.uscratch = BitVec.ofNat 64 (atWord image 0xE8 8) ∧ c.k = BitVec.ofNat 8 (atWord image 0xF0 1) ∧
          (∀ g : BitVec 6, c.gv g = BitVec.ofNat 72 (atWord image (0x100 + 16 * g.toNat) 9)) ∧ c.status = .ready ∧ c.stop = none ∧ c.save = none ∧
          c.slots = f.ctx.slots ∧ c.queue = f.ctx.queue.map (fun o => { o with fetched := false }) ∧ c.barge = f.ctx.barge ∧ c.launch = f.launch ∧ c.count = f.ctx.count ∧
          c.deadline = f.ctx.deadline ∧ c.bays = bayMask bays ∧
          (f.ctx.wait = .step → (∃ u, f.ctx.save = some ⟨.boundary, u⟩) → c.wait = .stepDone) ∧
          (f.ctx.wait ≠ .step ∨ (∀ u, f.ctx.save ≠ some ⟨.boundary, u⟩) → c.wait = .none)) ∧
        ∀ (j : Nat) y, f.cores[j]? = some y → ∃ z, t.core? n (8 * bays.getD (j / 8) 0 + j % 8) = some z ∧
          z = { y with slot := slot, epoch := z.epoch, latch := [], buf := [], hold := none, failed := false, ran := false, why := 0, a := z.a, q := z.q,
                       m := z.m, v := z.v, sp := z.sp, z := z.z } ∧
          (∀ i : BitVec 4, z.qv i = BitVec.ofNat 64 (atWord image (0x2100 + 1024 * j + 8 * i.toNat) 8)) ∧
          ∀ i < 1024 * slice part 5 0, (tgetD z.v i 0).toNat = atWord image (0x22000 + poolSize part * j + 4 * i) 4) ∧
    (f.state = 2 → f.cmd = 1 → s.frameGood key = true → s.launch? f.launch = some l → f.cl / 4 ∈ l.usable →
      (∃ y, l.basin? (bargeEntry f.ctx.barge) = some y) → Happens s (.frameResume space ix) fun t =>
        (∃ pc, tget t.frames key = some { f with state := 3, ctx := { f.ctx with pc := pc } } ∧
          ∀ bs, s.virtRead space (s.frameVa space ix.toNat) 0x22000 = some bs → pc = BitVec.ofNat 64 (atWord bs 0xC0 8)) ∧ HasFrame t f.launch (f.cl / 4) key f.ctx ∧ t.ctxs = s.ctxs) ∧
    (f.state = 2 → f.cmd = 1 → s.frameGood key = false → Roomy s (logSlot s space) → (∀ y, s.launch? f.launch = some y → y.change = none) → Happens s (.frameResume space ix) fun t =>
      tget t.frames key = none ∧ t.posts = s.posts ++ [flaggedPost f.ctx f.cl s.nextId] ∧ (t.trap space.toNat).flogTail = (s.trap space.toNat).flogTail + 1) ∧
    (f.state = 2 → f.cmd = 2 → (∀ y, s.launch? f.launch = some y → y.change = none) → Happens s (.frameDiscard space ix) fun t =>
      tget t.frames key = none ∧ t.posts = s.posts ++ [flaggedPost f.ctx f.cl s.nextId]) ∧
    (f.state ≠ 2 ∨ f.cmd = 0 → (Happens s (.frameResume space ix) fun t => t = s) ∧ Happens s (.frameDiscard space ix) fun t => t = s)

/-- R108, R112, R113, R115, R117, R119: a queued barge rises a level after each 2^20 cycles; the distributor grants a waiting launch the dies that
R113 prefers and deals it its barges; a launch past the cap is marked; and adds and withdrawals are requested with their boundary sets.
It rests on choices and readings of the model: log entries 28, 30, 47, 48, 75. -/
def Obligations.DistributorGivesAndTakesDies : Prop :=
  ∀ (s : State) (acc push d t0 : Nat) (l w : Launch),
    let members (y : Launch) : List Nat := (s.launchCtxs y.acc).map (fun p => p.2.2.uid)
    let pending (y : Launch) (die : Nat) (add : Bool) : Launch := { y with change := some ⟨die, add, members y, []⟩ }
    let rise (q : Queued) : Queued := if q.push = push ∧ q.level < 7 ∧ q.since + 2 ^ 20 ≤ s.now then
      { q with level := q.level + 1, since := q.since + 2 ^ 20, head := false } else q
    s.launch? acc = some l → l.acc = acc →
    (Happens s (.bargeAging acc push) fun t => t = { s with launches := t.launches } ∧ OneLaunch s t acc
      { l with basins := l.basins.map (fun b => { b with berths := b.berths.map (fun p => (p.1, p.2.map rise)) }), parked := l.parked.map rise,
               first := l.first.map rise }) ∧
    (Untraced s → l.waits = true → l.minDies ≤ (mayHold s l).length → NoneShort s →
      (∀ v ∈ s.launches, v.acc ≠ acc → considered v l = true → v.waits = true → (mayHold s v).length < v.minDies) →
      (∀ q ∈ l.first ++ l.parked, ∃ b, l.basin? (bargeEntry q.barge) = some b) → 0 < l.maxDies →
      Happens s (.dieGrant acc) fun t => ∃ y, OneLaunch s t acc y ∧
        y = { l with dieset := y.dieset, diegen := if l.granted then l.diegen + 1 else 0, granted := true, waitAt := none, capped := false,
                     first := [], parked := [], basins := y.basins } ∧
        dieCount y.dieset = min l.maxDies (mayHold s l).length ∧ (∀ e < 8, y.dieset.getLsbD e = true → Hears s t none (some e)) ∧
        (∀ e < 8, y.dieset.getLsbD e = true → e ∈ mayHold s l) ∧
        (∀ e ∈ mayHold s l, ∀ f ∈ mayHold s l, y.dieset.getLsbD e = true → y.dieset.getLsbD f = false → Preferred s e f) ∧
        ((mayHold s l) ≠ [] → ∀ q ∈ l.first ++ l.parked, ∃ e, y.dieset.getLsbD e = true ∧ q ∈ y.onDie e)) ∧
    (l.waits = true → l.waitAt = some t0 → (s.now < t0 + 2 ^ 24 → Happens s (.grantWaitCap acc) fun t => OneLaunch s t acc l) ∧
      (t0 + 2 ^ 24 ≤ s.now → Happens s (.grantWaitCap acc) fun t => OneLaunch s t acc { l with capped := true })) ∧
    (l.change = none → 0 < dieCount l.dieset → dieCount l.dieset < l.maxDies → Untraced s →
      s.restorable l = true ∨ (l.ended = false ∧ s.regs.govctl.getLsbD 0 = true ∧ slice s.regs.govctl 47 32 < l.queued ∧ NoneShort s) →
      d < 8 → eligibleFor s l d = true → (∀ e < 8, eligibleFor s l e = true → e ≠ d → Preferred s d e) →
      (members l ≠ [] → Happens s (.dieAddRequest acc) fun t => OneLaunch s t acc (pending l d true) ∧ t = { s with launches := t.launches }) ∧
      (members l = [] → Happens s (.dieAddRequest acc) fun t =>
        OneLaunch s t acc { l with dieset := putBit l.dieset d true, diegen := l.diegen + 1, change := none })) ∧
    (pastCap s w = true → s.launch? w.acc = some w →
      let gives (v : Launch) (e : Nat) : Prop := v ∈ s.launches ∧ e < 8 ∧ w.allow.getLsbD e = true ∧ (s.die e).admitted = true ∧ (s.die e).phase = 0 ∧
        8 ≤ (s.launches.filter (fun x => x.dieset.getLsbD e)).length ∧ v.dieset.getLsbD e = true ∧ v.change = none ∧ v.minDies < dieCount v.dieset ∧
        ∀ x ∈ s.launches, ∀ y, x.change = some y → y.add = true ∨ y.die ≠ e
      gives l d → (∀ v e, gives v e → v = l ∨ l.prio < v.prio ∨ (l.prio = v.prio ∧ v.acc < acc)) → members l ≠ [] →
      Happens s (.dieWithdrawRequest w.acc) fun t => t = { s with launches := t.launches } ∧
        ∃ e, gives l e ∧ OneLaunch s t acc (pending l e false))

/-- R91, R93 to R96, R98: a command processor's registers take their fields, its halt and resume are acknowledged, it examines the entry at
SQHEAD, and it posts the record of each completed command while the completion ring has room.
It rests on choices and readings of the model: log entries 49, 50, 77. -/
def Obligations.ProcessorsTakeEntriesAndPostRecords : Prop :=
  ∀ (s : State) (cp : BitVec 2) (x : W64) (acc : Nat) (rest : List Nat) (cmd : RingCmd),
    let c := s.cp cp.toNat
    let becomes (i : Instr) (c' : Cp) : Prop := Happens s i fun t => t.cp cp.toNat = c' ∧ (∀ k, k ≠ cp.toNat → t.cp k = s.cp k) ∧
      t = { s with regs := { s.regs with cps := t.regs.cps } }
    let sq := 2 ^ slice c.ring 55 52
    let cq := 2 ^ slice c.ring 59 56
    let head := c.sqHead.toNat % sq
    let tail := c.cqTail.toNat % cq
    let fits : Prop := 6 ≤ slice c.ring 55 52 ∧ slice c.ring 55 52 ≤ 14 ∧ 6 ≤ slice c.ring 59 56 ∧ slice c.ring 59 56 ≤ 14 ∧
      4096 * slice c.ring 9 0 + 64 * sq ≤ 2 ^ 22 ∧ 4096 * slice c.ring 41 32 + 32 * cq ≤ 2 ^ 22
    let e := toWords 8 (s.homeBytes (flagBase + (4096 * slice c.ring 9 0 + 64 * head) % 2 ^ 22) 64)
    let op := slice (wordAt e 1) 15 8
    let taken (bad : Bool) (t : State) : Prop := t.accepted = s.accepted + 1 ∧ (t.cp cp.toNat).subSeq = c.subSeq + 1 ∧
      (t.cp cp.toNat).sqHead.toNat = (head + 1) % sq % 2 ^ 14 ∧ t.mem = s.mem ∧ ∃ y ∈ t.ringCmds, y.acc = s.accepted ∧ y.ring = cp ∧
        y.seq = wordAt e 0 ∧ y.tag = wordAt e 6 ∧ y.op.toNat = op ∧ y.arg0 = wordAt e 3 ∧ y.arg1 = wordAt e 4 ∧ y.bad = bad ∧
        y.addr = BitVec.ofNat 72 (slice (wordAt e 1) 7 0 * 2 ^ 64 + (wordAt e 2).toNat)
    (c.halted = true → becomes (.cpringWrite cp x) { c with ring := x &&& 0x0FF003FF000003FF }) ∧
    (c.halted = false → Happens s (.cpringWrite cp x) fun t => t = s) ∧
    becomes (.sqtailWrite cp x) { c with sqTail := BitVec.ofNat 14 (slice x 29 16) } ∧
    becomes (.cqheadWrite cp x) { c with cqHead := BitVec.ofNat 14 (slice x 29 16) } ∧
    becomes (.haltRequest cp) { c with halt := true, halted := true } ∧
    (fits → becomes (.haltResume cp) { c with halt := false, halted := decide (s.regs.ident.fwStat ≠ 2) }) ∧
    (¬fits → becomes (.haltResume cp) { c with halt := false, halted := true, cfgErr := true }) ∧
    (c.halted = true ∨ head = c.sqTail.toNat % sq → Happens s (.submissionExamine cp) fun t => t = s) ∧
    (c.halted = false → head ≠ c.sqTail.toNat % sq →
      (wordAt e 0 ≠ c.subSeq → becomes (.submissionExamine cp) { c with seqErr := true, halt := true, halted := true }) ∧
      (wordAt e 0 = c.subSeq → (op = 1 → s.launches.length < 4096) → (∀ y ∈ s.ringCmds, y.acc < s.accepted) →
        (entryOk e = false → Happens s (.submissionExamine cp) fun t => taken true t ∧ t.launches = s.launches ∧
          (t.cp cp.toNat).done = c.done ++ [s.accepted] ∧ ∃ y ∈ t.ringCmds, y.acc = s.accepted ∧ y.status = some 2) ∧
        (entryOk e = true → Happens s (.submissionExamine cp) fun t => taken false t ∧ (t.cp cp.toNat).done = c.done ∧
          (op ≠ 1 → t.launches = s.launches) ∧
          (op = 1 → ∃ l, t.launches = s.launches ++ [l] ∧ l.acc = s.accepted ∧ l.ring = cp ∧ l.seq = wordAt e 0 ∧ l.admitted = false ∧
            l.ended = false ∧ l.dieset = 0 ∧ l.basins = [] ∧ l.expected = 0)))) ∧
    (c.done = acc :: rest → s.ringCmds.find? (fun y => y.acc = acc) = some cmd → Unwatched s →
      ((tail + 1) % cq = c.cqHead.toNat % cq → Happens s (.completionRecordPost cp) fun t => t = s) ∧
      (let pa := flagBase + (4096 * slice c.ring 41 32 + 32 * tail) % 2 ^ 22
       (tail + 1) % cq ≠ c.cqHead.toNat % cq → Roomy s pa → Happens s (.completionRecordPost cp) fun t =>
        t.cp cp.toNat = { c with cmpSeq := c.cmpSeq + 1, cqTail := BitVec.ofNat 14 ((tail + 1) % cq), done := rest } ∧
        t.ringCmds = s.ringCmds.filter (fun y => y.acc ≠ acc) ∧
        (∀ i < 4, t.homeRead (pa + 8 * i) 8 = [(c.cmpSeq + 1).toNat, cmd.seq.toNat, cmd.tag.toNat,
          cmd.errs.toNat * 2 ^ 32 + (cmd.status.getD 0).toNat].getD i 0) ∧
        (∀ a, a < pa ∨ pa + 32 ≤ a → t.homeRead a 1 = s.homeRead a 1) ∧
        ∀ h y, tget t.handles h = some y → acc ∉ y.readers))

/-- R92, R97, R99, R102, R107: FLUSH writes every dirty copy of its range to memory, those of the bays' line caches among them, and INVAL
drops every copy, page by page; BIND and UNBIND set a handle once
no earlier command uses it, MARK completes at once, and ABORT removes what its launch has queued or ends a launch not yet admitted.
It rests on choices and readings of the model: log entries 50, 51. -/
def Obligations.RingCommandsTakeEffect : Prop :=
  ∀ (s : State) (c : RingCmd) (p : Place) (l : Launch) (y : RingCmd),
    let acc := c.acc
    let len := c.arg0.toNat
    let handle := slice c.arg1 15 0
    let earlier : Prop := ∃ d ∈ s.ringCmds, d.ring = c.ring ∧ d.acc < acc ∧ d.status = none
    let held : Prop := ∃ d ∈ s.ringCmds, d.ring = c.ring ∧ d.acc < acc ∧ d.status = none ∧ (d.op = 2 ∨ d.op = 3)
    let oneLaunch : Prop := s.launches.find? (fun z => z.ring = c.ring && z.seq = c.arg0 && !z.ended) = some l ∧ s.launch? l.acc = some l
    InHand s acc c →
    (c.op = 7 → Happens s (.mark acc) fun t => Completed s t c.ring acc 0 0 ∧ t.mem = s.mem ∧ t.launches = s.launches) ∧
    (c.op = 2 ∨ c.op = 3 → ¬earlier → 0 < len → s.xlateFront c.ring c.addr false = .ok p → c.addr.toNat % 4096 + len ≤ 4096 →
      p.pa % 4096 = c.addr.toNat % 4096 → CachesSound s → s.badGranules = [] → s.linkOpen p.pa = true → Unwatched s →
      (c.op = 2 → Happens s (.flush acc) fun t => Completed s t c.ring acc 0 0 ∧ ∀ a, p.pa ≤ a → a < p.pa + len →
        CleanAbove t (lineOf a) ∧ (∀ z, t.l2Line (lineOf a) = some z → z.dirty = 0) ∧
        ∀ v, (∀ x, DirtyAbove s a x → x = v) → ((∀ x, ¬DirtyAbove s a x) → s.homeRead a 1 = v) → t.homeRead a 1 = v ∧
          ((∃ x, DirtyAbove s a x) ∨ (∃ z, s.l2Line (lineOf a) = some z ∧ z.dirty.getLsbD (a % 128) = true) →
            readByte t.mem a = BitVec.ofNat 8 v)) ∧
      (c.op = 3 → (c.addr.toNat % 128 = 0 ∧ len % 128 = 0) ∨ (∀ a, p.pa ≤ a → a < p.pa + len → CleanAbove s (lineOf a)) →
        Happens s (.inval acc) fun t => Completed s t c.ring acc 0 0 ∧ ∀ a, p.pa ≤ a → a < p.pa + len →
        t.l2Line (lineOf a) = none ∧ (∀ q ∈ t.bayLines ++ t.uniLines, ∀ u ∈ q.2, u.line ≠ lineOf a) ∧ readByte t.mem a = readByte s.mem a)) ∧
    -- a range of several pages: its first page's part, and then the rest
    (∀ i, (c.op = 2 ∧ i = .flush acc) ∨ (c.op = 3 ∧ i = .inval acc) → ¬earlier → let n := 4096 - c.addr.toNat % 4096
      n < len → ∀ t, exec i (partOf s s acc c.addr n) = .next t →
        ((∃ d ∈ t.ringCmds, d.acc = acc ∧ d.status = some 8) → exec i s = .next (wholeOf c t)) ∧
        ((∃ d ∈ t.ringCmds, d.acc = acc ∧ d.status = some 0) → ∀ u, exec i (partOf s t acc (c.addr + BitVec.ofNat 72 n) (len - n)) = .next u →
          exec i s = .next (wholeOf c u))) ∧
    (c.op = 2 ∨ c.op = 3 → ¬earlier → 0 < len → ∀ k, s.xlateFront c.ring c.addr false = .error k →
      (c.op = 2 → Happens s (.flush acc) fun t => Completed s t c.ring acc 8 0) ∧ (c.op = 3 → Happens s (.inval acc) fun t => Completed s t c.ring acc 8 0)) ∧
    (c.op = 4 → ¬held → s.handleFree acc handle true = true → Happens s (.bind acc) fun t => Completed s t c.ring acc 0 0 ∧ t.mem = s.mem ∧
      tget t.handles handle = some { space := c.ring, addr := c.addr, len := len, hostvis := c.arg1.getLsbD 16, writer := none, readers := [] } ∧
      ∀ h, h ≠ handle → tget t.handles h = tget s.handles h) ∧
    (c.op = 5 → ¬held → s.handleFree acc handle true = true → Happens s (.unbind acc) fun t => Completed s t c.ring acc 0 0 ∧ t.mem = s.mem ∧
      tget t.handles handle = none ∧ ∀ h, h ≠ handle → tget t.handles h = tget s.handles h) ∧
    (c.op = 6 → c.target = none →
      (s.launches.find? (fun z => z.ring = c.ring && z.seq = c.arg0 && !z.ended) = none → Happens s (.abort acc) fun t => Completed s t c.ring acc 7 0) ∧
      (oneLaunch → l.admitted = true → Happens s (.abort acc) fun t => t.mem = s.mem ∧ t.ctxs = s.ctxs ∧ (∃ d ∈ t.ringCmds, d.acc = acc ∧
          d.status = none ∧ d.target = some l.acc) ∧
        (∃ u, OneLaunch s t l.acc u ∧ u = { l with aborted := true, basins := u.basins, parked := u.parked, first := u.first } ∧ u.allQueued = [] ∧
          ∀ e q, q.frame ≠ none → q ∈ l.onDie e → q ∈ u.onDie e) ∧
        t.posts.length = s.posts.length + l.allQueued.length ∧ ∀ q ∈ l.allQueued, ∃ z ∈ t.posts, z.launch = l.acc ∧ z.flagged = true ∧ z.credit = 0 ∧
          z.mode = bargeMode q.2.barge ∧ z.succ = bargeSucc q.2.barge ∧ z.weight = bargeWeight q.2.barge) ∧
      (oneLaunch → l.admitted = false → InHand s l.acc y → y.acc ≠ acc → Happens s (.abort acc) fun t =>
        (∀ u, t.launch? l.acc = some u → u.ended = true) ∧ (∃ d ∈ t.ringCmds, d.acc = l.acc ∧ d.status = some 5) ∧
        ∃ d ∈ t.ringCmds, d.acc = acc ∧ d.target = some l.acc)) ∧
    (c.op = 6 → ∀ m, c.target = some m → ((∃ d ∈ s.ringCmds, d.acc = m) → Happens s (.abort acc) fun t => t = s) ∧
      ((∀ d ∈ s.ringCmds, d.acc ≠ m) → Happens s (.abort acc) fun t => Completed s t c.ring acc 0 0))

/-- R48, R100, R103, R104, R106: a LAUNCH that starts checks its handle list, its record and its barges; one that passes is admitted with its job
control block written and its barges waiting for the grant, another completes with its status: REFUSED, or XLATE for what cannot be read
or written. When DONE reaches EXPECTED the job ends.
It rests on choices and readings of the model: log entries 28, 50, 51, 52, 61. -/
def Obligations.LaunchesAreAdmittedAndEnd : Prop :=
  ∀ (s : State) (c : RingCmd) (l : Launch) (items : List W32) (bytes : List Byte) (barges : List (List W64)) (p q : Place),
    let acc := c.acc
    let r := toWords 8 bytes
    let held : Prop := ∃ d ∈ s.ringCmds, d.ring = c.ring ∧ d.acc < acc ∧ d.status = none ∧ (d.op = 2 ∨ d.op = 3)
    let begins : Prop := InHand s acc c ∧ c.op = 1 ∧ s.launch? acc = some l ∧ l.admitted = false ∧ l.ended = false ∧ ¬held
    let starts : Prop := begins ∧ s.handleList c = some items
    let jcb (w : Place) (words : List Nat) (t : State) : Prop := ∀ (i : Nat) v, words[i]? = some v → t.homeRead (w.pa + 8 * i) 8 = v
    let refused (status : Nat) : Prop := Happens s (.launch acc .ok) fun t => Completed s t c.ring acc status 0 ∧ t.mem = s.mem ∧
      ∀ u, t.launch? acc = some u → u.ended = true
    let listed : Prop := (items = [] ∨ c.arg0.toNat % 4 = 0) ∧ (items.map (fun x => slice x 15 0)).Nodup ∧
      ∀ x ∈ items, slice x 31 18 = 0 ∧ (x.getLsbD 16 = true ∨ x.getLsbD 17 = true)
    -- a list, a record, a barge or a block that cannot be read or written: XLATE
    (begins → s.handleList c = none → refused 8) ∧
    (starts → listed → (∀ x ∈ items, s.handleFree acc (slice x 15 0) (x.getLsbD 17) = true ∧ tget s.handles (slice x 15 0) ≠ none) →
      (s.virtRead c.ring c.addr 64 = none → refused 8) ∧
      (s.virtRead c.ring c.addr 64 = some bytes → s.xlateFront c.ring c.addr false = .ok p → Sound s p.pa 64 →
        (Happens s (.launch acc .lasting) fun t => Completed s t c.ring acc 8 0 ∧ ∀ u, t.launch? acc = some u → u.ended = true) ∧
        (recordOk c r = true → (s.readBarges c.ring (recBarges r) (recCount r) = none → refused 8) ∧
          (s.readBarges c.ring (recBarges r) (recCount r) = some barges → s.bargesOk r barges = true →
            (∀ k, s.xlateFront c.ring (recJcb r) true = .error k → refused 8) ∧
            (s.xlateFront c.ring (recJcb r) true = .ok q → ¬Sound s q.pa 64 → refused 8))))) ∧
    (starts →
      (¬listed → refused 3) ∧
      (listed → (∃ x ∈ items, s.handleFree acc (slice x 15 0) (x.getLsbD 17) = false) → Happens s (.launch acc .ok) fun t => t = s) ∧
      (listed → (∀ x ∈ items, s.handleFree acc (slice x 15 0) (x.getLsbD 17) = true) →
        ((∃ x ∈ items, tget s.handles (slice x 15 0) = none) → refused 3) ∧
        ((∀ x ∈ items, tget s.handles (slice x 15 0) ≠ none) → s.virtRead c.ring c.addr 64 = some bytes → s.xlateFront c.ring c.addr false = .ok p →
          Sound s p.pa 64 →
          (recordOk c r = false → refused 1) ∧
          (recordOk c r = true → s.readBarges c.ring (recBarges r) (recCount r) = some barges →
            (s.bargesOk r barges = false → refused 1) ∧
            (s.bargesOk r barges = true → s.xlateFront c.ring (recJcb r) true = .ok q → Sound s q.pa 64 → InLine q.pa 64 → Roomy s q.pa → Unwatched s →
              l.basins = [] → l.parked = [] → Happens s (.launch acc .ok) fun t =>
              (items = [] → jcb q [barges.length % 2 ^ 64, 0, 1, c.seq.toNat, 0, 0, 0, 0] t) ∧ t.ringCmds = s.ringCmds ∧
              ∃ u, OneLaunch s t acc u ∧ u.part = BitVec.ofNat 32 (slice (wordAt r 0) 63 32) ∧ u.prio = slice (wordAt r 0) 18 16 ∧
                u.allow.toNat = slice (wordAt r 0) 15 8 ∧ u.minDies = slice (wordAt r 0) 3 0 ∧ u.maxDies = slice (wordAt r 0) 7 4 ∧
                u.jcb = recJcb r ∧ u.admitted = true ∧ u.waitAt = some s.now ∧ u.expected = barges.length ∧ u.dieset = l.dieset ∧
                u.parked.map (fun z => z.barge) = barges ∧
                (∀ z ∈ u.parked, z.level = min (slice (wordAt z.barge 5) 2 0) u.prio ∧ z.since = s.now ∧ z.frame = none) ∧
                (∀ b ∈ barges, ∃ z, u.basin? (bargeEntry b) = some z) ∧
                u.reads = (items.filter (fun x => x.getLsbD 16)).map (fun x => slice x 15 0) ∧
                u.writes = (items.filter (fun x => x.getLsbD 17)).map (fun x => slice x 15 0)))))) ∧
    (s.launch? acc = some l → l.admitted = true → l.ended = false → l.doneN = l.expected → l.writes = [] → l.acc = acc →
      s.xlateFront l.ring l.jcb true = .ok q → Sound s q.pa 64 → InLine q.pa 32 → Roomy s q.pa → (s.ret l.ring.toNat).ctrDump.getLsbD 0 = false → Untraced s →
      Unwatched s → c ∈ s.ringCmds → (∀ d ∈ s.ringCmds, d.acc = acc → d = c) →
      let out : Nat × Nat := if l.faulted then (4, 6) else if l.aborted then (3, 5) else if l.errs = 0 then (2, 0) else (2, 4)
      Happens s (.jobEnd acc) fun t => Completed s t c.ring acc out.2 l.errs ∧
        jcb q [l.expected % 2 ^ 64, l.doneN % 2 ^ 64, l.errs % 2 ^ 32 * 2 ^ 32 + out.1, l.seq.toNat] t ∧
        (∀ u, t.launch? acc = some u → u.ended = true ∧ ∀ z ∈ u.allQueued, bargeMode z.2.barge = 2) ∧
        (s.ctxs = [] → s.frames = [] → ∀ u ∈ t.launches, u.acc ≠ acc))

/-- R5, R37 to R39, R129, R137 to R139, R385, R395, R413 to R416, R427: each management register takes the fields that a write may set and
refuses what its rule refuses; an image is loaded; a module number becomes LIVE, drains, is purged and is FREE again; the firmware is checked and measured; and
a report is built.
It rests on choices and readings of the model: log entries 9, 12, 13, 55, 56, 60, 62, 64, 68, 76. -/
def Obligations.RegistersModulesAndIdentity : Prop :=
  ∀ (s : State) (x : W64) (space : BitVec 2) (off : BitVec 16) (m : BitVec 12) (y : Module) (l : Launch) (c : Ctx) (cl : BitVec 5) (sl : BitVec 3),
    let r := s.regs
    let i := r.ident
    let only (t : State) : Prop := t = { s with regs := t.regs }
    let keeps (e : Instr) : Prop := Happens s e fun t => t = s
    let expert := r.powerctl.getLsbD 63
    -- registers with no behaviour of their own
    let takes (v : W64) : Prop := Happens s (.registerWrite off x) fun t => only t ∧ t.readReg off.toNat = v ∧
      ∀ o, o ≠ off.toNat → o ≠ 0x3028 → t.readReg o = s.readReg o
    let plain : List (Nat × W64) := [(0x808, 0xFFFF), (0x810, 0x000003FFF0000000), (0x2010, 3), (0x3008, 0x003FFFFFFFFFFF00), (0x3010, 0xFFFFFFFF),
      (0x3020, 0xFFF), (0x4020, 0x0FFFFFFFFFFFFFFF), (0x4028, 0x000000FFFFFFFFFF), (0x7A10, BitVec.allOnes 64), (0x7A18, BitVec.allOnes 64),
      (0x7A20, BitVec.allOnes 64), (0x7A28, BitVec.allOnes 64), (0x5000 + 0x40 * space.toNat, BitVec.allOnes 64),
      (0x5008 + 0x40 * space.toNat, 0x03FF0000000000FF), (0x5020 + 0x40 * space.toNat, 0x000003FFF0000000),
      (0x7028 + 0x40 * space.toNat, BitVec.allOnes 64), (0x8000 + 8 * m.toNat, 0xC000FFFFFFFFFFFF)]
    (∀ e ∈ plain, off.toNat = e.1 → takes (x &&& e.2)) ∧
    (off.toNat = 0x3018 → takes (s.readReg 0x3018 &&& ~~~(x &&& 4))) ∧
    (let q := s.cp space.toNat
     let w : Cp := { q with seqErr := q.seqErr && !x.getLsbD 2, cfgErr := q.cfgErr && !x.getLsbD 3 }
     let fits : Prop := 6 ≤ slice q.ring 55 52 ∧ slice q.ring 55 52 ≤ 14 ∧ 6 ≤ slice q.ring 59 56 ∧ slice q.ring 59 56 ≤ 14 ∧
       4096 * slice q.ring 9 0 + 64 * 2 ^ slice q.ring 55 52 ≤ 2 ^ 22 ∧ 4096 * slice q.ring 41 32 + 32 * 2 ^ slice q.ring 59 56 ≤ 2 ^ 22
     let becomes (v : Cp) : Prop := Happens s (.registerWrite off x) fun t => only t ∧ t.cp space.toNat = v ∧ ∀ k, k ≠ space.toNat → t.cp k = s.cp k
     off.toNat = 0x1028 + 0x100 * space.toNat →
      (x.getLsbD 0 = true → becomes { w with halt := true, halted := true }) ∧
      (x.getLsbD 0 = false → fits → becomes { w with halt := false, halted := decide (i.fwStat ≠ 2) }) ∧
      (x.getLsbD 0 = false → ¬fits → becomes { w with halt := false, halted := true, cfgErr := true })) ∧
    (off.toNat = 0x3000 → let command : Prop := slice x 1 0 = 1 ∨ slice x 1 0 = 2
      (r.modBusy = none → command → Happens s (.registerWrite off x) fun t => t = { s with regs := { r with modBusy := some x } } ∧
        (t.readReg 0x3018).getLsbD 1 = true) ∧
      (r.modBusy ≠ none ∨ ¬command → keeps (.registerWrite off x))) ∧
    (off.toNat = 0x2100 + 8 * cl.toNat → (expert = true → takes (x &&& 0x1F)) ∧ (expert = false → keeps (.registerWrite off x))) ∧
    ((off.toNat = 0 ∨ off.toNat = 0x818 ∨ off.toNat = 0x820 ∨ off.toNat = 0x2018 ∨ off.toNat = 0x3028 ∨ off.toNat = 0x7100 ∨ off.toNat = 0x7108 ∨
      off.toNat = 0x7A38) → keeps (.registerWrite off x)) ∧
    -- placement, frames and counters
    (slice x 47 32 ≤ slice x 31 16 → keeps (.govctlWrite x)) ∧
    (slice x 31 16 < slice x 47 32 → Happens s (.govctlWrite x) fun t => only t ∧ let w := t.regs.govctl
      slice w 63 48 = 0 ∧ slice w 47 16 = slice x 47 16 ∧ slice w 15 11 = (if expert then slice x 15 11 else slice r.govctl 15 11) ∧
      slice w 10 3 = slice x 10 3 ∧ slice w 2 1 = 0 ∧ w.getLsbD 0 = x.getLsbD 0) ∧
    (Happens s (.launchQuery x) fun t => only t ∧ t.regs.lqSeq = x ∧
      (s.launches.find? (fun v => v.ring = r.lqCp && v.seq = x) = none → t.regs.lqRes = 0) ∧
      (s.launches.find? (fun v => v.ring = r.lqCp && v.seq = x) = some l → let w := t.regs.lqRes
        w.getLsbD 63 = true ∧ w.getLsbD 62 = l.change.isSome ∧ slice w 55 48 = l.dieset.toNat ∧ slice w 47 16 = l.diegen.toNat ∧
        slice w 8 0 = (s.launchCtxs l.acc).length % 2 ^ 9)) ∧
    (let used : Prop := (∃ p ∈ s.frames, p.1 / 4096 = space.toNat) ∨ s.framesTaken space ≠ []
     let sets (e : Instr) (v : TrapRegs) : Prop := Happens s e fun t => only t ∧ t.trap space.toNat = v ∧ ∀ n, n ≠ space.toNat → t.trap n = s.trap n
     (used → keeps (.frameloWrite space x) ∧ keeps (.framehiWrite space x)) ∧
     (¬used → sets (.frameloWrite space x) { s.trap space.toNat with framelo := x &&& 0xFFFFFFFFFE000000 } ∧
       (4096 < slice x 44 32 → keeps (.framehiWrite space x)) ∧
       (slice x 44 32 ≤ 4096 → sets (.framehiWrite space x) { s.trap space.toNat with framehi := x &&& 0x00001FFF000000FF }))) ∧
    (let q := s.ret space.toNat
     let sets (e : Instr) (v : RetRegs) : Prop := Happens s e fun t => only t ∧ t.ret space.toNat = v ∧ ∀ n, n ≠ space.toNat → t.ret n = s.ret n
     (s.launches.find? (fun v => v.ring = space && v.seq = q.ctrqSeq) = none →
       sets (.counterQuery space x) { q with ctrqIx := BitVec.ofNat 6 (slice x 5 0), ctrqRes := BitVec.allOnes 64 }) ∧
     (s.launches.find? (fun v => v.ring = space && v.seq = q.ctrqSeq) = some l →
       sets (.counterQuery space x) { q with ctrqIx := BitVec.ofNat 6 (slice x 5 0), ctrqRes := l.counterWord 0 (slice x 5 0) }) ∧
     (slice x 31 28 < 2 ∨ 8 < slice x 31 28 → keeps (.ctrdumpWrite space x)) ∧
     (2 ≤ slice x 31 28 → slice x 31 28 ≤ 8 → sets (.ctrdumpWrite space x) { q with ctrDump := x &&& 0x000003FFF0000001 }) ∧
     (slice q.trhi 63 48 ≠ 0 → keeps (.trloWrite space x) ∧
       ∃ v, sets (.trhiWrite space x) { q with trhi := v } ∧ slice v 63 48 = slice x 63 48 ∧ slice v 47 0 = slice q.trhi 47 0) ∧
     (slice q.trhi 63 48 = 0 → sets (.trloWrite space x) { q with trlo := x &&& 0xFFFFFFFFFFFFF000 } ∧
       sets (.trhiWrite space x) { q with trhi := x &&& 0xFFFF01F0000000FF })) ∧
    (s.ctx? cl.toNat sl.toNat = some c → s.launch? c.launch = some l → l.acc = c.launch → (c.counts.map Prod.fst).Nodup →
      (∀ w, tgetD l.counts w 0 < 2 ^ 64) → Happens s (.counterSend cl sl) fun t => OneCtx s t cl.toNat sl.toNat { c with counts := [] } ∧
        ∃ u, OneLaunch s t c.launch u ∧ u = { l with counts := u.counts } ∧
          ∀ w, tgetD u.counts w 0 = min (tgetD l.counts w 0 + tgetD c.counts w 0) (2 ^ 64 - 1)) ∧
    -- power control and prefetch depth
    (slice x 15 0 < 300 ∨ 2400 < slice x 15 0 → keeps (.powerctlWrite x)) ∧
    (300 ≤ slice x 15 0 → slice x 15 0 ≤ 2400 → Happens s (.powerctlWrite x) fun t => let w := t.regs.powerctl
      w.getLsbD 63 = x.getLsbD 63 ∧ slice w 15 0 = slice x 15 0 ∧ w.getLsbD 32 = x.getLsbD 32 ∧ t.mem = s.mem ∧ t.ctxs = s.ctxs ∧
      (x.getLsbD 63 = true → only t ∧ slice w 47 40 = if expert then slice x 47 40 else slice r.powerctl 47 40)) ∧
    (4 < slice x 2 0 → keeps (.fetchctlWrite x)) ∧
    (slice x 2 0 ≤ 4 → Happens s (.fetchctlWrite x) fun t => t = { s with regs := { r with seqDepth := BitVec.ofNat 3 (slice x 2 0) } }) ∧
    -- modules
    (let n := slice x 27 16
     let pa := slice r.modPa 53 8 * 256
     let size := r.modSize.toNat
     let good : Prop := n ≠ 0 ∧ s.modState n = .free ∧ size ≠ 0 ∧ size % 4 = 0 ∧ homeOf pa = .dram ∧ homeOf (pa + size - 1) = .dram
     let taken : Prop := r.modBusy = none ∨ r.modBusy = some x
     let fails (e : Instr) : Prop := Happens s e fun t => t = { s with regs := { r with modErr := true, modBusy := none } }
     (¬taken → keeps (.makelive x) ∧ keeps (.unload x)) ∧
     (slice x 1 0 ≠ 1 → keeps (.makelive x)) ∧ (slice x 1 0 ≠ 2 → keeps (.unload x)) ∧
     (slice x 1 0 = 1 → taken → ¬good → fails (.makelive x)) ∧
     (slice x 1 0 = 1 → taken → good → Untraced s → Happens s (.makelive x) fun t => only t ∧ t.regs.modBusy = none ∧
       t.module? n = some { st := .live, pa := pa, size := size, entries := tgetD r.staged n [] } ∧ (∀ v, v ≠ n → t.module? v = s.module? v) ∧
       (tgetD t.regs.ident.meas 2 0).toNat =
         ofBytes (sha256 (toBytes 32 (tgetD i.meas 2 0).toNat ++ toBytes 2 n ++ sha256 (s.homeBytes pa size))) % 2 ^ 256) ∧
     (slice x 1 0 = 2 → taken → s.modState n ≠ .live → fails (.unload x)) ∧
     (slice x 1 0 = 2 → taken → s.module? n = some y → y.st = .live → Untraced s → Happens s (.unload x) fun t => only t ∧ t.regs.modBusy = none ∧
       t.module? n = some { y with st := .draining } ∧ ∀ v, v ≠ n → t.module? v = s.module? v)) ∧
    (s.module? m.toNat = some y →
      (y.st = .draining → s.queuedNaming m.toNat = 0 → (∀ p ∈ s.ctxs, slice p.2.pc 63 32 ≠ m.toNat) → (∀ p ∈ s.frames, slice p.2.ctx.pc 63 32 ≠ m.toNat) →
        Untraced s → Happens s (.modulePurge m) fun t => only t ∧ t.module? m.toNat = some { y with st := .purging }) ∧
      (y.st ≠ .draining → keeps (.modulePurge m)) ∧ (y.st ≠ .purging → keeps (.moduleFree m)) ∧
      (y.st = .purging → Untraced s → Happens s (.moduleFree m) fun t => t.module? m.toNat = none ∧ t.mem = s.mem ∧
        (∀ f ∈ t.code.fills, lineModule f.line ≠ m.toNat) ∧ (∀ f ∈ s.code.fills, lineModule f.line ≠ m.toNat → f ∈ t.code.fills) ∧
        ∀ p ∈ t.code.i0 ++ t.code.i1 ++ t.code.i2, ∀ z ∈ p.2, lineModule z.line ≠ m.toNat)) ∧
    -- an image of one entry and one word of code
    (∀ (word : W32) (version name h : W64) (pa : BitVec 54) (va : W72) (e : Entry), e.minBays < 256 → e.maxBays < 256 → e.budget < 2 ^ 32 →
      let image := toBytes 4 0x444F4D5A ++ toBytes 2 1 ++ toBytes 2 1 ++ toBytes 8 0 ++ toBytes 8 4 ++ toBytes 8 0 ++ toBytes 8 version.toNat ++
        toBytes 8 name.toNat ++ toBytes 16 0 ++ (toBytes 4 e.offset.toNat ++ toBytes 1 e.minBays ++ toBytes 1 e.maxBays ++ toBytes 2 0 ++
        toBytes 4 e.partMin.toNat ++ toBytes 4 e.budget ++ toBytes 8 h.toNat ++ toBytes 8 0) ++ toBytes 32 0 ++ toBytes 4 word.toNat ++ toBytes 60 0
      let t := s.loadImage m.toNat pa.toNat 0 va image
      let good : Prop := slice e.offset 1 0 = 0 ∧ e.offset.toNat < 4 ∧ 1 ≤ e.minBays ∧ e.minBays ≤ e.maxBays ∧ e.maxBays ≤ 16 ∧ 1 ≤ e.budget ∧ e.budget ≤ 65536 ∧
        partOk e.partMin = true ∧ m ≠ 0 ∧ s.modState m.toNat = .free ∧ homeOf pa.toNat = .dram ∧ pa.toNat % 256 = 0
      (¬good → t = s) ∧
      (good → Roomy s pa.toNat → tget t.regs.staged m.toNat = some [e] ∧ t.module? m.toNat = none ∧ Holds s t pa.toNat 4 word.toNat)) ∧
    -- identity
    (let becomes (e : Instr) (v : Ident) : Prop := Happens s e fun t => t = { s with regs := { r with ident := v } }
     (i.idSet = true → keeps (.idbootWrite x)) ∧
     (i.idSet = false → becomes (.idbootWrite x) { i with idSet := true, bootIdx := BitVec.ofNat 15 (slice x 14 0) }) ∧
     becomes (.attestationRequest x) { i with attPage := BitVec.ofNat 10 (slice x 41 32), busy := i.busy || x.getLsbD 0 } ∧
     (i.busy = true → (i.idSet = false → becomes .attestationReportDone { i with busy := false, result := 1 }) ∧
       (i.idSet = true → 1024 ≤ i.count.toNat → becomes .attestationReportDone { i with busy := false, result := 2 }) ∧
       (i.idSet = true → i.count.toNat < 1024 → 1022 < i.attPage.toNat → becomes .attestationReportDone { i with busy := false, result := 3 }) ∧
       (let pa := flagBase + 4096 * i.attPage.toNat
        i.idSet = true → i.count.toNat < 1024 → i.attPage.toNat ≤ 1022 → (∀ v, homeOf v = .flag → Roomy s v) → Unwatched s →
        Happens s .attestationReportDone fun t => t.regs.ident = { i with busy := false, result := 0, count := i.count + 1 } ∧
          t.homeRead pa 8 = 0x5454415A ∧ t.homeRead (pa + 8) 4 = i.bootIdx.toNat ∧ t.homeRead (pa + 0xC) 4 = i.count.toNat ∧
          t.homeRead (pa + 0x140) 56 = Config.topKey.toNat ∧ t.homeRead (pa + 0x178) 8 = 0 ∧
          (∀ n < 4, t.homeRead (pa + 0x10 + 8 * n) 8 = (tgetD i.nonce n 0).toNat) ∧ t.homeRead (pa + 0x30) 8 = s.devshape.toNat ∧
          t.homeRead (pa + 0x38) 8 = i.fwVer.toNat ∧ (∀ n < 8, t.homeRead (pa + 0x40 + 32 * n) 32 = (tgetD i.meas n 0).toNat) ∧
          t.homeRead (pa + 0x180) 4 = 5236 ∧ ∀ v, v < pa ∨ pa + 5624 ≤ v → t.homeRead v 1 = s.homeRead v 1)) ∧
     becomes (.firmwareCheck x) { i with fwPa := BitVec.ofNat 42 (slice x 53 12), fwStat := 1 } ∧
     (let pa := i.fwPa.toNat * 4096
      let h : BitVec 256 := BitVec.ofNat 256 (ofBytes (sha256 (s.homeBytes pa 4096)))
      let extended (old data : BitVec 256) : BitVec 256 := BitVec.ofNat 256 (ofBytes (sha256 (toBytes 32 old.toNat ++ toBytes 32 data.toNat)))
      i.fwStat = 1 → (Config.imageSigned pa h = false → Happens s .firmwareCheckDone fun t =>
          t = { s with regs := { r with ident := { i with fwStat := 3 }, cps := t.regs.cps } } ∧ ∀ p < 4, t.cp p = { s.cp p with halted := true }) ∧
        (Config.imageSigned pa h = true → Happens s .firmwareCheckDone fun t => let j := t.regs.ident
          j.fwStat = 2 ∧ j.fwVer = Config.imageVersion pa h ∧ t.mem = s.mem ∧ (expert = true → only t) ∧
          (∀ p < 4, (s.cp p).halt = false → (s.cp p).ringOk = true → t.cp p = { s.cp p with halted := false }) ∧
          (∀ p < 4, (s.cp p).halt = true ∨ (s.cp p).ringOk = false → t.cp p = s.cp p) ∧
          (tget i.meas 0 ≠ none → j.meas = i.meas) ∧
          (tget i.meas 0 = none → tgetD j.meas 0 0 = extended 0 (Config.imageHash pa h) ∧
            tgetD j.meas 1 0 = extended (tgetD i.meas 1 0) Config.usbouloConfig))))

/-- R27, R119, R168, R204, R384, R385, R424: a warm reset of a compute die passes through its phases in order. GO takes the die from every launch
and has its contexts saved or ended; what has not been saved in 2^20 cycles ends; the bays write back and drop their lines; a failed retrain
or test stops the reset; and READMIT admits the die again.
It rests on choices and readings of the model: log entries 28, 48, 53. -/
def Obligations.WarmResetPassesThroughItsPhases : Prop :=
  ∀ (s : State) (die : BitVec 3) (x : W64) (ok : Bool) (failed : BitVec 4) (l : Launch) (y : Line) (n b : Nat),
    let d := die.toNat
    let e := s.die d
    let keeps (i : Instr) : Prop := Happens s i fun t => t = s
    let enters (i : Instr) (v : Die) : Prop := Happens s i fun t =>
      t.die d = { v with lclock := (t.die d).lclock } ∧ (∀ k, k ≠ d → t.die k = s.die k) ∧ t = { s with dies := t.dies, lclockF := t.lclockF }
    let entered (k : BitVec 4) : Die := { e with phase := k, since := s.now }
    Untraced s →
    (x.getLsbD 0 = true → e.phase ≠ 0 → keeps (.warmReset die x)) ∧
    (x.getLsbD 0 = false → enters (.warmReset die x) { e with auto := x.getLsbD 3, mode := x.getLsbD 2 }) ∧
    (x.getLsbD 0 = true → e.phase = 0 → Happens s (.warmReset die x) fun t =>
      t.die d = { e with auto := x.getLsbD 3, mode := x.getLsbD 2, admitted := false, count := e.count + 1, cause := 1, result := 0, phase := 1,
                         since := s.now, lclock := (t.die d).lclock } ∧ (∀ k, k ≠ d → t.die k = { s.die k with lclock := (t.die k).lclock }) ∧ t.mem = s.mem ∧
      (∀ m v, t.launch? m = some v → v.dieset.getLsbD d = false) ∧
      (s.launch? l.acc = some l → l.dieset.getLsbD d = true → ∃ u, t.launch? l.acc = some u ∧ u.dieset = putBit l.dieset d false ∧
        u.diegen = l.diegen + 1 ∧ u.onDie d = []) ∧
      (x.getLsbD 2 = true → ∀ m c, tget t.ctxs m = some c → m / 32 = d → c.stop ≠ none) ∧
      (x.getLsbD 2 = false → ∀ m c, tget s.ctxs m = some c → m / 32 = d → Running c → (∀ w u, c.save ≠ some ⟨w, some u⟩) →
        ∃ c', tget t.ctxs m = some c' ∧ c'.save = some ⟨.reset, none⟩ ∧ c'.pc = c.pc ∧ c'.g = c.g)) ∧
    (e.phase ≠ 1 ∨ s.now < e.since + 2 ^ 20 → keeps (.resetStopLimit die)) ∧
    (e.phase = 1 → e.since + 2 ^ 20 ≤ s.now → Happens s (.resetStopLimit die) fun t =>
      (∀ m c, tget t.ctxs m = some c → m / 32 = d → c.stop ≠ none) ∧ t = { s with ctxs := t.ctxs, cmds := t.cmds }) ∧
    (e.phase ≠ 1 ∨ (∃ p ∈ s.ctxs, p.1 / 32 = d) → keeps (.quiesce die)) ∧
    (e.phase = 1 → (∀ p ∈ s.ctxs, p.1 / 32 ≠ d) → enters (.quiesce die) (entered 2)) ∧
    (e.phase ≠ 2 → keeps (.writeback die)) ∧
    (e.phase = 2 → (Happens s (.writeback die) fun t => t.die d = { entered 3 with lclock := (t.die d).lclock } ∧ ∀ p ∈ t.bayLines, p.1 / 8192 ≠ d) ∧
      (n / 4 = d → b < 16 → s.bayLines = [(bayKey n b y.line, [y])] → (homeOf (128 * y.line)).cached = true → Roomy s (128 * y.line) →
        s.linkOpen (128 * y.line) = true → (∀ v ∈ s.downLinks, s.crosses v d (128 * y.line) false = false) → Unwatched s →
        Happens s (.writeback die) fun t => ∀ j < 128, y.dirty.getLsbD j = true → t.homeRead (128 * y.line + j) 1 = y.get j 1) ∧
      (n / 4 = d → b < 16 → s.bayLines = [(bayKey n b y.line, [y])] → y.dirty ≠ 0 → 128 * y.line < 2 ^ 64 → Roomy s (errorSlot s) →
        s.linkOpen (128 * y.line) = false ∨ (∃ v ∈ s.downLinks, s.crosses v d (128 * y.line) false = true) → Happens s (.writeback die) fun t =>
          ErrorRecorded s t [8 * 2 ^ 56 + 2 * 2 ^ 54 + (t.die d).lclock.toNat, 128 * y.line, n, 0])) ∧
    (e.phase ≠ 3 → keeps (.isolate die)) ∧ (e.phase = 3 → enters (.isolate die) (entered 4)) ∧
    (e.phase ≠ 4 → keeps (.retrain die ok)) ∧
    (e.phase = 4 → (Happens s (.retrain die true) fun t => t.die d = { entered 5 with lclock := (t.die d).lclock } ∧ (∀ k, k ≠ d → t.die k = s.die k) ∧
        t = { s with dies := t.dies, lclockF := t.lclockF, downLinks := t.downLinks } ∧
        ∀ v, v ∈ t.downLinks ↔ v ∈ s.downLinks ∧ (∀ k, v ≠ .near d k) ∧ v ≠ .front d) ∧
      enters (.retrain die false) { e with phase := 0, result := 1, since := s.now }) ∧
    (e.phase ≠ 5 → keeps (.test die failed)) ∧
    (e.phase = 5 → let zeroed (k : Cluster) : Cluster := { k with cycle := 0, toll := 0, began := 0 }
      (Happens s (.test die 0) fun t => t.die d = { entered 6 with lclock := (t.die d).lclock } ∧ (∀ k, t.cluster k = if k / 4 = d then zeroed (s.cluster k) else s.cluster k) ∧
        t = { s with dies := t.dies, lclockF := t.lclockF, clusters := t.clusters }) ∧
      (failed ≠ 0 → Happens s (.test die failed) fun t => t.die d = { e with phase := 0, result := 1, since := s.now, lclock := (t.die d).lclock } ∧
        t.regs.errTail = s.regs.errTail + BitVec.ofNat _ ((List.range 4).countP (fun k => failed.getLsbD k)) ∧ ∀ k, k / 4 = d →
          t.cluster k = { zeroed (s.cluster k) with vop := if failed.getLsbD (k % 4) then Config.curveVoltage k else (s.cluster k).vop })) ∧
    (e.phase ≠ 6 → keeps (.readmit die)) ∧
    (e.phase = 6 → enters (.readmit die) { e with admitted := true, phase := 0, result := 0, since := s.now })

/-- R25, R394, R413, R421 to R424: each interval of 2^20 cycles moves SHIFT by the power measured and charges the energy; heat throttles and
trips the module; an idle cluster calibrates its margin step by step; power-off loses everything, and power-on starts from nothing.
It rests on choices and readings of the model: log entries 4, 8, 9, 10, 53, 58. -/
def Obligations.PowerHeatMarginsAndEnergy : Prop :=
  ∀ (s : State) (cl : BitVec 5) (watts measured before t0 : Nat) (celsius : BitVec 8) (pass : Bool),
    let n := cl.toNat
    let k := s.cluster n
    let r := s.regs
    let keeps (i : Instr) : Prop := Happens s i fun t => t = s
    let limit := slice r.powerctl 15 0
    let guardBand := slice r.powerctl 47 40
    let curve := (Config.curveVoltage n).toNat
    let becomes (i : Instr) (v : Cluster) : Prop := Happens s i fun t => OneCluster s t n v ∧ t = { s with clusters := t.clusters }
    let blank_ : State := { State.reset with agenda := s.agenda, fresh := s.fresh, nextId := s.nextId }
    let dark (t : State) (on : Bool) : Prop := t = { blank_ with powered := on, mem := t.mem } ∧
      (∀ a, a < 0x10000000000000 → readByte t.mem a = 0) ∧ (Memory.wf s.mem = true → ∀ a, 0x10000000000000 ≤ a → readByte t.mem a = readByte s.mem a)
    let restored (t : State) : Prop := (t.cluster n).calib = none ∧ (t.cluster n).vop = BitVec.ofNat 12 before ∧ (t.cluster n).margin = k.margin
    let settled (lowest : Nat) (t : State) : Prop := (t.cluster n).calib = none ∧ (t.cluster n).idleAt = k.idleAt ∧
      (t.cluster n).vop = BitVec.ofNat 12 (min curve (lowest + guardBand)) ∧ (t.cluster n).margin = BitVec.ofNat 8 (curve - lowest)
    (s.now < r.powerAt + 2 ^ 20 → keeps (.powerInterval watts)) ∧
    (r.powerAt + 2 ^ 20 ≤ s.now → Happens s (.powerInterval watts) fun t => t.regs = { r with powerAt := r.powerAt + 2 ^ 20 } ∧ t.mem = s.mem ∧
      ∀ m < 32, t.cluster m = { s.cluster m with shift :=
        if r.throttle = true ∨ limit < watts then min ((s.cluster m).shift + 1) 4
        else if 10 * watts ≤ 9 * limit then (s.cluster m).shift - 1 else (s.cluster m).shift }) ∧
    (s.now < r.energyAt + 2 ^ 20 → keeps (.energyInterval measured)) ∧
    (r.energyAt + 2 ^ 20 ≤ s.now →
      let swap (a : Nat) : Nat := tgetD r.swaps a 0
      let estimate (a : Nat) : Nat := Config.energyEstimate s.fresh (a + 1) + swap a
      let accs := (s.launches.map (fun l => l.acc) ++ r.gone).eraseDups
      let total := Config.energyEstimate s.fresh 0 + (accs.map estimate).sum
      let share (e : Nat) : Nat := if total = 0 then 0 else e * measured / total
      Happens s (.energyInterval measured) fun t => t.launches = s.launches.map (fun l =>
          { l with energy := l.energy + share (estimate l.acc), swap := l.swap + share (swap l.acc) }) ∧
        t.regs = { r with hkEnergy := r.hkEnergy + BitVec.ofNat 64 (measured - (s.launches.map (fun l => share (estimate l.acc))).sum),
                          modEnergy := r.modEnergy + BitVec.ofNat 64 measured, energyAt := r.energyAt + 2 ^ 20, swaps := [], gone := [] }) ∧
    ((celsius.toNat < 95 → keeps (.throttle celsius) ∧ Happens s (.throttleEnd celsius) fun t =>
        t = { s with regs := { r with tmax := celsius, throttle := false } }) ∧
      (95 ≤ celsius.toNat → keeps (.throttleEnd celsius) ∧ (celsius.toNat < 105 → Happens s (.throttle celsius) fun t =>
        t = { s with regs := { r with tmax := celsius, throttle := true } }) ∧
        (105 ≤ celsius.toNat → Happens s (.throttle celsius) fun t => dark t false)) ∧
      (celsius.toNat < 105 → keeps (.thermalTrip celsius)) ∧ (105 ≤ celsius.toNat → Happens s (.thermalTrip celsius) fun t => dark t false)) ∧
    (Happens s .powerOff fun t => dark t false) ∧ (s.powered = true → keeps .powerOn) ∧ (s.powered = false → Happens s .powerOn fun t => dark t true) ∧
    (let idle : Prop := (∀ p ∈ s.ctxs, p.1 / 8 ≠ n) ∧ (∀ m ∈ s.liveMoves, m.2.1 / 8 ≠ n) ∧ k.idleAt + 2 ^ 20 ≤ s.now ∧ s.candidate n = none
     (r.powerctl.getLsbD 32 = true → idle → k.calib = none →
       becomes (.calibrationStart cl) { k with calib := some (k.vop.toNat, s.now), vop := BitVec.ofNat 12 (curve - 5) }) ∧
     (r.powerctl.getLsbD 32 = false ∨ ¬idle ∨ k.calib ≠ none → keeps (.calibrationStart cl))) ∧
    (k.calib = none → keeps (.calibrationStep cl pass)) ∧
    (k.calib = some (before, t0) → (s.now < t0 + 2 ^ 16 → keeps (.calibrationStep cl pass)) ∧
      (t0 + 2 ^ 16 ≤ s.now →
        (s.candidate n ≠ none → Happens s (.calibrationStep cl pass) restored) ∧
        (s.candidate n = none →
          (Happens s (.calibrationStep cl false) fun t => settled (k.vop.toNat + 5) t ∧ t.regs.errTail = r.errTail + 1) ∧
          (k.vop.toNat + 200 ≤ curve → Happens s (.calibrationStep cl true) fun t => settled k.vop.toNat t ∧ t = { s with clusters := t.clusters }) ∧
          (curve < k.vop.toNat + 200 →
            becomes (.calibrationStep cl true) { k with calib := some (before, s.now), vop := BitVec.ofNat 12 (k.vop.toNat - 5) }))))

/-- R90, R91, R255, R295, R378, R383, R408 to R413: the links train, fail and are retrained with their records; accesses, code fills and page walks
that a link holds as it fails are faulted; and the host and peers reach memory within their ranges and rights, or are refused with nothing
changed.
It rests on choices and readings of the model: log entries 6, 54, 57, 58, 62. -/
def Obligations.LinksHostAndPeers : Prop :=
  ∀ (s : State) (x : W64) (port : BitVec 4) (remote : W32) (link : LinkName) (again ok : Bool) (peer : BitVec 12) (q : OutsideAccess) (o : Attempt)
    (a : Access) (c : Ctx) (p : Part) (j : Nat),
    let keeps (i : Instr) : Prop := Happens s i fun t => t = s
    let f (p : Nat) : Finzu := tgetD s.regs.finzu p ⟨0, 0, 0⟩
    let onlyPort (t : State) (p : Nat) (v : Finzu) : Prop := tget t.regs.finzu p = some v ∧ ∀ m, m ≠ p → tget t.regs.finzu m = tget s.regs.finzu m
    let raised (v : BitVec 16) : BitVec 16 := if v = 0xFFFF then v else v + 1
    let real : Prop := match link with | .near d k => d < 8 ∧ k / 3 = d / 2 | .front d => d < 8 | .stack k => k < 12 | .finzu n => n < 16 | .host => True
    let source : Nat := match link with | .finzu _ => 6 | .host => 7 | _ => 5
    let unit_ : Nat := match link with | .near m _ => m | .front m => m | .stack m => m | .finzu m => m | .host => 0
    let records (i : Instr) (kind : Nat) (P : State → Prop) : Prop := Happens s i fun t => P t ∧
      ErrorRecorded s t [source * 2 ^ 56 + kind * 2 ^ 54 + s.lclockF.toNat, 0, unit_, 0]
    let ofADie (d : Nat) : Prop := link = .front d ∨ ∃ k, link = .near d k
    let resets (d : Nat) : Prop := ofADie d ∧ (s.die d).auto = true ∧ (s.die d).phase = 0
    let b := q.addr.toNat
    let inDevice : Prop := homeOf b = .dram ∨ homeOf b = .capacity
    let good : Prop := InLine b q.size ∧ s.badAt b q.size = false
    (GoesOn (exec (.linkFlitError link again) s) ∧ GoesOn (exec (.linkFailure link) s) ∧ GoesOn (exec (.finzuRetrain x) s) ∧
      GoesOn (exec (.finzuPortTrained port remote ok) s) ∧ GoesOn (exec (.peerRequest peer port q) s) ∧
      GoesOn (exec (.hostFlagWindowAccess q) s) ∧ GoesOn (exec (.hostApertureAccess q o) s)) ∧
    (Happens s .hostLinkDown fun t => t = { s with regs := { s.regs with hostUp := false } }) ∧
    (Happens s .hostLinkUp fun t => t = { s with regs := { s.regs with hostUp := true } }) ∧
    (Happens s (.finzuRetrain x) fun t => t = { s with regs := { s.regs with finzu := t.regs.finzu } } ∧ ∀ n < 16,
      tgetD t.regs.finzu n ⟨0, 0, 0⟩ = if x.getLsbD n then { f n with state := 1, retrains := raised (f n).retrains } else f n) ∧
    ((f port.toNat).state.toNat < 2 →
      (Happens s (.finzuPortTrained port remote true) fun t => onlyPort t port.toNat { f port.toNat with state := 2, remote := remote }) ∧
      (Happens s (.finzuPortTrained port remote false) fun t => onlyPort t port.toNat { f port.toNat with state := 3 })) ∧
    (2 ≤ (f port.toNat).state.toNat → keeps (.finzuPortTrained port remote ok)) ∧
    -- a link's flits, and its failure
    keeps (.linkFlitError link false) ∧
    (¬real → keeps (.linkFlitError link again) ∧ keeps (.linkFailure link)) ∧
    (real → Roomy s (errorSlot s) → Unwatched s → Untraced s →
      (records (.linkFlitError link true) 1 fun t => ∀ n, link = .finzu n → (f n).state = 2 →
        onlyPort t n { f n with retrains := raised (f n).retrains }) ∧
      records (.linkFailure link) 2 fun t =>
        (∀ n, link = .finzu n → onlyPort t n { f n with state := 3, retrains := raised (f n).retrains }) ∧
        (link = .host → t.regs.hostUp = false) ∧
        (∀ d, ofADie d ∨ link = .stack d → link ∈ t.downLinks) ∧
        (∀ d, resets d → (t.die d).phase = 1 ∧ (t.die d).cause = 2 ∧ (t.die d).admitted = false ∧ (t.die d).count = (s.die d).count + 1 ∧
          ∀ m y, tget t.ctxs m = some y → m / 32 = d → y.stop ≠ none) ∧
        (∀ d, ¬resets d → (t.die d).phase = (s.die d).phase ∧ (t.die d).admitted = (s.die d).admitted) ∧
        -- what it held
        (a ∈ s.accs → (∀ y ∈ s.accs, y.id = a.id → y = a) → a.done = false → a.bad = false → a.parts[j]? = some p → p.done = false →
          isSp p.pa = false → s.inBay a p = false → s.crosses link (a.cl / 4) p.pa (effScope p.pa a.scope = .system) = true → s.canPerform a [j] = true →
          s.ctx? a.cl a.slot = some c → Running c →
          (∃ y ∈ t.accs, y = { a with bad := true, clk := y.clk }) ∧
          ∃ c', t.ctx? a.cl a.slot = some c' ∧ c'.stop ≠ none ∧
            ((∀ d, ¬resets d) → c'.stop.map (fun y => y.cls) = some 0x31 ∧ c'.pc = c.pc ∧ c'.g = c.g ∧ c'.k = c.k) ∧
            (∀ u g, a.dest = .gen u g → tget c'.gt g.toNat = none) ∧
            ∀ k y, a.agent = .core k → t.core? a.cl k = some y → y.failed = true) ∧
        (∀ y ∈ s.code.fills, s.fillCrosses link y = true → y ∉ t.code.fills) ∧
        (∀ d k, link = .near d k → ∀ w ∈ s.walksOf d, w.users ≠ [] → walkerStack d (BitVec.ofNat 72 (w.vpn.toNat * 4096)) = k →
          ∃ y ∈ t.walks, y = { w with kind := some kLink, clk := y.clk })) ∧
    -- requests from outside
    (s.regs.ident.fwStat = 3 → keeps (.hostFlagWindowAccess q) ∧ keeps (.hostApertureAccess q o) ∧ keeps (.peerRequest peer port q)) ∧
    (s.regs.hostUp = false → keeps (.hostFlagWindowAccess q) ∧ keeps (.hostApertureAccess q o)) ∧
    (q.size = 0 ∨ 128 < q.size ∨ homeOf (b + q.size - 1) ≠ homeOf b →
      keeps (.hostFlagWindowAccess q) ∧ keeps (.hostApertureAccess q o) ∧ keeps (.peerRequest peer port q)) ∧
    (homeOf b ≠ .flag → keeps (.hostFlagWindowAccess q)) ∧
    (s.regs.hostUp = true → s.regs.ident.fwStat ≠ 3 → homeOf b = .flag → InLine b q.size → Roomy s b →
      (q.kind = .write → Happens s (.hostFlagWindowAccess q) fun t => Holds s t b q.size q.data.toNat) ∧
      (q.kind = .read → keeps (.hostFlagWindowAccess q))) ∧
    (¬inDevice → keeps (.hostApertureAccess q o)) ∧
    (s.regs.hostUp = true → s.regs.ident.fwStat ≠ 3 → inDevice → Roomy s b →
      (good → q.kind = .write → Happens s (.hostApertureAccess q .ok) fun t => Holds s t b q.size q.data.toNat) ∧
      -- a write to the CMD of a TRAPPED frame gives it its command (R378)
      (good → q.kind = .write → q.size = 8 → ∀ m y, tget s.frames m = some y → y.cmdPa = b → y.state = 2 → y.cmd = 0 →
        q.data.toNat % 2 ^ 64 = 1 ∨ q.data.toNat % 2 ^ 64 = 2 → Happens s (.hostApertureAccess q .ok) fun t =>
          tget t.frames m = some { y with cmd := q.data.toNat % 2 ^ 64 }) ∧
      (good → s.badLine b = false → q.kind = .read → Happens s (.hostApertureAccess q .ok) fun t =>
        t.mem = s.mem ∧ t.ctxs = s.ctxs ∧ ∀ v, t.homeRead v 1 = s.homeRead v 1) ∧
      -- a read of a line that is bad anywhere fails, as does a write to a bad granule
      (InLine b q.size → s.badAt b q.size = true ∨ (q.kind = .read ∧ s.badLine b = true) → Roomy s (errorSlot s) → Unwatched s → Happens s (.hostApertureAccess q .ok) fun t =>
        let cached := (s.l2Line (lineOf b)).isSome
        let dram := decide (homeOf b = .dram)
        ErrorRecorded s t [(if cached then 3 else if dram then 1 else 2) * 2 ^ 56 + 2 * 2 ^ 54 + s.lclockF.toNat, b / 128 * 128,
          if cached then stackOf b else if dram then b / 4096 % 12 else (b - 0x10000000000) / 4096 % 4, 0])) ∧
    (let e := tgetD s.regs.peers peer.toNat 0
     let served : Prop := e.getLsbD 63 = true ∧ e.getLsbD 62 = true ∧ s.portServes port.toNat peer.toNat = true ∧ (s.die (port.toNat / 2)).phase.toNat < 4
     let w := 8 * q.size
     let operand := q.data.toNat % 2 ^ w
     let before := ofBytes (readBytes s.mem b q.size)
     (¬served ∨ ¬inDevice ∨ s.badAt b q.size = true → keeps (.peerRequest peer port q)) ∧
     (served → s.regs.ident.fwStat ≠ 3 → inDevice → good → Memory.wf s.mem = true → (∀ z, s.l2Line (lineOf b) = some z → Roomy s b) →
       (q.kind = .write → Happens s (.peerRequest peer port q) fun t => (∀ i < q.size, readByte t.mem (b + i) =
           BitVec.ofNat 8 (q.data.toNat / 2 ^ (8 * i))) ∧ (∀ v, v < b ∨ b + q.size ≤ v → readByte t.mem v = readByte s.mem v)) ∧
       (q.kind = .read → Happens s (.peerRequest peer port q) fun t => t.ctxs = s.ctxs ∧ (∀ v, t.homeRead v 1 = s.homeRead v 1) ∧
         ∀ z, s.l2Line (lineOf b) = some z → (t.l2Line (lineOf b)).map (fun w => w.dirty) = some 0) ∧
       -- atomic operations
       (q.size = 4 ∨ q.size = 8 → b % q.size = 0 → (∀ z, s.l2Line (lineOf b) = some z → z.dirty = 0) →
         let leaves (v : Nat) : Prop := Happens s (.peerRequest peer port q) fun t =>
           ofBytes (readBytes t.mem b q.size) = v % 2 ^ w ∧ t.homeRead b q.size = v % 2 ^ w ∧
             ∀ u, u < b ∨ b + q.size ≤ u → readByte t.mem u = readByte s.mem u
         (∀ op, q.kind = .atom op → leaves (gatomFn op w operand before)) ∧
         (q.kind = .cas → leaves (if before = q.data.toNat / 2 ^ w % 2 ^ w then operand else before)) ∧
         (q.size = 4 → (q.kind = .fadd → leaves (fp32Add before operand)) ∧ (q.kind = .fmin → leaves (fp32Least false before operand)) ∧
           (q.kind = .fmax → leaves (fp32Least true before operand)))) ∧
       (q.kind ≠ .read → q.kind ≠ .write → (q.size ≠ 4 ∧ (q.size ≠ 8 ∨ q.kind = .fadd ∨ q.kind = .fmin ∨ q.kind = .fmax)) ∨ b % q.size ≠ 0 →
         keeps (.peerRequest peer port q))))

/-- R144, R145, R175, R148 (and R130, R133): what one step does. A generator's cycle runs, as exec does, the instruction that the bytes
at the program counter decode to; a core's cycle runs the lane word at the head of its buffer; an event has its effect. That a step takes
the next act of an agenda is the model's own choice (log entry 1), and so is what a fetch finds of code that the host has rewritten
(log entry 62) and of a draining module (log entry 78). -/
def Obligations.StepRunsTheDecodedInstruction : Prop :=
  ∀ (s : State) (e : Nat) (rest : List Turn),
    let u : State := { s with now := s.now + e, agenda := rest }
    let turn (a : Act) : Host.Outcome State Fault Refusal := step { s with agenda := ⟨e, a⟩ :: rest }
    (∀ (n : BitVec 5) slot c m i, s.powered = true → s.issuing n.toNat = some (slot, c) → c.halted = false →
      (s.cluster n.toNat).issued = false → s.sliceOpen n.toNat 0 = true → slice c.pc 63 44 = 0 → slice c.pc 1 0 = 0 →
      s.module? (slice c.pc 43 32) = some m → m.st = .live ∨ m.st = .draining →
      slice c.pc 31 0 + instrBytes i ≤ m.size →
      (∀ line, c.pc.toNat / 128 ≤ line → line ≤ (c.pc.toNat + instrBytes i - 1) / 128 → s.code.has .i0 n.toNat line = true) →
      decode (State.codeBytes { u with focus := ⟨n.toNat, slot, s.focus.core⟩ } c.pc 16) = .ok i →
      ∃ code, turn (.gen n) = exec i { u with focus := ⟨n.toNat, slot, s.focus.core⟩, code := code }) ∧
    (∀ (n : BitVec 5) (k : BitVec 7) x c w ws, s.powered = true → s.core? n.toNat k.toNat = some x → s.ctx? n.toNat x.slot = some c →
      x.buf = w :: ws → x.left = false → x.failed = false → x.ran = false → c.drains u.now = true →
      u.headWaits n.toNat k.toNat x c.uid = 0 → 0 ≤ (s.cluster n.toNat).began →
      (∀ i, decodeLane w.w = some i → turn (.core n k) = exec i { u with focus := ⟨n.toNat, x.slot, k.toNat⟩ }) ∧
      (decodeLane w.w = none → c.stop = none → ∃ t y, turn (.core n k) = .next t ∧ t.ctx? n.toNat x.slot = some y ∧
        t.core? n.toNat k.toNat = some { x with failed := true } ∧ y.status = .blocked ∧ y.pc = c.pc ∧ y.g = c.g ∧
        y.stop.map (fun z => z.cls) = some 0x20 ∧ (y.stop.map (fun z => z.recs.map (fun r => (wordAt r 2, wordAt r 3)))) =
          some [(BitVec.ofNat 64 w.e, w.w)])) ∧
    (∀ i, s.powered = true ∨ i = .powerOn → turn (.event i) = if encode i = [] ∧ encodeLane i = none then exec i u else .next u) ∧
    (∀ a, s.powered = false → a ≠ .event .powerOn → (∀ pa data, a ≠ .outsideStore pa data) → turn a = .next u) ∧
    (∀ m pa dpa va bs, s.powered = true → turn (.image m pa dpa va bs) = .next (u.loadImage m.toNat pa.toNat dpa.toNat va bs)) ∧
    (∀ pa data, turn (.outsideStore pa data) = .next (u.outsideStore pa data)) ∧
    (∀ n line, s.powered = true → turn (.codeError n line) = .next (u.codeLost n.toNat line.toNat)) ∧
    (s.agenda = [] → step s = .next { s with now := s.now + 1 }) ∧
    GoesOn (step s)

/-- R3, R6, R140, R141, R143, R146, R147: words written out from the spec's encodings decode to the instructions that they stand for. -/
def Obligations.WordsDecode : Prop :=
  let l (v : W64) : GLit := ⟨.w32, v⟩
  decodeWords 0x1280107C 0 0 0 = .ok (.movLiteral .n64 4 (l 10)) ∧
  decodeWords 0x0000187C 0 0 0 = .ok (.movLiteral .i64 6 (l 0)) ∧
  decodeWords 0x01061808 0 0 0 = .ok (.addRegister .i64 6 6 4) ∧
  decodeWords 0x040000CC 0 0 0 = .ok (.yield (l 16)) ∧
  decodeWords 0x0F8010B8 0 0 0 = .ok (.loop 4 (l (-2))) ∧
  decodeWords 0x0DC60475 0 0 0 = .ok (.cmpLiteral .eq .i64 1 6 ⟨.w64, 55⟩) ∧
  decodeWords 0x208004A8 0 0 0 = .ok (.br .kc 1 (l 2)) ∧
  decodeWords 0x000000D4 0 0 0 = .ok .taskend ∧
  decodeWords 0x01C000D8 0 0 0 = .ok (.trap (l 7)) ∧
  decodeWords 0x01C00108 0 0 0 = .ok (.captBegin (l 7)) ∧
  decodeWords 0x0000010C 0 0 0 = .ok .captEnd ∧
  decodeWords 0x00050120 0 0 0 = .ok (.hset 0 5) ∧
  decodeWords 0x01C00118 0 0 0 = .ok (.replay (l 7)) ∧
  decodeWords 0x00001D00 0 0 0 = .ok (.emit 7 (l 0)) ∧
  decodeWords 0x00000000 0 0 0 = .error .unassigned ∧
  decodeWords 0x00001D01 0 0 0 = .ok (.emit 7 ⟨.w64, 0⟩) ∧
  decodeWords 0x00000009 0 0 0 = .error .length ∧
  decodeWords 0x80000008 0 0 0 = .error .fields ∧
  decodeLane 0xC000018080301C01 = some (.iadd ⟨.i32, .rne, 0, .unused, false, 1, .q 2, .v 3, .v 7⟩) ∧
  decodeLane 0xE040008050040C20 = some (.affAdd ⟨.i64, .rne, 1, .unused, false, 0, .q 1, .a 0, .a 3⟩) ∧
  decodeLane 0xC08000F000900814 = some (.icmp ⟨.i32, .rne, 2, .unused, false, 0, .imm 64, .v 9, .m 2⟩) ∧
  decodeLane 0x1000030000281044 = some (.redAdd ⟨.fp32, .rne, 0, .unused, false, 3, .unused, .v 2, .q 4⟩) ∧
  decodeLane 0x32000080C0702505 = some (.fdiv ⟨.bf16, .rtz, 0, .unused, false, 0, .q 3, .v 7, .v 9⟩) ∧
  decodeLane 0x1000900200602504 = some (.fnma ⟨.fp32, .rne, 0, .v 9, false, 0, .v 8, .v 6, .v 9⟩) ∧
  decodeLane 0xA240100000200D40 = some (.cvt ⟨.i8, .rtz, 1, .z 1, false, 0, .unused, .v 2, .v 3⟩) ∧
  decodeLane 0x128130F110201601 = some (.laneSt ⟨.fp32, 0, .device, false, 2, 3, false, 0, .imm 68, .a 2, .v 5⟩) ∧
  decodeLane 0x1080058140202603 = some (.stSp ⟨.fp32, 0, .core, false, 0, 0, false, 5, .q 5, .v 2, .v 9⟩) ∧
  decodeLane 0xD28000F050302606 = some (.laneAtom ⟨.n32, 0, .device, false, 0, 0, false, 0, .imm 65, .a 3, .v 9⟩) ∧
  decodeLane 0x62809181A0400A40 = some (.mma ⟨.bf16, 5, 1, 1, 1, .q 6, .q 4, .z 2⟩) ∧
  decodeLane 0 = none

/-- R140, R141, R143, R146, R147, R306, R313: decoding is the inverse of encoding, for every instruction that an encoding stands for, in
every form and at every value of every operand, whatever bytes follow it.
It rests on choices and readings of the model: log entry 59. -/
def Obligations.EncodedInstructionsDecodeBack : Prop :=
  ∀ i : Instr, i.wf = true →
    (encode i ≠ [] → ∀ rest : List Byte, decode ((encode i).flatMap (fun w => toBytes 4 w.toNat) ++ rest) = .ok i) ∧
    (∀ w, encodeLane i = some w → decodeLane w = some i)

/-- Every step keeps memory in its one form, addresses rising and no unwritten byte listed, so that equal memories are equal data. The form is
the model's own choice of how to hold the storage of R25, with what unwritten bytes read as (log entries 5, 6). -/
def Obligations.MemoryStaysCanonical : Prop :=
  ∀ s t : State, Memory.wf s.mem = true → step s = .next t → Memory.wf t.mem = true

/-- R25, R26, R93, R129, R139, R256, R385, R395, R410, R415, R418, R427, R167, R204: what the management registers read at power-on,
and that nothing runs.
It rests on choices and readings of the model: log entries 4, 8. -/
def Obligations.ResetIsAsSpecified : Prop :=
  let r (off : Nat) : W64 := State.reset.readReg off
  Memory.wf State.reset.mem = true ∧ State.reset.powered = true ∧
  (State.reset.ctxs = [] ∧ State.reset.cores = [] ∧ State.reset.launches = [] ∧ State.reset.accs = [] ∧ State.reset.cmds = [] ∧
    State.reset.flights = [] ∧ State.reset.frames = []) ∧
  r 0x0000 = 0x0960108480867F80 ∧
  (∀ n < 32, r (0x400 + 0x20 * n) = 0x00100000FFFF0000 ∧ r (0x408 + 0x20 * n) = 0x0000010101010101 ∧ r (0x410 + 0x20 * n) = 0 ∧
    slice (r (0x418 + 0x20 * n)) 7 0 = 0 ∧ slice (r (0x418 + 0x20 * n)) 63 20 = 0 ∧
    (State.reset.cluster n).cycle = 0 ∧ (State.reset.cluster n).toll = 0) ∧
  r 0x800 = 0x0000190100000960 ∧ r 0x808 = 0x05A0 ∧ r 0x810 = 0x60000000 ∧ r 0x818 = 0 ∧ r 0x820 = 0 ∧
  (∀ n < 4, r (0x1000 + 0x100 * n) = 0x0660000000000000 ∧ r (0x1008 + 0x100 * n) = 0 ∧ r (0x1010 + 0x100 * n) = 0 ∧
    r (0x1018 + 0x100 * n) = 1 ∧ r (0x1020 + 0x100 * n) = 0 ∧ r (0x1028 + 0x100 * n) = 3) ∧
  r 0x2000 = 0x000000400004F809 ∧ r 0x2008 = 0 ∧ r 0x2010 = 0 ∧ r 0x2018 = 0 ∧ (∀ n < 32, r (0x2100 + 8 * n) = 0x10) ∧
  (∀ k < 6, r (0x3000 + 8 * k) = 0) ∧ r 0x3030 = 2 ∧ (∀ k < 8, r (0x4000 + 8 * k) = 0) ∧
  (∀ n < 4, (∀ k < 8, k ≠ 4 → r (0x5000 + 0x40 * n + 8 * k) = 0) ∧ r (0x5020 + 0x40 * n) = 0x60000000) ∧
  (∀ d < 8, r (0x6000 + 0x10 * d) = 8 ∧ r (0x6008 + 0x10 * d) = 0) ∧
  (∀ n < 4, r (0x7000 + 0x40 * n) = 0x20000000 ∧ r (0x7018 + 0x40 * n) = 0xA000000000 ∧
    ∀ k < 8, k ≠ 0 → k ≠ 3 → r (0x7000 + 0x40 * n + 8 * k) = 0) ∧
  r 0x7100 = 0 ∧ r 0x7108 = 0 ∧ (∀ n < 16, r (0x7800 + 8 * n) = 0) ∧ (∀ k < 8, r (0x7A00 + 8 * k) = 0) ∧
  ∀ p < 4096, r (0x8000 + 8 * p) = 0
end

