-- ==== Sys2Proof/Laws/Tables.lean ====
section
/-! SUPPORT. Sparse tables: what is read after a write, without any premise on how a table is held. -/

namespace Sys2Proof.Machine

theorem tget_tput {α : Type} (t : Tab α) (i j : Nat) (x : α) : tget (tput t i x) j = if j = i then some x else tget t j := by
  induction t with
  | nil => simp [tput, tget, eq_comm]
  | cons p t ih =>
    obtain ⟨k, y⟩ := p
    simp only [tput]
    split
    · simp only [tget, eq_comm]
    · split
      · subst_vars; simp only [tget]; split <;> simp_all [eq_comm]
      · simp only [tget]; split <;> split <;> simp_all

@[simp] theorem tget_tput_same {α : Type} (t : Tab α) (i : Nat) (x : α) : tget (tput t i x) i = some x := by simp [tget_tput]

theorem tget_tput_other {α : Type} (t : Tab α) {i j : Nat} (h : j ≠ i) (x : α) : tget (tput t i x) j = tget t j := by
  simp [tget_tput, h]

theorem tgetD_tput {α : Type} (t : Tab α) (i j : Nat) (x d : α) : tgetD (tput t i x) j d = if j = i then x else tgetD t j d := by
  simp only [tgetD, tget_tput]; split <;> rfl

@[simp] theorem tgetD_tput_same {α : Type} (t : Tab α) (i : Nat) (x d : α) : tgetD (tput t i x) i d = x := by simp [tgetD_tput]

theorem tget_tdel {α : Type} (t : Tab α) (i j : Nat) : tget (tdel t i) j = if j = i then none else tget t j := by
  induction t with
  | nil => simp [tdel, tget]
  | cons p t ih =>
    obtain ⟨k, y⟩ := p
    simp only [tdel, List.filter] at ih ⊢
    by_cases h : k = i
    · subst h; simp only [bne_self_eq_false, tget, ih]; split <;> simp_all [eq_comm]
    · simp only [bne_iff_ne.mpr h, tget, ih]; split <;> split <;> simp_all

/-- Two writes to one key leave the later. -/
theorem tput_tput {α : Type} (t : Tab α) (i : Nat) (x y : α) : tput (tput t i x) i y = tput t i y := by
  induction t with
  | nil => simp [tput]
  | cons p t ih =>
    obtain ⟨k, z⟩ := p
    simp only [tput]
    split
    · simp [tput]
    · split
      · simp [tput]
      · simp only [tput, *, if_false]

end Sys2Proof.Machine
end

