-- ==== Sys2Proof/Laws/State.lean ====
section
/-! SUPPORT. What each update of the state changes: one lemma for each field it leaves, so that no later proof unfolds a record. -/

namespace Sys2Proof.Machine

/-! ### State.setCtx -/

@[simp] theorem State.setCtx_powered (s : State) (n slot : Nat) (c : Ctx) : (s.setCtx n slot c).powered = s.powered := rfl
@[simp] theorem State.setCtx_now (s : State) (n slot : Nat) (c : Ctx) : (s.setCtx n slot c).now = s.now := rfl
@[simp] theorem State.setCtx_agenda (s : State) (n slot : Nat) (c : Ctx) : (s.setCtx n slot c).agenda = s.agenda := rfl
@[simp] theorem State.setCtx_focus (s : State) (n slot : Nat) (c : Ctx) : (s.setCtx n slot c).focus = s.focus := rfl
@[simp] theorem State.setCtx_fresh (s : State) (n slot : Nat) (c : Ctx) : (s.setCtx n slot c).fresh = s.fresh := rfl
@[simp] theorem State.setCtx_nextId (s : State) (n slot : Nat) (c : Ctx) : (s.setCtx n slot c).nextId = s.nextId := rfl
@[simp] theorem State.setCtx_cores (s : State) (n slot : Nat) (c : Ctx) : (s.setCtx n slot c).cores = s.cores := rfl
@[simp] theorem State.setCtx_clusters (s : State) (n slot : Nat) (c : Ctx) : (s.setCtx n slot c).clusters = s.clusters := rfl
@[simp] theorem State.setCtx_dies (s : State) (n slot : Nat) (c : Ctx) : (s.setCtx n slot c).dies = s.dies := rfl
@[simp] theorem State.setCtx_lclockF (s : State) (n slot : Nat) (c : Ctx) : (s.setCtx n slot c).lclockF = s.lclockF := rfl
@[simp] theorem State.setCtx_mem (s : State) (n slot : Nat) (c : Ctx) : (s.setCtx n slot c).mem = s.mem := rfl
@[simp] theorem State.setCtx_l2 (s : State) (n slot : Nat) (c : Ctx) : (s.setCtx n slot c).l2 = s.l2 := rfl
@[simp] theorem State.setCtx_bayLines (s : State) (n slot : Nat) (c : Ctx) : (s.setCtx n slot c).bayLines = s.bayLines := rfl
@[simp] theorem State.setCtx_uniLines (s : State) (n slot : Nat) (c : Ctx) : (s.setCtx n slot c).uniLines = s.uniLines := rfl
@[simp] theorem State.setCtx_badGranules (s : State) (n slot : Nat) (c : Ctx) : (s.setCtx n slot c).badGranules = s.badGranules := rfl
@[simp] theorem State.setCtx_downLinks (s : State) (n slot : Nat) (c : Ctx) : (s.setCtx n slot c).downLinks = s.downLinks := rfl
@[simp] theorem State.setCtx_codeWas (s : State) (n slot : Nat) (c : Ctx) : (s.setCtx n slot c).codeWas = s.codeWas := rfl
@[simp] theorem State.setCtx_code (s : State) (n slot : Nat) (c : Ctx) : (s.setCtx n slot c).code = s.code := rfl
@[simp] theorem State.setCtx_accs (s : State) (n slot : Nat) (c : Ctx) : (s.setCtx n slot c).accs = s.accs := rfl
@[simp] theorem State.setCtx_narrow (s : State) (n slot : Nat) (c : Ctx) : (s.setCtx n slot c).narrow = s.narrow := rfl
@[simp] theorem State.setCtx_walks (s : State) (n slot : Nat) (c : Ctx) : (s.setCtx n slot c).walks = s.walks := rfl
@[simp] theorem State.setCtx_walkers (s : State) (n slot : Nat) (c : Ctx) : (s.setCtx n slot c).walkers = s.walkers := rfl
@[simp] theorem State.setCtx_cmds (s : State) (n slot : Nat) (c : Ctx) : (s.setCtx n slot c).cmds = s.cmds := rfl
@[simp] theorem State.setCtx_mmas (s : State) (n slot : Nat) (c : Ctx) : (s.setCtx n slot c).mmas = s.mmas := rfl
@[simp] theorem State.setCtx_flights (s : State) (n slot : Nat) (c : Ctx) : (s.setCtx n slot c).flights = s.flights := rfl
@[simp] theorem State.setCtx_watches (s : State) (n slot : Nat) (c : Ctx) : (s.setCtx n slot c).watches = s.watches := rfl
@[simp] theorem State.setCtx_launches (s : State) (n slot : Nat) (c : Ctx) : (s.setCtx n slot c).launches = s.launches := rfl
@[simp] theorem State.setCtx_pushes (s : State) (n slot : Nat) (c : Ctx) : (s.setCtx n slot c).pushes = s.pushes := rfl
@[simp] theorem State.setCtx_accepted (s : State) (n slot : Nat) (c : Ctx) : (s.setCtx n slot c).accepted = s.accepted := rfl
@[simp] theorem State.setCtx_ringCmds (s : State) (n slot : Nat) (c : Ctx) : (s.setCtx n slot c).ringCmds = s.ringCmds := rfl
@[simp] theorem State.setCtx_handles (s : State) (n slot : Nat) (c : Ctx) : (s.setCtx n slot c).handles = s.handles := rfl
@[simp] theorem State.setCtx_posts (s : State) (n slot : Nat) (c : Ctx) : (s.setCtx n slot c).posts = s.posts := rfl
@[simp] theorem State.setCtx_frames (s : State) (n slot : Nat) (c : Ctx) : (s.setCtx n slot c).frames = s.frames := rfl
@[simp] theorem State.setCtx_moves (s : State) (n slot : Nat) (c : Ctx) : (s.setCtx n slot c).moves = s.moves := rfl
@[simp] theorem State.setCtx_regs (s : State) (n slot : Nat) (c : Ctx) : (s.setCtx n slot c).regs = s.regs := rfl

/-! ### State.delCtx -/

@[simp] theorem State.delCtx_powered (s : State) (n slot : Nat) : (s.delCtx n slot).powered = s.powered := rfl
@[simp] theorem State.delCtx_now (s : State) (n slot : Nat) : (s.delCtx n slot).now = s.now := rfl
@[simp] theorem State.delCtx_agenda (s : State) (n slot : Nat) : (s.delCtx n slot).agenda = s.agenda := rfl
@[simp] theorem State.delCtx_focus (s : State) (n slot : Nat) : (s.delCtx n slot).focus = s.focus := rfl
@[simp] theorem State.delCtx_fresh (s : State) (n slot : Nat) : (s.delCtx n slot).fresh = s.fresh := rfl
@[simp] theorem State.delCtx_nextId (s : State) (n slot : Nat) : (s.delCtx n slot).nextId = s.nextId := rfl
@[simp] theorem State.delCtx_cores (s : State) (n slot : Nat) : (s.delCtx n slot).cores = s.cores := rfl
@[simp] theorem State.delCtx_clusters (s : State) (n slot : Nat) : (s.delCtx n slot).clusters = s.clusters := rfl
@[simp] theorem State.delCtx_dies (s : State) (n slot : Nat) : (s.delCtx n slot).dies = s.dies := rfl
@[simp] theorem State.delCtx_lclockF (s : State) (n slot : Nat) : (s.delCtx n slot).lclockF = s.lclockF := rfl
@[simp] theorem State.delCtx_mem (s : State) (n slot : Nat) : (s.delCtx n slot).mem = s.mem := rfl
@[simp] theorem State.delCtx_l2 (s : State) (n slot : Nat) : (s.delCtx n slot).l2 = s.l2 := rfl
@[simp] theorem State.delCtx_bayLines (s : State) (n slot : Nat) : (s.delCtx n slot).bayLines = s.bayLines := rfl
@[simp] theorem State.delCtx_uniLines (s : State) (n slot : Nat) : (s.delCtx n slot).uniLines = s.uniLines := rfl
@[simp] theorem State.delCtx_badGranules (s : State) (n slot : Nat) : (s.delCtx n slot).badGranules = s.badGranules := rfl
@[simp] theorem State.delCtx_downLinks (s : State) (n slot : Nat) : (s.delCtx n slot).downLinks = s.downLinks := rfl
@[simp] theorem State.delCtx_codeWas (s : State) (n slot : Nat) : (s.delCtx n slot).codeWas = s.codeWas := rfl
@[simp] theorem State.delCtx_code (s : State) (n slot : Nat) : (s.delCtx n slot).code = s.code := rfl
@[simp] theorem State.delCtx_accs (s : State) (n slot : Nat) : (s.delCtx n slot).accs = s.accs := rfl
@[simp] theorem State.delCtx_narrow (s : State) (n slot : Nat) : (s.delCtx n slot).narrow = s.narrow := rfl
@[simp] theorem State.delCtx_walks (s : State) (n slot : Nat) : (s.delCtx n slot).walks = s.walks := rfl
@[simp] theorem State.delCtx_walkers (s : State) (n slot : Nat) : (s.delCtx n slot).walkers = s.walkers := rfl
@[simp] theorem State.delCtx_cmds (s : State) (n slot : Nat) : (s.delCtx n slot).cmds = s.cmds := rfl
@[simp] theorem State.delCtx_mmas (s : State) (n slot : Nat) : (s.delCtx n slot).mmas = s.mmas := rfl
@[simp] theorem State.delCtx_flights (s : State) (n slot : Nat) : (s.delCtx n slot).flights = s.flights := rfl
@[simp] theorem State.delCtx_watches (s : State) (n slot : Nat) : (s.delCtx n slot).watches = s.watches := rfl
@[simp] theorem State.delCtx_launches (s : State) (n slot : Nat) : (s.delCtx n slot).launches = s.launches := rfl
@[simp] theorem State.delCtx_pushes (s : State) (n slot : Nat) : (s.delCtx n slot).pushes = s.pushes := rfl
@[simp] theorem State.delCtx_accepted (s : State) (n slot : Nat) : (s.delCtx n slot).accepted = s.accepted := rfl
@[simp] theorem State.delCtx_ringCmds (s : State) (n slot : Nat) : (s.delCtx n slot).ringCmds = s.ringCmds := rfl
@[simp] theorem State.delCtx_handles (s : State) (n slot : Nat) : (s.delCtx n slot).handles = s.handles := rfl
@[simp] theorem State.delCtx_posts (s : State) (n slot : Nat) : (s.delCtx n slot).posts = s.posts := rfl
@[simp] theorem State.delCtx_frames (s : State) (n slot : Nat) : (s.delCtx n slot).frames = s.frames := rfl
@[simp] theorem State.delCtx_moves (s : State) (n slot : Nat) : (s.delCtx n slot).moves = s.moves := rfl
@[simp] theorem State.delCtx_regs (s : State) (n slot : Nat) : (s.delCtx n slot).regs = s.regs := rfl

/-! ### State.setCore -/

@[simp] theorem State.setCore_powered (s : State) (n k : Nat) (c : Core) : (s.setCore n k c).powered = s.powered := rfl
@[simp] theorem State.setCore_now (s : State) (n k : Nat) (c : Core) : (s.setCore n k c).now = s.now := rfl
@[simp] theorem State.setCore_agenda (s : State) (n k : Nat) (c : Core) : (s.setCore n k c).agenda = s.agenda := rfl
@[simp] theorem State.setCore_focus (s : State) (n k : Nat) (c : Core) : (s.setCore n k c).focus = s.focus := rfl
@[simp] theorem State.setCore_fresh (s : State) (n k : Nat) (c : Core) : (s.setCore n k c).fresh = s.fresh := rfl
@[simp] theorem State.setCore_nextId (s : State) (n k : Nat) (c : Core) : (s.setCore n k c).nextId = s.nextId := rfl
@[simp] theorem State.setCore_ctxs (s : State) (n k : Nat) (c : Core) : (s.setCore n k c).ctxs = s.ctxs := rfl
@[simp] theorem State.setCore_clusters (s : State) (n k : Nat) (c : Core) : (s.setCore n k c).clusters = s.clusters := rfl
@[simp] theorem State.setCore_dies (s : State) (n k : Nat) (c : Core) : (s.setCore n k c).dies = s.dies := rfl
@[simp] theorem State.setCore_lclockF (s : State) (n k : Nat) (c : Core) : (s.setCore n k c).lclockF = s.lclockF := rfl
@[simp] theorem State.setCore_mem (s : State) (n k : Nat) (c : Core) : (s.setCore n k c).mem = s.mem := rfl
@[simp] theorem State.setCore_l2 (s : State) (n k : Nat) (c : Core) : (s.setCore n k c).l2 = s.l2 := rfl
@[simp] theorem State.setCore_bayLines (s : State) (n k : Nat) (c : Core) : (s.setCore n k c).bayLines = s.bayLines := rfl
@[simp] theorem State.setCore_uniLines (s : State) (n k : Nat) (c : Core) : (s.setCore n k c).uniLines = s.uniLines := rfl
@[simp] theorem State.setCore_badGranules (s : State) (n k : Nat) (c : Core) : (s.setCore n k c).badGranules = s.badGranules := rfl
@[simp] theorem State.setCore_downLinks (s : State) (n k : Nat) (c : Core) : (s.setCore n k c).downLinks = s.downLinks := rfl
@[simp] theorem State.setCore_codeWas (s : State) (n k : Nat) (c : Core) : (s.setCore n k c).codeWas = s.codeWas := rfl
@[simp] theorem State.setCore_code (s : State) (n k : Nat) (c : Core) : (s.setCore n k c).code = s.code := rfl
@[simp] theorem State.setCore_accs (s : State) (n k : Nat) (c : Core) : (s.setCore n k c).accs = s.accs := rfl
@[simp] theorem State.setCore_narrow (s : State) (n k : Nat) (c : Core) : (s.setCore n k c).narrow = s.narrow := rfl
@[simp] theorem State.setCore_walks (s : State) (n k : Nat) (c : Core) : (s.setCore n k c).walks = s.walks := rfl
@[simp] theorem State.setCore_walkers (s : State) (n k : Nat) (c : Core) : (s.setCore n k c).walkers = s.walkers := rfl
@[simp] theorem State.setCore_cmds (s : State) (n k : Nat) (c : Core) : (s.setCore n k c).cmds = s.cmds := rfl
@[simp] theorem State.setCore_mmas (s : State) (n k : Nat) (c : Core) : (s.setCore n k c).mmas = s.mmas := rfl
@[simp] theorem State.setCore_flights (s : State) (n k : Nat) (c : Core) : (s.setCore n k c).flights = s.flights := rfl
@[simp] theorem State.setCore_watches (s : State) (n k : Nat) (c : Core) : (s.setCore n k c).watches = s.watches := rfl
@[simp] theorem State.setCore_launches (s : State) (n k : Nat) (c : Core) : (s.setCore n k c).launches = s.launches := rfl
@[simp] theorem State.setCore_pushes (s : State) (n k : Nat) (c : Core) : (s.setCore n k c).pushes = s.pushes := rfl
@[simp] theorem State.setCore_accepted (s : State) (n k : Nat) (c : Core) : (s.setCore n k c).accepted = s.accepted := rfl
@[simp] theorem State.setCore_ringCmds (s : State) (n k : Nat) (c : Core) : (s.setCore n k c).ringCmds = s.ringCmds := rfl
@[simp] theorem State.setCore_handles (s : State) (n k : Nat) (c : Core) : (s.setCore n k c).handles = s.handles := rfl
@[simp] theorem State.setCore_posts (s : State) (n k : Nat) (c : Core) : (s.setCore n k c).posts = s.posts := rfl
@[simp] theorem State.setCore_frames (s : State) (n k : Nat) (c : Core) : (s.setCore n k c).frames = s.frames := rfl
@[simp] theorem State.setCore_moves (s : State) (n k : Nat) (c : Core) : (s.setCore n k c).moves = s.moves := rfl
@[simp] theorem State.setCore_regs (s : State) (n k : Nat) (c : Core) : (s.setCore n k c).regs = s.regs := rfl

/-! ### State.setCluster -/

@[simp] theorem State.setCluster_powered (s : State) (n : Nat) (c : Cluster) : (s.setCluster n c).powered = s.powered := rfl
@[simp] theorem State.setCluster_now (s : State) (n : Nat) (c : Cluster) : (s.setCluster n c).now = s.now := rfl
@[simp] theorem State.setCluster_agenda (s : State) (n : Nat) (c : Cluster) : (s.setCluster n c).agenda = s.agenda := rfl
@[simp] theorem State.setCluster_focus (s : State) (n : Nat) (c : Cluster) : (s.setCluster n c).focus = s.focus := rfl
@[simp] theorem State.setCluster_fresh (s : State) (n : Nat) (c : Cluster) : (s.setCluster n c).fresh = s.fresh := rfl
@[simp] theorem State.setCluster_nextId (s : State) (n : Nat) (c : Cluster) : (s.setCluster n c).nextId = s.nextId := rfl
@[simp] theorem State.setCluster_cores (s : State) (n : Nat) (c : Cluster) : (s.setCluster n c).cores = s.cores := rfl
@[simp] theorem State.setCluster_ctxs (s : State) (n : Nat) (c : Cluster) : (s.setCluster n c).ctxs = s.ctxs := rfl
@[simp] theorem State.setCluster_dies (s : State) (n : Nat) (c : Cluster) : (s.setCluster n c).dies = s.dies := rfl
@[simp] theorem State.setCluster_lclockF (s : State) (n : Nat) (c : Cluster) : (s.setCluster n c).lclockF = s.lclockF := rfl
@[simp] theorem State.setCluster_mem (s : State) (n : Nat) (c : Cluster) : (s.setCluster n c).mem = s.mem := rfl
@[simp] theorem State.setCluster_l2 (s : State) (n : Nat) (c : Cluster) : (s.setCluster n c).l2 = s.l2 := rfl
@[simp] theorem State.setCluster_bayLines (s : State) (n : Nat) (c : Cluster) : (s.setCluster n c).bayLines = s.bayLines := rfl
@[simp] theorem State.setCluster_uniLines (s : State) (n : Nat) (c : Cluster) : (s.setCluster n c).uniLines = s.uniLines := rfl
@[simp] theorem State.setCluster_badGranules (s : State) (n : Nat) (c : Cluster) : (s.setCluster n c).badGranules = s.badGranules := rfl
@[simp] theorem State.setCluster_downLinks (s : State) (n : Nat) (c : Cluster) : (s.setCluster n c).downLinks = s.downLinks := rfl
@[simp] theorem State.setCluster_codeWas (s : State) (n : Nat) (c : Cluster) : (s.setCluster n c).codeWas = s.codeWas := rfl
@[simp] theorem State.setCluster_code (s : State) (n : Nat) (c : Cluster) : (s.setCluster n c).code = s.code := rfl
@[simp] theorem State.setCluster_accs (s : State) (n : Nat) (c : Cluster) : (s.setCluster n c).accs = s.accs := rfl
@[simp] theorem State.setCluster_narrow (s : State) (n : Nat) (c : Cluster) : (s.setCluster n c).narrow = s.narrow := rfl
@[simp] theorem State.setCluster_walks (s : State) (n : Nat) (c : Cluster) : (s.setCluster n c).walks = s.walks := rfl
@[simp] theorem State.setCluster_walkers (s : State) (n : Nat) (c : Cluster) : (s.setCluster n c).walkers = s.walkers := rfl
@[simp] theorem State.setCluster_cmds (s : State) (n : Nat) (c : Cluster) : (s.setCluster n c).cmds = s.cmds := rfl
@[simp] theorem State.setCluster_mmas (s : State) (n : Nat) (c : Cluster) : (s.setCluster n c).mmas = s.mmas := rfl
@[simp] theorem State.setCluster_flights (s : State) (n : Nat) (c : Cluster) : (s.setCluster n c).flights = s.flights := rfl
@[simp] theorem State.setCluster_watches (s : State) (n : Nat) (c : Cluster) : (s.setCluster n c).watches = s.watches := rfl
@[simp] theorem State.setCluster_launches (s : State) (n : Nat) (c : Cluster) : (s.setCluster n c).launches = s.launches := rfl
@[simp] theorem State.setCluster_pushes (s : State) (n : Nat) (c : Cluster) : (s.setCluster n c).pushes = s.pushes := rfl
@[simp] theorem State.setCluster_accepted (s : State) (n : Nat) (c : Cluster) : (s.setCluster n c).accepted = s.accepted := rfl
@[simp] theorem State.setCluster_ringCmds (s : State) (n : Nat) (c : Cluster) : (s.setCluster n c).ringCmds = s.ringCmds := rfl
@[simp] theorem State.setCluster_handles (s : State) (n : Nat) (c : Cluster) : (s.setCluster n c).handles = s.handles := rfl
@[simp] theorem State.setCluster_posts (s : State) (n : Nat) (c : Cluster) : (s.setCluster n c).posts = s.posts := rfl
@[simp] theorem State.setCluster_frames (s : State) (n : Nat) (c : Cluster) : (s.setCluster n c).frames = s.frames := rfl
@[simp] theorem State.setCluster_moves (s : State) (n : Nat) (c : Cluster) : (s.setCluster n c).moves = s.moves := rfl
@[simp] theorem State.setCluster_regs (s : State) (n : Nat) (c : Cluster) : (s.setCluster n c).regs = s.regs := rfl

/-! ### State.setDie -/

@[simp] theorem State.setDie_powered (s : State) (d : Nat) (x : Die) : (s.setDie d x).powered = s.powered := rfl
@[simp] theorem State.setDie_now (s : State) (d : Nat) (x : Die) : (s.setDie d x).now = s.now := rfl
@[simp] theorem State.setDie_agenda (s : State) (d : Nat) (x : Die) : (s.setDie d x).agenda = s.agenda := rfl
@[simp] theorem State.setDie_focus (s : State) (d : Nat) (x : Die) : (s.setDie d x).focus = s.focus := rfl
@[simp] theorem State.setDie_fresh (s : State) (d : Nat) (x : Die) : (s.setDie d x).fresh = s.fresh := rfl
@[simp] theorem State.setDie_nextId (s : State) (d : Nat) (x : Die) : (s.setDie d x).nextId = s.nextId := rfl
@[simp] theorem State.setDie_cores (s : State) (d : Nat) (x : Die) : (s.setDie d x).cores = s.cores := rfl
@[simp] theorem State.setDie_ctxs (s : State) (d : Nat) (x : Die) : (s.setDie d x).ctxs = s.ctxs := rfl
@[simp] theorem State.setDie_clusters (s : State) (d : Nat) (x : Die) : (s.setDie d x).clusters = s.clusters := rfl
@[simp] theorem State.setDie_lclockF (s : State) (d : Nat) (x : Die) : (s.setDie d x).lclockF = s.lclockF := rfl
@[simp] theorem State.setDie_mem (s : State) (d : Nat) (x : Die) : (s.setDie d x).mem = s.mem := rfl
@[simp] theorem State.setDie_l2 (s : State) (d : Nat) (x : Die) : (s.setDie d x).l2 = s.l2 := rfl
@[simp] theorem State.setDie_bayLines (s : State) (d : Nat) (x : Die) : (s.setDie d x).bayLines = s.bayLines := rfl
@[simp] theorem State.setDie_uniLines (s : State) (d : Nat) (x : Die) : (s.setDie d x).uniLines = s.uniLines := rfl
@[simp] theorem State.setDie_badGranules (s : State) (d : Nat) (x : Die) : (s.setDie d x).badGranules = s.badGranules := rfl
@[simp] theorem State.setDie_downLinks (s : State) (d : Nat) (x : Die) : (s.setDie d x).downLinks = s.downLinks := rfl
@[simp] theorem State.setDie_codeWas (s : State) (d : Nat) (x : Die) : (s.setDie d x).codeWas = s.codeWas := rfl
@[simp] theorem State.setDie_code (s : State) (d : Nat) (x : Die) : (s.setDie d x).code = s.code := rfl
@[simp] theorem State.setDie_accs (s : State) (d : Nat) (x : Die) : (s.setDie d x).accs = s.accs := rfl
@[simp] theorem State.setDie_narrow (s : State) (d : Nat) (x : Die) : (s.setDie d x).narrow = s.narrow := rfl
@[simp] theorem State.setDie_walks (s : State) (d : Nat) (x : Die) : (s.setDie d x).walks = s.walks := rfl
@[simp] theorem State.setDie_walkers (s : State) (d : Nat) (x : Die) : (s.setDie d x).walkers = s.walkers := rfl
@[simp] theorem State.setDie_cmds (s : State) (d : Nat) (x : Die) : (s.setDie d x).cmds = s.cmds := rfl
@[simp] theorem State.setDie_mmas (s : State) (d : Nat) (x : Die) : (s.setDie d x).mmas = s.mmas := rfl
@[simp] theorem State.setDie_flights (s : State) (d : Nat) (x : Die) : (s.setDie d x).flights = s.flights := rfl
@[simp] theorem State.setDie_watches (s : State) (d : Nat) (x : Die) : (s.setDie d x).watches = s.watches := rfl
@[simp] theorem State.setDie_launches (s : State) (d : Nat) (x : Die) : (s.setDie d x).launches = s.launches := rfl
@[simp] theorem State.setDie_pushes (s : State) (d : Nat) (x : Die) : (s.setDie d x).pushes = s.pushes := rfl
@[simp] theorem State.setDie_accepted (s : State) (d : Nat) (x : Die) : (s.setDie d x).accepted = s.accepted := rfl
@[simp] theorem State.setDie_ringCmds (s : State) (d : Nat) (x : Die) : (s.setDie d x).ringCmds = s.ringCmds := rfl
@[simp] theorem State.setDie_handles (s : State) (d : Nat) (x : Die) : (s.setDie d x).handles = s.handles := rfl
@[simp] theorem State.setDie_posts (s : State) (d : Nat) (x : Die) : (s.setDie d x).posts = s.posts := rfl
@[simp] theorem State.setDie_frames (s : State) (d : Nat) (x : Die) : (s.setDie d x).frames = s.frames := rfl
@[simp] theorem State.setDie_moves (s : State) (d : Nat) (x : Die) : (s.setDie d x).moves = s.moves := rfl
@[simp] theorem State.setDie_regs (s : State) (d : Nat) (x : Die) : (s.setDie d x).regs = s.regs := rfl

/-! ### State.modLaunch -/

@[simp] theorem State.modLaunch_powered (s : State) (l : Nat) (f : Launch → Launch) : (s.modLaunch l f).powered = s.powered := rfl
@[simp] theorem State.modLaunch_now (s : State) (l : Nat) (f : Launch → Launch) : (s.modLaunch l f).now = s.now := rfl
@[simp] theorem State.modLaunch_agenda (s : State) (l : Nat) (f : Launch → Launch) : (s.modLaunch l f).agenda = s.agenda := rfl
@[simp] theorem State.modLaunch_focus (s : State) (l : Nat) (f : Launch → Launch) : (s.modLaunch l f).focus = s.focus := rfl
@[simp] theorem State.modLaunch_fresh (s : State) (l : Nat) (f : Launch → Launch) : (s.modLaunch l f).fresh = s.fresh := rfl
@[simp] theorem State.modLaunch_nextId (s : State) (l : Nat) (f : Launch → Launch) : (s.modLaunch l f).nextId = s.nextId := rfl
@[simp] theorem State.modLaunch_cores (s : State) (l : Nat) (f : Launch → Launch) : (s.modLaunch l f).cores = s.cores := rfl
@[simp] theorem State.modLaunch_ctxs (s : State) (l : Nat) (f : Launch → Launch) : (s.modLaunch l f).ctxs = s.ctxs := rfl
@[simp] theorem State.modLaunch_clusters (s : State) (l : Nat) (f : Launch → Launch) : (s.modLaunch l f).clusters = s.clusters := rfl
@[simp] theorem State.modLaunch_dies (s : State) (l : Nat) (f : Launch → Launch) : (s.modLaunch l f).dies = s.dies := rfl
@[simp] theorem State.modLaunch_lclockF (s : State) (l : Nat) (f : Launch → Launch) : (s.modLaunch l f).lclockF = s.lclockF := rfl
@[simp] theorem State.modLaunch_mem (s : State) (l : Nat) (f : Launch → Launch) : (s.modLaunch l f).mem = s.mem := rfl
@[simp] theorem State.modLaunch_l2 (s : State) (l : Nat) (f : Launch → Launch) : (s.modLaunch l f).l2 = s.l2 := rfl
@[simp] theorem State.modLaunch_bayLines (s : State) (l : Nat) (f : Launch → Launch) : (s.modLaunch l f).bayLines = s.bayLines := rfl
@[simp] theorem State.modLaunch_uniLines (s : State) (l : Nat) (f : Launch → Launch) : (s.modLaunch l f).uniLines = s.uniLines := rfl
@[simp] theorem State.modLaunch_badGranules (s : State) (l : Nat) (f : Launch → Launch) : (s.modLaunch l f).badGranules = s.badGranules := rfl
@[simp] theorem State.modLaunch_downLinks (s : State) (l : Nat) (f : Launch → Launch) : (s.modLaunch l f).downLinks = s.downLinks := rfl
@[simp] theorem State.modLaunch_codeWas (s : State) (l : Nat) (f : Launch → Launch) : (s.modLaunch l f).codeWas = s.codeWas := rfl
@[simp] theorem State.modLaunch_code (s : State) (l : Nat) (f : Launch → Launch) : (s.modLaunch l f).code = s.code := rfl
@[simp] theorem State.modLaunch_accs (s : State) (l : Nat) (f : Launch → Launch) : (s.modLaunch l f).accs = s.accs := rfl
@[simp] theorem State.modLaunch_narrow (s : State) (l : Nat) (f : Launch → Launch) : (s.modLaunch l f).narrow = s.narrow := rfl
@[simp] theorem State.modLaunch_walks (s : State) (l : Nat) (f : Launch → Launch) : (s.modLaunch l f).walks = s.walks := rfl
@[simp] theorem State.modLaunch_walkers (s : State) (l : Nat) (f : Launch → Launch) : (s.modLaunch l f).walkers = s.walkers := rfl
@[simp] theorem State.modLaunch_cmds (s : State) (l : Nat) (f : Launch → Launch) : (s.modLaunch l f).cmds = s.cmds := rfl
@[simp] theorem State.modLaunch_mmas (s : State) (l : Nat) (f : Launch → Launch) : (s.modLaunch l f).mmas = s.mmas := rfl
@[simp] theorem State.modLaunch_flights (s : State) (l : Nat) (f : Launch → Launch) : (s.modLaunch l f).flights = s.flights := rfl
@[simp] theorem State.modLaunch_watches (s : State) (l : Nat) (f : Launch → Launch) : (s.modLaunch l f).watches = s.watches := rfl
@[simp] theorem State.modLaunch_pushes (s : State) (l : Nat) (f : Launch → Launch) : (s.modLaunch l f).pushes = s.pushes := rfl
@[simp] theorem State.modLaunch_accepted (s : State) (l : Nat) (f : Launch → Launch) : (s.modLaunch l f).accepted = s.accepted := rfl
@[simp] theorem State.modLaunch_ringCmds (s : State) (l : Nat) (f : Launch → Launch) : (s.modLaunch l f).ringCmds = s.ringCmds := rfl
@[simp] theorem State.modLaunch_handles (s : State) (l : Nat) (f : Launch → Launch) : (s.modLaunch l f).handles = s.handles := rfl
@[simp] theorem State.modLaunch_posts (s : State) (l : Nat) (f : Launch → Launch) : (s.modLaunch l f).posts = s.posts := rfl
@[simp] theorem State.modLaunch_frames (s : State) (l : Nat) (f : Launch → Launch) : (s.modLaunch l f).frames = s.frames := rfl
@[simp] theorem State.modLaunch_moves (s : State) (l : Nat) (f : Launch → Launch) : (s.modLaunch l f).moves = s.moves := rfl
@[simp] theorem State.modLaunch_regs (s : State) (l : Nat) (f : Launch → Launch) : (s.modLaunch l f).regs = s.regs := rfl

/-! ### Ctx.setG -/

@[simp] theorem Ctx.setG_uid (c : Ctx) (n : BitVec 6) (x : W72) : (c.setG n x).uid = c.uid := rfl
@[simp] theorem Ctx.setG_launch (c : Ctx) (n : BitVec 6) (x : W72) : (c.setG n x).launch = c.launch := rfl
@[simp] theorem Ctx.setG_ring (c : Ctx) (n : BitVec 6) (x : W72) : (c.setG n x).ring = c.ring := rfl
@[simp] theorem Ctx.setG_barge (c : Ctx) (n : BitVec 6) (x : W72) : (c.setG n x).barge = c.barge := rfl
@[simp] theorem Ctx.setG_entry (c : Ctx) (n : BitVec 6) (x : W72) : (c.setG n x).entry = c.entry := rfl
@[simp] theorem Ctx.setG_level (c : Ctx) (n : BitVec 6) (x : W72) : (c.setG n x).level = c.level := rfl
@[simp] theorem Ctx.setG_bays (c : Ctx) (n : BitVec 6) (x : W72) : (c.setG n x).bays = c.bays := rfl
@[simp] theorem Ctx.setG_status (c : Ctx) (n : BitVec 6) (x : W72) : (c.setG n x).status = c.status := rfl
@[simp] theorem Ctx.setG_since (c : Ctx) (n : BitVec 6) (x : W72) : (c.setG n x).since = c.since := rfl
@[simp] theorem Ctx.setG_formed (c : Ctx) (n : BitVec 6) (x : W72) : (c.setG n x).formed = c.formed := rfl
@[simp] theorem Ctx.setG_wait (c : Ctx) (n : BitVec 6) (x : W72) : (c.setG n x).wait = c.wait := rfl
@[simp] theorem Ctx.setG_pc (c : Ctx) (n : BitVec 6) (x : W72) : (c.setG n x).pc = c.pc := rfl
@[simp] theorem Ctx.setG_bubble (c : Ctx) (n : BitVec 6) (x : W72) : (c.setG n x).bubble = c.bubble := rfl
@[simp] theorem Ctx.setG_gt (c : Ctx) (n : BitVec 6) (x : W72) : (c.setG n x).gt = c.gt := rfl
@[simp] theorem Ctx.setG_k (c : Ctx) (n : BitVec 6) (x : W72) : (c.setG n x).k = c.k := rfl
@[simp] theorem Ctx.setG_slots (c : Ctx) (n : BitVec 6) (x : W72) : (c.setG n x).slots = c.slots := rfl
@[simp] theorem Ctx.setG_h (c : Ctx) (n : BitVec 6) (x : W72) : (c.setG n x).h = c.h := rfl
@[simp] theorem Ctx.setG_count (c : Ctx) (n : BitVec 6) (x : W72) : (c.setG n x).count = c.count := rfl
@[simp] theorem Ctx.setG_deadline (c : Ctx) (n : BitVec 6) (x : W72) : (c.setG n x).deadline = c.deadline := rfl
@[simp] theorem Ctx.setG_retired (c : Ctx) (n : BitVec 6) (x : W72) : (c.setG n x).retired = c.retired := rfl
@[simp] theorem Ctx.setG_ttag (c : Ctx) (n : BitVec 6) (x : W72) : (c.setG n x).ttag = c.ttag := rfl
@[simp] theorem Ctx.setG_uscratch (c : Ctx) (n : BitVec 6) (x : W72) : (c.setG n x).uscratch = c.uscratch := rfl
@[simp] theorem Ctx.setG_nextE (c : Ctx) (n : BitVec 6) (x : W72) : (c.setG n x).nextE = c.nextE := rfl
@[simp] theorem Ctx.setG_ops (c : Ctx) (n : BitVec 6) (x : W72) : (c.setG n x).ops = c.ops := rfl
@[simp] theorem Ctx.setG_genSeq (c : Ctx) (n : BitVec 6) (x : W72) : (c.setG n x).genSeq = c.genSeq := rfl
@[simp] theorem Ctx.setG_queue (c : Ctx) (n : BitVec 6) (x : W72) : (c.setG n x).queue = c.queue := rfl
@[simp] theorem Ctx.setG_votes (c : Ctx) (n : BitVec 6) (x : W72) : (c.setG n x).votes = c.votes := rfl
@[simp] theorem Ctx.setG_stretch (c : Ctx) (n : BitVec 6) (x : W72) : (c.setG n x).stretch = c.stretch := rfl
@[simp] theorem Ctx.setG_held (c : Ctx) (n : BitVec 6) (x : W72) : (c.setG n x).held = c.held := rfl
@[simp] theorem Ctx.setG_credit (c : Ctx) (n : BitVec 6) (x : W72) : (c.setG n x).credit = c.credit := rfl
@[simp] theorem Ctx.setG_monitor (c : Ctx) (n : BitVec 6) (x : W72) : (c.setG n x).monitor = c.monitor := rfl
@[simp] theorem Ctx.setG_save (c : Ctx) (n : BitVec 6) (x : W72) : (c.setG n x).save = c.save := rfl
@[simp] theorem Ctx.setG_stop (c : Ctx) (n : BitVec 6) (x : W72) : (c.setG n x).stop = c.stop := rfl
@[simp] theorem Ctx.setG_counts (c : Ctx) (n : BitVec 6) (x : W72) : (c.setG n x).counts = c.counts := rfl

/-! ### Ctx.setK -/

@[simp] theorem Ctx.setK_uid (c : Ctx) (n : BitVec 3) (b : Bool) : (c.setK n b).uid = c.uid := rfl
@[simp] theorem Ctx.setK_launch (c : Ctx) (n : BitVec 3) (b : Bool) : (c.setK n b).launch = c.launch := rfl
@[simp] theorem Ctx.setK_ring (c : Ctx) (n : BitVec 3) (b : Bool) : (c.setK n b).ring = c.ring := rfl
@[simp] theorem Ctx.setK_barge (c : Ctx) (n : BitVec 3) (b : Bool) : (c.setK n b).barge = c.barge := rfl
@[simp] theorem Ctx.setK_entry (c : Ctx) (n : BitVec 3) (b : Bool) : (c.setK n b).entry = c.entry := rfl
@[simp] theorem Ctx.setK_level (c : Ctx) (n : BitVec 3) (b : Bool) : (c.setK n b).level = c.level := rfl
@[simp] theorem Ctx.setK_bays (c : Ctx) (n : BitVec 3) (b : Bool) : (c.setK n b).bays = c.bays := rfl
@[simp] theorem Ctx.setK_status (c : Ctx) (n : BitVec 3) (b : Bool) : (c.setK n b).status = c.status := rfl
@[simp] theorem Ctx.setK_since (c : Ctx) (n : BitVec 3) (b : Bool) : (c.setK n b).since = c.since := rfl
@[simp] theorem Ctx.setK_formed (c : Ctx) (n : BitVec 3) (b : Bool) : (c.setK n b).formed = c.formed := rfl
@[simp] theorem Ctx.setK_wait (c : Ctx) (n : BitVec 3) (b : Bool) : (c.setK n b).wait = c.wait := rfl
@[simp] theorem Ctx.setK_pc (c : Ctx) (n : BitVec 3) (b : Bool) : (c.setK n b).pc = c.pc := rfl
@[simp] theorem Ctx.setK_bubble (c : Ctx) (n : BitVec 3) (b : Bool) : (c.setK n b).bubble = c.bubble := rfl
@[simp] theorem Ctx.setK_g (c : Ctx) (n : BitVec 3) (b : Bool) : (c.setK n b).g = c.g := rfl
@[simp] theorem Ctx.setK_gt (c : Ctx) (n : BitVec 3) (b : Bool) : (c.setK n b).gt = c.gt := rfl
@[simp] theorem Ctx.setK_slots (c : Ctx) (n : BitVec 3) (b : Bool) : (c.setK n b).slots = c.slots := rfl
@[simp] theorem Ctx.setK_h (c : Ctx) (n : BitVec 3) (b : Bool) : (c.setK n b).h = c.h := rfl
@[simp] theorem Ctx.setK_count (c : Ctx) (n : BitVec 3) (b : Bool) : (c.setK n b).count = c.count := rfl
@[simp] theorem Ctx.setK_deadline (c : Ctx) (n : BitVec 3) (b : Bool) : (c.setK n b).deadline = c.deadline := rfl
@[simp] theorem Ctx.setK_retired (c : Ctx) (n : BitVec 3) (b : Bool) : (c.setK n b).retired = c.retired := rfl
@[simp] theorem Ctx.setK_ttag (c : Ctx) (n : BitVec 3) (b : Bool) : (c.setK n b).ttag = c.ttag := rfl
@[simp] theorem Ctx.setK_uscratch (c : Ctx) (n : BitVec 3) (b : Bool) : (c.setK n b).uscratch = c.uscratch := rfl
@[simp] theorem Ctx.setK_nextE (c : Ctx) (n : BitVec 3) (b : Bool) : (c.setK n b).nextE = c.nextE := rfl
@[simp] theorem Ctx.setK_ops (c : Ctx) (n : BitVec 3) (b : Bool) : (c.setK n b).ops = c.ops := rfl
@[simp] theorem Ctx.setK_genSeq (c : Ctx) (n : BitVec 3) (b : Bool) : (c.setK n b).genSeq = c.genSeq := rfl
@[simp] theorem Ctx.setK_queue (c : Ctx) (n : BitVec 3) (b : Bool) : (c.setK n b).queue = c.queue := rfl
@[simp] theorem Ctx.setK_votes (c : Ctx) (n : BitVec 3) (b : Bool) : (c.setK n b).votes = c.votes := rfl
@[simp] theorem Ctx.setK_stretch (c : Ctx) (n : BitVec 3) (b : Bool) : (c.setK n b).stretch = c.stretch := rfl
@[simp] theorem Ctx.setK_held (c : Ctx) (n : BitVec 3) (b : Bool) : (c.setK n b).held = c.held := rfl
@[simp] theorem Ctx.setK_credit (c : Ctx) (n : BitVec 3) (b : Bool) : (c.setK n b).credit = c.credit := rfl
@[simp] theorem Ctx.setK_monitor (c : Ctx) (n : BitVec 3) (b : Bool) : (c.setK n b).monitor = c.monitor := rfl
@[simp] theorem Ctx.setK_save (c : Ctx) (n : BitVec 3) (b : Bool) : (c.setK n b).save = c.save := rfl
@[simp] theorem Ctx.setK_stop (c : Ctx) (n : BitVec 3) (b : Bool) : (c.setK n b).stop = c.stop := rfl
@[simp] theorem Ctx.setK_counts (c : Ctx) (n : BitVec 3) (b : Bool) : (c.setK n b).counts = c.counts := rfl

/-! ### Ctx.setSlot -/

@[simp] theorem Ctx.setSlot_uid (c : Ctx) (f : BitVec 6) (x : Slot) : (c.setSlot f x).uid = c.uid := rfl
@[simp] theorem Ctx.setSlot_launch (c : Ctx) (f : BitVec 6) (x : Slot) : (c.setSlot f x).launch = c.launch := rfl
@[simp] theorem Ctx.setSlot_ring (c : Ctx) (f : BitVec 6) (x : Slot) : (c.setSlot f x).ring = c.ring := rfl
@[simp] theorem Ctx.setSlot_barge (c : Ctx) (f : BitVec 6) (x : Slot) : (c.setSlot f x).barge = c.barge := rfl
@[simp] theorem Ctx.setSlot_entry (c : Ctx) (f : BitVec 6) (x : Slot) : (c.setSlot f x).entry = c.entry := rfl
@[simp] theorem Ctx.setSlot_level (c : Ctx) (f : BitVec 6) (x : Slot) : (c.setSlot f x).level = c.level := rfl
@[simp] theorem Ctx.setSlot_bays (c : Ctx) (f : BitVec 6) (x : Slot) : (c.setSlot f x).bays = c.bays := rfl
@[simp] theorem Ctx.setSlot_status (c : Ctx) (f : BitVec 6) (x : Slot) : (c.setSlot f x).status = c.status := rfl
@[simp] theorem Ctx.setSlot_since (c : Ctx) (f : BitVec 6) (x : Slot) : (c.setSlot f x).since = c.since := rfl
@[simp] theorem Ctx.setSlot_formed (c : Ctx) (f : BitVec 6) (x : Slot) : (c.setSlot f x).formed = c.formed := rfl
@[simp] theorem Ctx.setSlot_wait (c : Ctx) (f : BitVec 6) (x : Slot) : (c.setSlot f x).wait = c.wait := rfl
@[simp] theorem Ctx.setSlot_pc (c : Ctx) (f : BitVec 6) (x : Slot) : (c.setSlot f x).pc = c.pc := rfl
@[simp] theorem Ctx.setSlot_bubble (c : Ctx) (f : BitVec 6) (x : Slot) : (c.setSlot f x).bubble = c.bubble := rfl
@[simp] theorem Ctx.setSlot_g (c : Ctx) (f : BitVec 6) (x : Slot) : (c.setSlot f x).g = c.g := rfl
@[simp] theorem Ctx.setSlot_gt (c : Ctx) (f : BitVec 6) (x : Slot) : (c.setSlot f x).gt = c.gt := rfl
@[simp] theorem Ctx.setSlot_k (c : Ctx) (f : BitVec 6) (x : Slot) : (c.setSlot f x).k = c.k := rfl
@[simp] theorem Ctx.setSlot_h (c : Ctx) (f : BitVec 6) (x : Slot) : (c.setSlot f x).h = c.h := rfl
@[simp] theorem Ctx.setSlot_count (c : Ctx) (f : BitVec 6) (x : Slot) : (c.setSlot f x).count = c.count := rfl
@[simp] theorem Ctx.setSlot_deadline (c : Ctx) (f : BitVec 6) (x : Slot) : (c.setSlot f x).deadline = c.deadline := rfl
@[simp] theorem Ctx.setSlot_retired (c : Ctx) (f : BitVec 6) (x : Slot) : (c.setSlot f x).retired = c.retired := rfl
@[simp] theorem Ctx.setSlot_ttag (c : Ctx) (f : BitVec 6) (x : Slot) : (c.setSlot f x).ttag = c.ttag := rfl
@[simp] theorem Ctx.setSlot_uscratch (c : Ctx) (f : BitVec 6) (x : Slot) : (c.setSlot f x).uscratch = c.uscratch := rfl
@[simp] theorem Ctx.setSlot_nextE (c : Ctx) (f : BitVec 6) (x : Slot) : (c.setSlot f x).nextE = c.nextE := rfl
@[simp] theorem Ctx.setSlot_ops (c : Ctx) (f : BitVec 6) (x : Slot) : (c.setSlot f x).ops = c.ops := rfl
@[simp] theorem Ctx.setSlot_genSeq (c : Ctx) (f : BitVec 6) (x : Slot) : (c.setSlot f x).genSeq = c.genSeq := rfl
@[simp] theorem Ctx.setSlot_queue (c : Ctx) (f : BitVec 6) (x : Slot) : (c.setSlot f x).queue = c.queue := rfl
@[simp] theorem Ctx.setSlot_votes (c : Ctx) (f : BitVec 6) (x : Slot) : (c.setSlot f x).votes = c.votes := rfl
@[simp] theorem Ctx.setSlot_stretch (c : Ctx) (f : BitVec 6) (x : Slot) : (c.setSlot f x).stretch = c.stretch := rfl
@[simp] theorem Ctx.setSlot_held (c : Ctx) (f : BitVec 6) (x : Slot) : (c.setSlot f x).held = c.held := rfl
@[simp] theorem Ctx.setSlot_credit (c : Ctx) (f : BitVec 6) (x : Slot) : (c.setSlot f x).credit = c.credit := rfl
@[simp] theorem Ctx.setSlot_monitor (c : Ctx) (f : BitVec 6) (x : Slot) : (c.setSlot f x).monitor = c.monitor := rfl
@[simp] theorem Ctx.setSlot_save (c : Ctx) (f : BitVec 6) (x : Slot) : (c.setSlot f x).save = c.save := rfl
@[simp] theorem Ctx.setSlot_stop (c : Ctx) (f : BitVec 6) (x : Slot) : (c.setSlot f x).stop = c.stop := rfl
@[simp] theorem Ctx.setSlot_counts (c : Ctx) (f : BitVec 6) (x : Slot) : (c.setSlot f x).counts = c.counts := rfl

/-! ### What is read after an update -/

@[simp] theorem State.ctx?_setCtx_same (s : State) (n slot : Nat) (c : Ctx) : (s.setCtx n slot c).ctx? n slot = some c := by
  simp [State.ctx?, State.setCtx]

theorem State.tget_ctxs_setCtx (s : State) (n slot k : Nat) (c : Ctx) (h : k ≠ ctxKey n slot) :
    tget (s.setCtx n slot c).ctxs k = tget s.ctxs k := tget_tput_other _ h _

/-- Two updates of one context leave the later. -/
theorem State.setCtx_setCtx (s : State) (n slot : Nat) (c d : Ctx) : (s.setCtx n slot c).setCtx n slot d = s.setCtx n slot d := by
  simp [State.setCtx, tput_tput]

@[simp] theorem State.ctx?_setCluster (s : State) (m n slot : Nat) (c : Cluster) : (s.setCluster m c).ctx? n slot = s.ctx? n slot := rfl
@[simp] theorem State.ctx?_setCore (s : State) (m k n slot : Nat) (c : Core) : (s.setCore m k c).ctx? n slot = s.ctx? n slot := rfl
@[simp] theorem State.core?_setCtx (s : State) (n slot m k : Nat) (c : Ctx) : (s.setCtx n slot c).core? m k = s.core? m k := rfl
@[simp] theorem State.core?_setCluster (s : State) (n m k : Nat) (c : Cluster) : (s.setCluster n c).core? m k = s.core? m k := rfl
@[simp] theorem State.core?_setCore_same (s : State) (n k : Nat) (c : Core) : (s.setCore n k c).core? n k = some c := by
  simp [State.core?, State.setCore]

@[simp] theorem State.cluster_setCtx (s : State) (n slot m : Nat) (c : Ctx) : (s.setCtx n slot c).cluster m = s.cluster m := rfl
@[simp] theorem State.cluster_setCore (s : State) (n k m : Nat) (c : Core) : (s.setCore n k c).cluster m = s.cluster m := rfl
theorem State.cluster_setCluster (s : State) (n m : Nat) (c : Cluster) : (s.setCluster n c).cluster m = if m = n then c else s.cluster m := by
  simp only [State.cluster, State.setCluster, tgetD_tput]
@[simp] theorem State.cluster_setCluster_same (s : State) (n : Nat) (c : Cluster) : (s.setCluster n c).cluster n = c := by
  simp [State.cluster_setCluster]
theorem State.setCluster_setCluster (s : State) (n : Nat) (c d : Cluster) : (s.setCluster n c).setCluster n d = s.setCluster n d := by
  simp [State.setCluster, tput_tput]

theorem Ctx.gv_setG (c : Ctx) (d g : BitVec 6) (x : W72) : (c.setG d x).gv g = if g = d then x else c.gv g := by
  simp only [Ctx.gv, Ctx.setG, tgetD_tput, BitVec.toNat_inj]
@[simp] theorem Ctx.gv_setG_same (c : Ctx) (d : BitVec 6) (x : W72) : (c.setG d x).gv d = x := by simp [Ctx.gv_setG]
@[simp] theorem Ctx.slot_setSlot_same (c : Ctx) (f : BitVec 6) (x : Slot) : (c.setSlot f x).slot f = x := by
  simp [Ctx.slot, Ctx.setSlot]
theorem Ctx.slot_setSlot (c : Ctx) (f h : BitVec 6) (x : Slot) : (c.setSlot f x).slot h = if h = f then x else c.slot h := by
  simp only [Ctx.slot, Ctx.setSlot, tgetD_tput, BitVec.toNat_inj]

/-- Becoming READY is a write of the context, so that what holds of `setCtx` holds of it. -/
@[simp] theorem State.setReady_eq (s : State) (n slot : Nat) (c : Ctx) :
    s.setReady n slot c = s.setCtx n slot { c with status := .ready, since := s.now, readyAt := (s.cluster n).gcycle } := rfl

/-! ### Messages: only clocks change -/

theorem State.message_rest (s : State) (a b : Option Nat) :
    s.message a b = { s with dies := (s.message a b).dies, lclockF := (s.message a b).lclockF } := by
  cases b <;> rfl

@[simp] theorem State.message_powered (s : State) (a b : Option Nat) : (s.message a b).powered = s.powered := by cases b <;> rfl
@[simp] theorem State.message_now (s : State) (a b : Option Nat) : (s.message a b).now = s.now := by cases b <;> rfl
@[simp] theorem State.message_agenda (s : State) (a b : Option Nat) : (s.message a b).agenda = s.agenda := by cases b <;> rfl
@[simp] theorem State.message_focus (s : State) (a b : Option Nat) : (s.message a b).focus = s.focus := by cases b <;> rfl
@[simp] theorem State.message_fresh (s : State) (a b : Option Nat) : (s.message a b).fresh = s.fresh := by cases b <;> rfl
@[simp] theorem State.message_nextId (s : State) (a b : Option Nat) : (s.message a b).nextId = s.nextId := by cases b <;> rfl
@[simp] theorem State.message_cores (s : State) (a b : Option Nat) : (s.message a b).cores = s.cores := by cases b <;> rfl
@[simp] theorem State.message_ctxs (s : State) (a b : Option Nat) : (s.message a b).ctxs = s.ctxs := by cases b <;> rfl
@[simp] theorem State.message_clusters (s : State) (a b : Option Nat) : (s.message a b).clusters = s.clusters := by cases b <;> rfl
@[simp] theorem State.message_mem (s : State) (a b : Option Nat) : (s.message a b).mem = s.mem := by cases b <;> rfl
@[simp] theorem State.message_l2 (s : State) (a b : Option Nat) : (s.message a b).l2 = s.l2 := by cases b <;> rfl
@[simp] theorem State.message_bayLines (s : State) (a b : Option Nat) : (s.message a b).bayLines = s.bayLines := by cases b <;> rfl
@[simp] theorem State.message_uniLines (s : State) (a b : Option Nat) : (s.message a b).uniLines = s.uniLines := by cases b <;> rfl
@[simp] theorem State.message_badGranules (s : State) (a b : Option Nat) : (s.message a b).badGranules = s.badGranules := by cases b <;> rfl
@[simp] theorem State.message_downLinks (s : State) (a b : Option Nat) : (s.message a b).downLinks = s.downLinks := by cases b <;> rfl
@[simp] theorem State.message_codeWas (s : State) (a b : Option Nat) : (s.message a b).codeWas = s.codeWas := by cases b <;> rfl
@[simp] theorem State.message_code (s : State) (a b : Option Nat) : (s.message a b).code = s.code := by cases b <;> rfl
@[simp] theorem State.message_accs (s : State) (a b : Option Nat) : (s.message a b).accs = s.accs := by cases b <;> rfl
@[simp] theorem State.message_narrow (s : State) (a b : Option Nat) : (s.message a b).narrow = s.narrow := by cases b <;> rfl
@[simp] theorem State.message_walks (s : State) (a b : Option Nat) : (s.message a b).walks = s.walks := by cases b <;> rfl
@[simp] theorem State.message_walkers (s : State) (a b : Option Nat) : (s.message a b).walkers = s.walkers := by cases b <;> rfl
@[simp] theorem State.message_cmds (s : State) (a b : Option Nat) : (s.message a b).cmds = s.cmds := by cases b <;> rfl
@[simp] theorem State.message_mmas (s : State) (a b : Option Nat) : (s.message a b).mmas = s.mmas := by cases b <;> rfl
@[simp] theorem State.message_flights (s : State) (a b : Option Nat) : (s.message a b).flights = s.flights := by cases b <;> rfl
@[simp] theorem State.message_watches (s : State) (a b : Option Nat) : (s.message a b).watches = s.watches := by cases b <;> rfl
@[simp] theorem State.message_launches (s : State) (a b : Option Nat) : (s.message a b).launches = s.launches := by cases b <;> rfl
@[simp] theorem State.message_pushes (s : State) (a b : Option Nat) : (s.message a b).pushes = s.pushes := by cases b <;> rfl
@[simp] theorem State.message_accepted (s : State) (a b : Option Nat) : (s.message a b).accepted = s.accepted := by cases b <;> rfl
@[simp] theorem State.message_ringCmds (s : State) (a b : Option Nat) : (s.message a b).ringCmds = s.ringCmds := by cases b <;> rfl
@[simp] theorem State.message_handles (s : State) (a b : Option Nat) : (s.message a b).handles = s.handles := by cases b <;> rfl
@[simp] theorem State.message_posts (s : State) (a b : Option Nat) : (s.message a b).posts = s.posts := by cases b <;> rfl
@[simp] theorem State.message_frames (s : State) (a b : Option Nat) : (s.message a b).frames = s.frames := by cases b <;> rfl
@[simp] theorem State.message_moves (s : State) (a b : Option Nat) : (s.message a b).moves = s.moves := by cases b <;> rfl
@[simp] theorem State.message_regs (s : State) (a b : Option Nat) : (s.message a b).regs = s.regs := by cases b <;> rfl

@[simp] theorem State.exchange_powered (s : State) (d : Nat) : (s.exchange d).powered = s.powered := by simp only [State.exchange, State.message_powered]
@[simp] theorem State.exchange_now (s : State) (d : Nat) : (s.exchange d).now = s.now := by simp only [State.exchange, State.message_now]
@[simp] theorem State.exchange_agenda (s : State) (d : Nat) : (s.exchange d).agenda = s.agenda := by simp only [State.exchange, State.message_agenda]
@[simp] theorem State.exchange_focus (s : State) (d : Nat) : (s.exchange d).focus = s.focus := by simp only [State.exchange, State.message_focus]
@[simp] theorem State.exchange_fresh (s : State) (d : Nat) : (s.exchange d).fresh = s.fresh := by simp only [State.exchange, State.message_fresh]
@[simp] theorem State.exchange_nextId (s : State) (d : Nat) : (s.exchange d).nextId = s.nextId := by simp only [State.exchange, State.message_nextId]
@[simp] theorem State.exchange_cores (s : State) (d : Nat) : (s.exchange d).cores = s.cores := by simp only [State.exchange, State.message_cores]
@[simp] theorem State.exchange_ctxs (s : State) (d : Nat) : (s.exchange d).ctxs = s.ctxs := by simp only [State.exchange, State.message_ctxs]
@[simp] theorem State.exchange_clusters (s : State) (d : Nat) : (s.exchange d).clusters = s.clusters := by simp only [State.exchange, State.message_clusters]
@[simp] theorem State.exchange_mem (s : State) (d : Nat) : (s.exchange d).mem = s.mem := by simp only [State.exchange, State.message_mem]
@[simp] theorem State.exchange_l2 (s : State) (d : Nat) : (s.exchange d).l2 = s.l2 := by simp only [State.exchange, State.message_l2]
@[simp] theorem State.exchange_bayLines (s : State) (d : Nat) : (s.exchange d).bayLines = s.bayLines := by simp only [State.exchange, State.message_bayLines]
@[simp] theorem State.exchange_uniLines (s : State) (d : Nat) : (s.exchange d).uniLines = s.uniLines := by simp only [State.exchange, State.message_uniLines]
@[simp] theorem State.exchange_badGranules (s : State) (d : Nat) : (s.exchange d).badGranules = s.badGranules := by simp only [State.exchange, State.message_badGranules]
@[simp] theorem State.exchange_downLinks (s : State) (d : Nat) : (s.exchange d).downLinks = s.downLinks := by simp only [State.exchange, State.message_downLinks]
@[simp] theorem State.exchange_codeWas (s : State) (d : Nat) : (s.exchange d).codeWas = s.codeWas := by simp only [State.exchange, State.message_codeWas]
@[simp] theorem State.exchange_code (s : State) (d : Nat) : (s.exchange d).code = s.code := by simp only [State.exchange, State.message_code]
@[simp] theorem State.exchange_accs (s : State) (d : Nat) : (s.exchange d).accs = s.accs := by simp only [State.exchange, State.message_accs]
@[simp] theorem State.exchange_narrow (s : State) (d : Nat) : (s.exchange d).narrow = s.narrow := by simp only [State.exchange, State.message_narrow]
@[simp] theorem State.exchange_walks (s : State) (d : Nat) : (s.exchange d).walks = s.walks := by simp only [State.exchange, State.message_walks]
@[simp] theorem State.exchange_walkers (s : State) (d : Nat) : (s.exchange d).walkers = s.walkers := by simp only [State.exchange, State.message_walkers]
@[simp] theorem State.exchange_cmds (s : State) (d : Nat) : (s.exchange d).cmds = s.cmds := by simp only [State.exchange, State.message_cmds]
@[simp] theorem State.exchange_mmas (s : State) (d : Nat) : (s.exchange d).mmas = s.mmas := by simp only [State.exchange, State.message_mmas]
@[simp] theorem State.exchange_flights (s : State) (d : Nat) : (s.exchange d).flights = s.flights := by simp only [State.exchange, State.message_flights]
@[simp] theorem State.exchange_watches (s : State) (d : Nat) : (s.exchange d).watches = s.watches := by simp only [State.exchange, State.message_watches]
@[simp] theorem State.exchange_launches (s : State) (d : Nat) : (s.exchange d).launches = s.launches := by simp only [State.exchange, State.message_launches]
@[simp] theorem State.exchange_pushes (s : State) (d : Nat) : (s.exchange d).pushes = s.pushes := by simp only [State.exchange, State.message_pushes]
@[simp] theorem State.exchange_accepted (s : State) (d : Nat) : (s.exchange d).accepted = s.accepted := by simp only [State.exchange, State.message_accepted]
@[simp] theorem State.exchange_ringCmds (s : State) (d : Nat) : (s.exchange d).ringCmds = s.ringCmds := by simp only [State.exchange, State.message_ringCmds]
@[simp] theorem State.exchange_handles (s : State) (d : Nat) : (s.exchange d).handles = s.handles := by simp only [State.exchange, State.message_handles]
@[simp] theorem State.exchange_posts (s : State) (d : Nat) : (s.exchange d).posts = s.posts := by simp only [State.exchange, State.message_posts]
@[simp] theorem State.exchange_frames (s : State) (d : Nat) : (s.exchange d).frames = s.frames := by simp only [State.exchange, State.message_frames]
@[simp] theorem State.exchange_moves (s : State) (d : Nat) : (s.exchange d).moves = s.moves := by simp only [State.exchange, State.message_moves]
@[simp] theorem State.exchange_regs (s : State) (d : Nat) : (s.exchange d).regs = s.regs := by simp only [State.exchange, State.message_regs]

@[simp] theorem State.reach_powered (s : State) (d pa : Nat) : (s.reach d pa).powered = s.powered := by unfold State.reach; split <;> simp only [State.exchange_powered]
@[simp] theorem State.reach_now (s : State) (d pa : Nat) : (s.reach d pa).now = s.now := by unfold State.reach; split <;> simp only [State.exchange_now]
@[simp] theorem State.reach_agenda (s : State) (d pa : Nat) : (s.reach d pa).agenda = s.agenda := by unfold State.reach; split <;> simp only [State.exchange_agenda]
@[simp] theorem State.reach_focus (s : State) (d pa : Nat) : (s.reach d pa).focus = s.focus := by unfold State.reach; split <;> simp only [State.exchange_focus]
@[simp] theorem State.reach_fresh (s : State) (d pa : Nat) : (s.reach d pa).fresh = s.fresh := by unfold State.reach; split <;> simp only [State.exchange_fresh]
@[simp] theorem State.reach_nextId (s : State) (d pa : Nat) : (s.reach d pa).nextId = s.nextId := by unfold State.reach; split <;> simp only [State.exchange_nextId]
@[simp] theorem State.reach_cores (s : State) (d pa : Nat) : (s.reach d pa).cores = s.cores := by unfold State.reach; split <;> simp only [State.exchange_cores]
@[simp] theorem State.reach_ctxs (s : State) (d pa : Nat) : (s.reach d pa).ctxs = s.ctxs := by unfold State.reach; split <;> simp only [State.exchange_ctxs]
@[simp] theorem State.reach_clusters (s : State) (d pa : Nat) : (s.reach d pa).clusters = s.clusters := by unfold State.reach; split <;> simp only [State.exchange_clusters]
@[simp] theorem State.reach_mem (s : State) (d pa : Nat) : (s.reach d pa).mem = s.mem := by unfold State.reach; split <;> simp only [State.exchange_mem]
@[simp] theorem State.reach_l2 (s : State) (d pa : Nat) : (s.reach d pa).l2 = s.l2 := by unfold State.reach; split <;> simp only [State.exchange_l2]
@[simp] theorem State.reach_bayLines (s : State) (d pa : Nat) : (s.reach d pa).bayLines = s.bayLines := by unfold State.reach; split <;> simp only [State.exchange_bayLines]
@[simp] theorem State.reach_uniLines (s : State) (d pa : Nat) : (s.reach d pa).uniLines = s.uniLines := by unfold State.reach; split <;> simp only [State.exchange_uniLines]
@[simp] theorem State.reach_badGranules (s : State) (d pa : Nat) : (s.reach d pa).badGranules = s.badGranules := by unfold State.reach; split <;> simp only [State.exchange_badGranules]
@[simp] theorem State.reach_downLinks (s : State) (d pa : Nat) : (s.reach d pa).downLinks = s.downLinks := by unfold State.reach; split <;> simp only [State.exchange_downLinks]
@[simp] theorem State.reach_codeWas (s : State) (d pa : Nat) : (s.reach d pa).codeWas = s.codeWas := by unfold State.reach; split <;> simp only [State.exchange_codeWas]
@[simp] theorem State.reach_code (s : State) (d pa : Nat) : (s.reach d pa).code = s.code := by unfold State.reach; split <;> simp only [State.exchange_code]
@[simp] theorem State.reach_accs (s : State) (d pa : Nat) : (s.reach d pa).accs = s.accs := by unfold State.reach; split <;> simp only [State.exchange_accs]
@[simp] theorem State.reach_narrow (s : State) (d pa : Nat) : (s.reach d pa).narrow = s.narrow := by unfold State.reach; split <;> simp only [State.exchange_narrow]
@[simp] theorem State.reach_walks (s : State) (d pa : Nat) : (s.reach d pa).walks = s.walks := by unfold State.reach; split <;> simp only [State.exchange_walks]
@[simp] theorem State.reach_walkers (s : State) (d pa : Nat) : (s.reach d pa).walkers = s.walkers := by unfold State.reach; split <;> simp only [State.exchange_walkers]
@[simp] theorem State.reach_cmds (s : State) (d pa : Nat) : (s.reach d pa).cmds = s.cmds := by unfold State.reach; split <;> simp only [State.exchange_cmds]
@[simp] theorem State.reach_mmas (s : State) (d pa : Nat) : (s.reach d pa).mmas = s.mmas := by unfold State.reach; split <;> simp only [State.exchange_mmas]
@[simp] theorem State.reach_flights (s : State) (d pa : Nat) : (s.reach d pa).flights = s.flights := by unfold State.reach; split <;> simp only [State.exchange_flights]
@[simp] theorem State.reach_watches (s : State) (d pa : Nat) : (s.reach d pa).watches = s.watches := by unfold State.reach; split <;> simp only [State.exchange_watches]
@[simp] theorem State.reach_launches (s : State) (d pa : Nat) : (s.reach d pa).launches = s.launches := by unfold State.reach; split <;> simp only [State.exchange_launches]
@[simp] theorem State.reach_pushes (s : State) (d pa : Nat) : (s.reach d pa).pushes = s.pushes := by unfold State.reach; split <;> simp only [State.exchange_pushes]
@[simp] theorem State.reach_accepted (s : State) (d pa : Nat) : (s.reach d pa).accepted = s.accepted := by unfold State.reach; split <;> simp only [State.exchange_accepted]
@[simp] theorem State.reach_ringCmds (s : State) (d pa : Nat) : (s.reach d pa).ringCmds = s.ringCmds := by unfold State.reach; split <;> simp only [State.exchange_ringCmds]
@[simp] theorem State.reach_handles (s : State) (d pa : Nat) : (s.reach d pa).handles = s.handles := by unfold State.reach; split <;> simp only [State.exchange_handles]
@[simp] theorem State.reach_posts (s : State) (d pa : Nat) : (s.reach d pa).posts = s.posts := by unfold State.reach; split <;> simp only [State.exchange_posts]
@[simp] theorem State.reach_frames (s : State) (d pa : Nat) : (s.reach d pa).frames = s.frames := by unfold State.reach; split <;> simp only [State.exchange_frames]
@[simp] theorem State.reach_moves (s : State) (d pa : Nat) : (s.reach d pa).moves = s.moves := by unfold State.reach; split <;> simp only [State.exchange_moves]
@[simp] theorem State.reach_regs (s : State) (d pa : Nat) : (s.reach d pa).regs = s.regs := by unfold State.reach; split <;> simp only [State.exchange_regs]

theorem State.reach_rest (s : State) (d pa : Nat) : s.reach d pa = { s with dies := (s.reach d pa).dies, lclockF := (s.reach d pa).lclockF } := by
  unfold State.reach State.exchange
  split
  · rw [State.message_rest, State.message_rest s]
  · rfl

/-- A signed 32-bit count is what its 32 bits read as. -/
theorem signed32_eq (x : Int) : signed32 x = (BitVec.ofInt 32 x).toInt := by
  simp only [signed32, signed, wrap, BitVec.toInt_ofInt, Int.bmod]
  omega

end Sys2Proof.Machine
end

