-- ==== Sys2Proof/Laws/Generator.lean ====
section
/-! SUPPORT. What running a generator instruction can do: the shared operations `generator`, `retireAt`, `blockCtx` and `stopCtx`. -/

namespace Sys2Proof.Machine

/-- With the watchdog quiet and its registers free, an instruction does what its own meaning says. -/
theorem State.generator_free {s : State} {i : Instr} {n slot : Nat} {c : Ctx} (reads writes : List (BitVec 6))
    (body : Nat → Nat → Ctx → Gen) (hn : s.focus.cl = n) (hs : s.focus.slot = slot) (hc : s.ctx? n slot = some c)
    (hd : c.count ≠ c.deadline ∨ isYield i = true) (hr : ∀ g ∈ reads ++ writes, s.regState c g = .free) :
    s.generator i reads writes body = (body n slot (c.opened writes)).outcome s i n slot (c.opened writes) := by
  subst hn; subst hs
  have h1 : reads.find? (fun g => (s.regState c g).isBad) = none := by
    rw [List.find?_eq_none]; intro g hg; rw [hr g (List.mem_append_left _ hg)]; simp [RegState.isBad]
  have h2 : (reads ++ writes).filter (fun g => s.regState c g = .busy) = [] := by
    rw [List.filter_eq_nil_iff]; intro g hg; rw [hr g hg]; simp
  have h3 : (decide (c.count = c.deadline) && !isYield i) = false := by
    rcases hd with h | h <;> simp [h]
  simp only [State.generator, hc, h1, h2]
  rw [if_neg (by simp [h3])]
  simp

/-- The watchdog fires in place of any instruction but YIELD (R169). -/
theorem State.generator_watchdog {s : State} {i : Instr} {n slot : Nat} {c : Ctx} (reads writes : List (BitVec 6))
    (body : Nat → Nat → Ctx → Gen) (hn : s.focus.cl = n) (hs : s.focus.slot = slot) (hc : s.ctx? n slot = some c)
    (hd : c.count = c.deadline) (hy : isYield i = false) :
    s.generator i reads writes body =
      .next (s.stopCtx n slot none { cls := 0x10, where_ := c.pc, detail := BitVec.ofNat 64 c.deadline }) := by
  subst hn; subst hs
  simp [State.generator, hc, hd, hy]

/-- An instruction that names a busy register, and none with lasting uncorrectable data, blocks (R151). -/
theorem State.generator_busy {s : State} {i : Instr} {n slot : Nat} {c : Ctx} (reads writes : List (BitVec 6))
    (body : Nat → Nat → Ctx → Gen) (hn : s.focus.cl = n) (hs : s.focus.slot = slot) (hc : s.ctx? n slot = some c)
    (hd : c.count ≠ c.deadline ∨ isYield i = true) (hb : ∀ g ∈ reads, ∀ e a k, s.regState c g ≠ .bad e a k)
    (hr : (reads ++ writes).filter (fun g => s.regState c g = .busy) ≠ []) :
    s.generator i reads writes body =
      .next (s.blockCtx n slot (.regs ((reads ++ writes).filter (fun g => s.regState c g = .busy)))) := by
  subst hn; subst hs
  have h1 : reads.find? (fun g => (s.regState c g).isBad) = none := by
    rw [List.find?_eq_none]; intro g hg h
    cases hx : s.regState c g <;> simp [hx, RegState.isBad] at h
    exact hb g hg _ _ _ hx
  have h3 : (decide (c.count = c.deadline) && !isYield i) = false := by
    rcases hd with h | h <;> simp [h]
  simp only [State.generator, hc, h1]
  rw [if_neg (by simp [h3]), if_pos hr]

/-- A meaning runs without a context at all: nothing happens. -/
theorem State.generator_none {s : State} {i : Instr} (reads writes : List (BitVec 6)) (body : Nat → Nat → Ctx → Gen)
    (hc : s.ctx? s.focus.cl s.focus.slot = none) : s.generator i reads writes body = .next s := by
  simp [State.generator, hc]

theorem Gen.outcome_next (s : State) (i : Instr) (n slot : Nat) (c : Ctx) (r : Gen) : ∃ t, r.outcome s i n slot c = .next t := by
  cases r <;> simp only [Gen.outcome]
  case jump => split <;> exact ⟨_, rfl⟩
  all_goals exact ⟨_, rfl⟩

/-- Every run of a generator instruction answers a next state. -/
theorem State.generator_next (s : State) (i : Instr) (reads writes : List (BitVec 6)) (body : Nat → Nat → Ctx → Gen) :
    ∃ t, s.generator i reads writes body = .next t := by
  simp only [State.generator]
  repeat' split
  all_goals first | exact ⟨_, rfl⟩ | exact Gen.outcome_next ..

/-! ### Retirement -/

/-- What a cluster is charged (R204). -/
theorem State.charge_eq (s : State) (n sl k : Nat) : s.charge n sl k = s.setCluster n { s.cluster n with
    toll := Safety.lessCost (s.cluster n).toll ((slice (s.cluster n).costOn (8 * sl + 7) (8 * sl) * k : Nat) : Int) } := by
  simp only [State.charge, Safety.lessCost, signed32_eq]

theorem State.retireAt_eq {t : State} {n slot : Nat} {y b : Bool} {pc : W64} {x : Ctx} (h : t.ctx? n slot = some x) :
    t.retireAt n slot y b pc =
      (t.setCtx n slot { x with pc := pc, bubble := b, count := if y then 0 else x.count + 1,
                                retired := x.retired + 1, wait := .none, counts := countUp x.counts cIssued 1 }).setCluster n
        (Safety.charged (t.cluster n)) := by
  simp only [State.retireAt, h, State.charge_eq, State.setCluster_setCluster, State.cluster_setCluster_same, State.cluster_setCtx, Nat.mul_zero,
    Nat.zero_add, Nat.mul_one, Safety.charged]

/-- An instruction that only replaces its context retires alone. -/
theorem State.retireAt_alone {s : State} {n slot : Nat} {y b : Bool} {pc : W64} {x : Ctx} :
    Safety.Alone s n slot ((s.setCtx n slot x).retireAt n slot y b pc)
      { x with pc := pc, bubble := b, count := if y then 0 else x.count + 1,
               retired := x.retired + 1, wait := .none, counts := countUp x.counts cIssued 1 } := by
  rw [State.retireAt_eq (State.ctx?_setCtx_same ..), State.setCtx_setCtx]
  refine ⟨⟨by simp, ?_, by simp, ?_⟩, rfl, fun _ => rfl⟩
  · intro k hk; exact tget_tput_other _ hk _
  · intro m hm; simp [State.cluster_setCluster, hm]

/-- So does one that leaves even its context alone. -/
theorem State.retireAt_alone_id {s : State} {n slot : Nat} {y b : Bool} {pc : W64} {x : Ctx} (h : s.ctx? n slot = some x) :
    Safety.Alone s n slot (s.retireAt n slot y b pc)
      { x with pc := pc, bubble := b, count := if y then 0 else x.count + 1,
               retired := x.retired + 1, wait := .none, counts := countUp x.counts cIssued 1 } := by
  rw [State.retireAt_eq h]
  refine ⟨⟨by simp, ?_, by simp, ?_⟩, rfl, fun _ => rfl⟩
  · intro k hk; exact tget_tput_other _ hk _
  · intro m hm; simp [State.cluster_setCluster, hm]

/-! ### Blocking and stopping -/

theorem State.blockCtx_eq {s : State} {n slot : Nat} {c : Ctx} {w : Wait} (h : s.ctx? n slot = some c) :
    s.blockCtx n slot w = (s.setCtx n slot { c with status := .blocked, since := s.now, wait := w }).setCluster n
      { s.cluster n with category := some (slot, if w = .queueRoom then cEmitq else cDepend) } := by
  simp only [State.blockCtx, State.modCtx, h, State.cluster_setCtx]

/-- Stopping changes the contexts and the commands alone. -/
theorem State.stopCtx_rest (s : State) (n slot : Nat) (lane : Option Nat) (w : Why) :
    s.stopCtx n slot lane w = { s with ctxs := (s.stopCtx n slot lane w).ctxs, cmds := (s.stopCtx n slot lane w).cmds } := by
  simp only [State.stopCtx]
  repeat' split
  all_goals rfl

/-- No other context is stopped with it. -/
theorem State.stopCtx_others (s : State) (n slot : Nat) (lane : Option Nat) (w : Why) {k : Nat} (hk : k ≠ ctxKey n slot) :
    tget (s.stopCtx n slot lane w).ctxs k = tget s.ctxs k := by
  simp only [State.stopCtx]
  repeat' split
  all_goals first | rfl | exact tget_tput_other _ hk _

/-- A context that stops for the first time, at its own instruction, holds one record and goes no further. -/
theorem State.stopCtx_here {s : State} {n slot : Nat} {c : Ctx} {w : Why} (hc : s.ctx? n slot = some c) (hs : c.stop = none)
    (hl : w.late = false) :
    ∃ c', (s.stopCtx n slot none w).ctx? n slot = some c' ∧ c'.status = .blocked ∧ c'.pc = c.pc ∧ c'.g = c.g ∧ c'.k = c.k ∧
      c'.count = c.count ∧ c'.retired = c.retired ∧ c'.slots = c.slots ∧
      c'.stop = some ⟨BitVec.ofNat 8 w.cls, none, 0,
        [s.record n slot c.ring (s.seqOf c) c.ttag w], s.now, s.handlerFrame c w.cls⟩ := by
  simp only [State.stopCtx, hc, hs, hl, Bool.false_eq_true, if_false]
  split
  · rename_i h; exact ⟨_, State.ctx?_setCtx_same .., by simp_all⟩
  · rename_i h; exact ⟨_, by rw [State.cancelAll]; exact State.ctx?_setCtx_same .., by simp_all⟩

end Sys2Proof.Machine

namespace Sys2Proof.Safety

open Sys2Proof.Machine

/-! ### Instructions that are ready -/

/-- An instruction that is ready does what its own meaning says. -/
theorem Ready.run {s : State} {i : Instr} {n slot : Nat} {c : Ctx} {body : Nat → Nat → Ctx → Gen} (h : Ready s i n slot c)
    (he : exec i s = s.generator i (genReads i) (genWrites i) body) :
    exec i s = (body n slot (c.opened (genWrites i))).outcome s i n slot (c.opened (genWrites i)) := by
  rw [he, State.generator_free _ _ _ h.onCl h.onSlot h.ctx h.deadline h.regs]

/-- One whose meaning sets a g register and no more writes that register alone. -/
theorem Ready.writesG {s : State} {i : Instr} {n slot : Nat} {c : Ctx} {body : Nat → Nat → Ctx → Gen} {d : BitVec 6} {v : W72}
    (h : Ready s i n slot c) (he : exec i s = s.generator i (genReads i) (genWrites i) body)
    (hb : body n slot (c.opened (genWrites i)) = .retire (s.setCtx n slot ((c.opened (genWrites i)).setG d v))) :
    WritesG s i n slot c (nextPc i c) d v := by
  refine ⟨_, _, by rw [h.run he, hb]; rfl, State.retireAt_alone, by simp [passed, nextPc, Ctx.opened, Ctx.setG], Ctx.gv_setG_same _ _ _, ?_⟩
  intro g hg; exact (Ctx.gv_setG (c.opened _) d g v).trans (if_neg hg)

/-- With no register to write, the context a meaning sees is the context itself. -/
@[simp] theorem opened_nil (c : Ctx) : c.opened [] = c := by
  have : c.gt.filter (fun _ => true) = c.gt := List.filter_eq_self.mpr (by simp)
  simp only [Ctx.opened, List.any_nil, Bool.not_false, this]

@[simp] theorem opened_gv (c : Ctx) (l : List (BitVec 6)) (g : BitVec 6) : (c.opened l).gv g = c.gv g := rfl
@[simp] theorem opened_kv (c : Ctx) (l : List (BitVec 6)) (k : BitVec 3) : (c.opened l).kv k = c.kv k := rfl

/-- An instruction that makes its context x and retires alone. -/
theorem Ready.becomes {s : State} {i : Instr} {n slot : Nat} {c x : Ctx} {body : Nat → Nat → Ctx → Gen} (h : Ready s i n slot c)
    (he : exec i s = s.generator i (genReads i) (genWrites i) body)
    (hb : body n slot (c.opened (genWrites i)) = .retire (s.setCtx n slot x)) :
    Becomes s i n slot { x with pc := c.pc + BitVec.ofNat 64 (instrBytes i), bubble := false,
                                count := if isYield i then 0 else x.count + 1, retired := x.retired + 1, wait := .none,
                                counts := countUp x.counts cIssued 1 } :=
  ⟨_, by rw [h.run he, hb]; rfl, State.retireAt_alone⟩

/-- One that changes nothing of its own. -/
theorem Ready.becomes_id {s : State} {i : Instr} {n slot : Nat} {c : Ctx} {body : Nat → Nat → Ctx → Gen} (h : Ready s i n slot c)
    (hw : genWrites i = []) (he : exec i s = s.generator i (genReads i) (genWrites i) body) (hb : body n slot c = .retire s) :
    Becomes s i n slot (passed i c (nextPc i c)) := by
  have e := h.run he
  rw [hw, opened_nil, hb] at e
  refine ⟨_, e, ?_⟩
  have : passed i c (nextPc i c) = { c with pc := nextPc i c, bubble := false, count := if isYield i then 0 else c.count + 1, retired := c.retired + 1, wait := .none, counts := countUp c.counts cIssued 1 } := by
    have : c.gt.filter (fun _ => true) = c.gt := List.filter_eq_self.mpr (by simp)
    simp [passed, hw, this, decide_eq_false]
  rw [this]
  exact State.retireAt_alone_id h.ctx

/-- One that blocks. -/
theorem Ready.blocks {s : State} {i : Instr} {n slot : Nat} {c : Ctx} {w : Wait} {body : Nat → Nat → Ctx → Gen} (h : Ready s i n slot c)
    (he : exec i s = s.generator i (genReads i) (genWrites i) body) (hb : body n slot (c.opened (genWrites i)) = .block s w) :
    Blocks s i n slot c w := by
  refine ⟨_, by rw [h.run he, hb]; rfl, ?_, ?_, ?_, ?_, ?_⟩ <;> rw [State.blockCtx_eq (c := c) h.ctx]
  · simp
  · intro k hk; exact tget_tput_other _ hk _
  · simp [cEmitq, cDepend]
  · intro m hm; simp [State.cluster_setCluster, hm]
  · rfl

/-- A code address that may be gone to is gone to. -/
theorem outcome_jump {s t : State} {i : Instr} {n slot : Nat} {c : Ctx} {pc : W64} (h : CodeAt s c.pc pc) :
    Gen.outcome s i n slot c (.jump t pc) = .next (t.retireAt n slot false (decide (pc ≠ nextPc i c)) pc) := by
  obtain ⟨h1, h2, m, hm, h3, h4⟩ := h
  have : s.pcOk pc (BitVec.ofNat 12 (pcModule c.pc)) = true := by
    simp only [State.pcOk, h1, h2, pcModule, hm, pcOffset, h4]
    rcases h3 with h3 | ⟨h3, h5⟩
    · simp [h3]
    · have : slice pc 43 32 < 4096 := by simp only [slice, bits]; omega
      simp [h3, h5, Nat.mod_eq_of_lt this]
  simp only [Gen.outcome, this, if_true, nextPc]
  rfl

/-- One that may not stops its context with the code-address trap. -/
theorem outcome_jump_bad {s t : State} {i : Instr} {n slot : Nat} {c : Ctx} {pc : W64} (h : ¬ CodeAt s c.pc pc) :
    Gen.outcome s i n slot c (.jump t pc) = .next (s.stopCtx n slot none (whyGen c i 2 0)) := by
  have : s.pcOk pc (BitVec.ofNat 12 (pcModule c.pc)) = false := by
    rw [Bool.eq_false_iff]
    intro hh
    apply h
    simp only [State.pcOk, Bool.and_eq_true, decide_eq_true_eq] at hh
    obtain ⟨⟨h1, h2⟩, h3⟩ := hh
    refine ⟨h1, h2, ?_⟩
    split at h3
    · cases h3
    · rename_i m hm
      simp only [Bool.and_eq_true, Bool.or_eq_true, decide_eq_true_eq, pcModule, pcOffset, BitVec.toNat_ofNat] at h3
      refine ⟨m, hm, ?_, of_decide_eq_true h3.2⟩
      rcases h3.1 with h | ⟨h, h5⟩
      · exact .inl h
      · have : slice c.pc 43 32 < 4096 := by simp only [slice, bits]; omega
        exact .inr ⟨h, by omega⟩
  simp [Gen.outcome, this]

/-- A stop of a running context is a trap at its instruction. -/
theorem traps_of_stop {s : State} {i : Instr} {n slot : Nat} {c : Ctx} {w : Why} (h : Ready s i n slot c) (hr : Running c)
    (he : exec i s = .next (s.stopCtx n slot none w)) (hw : w.where_ = c.pc) (hc : w.cls < 0x30) (h1 : w.reason < 256)
    (h2 : w.ecode < 256) (hj : w.j = none) (hl : w.late = false) : Traps s i n slot c w.cls w.detail := by
  obtain ⟨c', h1', h2', h3, h4, h5, h6, h7, h8, h9⟩ := State.stopCtx_here (w := w) h.ctx hr hl
  refine ⟨_, c', he, h1', ⟨h2', by simp [h9], ⟨_, by rw [h9]; rfl, ?_, by simp [State.record, wordAt, hw], by simp [State.record, wordAt, Why.detailWord, hc]⟩,
    h3, h4, h5, h6, h7, h8⟩, fun k hk => State.stopCtx_others _ _ _ _ _ hk, State.stopCtx_rest .., ?_⟩
  · simp only [State.record, wordAt, List.getD_cons_zero, slice, bits, hj, BitVec.toNat_ofNat]
    have := c.ring.isLt; have := h.clusters; have := h.slots
    split <;> omega
  · intro pa; rw [State.stopCtx_rest]; rfl

/-- An instruction whose meaning traps. -/
theorem Ready.traps {s : State} {i : Instr} {n slot : Nat} {c : Ctx} {w : Why} {body : Nat → Nat → Ctx → Gen} (h : Ready s i n slot c)
    (hr : Running c) (he : exec i s = s.generator i (genReads i) (genWrites i) body)
    (hb : body n slot (c.opened (genWrites i)) = .trap s w) (hw : w.where_ = c.pc) (hc : w.cls < 0x30) (h1 : w.reason < 256)
    (h2 : w.ecode < 256) (hj : w.j = none) (hl : w.late = false) : Traps s i n slot c w.cls w.detail :=
  traps_of_stop h hr (by rw [h.run he, hb]; rfl) hw hc h1 h2 hj hl

end Sys2Proof.Safety
end

