-- ==== Sys2Proof/Laws/Lane.lean ====
section
/-! SUPPORT. What running a lane word can do: the shared operation `lane`, and the destinations that its result is written to. -/

namespace Sys2Proof.Machine

open Safety

/-! ### Destinations -/

theorem regsFor_eq (f : Fmt) : regsFor f = regCount f := by cases f <;> rfl

theorem wide_iff (f : Fmt) : Fmt.wide f = true ↔ Fmt.width f = 64 := by cases f <;> decide

theorem isSigned_eq (f : Fmt) : Fmt.isSigned f = isSignedFmt f := by cases f <;> decide

/-- One lane of a v destination. -/
def putLane (d : Nat) (f : Fmt) (res : Nat → Option Nat) (v : Tab W32) (l : Nat) : Tab W32 :=
  match res l with
  | none => v
  | some y =>
    let v := tput v (16 * d + l) (BitVec.ofNat 32 y)
    if Fmt.wide f then tput v (16 * (d + 1) + l) (BitVec.ofNat 32 (y / 2 ^ 32)) else v

/-- What an entry of the v registers holds after lanes ls of a destination have been written, ls without repeats. -/
theorem tgetD_putLane (d : Nat) (f : Fmt) (res : Nat → Option Nat) (r l : Nat) (hl : l < 16) :
    ∀ (ls : List Nat) (v : Tab W32), (∀ m ∈ ls, m < 16) → ls.Nodup →
      tgetD (ls.foldl (putLane d f res) v) (16 * r + l) 0 =
        if l ∈ ls then
          match res l with
          | none => tgetD v (16 * r + l) 0
          | some y => if r = d then BitVec.ofNat 32 y else if Fmt.wide f ∧ r = d + 1 then BitVec.ofNat 32 (y / 2 ^ 32)
              else tgetD v (16 * r + l) 0
        else tgetD v (16 * r + l) 0 := by
  intro ls
  induction ls with
  | nil => simp
  | cons m ms ih =>
    intro v hm hn
    have hm' : m < 16 := hm m (by simp)
    rw [List.foldl_cons, ih _ (fun a ha => hm a (by simp [ha])) (List.nodup_cons.mp hn).2]
    have hmem := (List.nodup_cons.mp hn).1
    by_cases h : l = m
    · subst h
      simp only [hmem, if_false, List.mem_cons, true_or, if_true, putLane]
      cases res l with
      | none => rfl
      | some y =>
        by_cases hw : Fmt.wide f = true <;> simp [hw, tgetD_tput]
        · by_cases h1 : r = d
          · subst h1; rw [if_neg (by omega)]; simp
          · by_cases h2 : r = d + 1
            · subst h2; simp
            · rw [if_neg (by omega), if_neg (by omega), if_neg h1, if_neg h2]
    · simp only [List.mem_cons, h, false_or]
      have key : ∀ a : Tab W32, tgetD (putLane d f res a m) (16 * r + l) 0 = tgetD a (16 * r + l) 0 := by
        intro a
        simp only [putLane]
        split
        · rfl
        · split <;> simp only [tgetD_tput] <;> (repeat' split) <;> first | rfl | omega
      rw [key]

theorem tgetD_tags (f : Fmt) (r : Nat) : ∀ (rs : List Nat) (t : Tab Fmt),
    tgetD (rs.foldl (fun t k => tput t k f) t) r .untyped = if r ∈ rs then f else tgetD t r .untyped := by
  intro rs
  induction rs with
  | nil => simp
  | cons k ks ih =>
    intro t
    rw [List.foldl_cons, ih]
    simp only [tgetD_tput, List.mem_cons]
    split <;> split <;> simp_all

theorem mem_regs (n : BitVec 8) (k r : Nat) : r ∈ Opd.regs (.v n) k ↔ n.toNat ≤ r ∧ r < n.toNat + k := by
  simp only [Opd.regs, List.mem_map, List.mem_range]
  constructor
  · rintro ⟨a, h, rfl⟩; omega
  · intro h; exact ⟨r - n.toNat, by omega, by omega⟩

theorem tgetD_lanes (g : Nat → W64) (l : Nat) (h : l < 16) : tgetD (lanes16.map (fun l => (l, g l))) l 0 = g l := by
  have : ∀ m, m < 16 → tgetD (lanes16.map (fun l => (l, g l))) m 0 = g m := by
    intro m hm
    interval_cases m <;> rfl
  exact this l h

theorem Core.putV_eq (x : Core) (n : BitVec 8) (f : Fmt) (nwb : Bool) (res : Nat → Option Nat) :
    x.putV n f nwb res =
      { x with v := if nwb then x.v else lanes16.foldl (putLane n.toNat f res) x.v,
               vtag := if nwb then x.vtag else (Opd.regs (.v n) (regsFor f)).foldl (fun t r => tput t r f) x.vtag,
               latch := (x.putV n f nwb res).latch } := by
  cases nwb <;> rfl

theorem Core.putV_puts (x : Core) (n : BitVec 8) (f : Fmt) (nwb : Bool) (res : Nat → Option Nat) :
    PutsV x (x.putV n f nwb res) n.toNat f nwb res := by
  have hv : ∀ r l, l < 16 → nwb = false → (x.putV n f nwb res).vv r l =
      (match res l with
        | none => tgetD x.v (16 * r + l) 0
        | some y => if r = n.toNat then BitVec.ofNat 32 y else if Fmt.wide f ∧ r = n.toNat + 1 then BitVec.ofNat 32 (y / 2 ^ 32)
            else tgetD x.v (16 * r + l) 0).toNat := by
    intro r l hl hw
    rw [Core.putV_eq]
    simp only [Core.vv, hw, Bool.false_eq_true, if_false]
    rw [tgetD_putLane _ _ _ _ _ hl _ _ (by simp [lanes16]) (by simp [lanes16, List.nodup_range]), if_pos (by simpa [lanes16] using hl)]
  have hr : regCount f = if Fmt.width f = 64 then 2 else 1 := rfl
  have hwide := wide_iff f
  refine ⟨?_, ?_, ?_, ?_, ?_, ?_, ?_⟩
  · rw [Core.putV_eq]
  · rintro rfl; exact ⟨rfl, rfl⟩
  · intro hw l hl r hres
    simp only [held, hv _ _ hl hw, hres, if_true]
    by_cases h : Fmt.width f = 64
    · simp [h, hwide, hr]; omega
    · simp [h, hr]
  · intro hw l hl hres
    simp only [held, hv _ _ hl hw, hres]; rfl
  · intro r l hl h
    cases nwb
    · rw [hv _ _ hl rfl]
      split
      · rfl
      · rw [if_neg (by rw [hr] at h; split at h <;> omega), if_neg (by rw [hwide, hr] at *; rintro ⟨h1, h2⟩; simp [h1] at h; omega)]; rfl
    · rfl
  · intro r
    cases nwb
    · have : (x.putV n f false res).vtag = (Opd.regs (.v n) (regsFor f)).foldl (fun t r => tput t r f) x.vtag := rfl
      simp only [Core.tagV, this, tgetD_tags, mem_regs, regsFor_eq, true_and]
    · simp only [Bool.true_eq_false, false_and, if_false]; rfl
  · unfold Pushed
    refine ⟨⟨lanes16.map (fun l => (l, BitVec.ofNat 64 (if nwb then (res l).getD 0 else
      if Fmt.wide f then (x.putV n f nwb res).pairv n.toNat l else (x.putV n f nwb res).vv n.toNat l))), f, none⟩, ?_, rfl, rfl, ?_⟩
    · cases nwb <;> rfl
    intro l hl
    rw [tgetD_lanes _ _ hl]
    cases nwb
    · simp only [Bool.false_eq_true, if_false, held]
      by_cases h : Fmt.width f = 64
      · simp only [h, hwide, if_true]; rfl
      · simp only [h, hwide, if_false]
    · rfl

theorem Core.putQ_puts (x : Core) (n : BitVec 4) (f : Fmt) (nwb : Bool) (y : Nat) : PutsQ x (x.putQ n f nwb y) n f nwb y := by
  cases nwb
  · refine ⟨rfl, ?_, ?_⟩
    · simp [Core.putQ, Core.qv, isSigned_eq, sext64]
    · intro e he
      simp only [Core.putQ, Core.qv, Bool.false_eq_true, if_false]
      rw [tgetD_tput, if_neg (fun h => he (BitVec.eq_of_toNat_eq h))]
  · exact ⟨rfl, rfl, fun _ _ => rfl⟩

/-- A number made of the powers of two whose exponents pass a test. -/
theorem powers_where (p : Nat → Bool) : ∀ n, ((List.range n).filter p).foldl (fun a l => a + 2 ^ l) 0 < 2 ^ n ∧
    ∀ l < n, (((List.range n).filter p).foldl (fun a l => a + 2 ^ l) 0).testBit l = p l := by
  intro n
  induction n with
  | zero => simp
  | succ n ih =>
    obtain ⟨hlt, hb⟩ := ih
    rw [List.range_succ, List.filter_append, List.foldl_append]
    generalize ((List.range n).filter p).foldl (fun a l => a + 2 ^ l) 0 = z at hlt hb ⊢
    by_cases h : p n = true
    · simp only [List.filter_cons, h, if_true, List.filter_nil, List.foldl_cons, List.foldl_nil]
      refine ⟨by rw [Nat.pow_succ]; omega, fun l hl => ?_⟩
      rw [Nat.add_comm]
      by_cases e : l = n
      · subst e; rw [Nat.testBit_two_pow_add_eq, Nat.testBit_lt_two_pow hlt, h]; rfl
      · rw [Nat.testBit_two_pow_add_gt (by omega)]; exact hb l (by omega)
    · simp only [List.filter_cons, h, Bool.false_eq_true, if_false, List.filter_nil, List.foldl_nil]
      refine ⟨by rw [Nat.pow_succ]; omega, fun l hl => ?_⟩
      by_cases e : l = n
      · subst e; rw [Nat.testBit_lt_two_pow hlt]; simpa using h
      · exact hb l (by omega)

theorem Core.mask_put (x : Core) (n e : BitVec 3) (y : BitVec 16) (hn : n ≠ 0) :
    ({ x with m := tput x.m n.toNat y } : Core).mask e = if e = n then y else x.mask e := by
  simp only [Core.mask]
  by_cases h : e = n
  · subst h; simp only [hn, if_false, if_true, tgetD_tput_same]
  · have : e.toNat ≠ n.toNat := fun h' => h (BitVec.eq_of_toNat_eq h')
    simp [h, tgetD_tput, this]

theorem Core.putM_puts (x : Core) (n : BitVec 3) (nwb : Bool) (y : BitVec 16) (hn : n ≠ 0) :
    PutsM x (x.putM n nwb y) n nwb (fun l => y.getLsbD l) := by
  cases nwb
  · refine ⟨rfl, ?_, ?_⟩
    · intro l _; simp [Core.putM, Core.mask_put x n n y hn]
    · intro e he; simp [Core.putM, Core.mask_put x n e y hn, he]
  · exact ⟨rfl, fun _ _ => rfl, fun _ _ => rfl⟩

theorem bit_gov (x : Core) (gm : BitVec 3) (l : Nat) : bit (x.gov gm) l = onLane x gm l := by
  simp [bit, Core.gov, onLane]

theorem Core.each_eachLane (x : Core) (w : LA) (f : Fmt) (op : Nat → Nat) (h : (∃ d, w.d = .v d) ∨ ∃ d, w.d = .q d) :
    EachLane x (x.each w f op) w f op := by
  rcases h with ⟨d, h⟩ | ⟨d, h⟩ <;> simp only [EachLane, Core.each, h, bit_gov]
  · exact Core.putV_puts ..
  · exact Core.putQ_puts ..

theorem Core.eachMask_eachBit (x : Core) (w : LA) (p : Nat → Bool) (d : BitVec 3) (h : w.d = .m d) (hd : d ≠ 0) :
    EachBit x (x.eachMask w p) w p := by
  simp only [EachBit, Core.eachMask, h]
  have hp := Core.putM_puts x d w.nwb
    (BitVec.ofNat 16 ((lanes16.filter (fun l => bit (x.gov w.gm) l && p l)).foldl (fun a l => a + 2 ^ l) 0)) hd
  refine ⟨hp.rest, fun l hl => ?_, hp.others⟩
  rw [hp.wrote l hl]
  split
  · rfl
  · have := (powers_where (fun l => bit (x.gov w.gm) l && p l) 16).2 l hl
    simp only [bit_gov] at this
    simp only [lanes16, BitVec.getLsbD_ofNat, hl, decide_true, Bool.true_and, bit_gov, this]

/-! ### Running a word -/

theorem insidePart_iff (p : W32) (o : Opd) (k : Nat) : insidePart p o k = true ↔ Inside p o k := by
  cases o <;> simp only [insidePart, Inside, vgran, agran] <;> exact decide_eq_true_iff

theorem not_filling {s : State} {i : Instr} {n slot k : Nat} {c : Ctx} {x : Core} {os : List (Opd × Nat)}
    (h : LaneReady s i n slot k c x os) (u : LaneUse) (hr : ∀ r ∈ u.regs, ∃ p ∈ os, r ∈ Opd.regs p.1 p.2)
    (hl : ∀ b ∈ u.latches, ∃ p ∈ os, ∃ m : BitVec 2, p.1 = .b m ∧ b = m.toNat) : s.filling n k c.uid x u = false := by
  simp only [State.filling, Bool.or_eq_false_iff, List.any_eq_false]
  constructor
  · intro b hb
    obtain ⟨p, hp, m, hm, rfl⟩ := hl b hb
    have := h.settled p hp
    rw [hm] at this
    simp only [Settled] at this
    simp [this]
  · intro a ha hx
    simp only [Bool.and_eq_true, decide_eq_true_eq, Bool.not_eq_eq_eq_not] at hx
    obtain ⟨⟨⟨⟨h1, h2⟩, h3⟩, h4⟩, h5⟩ := hx
    cases hd : a.dest with
    | lanes f nwb =>
      rw [hd] at h5
      simp only [Bool.and_eq_true, Bool.not_eq_true', List.any_eq_true, Bool.or_eq_true, List.contains_iff_mem] at h5
      obtain ⟨hn, p, hp, h6⟩ := h5
      subst hn
      have key : ∀ e < regCount f, p.reg + e ∉ u.regs := by
        intro e he hmem
        obtain ⟨o, ho, hro⟩ := hr _ hmem
        cases h7 : o.1 with
        | v r =>
          have hs := h.settled o ho
          rw [h7] at hro hs
          simp only [Settled] at hs
          exact hs a ha h1 h2 h3 h4 f hd p hp e he ((mem_regs _ _ _).1 hro)
        | _ => rw [h7] at hro; simp [Opd.regs] at hro
      rcases h6 with h6 | ⟨hw, h6⟩
      · exact key 0 (by unfold regCount; split <;> decide) h6
      · exact key 1 (by unfold regCount; rw [if_pos ((wide_iff f).1 hw)]; decide) h6
    | _ => rw [hd] at h5; simp at h5

/-- A word that is ready, whose tags are accepted and which R199 allows, does what its own effect says. -/
theorem State.lane_body {s : State} {i : Instr} {n slot k : Nat} {c : Ctx} {x : Core} {os : List (Opd × Nat)}
    (h : LaneReady s i n slot k c x os) (use_ : Core → LaneUse) (body : Nat → Nat → Ctx → Core → Nat → LaneEnd)
    (hr : ∀ r ∈ (use_ x).regs, ∃ p ∈ os, r ∈ Opd.regs p.1 p.2)
    (hl : ∀ b ∈ (use_ x).latches, ∃ p ∈ os, ∃ m : BitVec 2, p.1 = .b m ∧ b = m.toNat)
    (hp : (use_ x).part = false) (ht : (use_ x).tags = true) :
    s.lane i os use_ body =
      let e := match x.buf.head? with | some h => h.e | none => c.nextE
      match body n k c x e with
      | .done t => .next (t.startWord n k (slice ((encodeLane i).getD 0) 9 0))
      | .wait t why => .next (t.waitCore n k why)
      | .fault t w => .next (t.laneFault e ((encodeLane i).getD 0) w) := by
  have hf := not_filling h (use_ x) hr hl
  have hi : os.all (fun p => insidePart (s.partition c) p.1 p.2) = true := by
    rw [List.all_eq_true]; intro p hp; exact (insidePart_iff _ _ _).2 (h.inside p hp)
  have h1 := h.ctx; have h2 := h.core; have h3 := h.onCl; have h4 := h.onSlot; have h5 := h.onCore
  subst h3 h4 h5
  simp only [State.lane, h1, h2, h.legal, hi, hf, hp, ht, Bool.not_true, Bool.or_self, Bool.false_eq_true, if_false]
  try rfl

theorem State.startWord_done {s : State} {i : Instr} {n k : Nat} {y : Core} :
    LaneDone s i n k y ((s.setCore n k y).startWord n k (slice ((encodeLane i).getD 0) 9 0)) ∧
    (s.setCore n k y).startWord n k (slice ((encodeLane i).getD 0) 9 0) =
      { s with cores := ((s.setCore n k y).startWord n k (slice ((encodeLane i).getD 0) 9 0)).cores,
               clusters := ((s.setCore n k y).startWord n k (slice ((encodeLane i).getD 0) 9 0)).clusters } := by
  have hc : ((s.setCore n k y).charge n (laneSlice (slice ((encodeLane i).getD 0) 9 0)) 1).core? n k = some y := by
    simp [State.charge, State.core?, State.setCore, State.setCluster]
  simp only [State.startWord, State.modCore, hc]
  refine ⟨⟨?_, ?_, ?_, ?_⟩, rfl⟩
  · simp [State.core?, State.setCore]
  · intro m hm
    simp only [State.setCore, State.charge, State.setCluster, tget_tput, hm, if_false]
  · simp [State.setCore, State.charge, State.setCluster, State.cluster, costOf, lessCost, signed32_eq]
  · intro m hm
    simp only [State.setCore, State.charge, State.setCluster, State.cluster, tgetD_tput, hm, if_false]

/-- A word whose effect is on its own core performs it. -/
theorem State.lane_performs {s : State} {i : Instr} {n slot k : Nat} {c : Ctx} {x y : Core} {os : List (Opd × Nat)} {P : Core → Prop}
    (h : LaneReady s i n slot k c x os) (use_ : Core → LaneUse) (body : Nat → Nat → Ctx → Core → Nat → LaneEnd)
    (hr : ∀ r ∈ (use_ x).regs, ∃ p ∈ os, r ∈ Opd.regs p.1 p.2)
    (hl : ∀ b ∈ (use_ x).latches, ∃ p ∈ os, ∃ m : BitVec 2, p.1 = .b m ∧ b = m.toNat)
    (hp : (use_ x).part = false) (ht : (use_ x).tags = true) (hb : ∀ e, body n k c x e = .done (s.setCore n k y)) (hP : P y)
    (he : exec i s = s.lane i os use_ body) : Performs s i n k P := by
  have h1 := State.startWord_done (s := s) (i := i) (n := n) (k := k) (y := y)
  refine ⟨_, y, ?_, h1.1, h1.2, hP, fun pa => ?_⟩
  · rw [he, State.lane_body h use_ body hr hl hp ht]; simp only [hb]
  · rw [h1.2]; rfl

/-- The same, for a word of `laneLA`. -/
theorem State.laneLA_performs {s : State} {i : Instr} {w : LA} {n slot k : Nat} {c : Ctx} {x : Core} {df : Fmt} {ka kb kc : Nat}
    {narrow : Bool} {tags : Core → Bool} {eff : Core → Core} {P : Core → Prop}
    (h : LaneReady s i n slot k c x (laOpds w df ka kb kc)) (hp : narrow = true ∨ Whole w) (ht : tags x = true) (hP : P (eff x))
    (he : exec i s = s.laneLA i w df ka kb kc narrow tags eff) : Performs s i n k P := by
  have h' : LaneReady s i n slot k c x [(w.d, regsFor df), (w.a, ka), (w.b, kb), (w.c, kc)] := by rw [regsFor_eq]; exact h
  refine State.lane_performs h' (laUse w narrow (regsFor df) ka kb kc tags) _ ?_ ?_ ?_ ht (fun _ => rfl) hP he
  · intro r hr
    simp only [laUse, List.mem_append] at hr
    simp only [List.mem_cons, List.mem_nil_iff, or_false]
    rcases hr with ((hr | hr) | hr) | hr
    · exact ⟨_, .inl rfl, hr⟩
    · exact ⟨_, .inr (.inl rfl), hr⟩
    · exact ⟨_, .inr (.inr (.inl rfl)), hr⟩
    · exact ⟨_, .inr (.inr (.inr rfl)), hr⟩
  · intro b hb
    simp only [laUse, latchesOf, List.mem_filterMap] at hb
    obtain ⟨o, ho, hb⟩ := hb
    cases o with
    | b m =>
      simp only [Option.some.injEq] at hb
      simp only [List.mem_cons, List.mem_nil_iff, or_false] at ho ⊢
      rcases ho with ho | ho | ho
      · exact ⟨_, .inr (.inl rfl), m, ho.symm, hb.symm⟩
      · exact ⟨_, .inr (.inr (.inl rfl)), m, ho.symm, hb.symm⟩
      · exact ⟨_, .inr (.inr (.inr rfl)), m, ho.symm, hb.symm⟩
    | _ => simp at hb
  · rcases hp with hp | hp
    · simp [laUse, hp]
    · simp only [laUse]
      rcases hp with hp | hp | hp
      · cases hd : w.d <;> simp
        exact absurd hd (hp _)
      · simp [hp]
      · simp [hp]

/-! ### Tags -/

theorem tagOk_iff (x : Core) (o : Opd) (k : Nat) (p : Fmt → Bool) : x.tagOk o k p = true ↔ Tagged x o k (fun t => p t = true) := by
  cases o with
  | v n =>
    simp only [Core.tagOk, List.all_eq_true, mem_regs, Tagged]
    constructor
    · intro h e he; exact h _ ⟨by omega, by omega⟩
    · intro h r hr; have := h (r - n.toNat) (by omega); rwa [Nat.add_sub_cancel' hr.1] at this
  | _ => simp [Core.tagOk, Tagged]

theorem sameInt_iff (f t : Fmt) : sameInt f t = true ↔ SameInt f t := by
  cases t <;> simp [sameInt, SameInt, Fmt.isInt, isIntFmt, Fmt.code]

theorem sameWidth_iff (f t : Fmt) : sameWidth f t = true ↔ SameWidth f t := by simp [sameWidth, SameWidth]
theorem isI32_iff (t : Fmt) : isI32 t = true ↔ IsI32 t := by simp [isI32, IsI32]
theorem isI64_iff (t : Fmt) : isI64 t = true ↔ IsI64 t := by simp [isI64, IsI64]
theorem isAff_iff (t : Fmt) : isAff t = true ↔ IsAff t := by simp [isAff, IsAff, isI32_iff, isI64_iff]

end Sys2Proof.Machine
end

