-- ==== Sys2Proof/Laws/Memory.lean ====
section
/-! SUPPORT. Memory: what is read after a write, that every operation of storage keeps the canonical form, and what a write at a home
can set off. -/

namespace Sys2Proof.Machine

/-! ### The list of cells -/

theorem memOkFrom_mono {m : List Host.Cell} {lo hi : Nat} (h : memOkFrom hi m = true) (hl : lo ≤ hi) : memOkFrom lo m = true := by
  cases m with
  | nil => rfl
  | cons p m =>
    obtain ⟨k, b⟩ := p
    simp only [memOkFrom, Bool.and_eq_true, decide_eq_true_eq] at h ⊢
    exact ⟨⟨le_trans hl h.1.1, h.1.2⟩, h.2⟩

/-- Below the first address of a canonical memory every byte is the blank one. -/
theorem readByte_below {m : List Host.Cell} {lo a : Nat} (h : memOkFrom lo m = true) (ha : a < lo) : readByte m a = blank a := by
  induction m generalizing lo with
  | nil => rfl
  | cons p m ih =>
    obtain ⟨k, b⟩ := p
    simp only [memOkFrom, Bool.and_eq_true, decide_eq_true_eq] at h
    have hk : k ≠ a := by omega
    simp only [readByte, hk, if_false]
    exact ih h.2 (by omega)

/-- A write keeps the canonical form above any bound that it respects. -/
theorem memOkFrom_writeByte {m : List Host.Cell} {lo : Nat} (a : Nat) (x : Byte) (h : memOkFrom lo m = true) (ha : lo ≤ a) :
    memOkFrom lo (writeByte m a x) = true := by
  induction m generalizing lo with
  | nil => simp only [writeByte]; split <;> simp_all [memOkFrom]
  | cons p m ih =>
    obtain ⟨k, b⟩ := p
    have h0 := h
    simp only [memOkFrom, Bool.and_eq_true, decide_eq_true_eq] at h
    simp only [writeByte]
    split
    · rename_i hlt
      split
      · exact h0
      · simp only [memOkFrom, Bool.and_eq_true, decide_eq_true_eq]
        exact ⟨⟨ha, by simp_all⟩, ⟨⟨by omega, h.1.2⟩, h.2⟩⟩
    · split
      · split
        · exact memOkFrom_mono h.2 (by omega)
        · subst_vars; simp only [memOkFrom, Bool.and_eq_true, decide_eq_true_eq]; exact ⟨⟨ha, by simp_all⟩, h.2⟩
      · simp only [memOkFrom, Bool.and_eq_true, decide_eq_true_eq]
        exact ⟨h.1, ih h.2 (by omega)⟩

/-- In a canonical memory a byte reads as it was last written, and every other byte as before. -/
theorem readByte_writeByte {m : List Host.Cell} (h : Memory.wf m = true) (a b : Nat) (x : Byte) :
    readByte (writeByte m a x) b = if b = a then x else readByte m b := by
  suffices ∀ lo, memOkFrom lo m = true → readByte (writeByte m a x) b = if b = a then x else readByte m b from this 0 h
  clear h
  induction m with
  | nil =>
    intro lo _
    simp only [writeByte]
    by_cases hb : b = a
    · subst hb; split <;> simp_all [readByte]
    · have hb' : a ≠ b := fun h => hb h.symm
      split <;> simp [readByte, hb']
  | cons p m ih =>
    intro lo h
    obtain ⟨k, y⟩ := p
    simp only [memOkFrom, Bool.and_eq_true, decide_eq_true_eq] at h
    have above : ∀ c, c ≤ k → readByte m c = blank c := fun c h1 => readByte_below h.2 (by omega)
    simp only [writeByte]
    by_cases hb : b = a
    · subst hb
      simp only [if_true]
      split
      · rename_i hlt
        have hk : k ≠ b := by omega
        split
        · rename_i hx; simp only [readByte, hk, if_false]; rw [above b (by omega), hx]
        · simp [readByte]
      · split
        · rename_i hk
          split
          · rename_i hx; rw [above b (by omega), hx]
          · simp [readByte]
        · rename_i hk
          have hk' : k ≠ b := fun h => hk (by omega)
          simp only [readByte, hk', if_false, ih _ h.2, if_true]
    · have hb' : a ≠ b := fun h => hb h.symm
      simp only [hb, if_false]
      split
      · split
        · rfl
        · simp only [readByte, hb', if_false]
      · split
        · rename_i hk
          have hk' : k ≠ b := fun h => hb (by omega)
          split
          · simp only [readByte, hk', if_false]
          · simp only [readByte, hk', hb', if_false]
        · simp only [readByte, ih _ h.2, hb, if_false]

theorem wf_writeByte {m : List Host.Cell} (h : Memory.wf m = true) (a : Nat) (x : Byte) : Memory.wf (writeByte m a x) = true :=
  memOkFrom_writeByte a x h (Nat.zero_le _)

theorem wf_writeBytes {m : List Host.Cell} (h : Memory.wf m = true) (a : Nat) (bs : List Byte) : Memory.wf (writeBytes m a bs) = true := by
  induction bs generalizing m a with
  | nil => exact h
  | cons b bs ih => exact ih (wf_writeByte h a b) (a + 1)

/-- Bytes outside those that are written read as before. -/
theorem readByte_writeBytes_other {m : List Host.Cell} (h : Memory.wf m = true) (a : Nat) (bs : List Byte) {b : Nat}
    (hb : b < a ∨ a + bs.length ≤ b) : readByte (writeBytes m a bs) b = readByte m b := by
  induction bs generalizing m a with
  | nil => rfl
  | cons x bs ih =>
    simp only [List.length_cons] at hb
    simp only [writeBytes, ih (wf_writeByte h a x) (a + 1) (by omega), readByte_writeByte h]
    rw [if_neg (by omega)]

/-- The bytes that are written read as written. -/
theorem readByte_writeBytes {m : List Host.Cell} (h : Memory.wf m = true) (a : Nat) (bs : List Byte) {i : Nat} (hi : i < bs.length) :
    readByte (writeBytes m a bs) (a + i) = bs[i] := by
  induction bs generalizing m a i with
  | nil => simp at hi
  | cons x bs ih =>
    simp only [writeBytes]
    cases i with
    | zero => simp [readByte_writeBytes_other (wf_writeByte h a x) (a + 1) bs (b := a) (by omega), readByte_writeByte h]
    | succ i =>
      have := ih (wf_writeByte h a x) (a + 1) (i := i) (by simpa using hi)
      simpa [Nat.add_assoc, Nat.add_comm 1 i] using this

/-- Dropping cells below a bound, as a loss of power does, keeps the form. -/
theorem wf_filter (m : List Host.Cell) (p : Host.Cell → Bool) (h : Memory.wf m = true) : Memory.wf (m.filter p) = true := by
  suffices ∀ lo, memOkFrom lo m = true → memOkFrom lo (m.filter p) = true from this 0 h
  clear h
  induction m with
  | nil => intro _ _; rfl
  | cons c m ih =>
    intro lo h
    obtain ⟨k, b⟩ := c
    simp only [memOkFrom, Bool.and_eq_true, decide_eq_true_eq] at h
    simp only [List.filter_cons]
    split
    · simp only [memOkFrom, Bool.and_eq_true, decide_eq_true_eq]; exact ⟨h.1, ih _ h.2⟩
    · exact memOkFrom_mono (ih _ h.2) (by omega)

/-! ### What a write at a home sets off -/

/-- `t` differs from `s` at most in what a write at a home can set off: its contexts' waits, its launches, their completions, its
watchpoints, the commands that frames have been given, and the front die's clock. -/
def Notified (s t : State) : Prop :=
  ∃ ctxs launches posts pushes nextId watches frames lclockF,
    t = { s with ctxs := ctxs, launches := launches, posts := posts, pushes := pushes, nextId := nextId, watches := watches,
                 frames := frames, lclockF := lclockF }

theorem Notified.refl (s : State) : Notified s s := ⟨_, _, _, _, _, _, _, _, rfl⟩

theorem Notified.trans {s t u : State} (h : Notified s t) (k : Notified t u) : Notified s u := by
  obtain ⟨_, _, _, _, _, _, _, _, rfl⟩ := h
  obtain ⟨_, _, _, _, _, _, _, _, rfl⟩ := k
  exact ⟨_, _, _, _, _, _, _, _, rfl⟩

theorem Notified.foldl {α : Type} (f : State → α → State) (hf : ∀ s x, Notified s (f s x)) (xs : List α) (s : State) :
    Notified s (xs.foldl f s) := by
  induction xs generalizing s with
  | nil => exact Notified.refl s
  | cons x xs ih => exact (hf s x).trans (ih (f s x))

/-- A push changes its launch and, where the launch has ended, its completions; nothing else. -/
theorem State.push_frame {s t : State} {l cap : Nat} {b : List W64} {die watch : Option Nat} (h : s.push l b cap die watch = some t) :
    Notified s t := by
  simp only [State.push] at h
  split at h
  · cases h
  · split at h
    · cases h
    · split at h
      · cases h; exact ⟨_, _, _, _, _, _, _, _, rfl⟩
      · split at h <;> cases h <;> exact ⟨_, _, _, _, _, _, _, _, rfl⟩

theorem State.pushIf_frame {s t : State} {p : Prop} [Decidable p] {l cap : Nat} {b : List W64} {die watch : Option Nat}
    (h : (if p then s.push l b cap die watch else none) = some t) : Notified s t := by
  by_cases hp : p
  · rw [if_pos hp] at h; exact State.push_frame h
  · rw [if_neg hp] at h; cases h

/-- A watchpoint that a write reaches pushes at most. -/
theorem State.fireWatch_frame (s : State) (key pa n : Nat) : Notified s (s.fireWatch key pa n) := by
  unfold State.fireWatch
  split
  · exact Notified.refl s
  · refine Notified.foldl _ ?_ _ s
    intro u i
    dsimp only
    split
    · exact Notified.refl u
    · split
      · split
        · split
          · rename_i t hp
            have ht : Notified u t := State.pushIf_frame hp
            split
            · exact ht.trans ⟨_, _, _, _, _, _, _, _, rfl⟩
            · exact ht
          · exact ⟨_, _, _, _, _, _, _, _, rfl⟩
        · exact Notified.refl u
      · exact Notified.refl u

/-- A write at a home may fire monitors and push for watchpoints; it changes no other part of the state. -/
theorem State.homeWritten_frame (s : State) (pa n : Nat) : Notified s (s.homeWritten pa n) := by
  have h : Notified s (s.fireMonitors (lineOf pa)) := ⟨_, _, _, _, _, _, _, _, rfl⟩
  exact (h.trans (Notified.foldl _ (fun u k => State.fireWatch_frame u k pa n) _ _)).trans ⟨_, _, _, _, _, _, _, _, rfl⟩

@[simp] theorem State.homeWritten_mem (s : State) (pa n : Nat) : (s.homeWritten pa n).mem = s.mem := by
  obtain ⟨_, _, _, _, _, _, _, _, h⟩ := State.homeWritten_frame s pa n; rw [h]

@[simp] theorem State.homeWritten_l2 (s : State) (pa n : Nat) : (s.homeWritten pa n).l2 = s.l2 := by
  obtain ⟨_, _, _, _, _, _, _, _, h⟩ := State.homeWritten_frame s pa n; rw [h]

@[simp] theorem State.homeWritten_bayLines (s : State) (pa n : Nat) : (s.homeWritten pa n).bayLines = s.bayLines := by
  obtain ⟨_, _, _, _, _, _, _, _, h⟩ := State.homeWritten_frame s pa n; rw [h]

@[simp] theorem State.homeWritten_cores (s : State) (pa n : Nat) : (s.homeWritten pa n).cores = s.cores := by
  obtain ⟨_, _, _, _, _, _, _, _, h⟩ := State.homeWritten_frame s pa n; rw [h]

@[simp] theorem State.homeWritten_regs (s : State) (pa n : Nat) : (s.homeWritten pa n).regs = s.regs := by
  obtain ⟨_, _, _, _, _, _, _, _, h⟩ := State.homeWritten_frame s pa n; rw [h]

@[simp] theorem State.homeWritten_homeRead (s : State) (pa n a k : Nat) : (s.homeWritten pa n).homeRead a k = s.homeRead a k := by
  obtain ⟨_, _, _, _, _, _, _, _, h⟩ := State.homeWritten_frame s pa n; rw [h]; rfl

/-! ### Every storage operation keeps memory canonical -/

theorem State.writeDirty_wf {s : State} (h : Memory.wf s.mem = true) (l : Line) : Memory.wf (s.writeDirty l).mem = true := by
  have H : ∀ (is : List Nat) (m : List Host.Cell), Memory.wf m = true →
      Memory.wf (is.foldl (fun m i => if s.badAt (128 * l.line + i) 1 then m
        else writeByte m (128 * l.line + i) (BitVec.ofNat 8 (l.get i 1))) m) = true := by
    intro is
    induction is with
    | nil => intro m h; exact h
    | cons i is ih =>
      intro m h
      refine ih _ ?_
      dsimp only
      split
      · exact h
      · exact wf_writeByte h _ _
  exact H _ _ h

theorem State.l2Put_wf {s : State} (h : Memory.wf s.mem = true) (l : Line) (x : Hint) : Memory.wf (s.l2Put l x).mem = true := by
  unfold State.l2Put
  dsimp only
  split
  · exact State.writeDirty_wf (s := { s with l2 := _ }) h _
  · exact h

theorem State.homeWrite_wf {s : State} (h : Memory.wf s.mem = true) (pa n x : Nat) (t : Hint) : Memory.wf (s.homeWrite pa n x t).mem = true := by
  unfold State.homeWrite
  dsimp only
  rw [State.homeWritten_mem]
  split
  · exact State.l2Put_wf h _ _
  · exact wf_writeBytes h _ _

theorem State.l2Fill_wf {s : State} (h : Memory.wf s.mem = true) (n : Nat) (t : Hint) : Memory.wf (s.l2Fill n t).mem = true := by
  unfold State.l2Fill
  split
  · exact State.l2Put_wf h _ _
  · exact h

theorem State.l2Clean_wf {s : State} (h : Memory.wf s.mem = true) (n : Nat) : Memory.wf (s.l2Clean n).mem = true := by
  unfold State.l2Clean
  split
  · exact h
  · split
    · exact h
    · exact State.writeDirty_wf h _

theorem State.systemWrite_wf {s : State} (h : Memory.wf s.mem = true) (pa n x : Nat) (t : Hint) :
    Memory.wf (s.systemWrite pa n x t).mem = true := by
  have h1 : Memory.wf ({ s with mem := writeBytes s.mem pa (toBytes n x) } : State).mem = true := wf_writeBytes h _ _
  unfold State.systemWrite
  dsimp only
  rw [State.homeWritten_mem]
  split
  · exact State.l2Put_wf h1 _ _
  · exact h1

theorem State.systemRead_wf {s : State} (h : Memory.wf s.mem = true) (pa n : Nat) (t : Hint) :
    Memory.wf (s.systemRead pa n t).2.mem = true := by
  have h1 := State.l2Clean_wf h (lineOf pa)
  unfold State.systemRead
  dsimp only
  split
  · exact State.l2Put_wf h1 _ _
  · exact h1

theorem State.carryLine_wf {s : State} (h : Memory.wf s.mem = true) (l : Line) : Memory.wf (s.carryLine l).mem = true := by
  have H : ∀ (is : List Nat) (t : State), Memory.wf t.mem = true →
      Memory.wf (is.foldl (fun s i => s.homeWritten (128 * l.line + 8 * i) 8) t).mem = true := by
    intro is
    induction is with
    | nil => intro t h; exact h
    | cons i is ih => intro t h; exact ih _ (by rw [State.homeWritten_mem]; exact h)
  unfold State.carryLine
  split
  · exact h
  · refine H _ _ ?_
    split
    · exact State.l2Put_wf h _ _
    · exact State.writeDirty_wf h _

theorem State.carryFrom_wf {s : State} (h : Memory.wf s.mem = true) (die : Nat) (l : Line) : Memory.wf (s.carryFrom die l).mem = true := by
  unfold State.carryFrom
  split
  · exact h
  · exact State.carryLine_wf (by simpa using h) _

theorem State.bayClean_wf {s : State} (h : Memory.wf s.mem = true) (n b line : Nat) : Memory.wf (s.bayClean n b line).mem = true := by
  unfold State.bayClean
  split
  · exact h
  · exact State.carryFrom_wf h _ _

theorem State.bayPut_wf {s : State} (h : Memory.wf s.mem = true) (n b : Nat) (l : Line) (t : Hint) :
    Memory.wf (s.bayPut n b l t).mem = true := by
  unfold State.bayPut
  dsimp only
  split
  · refine State.carryFrom_wf ?_ _ _; exact h
  · exact h

theorem State.bayFill_wf {s : State} (h : Memory.wf s.mem = true) (n b line : Nat) (t : Hint) :
    Memory.wf (s.bayFill n b line t).2.mem = true := by
  unfold State.bayFill
  split
  · exact h
  · exact State.l2Fill_wf (by simpa using h) _ _

theorem State.bayRefresh_wf {s : State} (h : Memory.wf s.mem = true) (n b line : Nat) : Memory.wf (s.bayRefresh n b line).mem = true := by
  unfold State.bayRefresh
  split
  · exact h
  · exact State.bayPut_wf h _ _ _ _

/-- A fold of steps that each keep the form keeps it. -/
theorem foldl_wf {α : Type} (f : State → α → State) (hf : ∀ s x, Memory.wf s.mem = true → Memory.wf (f s x).mem = true) (xs : List α) {s : State}
    (h : Memory.wf s.mem = true) : Memory.wf (xs.foldl f s).mem = true := by
  induction xs generalizing s with
  | nil => exact h
  | cons x xs ih => exact ih (hf s x h)

theorem State.bayWriteBack_wf {s : State} (h : Memory.wf s.mem = true) (n b : Nat) (drop : Bool) :
    Memory.wf (s.bayWriteBack n b drop).mem = true := by
  have h1 := foldl_wf (fun s (l : Line) => s.bayClean n b l.line) (fun s x h => State.bayClean_wf h n b x.line) (s.bayAll n b) h
  unfold State.bayWriteBack
  dsimp only
  split <;> exact h1

theorem State.cleanEverywhere_wf {s : State} (h : Memory.wf s.mem = true) (line : Nat) : Memory.wf (s.cleanEverywhere line).mem = true :=
  foldl_wf _ (fun _ p h => State.bayClean_wf h (p.1 / 2048) (p.1 / 128 % 16) line) _ h

theorem State.readAt_wf {s : State} (h : Memory.wf s.mem = true) (n : Nat) (bay : Option Nat) (sc : Scope) (pa size : Nat) (t : Hint) :
    Memory.wf (s.readAt n bay sc pa size t).2.mem = true := by
  unfold State.readAt
  dsimp only
  split
  · exact h
  · split
    · split
      · exact State.bayPut_wf (State.bayFill_wf h _ _ _ _) _ _ _ _
      · split
        · exact State.bayRefresh_wf (State.systemRead_wf (State.bayClean_wf h _ _ _) _ _ _) _ _ _
        · exact State.bayRefresh_wf (State.l2Fill_wf (State.bayClean_wf h _ _ _) _ _) _ _ _
    · split
      · exact State.systemRead_wf h _ _ _
      · exact State.l2Fill_wf h _ _

theorem State.writeAt_wf {s : State} (h : Memory.wf s.mem = true) (n : Nat) (bay : Option Nat) (sc : Scope) (pa size x : Nat) (t : Hint) :
    Memory.wf (s.writeAt n bay sc pa size x t).mem = true := by
  have w : ∀ {u : State}, Memory.wf u.mem = true →
      Memory.wf (if effScope pa sc = .system then u.systemWrite pa size x t else u.homeWrite pa size x t).mem = true := by
    intro u hu
    split
    · exact State.systemWrite_wf hu _ _ _ _
    · exact State.homeWrite_wf hu _ _ _ _
  unfold State.writeAt
  dsimp only
  split
  · exact State.homeWrite_wf h _ _ _ _
  · split
    · split
      · exact State.bayPut_wf (State.bayFill_wf h _ _ _ _) _ _ _ _
      · split
        · exact State.bayPut_wf (w (State.bayClean_wf h _ _ _)) _ _ _ _
        · exact w (State.bayClean_wf h _ _ _)
    · exact w h

theorem State.atomicAt_wf {s : State} (h : Memory.wf s.mem = true) (sc : Scope) (pa size : Nat) (t : Hint) (f : Nat → Nat) :
    Memory.wf (s.atomicAt sc pa size t f).2.mem = true := by
  unfold State.atomicAt
  dsimp only
  split
  · exact State.homeWrite_wf h _ _ _ _
  · split
    · exact State.systemWrite_wf (State.systemRead_wf h _ _ _) _ _ _ _
    · exact State.homeWrite_wf (State.l2Fill_wf h _ _) _ _ _ _

theorem State.systemBytes_wf {s : State} (h : Memory.wf s.mem = true) (pa : Nat) (bs : List Byte) :
    Memory.wf (s.systemBytes pa bs).mem = true := foldl_wf _ (fun _ _ h => State.systemWrite_wf h _ _ _ _) _ h

theorem State.deviceBytes_wf {s : State} (h : Memory.wf s.mem = true) (pa : Nat) (bs : List Byte) :
    Memory.wf (s.deviceBytes pa bs).mem = true := foldl_wf _ (fun _ _ h => State.homeWrite_wf h _ _ _ _) _ h

/-! ### Reading after writing a cell -/

/-- Where no cache holds the line, the home reads what memory holds. -/
theorem State.homeLine_uncached {s : State} {n : Nat} (h : s.l2Line n = none) : s.homeLine n = s.backingLine n := by
  unfold State.homeLine; rw [h]

end Sys2Proof.Machine
end

