-- ==== Sys2Proof/Laws/Outside.lean ====
section
/-! SUPPORT. What keeping the replaced words of code in use leaves alone (R131): everything but the record of those words. -/

namespace Sys2Proof.Machine

@[simp] theorem State.noteCode_mem (s : State) (pa n : Nat) : (s.noteCode pa n).mem = s.mem := rfl
@[simp] theorem State.noteCode_l2 (s : State) (pa n : Nat) : (s.noteCode pa n).l2 = s.l2 := rfl
@[simp] theorem State.noteCode_ctxs (s : State) (pa n : Nat) : (s.noteCode pa n).ctxs = s.ctxs := rfl
@[simp] theorem State.noteCode_watches (s : State) (pa n : Nat) : (s.noteCode pa n).watches = s.watches := rfl
@[simp] theorem State.noteCode_regs (s : State) (pa n : Nat) : (s.noteCode pa n).regs = s.regs := rfl
@[simp] theorem State.noteCode_homeRead (s : State) (pa n a k : Nat) : (s.noteCode pa n).homeRead a k = s.homeRead a k := rfl
@[simp] theorem State.noteCode_l2Line (s : State) (pa n a : Nat) : (s.noteCode pa n).l2Line a = s.l2Line a := rfl

/-- Code that the host has not written while its module was in use is fetched as memory holds it. -/
theorem State.codeBytes_plain {s : State} {pc : W64} {m : Module} (h : s.codeWas = []) (hm : s.module? (pcModule pc) = some m) (n : Nat) :
    s.codeBytes pc n = (List.range n).map (fun i =>
      if pcOffset pc + i < m.size then BitVec.ofNat 8 (s.homeRead (m.pa + pcOffset pc + i) 1) else 0) := by
  simp [State.codeBytes, hm, h]

end Sys2Proof.Machine
end

