-- ==== Sys2Proof/Laws/PerInstr.lean ====
section
/-! SUPPORT. One lemma per constructor of `Instr`: each is a generator instruction, a lane word, or an event, and never two of them. -/

namespace Sys2Proof.Laws.WordKind

open Sys2Proof Sys2Proof.Machine

/-- An instruction is encoded in exactly one way: in the 32-bit words of a generator, in the 64 bits of a lane word, or, being an event, in
neither (R140, R146). -/
def Statement (i : Instr) : Prop :=
  (encode i ≠ [] ∧ encodeLane i = none) ∨ (encode i = [] ∧ (encodeLane i).isSome = true) ∨ (encode i = [] ∧ encodeLane i = none)

theorem encReg_ne (op fn d a b c : Nat) (len : ILen) (ann : Ann) (imm : Nat) : encReg op fn d a b c len ann imm ≠ [] := by
  cases len <;> simp [encReg]

theorem encLit_ne (op fn d a c : Nat) (len : ILen) (ann : Ann) (v : W64) : encLit op fn d a c len ann v ≠ [] := by
  cases len <;> simp [encLit]

theorem addRegister (t : GTy) (d : BitVec 6) (a : BitVec 6) (b : BitVec 6) : Statement (.addRegister t d a b) :=
  .inl ⟨encReg_ne 2 t.code d.toNat a.toNat b.toNat 0 .w32 noAnn 0, rfl⟩
theorem addLiteral (t : GTy) (d : BitVec 6) (a : BitVec 6) (l : GLit) : Statement (.addLiteral t d a l) :=
  .inl ⟨encLit_ne 3 t.code d.toNat a.toNat 0 l.len noAnn l.val, rfl⟩
theorem subRegister (t : GTy) (d : BitVec 6) (a : BitVec 6) (b : BitVec 6) : Statement (.subRegister t d a b) :=
  .inl ⟨encReg_ne 4 t.code d.toNat a.toNat b.toNat 0 .w32 noAnn 0, rfl⟩
theorem subLiteral (t : GTy) (d : BitVec 6) (a : BitVec 6) (l : GLit) : Statement (.subLiteral t d a l) :=
  .inl ⟨encLit_ne 5 t.code d.toNat a.toNat 0 l.len noAnn l.val, rfl⟩
theorem mulRegister (t : GTy) (d : BitVec 6) (a : BitVec 6) (b : BitVec 6) : Statement (.mulRegister t d a b) :=
  .inl ⟨encReg_ne 6 t.code d.toNat a.toNat b.toNat 0 .w32 noAnn 0, rfl⟩
theorem mulLiteral (t : GTy) (d : BitVec 6) (a : BitVec 6) (l : GLit) : Statement (.mulLiteral t d a l) :=
  .inl ⟨encLit_ne 7 t.code d.toNat a.toNat 0 l.len noAnn l.val, rfl⟩
theorem mulhRegister (t : GTy) (d : BitVec 6) (a : BitVec 6) (b : BitVec 6) : Statement (.mulhRegister t d a b) :=
  .inl ⟨encReg_ne 8 t.code d.toNat a.toNat b.toNat 0 .w32 noAnn 0, rfl⟩
theorem mulhLiteral (t : GTy) (d : BitVec 6) (a : BitVec 6) (l : GLit) : Statement (.mulhLiteral t d a l) :=
  .inl ⟨encLit_ne 9 t.code d.toNat a.toNat 0 l.len noAnn l.val, rfl⟩
theorem divRegister (t : GTy) (d : BitVec 6) (a : BitVec 6) (b : BitVec 6) : Statement (.divRegister t d a b) :=
  .inl ⟨encReg_ne 10 t.code d.toNat a.toNat b.toNat 0 .w32 noAnn 0, rfl⟩
theorem divLiteral (t : GTy) (d : BitVec 6) (a : BitVec 6) (l : GLit) : Statement (.divLiteral t d a l) :=
  .inl ⟨encLit_ne 11 t.code d.toNat a.toNat 0 l.len noAnn l.val, rfl⟩
theorem remRegister (t : GTy) (d : BitVec 6) (a : BitVec 6) (b : BitVec 6) : Statement (.remRegister t d a b) :=
  .inl ⟨encReg_ne 12 t.code d.toNat a.toNat b.toNat 0 .w32 noAnn 0, rfl⟩
theorem remLiteral (t : GTy) (d : BitVec 6) (a : BitVec 6) (l : GLit) : Statement (.remLiteral t d a l) :=
  .inl ⟨encLit_ne 13 t.code d.toNat a.toNat 0 l.len noAnn l.val, rfl⟩
theorem andRegister (t : GTy) (d : BitVec 6) (a : BitVec 6) (b : BitVec 6) : Statement (.andRegister t d a b) :=
  .inl ⟨encReg_ne 14 t.code d.toNat a.toNat b.toNat 0 .w32 noAnn 0, rfl⟩
theorem andLiteral (t : GTy) (d : BitVec 6) (a : BitVec 6) (l : GLit) : Statement (.andLiteral t d a l) :=
  .inl ⟨encLit_ne 15 t.code d.toNat a.toNat 0 l.len noAnn l.val, rfl⟩
theorem orRegister (t : GTy) (d : BitVec 6) (a : BitVec 6) (b : BitVec 6) : Statement (.orRegister t d a b) :=
  .inl ⟨encReg_ne 16 t.code d.toNat a.toNat b.toNat 0 .w32 noAnn 0, rfl⟩
theorem orLiteral (t : GTy) (d : BitVec 6) (a : BitVec 6) (l : GLit) : Statement (.orLiteral t d a l) :=
  .inl ⟨encLit_ne 17 t.code d.toNat a.toNat 0 l.len noAnn l.val, rfl⟩
theorem xorRegister (t : GTy) (d : BitVec 6) (a : BitVec 6) (b : BitVec 6) : Statement (.xorRegister t d a b) :=
  .inl ⟨encReg_ne 18 t.code d.toNat a.toNat b.toNat 0 .w32 noAnn 0, rfl⟩
theorem xorLiteral (t : GTy) (d : BitVec 6) (a : BitVec 6) (l : GLit) : Statement (.xorLiteral t d a l) :=
  .inl ⟨encLit_ne 19 t.code d.toNat a.toNat 0 l.len noAnn l.val, rfl⟩
theorem shlRegister (t : GTy) (d : BitVec 6) (a : BitVec 6) (b : BitVec 6) : Statement (.shlRegister t d a b) :=
  .inl ⟨encReg_ne 20 t.code d.toNat a.toNat b.toNat 0 .w32 noAnn 0, rfl⟩
theorem shlLiteral (t : GTy) (d : BitVec 6) (a : BitVec 6) (l : GLit) : Statement (.shlLiteral t d a l) :=
  .inl ⟨encLit_ne 21 t.code d.toNat a.toNat 0 l.len noAnn l.val, rfl⟩
theorem shrRegister (t : GTy) (d : BitVec 6) (a : BitVec 6) (b : BitVec 6) : Statement (.shrRegister t d a b) :=
  .inl ⟨encReg_ne 22 t.code d.toNat a.toNat b.toNat 0 .w32 noAnn 0, rfl⟩
theorem shrLiteral (t : GTy) (d : BitVec 6) (a : BitVec 6) (l : GLit) : Statement (.shrLiteral t d a l) :=
  .inl ⟨encLit_ne 23 t.code d.toNat a.toNat 0 l.len noAnn l.val, rfl⟩
theorem minRegister (t : GTy) (d : BitVec 6) (a : BitVec 6) (b : BitVec 6) : Statement (.minRegister t d a b) :=
  .inl ⟨encReg_ne 24 t.code d.toNat a.toNat b.toNat 0 .w32 noAnn 0, rfl⟩
theorem minLiteral (t : GTy) (d : BitVec 6) (a : BitVec 6) (l : GLit) : Statement (.minLiteral t d a l) :=
  .inl ⟨encLit_ne 25 t.code d.toNat a.toNat 0 l.len noAnn l.val, rfl⟩
theorem maxRegister (t : GTy) (d : BitVec 6) (a : BitVec 6) (b : BitVec 6) : Statement (.maxRegister t d a b) :=
  .inl ⟨encReg_ne 26 t.code d.toNat a.toNat b.toNat 0 .w32 noAnn 0, rfl⟩
theorem maxLiteral (t : GTy) (d : BitVec 6) (a : BitVec 6) (l : GLit) : Statement (.maxLiteral t d a l) :=
  .inl ⟨encLit_ne 27 t.code d.toNat a.toNat 0 l.len noAnn l.val, rfl⟩
theorem cmpRegister (r : Rel) (t : CTy) (d : BitVec 3) (a : BitVec 6) (b : BitVec 6) : Statement (.cmpRegister r t d a b) :=
  .inl ⟨encReg_ne 0x1C (4 * r.code + t.code) d.toNat a.toNat b.toNat 0 .w32 noAnn 0, rfl⟩
theorem cmpLiteral (r : Rel) (t : CTy) (d : BitVec 3) (a : BitVec 6) (l : GLit) : Statement (.cmpLiteral r t d a l) :=
  .inl ⟨encLit_ne 0x1D (4 * r.code + t.code) d.toNat a.toNat 0 l.len noAnn l.val, rfl⟩
theorem movRegister (t : GTy) (d : BitVec 6) (a : BitVec 6) : Statement (.movRegister t d a) :=
  .inl ⟨encReg_ne 0x1E t.code d.toNat a.toNat 0 0 .w32 noAnn 0, rfl⟩
theorem movLiteral (t : GTy) (d : BitVec 6) (l : GLit) : Statement (.movLiteral t d l) :=
  .inl ⟨encLit_ne 0x1F t.code d.toNat 0 0 l.len noAnn l.val, rfl⟩
theorem clz (t : BTy) (d : BitVec 6) (a : BitVec 6) : Statement (.clz t d a) := .inl ⟨encReg_ne 32 t.code d.toNat a.toNat 0 0 .w32 noAnn 0, rfl⟩
theorem popc (t : BTy) (d : BitVec 6) (a : BitVec 6) : Statement (.popc t d a) := .inl ⟨encReg_ne 33 t.code d.toNat a.toNat 0 0 .w32 noAnn 0, rfl⟩
theorem sel (d : BitVec 6) (c : BitVec 3) (a : BitVec 6) (b : BitVec 6) : Statement (.sel d c a b) :=
  .inl ⟨encReg_ne 0x22 c.toNat d.toNat a.toNat b.toNat 0 .w32 noAnn 0, rfl⟩
theorem kop (d : BitVec 3) (a : BitVec 3) (b : BitVec 3) (table : BitVec 4) : Statement (.kop d a b table) :=
  .inl ⟨encReg_ne 0x23 table.toNat d.toNat a.toNat b.toNat 0 .w32 noAnn 0, rfl⟩
theorem ext (s : Bool) (d : BitVec 6) (a : BitVec 6) (n : BitVec 6) : Statement (.ext s d a n) :=
  .inl ⟨encReg_ne 0x24 (boolNat s) d.toNat a.toNat n.toNat 0 .w32 noAnn 0, rfl⟩
theorem lea (d : BitVec 6) (a : BitVec 6) (b : BitVec 6) (sh : BitVec 4) : Statement (.lea d a b sh) :=
  .inl ⟨encReg_ne 0x25 sh.toNat d.toNat a.toNat b.toNat 0 .w32 noAnn 0, rfl⟩
theorem ld (t : MTy) (d : BitVec 6) (a : BitVec 6) (x : MX) : Statement (.ld t d a x) :=
  .inl ⟨encLit_ne 0x26 t.code d.toNat a.toNat 0 x.len (x.annOf .cluster) x.off, rfl⟩
theorem st (t : MTy) (d : BitVec 6) (a : BitVec 6) (x : MX) : Statement (.st t d a x) :=
  .inl ⟨encLit_ne 0x27 t.code d.toNat a.toNat 0 x.len (x.annOf .cluster) x.off, rfl⟩
theorem atom (n : Bool) (op : GAtom) (d : BitVec 6) (a : BitVec 6) (c : BitVec 6) (x : MX) : Statement (.atom n op d a c x) :=
  .inl ⟨encLit_ne 0x28 (8 * boolNat n + op.code) d.toNat a.toNat c.toNat x.len (x.annOf .device) x.off, rfl⟩
theorem cas (n : Bool) (d : BitVec 6) (a : BitVec 6) (c : BitVec 6) (x : MX) : Statement (.cas n d a c x) :=
  .inl ⟨encLit_ne 0x29 (8 * boolNat n) d.toNat a.toNat c.toNat x.len (x.annOf .device) x.off, rfl⟩
theorem br (c : BrCond) (k : BitVec 3) (l : GLit) : Statement (.br c k l) := .inl ⟨encLit_ne 0x2A c.code k.toNat 0 0 l.len noAnn l.val, rfl⟩
theorem brr (c : BrCond) (k : BitVec 3) (a : BitVec 6) : Statement (.brr c k a) := .inl ⟨encReg_ne 0x2B c.code k.toNat a.toNat 0 0 .w32 noAnn 0, rfl⟩
theorem call (d : BitVec 6) (l : GLit) : Statement (.call d l) := .inl ⟨encLit_ne 0x2C 0 d.toNat 0 0 l.len noAnn l.val, rfl⟩
theorem callr (d : BitVec 6) (a : BitVec 6) : Statement (.callr d a) := .inl ⟨encReg_ne 0x2D 0 d.toNat a.toNat 0 0 .w32 noAnn 0, rfl⟩
theorem loop (d : BitVec 6) (l : GLit) : Statement (.loop d l) := .inl ⟨encLit_ne 0x2E 0 d.toNat 0 0 l.len noAnn l.val, rfl⟩
theorem ipf (v : Level) (n : BitVec 6) (l : GLit) : Statement (.ipf v n l) := .inl ⟨encLit_ne 0x2F v.code n.toNat 0 0 l.len noAnn l.val, rfl⟩
theorem ipfr (v : Level) (n : BitVec 6) (a : BitVec 6) : Statement (.ipfr v n a) := .inl ⟨encReg_ne 0x30 v.code n.toNat a.toNat 0 0 .w32 noAnn 0, rfl⟩
theorem sysrd (d : BitVec 6) (l : GLit) : Statement (.sysrd d l) := .inl ⟨encLit_ne 0x31 0 d.toNat 0 0 l.len noAnn l.val, rfl⟩
theorem syswr (a : BitVec 6) (l : GLit) : Statement (.syswr a l) := .inl ⟨encLit_ne 0x32 0 0 a.toNat 0 l.len noAnn l.val, rfl⟩
theorem yield (l : GLit) : Statement (.yield l) := .inl ⟨encLit_ne 51 0 0 0 0 l.len noAnn l.val, rfl⟩
theorem step : Statement (.step) := .inl ⟨encReg_ne 52 0 0 0 0 0 .w32 noAnn 0, rfl⟩
theorem taskend : Statement (.taskend) := .inl ⟨encReg_ne 53 0 0 0 0 0 .w32 noAnn 0, rfl⟩
theorem trap (l : GLit) : Statement (.trap l) := .inl ⟨encLit_ne 54 0 0 0 0 l.len noAnn l.val, rfl⟩
theorem nop : Statement (.nop) := .inl ⟨encReg_ne 55 0 0 0 0 0 .w32 noAnn 0, rfl⟩
theorem adr (d : BitVec 6) (l : GLit) : Statement (.adr d l) := .inl ⟨encLit_ne 0x38 0 d.toNat 0 0 l.len noAnn l.val, rfl⟩
theorem emit (n : BitVec 6) (l : GLit) : Statement (.emit n l) := .inl ⟨encLit_ne 0x40 0 n.toNat 0 0 l.len noAnn l.val, rfl⟩
theorem emitM (die : Bool) (n : BitVec 6) (a : BitVec 6) (len : ILen) : Statement (.emitM die n a len) :=
  .inl ⟨encLit_ne 0x41 (boolNat die) n.toNat a.toNat 0 len noAnn 0, rfl⟩
theorem captBegin (l : GLit) : Statement (.captBegin l) := .inl ⟨encLit_ne 66 0 0 0 0 l.len noAnn l.val, rfl⟩
theorem captEnd : Statement (.captEnd) := .inl ⟨encReg_ne 67 0 0 0 0 0 .w32 noAnn 0, rfl⟩
theorem captDrop (l : GLit) : Statement (.captDrop l) := .inl ⟨encLit_ne 68 0 0 0 0 l.len noAnn l.val, rfl⟩
theorem captLoad (l : GLit) : Statement (.captLoad l) := .inl ⟨encLit_ne 69 0 0 0 0 l.len noAnn l.val, rfl⟩
theorem replay (l : GLit) : Statement (.replay l) := .inl ⟨encLit_ne 70 0 0 0 0 l.len noAnn l.val, rfl⟩
theorem replayM (die : Bool) (a : BitVec 6) (l : GLit) : Statement (.replayM die a l) :=
  .inl ⟨encLit_ne 0x47 (boolNat die) 0 a.toNat 0 l.len noAnn l.val, rfl⟩
theorem hset (n : BitVec 3) (a : BitVec 6) : Statement (.hset n a) := .inl ⟨encReg_ne 0x48 0 n.toNat a.toNat 0 0 .w32 noAnn 0, rfl⟩
theorem vrd (d : BitVec 6) : Statement (.vrd d) := .inl ⟨encReg_ne 0x49 0 d.toNat 0 0 0 .w32 noAnn 0, rfl⟩
theorem vtest (k : BitVec 3) : Statement (.vtest k) := .inl ⟨encReg_ne 0x4A 0 k.toNat 0 0 0 .w32 noAnn 0, rfl⟩
theorem swait (l : GLit) : Statement (.swait l) := .inl ⟨encLit_ne 75 0 0 0 0 l.len noAnn l.val, rfl⟩
theorem srd (d : BitVec 6) (n : BitVec 3) : Statement (.srd d n) := .inl ⟨encReg_ne 0x4C 0 d.toNat n.toNat 0 0 .w32 noAnn 0, rfl⟩
theorem fwaitAny (d : BitVec 6) (a : BitVec 6) : Statement (.fwaitAny d a) := .inl ⟨encReg_ne 80 0 d.toNat a.toNat 0 0 .w32 noAnn 0, rfl⟩
theorem fwaitAll (d : BitVec 6) (a : BitVec 6) : Statement (.fwaitAll d a) := .inl ⟨encReg_ne 81 0 d.toNat a.toNat 0 0 .w32 noAnn 0, rfl⟩
theorem fwaitFfr (d : BitVec 6) (a : BitVec 6) : Statement (.fwaitFfr d a) := .inl ⟨encReg_ne 82 0 d.toNat a.toNat 0 0 .w32 noAnn 0, rfl⟩
theorem ftest (d : BitVec 6) (a : BitVec 6) : Statement (.ftest d a) := .inl ⟨encReg_ne 0x53 0 d.toNat a.toNat 0 0 .w32 noAnn 0, rfl⟩
theorem ftestAddr (d : BitVec 6) (a : BitVec 6) : Statement (.ftestAddr d a) := .inl ⟨encReg_ne 0x53 1 d.toNat a.toNat 0 0 .w32 noAnn 0, rfl⟩
theorem fcancel (f : BitVec 6) : Statement (.fcancel f) := .inl ⟨encReg_ne 0x54 0 0 f.toNat 0 0 .w32 noAnn 0, rfl⟩
theorem fstore (f : BitVec 6) (a : BitVec 6) (x : SX) : Statement (.fstore f a x) :=
  .inl ⟨encReg_ne 85 0 f.toNat a.toNat 0 0 x.len (x.annOf .device) 0, rfl⟩
theorem fload (tv : Bool) (f : BitVec 6) (a : BitVec 6) (gt : BitVec 6) (len : ILen) : Statement (.fload tv f a gt len) :=
  .inl ⟨encReg_ne 0x56 (8 * boolNat tv) f.toNat a.toNat gt.toNat 0 len noAnn 0, rfl⟩
theorem freg (a : BitVec 6) (b : BitVec 6) (c : BitVec 6) (x : SX) : Statement (.freg a b c x) :=
  .inl ⟨encReg_ne 87 0 0 a.toNat b.toNat c.toNat x.len (x.annOf .device) 0, rfl⟩
theorem fsetInit (n : BitVec 3) (a : BitVec 6) (x : SX) : Statement (.fsetInit n a x) :=
  .inl ⟨encReg_ne 88 0 n.toNat a.toNat 0 0 x.len (x.annOf .device) 0, rfl⟩
theorem fsetRes (a : BitVec 6) (b : BitVec 6) (x : SX) : Statement (.fsetRes a b x) :=
  .inl ⟨encReg_ne 88 1 0 a.toNat b.toNat 0 x.len (x.annOf .device) 0, rfl⟩
theorem fsetCan (a : BitVec 6) (x : SX) : Statement (.fsetCan a x) := .inl ⟨encReg_ne 88 2 0 a.toNat 0 0 x.len (x.annOf .device) 0, rfl⟩
theorem spawn (a : BitVec 6) (x : MX) : Statement (.spawn a x) := .inl ⟨encLit_ne 0x59 0 0 a.toNat 0 x.len (x.annOf .device) x.off, rfl⟩
theorem spawnMask (a : BitVec 6) (c : BitVec 6) (x : MX) : Statement (.spawnMask a c x) :=
  .inl ⟨encLit_ne 0x59 1 0 a.toNat c.toNat x.len (x.annOf .device) x.off, rfl⟩
theorem spawnRoot (a : BitVec 6) (x : MX) : Statement (.spawnRoot a x) := .inl ⟨encLit_ne 0x59 2 0 a.toNat 0 x.len (x.annOf .device) x.off, rfl⟩
theorem jraise (l : GLit) : Statement (.jraise l) := .inl ⟨encLit_ne 90 0 0 0 0 l.len noAnn l.val, rfl⟩
theorem bquery (d : BitVec 6) (l : GLit) : Statement (.bquery d l) := .inl ⟨encLit_ne 0x5B 0 d.toNat 0 0 l.len noAnn l.val, rfl⟩
theorem flInit (win : Bool) (a : BitVec 6) (c : BitVec 6) (l : GLit) : Statement (.flInit win a c l) :=
  .inl ⟨encLit_ne 0x5C (boolNat win) 0 a.toNat c.toNat l.len noAnn l.val, rfl⟩
theorem flAcq (d : BitVec 6) (l : GLit) : Statement (.flAcq d l) := .inl ⟨encLit_ne 0x5D 0 d.toNat 0 0 l.len noAnn l.val, rfl⟩
theorem flCommit (a : BitVec 6) (x : MX) : Statement (.flCommit a x) := .inl ⟨encLit_ne 94 0 0 a.toNat 0 x.len (x.annOf .cluster) x.off, rfl⟩
theorem flCommitF (f : BitVec 6) (a : BitVec 6) (x : MX) : Statement (.flCommitF f a x) :=
  .inl ⟨encLit_ne 94 1 f.toNat a.toNat 0 x.len (x.annOf .cluster) x.off, rfl⟩
theorem flWait (d : BitVec 6) (l : GLit) : Statement (.flWait d l) := .inl ⟨encLit_ne 0x5F 0 d.toNat 0 0 l.len noAnn l.val, rfl⟩
theorem flRel (a : BitVec 6) (x : MX) : Statement (.flRel a x) := .inl ⟨encLit_ne 96 0 0 a.toNat 0 x.len (x.annOf .cluster) x.off, rfl⟩
theorem flRelF (f : BitVec 6) (a : BitVec 6) (x : MX) : Statement (.flRelF f a x) :=
  .inl ⟨encLit_ne 96 1 f.toNat a.toNat 0 x.len (x.annOf .cluster) x.off, rfl⟩
theorem barCl : Statement (.barCl) := .inl ⟨encReg_ne 97 0 0 0 0 0 .w32 noAnn 0, rfl⟩
theorem barDie (n : BitVec 2) : Statement (.barDie n) := .inl ⟨encReg_ne 0x62 n.toNat 0 0 0 0 .w32 noAnn 0, rfl⟩
theorem mon (d : BitVec 6) (a : BitVec 6) (x : SX) : Statement (.mon d a x) :=
  .inl ⟨encReg_ne 99 0 d.toNat a.toNat 0 0 x.len (x.annOf .device) 0, rfl⟩
theorem mwait (d : BitVec 6) (a : BitVec 6) : Statement (.mwait d a) := .inl ⟨encReg_ne 0x64 0 d.toNat a.toNat 0 0 .w32 noAnn 0, rfl⟩
theorem wpSet (d : BitVec 6) (a : BitVec 6) (x : SX) : Statement (.wpSet d a x) :=
  .inl ⟨encReg_ne 101 0 d.toNat a.toNat 0 0 x.len (x.annOf .device) 0, rfl⟩
theorem wpClr (a : BitVec 6) : Statement (.wpClr a) := .inl ⟨encReg_ne 0x66 0 0 a.toNat 0 0 .w32 noAnn 0, rfl⟩
theorem copy (f : BitVec 6) (a : BitVec 6) (b : BitVec 6) (x : EX) : Statement (.copy f a b x) :=
  .inl ⟨encReg_ne 112 0 f.toNat a.toNat b.toNat 0 x.len (x.annOf .cluster) (x.imm 0), rfl⟩
theorem gather (tv : Bool) (f : BitVec 6) (a : BitVec 6) (b : BitVec 6) (c : BitVec 6) (gt : BitVec 6) (x : EX) : Statement (.gather tv f a b c gt x) :=
  .inl ⟨encReg_ne 113 (8 * boolNat tv) f.toNat a.toNat b.toNat c.toNat x.len (x.annOf .cluster) (x.imm gt.toNat), rfl⟩
theorem scatter (tv : Bool) (f : BitVec 6) (a : BitVec 6) (b : BitVec 6) (c : BitVec 6) (gt : BitVec 6) (x : EX) : Statement (.scatter tv f a b c gt x) :=
  .inl ⟨encReg_ne 114 (8 * boolNat tv) f.toNat a.toNat b.toNat c.toNat x.len (x.annOf .cluster) (x.imm gt.toNat), rfl⟩
theorem spmm (s : Bool) (f : BitVec 6) (a : BitVec 6) (b : BitVec 6) (c : BitVec 6) (x : EX) : Statement (.spmm s f a b c x) :=
  .inl ⟨encReg_ne 115 (boolNat s) f.toNat a.toNat b.toNat c.toNat x.len (x.annOf .cluster) (x.imm 0), rfl⟩
theorem mergeU (tv : Bool) (dz : Bool) (f : BitVec 6) (a : BitVec 6) (b : BitVec 6) (c : BitVec 6) (gt : BitVec 6) (x : EX) : Statement (.mergeU tv dz f a b c gt x) :=
  .inl ⟨encReg_ne 116 (8 * boolNat tv + boolNat dz) f.toNat a.toNat b.toNat c.toNat x.len (x.annOf .cluster) (x.imm gt.toNat), rfl⟩
theorem mergeI (tv : Bool) (f : BitVec 6) (a : BitVec 6) (b : BitVec 6) (c : BitVec 6) (gt : BitVec 6) (x : EX) : Statement (.mergeI tv f a b c gt x) :=
  .inl ⟨encReg_ne 117 (8 * boolNat tv) f.toNat a.toNat b.toNat c.toNat x.len (x.annOf .cluster) (x.imm gt.toNat), rfl⟩
theorem clBcast (f : BitVec 6) (a : BitVec 6) (b : BitVec 6) (x : EX) : Statement (.clBcast f a b x) :=
  .inl ⟨encReg_ne 118 0 f.toNat a.toNat b.toNat 0 x.len (x.annOf .device) (x.imm 0), rfl⟩
theorem clReduce (op : RedOp) (f : BitVec 6) (a : BitVec 6) (b : BitVec 6) (x : EX) : Statement (.clReduce op f a b x) :=
  .inl ⟨encReg_ne 119 op.code f.toNat a.toNat b.toNat 0 x.len (x.annOf .device) (x.imm 0), rfl⟩
theorem clAllred (op : RedOp) (f : BitVec 6) (a : BitVec 6) (b : BitVec 6) (x : EX) : Statement (.clAllred op f a b x) :=
  .inl ⟨encReg_ne 120 op.code f.toNat a.toNat b.toNat 0 x.len (x.annOf .device) (x.imm 0), rfl⟩
theorem clGather (f : BitVec 6) (a : BitVec 6) (b : BitVec 6) (x : EX) : Statement (.clGather f a b x) :=
  .inl ⟨encReg_ne 121 0 f.toNat a.toNat b.toNat 0 x.len (x.annOf .device) (x.imm 0), rfl⟩
theorem clScatter (f : BitVec 6) (a : BitVec 6) (b : BitVec 6) (x : EX) : Statement (.clScatter f a b x) :=
  .inl ⟨encReg_ne 122 0 f.toNat a.toNat b.toNat 0 x.len (x.annOf .device) (x.imm 0), rfl⟩
theorem clA2a (f : BitVec 6) (a : BitVec 6) (b : BitVec 6) (x : EX) : Statement (.clA2a f a b x) :=
  .inl ⟨encReg_ne 123 0 f.toNat a.toNat b.toNat 0 x.len (x.annOf .device) (x.imm 0), rfl⟩
theorem wback (f : BitVec 6) (a : BitVec 6) (b : BitVec 6) (x : EX) : Statement (.wback f a b x) :=
  .inl ⟨encReg_ne 124 0 f.toNat a.toNat b.toNat 0 x.len (x.annOf .cluster) (x.imm 0), rfl⟩
theorem dropr (f : BitVec 6) (a : BitVec 6) (b : BitVec 6) (x : EX) : Statement (.dropr f a b x) :=
  .inl ⟨encReg_ne 125 0 f.toNat a.toNat b.toNat 0 x.len (x.annOf .cluster) (x.imm 0), rfl⟩
theorem fill (f : BitVec 6) (a : BitVec 6) (b : BitVec 6) (x : EX) : Statement (.fill f a b x) :=
  .inl ⟨encReg_ne 126 0 f.toNat a.toNat b.toNat 0 x.len (x.annOf .cluster) (x.imm 0), rfl⟩
theorem iadd (w : LA) : Statement (.iadd w) := .inr (.inl ⟨rfl, rfl⟩)
theorem isub (w : LA) : Statement (.isub w) := .inr (.inl ⟨rfl, rfl⟩)
theorem imul (w : LA) : Statement (.imul w) := .inr (.inl ⟨rfl, rfl⟩)
theorem imulh (w : LA) : Statement (.imulh w) := .inr (.inl ⟨rfl, rfl⟩)
theorem imad (w : LA) : Statement (.imad w) := .inr (.inl ⟨rfl, rfl⟩)
theorem idiv (w : LA) : Statement (.idiv w) := .inr (.inl ⟨rfl, rfl⟩)
theorem irem (w : LA) : Statement (.irem w) := .inr (.inl ⟨rfl, rfl⟩)
theorem imin (w : LA) : Statement (.imin w) := .inr (.inl ⟨rfl, rfl⟩)
theorem imax (w : LA) : Statement (.imax w) := .inr (.inl ⟨rfl, rfl⟩)
theorem iabs (w : LA) : Statement (.iabs w) := .inr (.inl ⟨rfl, rfl⟩)
theorem laneAnd (w : LA) : Statement (.laneAnd w) := .inr (.inl ⟨rfl, rfl⟩)
theorem laneOr (w : LA) : Statement (.laneOr w) := .inr (.inl ⟨rfl, rfl⟩)
theorem laneXor (w : LA) : Statement (.laneXor w) := .inr (.inl ⟨rfl, rfl⟩)
theorem laneShl (w : LA) : Statement (.laneShl w) := .inr (.inl ⟨rfl, rfl⟩)
theorem laneShr (w : LA) : Statement (.laneShr w) := .inr (.inl ⟨rfl, rfl⟩)
theorem laneClz (w : LA) : Statement (.laneClz w) := .inr (.inl ⟨rfl, rfl⟩)
theorem lanePopc (w : LA) : Statement (.lanePopc w) := .inr (.inl ⟨rfl, rfl⟩)
theorem bfx (w : LA) : Statement (.bfx w) := .inr (.inl ⟨rfl, rfl⟩)
theorem bfi (w : LA) : Statement (.bfi w) := .inr (.inl ⟨rfl, rfl⟩)
theorem icmp (w : LA) : Statement (.icmp w) := .inr (.inl ⟨rfl, rfl⟩)
theorem laneSel (w : LA) : Statement (.laneSel w) := .inr (.inl ⟨rfl, rfl⟩)
theorem laneMov (w : LA) : Statement (.laneMov w) := .inr (.inl ⟨rfl, rfl⟩)
theorem affAdd (w : LA) : Statement (.affAdd w) := .inr (.inl ⟨rfl, rfl⟩)
theorem affSub (w : LA) : Statement (.affSub w) := .inr (.inl ⟨rfl, rfl⟩)
theorem affMul (w : LA) : Statement (.affMul w) := .inr (.inl ⟨rfl, rfl⟩)
theorem affShl (w : LA) : Statement (.affShl w) := .inr (.inl ⟨rfl, rfl⟩)
theorem affMk (w : LA) : Statement (.affMk w) := .inr (.inl ⟨rfl, rfl⟩)
theorem affStr (w : LA) : Statement (.affStr w) := .inr (.inl ⟨rfl, rfl⟩)
theorem promQa (w : LA) : Statement (.promQa w) := .inr (.inl ⟨rfl, rfl⟩)
theorem promQv (w : LA) : Statement (.promQv w) := .inr (.inl ⟨rfl, rfl⟩)
theorem promAv (w : LA) : Statement (.promAv w) := .inr (.inl ⟨rfl, rfl⟩)
theorem xtr (w : LA) : Statement (.xtr w) := .inr (.inl ⟨rfl, rfl⟩)
theorem mAnd (w : LA) : Statement (.mAnd w) := .inr (.inl ⟨rfl, rfl⟩)
theorem mOr (w : LA) : Statement (.mOr w) := .inr (.inl ⟨rfl, rfl⟩)
theorem mXor (w : LA) : Statement (.mXor w) := .inr (.inl ⟨rfl, rfl⟩)
theorem mNot (w : LA) : Statement (.mNot w) := .inr (.inl ⟨rfl, rfl⟩)
theorem mFromq (w : LA) : Statement (.mFromq w) := .inr (.inl ⟨rfl, rfl⟩)
theorem mToq (w : LA) : Statement (.mToq w) := .inr (.inl ⟨rfl, rfl⟩)
theorem lexit (w : LA) : Statement (.lexit w) := .inr (.inl ⟨rfl, rfl⟩)
theorem shfl (w : LA) : Statement (.shfl w) := .inr (.inl ⟨rfl, rfl⟩)
theorem shflRot (w : LA) : Statement (.shflRot w) := .inr (.inl ⟨rfl, rfl⟩)
theorem shflXor (w : LA) : Statement (.shflXor w) := .inr (.inl ⟨rfl, rfl⟩)
theorem bcast (w : LA) : Statement (.bcast w) := .inr (.inl ⟨rfl, rfl⟩)
theorem redAdd (w : LA) : Statement (.redAdd w) := .inr (.inl ⟨rfl, rfl⟩)
theorem redMin (w : LA) : Statement (.redMin w) := .inr (.inl ⟨rfl, rfl⟩)
theorem redMax (w : LA) : Statement (.redMax w) := .inr (.inl ⟨rfl, rfl⟩)
theorem redAnd (w : LA) : Statement (.redAnd w) := .inr (.inl ⟨rfl, rfl⟩)
theorem redOr (w : LA) : Statement (.redOr w) := .inr (.inl ⟨rfl, rfl⟩)
theorem scanAdd (w : LA) : Statement (.scanAdd w) := .inr (.inl ⟨rfl, rfl⟩)
theorem scanMax (w : LA) : Statement (.scanMax w) := .inr (.inl ⟨rfl, rfl⟩)
theorem vote (w : LA) : Statement (.vote w) := .inr (.inl ⟨rfl, rfl⟩)
theorem isect (w : LA) : Statement (.isect w) := .inr (.inl ⟨rfl, rfl⟩)
theorem compact (w : LA) : Statement (.compact w) := .inr (.inl ⟨rfl, rfl⟩)
theorem expand (w : LA) : Statement (.expand w) := .inr (.inl ⟨rfl, rfl⟩)
theorem fadd (w : LA) : Statement (.fadd w) := .inr (.inl ⟨rfl, rfl⟩)
theorem fsub (w : LA) : Statement (.fsub w) := .inr (.inl ⟨rfl, rfl⟩)
theorem fmul (w : LA) : Statement (.fmul w) := .inr (.inl ⟨rfl, rfl⟩)
theorem fma (w : LA) : Statement (.fma w) := .inr (.inl ⟨rfl, rfl⟩)
theorem fnma (w : LA) : Statement (.fnma w) := .inr (.inl ⟨rfl, rfl⟩)
theorem fdiv (w : LA) : Statement (.fdiv w) := .inr (.inl ⟨rfl, rfl⟩)
theorem fsqrt (w : LA) : Statement (.fsqrt w) := .inr (.inl ⟨rfl, rfl⟩)
theorem fmin (w : LA) : Statement (.fmin w) := .inr (.inl ⟨rfl, rfl⟩)
theorem fmax (w : LA) : Statement (.fmax w) := .inr (.inl ⟨rfl, rfl⟩)
theorem fabs (w : LA) : Statement (.fabs w) := .inr (.inl ⟨rfl, rfl⟩)
theorem fneg (w : LA) : Statement (.fneg w) := .inr (.inl ⟨rfl, rfl⟩)
theorem fcmp (w : LA) : Statement (.fcmp w) := .inr (.inl ⟨rfl, rfl⟩)
theorem fclass (w : LA) : Statement (.fclass w) := .inr (.inl ⟨rfl, rfl⟩)
theorem fsgn (w : LA) : Statement (.fsgn w) := .inr (.inl ⟨rfl, rfl⟩)
theorem frnd (w : LA) : Statement (.frnd w) := .inr (.inl ⟨rfl, rfl⟩)
theorem fscale (w : LA) : Statement (.fscale w) := .inr (.inl ⟨rfl, rfl⟩)
theorem fgetexp (w : LA) : Statement (.fgetexp w) := .inr (.inl ⟨rfl, rfl⟩)
theorem frcp (w : LA) : Statement (.frcp w) := .inr (.inl ⟨rfl, rfl⟩)
theorem frsq (w : LA) : Statement (.frsq w) := .inr (.inl ⟨rfl, rfl⟩)
theorem fexp2 (w : LA) : Statement (.fexp2 w) := .inr (.inl ⟨rfl, rfl⟩)
theorem flog2 (w : LA) : Statement (.flog2 w) := .inr (.inl ⟨rfl, rfl⟩)
theorem fsin (w : LA) : Statement (.fsin w) := .inr (.inl ⟨rfl, rfl⟩)
theorem fcos (w : LA) : Statement (.fcos w) := .inr (.inl ⟨rfl, rfl⟩)
theorem ftanh (w : LA) : Statement (.ftanh w) := .inr (.inl ⟨rfl, rfl⟩)
theorem fsigm (w : LA) : Statement (.fsigm w) := .inr (.inl ⟨rfl, rfl⟩)
theorem ferf (w : LA) : Statement (.ferf w) := .inr (.inl ⟨rfl, rfl⟩)
theorem cvt (w : LA) : Statement (.cvt w) := .inr (.inl ⟨rfl, rfl⟩)
theorem cvtBlk (w : LA) : Statement (.cvtBlk w) := .inr (.inl ⟨rfl, rfl⟩)
theorem bscale (w : LA) : Statement (.bscale w) := .inr (.inl ⟨rfl, rfl⟩)
theorem planePk (w : LA) : Statement (.planePk w) := .inr (.inl ⟨rfl, rfl⟩)
theorem planeUp (w : LA) : Statement (.planeUp w) := .inr (.inl ⟨rfl, rfl⟩)
theorem laneLd (w : LM) : Statement (.laneLd w) := .inr (.inl ⟨rfl, rfl⟩)
theorem laneSt (w : LM) : Statement (.laneSt w) := .inr (.inl ⟨rfl, rfl⟩)
theorem ldSp (w : LM) : Statement (.ldSp w) := .inr (.inl ⟨rfl, rfl⟩)
theorem stSp (w : LM) : Statement (.stSp w) := .inr (.inl ⟨rfl, rfl⟩)
theorem ldWin (w : LM) : Statement (.ldWin w) := .inr (.inl ⟨rfl, rfl⟩)
theorem stWin (w : LM) : Statement (.stWin w) := .inr (.inl ⟨rfl, rfl⟩)
theorem laneAtom (w : LM) : Statement (.laneAtom w) := .inr (.inl ⟨rfl, rfl⟩)
theorem laneCas (w : LM) : Statement (.laneCas w) := .inr (.inl ⟨rfl, rfl⟩)
theorem ldcp (w : LM) : Statement (.ldcp w) := .inr (.inl ⟨rfl, rfl⟩)
theorem stcp (w : LM) : Statement (.stcp w) := .inr (.inl ⟨rfl, rfl⟩)
theorem pref (w : LM) : Statement (.pref w) := .inr (.inl ⟨rfl, rfl⟩)
theorem sgath (w : LM) : Statement (.sgath w) := .inr (.inl ⟨rfl, rfl⟩)
theorem sscat (w : LM) : Statement (.sscat w) := .inr (.inl ⟨rfl, rfl⟩)
theorem hist (w : LM) : Statement (.hist w) := .inr (.inl ⟨rfl, rfl⟩)
theorem accRd (w : LM) : Statement (.accRd w) := .inr (.inl ⟨rfl, rfl⟩)
theorem accWr (w : LM) : Statement (.accWr w) := .inr (.inl ⟨rfl, rfl⟩)
theorem accClr (w : LA) : Statement (.accClr w) := .inr (.inl ⟨rfl, rfl⟩)
theorem mma (w : LE) : Statement (.mma w) := .inr (.inl ⟨rfl, rfl⟩)
theorem contextForm (n : BitVec 5) : Statement (.contextForm n) := .inr (.inr ⟨rfl, rfl⟩)
theorem contextPick (n : BitVec 5) : Statement (.contextPick n) := .inr (.inr ⟨rfl, rfl⟩)
theorem contextUnblock (n : BitVec 5) (slot : BitVec 3) : Statement (.contextUnblock n slot) := .inr (.inr ⟨rfl, rfl⟩)
theorem watchdog (n : BitVec 5) : Statement (.watchdog n) := .inr (.inr ⟨rfl, rfl⟩)
theorem portOperationStart (n : BitVec 5) (port : BitVec 1) : Statement (.portOperationStart n port) := .inr (.inr ⟨rfl, rfl⟩)
theorem portWordWrite (n : BitVec 5) (port : BitVec 1) : Statement (.portWordWrite n port) := .inr (.inr ⟨rfl, rfl⟩)
theorem replayReadback (n : BitVec 5) (slot : Tried (BitVec 3)) : Statement (.replayReadback n slot) := .inr (.inr ⟨rfl, rfl⟩)
theorem voteReady (n : BitVec 5) (slot : BitVec 3) : Statement (.voteReady n slot) := .inr (.inr ⟨rfl, rfl⟩)
theorem codeFillArrival (lvl : Level) (unit : BitVec 5) (line : W64) (o : Attempt) : Statement (.codeFillArrival lvl unit line o) :=
  .inr (.inr ⟨rfl, rfl⟩)
theorem pageWalkDone (die : BitVec 3) (space : BitVec 2) (vpn : BitVec 60) (o : Attempt) : Statement (.pageWalkDone die space vpn o) :=
  .inr (.inr ⟨rfl, rfl⟩)
theorem accessPerformed (id : Nat) (o : Tried (List Nat)) : Statement (.accessPerformed id o) := .inr (.inr ⟨rfl, rfl⟩)
theorem accessAcknowledgement (id : Nat) : Statement (.accessAcknowledgement id) := .inr (.inr ⟨rfl, rfl⟩)
theorem engineCommandStart (id : Tried Nat) : Statement (.engineCommandStart id) := .inr (.inr ⟨rfl, rfl⟩)
theorem slotResolve (n : BitVec 5) (slot : BitVec 3) (f : BitVec 6) : Statement (.slotResolve n slot f) := .inr (.inr ⟨rfl, rfl⟩)
theorem mmaAccept (id : Nat) : Statement (.mmaAccept id) := .inr (.inr ⟨rfl, rfl⟩)
theorem mmaStep (n : BitVec 5) (bay : BitVec 4) : Statement (.mmaStep n bay) := .inr (.inr ⟨rfl, rfl⟩)
theorem barrierRelease (launch : Nat) (die : BitVec 3) (b : BitVec 2) : Statement (.barrierRelease launch die b) := .inr (.inr ⟨rfl, rfl⟩)
theorem completionPost (id : Nat) (o : Attempt) : Statement (.completionPost id o) := .inr (.inr ⟨rfl, rfl⟩)
theorem stopDrainEnd (n : BitVec 5) (slot : BitVec 3) : Statement (.stopDrainEnd n slot) := .inr (.inr ⟨rfl, rfl⟩)
theorem stuck (n : BitVec 5) (slot : BitVec 3) : Statement (.stuck n slot) := .inr (.inr ⟨rfl, rfl⟩)
theorem preemptionRequest (n : BitVec 5) : Statement (.preemptionRequest n) := .inr (.inr ⟨rfl, rfl⟩)
theorem frameWrite (n : BitVec 5) (slot : BitVec 3) : Statement (.frameWrite n slot) := .inr (.inr ⟨rfl, rfl⟩)
theorem saveDrainLimit (n : BitVec 5) (slot : BitVec 3) : Statement (.saveDrainLimit n slot) := .inr (.inr ⟨rfl, rfl⟩)
theorem frameRestore (n : BitVec 5) : Statement (.frameRestore n) := .inr (.inr ⟨rfl, rfl⟩)
theorem frameResume (space : BitVec 2) (index : BitVec 12) : Statement (.frameResume space index) := .inr (.inr ⟨rfl, rfl⟩)
theorem frameDiscard (space : BitVec 2) (index : BitVec 12) : Statement (.frameDiscard space index) := .inr (.inr ⟨rfl, rfl⟩)
theorem bargeAging (launch : Nat) (push : Nat) : Statement (.bargeAging launch push) := .inr (.inr ⟨rfl, rfl⟩)
theorem dieGrant (launch : Nat) : Statement (.dieGrant launch) := .inr (.inr ⟨rfl, rfl⟩)
theorem grantWaitCap (launch : Nat) : Statement (.grantWaitCap launch) := .inr (.inr ⟨rfl, rfl⟩)
theorem dieAddRequest (launch : Nat) : Statement (.dieAddRequest launch) := .inr (.inr ⟨rfl, rfl⟩)
theorem dieWithdrawRequest (launch : Nat) : Statement (.dieWithdrawRequest launch) := .inr (.inr ⟨rfl, rfl⟩)
theorem stealRequest (n : BitVec 5) : Statement (.stealRequest n) := .inr (.inr ⟨rfl, rfl⟩)
theorem stealAnswer (n : BitVec 5) : Statement (.stealAnswer n) := .inr (.inr ⟨rfl, rfl⟩)
theorem hotspotMigration (n : BitVec 5) (slot : BitVec 3) : Statement (.hotspotMigration n slot) := .inr (.inr ⟨rfl, rfl⟩)
theorem submissionExamine (cp : BitVec 2) : Statement (.submissionExamine cp) := .inr (.inr ⟨rfl, rfl⟩)
theorem launch (launch : Nat) (o : Attempt) : Statement (.launch launch o) := .inr (.inr ⟨rfl, rfl⟩)
theorem flush (cmd : Nat) : Statement (.flush cmd) := .inr (.inr ⟨rfl, rfl⟩)
theorem inval (cmd : Nat) : Statement (.inval cmd) := .inr (.inr ⟨rfl, rfl⟩)
theorem bind (cmd : Nat) : Statement (.bind cmd) := .inr (.inr ⟨rfl, rfl⟩)
theorem unbind (cmd : Nat) : Statement (.unbind cmd) := .inr (.inr ⟨rfl, rfl⟩)
theorem abort (cmd : Nat) : Statement (.abort cmd) := .inr (.inr ⟨rfl, rfl⟩)
theorem mark (cmd : Nat) : Statement (.mark cmd) := .inr (.inr ⟨rfl, rfl⟩)
theorem completionRecordPost (cp : BitVec 2) : Statement (.completionRecordPost cp) := .inr (.inr ⟨rfl, rfl⟩)
theorem jobEnd (launch : Nat) : Statement (.jobEnd launch) := .inr (.inr ⟨rfl, rfl⟩)
theorem cpringWrite (cp : BitVec 2) (x : W64) : Statement (.cpringWrite cp x) := .inr (.inr ⟨rfl, rfl⟩)
theorem sqtailWrite (cp : BitVec 2) (x : W64) : Statement (.sqtailWrite cp x) := .inr (.inr ⟨rfl, rfl⟩)
theorem cqheadWrite (cp : BitVec 2) (x : W64) : Statement (.cqheadWrite cp x) := .inr (.inr ⟨rfl, rfl⟩)
theorem haltRequest (cp : BitVec 2) : Statement (.haltRequest cp) := .inr (.inr ⟨rfl, rfl⟩)
theorem haltResume (cp : BitVec 2) : Statement (.haltResume cp) := .inr (.inr ⟨rfl, rfl⟩)
theorem govctlWrite (x : W64) : Statement (.govctlWrite x) := .inr (.inr ⟨rfl, rfl⟩)
theorem launchQuery (x : W64) : Statement (.launchQuery x) := .inr (.inr ⟨rfl, rfl⟩)
theorem makelive (x : W64) : Statement (.makelive x) := .inr (.inr ⟨rfl, rfl⟩)
theorem unload (x : W64) : Statement (.unload x) := .inr (.inr ⟨rfl, rfl⟩)
theorem modulePurge (m : BitVec 12) : Statement (.modulePurge m) := .inr (.inr ⟨rfl, rfl⟩)
theorem moduleFree (m : BitVec 12) : Statement (.moduleFree m) := .inr (.inr ⟨rfl, rfl⟩)
theorem fetchctlWrite (x : W64) : Statement (.fetchctlWrite x) := .inr (.inr ⟨rfl, rfl⟩)
theorem xlrootWrite (space : BitVec 2) (x : W64) : Statement (.xlrootWrite space x) := .inr (.inr ⟨rfl, rfl⟩)
theorem tlbDrop (x : W64) : Statement (.tlbDrop x) := .inr (.inr ⟨rfl, rfl⟩)
theorem tlbDropDone : Statement (.tlbDropDone) := .inr (.inr ⟨rfl, rfl⟩)
theorem warmReset (die : BitVec 3) (x : W64) : Statement (.warmReset die x) := .inr (.inr ⟨rfl, rfl⟩)
theorem resetStopLimit (die : BitVec 3) : Statement (.resetStopLimit die) := .inr (.inr ⟨rfl, rfl⟩)
theorem quiesce (die : BitVec 3) : Statement (.quiesce die) := .inr (.inr ⟨rfl, rfl⟩)
theorem writeback (die : BitVec 3) : Statement (.writeback die) := .inr (.inr ⟨rfl, rfl⟩)
theorem isolate (die : BitVec 3) : Statement (.isolate die) := .inr (.inr ⟨rfl, rfl⟩)
theorem retrain (die : BitVec 3) (ok : Bool) : Statement (.retrain die ok) := .inr (.inr ⟨rfl, rfl⟩)
theorem test (die : BitVec 3) (failed : BitVec 4) : Statement (.test die failed) := .inr (.inr ⟨rfl, rfl⟩)
theorem readmit (die : BitVec 3) : Statement (.readmit die) := .inr (.inr ⟨rfl, rfl⟩)
theorem frameloWrite (space : BitVec 2) (x : W64) : Statement (.frameloWrite space x) := .inr (.inr ⟨rfl, rfl⟩)
theorem framehiWrite (space : BitVec 2) (x : W64) : Statement (.framehiWrite space x) := .inr (.inr ⟨rfl, rfl⟩)
theorem counterQuery (space : BitVec 2) (x : W64) : Statement (.counterQuery space x) := .inr (.inr ⟨rfl, rfl⟩)
theorem ctrdumpWrite (space : BitVec 2) (x : W64) : Statement (.ctrdumpWrite space x) := .inr (.inr ⟨rfl, rfl⟩)
theorem trloWrite (space : BitVec 2) (x : W64) : Statement (.trloWrite space x) := .inr (.inr ⟨rfl, rfl⟩)
theorem trhiWrite (space : BitVec 2) (x : W64) : Statement (.trhiWrite space x) := .inr (.inr ⟨rfl, rfl⟩)
theorem counterSend (n : BitVec 5) (slot : BitVec 3) : Statement (.counterSend n slot) := .inr (.inr ⟨rfl, rfl⟩)
theorem energyInterval (measured : Nat) : Statement (.energyInterval measured) := .inr (.inr ⟨rfl, rfl⟩)
theorem tollcfgWrite (n : BitVec 5) (x : W64) : Statement (.tollcfgWrite n x) := .inr (.inr ⟨rfl, rfl⟩)
theorem tollcostWrite (n : BitVec 5) (x : W64) : Statement (.tollcostWrite n x) := .inr (.inr ⟨rfl, rfl⟩)
theorem ratioChange (n : BitVec 5) : Statement (.ratioChange n) := .inr (.inr ⟨rfl, rfl⟩)
theorem powerInterval (watts : Nat) : Statement (.powerInterval watts) := .inr (.inr ⟨rfl, rfl⟩)
theorem powerctlWrite (x : W64) : Statement (.powerctlWrite x) := .inr (.inr ⟨rfl, rfl⟩)
theorem throttle (celsius : BitVec 8) : Statement (.throttle celsius) := .inr (.inr ⟨rfl, rfl⟩)
theorem thermalTrip (celsius : BitVec 8) : Statement (.thermalTrip celsius) := .inr (.inr ⟨rfl, rfl⟩)
theorem calibrationStart (n : BitVec 5) : Statement (.calibrationStart n) := .inr (.inr ⟨rfl, rfl⟩)
theorem calibrationStep (n : BitVec 5) (pass : Bool) : Statement (.calibrationStep n pass) := .inr (.inr ⟨rfl, rfl⟩)
theorem scrubLine (pa : BitVec 54) (corrected : Bool) (o : Attempt) : Statement (.scrubLine pa corrected o) := .inr (.inr ⟨rfl, rfl⟩)
theorem linkFlitError (l : LinkName) (again : Bool) : Statement (.linkFlitError l again) := .inr (.inr ⟨rfl, rfl⟩)
theorem linkFailure (l : LinkName) : Statement (.linkFailure l) := .inr (.inr ⟨rfl, rfl⟩)
theorem finzuRetrain (x : W64) : Statement (.finzuRetrain x) := .inr (.inr ⟨rfl, rfl⟩)
theorem finzuPortTrained (port : BitVec 4) (remote : W32) (ok : Bool) : Statement (.finzuPortTrained port remote ok) := .inr (.inr ⟨rfl, rfl⟩)
theorem peerRequest (peer : BitVec 12) (port : BitVec 4) (r : OutsideAccess) : Statement (.peerRequest peer port r) := .inr (.inr ⟨rfl, rfl⟩)
theorem hostFlagWindowAccess (r : OutsideAccess) : Statement (.hostFlagWindowAccess r) := .inr (.inr ⟨rfl, rfl⟩)
theorem hostApertureAccess (r : OutsideAccess) (o : Attempt) : Statement (.hostApertureAccess r o) := .inr (.inr ⟨rfl, rfl⟩)
theorem hostLinkDown : Statement (.hostLinkDown) := .inr (.inr ⟨rfl, rfl⟩)
theorem idbootWrite (x : W64) : Statement (.idbootWrite x) := .inr (.inr ⟨rfl, rfl⟩)
theorem attestationRequest (x : W64) : Statement (.attestationRequest x) := .inr (.inr ⟨rfl, rfl⟩)
theorem attestationReportDone : Statement (.attestationReportDone) := .inr (.inr ⟨rfl, rfl⟩)
theorem firmwareCheck (x : W64) : Statement (.firmwareCheck x) := .inr (.inr ⟨rfl, rfl⟩)
theorem firmwareCheckDone : Statement (.firmwareCheckDone) := .inr (.inr ⟨rfl, rfl⟩)
theorem powerOn : Statement (.powerOn) := .inr (.inr ⟨rfl, rfl⟩)
theorem powerOff : Statement (.powerOff) := .inr (.inr ⟨rfl, rfl⟩)
theorem mwaitLimit (n : BitVec 5) (slot : BitVec 3) : Statement (.mwaitLimit n slot) := .inr (.inr ⟨rfl, rfl⟩)
theorem registerWrite (offset : BitVec 16) (x : W64) : Statement (.registerWrite offset x) := .inr (.inr ⟨rfl, rfl⟩)
theorem tollRefill (n : BitVec 5) : Statement (.tollRefill n) := .inr (.inr ⟨rfl, rfl⟩)
theorem hostLinkUp : Statement (.hostLinkUp) := .inr (.inr ⟨rfl, rfl⟩)
theorem throttleEnd (celsius : BitVec 8) : Statement (.throttleEnd celsius) := .inr (.inr ⟨rfl, rfl⟩)

end Sys2Proof.Laws.WordKind
end

