-- ==== Sys2Proof/Laws/Updates.lean ====
section
/-! SUPPORT. What the updates of a slice, of a walker's cache and of the dies' clocks leave alone: everything but the one field. -/

namespace Sys2Proof.Machine

theorem State.l2Swap_rest (s : State) (l : Line) : s.l2Swap l = { s with l2 := (s.l2Swap l).l2 } := rfl
@[simp] theorem State.l2Swap_mem (s : State) (l : Line) : (s.l2Swap l).mem = s.mem := rfl
@[simp] theorem State.l2Swap_bayLines (s : State) (l : Line) : (s.l2Swap l).bayLines = s.bayLines := rfl
@[simp] theorem State.l2Swap_ctxs (s : State) (l : Line) : (s.l2Swap l).ctxs = s.ctxs := rfl
@[simp] theorem State.l2Swap_regs (s : State) (l : Line) : (s.l2Swap l).regs = s.regs := rfl
@[simp] theorem State.l2Swap_badGranules (s : State) (l : Line) : (s.l2Swap l).badGranules = s.badGranules := rfl

theorem State.walkerAdd_rest (s : State) (unit : Nat) (seen : List TlbEnt) :
    s.walkerAdd unit seen = { s with walkers := (s.walkerAdd unit seen).walkers } := rfl
@[simp] theorem State.walkerAdd_mem (s : State) (unit : Nat) (seen : List TlbEnt) : (s.walkerAdd unit seen).mem = s.mem := rfl
@[simp] theorem State.walkerAdd_l2 (s : State) (unit : Nat) (seen : List TlbEnt) : (s.walkerAdd unit seen).l2 = s.l2 := rfl
@[simp] theorem State.walkerAdd_ctxs (s : State) (unit : Nat) (seen : List TlbEnt) : (s.walkerAdd unit seen).ctxs = s.ctxs := rfl
@[simp] theorem State.walkerAdd_walks (s : State) (unit : Nat) (seen : List TlbEnt) : (s.walkerAdd unit seen).walks = s.walks := rfl
@[simp] theorem State.walkerAdd_dies (s : State) (unit : Nat) (seen : List TlbEnt) : (s.walkerAdd unit seen).dies = s.dies := rfl

/-- Telling dies sets their logical counters, and nothing else. -/
theorem State.tellDies_rest (s : State) (ds : List Nat) :
    s.tellDies ds = { s with dies := (s.tellDies ds).dies, lclockF := (s.tellDies ds).lclockF } := by
  unfold State.tellDies
  generalize ds.eraseDups = es
  induction es generalizing s with
  | nil => rfl
  | cons d es ih =>
    rw [List.foldl_cons, ih (s.message none (some d)), State.message_rest s none (some d)]

end Sys2Proof.Machine
end

