-- ==== Sys2Proof/Tests/Slice0.lean ====
section
/-! SUPPORT. The model's own tests: the form of instructions, decoding, results that the spec's tables print, and, for every statement
with hypotheses, concrete states and operands that meet them. -/

namespace Sys2Proof.Tests

open Machine Safety

set_option Elab.async false

/-! ### Ill-formed instructions are refused by WellFormed, one for each check of it -/

def lit32 (v : W64) : GLit := ⟨.w32, v⟩
def plainAnn (sc : Scope) : Ann := ⟨0, 0, sc⟩
def la (f : Fmt) (b a d : Opd) : LA := ⟨f, .rne, 0, .unused, false, 0, b, a, d⟩
def lm (f : Fmt) (b a d : Opd) : LM := ⟨f, 0, .device, false, 0, 0, false, 0, b, a, d⟩

/-- R141: 32 does not fit the 6-bit literal of a 32-bit form. -/
theorem test_wf_literal : (Instr.addLiteral .i64 1 2 (lit32 32)).wf = false ∧ (Instr.addLiteral .i64 1 2 (lit32 31)).wf = true := by decide
/-- R153: MUL has no `.a72`. -/
theorem test_wf_type : (Instr.mulRegister .a72 1 2 3).wf = false := by decide
/-- R170, R166: a literal out of the instruction's range; a system register that does not exist. -/
theorem test_wf_range : (Instr.yield (lit32 0)).wf = false ∧ (Instr.sysrd 1 ⟨.w64, 2⟩).wf = false := by decide
/-- R161: BR without a condition names no condition bit. -/
theorem test_wf_condition : (Instr.br .always 1 (lit32 0)).wf = false := by decide
/-- R268, R269: a 32-bit form carries no annotation, and no generator access has core scope. -/
theorem test_wf_annotation : (Instr.ld .i64 1 2 ⟨.w32, 0, ⟨1, 0, .cluster⟩⟩).wf = false ∧ (Instr.ld .i64 1 2 ⟨.w64, 0, plainAnn .core⟩).wf = false := by
  decide
/-- R178: a hole past the block's words. -/
theorem test_wf_hole : (Instr.emit 0 ⟨.w128, 0x8040⟩).wf = false := by decide
/-- R269: a 32-bit ATOM has no third register. -/
theorem test_wf_third : (Instr.atom false .add 1 2 3 ⟨.w32, 0, plainAnn .device⟩).wf = false := by decide
/-- R335: FSET.INIT needs a count of 1 to 7. -/
theorem test_wf_need : (Instr.fsetInit 0 1 ⟨.w32, plainAnn .device⟩).wf = false := by decide
/-- R306: GT without TV; a modifier that the command does not have. -/
theorem test_wf_target : (Instr.gather false 1 2 3 4 5 ⟨.w64, plainAnn .device, .rne, false, .normal⟩).wf = false ∧
    (Instr.fill 1 2 3 ⟨.w64, plainAnn .device, .rtz, false, .normal⟩).wf = false := by decide
/-- R147, R148: a format that the opcode does not take, a rounding mode it does not have, a sub value out of its table. -/
theorem test_wf_format : (Instr.iadd (la .fp32 (.v 1) (.v 2) (.v 3))).wf = false ∧
    (Instr.fmin { la .fp32 (.v 1) (.v 2) (.v 3) with rnd := .rup }).wf = false ∧
    (Instr.iadd { la .i32 (.v 1) (.v 2) (.v 3) with sub := 2 }).wf = false := by decide
/-- R198: a 64-bit value stands in an even register; a q destination of an integer word takes uniform sources only. -/
theorem test_wf_operand : (Instr.iadd (la .i64 (.v 2) (.v 4) (.v 3))).wf = false ∧ (Instr.iadd (la .i32 (.v 1) (.q 1) (.q 2))).wf = false ∧
    (Instr.affAdd (la .i64 (.q 1) (.a 1) (.a 0))).wf = false := by decide
/-- R198: fields that a word does not have are zero. -/
theorem test_wf_fields : (Instr.affAdd { la .i64 (.q 1) (.a 1) (.a 2) with gm := 1 }).wf = false ∧
    (Instr.lexit { la .untyped .unused .unused .unused with nwb := true }).wf = false := by decide
/-- R242, R245: CVT from a 64-bit format takes an even pair; PLANE.PK takes four registers at a multiple of 4. -/
theorem test_wf_groups : (Instr.cvt { la .fp32 .unused (.v 3) (.v 4) with c := .z 14 }).wf = false ∧
    (Instr.planePk (la .l6 .unused (.v 2) (.v 4))).wf = false := by decide
/-- R273: four elements of 32 bits stand at a multiple of 4; R275: `.or` of fp32 is no operation. -/
theorem test_wf_memory : (Instr.laneLd { lm .fp32 (.imm 64) (.v 2) (.v 6) with wid := 3 }).wf = false ∧
    (Instr.laneAtom { lm .fp32 (.imm 64) (.v 2) (.v 6) with wid := 3 }).wf = false := by decide
/-- R278, R320: PREF carries no annotation; only ACC.RD peeks. -/
theorem test_wf_memory_fields : (Instr.pref { lm .untyped (.imm 64) (.v 2) .unused with wid := 1, os := 1 }).wf = false ∧
    (Instr.laneLd { lm .fp32 (.imm 64) (.v 2) (.v 6) with peek := true }).wf = false := by decide
/-- R313: MMA has no integer format, and its descriptors stand in even q registers. -/
theorem test_wf_matrix : (Instr.mma ⟨.i32, 0, 0, 0, 0, .q 2, .q 0, .z 0⟩).wf = false ∧ (Instr.mma ⟨.bf16, 0, 0, 0, 0, .q 3, .q 0, .z 0⟩).wf = false := by
  decide

/-! ### Decoding: a word of each family, written out from its encoding in the spec -/

/-- R141, R153: ADD_LITERAL and MOV_LITERAL; R161: BR; R269: LD in its 64-bit form. -/
theorem test_decode_generator : decodeWords 0x1280107C 0 0 0 = .ok (.movLiteral .n64 4 (lit32 10)) ∧
    decodeWords 0x208004A8 0 0 0 = .ok (.br .kc 1 (lit32 2)) ∧ decodeWords 0x0DC60475 0 0 0 = .ok (.cmpLiteral .eq .i64 1 6 ⟨.w64, 55⟩) := by
  decide +kernel
/-- R178, R183: EMIT with eight words, CAPT.BEGIN of entry 7. -/
theorem test_decode_emission : decodeWords 0x00001D00 0 0 0 = .ok (.emit 7 (lit32 0)) ∧
    decodeWords 0x01C00108 0 0 0 = .ok (.captBegin (lit32 7)) := by decide +kernel
/-- R146, R147: FMA.fp32 v3, v1, v2, v3 under m2; a lane with opcode 0 is no word. -/
theorem test_decode_lane : decodeLane 0x1000320080100D03 = some (.fma ⟨.fp32, .rne, 0, .v 3, false, 2, .v 2, .v 1, .v 3⟩) ∧
    decodeLane 0 = none := by decide +kernel
/-- R146, R272, R275: ST and ATOM. -/
theorem test_decode_lane_memory : decodeLane 0x128130F110201601 = some (.laneSt ⟨.fp32, 0, .device, false, 2, 3, false, 0, .imm 68, .a 2, .v 5⟩) ∧
    decodeLane 0xD28000F050302606 = some (.laneAtom ⟨.n32, 0, .device, false, 0, 0, false, 0, .imm 65, .a 3, .v 9⟩) := by decide +kernel
/-- R313: MMA. -/
theorem test_decode_matrix : decodeLane 0x62809181A0400A40 = some (.mma ⟨.bf16, 5, 1, 1, 1, .q 6, .q 4, .z 2⟩) := by decide +kernel
/-- R3: the host's numbering gives the first word's bits at 0. -/
theorem test_decode_table : decodeTableWord 32 0x1280107C = some (.movLiteral .n64 4 (lit32 10)) := by decide +kernel

/-! ### Values that the spec's tables give -/

/-- R153: the quotient truncates; division by zero gives all ones, and the remainder the dividend. -/
theorem test_division : written .i64 (Int.tdiv (-7) 2) = 0xFFFFFFFFFFFFFFFFFD ∧ written .n32 (-1) = 0xFFFFFFFF := by decide
/-- R50, R63: 65504 is the largest finite fp16 value; the value halfway past it rounds to infinity, or toward zero to 65504. -/
theorem test_round_fp16 : round (.fin 65504 1) .fp16 .rne false = 0x7BFF ∧ round (.fin 65520 1) .fp16 .rne false = 0x7C00 ∧
    round (.fin 65520 1) .fp16 .rtz false = 0x7BFF := by decide +kernel
/-- R50: 1.0 in each binary format. -/
theorem test_one : round (.fin 1 1) .fp32 .rne false = 0x3F800000 ∧ round (.fin 1 1) .bf16 .rne false = 0x3F80 ∧
    round (.fin 1 1) .fp16 .rne false = 0x3C00 := by decide +kernel
/-- R257: the index bits of the six tables make up bits 71:12. -/
theorem test_tables : (List.range 6).map tableBits = [16, 10, 10, 10, 10, 4] ∧ tableLow 5 = 12 := by decide
/-- R149: a value of -1 in each type. -/
theorem test_written : written .i32 (-1) = 0xFFFFFFFFFFFFFFFFFF ∧ written .n64 (-1) = 0xFFFFFFFFFFFFFFFF := by decide

/-- R3 and the placing of one instruction: `step` fetches and runs it. MOV.n64 g4, 10 as the first instruction writes 10. -/
theorem test_first_step : (match step (State.reset.withFetchWord 32 0x1280107C) with
    | .next t => (t.ctx? 0 0).map (fun c => (c.gv 4, c.pc)) | _ => none) = some (10, 0x0000000100000004) := by decide +kernel
/-- R154: CMP.eq of g6 = 0 with 55 clears k1. -/
theorem test_first_compare : (match step (State.reset.withFetchWord 64 0x00000000_0DC60475) with
    | .next t => (t.ctx? 0 0).map (fun c => (c.kv 1, c.pc)) | _ => none) = some (false, 0x0000000100000008) := by decide +kernel
/-- R172: TRAP stops its context where it stands with class 4. -/
theorem test_first_trap : (match step (State.reset.withFetchWord 32 0x01C000D8) with
    | .next t => (t.ctx? 0 0).bind (fun c => c.stop.map (fun x => (x.cls, c.pc))) | _ => none) = some (4, 0x0000000100000000) := by
  decide +kernel

/-! ### A small machine -/

/-- A launch of one die, with a partition of one granule of each kind. -/
def demoL : Launch := { placedLaunch 0 with part := 0x00010101 }
/-- Its one context: cluster 0, slot 0, bay 0, in ISSUE at the first word of module 1, every register zero. -/
def demoC : Ctx := { Ctx.start 0 demoL ⟨placedBarge, 0, 0, 0, none, false, none⟩ ⟨0, 1, 1, 1, 65536⟩ [0] 0 with status := .issue }
def demoX : Core := Core.lent 0 0 0
/-- Pages of address space 0 in the TLB of cluster 0: 64 GiB from address 0 on, which stand at their own address, and one page of the
flag window. -/
def demoPage : TlbEnt := { space := 0, base := 0, bits := 36, pa := 0, ord := 1, w := true, hint := .normal }
def flagPage : TlbEnt := { space := 0, base := 0x1000000000, bits := 12, pa := 0x40000000000, ord := 0, w := true, hint := .normal }
def demoK : Cluster := { Cluster.reset 0 with tlb := [demoPage, flagPage] }
/-- Tables T0, T1 and T2 that say the same of the first page; at 0x2000 a barge for entry 0 of module 1; TASKEND as the first word of module 1; and from 0x3000 on three
watchpoint records: of 0x4000 for that barge, of the flag window for it, and of 0x4000 for a barge that names no module. -/
def demoMem : List Host.Cell :=
  [(0x2004, 1), (0x3001, 0x40), (0x3021, 0x20), (0x3044, 0x10), (0x3061, 0x20), (0x3081, 0x40), (0x10000, 0xD4), (0x100000, 1), (0x100002, 0x18), (0x180000, 1), (0x180002, 0x19), (0x190000, 0x53)]
def demo : State :=
  { State.reset with
    cores := [(0, demoX)], ctxs := [(0, demoC)], clusters := [(0, demoK)], mem := demoMem, nextId := 1, accepted := 1, launches := [demoL],
    regs := { Regs.reset with modules := [(1, placedModule)], xlroot := [(0, 0x100001)] } }

/-- The machine with another context in its place, or another core. -/
def withC (c : Ctx) : State := { demo with ctxs := [(0, c)] }
def withX (x : Core) : State := { demo with cores := [(0, x)] }
def withG (g : Tab W72) : Ctx := { demoC with g := g }

/-- Whatever the instruction, it is ready where its context is the one the machine acts for and names no register that waits. -/
theorem ready_of {s : State} {c : Ctx} (i : Instr) (hf : s.focus = ⟨0, 0, 0⟩) (hc : s.ctx? 0 0 = some c) (hd : c.count ≠ c.deadline)
    (hg : c.gt = []) : Ready s i 0 0 c :=
  ⟨by rw [hf], by rw [hf], by decide, by decide, hc, .inl hd, fun g _ => by simp [State.regState, hg, tget]⟩

theorem demo_count : (0 : Nat) ≠ 65536 := by decide

theorem demo_ready (i : Instr) : Ready demo i 0 0 demoC := ready_of i rfl rfl demo_count rfl

/-- A translation in the cluster's own TLB, by evaluation. -/
def maps (s : State) (n : Nat) (space : BitVec 2) (va : W72) (write : Bool) (p : Place) : Bool :=
  s.spaceOn space && match tlbFind (s.cluster n).tlb space va with
    | some e => (match s.placeIn e va write with | .ok q => decide (q = p) | .error _ => false)
    | none => false

theorem mapped_of {s : State} {n : Nat} {space : BitVec 2} {va : W72} {write : Bool} {p : Place} (h : maps s n space va write p = true) :
    Mapped s n space va write p := by
  simp only [maps, Bool.and_eq_true] at h
  obtain ⟨h1, h2⟩ := h
  refine ⟨h1, ?_⟩
  split at h2
  · rename_i e he
    refine ⟨e, he, ?_⟩
    split at h2
    · rename_i q hq; rw [hq, of_decide_eq_true h2]
    · cases h2
  · cases h2

theorem mayStart_of {s : State} {c : Ctx} {ann : Ann} (h : (decide (s.stream c.uid ann.os.toNat < 1023) && s.allStarted 0 0) = true) :
    MayStart s 0 0 c ann := by
  simp only [Bool.and_eq_true, decide_eq_true_eq] at h
  exact ⟨h.1, .inr h.2⟩

/-- Evaluation of the conditions on one operand of a lane word (R41). -/
def inside (p : W32) (o : Opd) (k : Nat) : Bool :=
  match o with
  | .v r => decide (r.toNat + k ≤ 64 * slice p 5 0)
  | .z r => decide (r.toNat < slice p 21 16)
  | _ => true

theorem inside_of {p : W32} {o : Opd} {k : Nat} (h : inside p o k = true) : Inside p o k := by
  cases o <;> simp_all [inside, Inside]

theorem settled_of {s : State} {x : Core} {uid : Nat} (ha : s.accs = []) (hl : ∀ b : BitVec 2, (x.lat b.toNat).src = none) (o : Opd) (k : Nat) :
    Settled s 0 0 uid x o k := by
  cases o <;> simp [Settled, ha, hl]

/-- A lane word is ready on core 0 of the machine where nothing waits and its operands lie in the partition. -/
theorem laneReady_of {s : State} {c : Ctx} {x : Core} {i : Instr} {os : List (Opd × Nat)} (hf : s.focus = ⟨0, 0, 0⟩) (hc : s.ctx? 0 0 = some c)
    (hx : s.core? 0 0 = some x) (ha : s.accs = []) (hl : ∀ b : BitVec 2, (x.lat b.toNat).src = none) (hw : i.wf = true)
    (hi : os.all (fun p => inside (s.partition c) p.1 p.2) = true) : LaneReady s i 0 0 0 c x os :=
  { onCl := by rw [hf], onSlot := by rw [hf], onCore := by rw [hf], clusters := by decide, slots := by decide, cores := by decide, ctx := hc,
    core := hx, legal := hw, inside := fun p hp => inside_of (List.all_eq_true.mp hi p hp), settled := fun p _ => settled_of ha hl p.1 p.2 }

theorem demo_lane {i : Instr} {os : List (Opd × Nat)} (x : Core) (hl : ∀ b : BitVec 2, (x.lat b.toNat).src = none) (hw : i.wf = true)
    (hi : os.all (fun p => inside 0x00010101 p.1 p.2) = true) : LaneReady (withX x) i 0 0 0 demoC x os :=
  laneReady_of rfl rfl rfl rfl hl hw hi

/-- Whether a form of operand carries a tag of a set, by evaluation. -/
def tagged (x : Core) (o : Opd) (regs : Nat) (T : Fmt → Bool) : Bool :=
  match o with
  | .v r => (List.range regs).all (fun e => T (x.tagV (r.toNat + e)))
  | .a r => T (x.areg r).tag
  | .b r => T (x.lat r.toNat).tag
  | _ => true

theorem tagged_of {x : Core} {o : Opd} {regs : Nat} {T : Fmt → Bool} {P : Fmt → Prop} (h : tagged x o regs T = true) (hp : ∀ f, T f = true → P f) :
    Tagged x o regs P := by
  cases o <;> simp_all [tagged, Tagged]

/-! ### Every hypothesis of a statement can be met: generator instructions

`demo_ready` meets the hypothesis of every statement that asks for `Ready` alone, for every instruction and operand. -/

/-- IntegerInstructionsWriteExactResult: the words that it says are no instruction; majors 6 and 13 are the ends of its range. -/
theorem wit_integer_illegal : (6 ≤ majorOf 0x40000018 ∧ majorOf 0x40000018 ≤ 13 ∧ (0x40000018 : W32).toNat / 2 ^ 28 = 4) ∧ majorOf 0x40000034 = 13 ∧
    (0x4FFFFFF4 : W32).toNat / 2 ^ 28 = 4 := by decide

/-- BqueryWritesItem: each of its items. -/
theorem wit_bquery : demo.launchOf demoC = some demoL ∧ ∀ v : Fin 5, (⟨.w32, BitVec.ofNat 64 v⟩ : GLit).val.toNat = v := by
  refine ⟨rfl, by decide⟩

/-- TransfersGoToTheirTargets: a target that holds code, and one that does not; a bit that is set and one that is clear; counts 0, 1, 2. -/
theorem wit_code_at : CodeAt demo demoC.pc demoC.pc ∧ CodeAt demo demoC.pc (demoC.pc + 4 * 0x3FF) :=
  ⟨⟨by decide, by decide, placedModule, rfl, .inl rfl, by decide⟩, ⟨by decide, by decide, placedModule, rfl, .inl rfl, by decide⟩⟩
theorem wit_no_code : ¬CodeAt demo demoC.pc 0 ∧ ¬CodeAt demo demoC.pc (demoC.pc + 4 * 0x400) ∧ Running demoC := by
  refine ⟨fun ⟨_, _, m, h, _⟩ => (by cases h), fun ⟨_, _, m, h, _, hs⟩ => ?_, rfl⟩
  cases h; revert hs; decide
theorem wit_conditions : demoC.kv 1 = false ∧ { demoC with k := 2 }.kv 1 = true ∧ Ready (withC { demoC with k := 2 }) (.br .ks 1 (lit32 2)) 0 0 { demoC with k := 2 } :=
  ⟨by decide, by decide, ready_of _ rfl rfl demo_count rfl⟩
theorem wit_counts : (∀ n : Fin 3, ((withG [(4, BitVec.ofNat 72 n)]).gv 4).setWidth 64 = BitVec.ofNat 64 n) ∧
    ∀ n : Fin 3, Ready (withC (withG [(4, BitVec.ofNat 72 n)])) (.loop 4 (lit32 0)) 0 0 (withG [(4, BitVec.ofNat 72 n)]) :=
  ⟨by decide, fun _ => ready_of _ rfl rfl demo_count rfl⟩

/-- CodePrefetchAsksForLines: nothing of this generator's is on its way. -/
theorem wit_prefetch : demo.code.fills.filter (fun f => f.soft = some 0) = [] := rfl

/-- SystemRegistersReadAndWrite: a number of its table, one that is not; a register that SYSWR writes, and one that it does not. -/
theorem wit_sysregs : ((0x000 : W64).toNat = 0 ∧ (0x031 : W64).toNat = 0x031) ∧
    (∀ p ∈ [0x000, 0x001, 0x003, 0x004, 0x005, 0x006, 0x007, 0x008, 0x009, 0x010, 0x011, 0x012, 0x013, 0x014, 0x015, 0x020, 0x030, 0x031],
      (0x002 : W64).toNat ≠ p) ∧ (0x032 : W64) ≠ 0x030 ∧ (0x032 : W64) ≠ 0x031 := by decide

/-- YieldStepAndNop: nothing else is READY; a context is; a save has been requested. -/
theorem wit_yield : demoC.ttag.getLsbD 63 = false ∧ demoC.save = none ∧ demo.otherReady 0 0 = false := by decide +kernel
def twoReady : State := { demo with ctxs := [(0, demoC), (1, { demoC with uid := 5, status := .ready })] }
theorem wit_yield_other : Ready twoReady (.yield (lit32 1)) 0 0 demoC ∧ twoReady.otherReady 0 0 = true :=
  ⟨ready_of _ rfl rfl demo_count rfl, by decide +kernel⟩
def savedC : Ctx := { demoC with save := some ⟨.level7, none⟩ }
/-- The machine with one context, and frame slots of address space 0. -/
def withFrames (c : Ctx) : State :=
  { withC c with regs := { demo.regs with traps := [(0, { TrapRegs.reset with framelo := 0x2000000, framehi := 0x100000000 })] } }
theorem wit_yield_save : Ready (withFrames savedC) (.yield (lit32 1)) 0 0 savedC ∧ savedC.save = some ⟨.level7, none⟩ ∧ savedC.stretch = none ∧
    (withFrames savedC).freeFrame savedC.ring = some 0 ∧ (withFrames savedC).windowHeld 0 0 savedC = false :=
  ⟨ready_of _ rfl rfl demo_count rfl, rfl, rfl, by decide +kernel, rfl⟩
/-- STEP where no change is pending, where this context is no member of it, and where it is one of two. -/
theorem wit_step_free : ∀ q ch, demo.launchOf demoC = some q → q.change = some ch → demoC.wait ≠ .stepDone → demoC.uid ∉ ch.left ∧ demoC.uid ∉ ch.inStep := by
  intro q ch h; cases h; intro h; cases h
def changing : State := { demo with launches := [{ demoL with change := some ⟨1, true, [0, 9], []⟩ }] }
theorem wit_step_change : Ready changing .step 0 0 demoC ∧ changing.launchOf demoC = some { demoL with change := some ⟨1, true, [0, 9], []⟩ } ∧
    demoC.wait ≠ .stepDone ∧ demoC.uid ∈ [0, 9] ∧ demoC.uid ∉ ([] : List Nat) ∧ 9 ∈ [0, 9] ∧ 9 ≠ demoC.uid :=
  ⟨ready_of _ rfl rfl demo_count rfl, rfl, by decide, by decide, by decide, by decide, by decide⟩

/-- TaskendAndTrap: a context with nothing left; one with a PENDING slot; one that holds a chamber. -/
theorem wit_taskend : demo.holds 0 demoC.launch 0 = false ∧ demo.leftOver demoC .taskend = none ∧ demo.allStarted 0 0 = true ∧
    (∀ p ∈ demoC.slots, p.2.state ≠ .pending) ∧ ∀ i < 8, demo.stream demoC.uid i = 0 :=
  ⟨rfl, rfl, by decide +kernel, by simp [demoC, Ctx.start], by decide⟩
def pending (w : SlotWork) : Slot := { Slot.reset with state := .pending, work := w }
def pendC : Ctx := { demoC with slots := [(3, pending (.command 7))] }
theorem wit_taskend_waits : Ready (withC pendC) .taskend 0 0 pendC ∧ (withC pendC).holds 0 pendC.launch 0 = false ∧
    (withC pendC).leftOver pendC .taskend = none ∧ ¬∀ p ∈ pendC.slots, p.2.state ≠ .pending :=
  ⟨ready_of _ rfl rfl demo_count rfl, rfl, rfl, fun h => h (3, pending (.command 7)) (List.mem_singleton.mpr rfl) rfl⟩
/-- A flight of two chambers of a context in slot 0, its first chamber in state `st`. -/
def demoF (st : Chamber) : Flight :=
  { cl := 0, launch := 0, fl := 2, owner := 0, uid := 0, core := 0, window := false, base := 0x40000, count := 2, size := 128, waitIx := 0,
    acqIx := 0, cst := [st, .free], hold := [0, 0], defer := 0, bad := 0, away := false }
def withF (st : Chamber) : State := { demo with flights := [demoF st] }
theorem wit_taskend_holds : Ready (withF .filling) .taskend 0 0 demoC ∧ (withF .filling).holds 0 demoC.launch 0 = true :=
  ⟨ready_of _ rfl rfl demo_count rfl, by decide +kernel⟩

/-- MemoryInstructionsStartAccesses: an aligned address of the page, its first and its last eight bytes. -/
theorem wit_memory : MayStart demo 0 0 demoC ⟨1, 0xFF, .device⟩ ∧ Mapped demo 0 demoC.ring (demoC.gv 4 + (8 : W64).signExtend 72) true ⟨8, 1, .normal⟩ ∧
    (demoC.gv 4 + (8 : W64).signExtend 72).toNat % 8 = 0 ∧ Mapped demo 0 0 0 false ⟨0, 1, .normal⟩ ∧
    Mapped demo 0 0 0xFFFFFFFF8 false ⟨0xFFFFFFFF8, 1, .normal⟩ :=
  ⟨mayStart_of (by decide +kernel), mapped_of (by decide +kernel), by decide, mapped_of (by decide +kernel), mapped_of (by decide +kernel)⟩

/-- MemoryInstructionsTrapOnTheirAddress: the ends of the address that is not aligned, and an address space that is off. -/
def spaceOff : State := { demo with regs := { demo.regs with xlroot := [] } }
theorem wit_memory_traps : MayStart spaceOff 0 0 demoC ⟨0, 0, .cluster⟩ ∧ (demoC.gv 4 + (1 : W64).signExtend 72).toNat % 8 ≠ 0 ∧
    (demoC.gv 4 + (7 : W64).signExtend 72).toNat % 8 ≠ 0 ∧ (demoC.gv 4 + (8 : W64).signExtend 72).toNat % 8 = 0 ∧ spaceOff.spaceOn demoC.ring = false ∧
    Ready spaceOff (.ld .i64 1 4 ⟨.w32, 8, plainAnn .cluster⟩) 0 0 demoC :=
  ⟨mayStart_of (by decide +kernel), by decide, by decide, by decide, by decide +kernel, ready_of _ rfl rfl demo_count rfl⟩

/-- EmissionQueuesOneOperation: room for one more operation, none left, and a closed entry. -/
def fullC : Ctx := { demoC with queue := List.replicate 4 blankOp }
def demoE : CapEntry := ⟨[0], [], 0, true, 0⟩
def withE (c : Ctx) (e : CapEntry) : State := { withC c with clusters := [(0, { demoK with capt := [(7, e)] })] }
theorem wit_emission : demoC.stretch = none ∧ demoC.queue.length < 4 ∧ 4 ≤ fullC.queue.length ∧ Ready (withE fullC demoE) (.replay (lit32 7)) 0 0 fullC ∧
    tget ((withE fullC demoE).cluster 0).capt (captKey fullC.launch 7) = some demoE ∧ (withE fullC demoE).launchOf fullC = some demoL ∧
    Ready (withE demoC demoE) (.replay (lit32 7)) 0 0 demoC ∧ tget ((withE demoC demoE).cluster 0).capt (captKey demoC.launch 7) = some demoE :=
  ⟨rfl, by decide, by decide, ready_of _ rfl rfl demo_count rfl, by decide +kernel, by decide +kernel, ready_of _ rfl rfl demo_count rfl, by decide +kernel⟩

/-- CaptureStretchesAndEntries: a stretch that is open, with room; none; an entry that is there, and none; one that a frame names. -/
def openC (ws : List W64) : Ctx := { demoC with stretch := some ⟨7, 0, ws, []⟩ }
def fullStretch : Ctx := openC (List.replicate 8128 0)
theorem wit_capture_open : Ready (withC fullStretch) (.emit 63 (lit32 0)) 0 0 fullStretch ∧
    (([] : List (BitVec 3 × Nat × BitVec 3)).map (fun x => x.1) ++ (emitSlots 0).map (fun x => x.1)).Nodup ∧
    (List.replicate 8128 (0 : W64)).length + (63 : BitVec 6).toNat + 1 ≤ 8192 :=
  ⟨ready_of _ rfl rfl demo_count rfl, by decide, by rw [List.length_replicate]; decide⟩
theorem wit_capture_close : Ready (withC (openC [0])) .captEnd 0 0 (openC [0]) ∧ (openC [0]).stretch = some ⟨7, 0, [0], []⟩ ∧ ([0] : List W64) ≠ [] :=
  ⟨ready_of _ rfl rfl demo_count rfl, rfl, by decide⟩
theorem wit_capture_none : demoC.stretch = none ∧ demo.framed 0 (captKey demoC.launch 7) = false ∧ demoC.readsEntry 0 7 = false ∧
    tget (demo.cluster 0).capt (captKey demoC.launch 7) = none ∧ (demo.cluster 0).capt.length < 256 ∧ (withE demoC demoE).framed 0 (captKey demoC.launch 7) = false :=
  ⟨rfl, rfl, rfl, rfl, by decide, rfl⟩
def demoFrame : Frame := { state := 1, launch := 0, ctx := demoC, cores := [], cl := 0, slot := 0, held := [], keys := [(0, 7)], cmdPa := 0, cmd := 0 }
theorem wit_capture_framed : Ready { demo with frames := [(0, demoFrame)] } (.captDrop (lit32 7)) 0 0 demoC ∧
    State.framed { demo with frames := [(0, demoFrame)] } 0 (captKey demoC.launch 7) = true ∧ (lit32 0x8000).val ≠ 0 :=
  ⟨ready_of _ rfl rfl demo_count rfl, by decide +kernel, by decide⟩

/-- VotesAndStreamWaits: an oldest summary that may be read, one that may not, none; streams at the limit and above it; words unstarted. -/
def voted (r : Bool) : Ctx := { demoC with votes := [⟨0, 0, [], 1, true, r⟩] }
theorem wit_votes : ∀ r, Ready (withC (voted r)) (.vrd 4) 0 0 (voted r) ∧ (voted r).votes = [⟨0, 0, [], 1, true, r⟩] :=
  fun _ => ⟨ready_of _ rfl rfl demo_count rfl, rfl⟩
def demoA : Access :=
  { id := 9, cl := 0, slot := 0, uid := 0, agent := .gen, stream := 0, pm := 0, scope := .device, key := ⟨0, 1, 0⟩, op := .load, dest := .gen .n64 4,
    parts := [{ lane := 0, reg := 0, elem := 0, va := 0x40, pa := 0x40, size := 8, ord := 1, hint := .normal, data := 0, cmp := 0, done := false, acked := false,
                lost := false }],
    where_ := 0, word := 0, done := false, bad := false, clk := 0 }
def withA (a : Access) : State := { demo with accs := [a] }
theorem wit_swait : demo.leftOver demoC (.swait (lit32 1)) = none ∧ (∀ i < 8, (1 : W64).getLsbD i = true → demo.stream demoC.uid i ≤ slice (1 : W64) 17 8) ∧
    Ready (withA demoA) (.swait (lit32 1)) 0 0 demoC ∧ (withA demoA).leftOver demoC (.swait (lit32 1)) = none ∧ (withA demoA).allStarted 0 0 = true ∧
    ¬(∀ i < 8, (1 : W64).getLsbD i = true → (withA demoA).stream demoC.uid i ≤ slice (1 : W64) 17 8) ∧
    (∀ i < 8, (0x101 : W64).getLsbD i = true → (withA demoA).stream demoC.uid i ≤ slice (0x101 : W64) 17 8) :=
  ⟨rfl, by decide, ready_of _ rfl rfl demo_count rfl, rfl, by decide +kernel, by decide, by decide⟩
theorem wit_swait_unstarted : Ready (withC fullC) (.swait (lit32 1)) 0 0 fullC ∧ (withC fullC).allStarted 0 0 = false :=
  ⟨ready_of _ rfl rfl demo_count rfl, by decide +kernel⟩

/-- FutureWaitsAndTests: no fault waits; masks of none, of a slot that is over, of one that is not, of one that has failed. -/
def slotC (x : Slot) : Ctx := { demoC with slots := [(3, x)], g := [(4, 8)] }
def errSlot : Slot := { Slot.reset with state := .error, code := 3 }
theorem wit_future_clean : ∀ x : Slot, x.dres = false → x.uncorr = false → ∀ p ∈ (slotC x).slots, p.2.dres = false ∧ p.2.uncorr = false := by
  intro x h1 h2 p hp; cases List.mem_singleton.mp hp; exact ⟨h1, h2⟩
theorem wit_future_ready (x : Slot) (i : Instr) : Ready (withC (slotC x)) i 0 0 (slotC x) := ready_of i rfl rfl demo_count rfl
theorem wit_future_masks : ((slotC errSlot).gv 5).setWidth 64 = (0 : W64) ∧ ((slotC errSlot).gv 4).setWidth 64 = (8 : W64) ∧
    (slotC errSlot).fready.getLsbD 3 = true ∧ ((slotC errSlot).slot 3).state = .error ∧ (8 : W64) &&& ~~~(slotC errSlot).fready = 0 ∧
    (slotC (pending .none)).fready.getLsbD 3 = false ∧ (8 : W64) &&& ~~~(slotC (pending .none)).fready ≠ 0 ∧
    (slotC Slot.reset).fready.getLsbD 3 = true ∧ (∀ f : BitVec 6, (8 : W64).getLsbD f.toNat = true → f = 3) := by decide +kernel
theorem wit_future_cancel : ((slotC Slot.reset).slot 3).state ≠ .pending ∧ ((slotC (pending (.mma 1 false))).slot 3).work = .mma 1 false ∧
    ((slotC (pending (.command 7))).slot 3).work = .command 7 ∧ ((slotC (pending (.join 0x40 0x40))).slot 3).work = .join 0x40 0x40 ∧
    ((slotC (pending (.join 0x40 0x40))).slot 3).link = none ∧ ((slotC (pending (.join 0x40 0x40))).slot 3).defer = none ∧
    ((slotC errSlot).slot 3).code = 3 := by decide

/-- A context whose g4 holds `a`, g5 `b`, g6 `g`; a machine with it and with one byte more at the state word 0x40. -/
def abg (a b g : W72) : Ctx := { demoC with g := [(4, a), (5, b), (6, g)] }
def stateWord (w : Byte) (c : Ctx) : State := { withC c with mem := if w = 0 then demoMem else (0x40, w) :: demoMem }
def dev : Ann := plainAnn .device
def sx : SX := ⟨.w32, dev⟩

/-- The conditions of SyncReady, and a generator access of `al` bytes at place p in its order, by evaluation. -/
def inOrder (s : State) (c : Ctx) (k : Nat) (al : Nat) (p : Place) : Bool :=
  s.ownOrder c.uid .gen ⟨c.ops, 1, c.genSeq + k⟩ (placePart p.pa al p.ord) && !s.badAt p.pa al && s.linkOpen p.pa
def syncs (s : State) (c : Ctx) (va : W72) (al : Nat) (write : Bool) (p : Place) : Bool :=
  decide (s.stream c.uid 0 < 1023) && s.allStarted 0 0 && decide (va.toNat % al = 0) && maps s 0 c.ring va write p &&
    s.predsDone 0 0 c.uid .gen ⟨c.ops, 1, c.genSeq⟩ 0 (effScope p.pa .device) true && inOrder s c 0 al p &&
    decide (s.cutCarry c.uid .gen ⟨c.ops, 1, c.genSeq⟩ dev.pm (effScope p.pa .device) (decide (p.ord = 0)) = none)

theorem syncReady_of {s : State} {i : Instr} {c : Ctx} {va : W72} {al : Nat} {write : Bool} {p : Place} (hr : Ready s i 0 0 c)
    (h : syncs s c va al write p = true) : SyncReady s i 0 0 c dev va al write p := by
  simp only [syncs, inOrder, Bool.and_eq_true, decide_eq_true_eq, Bool.not_eq_true'] at h
  obtain ⟨⟨⟨⟨⟨⟨h1, h2⟩, h3⟩, h4⟩, h5⟩, ⟨h6, h7⟩, h8⟩, h9⟩ := h
  exact ⟨hr, ⟨h1, .inr h2⟩, h3, mapped_of h4, h5, h6, ⟨h7, h8⟩, h9⟩

def sc_ : Ctx := abg 0x40 5 0
/-- FsetArmsAndResolves: a state word that is not PENDING, one that is, with a count of 1 and of 2, and one that is over. -/
def wordAt40 : Place := ⟨0x40, 1, .normal⟩
theorem wit_fset (w : Byte) (i : Instr) (h : syncs (stateWord w sc_) sc_ (sc_.gv 4) 16 true wordAt40 = true) :
    SyncReady (stateWord w sc_) i 0 0 sc_ dev (sc_.gv 4) 16 true wordAt40 := syncReady_of (ready_of i rfl rfl demo_count rfl) h
/-- The state in which the effect of such an instruction begins. -/
def onWord (w : Byte) (c : Ctx) : State := carried (stateWord w c) 0 c dev wordAt40 16
theorem wit_fset_place : ∀ w ∈ [(0 : Byte), 0x21, 0x41, 2, 3], syncs (stateWord w sc_) sc_ (sc_.gv 4) 16 true wordAt40 = true ∧
    (onWord w sc_).homeRead 0x40 8 = w.toNat ∧ (onWord w sc_).homeRead 0x48 8 = 0 := by decide +kernel
theorem wit_fset_room : ∀ w ∈ [(0 : Byte), 0x21, 0x41, 2, 3], (homeOf 0x40).cached = true ∧
    (dropLine ((onWord w sc_).l2Set (lineOf 0x40)) (lineOf 0x40)).length < 16 ∧ Memory.wf (onWord w sc_).mem = true := by decide +kernel
theorem wit_fset_states : swState 0 ≠ 1 ∧ swState 0x21 = 1 ∧ swNeed 0x21 = 1 ∧ swNeed 0x41 = 2 ∧ 2 ≤ swState 2 ∧ 2 ≤ swState 3 := by decide
/-- Three resolutions: of a fresh word, of one that has one to come, and of one that has two; a cancel; none fires. -/
theorem wit_resolution : Resolution 0 0 5 false 0 false 2 5 ∧ Resolution 0x21 0 5 false 0 false 2 5 ∧ Resolution 0x41 0 5 false 0 false 0x21 5 ∧
    Resolution 0x21 0 0 false 0 true 0x23 0 ∧ ¬fires 0 2 ∧ ¬fires 0x21 2 ∧ ¬fires 0x41 0x21 ∧ ¬fires 0x21 0x23 := by
  refine ⟨?_, ?_, ?_, ?_, ?_, ?_, ?_, ?_⟩ <;> first | (constructor <;> decide) | (unfold fires; decide)

/-- FstoreAndFloadJoinSlotsAndWords: a slot that is PENDING and free of links, one that is linked, one that is over. -/
def joinC (x : Slot) : Ctx := { sc_ with slots := [(3, x)] }
theorem wit_fstore : ∀ x : Slot, ∀ i, Ready (stateWord 0x21 (joinC x)) i 0 0 (joinC x) := fun _ _ => ready_of _ rfl rfl demo_count rfl
theorem wit_fstore_place : ∀ x ∈ [pending (.command 7), { pending (.command 7) with link := some (0x80, dev) }, errSlot],
    syncs (stateWord 0x21 (joinC x)) (joinC x) 0x40 16 true wordAt40 = true ∧ maps (stateWord 0x21 (joinC x)) 0 0 0x40 false wordAt40 = true ∧
    (onWord 0x21 (joinC x)).homeRead 0x40 8 = 0x21 ∧ (onWord 2 (joinC x)).homeRead 0x40 8 = 2 ∧ (joinC x).gv 4 = 0x40 ∧
    (stateWord 2 (joinC x)).homeRead 0x40 8 = 2 := by decide +kernel
/-- An FLOAD that has waited for a slot that ended well, and for one that was resolved twice. -/
def joinedC (twice : Bool) : Ctx := { joinC { Slot.reset with dres := twice } with wait := .slot 3 }
theorem wit_fload : ∀ twice, (joinedC twice).wait = .slot 3 ∧ ((joinedC twice).slot 3).dres = twice ∧ ((joinedC twice).slot 3).uncorr = false ∧
    ((joinedC twice).slot 3).state ≠ .pending ∧ Running (joinedC twice) := by intro twice; cases twice <;> exact ⟨rfl, rfl, rfl, by decide, rfl⟩
theorem wit_fload_ready (twice : Bool) (i : Instr) : Ready (withC (joinedC twice)) i 0 0 (joinedC twice) := ready_of i rfl rfl demo_count rfl
theorem wit_fstore_slots : ((joinC (pending (.command 7))).slot 3).state = .pending ∧ ((joinC (pending (.command 7))).slot 3).link = none ∧
    ((joinC (pending (.command 7))).slot 3).defer = none ∧ ((joinC { pending .none with link := some (0x80, dev) }).slot 3).link.isSome = true ∧
    ((joinC errSlot).slot 3).state ≠ .pending ∧ Resolution 0x21 0 0 true 3 false 0x0300000000000006 0 := by
  refine ⟨rfl, rfl, rfl, rfl, by decide, ?_⟩; constructor <;> decide

/-- FregRegistersContinuation: a barge outside a job, one of a tree and one of a job, registered in a state word that has none. -/
def modeBarge (m : W64) : List W64 := [0x0000000100000000, 0, 0, 0, 0, m * 0x10000, 0, 0]
def regC (m : W64) (gc : W72) : Ctx := { abg 0x40 0x2000 gc with barge := modeBarge m, held := 2, credit := 1 }
def regCase (k : Nat) : W64 × W72 := [(0, 0), (1, 1), (2, 0)].getD k (0, 0)
theorem wit_freg (m : W64) (gc : W72) (i : Instr) : Ready (withC (regC m gc)) i 0 0 (regC m gc) := ready_of i rfl rfl demo_count rfl
def regK (k : Nat) : Ctx := regC (regCase k).1 (regCase k).2
def regS0 (k : Nat) : State := carried (withC (regK k)) 0 (regK k) dev wordAt40 16
def regImage (k : Nat) : List W64 := stamped (regK k).barge (toWords 8 (toBytes 64 ((regS0 k).homeRead 0x2000 64))) (((regK k).gv 6).setWidth 64)
def at2000 : Place := ⟨0x2000, 1, .normal⟩
theorem wit_freg_places : ∀ k < 3, syncs (withC (regK k)) (regK k) 0x40 16 true wordAt40 = true ∧ (regK k).gv 4 = 0x40 ∧
    maps (regS0 k) 0 0 0x2000 true at2000 = true ∧ inOrder (regS0 k) (regK k) 1 64 at2000 = true ∧ l2Key 0x40 ≠ l2Key 0x2000 ∧ (dropLine ((regS0 k).l2Set (lineOf 0x40)) (lineOf 0x40)).length < 16 ∧
    (dropLine ((regS0 k).l2Set (lineOf 0x2000)) (lineOf 0x2000)).length < 16 ∧ (regS0 k).homeRead 0x40 8 = 0 := by decide +kernel
theorem wit_freg_barge : ∀ k < 3, (regS0 k).bargeOk 0x00010101 (regImage k) = true ∧ (bargeMode (regK k).barge).toNat = k ∧
    (k = 1 → ((regK k).gv 6).setWidth 64 < (regK k).held ∧ ((regK k).gv 6).setWidth 64 ≠ (0 : W64)) ∧ (regK k).credit ≠ 0 := by decide +kernel

/-- SpawnAndJraiseExtendTheJob: the same three modes; masks of none, and of the first and the last item. -/
def spawnC (m : W64) (mask : W72) : Ctx := { abg 0x2000 0 mask with barge := modeBarge m, held := 3, credit := 2 }
theorem wit_spawn (m : W64) (mask : W72) (i : Instr) : Ready (withC (spawnC m mask)) i 0 0 (spawnC m mask) := ready_of i rfl rfl demo_count rfl
def spawnK (k : Nat) : Ctx := spawnC (BitVec.ofNat 64 k) 0x8000000000000001
def spawnS (k : Nat) : Nat × State := (carried (withC (spawnK k)) 0 (spawnK k) dev at2000 64).readAt 0 none .device 0x2000 64 .normal
def spawnImage (k : Nat) : List W64 := stampPrio (toWords 8 (toBytes 64 (spawnS k).1)) 0
theorem wit_spawn_place : ∀ k < 3, syncs (withC (spawnK k)) (spawnK k) 0x2000 64 false at2000 = true ∧ (spawnK k).gv 4 = 0x2000 ∧ (spawnS k).2.launchOf (spawnK k) = some demoL := by decide +kernel
theorem wit_spawn_launch : demoL.aborted = false ∧ demoL.faulted = false ∧ demoL.dieset.getLsbD 0 = true ∧ demoL.change = none := by decide
theorem wit_spawn_barges : ∀ k < 3, (spawnS k).2.bargeOk 0x00010101 (stamped (spawnK k).barge (spawnImage k) (if k = 1 then 1 else 0)) = true ∧
    (spawnS k).2.bargeOk 0x00010101 (stamped (spawnK k).barge ((spawnImage k).set 7 63) (if k = 1 then 1 else 0)) = true ∧
    (spawnS k).2.bargeOk 0x00010101 (spawnImage k) = true ∧ (bargeMode (spawnImage k)).toNat < 2 ∧ 2 * 1 < (spawnK k).held.toNat ∧
    2 ≤ (spawnK k).credit := by decide +kernel
theorem wit_spawn_masks : (List.range 64).filter (fun j => (0x8000000000000001 : W64).getLsbD j) = [0, 63] ∧
    (List.range 64).filter (fun j => (0 : W64).getLsbD j) = [] := by decide +kernel
theorem wit_jraise : bargeMode (modeBarge 2) = 2 ∧ bargeMode (modeBarge 0) ≠ 2 ∧ demoL.expected + 65536 ≤ 2 ^ 48 - 1 ∧
    2 ^ 48 - 1 < { demoL with expected := 2 ^ 48 - 1 }.expected + 1 ∧ (withC (spawnC 2 0)).launchOf (spawnC 2 0) = some demoL ∧
    Running (spawnC 2 0) := ⟨by decide, by decide, by decide, by decide, rfl, rfl⟩

/-- EngineCommandsAreAccepted: a PENDING slot, an engine with no room, a stream with none, and none of these. -/
def demoY (op : EngOp) : Cmd :=
  { id := 7, cl := 0, slot := 0, uid := 0, f := 3, op := op, a := 0x10000, b := 64, c := 0, x := ⟨.w32, dev, .rne, false, .normal⟩, key := ⟨0, 1, 0⟩,
    begun := false, pos := 0, ra := [], rb := [], rc := [], oa := [], ob := [], sel := [], plan := [], merge := ⟨0, 0, 0, none, none, none, none⟩,
    value := 0, code := 0, kind := 0, addr := 0, cancel := false, ended := false, clk := 0, loose := false, lostDies := 0 }
def manyCmds : State := { demo with cmds := List.replicate 64 { demoY .copy with uid := 9 } }
def manyAccs : State := { demo with accs := List.replicate 1023 demoA }
theorem wit_engine : (demoC.slot 3).state ≠ .pending ∧ (pendC.slot 3).state = .pending ∧ (demo.cmds.filter (fun y => y.cl = 0 && !y.ended)).length < 64 ∧
    ¬(manyCmds.cmds.filter (fun y => y.cl = 0 && !y.ended)).length < 64 ∧ demo.stream demoC.uid 0 < 1023 ∧ 1023 ≤ manyAccs.stream demoC.uid 0 ∧
    (manyAccs.cmds.filter (fun y => y.cl = 0 && !y.ended)).length < 64 := by decide +kernel
theorem wit_engine_ready (i : Instr) : Ready (withC pendC) i 0 0 pendC ∧ Ready manyCmds i 0 0 demoC ∧ Ready manyAccs i 0 0 demoC :=
  ⟨ready_of i rfl rfl demo_count rfl, ready_of i rfl rfl demo_count rfl, ready_of i rfl rfl demo_count rfl⟩

/-- FlightInitWritesItsImage: a new name, a name whose chambers are all FREE; a flight in memory, and one in this core's scratchpad, of the
smallest size and the largest count. -/
def initC (a g : W72) : Ctx := abg a 0 g
theorem wit_flinit : let c := initC 0x40000 0x800F
    slice (c.gv 6) 71 32 = 0 ∧ slice (c.gv 6) 7 4 = 0 ∧ slice (c.gv 6) 31 8 = 128 ∧ slice (c.gv 6) 3 0 + 1 = 16 ∧ (withC c).flight? 0 c.launch 15 = none ∧
    ((withC c).flights.filter (fun z => z.cl = 0)).length < 32 ∧ (c.gv 4).toNat % 128 = 0 ∧ (withF .free).flight? 0 0 2 = some (demoF .free) ∧
    ((demoF .free).away = false ∨ (demoF .free).uid = demoC.uid) ∧ ∀ z ∈ (demoF .free).cst, z = .free := by decide +kernel
theorem wit_flinit_window : let c := initC 0x800 0x800F
    slice (c.gv 4) 31 28 = 0 ∧ slice (c.gv 4) 26 25 = (if (c.gv 4).getLsbD 27 then 0 % 4 else 0) ∧ (withC c).core? 0 (slice (c.gv 4) 24 18) = some demoX ∧
    demoX.slot = 0 ∧ slice (c.gv 4) 17 0 + 16 * 128 ≤ slice ((withC c).partition c) 13 8 * 4096 ∧ demoX.j < 128 := by decide +kernel
theorem wit_flinit_ready (a g : W72) (i : Instr) : Ready (withC (initC a g)) i 0 0 (initC a g) ∧ Ready (withF .free) i 0 0 demoC :=
  ⟨ready_of i rfl rfl demo_count rfl, ready_of i rfl rfl demo_count rfl⟩

/-- FlightCommandsTakeEffect: the next chamber in the state that the step needs, and not. -/
def waitF (st : Chamber) : State := { demo with flights := [{ demoF .free with cst := [st, .free] }] }
theorem wit_flight_take : ∀ st ∈ [Chamber.free, .filling, .full, .draining], (waitF st).flight? 0 demoC.launch 2 = some { demoF .free with cst := [st, .free] } ∧
    (demoF .free).core < 128 ∧ ({ demoF .free with cst := [st, .free] } : Flight).cst.length = 2 ∧ (demoF .free).acqIx < 2 ∧ (demoF .free).waitIx < 2 ∧
    ({ demoF .free with cst := [st, .free] } : Flight).st 0 = st ∧ demoC.wait = .none := by decide +kernel
theorem wit_flight_alone (st : Chamber) (i : Instr) : Ready (waitF st) i 0 0 demoC ∧
    ∀ p ∈ (waitF st).clusterCtxs 0, p.1 ≠ 0 → ∀ q f u, p.2.wait ≠ .flight q f u := by
  refine ⟨ready_of i rfl rfl demo_count rfl, fun p hp h => ?_⟩
  cases List.mem_singleton.mp hp; exact absurd rfl h
/-- A step of a chamber that the context holds: its first and its last, beside a slot that is PENDING and one that is not. -/
def stepC (j : W72) (x : Slot) : Ctx := { slotC x with g := [(4, j)] }
def stepF (st : Chamber) (j : W72) (x : Slot) : State :=
  { withC (stepC j x) with flights := [{ demoF .free with cst := [st, st] }] }
theorem wit_flight_step : ∀ st ∈ [Chamber.filling, .draining], ∀ j < 2, ∀ x ∈ [pending .none, Slot.reset, errSlot],
    (stepF st (BitVec.ofNat 72 j) x).flight? 0 0 2 = some { demoF .free with cst := [st, st] } ∧ (stepF st (BitVec.ofNat 72 j) x).stream 0 0 < 1023 ∧
    (stepF st (BitVec.ofNat 72 j) x).allStarted 0 0 = true ∧ (stepF st (BitVec.ofNat 72 j) x).predsDone 0 0 0 .gen ⟨0, 1, 0⟩ 0 .cluster true = true ∧
    slice ((stepC (BitVec.ofNat 72 j) x).gv 4) 63 0 = j := by
  decide +kernel
theorem wit_flight_step_chamber : ∀ st ∈ [Chamber.filling, .draining], ∀ j ∈ [0, 1], ({ demoF .free with cst := [st, st] } : Flight).st j = st ∧
    (demoF .free).hold.getD j 0 = 0 ∧ (demoF .free).defer.getLsbD j = false := by decide +kernel
theorem wit_flight_step_slot : ∀ x ∈ [pending .none, Slot.reset, errSlot], ((stepC 0 x).slot 3).defer = none ∧ ((stepC 0 x).slot 3).link = none := by
  decide +kernel
theorem wit_flight_step_ready (st : Chamber) (j : W72) (x : Slot) (i : Instr) : Ready (stepF st j x) i 0 0 (stepC j x) :=
  ready_of i rfl rfl demo_count rfl

/-- FlightFaults: no flight; shapes of size 0 and 127; a chamber out of range, not so held, already deferred. -/
theorem wit_flight_faults : demo.flight? 0 demoC.launch 2 = none ∧ slice (0x0 : W72) 31 8 = 0 ∧ slice (0x7F00 : W72) 31 8 % 128 ≠ 0 ∧
    slice (0x100000000 : W72) 71 32 ≠ 0 ∧ (demoF .free).count ≤ 2 ∧ (demoF .free).st 0 ≠ .filling ∧
    ({ demoF .draining with defer := 1 } : Flight).defer.getLsbD 0 = true ∧ (demoF .draining).st 0 = .draining ∧ Running demoC :=
  ⟨rfl, by decide, by decide, by decide, by decide, by decide, by decide, by decide, rfl⟩

/-- BarriersAndMonitorsWait: quiet, and not; the two waits of BAR.DIE; each state of a monitor, and a wait that has run out. -/
def waitC (w : Wait) (m : Monitor) : Ctx := { demoC with wait := w, monitor := m }
theorem wit_barrier : (demo.allStarted 0 0 = true ∧ ∀ i < 8, demo.stream demoC.uid i = 0) ∧ ¬(∀ i < 8, (withA demoA).stream demoC.uid i = 0) := by
  decide +kernel
theorem wit_barrier_ready (w : Wait) (m : Monitor) (i : Instr) : Ready (withC (waitC w m)) i 0 0 (waitC w m) ∧ Ready (withA demoA) i 0 0 demoC ∧
    (waitC w m).wait = w ∧ (waitC w m).monitor = m := ⟨ready_of i rfl rfl demo_count rfl, ready_of i rfl rfl demo_count rfl, rfl, rfl⟩
theorem wit_monitor : SyncReady demo (.mon 4 5 sx) 0 0 demoC dev (demoC.gv 5) 8 false ⟨0, 1, .normal⟩ ∧ ((carried demo 0 demoC dev ⟨0, 1, .normal⟩ 8).ctxs.map Prod.fst).Nodup ∧
    homeUnit 0 = some 0 ∧ homeUnit flagBase = some 12 ∧ homeUnit 0x20000000000000 = none :=
  ⟨syncReady_of (demo_ready _) (by decide +kernel), by decide +kernel, by decide, by decide, by decide⟩

/-- WatchpointsAreSetAndCleared: a record that is not valid; a valid one of the flag window; one whose barge names no module; one that passes,
with room, and with all 64 watchpoints of its unit taken. -/
def wpC (a : W72) : Ctx := { demoC with g := [(4, a)] }
def demoW (l : Nat) : Watch := { id := 0, launch := l, start := 0x4000, pa := 0x4000, words := 1, once := false, armed := true, value := 0, mask := 0, image := placedBarge }
def fullW : State := { withC (wpC 0x3000) with watches := (List.range 64).map (fun j => (256 + j, demoW 0)) }
theorem wit_watch_ready (a : W72) (i : Instr) : Ready (withC (wpC a)) i 0 0 (wpC a) := ready_of i rfl rfl demo_count rfl
theorem wit_watch : ∀ e ∈ [((0x3000 : W72), (0x2000 : W72), (0x4000 : W72), true, true, (4 : Nat)), (0x3040, 0x2000, 0x1000000000, true, true, 12), (0x3080, 0, 0x4000, true, false, 4),
      (0x100000, 0, 0x180001, false, false, 0)],
    let (a, barge, start, valid, good, unit) := e
    let s := withC (wpC a)
    let s0 := carried s 0 (wpC a) dev ⟨a.toNat, 1, .normal⟩ 64
    let r1 := s0.readAt 0 none .device a.toNat 64 .normal
    let rec_ := toWords 8 (toBytes 64 r1.1)
    let r2 := (r1.2.reach 0 barge.toNat).readAt 0 none .device barge.toNat 64 .normal
    syncs s (wpC a) a 64 false ⟨a.toNat, 1, .normal⟩ = true ∧ (wpC a).gv 4 = a ∧
    (wordAt rec_ 0).setWidth 72 = start ∧ wordAt rec_ 1 = 0 ∧ (wordAt rec_ 4).setWidth 72 = barge ∧
    (valid = true → wordAt rec_ 5 = 0 ∧ wordAt rec_ 6 = 0 ∧ wordAt rec_ 7 = 0 ∧ start.toNat % 8 = 0 ∧ barge.toNat % 64 = 0 ∧ start.toNat % 4096 + 8 ≤ 4096 ∧
      maps r1.2 0 0 barge false ⟨barge.toNat, 1, .normal⟩ = true ∧ inOrder r1.2 (wpC a) 1 64 ⟨barge.toNat, 1, .normal⟩ = true ∧
      maps r2.2 0 0 start false (if unit = 12 then ⟨flagBase, 0, .normal⟩ else ⟨start.toNat, 1, .normal⟩) = true ∧
      homeUnit (if unit = 12 then flagBase else start.toNat) = some unit) ∧
    (valid = false → start.toNat % 8 ≠ 0) ∧ (valid = true → r2.2.bargeOk (r2.2.partition (wpC a)) (toWords 8 (toBytes 64 r2.1)) = good) ∧
    bargeMode (toWords 8 (toBytes 64 r2.1)) = 0 ∧ tget r2.2.watches (64 * 4 + 0) = none := by decide +kernel
theorem wit_watch_full : Ready fullW (.wpSet 5 4 sx) 0 0 (wpC 0x3000) ∧ (∀ k < 64, tget fullW.watches (64 * 4 + k) ≠ none) ∧
    (demoW 0).launch = demoC.launch ∧ (demoW 1).launch ≠ demoC.launch := ⟨ready_of _ rfl rfl demo_count rfl, by decide +kernel, rfl, by decide⟩

/-! ### Results that the spec's examples print -/

/-- What g register d holds after i with the registers g. -/
def after (g : Tab W72) (i : Instr) (d : BitVec 6) : Option W72 :=
  match exec i (withC (withG g)) with
  | .next t => (t.ctx? 0 0).map (fun c => c.gv d)
  | _ => none

/-- R153, its examples. -/
theorem test_add_wraps : after [(1, 0x007FFFFFFFFFFFFFFF)] (.addLiteral .i64 1 1 (lit32 1)) 1 = some 0xFF8000000000000000 ∧
    after [(1, 0xFFFFFFFFFFFFFFFFFF)] (.addLiteral .a72 1 1 (lit32 1)) 1 = some 0 ∧
    after [(1, 0x5A0000000100000000)] (.addLiteral .n32 1 1 (lit32 (-1))) 1 = some 0x00FFFFFFFF := by decide +kernel
theorem test_shr_past_width : after [(1, 0x80000000)] (.shrLiteral .i32 1 1 (lit32 40)) 1 = some 0xFFFFFFFFFFFFFFFFFF := by decide +kernel
theorem test_div_by_zero : after [(2, 7)] (.divRegister .n64 1 2 3) 1 = some 0xFFFFFFFFFFFFFFFF := by decide +kernel
theorem test_build_72 : after [(8, 0x5A)] (.shlLiteral .a72 8 8 ⟨.w64, 64⟩) 8 = some 0x5A0000000000000000 := by decide +kernel

/-- What a core is after lane word i. -/
def ran (x : Core) (i : Instr) : Option Core :=
  match exec i (withX x) with
  | .next t => t.core? 0 0
  | _ => none

/-- The core with 16 lanes of values in v registers of one tag, from a key on. -/
def lanes (r : Nat) (f : Fmt) (xs : List W32) : Core := { demoX with v := (xs.zipIdx).map (fun p => (16 * r + p.2, p.1)), vtag := [(r, f)] }
def qs (xs : List W64) : Core := { demoX with q := xs.zipIdx.map (fun p => (p.2, p.1)) }
def onQ (f : Fmt) (c : Opd) : LA := ⟨f, .rne, 0, c, false, 0, .q 2, .q 1, .q 4⟩
/-- q4 after a word with q1 and q2 as its sources, and q3 where it takes a third. -/
def q4 (i : Instr) (x y z : W64) : Option W64 := (ran (qs [0, x, y, z]) i).map (fun c => c.qv 4)

/-- R214, its table. -/
theorem test_lane_divide : q4 (.idiv (onQ .i32 .unused)) 0x80000000 0xFFFFFFFF 0 = some 0xFFFFFFFF80000000 ∧
    q4 (.idiv (onQ .n32 .unused)) 7 0 0 = some 0xFFFFFFFF ∧ q4 (.irem (onQ .i32 .unused)) (-7) 2 0 = some 0xFFFFFFFFFFFFFFFF := by decide +kernel
theorem test_lane_saturates : q4 (.iadd { onQ .n32 .unused with sub := 1 }) 0xFFFFFFF0 0x20 0 = some 0xFFFFFFFF ∧
    q4 (.laneShr (onQ .i32 .unused)) 0xFFFFFFF8 40 0 = some 0xFFFFFFFFFFFFFFFF := by decide +kernel
theorem test_bit_fields : q4 (.bfx (onQ .i32 .unused)) 0x00000F00 0x0408 0 = some 0xFFFFFFFFFFFFFFFF ∧
    q4 (.bfi (onQ .n32 (.q 3))) 0x5 0x081C 0 = some 0x50000000 := by decide +kernel
/-- After R246, the borderline results of the floating-point chapter. -/
theorem test_fma_is_fused : q4 (.fma (onQ .fp32 (.q 3))) 0x3F800800 0x3F800800 0xBF801000 = some 0x33800000 ∧
    q4 (.fmul (onQ .fp32 .unused)) 0x3F800800 0x3F800800 0 = some 0x3F801000 := by decide +kernel
theorem test_zero_sum : q4 (.fadd (onQ .fp32 .unused)) 0x3F800000 0xBF800000 0 = some 0 ∧
    q4 (.fadd { onQ .fp32 .unused with rnd := .rdn }) 0x3F800000 0xBF800000 0 = some 0x80000000 := by decide +kernel
theorem test_overflow : q4 (.fmul (onQ .bf16 .unused)) 0x7F7F 0x4000 0 = some 0x7F80 ∧
    q4 (.fmul { onQ .bf16 .unused with rnd := .rtz }) 0x7F7F 0x4000 0 = some 0x7F7F := by decide +kernel
theorem test_divide_by_zero : q4 (.fdiv (onQ .fp16 .unused)) 0x3C00 0 0 = some 0x7C00 ∧ q4 (.fdiv (onQ .fp16 .unused)) 0 0 0 = some 0x7E00 := by
  decide +kernel
theorem test_square_root : q4 (.fsqrt { onQ .fp32 .unused with b := .unused }) 0x80000000 0 0 = some 0x80000000 ∧
    q4 (.fsqrt { onQ .fp32 .unused with b := .unused }) 0xBF800000 0 0 = some 0x7FC00000 := by decide +kernel
theorem test_least : q4 (.fmin (onQ .fp32 .unused)) 0 0x80000000 0 = some 0x80000000 ∧
    q4 (.fmax (onQ .fp32 .unused)) 0x7FC00001 0x3F800000 0 = some 0x7FC00000 := by decide +kernel
theorem test_to_integer : q4 (.frnd { onQ .fp32 .unused with b := .unused }) 0xBF000000 0 0 = some 0x80000000 ∧
    q4 (.frnd { onQ .fp32 .unused with b := .unused, rnd := .rna }) 0xBF000000 0 0 = some 0xBF800000 := by decide +kernel
theorem test_scale : q4 (.fscale (onQ .fp16 .unused)) 0x3C00 (-25) 0 = some 0 ∧
    q4 (.fscale { onQ .fp16 .unused with rnd := .rup }) 0x3C00 (-25) 0 = some 1 := by decide +kernel
theorem test_specials : q4 (.fsin { onQ .fp32 .unused with b := .unused }) 0xBF800000 0 0 = some 0x80000000 ∧
    q4 (.fcos { onQ .fp32 .unused with b := .unused }) 0x3F000000 0 0 = some 0 ∧
    q4 (.fsigm { onQ .fp16 .unused with b := .unused }) 0 0 0 = some 0x3800 := by decide +kernel
theorem test_convert : q4 (.cvt { onQ .i32 (.z 1) with b := .unused }) 0x4F000000 0 0 = some 0x7FFFFFFF := by decide +kernel
/-- R244: BSCALE of 12.0 is 0x80. -/
theorem test_block_scale : q4 (.bscale { onQ .fp32 .unused with b := .unused }) 0x41400000 0 0 = some 0x80 := by decide +kernel
/-- R243: the three values of its example under the scale 0x80. -/
theorem test_block_convert : (ran { lanes 8 .fp32 [0x41400000, 0xBF400000, 0x40400000] with q := [(2, 0x80)] }
    (.cvtBlk ⟨.l6, .rne, 0, .unused, false, 0, .q 2, .v 8, .v 16⟩)).map (fun c => [0, 1, 2, 3].map (c.vv 16)) = some [0x1E, 0x2E, 0x16, 0] := by
  decide +kernel
/-- R245: the plane words of those codes. -/
theorem test_planes : (ran { lanes 16 .l6 [0x1E, 0x2E, 0x16] with vtag := [(16, .l6), (17, .l6), (18, .l6), (19, .l6)] }
    (.planePk (la .l6 .unused (.v 16) (.v 20)))).map (fun c => [0, 1, 2, 3, 4, 5].map (c.vv 20)) = some [0, 7, 7, 3, 5, 2] := by decide +kernel

/-- R226, R227: the example's register, and its mask 0x002F. -/
def sums : Core := { lanes 2 .fp32 [0x4B800000, 0x3F800000, 0x3F800000, 0xCB800000, 0x40E00000, 0x40400000] with m := [(3, 0x002F)] }
theorem test_tree : (ran sums (.redAdd { la .fp32 .unused (.v 2) (.q 4) with gm := 3 })).map (fun c => c.qv 4) = some 0x40800000 := by decide +kernel
theorem test_scan : (ran sums (.scanAdd { la .fp32 .unused (.v 2) (.v 6) with gm := 3 })).map (fun c => [0, 1, 2, 3, 4, 5].map (c.vv 6)) =
    some [0x4B800000, 0x4B800000, 0x4B800000, 0, 0, 0x40400000] := by decide +kernel
/-- R229, its example. -/
def runs : Core := { demoX with
  v := ([1, 4, 7, 9, 12, 15, 20, 22, 30, 31, 40, 41, 50, 52, 60, 61] : List W32).zipIdx.map (fun p => (16 + p.2, p.1)) ++
       ([2, 4, 8, 9, 13, 15, 21, 22, 25, 29, 33, 35, 38, 39, 45, 48] : List W32).zipIdx.map (fun p => (32 + p.2, p.1)), vtag := [(1, .n32), (2, .n32)] }
theorem test_intersect : (ran runs (.isect ⟨.n32, .rne, 0, .m 4, false, 0, .v 2, .v 1, .v 3⟩)).map (fun c => (c.vv 3 15, c.mask 4)) = some (0x100C, 0x00AA) := by
  decide +kernel
/-- R230, its example: COMPACT and EXPAND of lanes 2, 5 and 9. -/
def sel259 : Core := { runs with m := [(1, 0x0224)] }
theorem test_compact : (ran sel259 (.compact { la .n32 .unused (.v 1) (.v 3) with gm := 1 })).map (fun c => [0, 1, 2, 3].map (c.vv 3)) = some [7, 15, 31, 0] := by
  decide +kernel
theorem test_expand : (ran sel259 (.expand { la .n32 .unused (.v 1) (.v 3) with gm := 1 })).map (fun c => [2, 5, 9, 3].map (c.vv 3)) = some [1, 4, 7, 0] := by
  decide +kernel

/-! ### Every hypothesis of a statement can be met: lane words

`demo_lane` meets LaneReady on the machine whose core 0 is `x`, for every legal word whose operands lie in the partition. -/

theorem fresh_latch_of {x : Core} (h : x.latch = []) (b : BitVec 2) : (x.lat b.toNat).src = none := by simp [Core.lat, h]

/-- A core whose v0 to v63 all carry tag f; its a1 an integer of stride 2, its a2 one of the greatest stride. -/
def tagC (f : Fmt) : Core :=
  { demoX with vtag := (List.range 64).map (fun r => (r, f)), q := [(1, 7), (2, 2)], m := [(1, 0x00FF)],
               a := [(1, ⟨5, 2, .i64⟩), (2, ⟨5, 0x7FFFFFFF, .i64⟩)] }
theorem wit_lane {i : Instr} {os : List (Opd × Nat)} (f : Fmt) (hw : i.wf = true) (hi : os.all (fun p => inside 0x00010101 p.1 p.2) = true) :
    LaneReady (withX (tagC f)) i 0 0 0 demoC (tagC f) os := demo_lane _ (fresh_latch_of rfl) hw hi

/-- The words of the tests below: binary, unary and ternary, at the partition's last registers. -/
def bin (f : Fmt) : LA := la f (.v 60) (.v 58) (.v 62)
def una (f : Fmt) : LA := la f .unused (.v 58) (.v 62)
def ter (f : Fmt) : LA := { bin f with c := .v 56 }

/-- LaneIntegerWordsWriteExactResult: every word of it, at 32 and at 64 bits, saturating, and with a q destination. -/
theorem wit_lane_integer : (∀ f ∈ [Fmt.i32, .n64], ∀ i ∈ [Instr.iadd (bin f), .isub (bin f), .imul (bin f), .imulh (bin f), .imad (ter f), .idiv (bin f),
      .irem (bin f), .imin (bin f), .imax (bin f), .iabs (una f), .laneAnd (bin f), .laneOr (bin f), .laneXor (bin f), .laneShl (bin f), .laneShr (bin f),
      .laneClz (una f), .lanePopc (una f), .bfx (bin f), .bfi (ter f), .iadd { bin f with sub := 1 }, .iadd { la f (.q 1) (.imm 0) (.q 15) with gm := 0 }], i.wf = true) ∧
    (∀ f ∈ [Fmt.i32, .n64], (laOpds (ter f) f (regCount f) (regCount f) (regCount f)).all (fun p => inside 0x00010101 p.1 p.2) = true) ∧
    (∀ f ∈ [Fmt.i32, .n64], ∀ o ∈ [Opd.v 60, .v 58, .v 56, .q 1, .imm 0, .unused], tagged (tagC f) o (regCount f) (fun t => isIntFmt t && decide (Fmt.width t = Fmt.width f)) = true) := by
  decide +kernel
theorem wit_lane_whole : Whole (bin .i32) ∧ Whole (la .i32 (.q 1) (.imm 0) (.q 15)) := ⟨.inl fun _ h => (by cases h), .inr (.inl rfl)⟩

/-- ComparisonsAndMaskWordsWriteMasks. -/
theorem wit_compare : (∀ i ∈ [Instr.icmp (la .i32 (.v 60) (.v 58) (.m 7)), .icmp { la .i32 (.v 60) (.v 58) (.m 1) with sub := 5 },
      .mAnd (la .untyped (.m 7) (.m 0) (.m 1)), .mOr (la .untyped (.m 7) (.m 0) (.m 1)), .mXor (la .untyped (.m 7) (.m 0) (.m 1)),
      .mNot (la .untyped .unused (.m 0) (.m 7)), .mFromq (la .untyped .unused (.q 1) (.m 7)),
      .fcmp (la .fp32 (.v 60) (.v 58) (.m 7)), .fcmp { la .fp32 (.v 60) (.v 58) (.m 7) with sub := 6 }], i.wf = true) ∧
    (∀ f ∈ [Fmt.i32, .fp32], tagged (tagC f) (.v 60) 1 (· = f) = true) ∧ inside 0x00010101 (.v 60) 1 = true := by decide +kernel

/-- MovesAndPromotionsWrite: the first live lane is lane 0, and lane 15. -/
theorem wit_moves : (∀ i ∈ [Instr.laneSel { bin .fp32 with c := .m 7 }, .laneMov (una .l6), .promQv (la .fp32 .unused (.q 1) (.v 63)),
      .promAv (la .i32 .unused (.a 1) (.v 63)), .xtr (la .i32 (.imm 127) (.v 58) (.q 0)), .xtr (la .i32 (.imm 64) (.v 58) (.q 0)),
      .mToq (la .untyped .unused (.m 7) (.q 0))], i.wf = true) ∧ tagged (tagC .fp32) (.v 60) 1 (fun t => t ≠ .untyped && decide (Fmt.width t = 32)) = true ∧
    ((tagC .fp32).areg 1).tag = .i64 ∧ (tagC .fp32).live.getLsbD 0 = true ∧ ({ tagC .fp32 with live := 0x8000 } : Core).live.getLsbD 15 = true ∧
    (∀ l < 15, ({ tagC .fp32 with live := 0x8000 } : Core).live.getLsbD l = false) := by decide +kernel

/-- AffineWordsWriteBaseAndStride: a stride in range, and one past 2^31 - 1. -/
theorem wit_affine : (∀ i ∈ [Instr.affAdd (la .i64 (.a 1) (.a 0) (.a 15)), .affSub (la .i64 (.q 1) (.a 1) (.a 15)), .affMul (la .i64 (.q 1) (.a 1) (.a 15)),
      .affShl (la .i64 (.imm 65) (.a 1) (.a 15)), .affMk (la .i64 (.q 1) (.q 2) (.a 15)), .affStr (la .i64 (.q 1) (.a 1) (.a 15)),
      .promQa (la .i64 .unused (.q 1) (.a 15)), .affAdd { la .i64 (.a 0) (.a 2) (.a 15) with sub := 1 }], i.wf = true) ∧
    ((tagC .i64).pair .i64 (.a 1)).2 + ((tagC .i64).pair .i64 (.a 0)).2 = 3 ∧ 2 ^ 31 - 1 < ((tagC .i64).pair .i64 (.a 2)).2 + ((tagC .i64).pair .i64 (.a 0)).2 ∧
    ((tagC .i64).areg 0).tag = .n32 ∧ ((tagC .i64).areg 1).tag = .i64 := by decide +kernel

/-- CrossLaneWordsWrite. -/
theorem wit_cross : (∀ i ∈ [Instr.shfl (la .i32 (.imm 64) (.v 58) (.v 62)), .shflRot (la .i32 (.imm 79) (.v 58) (.v 62)), .shflXor (la .i32 (.q 1) (.v 58) (.v 62)),
      .bcast (la .i32 (.imm 64) (.v 58) (.v 62)), .redAdd (la .i32 .unused (.v 58) (.q 4)), .redMin (la .i32 .unused (.v 58) (.q 4)), .redMax (la .i32 .unused (.v 58) (.q 4)),
      .redAnd (la .i32 .unused (.v 58) (.q 4)), .redOr (la .i32 .unused (.v 58) (.q 4)), .scanAdd (la .i32 .unused (.v 58) (.v 62)),
      .scanMax { la .i32 .unused (.v 58) (.v 62) with sub := 1 }, .compact (una .i32), .expand (una .i32), .redAdd (la .fp32 .unused (.v 58) (.q 4)),
      .isect ⟨.n32, .rne, 0, .m 4, false, 0, .v 60, .v 58, .v 62⟩], i.wf = true) ∧ selected (tagC .i32) 0 = List.range 16 ∧ selected (tagC .i32) 2 = [] ∧
    tagged (tagC .i32) (.v 58) 1 (fun t => isIntFmt t && decide (Fmt.width t = 32)) = true ∧ tagged (tagC .n32) (.v 58) 1 (· = .n32) = true := by decide +kernel

/-- LexitAndVoteTakeEffect: a lane left, and none; an entry to reserve with a place free, and with none; one that is reserved. -/
def lexitW : LA := la .untyped .unused .unused .unused
def voteW : LA := la .untyped .unused (.m 0) .unused
def voteC (r : Bool) : Ctx := { demoC with votes := [⟨3, 0, [0], 0, r, false⟩] }
def voteS (r : Bool) (extra : Nat) : State :=
  { demo with cores := [(0, { demoX with buf := [⟨3, 0, 0⟩] })],
              ctxs := [(0, voteC r), (1, { demoC with uid := 5, votes := List.replicate extra ⟨0, 0, [], 0, true, false⟩ })] }
theorem wit_lexit : (Instr.lexit { lexitW with gm := 1 }).wf = true ∧ (Instr.lexit lexitW).wf = true ∧
    (tagC .i32).live &&& ~~~((tagC .i32).mask 1) ≠ 0 ∧ (tagC .i32).live &&& ~~~((tagC .i32).mask 0) = 0 := by decide
theorem wit_vote_ready (r : Bool) (extra : Nat) (sub : BitVec 3) (h : (Instr.vote { voteW with sub := sub }).wf = true) :
    LaneReady (voteS r extra) (.vote { voteW with sub := sub }) 0 0 0 (voteC r) { demoX with buf := [⟨3, 0, 0⟩] } [] :=
  laneReady_of rfl rfl rfl rfl (fresh_latch_of rfl) h rfl
theorem wit_vote : (∀ n < 4, (Instr.vote { voteW with sub := BitVec.ofNat 3 n }).wf = true) ∧ (Instr.vote { la .untyped .unused (.q 1) .unused with sub := 4 }).wf = true ∧
    headE (voteC false) { demoX with buf := [⟨3, 0, 0⟩] } = 3 ∧ (voteS false 15).votesHeld 0 < 16 ∧ 16 ≤ (voteS false 16).votesHeld 0 ∧
    16 ≤ (voteS true 16).votesHeld 0 ∧ (∀ v ∈ (voteC true).votes, v.e = 3 → v.reserved = true) ∧ (∃ v ∈ (voteC false).votes, v.e = 3 ∧ v.reserved = false) := by
  decide +kernel

/-- LaneFaultsAreRaised: an encoding that is illegal, a register past the partition, one that a load has still to write, a part of q, and a
wrong tag. -/
def loadA (reg : Nat) : Access :=
  { demoA with agent := .core 0, op := .load, dest := .lanes .i32 false,
               parts := [{ lane := 0, reg := reg, elem := 0, va := 0x40, pa := 0x40, size := 4, ord := 1, hint := .normal, data := 0, cmp := 0, done := false, acked := false, lost := false }] }
def loadS : State := { withX (tagC .i32) with accs := [loadA 58] }
theorem wit_lane_here : LaneHere (withX (tagC .i32)) 0 0 0 demoC (tagC .i32) ∧ LaneHere loadS 0 0 0 demoC (tagC .i32) ∧ Running demoC :=
  ⟨⟨rfl, rfl, rfl, by decide, by decide, by decide, rfl, rfl⟩, ⟨rfl, rfl, rfl, by decide, by decide, by decide, rfl, rfl⟩, rfl⟩
theorem wit_lane_illegal : (encodeLane (.iadd (bin .fp32))).isSome = true ∧ (Instr.iadd (bin .fp32)).wf = false ∧ (Instr.iadd (bin .i32)).wf = true ∧
    (Instr.iadd (la .i32 (.v 60) (.v 58) (.v 64))).wf = true ∧ (Instr.fadd (la .fp32 (.v 60) (.v 58) (.v 255))).wf = true := by decide +kernel
theorem wit_lane_outside : ¬Inside ((withX (tagC .i32)).partition demoC) (.v 64) 1 ∧ Inside ((withX (tagC .i32)).partition demoC) (.v 63) 1 := by
  have h : (withX (tagC .i32)).partition demoC = 0x00010101 := rfl
  rw [h]; unfold Inside; decide
theorem wit_lane_unsettled : ¬Settled loadS 0 0 demoC.uid (tagC .i32) (.v 58) 1 := fun h =>
  h (loadA 58) (List.mem_singleton.mpr rfl) rfl rfl rfl rfl .i32 rfl _ (List.mem_singleton.mpr rfl) 0 (by decide) (by decide)
theorem wit_lane_part : ¬Whole { la .i32 (.q 1) (.imm 0) (.q 15) with gm := 1 } := by
  intro h; rcases h with h | h | h
  · exact h 15 rfl
  · exact absurd h (by decide)
  · cases h
theorem wit_lane_tag : (Instr.iadd { la .i32 (.q 1) (.imm 0) (.q 15) with gm := 1 }).wf = true ∧ ¬Tagged (tagC .fp32) (.v 58) 1 (SameInt .i32) := by
  refine ⟨by decide, fun h => ?_⟩
  have := (h 0 (by decide)).1
  revert this; decide +kernel

/-- FloatingPointWordsRoundOnce: every word of it, in each format that it takes. -/
theorem wit_float : ∀ f ∈ [Fmt.fp32, .fp16, .bf16], (∀ i ∈ [Instr.fadd { bin f with rnd := .rup }, .fsub { bin f with rnd := .rdn }, .fmul { bin f with rnd := .rtz },
      .fma { ter f with rnd := .rna }, .fnma (ter f), .fdiv (bin f), .fsqrt (una f), .fmin (bin f), .fmax (bin f), .fabs (una f), .fneg (una f),
      .fsgn { bin f with sub := 2 }, .frnd (una f), .frcp (una f), .frsq (una f), .fexp2 (una f), .flog2 (una f), .fsin (una f), .fcos (una f), .ftanh (una f),
      .fsigm (una f), .ferf (una f), .fclass (una f), .fgetexp (una f), .fscale { bin f with b := .q 1 }, .fscale { bin f with b := .a 1 }], i.wf = true) ∧
    (∀ o ∈ [Opd.v 60, .v 58, .v 56], tagged (tagC f) o 1 (· = f) = true) ∧ (laOpds (ter f) f 1 1 1).all (fun p => inside 0x00010101 p.1 p.2) = true := by
  decide +kernel

/-- ExactArithmeticIsRational: numbers, both zeros, both infinities and no number. -/
theorem wit_exact : (Exact.fin (-3) 4).sound ∧ (Exact.zero true).sound ∧ (Exact.inf true).sound ∧ (Exact.nan).sound ∧ (Exact.fin (-3) 4).rat = some (-3 / 4) ∧
    (Exact.zero true).rat = some 0 ∧ (Exact.fin (-3) 4).isNeg = true ∧ (Exact.fin 3 4).isNeg = false ∧ ((-3 : Rat) / 4 + 3 / 4 = 0) := by
  refine ⟨⟨by decide, by decide⟩, trivial, trivial, trivial, ?_, rfl, rfl, rfl, by norm_num⟩
  simp [Exact.rat]

/-- ConversionsWrite: CVT from each width, and the block and plane words. -/
theorem wit_convert : (∀ i ∈ [Instr.cvt { una .i32 with c := .z 1 }, .cvt { una .fp32 with c := .z 14 }, .cvt { una .i64 with c := .z 4, sub := 1 },
      .cvtBlk { la .l6 (.q 1) (.v 58) (.v 62) with rnd := .rup }, .bscale (una .fp32), .planePk (la .l6 .unused (.v 60) (.v 62)), .planePk (la .n4 .unused (.v 60) (.v 62)),
      .planeUp (la .i4 .unused (.v 62) (.v 60))], i.wf = true) ∧ Fmt.ofCode 1 = some .fp32 ∧ Fmt.ofCode 14 = some .i64 ∧ Fmt.ofCode 15 = some .n64 ∧
    tagged (tagC .l6) (.v 60) 4 (· = .l6) = true ∧ [(Opd.v 62, 2), (Opd.v 60, 4)].all (fun p => inside 0x00010101 p.1 p.2) = true := by decide +kernel

/-- LaneMemoryWordsStartAccesses: addresses from an affine register, one element a lane, and sixteen bytes a lane. -/
def memX : Core := { tagC .fp32 with a := [(1, ⟨0x4000, 16, .i64⟩), (2, ⟨0x4001, 16, .i64⟩), (3, ⟨0x4000, 6, .i64⟩)],
                                     vtag := ((List.range 64).map (fun r => (r, Fmt.fp32))) }
def memW (wid : BitVec 2) : LM := { lm .fp32 (.imm 64) (.a 1) (.v 60) with wid := wid }
def memVa (l : Nat) : W72 := BitVec.ofNat 72 (0x4000 + 16 * l)
theorem wit_lane_memory : (∀ i ∈ [Instr.laneLd (memW 3), .laneSt (memW 3), .laneLd (memW 0), .laneAtom { memW 1 with b := .v 56 }, .laneAtom { lm .i32 (.v 56) (.a 1) (.v 60) with wid := 3 },
      .laneCas (lm .n32 (.v 56) (.a 1) (.v 60)), .ldcp { lm .untyped (.imm 64) (.a 1) .unused with wid := 3 }, .stcp { lm .untyped (.imm 64) (.a 1) .unused with wid := 1 }], i.wf = true) ∧
    elemCount (memW 3) = 4 ∧ selected memX 0 = List.range 16 ∧ (memX.areg 1).tag = .i64 ∧ tagged memX (.v 60) 4 (· = .fp32) = true ∧
    (∀ l < 16, (BitVec.ofInt 64 ((memX.data .n64 (.a 1) l : Int) + signed 32 (memX.index (.imm 64) l))).signExtend 72 = memVa l ∧ (memVa l).toNat % 16 = 0 ∧
      memX.index (.imm 64) l % 16 = 0 ∧ memX.index (.imm 64) l + 16 ≤ 4096 * slice ((withX memX).partition demoC) 13 8) ∧
    (∀ l < 16, ∀ j < 4, maps (withX memX) 0 0 (memVa l + BitVec.ofNat 72 (j * 4)) true ⟨0x4000 + 16 * l + j * 4, 1, .normal⟩ = true) ∧
    (withX memX).stream demoC.uid 0 < 1023 := by decide +kernel
theorem wit_fresh_latches : FreshLatches (withX memX) memX := by intro b hb; cases hb
theorem wit_lane_memory_ready (i : Instr) (os : List (Opd × Nat)) (hw : i.wf = true) (hi : os.all (fun p => inside 0x00010101 p.1 p.2) = true) :
    LaneReady (withX memX) i 0 0 0 demoC memX os := demo_lane _ (fresh_latch_of rfl) hw hi

/-- ScratchpadWordsStartAccesses: the first and the last bytes of this core's scratchpad, by its own address and through the window. -/
def spX : Core := { tagC .i32 with a := [(1, ⟨0, 16, .i32⟩), (2, ⟨0xFC0, 4, .i32⟩), (3, ⟨0, 1, .i32⟩)] }
theorem wit_scratchpad : (∀ i ∈ [Instr.ldSp { lm .i32 (.imm 64) (.a 1) (.v 60) with wid := 3 }, .stSp { lm .i32 (.imm 64) (.a 1) (.v 60) with wid := 3 },
      .ldWin (lm .i32 (.imm 64) (.a 2) (.v 60)), .stWin (lm .i32 (.imm 64) (.a 2) (.v 60)), .sgath (lm .i32 (.a 3) (.imm 64) (.v 60)),
      .sscat (lm .i32 (.a 3) (.imm 64) (.v 60)), .hist (lm .n32 (.a 3) (.imm 64) (.v 60))], i.wf = true) ∧
    (∀ l < 16, (BitVec.ofInt 32 ((spX.index (.a 1) l : Int) + signed 32 (spX.index (.imm 64) l))).toNat = 16 * l ∧ 16 * l + 16 ≤ 4096 ∧
      (BitVec.ofInt 32 ((spX.index (.a 2) l : Int) + signed 32 (spX.index (.imm 64) l))).toNat = 0xFC0 + 4 * l ∧ 0xFC0 + 4 * l + 4 ≤ 4096 ∧
      (withX spX).windowCore 0 demoC (0xFC0 + 4 * l) = some 0 ∧ (spX.index (.imm 64) l + spX.index (.a 3) l * 4) % 2 ^ 32 = 4 * l) ∧
    4096 * slice ((withX spX).partition demoC) 13 8 = 4096 ∧ (spX.areg 1).tag = .i32 := by decide +kernel

/-- MemoryWordsPrefetchWaitAndFault: a line of each lane that translates; a full stream; every lane, and every second, not aligned. -/
theorem wit_prefetch_lines : (Instr.pref { lm .untyped (.imm 64) (.a 1) .unused with wid := 3 }).wf = true ∧ (∀ l < 16, ∀ j < 4,
      maps (withX memX) 0 0 (BitVec.ofNat 72 ((memVa l).toNat / 128 * 128) + BitVec.ofNat 72 (128 * j)) false ⟨(0x4000 + 16 * l) / 128 * 128 + 128 * j, 1, .normal⟩ = true) ∧
    1023 ≤ State.stream { withX memX with accs := List.replicate 1023 demoA } demoC.uid 0 := by decide +kernel
theorem wit_misaligned : (Instr.laneLd (lm .fp32 (.imm 64) (.a 2) (.v 60))).wf = true ∧ (∀ l < 16, (BitVec.ofInt 64 ((memX.data .n64 (.a 2) l : Int) +
      signed 32 (memX.index (.imm 64) l))).toNat % 4 ≠ 0) ∧ 
    (∀ l < 16, (BitVec.ofInt 64 ((memX.data .n64 (.a 3) l : Int) + signed 32 (memX.index (.imm 64) l))).toNat = 0x4000 + 6 * l ∧
      ((0x4000 + 6 * l) % 4 ≠ 0 ↔ l % 2 = 1) ∧ (l % 2 = 0 → maps (withX memX) 0 0 (BitVec.ofNat 72 (0x4000 + 6 * l)) false ⟨0x4000 + 6 * l, 1, .normal⟩ = true)) := by decide +kernel
theorem wit_prefetch_hint : narrowScope .device = false ∧ narrowScope .core = true ∧ (homeOf flagBase).cached = false := by decide

/-- TilesAreMovedAndMultiplied: an accumulator that no operation uses, and one that an operation does. -/
def q0 : W64 := 0x0000000008000000
def tileX : Core := { tagC .fp32 with ztag := [(0, .fp32)], q := [(0, 8 * 2 ^ 24), (1, 0), (2, 8 * 2 ^ 24), (3, 0)], m := [(1, 0)] }
def demoM : MmaOp :=
  { id := 5, cl := 0, bay := 0, core := 0, slot := 0, uid := 0, e := 0, op := 0, fmt := .bf16, f := 3, z := 0, qa := 8 * 2 ^ 24, qa1 := 0, qb := 8 * 2 ^ 24, qb1 := 0,
    pm := 0, os := 0, queued := none, step := 0, a := [], b := [], word := 0 }
def busyTile : State := { withX tileX with mmas := [demoM] }
def accW (wid : BitVec 2) (peek : Bool) : LM := { lm .fp32 (.v 56) (.z 0) (.v 60) with wid := wid, peek := peek, sc := .lane }
theorem wit_tile : (∀ i ∈ [Instr.accRd (accW 3 false), .accRd (accW 0 true), .accWr (accW 2 false), .accClr (la .fp32 .unused .unused (.z 0)),
      .accClr { la .fp32 .unused .unused (.z 0) with gm := 1 }], i.wf = true) ∧ tileX.tileTag 0 = .fp32 ∧ selected tileX 0 ≠ [] ∧ selected tileX 1 = [] ∧
    (∃ m ∈ busyTile.mmas, m.cl = 0 ∧ m.core = 0 ∧ m.z = 0) ∧ ¬(∃ m ∈ (withX tileX).mmas, m.cl = 0 ∧ m.core = 0 ∧ m.z = 0) ∧ inside 0x00010101 (.z 0) 1 = true ∧
    inside 0x00010101 (.v 60) 4 = true := by decide +kernel
theorem wit_tile_ready (i : Instr) (os : List (Opd × Nat)) (hw : i.wf = true) (hi : os.all (fun p => inside 0x00010101 p.1 p.2) = true) :
    LaneReady (withX tileX) i 0 0 0 demoC tileX os ∧ LaneReady busyTile i 0 0 0 demoC tileX os :=
  ⟨demo_lane _ (fresh_latch_of rfl) hw hi, laneReady_of rfl rfl rfl rfl (fresh_latch_of rfl) hw hi⟩
/-- Descriptors that are in order, and ones that name a gang of one core. -/
theorem wit_mma : (Instr.mma ⟨.bf16, 3, 0, 0, 0, .q 2, .q 0, .z 0⟩).wf = true ∧ DescriptorOk (tileX.qv 0) (tileX.qv 1) .bf16 0x00010101 0 ∧
    slice (tileX.qv 1) 16 8 = slice (tileX.qv 3) 16 8 ∧ (∀ g, ¬DescriptorOk (8 * 2 ^ 24) 1 .bf16 0x00010101 g) ∧
    (∀ o ∈ busyTile.mmas, o.cl = 1 → o.a ≠ []) := by
  refine ⟨by decide, ⟨by decide, by decide, by decide, by decide, by decide, by decide +kernel⟩, by decide, fun g h => ?_, by decide⟩
  have h1 := h.gang.1; have h2 := h.gang.2.1; apply h2; rw [h1]; decide

/-! ### Every hypothesis of a statement can be met: the machine's own events -/

theorem wit_untraced : Untraced demo ∧ Unwatched demo := by
  refine ⟨fun n hn => ?_, rfl, fun p hp line => ?_⟩
  · have : demo.ret n = RetRegs.reset := rfl
    rw [this]; decide
  · cases List.mem_singleton.mp hp; exact fun h => by cases h
theorem wit_uncached : Memory.wf demo.mem = true ∧ (demo.cores.map Prod.fst).Nodup ∧ Roomy demo 0x4000 ∧ Roomy demo (errorSlot demo) ∧ InLine 0x4000 128 ∧
    Answers demo 0x4000 := by
  refine ⟨by decide +kernel, by decide +kernel, by unfold Roomy; decide +kernel, by unfold Roomy; decide +kernel, by unfold InLine; decide, ?_⟩
  exact ⟨⟨by decide +kernel, by decide +kernel⟩, by decide +kernel⟩

/-! ContextsFormRunAndMove -/

/-- A launch with one barge in its berth of die d, and no context. -/
def demoQ : Queued := ⟨placedBarge, 0, 0, 0, none, false, none⟩
def queuedL (d : Nat) : Launch := { demoL with basins := [⟨0x100000000, [(d, [demoQ])]⟩] }
def noCtx (l : Launch) : State := { demo with ctxs := [], cores := [], launches := [l], now := 0xF0000 }
theorem wit_form : (noCtx (queuedL 0)).candidate 0 = some (queuedL 0, demoQ) ∧ (noCtx (queuedL 0)).canTake 0 demoQ = true ∧
    (noCtx (queuedL 0)).beaten 0 (queuedL 0) demoQ = false ∧ (noCtx (queuedL 0)).modState (bargeModule placedBarge) = .live ∧
    (noCtx (queuedL 0)).entryOf placedBarge = some ⟨0, 1, 1, 1, 65536⟩ ∧ (noCtx (queuedL 0)).freeSlots 0 = 0 :: [1, 2, 3, 4, 5, 6, 7] := by decide +kernel
def readyC : Ctx := { demoC with status := .ready }
theorem wit_pick : (0, readyC) ∈ (withC readyC).clusterCtxs 0 ∧ (∀ p ∈ (withC readyC).clusterCtxs 0, p.2.status ≠ .issue) ∧ readyC.halted = false ∧
    (∀ p ∈ (withC readyC).clusterCtxs 0, p.2.status = .ready → p.2.halted = false → p.1 < 8 ∧ (p = (0, readyC) ∨ readyC.since < p.2.since ∨
      (readyC.since = p.2.since ∧ 0 < p.1))) := by decide +kernel
def blockedC (w : Wait) (m : Monitor) : Ctx := { waitC w m with status := .blocked }
theorem wit_unblock : (blockedC .none .none).halted = false ∧ (withC (blockedC .none .none)).causeClear 0 0 (blockedC .none .none) = true ∧
    (blockedC (.mwait (some 0)) (.armed 5)).monitor = .armed 5 ∧ (0 : Nat) ≤ demo.now := ⟨rfl, rfl, rfl, Nat.le_refl _⟩
def lateC : Ctx := { demoC with count := 65536 }
theorem wit_watchdog : (withC lateC).issuing 0 = some (0, lateC) ∧ lateC.count = lateC.deadline ∧ lateC.halted = false ∧
    decode ((withC lateC).codeBytes lateC.pc 16) = .ok .taskend ∧ isYield .taskend = false := by decide +kernel
theorem wit_steal_request : (noCtx demoL).idleGen 0 = true ∧ ((noCtx demoL).cluster 0).steal = none ∧ 0 < (noCtx demoL).stealgap ∧
    ((noCtx demoL).cluster 0).stealAt + 64 * (noCtx demoL).stealgap ≤ (noCtx demoL).now := by decide +kernel
def stealS : State := { noCtx (queuedL 1) with clusters := [(0, { demoK with steal := some (0, 0x100000000, 1) })] }
theorem wit_steal_answer : (stealS.cluster 0).steal = some ((queuedL 1).acc, (bargeEntry demoQ.barge).toNat, 1) ∧ stealS.launch? (queuedL 1).acc = some (queuedL 1) ∧
    (queuedL 1).basin? (bargeEntry demoQ.barge) = some ⟨0x100000000, [(1, [demoQ])]⟩ ∧ lastQueued [demoQ] = some demoQ ∧ 0 / 4 ∈ (queuedL 1).usable := by
  decide +kernel
def barC : Ctx := blockedC (.barDie 0 true false) .none
theorem wit_hotspot : barC.atBarrier = true ∧ barC.save = none ∧ (withC barC).streamsZero barC.uid = true ∧ (withC barC).holds 0 barC.launch 0 = false ∧
    (withC barC).flightShared 0 0 barC = false ∧ ((withC barC).cluster 1).calib = none ∧ (withC barC).launchOn barC.launch 1 = false ∧
    barC.bayList.length ≤ ((withC barC).freeBays 1).length ∧ (withC barC).freeSlots 1 = 0 :: [1, 2, 3, 4, 5, 6, 7] ∧
    (∀ j < 1, j / 4 = 0 / 4 → j ≠ 0 → (withC barC).freeSlots j = []) ∧ barC.slots = [] := by decide +kernel

/-! PortsFillsWalksAndTollGoOn -/

def emitOp (next : Nat) (w : W64) : EmitOp := { blankOp with words := [w], next := next, num := 1 }
def portC (w : W64) : Ctx := { demoC with queue := [emitOp 0 w] }
def portS (w : W64) : State := { withC (portC w) with clusters := [(0, { demoK with ports := [(1, 0)] })] }
theorem wit_port_start : tget (demo.cluster 0).ports 1 = none ∧ (0, portC 1) ∈ (withC (portC 1)).clusterCtxs 0 ∧ (portC 1).halted = false ∧
    (∀ p ∈ (withC (portC 1)).clusterCtxs 0, p = (0, portC 1)) := by decide +kernel
/-- An IADD word, a VOTE and an MMA word, each the last of its operation. -/
theorem wit_port_write : ∀ w ∈ [0xC000018080301C01, 0x04B, 0x62809181A0400A40], (portS (BitVec.ofNat 64 w)).served 0 1 = some (0, portC (BitVec.ofNat 64 w), emitOp 0 (BitVec.ofNat 64 w)) ∧
    ((portS (BitVec.ofNat 64 w)).cluster 0).wrote.getLsbD 1 = false ∧ (portS (BitVec.ofNat 64 w)).sliceOpen 0 0 = true ∧
    (((portS (BitVec.ofNat 64 w)).liveCores 0 0).map (fun y => y.1)).Nodup ∧ (portS (BitVec.ofNat 64 w)).takesWord (ctxKey 0 0) 0 1 (BitVec.ofNat 64 w) = true := by
  decide +kernel
def replayC : Ctx := { demoC with queue := [{ blankOp with kind := .replay, id := 7 }] }
def spilled : State := { withC replayC with clusters := [(0, { demoK with ports := [(0, 0)], capt := [(7, { demoE with resident := false })] })] }
theorem wit_readback : tget (spilled.cluster 0).capt (captKey replayC.launch 7) = some { demoE with resident := false } ∧
    (∃ p ∈ (spilled.cluster 0).ports, p.2 = 0) := by decide +kernel
theorem wit_vote_entry : ∀ v ∈ (voteC true).votes, v.needs = [] → v.reserved = true := by decide
def fillS (m : List (Nat × Module)) (lvl : Level) : State :=
  { demo with code := { demo.code with fills := [⟨lvl, 0, 0x2000000, false, none⟩] }, regs := { demo.regs with modules := m } }
theorem wit_fill : (fillS [] .i0).modState (lineModule 0x2000000) = .free ∧ (fillS [(1, placedModule)] .i2).modState (lineModule 0x2000000) = .live ∧
    (fillS [(1, placedModule)] .i2).attempt .ok (placedPa + lineOffset 0x2000000) 128 = .ok ∧ outerOf .i2 0 = none := by decide +kernel
def walkS (vpn : BitVec 60) : State := { demo with walks := [⟨0, 0, vpn, none, [(0, 0)], 0⟩] }
/-- Whichever of the stack's walkers is taken. -/
theorem wit_walk_any : ∀ j < 16, (∀ v ∈ [0, 0xFFFFFF, 0x1000000], let last := (walkS (BitVec.ofNat 60 v)).walkLast (16 * walkerStack 0 (BitVec.ofNat 72 (v * 4096)) + j) 0 (BitVec.ofNat 72 (v * 4096))
      (walkS (BitVec.ofNat 60 v)).attempt .ok (last / 128 * 128) 128 = .ok ∧ (walkS (BitVec.ofNat 60 v)).peerOk last = true) ∧
    ((walkS 0xFFFFFF).walk (some (16 * walkerStack 0 0xFFFFFF000 + j)) 0 0xFFFFFF000).1 = .ok { demoPage with base := 0xFFFFFF000 } ∧
    ((walkS 0x1000000).walk (some (16 * walkerStack 0 0x1000000000 + j)) 0 0x1000000000).1 = .error 1 := by decide +kernel
theorem wit_walk : ((walkS 0xFFFFFF).walk (some ((walkS 0xFFFFFF).walkerOf 0 0xFFFFFF000)) 0 0xFFFFFF000).1 = .ok { demoPage with base := 0xFFFFFF000 } ∧
    ((walkS 0x1000000).walk (some ((walkS 0x1000000).walkerOf 0 0x1000000000)) 0 0x1000000000).1 = .error 1 :=
  ⟨(wit_walk_any _ (Nat.mod_lt _ (by decide))).2.1, (wit_walk_any _ (Nat.mod_lt _ (by decide))).2.2⟩
theorem wit_tlb_drop : demo.regs.tlbiBusy = false ∧ (1 : W64).getLsbD 0 = true ∧ (∀ l ∈ demo.launches, l.ring ≠ 1) ∧ (∃ l ∈ demo.launches, l.ring = 0) := by
  decide +kernel
theorem wit_toll : demoK.cfgOn = demoK.tollCfg ∧ slice demoK.cycle 1 0 = 0 ∧ demo.expert = false ∧
    State.expert { demo with regs := { demo.regs with powerctl := 0x8000190100000960 } } = true ∧ slice (0x00100000FFFF0000 : W64) 61 32 ≠ 0 ∧
    slice (0x00000000FFFF0000 : W64) 61 32 = 0 := by decide +kernel

/-! AccessesArePerformedAndAcknowledged -/

def accS (a : Access) : State := { withC { demoC with gt := [(4, .access 9)] } with accs := [a] }
theorem wit_access : (accS demoA).canPerform demoA [] = true ∧ isSp 0x40 = false ∧ effScope 0x40 .device ≠ .system ∧ (∀ y ∈ (accS demoA).cmds, y.id ≠ demoA.id) ∧
    (∀ y ∈ (accS demoA).accs, y.id = demoA.id → y = demoA) ∧ demoA.pm = 0 ∧ demoA.bad = false ∧ tget ({ demoC with gt := [(4, .access 9)] } : Ctx).gt 4 = some (.access 9) ∧
    ({ demoC with gt := [(4, .access 9)] } : Ctx).monitor ≠ .armed (lineOf 0x40) := by decide +kernel
def storeA : Access := { demoA with op := .store, dest := .none }
def atomA : Access := { demoA with op := .atom .add }
theorem wit_access_others : (accS storeA).canPerform storeA [] = true ∧ (accS atomA).canPerform atomA [] = true ∧
    (accS { demoA with op := .cas }).canPerform { demoA with op := .cas } [] = true ∧ { demoA with done := true }.bad = false := by decide +kernel
def laneA : Access := { loadA 4 with parts := [{ lane := 15, reg := 63, elem := 0, va := 0x40, pa := 0x40, size := 4, ord := 1, hint := .normal, data := 0, cmp := 0, done := false, acked := false, lost := false }] }
theorem wit_access_lane : State.canPerform { withX demoX with accs := [laneA] } laneA [] = true ∧ demo.bayLine 0 0 (lineOf 0x40) = none ∧ narrowScope .device = false ∧
    8 * 4 = Fmt.width .i32 := by decide +kernel

/-! EnginesBeginStepAndAnswer -/

def fillY (n : W72) : Cmd := { demoY .fill with b := n }
def cmdS (y : Cmd) : State := { withC pendC with cmds := [y] }
theorem wit_command : (∀ n ∈ [0, 1, 2 ^ 54, 2 ^ 54 + 1], (cmdS (fillY (BitVec.ofNat 72 n))).predsDone 0 0 0 .engine ⟨0, 1, 0⟩ 0 .device true = true ∧
      ((cmdS (fillY (BitVec.ofNat 72 n))).cmds.filter (fun z => z.cl = 0 && z.begun && !z.ended)).length < 8) ∧ pendC.queue = [] ∧
    2 ^ 54 < slice (BitVec.ofNat 72 (2 ^ 54 + 1)) 63 0 ∧ slice (BitVec.ofNat 72 (2 ^ 54)) 63 0 ≤ 2 ^ 54 := by decide +kernel
def heldX : Core := { tileX with hold := some 0 }
def mmaS (m : MmaOp) (parts : Nat) : State :=
  { withC { demoC with slots := [(3, pending (.mma parts false))] } with cores := [(0, heldX)], mmas := [m] }
theorem wit_mma_accept : demoM.places = [0] ∧ (mmaS demoM 1).core? 0 0 = some heldX ∧ heldX.left = false ∧ heldX.hold = some demoM.e ∧ (∀ w ∈ heldX.buf, w.e ≠ demoM.e) ∧
    (∀ r ∈ demoM.regsOf 0, r < 256) ∧ (mmaS demoM 1).predsDone 0 0 0 (.matrix 0) ⟨0, 0, 0⟩ 0 .bay false = true ∧
    ((mmaS demoM 1).mmas.filter (fun z => z.cl = 0 && z.bay = 0 && z.queued.isSome)).length < 16 := by decide +kernel
theorem wit_mma_settled (r : Nat) : Settled (mmaS demoM 1) 0 (8 * 0 + 0) 0 heldX (.v (BitVec.ofNat 8 r)) 1 := settled_of rfl (fresh_latch_of rfl) _ _
theorem wit_mma_step : (mmaS { demoM with queued := some 0 } 1).mmas.find? (fun z => z.cl = 0 && z.bay = 0 && z.queued.isSome) = some { demoM with queued := some 0 } ∧
    (∀ n < 2, demoM.opdA.steps ≤ demoM.step + 1 + n) ∧ ({ demoM with qa1 := 0x100 } : MmaOp).step + 1 < ({ demoM with qa1 := 0x100 } : MmaOp).opdA.steps := by decide +kernel
theorem wit_slot_resolve : (pendC.slot 3).state = .pending ∧ (pendC.slot 3).link = none ∧ (pendC.slot 3).work = .command 7 ∧
    (cmdS { demoY .fill with ended := true }).cmds = [{ demoY .fill with ended := true }] ∧ (pending (.mma 0 true)).work = .mma 0 true ∧
    (pending (.joined .ok 0 5)).work = .joined .ok 0 5 := by decide

/-! BarriersPostsAndScrubbing -/

theorem wit_barrier_release : (∃ e ∈ (withC barC).ctxs, e.2.launch = 0 ∧ e.1 / 32 = 0) ∧ (∀ e ∈ (withC barC).ctxs, e.2.launch = 0 ∧ e.1 / 32 = 0 → e.2.wait = .barDie 0 true false) ∧
    (∀ l, (withC barC).launch? 0 = some l → ∀ z ∈ l.onDie 0, z.frame = none) := by
  refine ⟨by decide +kernel, by decide +kernel, fun l h => ?_⟩
  cases h; exact fun z hz => by cases hz
def demoP (mode : BitVec 2) (flagged : Bool) : Post :=
  { id := 3, launch := 0, ring := 0, die := 0, mode := mode, succ := 0x4000, weight := 1, credit := 0, flagged := flagged }
def postS (p : Post) : State := { demo with posts := [p] }
theorem wit_post : (∀ m < 3, ∀ f ∈ [true, false], (postS (demoP (BitVec.ofNat 2 m) f)).posts = [demoP (BitVec.ofNat 2 m) f] ∧ (demoP (BitVec.ofNat 2 m) f).mode = BitVec.ofNat 2 m) ∧
    (postS (demoP 1 true)).xlateFront 0 0x4000 true = .ok ⟨0x4000, 1, .normal⟩ ∧
    (postS (demoP 1 true)).xlateFront 0 0x4008 true = .ok ⟨0x4008, 1, .normal⟩ := by decide +kernel
theorem wit_scrub : slice demo.regs.scrub 15 0 ≠ 0 ∧ homeOf 0x8FFFFFFFFF = .dram ∧ homeOf 0x2FFFFFFFFFF = .capacity ∧ demo.badGranules = [] := by decide +kernel

/-! StopsDrainAndStick -/

def demoStop (cls : BitVec 8) : Stop := { cls := cls, lane := none, dropped := 0, recs := [List.replicate 8 0], since := 0, frame := none }
def stopC (cls : BitVec 8) (slots : Tab Slot) : Ctx := { demoC with status := .blocked, slots := slots, stop := some (demoStop cls) }
def stopS (cls : BitVec 8) (slots : Tab Slot) (now : Nat) (f : Bool) : State :=
  { withC (stopC cls slots) with now := now, launches := [{ demoL with faulted := f }] }
theorem wit_stop_drain : ∀ cls ∈ [0x03, 0x32], let s := stopS (BitVec.ofNat 8 cls) [] 0 false
    s.streamsZero 0 = true ∧ (stopC (BitVec.ofNat 8 cls) []).bayList = [0] ∧ s.bayAll 0 0 = [] ∧ (∀ a ∈ s.accs, a.uid ≠ 0) ∧
    (s.cores.map Prod.fst).Nodup ∧ s.launch? 0 = some demoL ∧ demoL.ended = false ∧ demoL.change = none := by decide +kernel
theorem wit_stuck : (∃ p ∈ (stopC 3 pendC.slots).slots, p.2.state = .pending ∧ ∃ id, p.2.work = .command id) ∧ (∀ p ∈ (stopC 3 pendC.slots).slots, p.2.link = none) ∧
    (stopS 3 pendC.slots 0xFFFF false).now < (demoStop 3).since + 2 ^ 16 ∧ (demoStop 3).since + 2 ^ 16 ≤ (stopS 3 pendC.slots 0x10000 false).now ∧
    (stopS 3 pendC.slots 0x10000 true).launch? 0 = some { demoL with faulted := true } := by
  refine ⟨⟨(3, pending (.command 7)), List.mem_singleton.mpr rfl, rfl, 7, rfl⟩, ?_, by decide, by decide, by decide +kernel⟩
  intro p hp; cases List.mem_singleton.mp hp; rfl
theorem wit_save_limit : ({ pendC with save := some ⟨.level7, some (0, 0)⟩ } : Ctx).save = some ⟨.level7, some (0, 0)⟩ ∧ Running pendC ∧ demoL.faulted = false := ⟨rfl, rfl, rfl⟩
/-- A level-7 barge that needs all sixteen bays, waiting since 2^20 cycles beside a context of level 0. -/
def bigEntry : Module := { placedModule with entries := [{ offset := 0, minBays := 16, maxBays := 16, partMin := 1, budget := 65536 }] }
def urgentQ : Queued := ⟨placedBarge, 7, 0, 0, none, false, none⟩
def urgentL : Launch := { demoL with basins := [⟨0x100000000, [(0, [urgentQ])]⟩] }
def urgentS : State := { demo with now := 2 ^ 20, clusters := [(0, { demoK with waiting := some (0, 0) })], launches := [demoL, { urgentL with acc := 1 }], regs := { demo.regs with modules := [(1, bigEntry)] } }
theorem wit_preempt : urgentS.candidate 0 = some ({ urgentL with acc := 1 }, urgentQ) ∧ (urgentS.cluster 0).waiting = some (urgentQ.push, 0) ∧ 0 + 2 ^ 20 ≤ urgentS.now ∧ (urgentS.freeBays 0).length < urgentS.needs urgentQ ∧
    (0, demoC) ∈ urgentS.clusterCtxs 0 ∧ demoC.level < 7 ∧ (∀ p ∈ urgentS.clusterCtxs 0, p = (0, demoC)) := by decide +kernel

/-! ### Memory and translation, for the witnesses that read or write many bytes -/

theorem ofBytes_byte (bs : List Byte) (i : Nat) : ofBytes bs / 2 ^ (8 * i) % 256 = (bs.getD i 0).toNat := by
  induction bs generalizing i with
  | nil => simp [ofBytes]
  | cons b bs ih =>
    have hb := b.isLt
    cases i with
    | zero => simp only [ofBytes, Nat.mul_zero, Nat.pow_zero, Nat.div_one, List.getD_cons_zero]; omega
    | succ i =>
      have e : 2 ^ (8 * (i + 1)) = 256 * 2 ^ (8 * i) := by rw [show 8 * (i + 1) = 8 * i + 8 by omega, Nat.pow_add]; omega
      rw [e, ← Nat.div_div_eq_div_mul, List.getD_cons_succ, ← ih i]
      simp only [ofBytes]
      congr 2
      omega

theorem ofBytes_bound (bs : List Byte) : ofBytes bs < 2 ^ (8 * bs.length) := by
  induction bs with
  | nil => simp [ofBytes]
  | cons b bs ih =>
    have hb := b.isLt
    have e : 2 ^ (8 * (bs.length + 1)) = 256 * 2 ^ (8 * bs.length) := by rw [show 8 * (bs.length + 1) = 8 * bs.length + 8 by omega, Nat.pow_add]; omega
    simp only [ofBytes, List.length_cons, e]; omega

theorem ofNat_small {w x : Nat} (h : x < 2 ^ w) : (BitVec.ofNat w x).toNat = x := by
  rw [BitVec.toNat_ofNat]; exact Nat.mod_eq_of_lt h

theorem homeRead_byte {s : State} (h : s.l2 = []) (a : Nat) : s.homeRead a 1 = (readByte s.mem a).toNat := by
  have hl : s.l2Line (lineOf a) = none := by simp [State.l2Line, State.l2Set, h, tgetD, tget, findLine]
  have hb := ofBytes_bound (readBytes s.mem (128 * lineOf a) 128)
  have hn : (readBytes s.mem (128 * lineOf a) 128).length = 128 := by simp [readBytes]
  rw [hn, show 8 * 128 = 1024 from rfl] at hb
  unfold State.homeRead
  rw [State.homeLine_uncached hl]
  have ht : (BitVec.ofNat 1024 (ofBytes (readBytes s.mem (128 * lineOf a) 128))).toNat = ofBytes (readBytes s.mem (128 * lineOf a) 128) := ofNat_small hb
  simp only [Line.get, State.backingLine, ht]
  rw [show 2 ^ (8 * 1) = 256 from rfl, ofBytes_byte]
  have hm : a % 128 < 128 := Nat.mod_lt _ (by decide)
  have : (readBytes s.mem (128 * lineOf a) 128).getD (a % 128) 0 = readByte s.mem (128 * lineOf a + a % 128) := by
    rw [List.getD, readBytes, List.getElem?_map, List.getElem?_range hm]; rfl
  rw [this, show 128 * lineOf a + a % 128 = a by unfold lineOf; omega]

theorem homeBytes_uncached {s : State} (h : s.l2 = []) (pa n : Nat) : s.homeBytes pa n = readBytes s.mem pa n := by
  unfold State.homeBytes readBytes
  refine List.map_congr_left fun i _ => ?_
  rw [homeRead_byte h]; simp

/-- A machine with nothing in L2 and nothing bad, whose tables of space 0 map the first 64 GiB to themselves, and the next 64 GiB to the memory of
peer 0, whose entry is valid. -/
structure OnePage (s : State) : Prop where
  root  : s.regs.xlroot = [(0, 0x100001)]
  peers : tget s.regs.peers 0 = some 0xC000000100000000
  bad   : s.badGranules = []
  l2    : s.l2 = []
  t0    : s.homeRead 0x100000 8 = 0x180001
  t1    : s.homeRead 0x180000 8 = 0x190001
  t2    : s.homeRead 0x190000 8 = 0x53
  t2'   : s.homeRead 0x190008 8 = 0x20000000000053

/-- The same with a link to that peer. -/
structure TwoPages (s : State) : Prop where
  root  : s.regs.xlroot = [(0, 0x100001)]
  peers : tget s.regs.peers 0 = some 0xC000000100000000
  route : (List.range 16).filter (fun n => s.portServes n 0) = [0]
  bad   : s.badGranules = []
  l2    : s.l2 = []
  t0    : s.homeRead 0x100000 8 = 0x180001
  t1    : s.homeRead 0x180000 8 = 0x190001
  t2    : s.homeRead 0x190000 8 = 0x53
  t2'   : s.homeRead 0x190008 8 = 0x20000000000053
  own   : s.isolated 0 = false

theorem TwoPages.one {s : State} (h : TwoPages s) : OnePage s := ⟨h.root, h.peers, h.bad, h.l2, h.t0, h.t1, h.t2, h.t2'⟩

def pageOf (va : Nat) : Nat := if va < 2 ^ 36 then va else va - 2 ^ 36 + 0x20000000000000

theorem badAt_two {s : State} (h : OnePage s) (pa n : Nat) : s.badAt pa n = false := by simp [State.badAt, h.bad]

theorem open_near {s : State} (va : Nat) (hv : va < 2 ^ 36) : s.linkOpen (pageOf va) = true := by
  have hd : homeOf va = .dram := by unfold homeOf; rw [if_pos (by omega)]
  unfold State.linkOpen pageOf
  simp only [if_pos hv, hd]

theorem open_two {s : State} (h : TwoPages s) (va : Nat) (hv : va < 2 ^ 37) : s.linkOpen (pageOf va) = true := by
  unfold State.linkOpen pageOf
  by_cases hp : va < 2 ^ 36
  · have hd : homeOf va = .dram := by unfold homeOf; rw [if_pos (by omega)]
    simp only [if_pos hp, hd]
  · have hb : bits (va - 2 ^ 36 + 0x20000000000000) 52 42 = 0 := by simp only [bits, Nat.shiftRight_eq_div_pow]; omega
    have hd : homeOf (va - 2 ^ 36 + 0x20000000000000) = .peer := by
      unfold homeOf
      rw [if_neg (by omega), if_neg (by omega), if_neg (by omega), if_neg (by omega), if_pos (by omega), if_pos (by rw [hb]; decide)]
    simp only [if_neg hp, hd, State.routeOf, hb, h.route, List.length_singleton, Nat.mod_one, List.getElem?_cons_zero, Nat.zero_div, h.own, Bool.not_false]

theorem walk_two {s : State} (h : OnePage s) (va : W72) (hv : va.toNat < 2 ^ 37) :
    (s.walk none 0 va).1 = .ok { space := 0, base := va, bits := 36, pa := if va.toNat < 2 ^ 36 then 0 else 0x20000000000000, ord := 1, w := true, hint := .normal } := by
  have i0 : bits va.toNat 71 56 = 0 := by simp only [bits, Nat.shiftRight_eq_div_pow]; omega
  have i1 : bits va.toNat 55 46 = 0 := by simp only [bits, Nat.shiftRight_eq_div_pow]; omega
  have i2 : bits va.toNat 45 36 = if va.toNat < 2 ^ 36 then 0 else 1 := by simp only [bits, Nat.shiftRight_eq_div_pow]; split <;> omega
  have on : s.spaceOn 0 = true := by simp [State.spaceOn, State.xlroot, h.root, tgetD, tget, bit]
  have at_ : slice (s.xlroot 0) 53 19 * 2 ^ 19 = 0x100000 := by simp [State.xlroot, h.root, tgetD, tget, slice, bits]
  have e0 : readPte 0 0x180001 = .table 0x180000 := by decide +kernel
  have e1 : readPte 1 0x190001 = .table 0x190000 := by decide +kernel
  have e2 : readPte 2 0x53 = .leaf 36 0 1 true .normal := by decide +kernel
  have e3 : readPte 2 0x20000000000053 = .leaf 36 0x20000000000000 1 true .normal := by decide +kernel
  have d0 : homeOf 0x100000 = .dram := by decide
  have d1 : homeOf 0x180000 = .dram := by decide
  have d2 : homeOf 0x190000 = .dram := by decide
  have d3 : homeOf 0x190008 = .dram := by decide
  unfold State.walk
  rw [if_pos on, at_]
  simp only [State.walkFrom, show tableLow 0 = 56 from rfl, show tableBits 0 = 16 from rfl, show tableLow 1 = 46 from rfl, show tableBits 1 = 10 from rfl,
    show tableLow 2 = 36 from rfl, show tableBits 2 = 10 from rfl, Nat.reduceAdd, Nat.reduceSub, i0, i1, i2, Nat.mul_zero, h.t0, h.t1, e0, e1, d0, d1, State.badLine, badAt_two h, State.linkOpen, State.peerOk]
  by_cases hp : va.toNat < 68719476736
  · simp [hp, h.t2, e2, d2, State.badLine, badAt_two h, State.linkOpen, State.peerOk]
  · simp [hp, h.t2', e3, d3, State.badLine, badAt_two h, State.linkOpen, State.peerOk]

theorem xlate_two {s : State} (h : OnePage s) (va : W72) (w : Bool) (hv : va.toNat < 2 ^ 37) :
    s.xlateFront 0 va w = .ok ⟨pageOf va.toNat, 1, .normal⟩ := by
  unfold State.xlateFront
  rw [walk_two h va hv]
  simp only [State.placeIn, Bool.not_true, Bool.and_false, Bool.false_eq_true, if_false]
  by_cases hp : va.toNat < 68719476736
  · have ha : 0 + va.toNat % 2 ^ 36 = va.toNat := by omega
    have hd : homeOf va.toNat = .dram := by unfold homeOf; rw [if_pos (by omega)]
    simp [hp, pageOf, Nat.mod_eq_of_lt hp, hd, State.peerOk]
  · have ha : 0x20000000000000 + va.toNat % 2 ^ 36 = va.toNat - 2 ^ 36 + 0x20000000000000 := by omega
    have hb : bits (va.toNat - 2 ^ 36 + 0x20000000000000) 52 42 = 0 := by simp only [bits, Nat.shiftRight_eq_div_pow]; omega
    have hd : homeOf (va.toNat - 2 ^ 36 + 0x20000000000000) = .peer := by
      unfold homeOf
      rw [if_neg (by omega), if_neg (by omega), if_neg (by omega), if_neg (by omega), if_pos (by omega), if_pos (by rw [hb]; decide)]
    have hq : ¬ va.toNat < 2 ^ 36 := hp
    have ok : s.peerOk (va.toNat - 2 ^ 36 + 0x20000000000000) = true := by
      unfold State.peerOk
      rw [hd, hb]
      simp only [tgetD, h.peers]
      rfl
    simp only [if_neg hq, ha, pageOf, hd, ok, if_true]


theorem readVirt_one {s : State} (h : OnePage s) (n : Nat) (va : W72) (hv : va.toNat + n ≤ 2 ^ 37)
    (ho : ∀ v < va.toNat + n, s.linkOpen (pageOf v) = true) :
    s.readVirt 0 va n = .ok ((List.range n).map (fun i => readByte s.mem (pageOf (va.toNat + i)))) := by
  induction n generalizing va with
  | zero => rfl
  | succ n ih =>
    have h1 : n ≠ 0 → (va + 1).toNat = va.toNat + 1 := fun hn => by
      rw [BitVec.toNat_add]; exact Nat.mod_eq_of_lt (by simp; omega)
    unfold State.readVirt
    rw [xlate_two h va false (by omega)]
    simp only [ho va.toNat (by omega), badAt_two h, Bool.not_true, Bool.or_self, Bool.false_eq_true, if_false]
    by_cases hn : n = 0
    · subst hn; simp [State.readVirt, homeRead_byte h.l2]
    · rw [ih (va + 1) (by rw [h1 hn]; omega) (by rw [h1 hn]; intro v hv; exact ho v (by omega)), h1 hn]
      simp only [homeRead_byte h.l2, List.range_succ_eq_map, List.map_cons, List.map_map, BitVec.ofNat_toNat, BitVec.setWidth_eq, Nat.add_zero]
      congr 2
      refine List.map_congr_left fun i _ => ?_
      simp [Nat.add_assoc, Nat.add_comm 1]

theorem virtRead_one {s : State} (h : OnePage s) (n : Nat) (va : W72) (hv : va.toNat + n ≤ 2 ^ 36) :
    s.virtRead 0 va n = some ((List.range n).map (fun i => readByte s.mem (pageOf (va.toNat + i)))) := by
  unfold State.virtRead
  rw [readVirt_one h n va (by omega) (fun v _ => open_near v (by omega))]

theorem virtRead_two {s : State} (h : TwoPages s) (n : Nat) (va : W72) (hv : va.toNat + n ≤ 2 ^ 37) :
    s.virtRead 0 va n = some ((List.range n).map (fun i => readByte s.mem (pageOf (va.toNat + i)))) := by
  unfold State.virtRead
  rw [readVirt_one h.one n va hv (fun v _ => open_two h v (by omega))]

/-- Another memory that differs from the first in the bytes of peers alone. -/
structure FarOnly (m k : List Host.Cell) : Prop where
  near : ∀ a < 0x20000000000000, readByte k a = readByte m a
  wf   : Memory.wf k = true

structure Quiet (s : State) : Prop where
  watches  : s.watches = []
  monitors : ∀ p ∈ s.ctxs, p.2.monitor = .none
  frames   : s.frames = []
  wf       : Memory.wf s.mem = true

theorem homeWritten_quiet {s : State} (h : Quiet s) (pa n : Nat) : s.homeWritten pa n = s := by
  have hc : s.ctxs.map (fun p => if p.2.monitor = .armed (lineOf pa) then (p.1, { p.2 with monitor := .fired }) else p) = s.ctxs := by
    conv => rhs; rw [← List.map_id s.ctxs]
    refine List.map_congr_left fun p hp => ?_
    rw [if_neg (by rw [h.monitors p hp]; simp)]; rfl
  have hm : s.fireMonitors (lineOf pa) = s := by unfold State.fireMonitors; rw [hc]
  unfold State.homeWritten
  simp only [hm, h.watches, List.map_nil, List.foldl_nil]
  unfold State.noteCmds
  simp only [h.frames, List.map_nil]
  cases s; simp only [← h.frames]

theorem far_uncached (a : Nat) (h : 0x20000000000000 ≤ a) : (homeOf a).cached = false := by
  unfold homeOf
  rw [if_neg (by omega), if_neg (by omega), if_neg (by omega), if_neg (by omega)]
  split
  · split <;> rfl
  · rfl

theorem homeWrite_far {s : State} (h : Quiet s) (a n x : Nat) (t : Hint) (ha : 0x20000000000000 ≤ a) :
    ∃ m, s.homeWrite a n x t = { s with mem := m } ∧ FarOnly s.mem m := by
  refine ⟨writeBytes s.mem a (toBytes n x), ?_, ⟨fun b hb => readByte_writeBytes_other h.wf _ _ (by omega), wf_writeBytes h.wf _ _⟩⟩
  unfold State.homeWrite
  rw [far_uncached a ha]
  exact homeWritten_quiet (s := { s with mem := writeBytes s.mem a (toBytes n x) }) ⟨h.watches, h.monitors, h.frames, wf_writeBytes h.wf a (toBytes n x)⟩ a n

theorem deviceBytes_far {s : State} (h : Quiet s) (pa : Nat) (bs : List Byte) (ha : 0x20000000000000 ≤ pa) :
    ∃ m, s.deviceBytes pa bs = { s with mem := m } ∧ FarOnly s.mem m := by
  unfold State.deviceBytes State.byLine
  generalize linesOf pa bs.length = ls
  induction ls generalizing s with
  | nil => exact ⟨s.mem, rfl, fun _ _ => rfl, h.wf⟩
  | cons l ls ih =>
    obtain ⟨m, e, f⟩ := homeWrite_far h (max pa (128 * l)) (min (pa + bs.length) (128 * l + 128) - max pa (128 * l))
      (ofBytes ((bs.drop (max pa (128 * l) - pa)).take (min (pa + bs.length) (128 * l + 128) - max pa (128 * l)))) .normal (by omega)
    rw [List.foldl_cons]
    simp only [e]
    obtain ⟨k, e', f'⟩ := ih (s := { s with mem := m }) ⟨h.watches, h.monitors, h.frames, f.wf⟩
    exact ⟨k, e', fun a ha => (f'.near a ha).trans (f.near a ha), f'.wf⟩

theorem two_far {s : State} (h : TwoPages s) {m : List Host.Cell} (f : FarOnly s.mem m) : TwoPages { s with mem := m } := by
  have e (a : Nat) (ha : a < 0x200000) : State.homeRead { s with mem := m } a 8 = s.homeRead a 8 := by
    have hl (s : State) (h : s.l2 = []) : s.l2Line (lineOf a) = none := by simp [State.l2Line, State.l2Set, h, tgetD, tget, findLine]
    unfold State.homeRead
    rw [State.homeLine_uncached (hl _ h.l2), State.homeLine_uncached (hl { s with mem := m } h.l2)]
    have : readBytes m (128 * lineOf a) 128 = readBytes s.mem (128 * lineOf a) 128 := by
      refine List.map_congr_left fun i hi => f.near _ ?_
      rw [List.mem_range] at hi
      unfold lineOf; omega
    unfold State.backingLine
    rw [this]
  exact ⟨h.root, h.peers, h.route, h.bad, h.l2, (e _ (by decide)).trans h.t0, (e _ (by decide)).trans h.t1, (e _ (by decide)).trans h.t2,
    (e _ (by decide)).trans h.t2', h.own⟩

theorem far_page (a : Nat) (h : 2 ^ 36 ≤ a) : 0x20000000000000 ≤ pageOf a := by
  unfold pageOf
  rw [if_neg (Nat.not_lt.mpr h)]
  exact Nat.le_add_left _ _

theorem virtWrite_two {s : State} (h : TwoPages s) (q : Quiet s) (fuel : Nat) (va : W72) (bs : List Byte) (lo : 2 ^ 36 ≤ va.toNat)
    (hi : va.toNat + 4096 * fuel ≤ 2 ^ 37) : ∃ m, s.virtWrite 0 fuel va bs = .ok { s with mem := m } ∧ FarOnly s.mem m := by
  induction fuel generalizing s va bs with
  | zero => exact ⟨s.mem, rfl, fun _ _ => rfl, q.wf⟩
  | succ fuel ih =>
    unfold State.virtWrite
    split
    · exact ⟨s.mem, rfl, fun _ _ => rfl, q.wf⟩
    · rw [xlate_two h.one va true (by omega)]
      simp only [open_two h va.toNat (by omega), if_true]
      obtain ⟨m, e, f⟩ := deviceBytes_far q (pageOf va.toNat) (bs.take (4096 - va.toNat % 4096)) (far_page _ lo)
      simp only [e]
      by_cases hf : fuel = 0
      · subst hf; exact ⟨m, rfl, f⟩
      · have hn : (va + BitVec.ofNat 72 (4096 - va.toNat % 4096)).toNat = va.toNat + (4096 - va.toNat % 4096) := by
          have hd : 4096 - va.toNat % 4096 ≤ 4096 := Nat.sub_le _ _
          generalize 4096 - va.toNat % 4096 = d at hd
          rw [BitVec.toNat_add, BitVec.toNat_ofNat, Nat.mod_eq_of_lt (a := d) (by omega), Nat.mod_eq_of_lt (by omega)]
        obtain ⟨k, e', f'⟩ := ih (s := { s with mem := m }) (two_far h f) ⟨q.watches, q.monitors, q.frames, f.wf⟩ (va + BitVec.ofNat 72 (4096 - va.toNat % 4096))
          (bs.drop (4096 - va.toNat % 4096)) (Nat.le_trans lo (hn ▸ Nat.le_add_right _ _)) (by simp only [hn]; omega)
        exact ⟨k, e', fun a ha => (f'.near a ha).trans (f.near a ha), f'.wf⟩

theorem readBarge_one {s : State} (h : OnePage s) (va : W72) (hv : va.toNat < 2 ^ 37) (ho : s.linkOpen (pageOf va.toNat) = true) :
    s.readBarge 0 va = .ok (toWords 8 (readBytes s.mem (pageOf va.toNat) 64)) := by
  unfold State.readBarge
  rw [xlate_two h va false hv]
  simp [ho, badAt_two h, homeBytes_uncached h.l2]

theorem readBarge_two {s : State} (h : TwoPages s) (va : W72) (hv : va.toNat < 2 ^ 37) :
    s.readBarge 0 va = .ok (toWords 8 (readBytes s.mem (pageOf va.toNat) 64)) := readBarge_one h.one va hv (open_two h va.toNat hv)

/-- The cells of the tables, and those of a machine with more memory. -/
def tableCells : List Host.Cell :=
  [(0x100000, 1), (0x100002, 0x18), (0x180000, 1), (0x180002, 0x19), (0x190000, 0x53), (0x190008, 0x53), (0x19000E, 0x20)]
def withMem (low high : List Host.Cell) (s : State) : State :=
  { s with mem := low ++ tableCells ++ high, regs := { s.regs with xlroot := [(0, 0x100001)], peers := [(0, 0xC000000100000000)], finzu := [(0, ⟨2, 0, 0⟩)] } }

/-! FramesAreWritten, FramesAreRestoredResumedAndDiscarded: what needs no image -/

def framedS (c : Ctx) : State := { withC c with regs := { demo.regs with traps := [(0, { TrapRegs.reset with framehi := 0x200000000 })] } }
def savingC (w : SaveWhy) (p : Option (Nat × Nat)) (x : Wait) : Ctx := { blockedC x .none with save := some ⟨w, p⟩ }
theorem wit_save_taken : LowestFree (framedS (savingC .boundary none .step)) 0 0 ∧
    (∀ c ∈ [savingC .boundary none .step, savingC .reset none .step, savingC .reset none (.barDie 0 true false)],
      (framedS c).windowHeld 0 0 c = false ∧ c.stretch = none ∧ c.status = .blocked) := by
  refine ⟨⟨by decide +kernel, by decide +kernel, fun j h => absurd h (Nat.not_lt_zero j)⟩, by decide +kernel⟩
theorem wit_save_moved : (savingC (.migrate 1 0) none .step).atBarrier = false := rfl
def frameF (st : Nat) : Frame := { state := st, launch := 0, ctx := { demoC with status := .blocked }, cores := List.replicate 8 demoX, cl := 0, slot := 0, held := [], keys := [], cmdPa := 0x2000008, cmd := 0 }
/-- A frame slot at 0x2000000 whose CMD memory holds. -/
def cmdOf (st : Nat) (cmd : Byte) : State :=
  withMem [] [(0x2000008, cmd)] { withC demoC with
    frames := [(0, { frameF st with cmd := cmd.toNat })], launches := [{ demoL with basins := [⟨0x100000000, [(0, [])]⟩] }], regs := { demo.regs with traps := [(0, { TrapRegs.reset with framelo := 0x2000000, framehi := 0x200000000 })] } }
theorem cmd_two : (∀ x < 3, TwoPages (cmdOf 2 (BitVec.ofNat 8 x))) := by
  intro x hx
  have : x = 0 ∨ x = 1 ∨ x = 2 := by omega
  rcases this with rfl | rfl | rfl <;> exact ⟨rfl, rfl, by decide +kernel, rfl, rfl, by decide +kernel, by decide +kernel, by decide +kernel, by decide +kernel, by decide +kernel⟩
theorem wit_frame_cmd : (∀ x < 3, tget (cmdOf 2 (BitVec.ofNat 8 x)).frames (4096 * 0 + 0) = some { frameF 2 with cmd := x }) ∧ (frameF 1).state ≠ 2 ∧
    (∀ x < 3, (cmdOf 2 (BitVec.ofNat 8 x)).watches = [] ∧ (cmdOf 2 (BitVec.ofNat 8 x)).regs.rets = []) := by decide +kernel

/-! DistributorGivesAndTakesDies -/

/-- Two launches: the first holds die 0 and may hold two; the second waits for its grant. -/
def waitingL (acc t0 : Nat) (capped : Bool) : Launch :=
  { demoL with acc := acc, dieset := 0, waitAt := some t0, granted := false, capped := capped, basins := [⟨0x100000000, []⟩], parked := [demoQ] }
def wideL : Launch := { demoL with maxDies := 2, allow := 0xFF, basins := [⟨0x100000000, [(0, [{ demoQ with level := 3 }])]⟩] }
def distS (ls : List Launch) : State := { demo with launches := ls, now := 2 ^ 24 }
theorem wit_grant : (waitingL 1 0 false).waits = true ∧ (waitingL 1 0 false).minDies ≤ (mayHold (distS [demoL, waitingL 1 0 false]) (waitingL 1 0 false)).length ∧
    NoneShort (distS [demoL, waitingL 1 0 false]) ∧ (distS [demoL, waitingL 1 0 false]).launch? 1 = some (waitingL 1 0 false) ∧
    (∀ v ∈ (distS [demoL, waitingL 1 0 false]).launches, v.acc ≠ 1 → v.waits = false) ∧
    (∀ q ∈ (waitingL 1 0 false).first ++ (waitingL 1 0 false).parked, (waitingL 1 0 false).basin? (bargeEntry q.barge) = some ⟨0x100000000, []⟩) ∧
    0 < (waitingL 1 0 false).maxDies ∧ mayHold (distS [demoL, waitingL 1 0 false]) (waitingL 1 0 false) ≠ [] := by
  refine ⟨by decide +kernel, by decide +kernel, ?_, by decide +kernel, by decide +kernel, by decide +kernel, by decide +kernel, by decide +kernel⟩
  unfold NoneShort; decide +kernel
theorem wit_wait_cap : (distS []).now < 1 + 2 ^ 24 ∧ 0 + 2 ^ 24 ≤ (distS []).now := by decide
theorem wit_add : wideL.ended = false ∧ wideL.change = none ∧ 0 < dieCount wideL.dieset ∧ dieCount wideL.dieset < wideL.maxDies ∧
    (distS [wideL]).regs.govctl.getLsbD 0 = true ∧ eligibleFor (distS [wideL]) wideL 1 = true ∧
    (distS [wideL]).launchCtxs wideL.acc ≠ [] ∧ (noCtx wideL).launchCtxs wideL.acc = [] ∧
    (∀ l ∈ [wideL], (distS [l]).restorable l = false) ∧ (distS [{ wideL with minDies := 2 }]).restorable { wideL with minDies := 2 } = true := by decide +kernel
theorem wit_add_preferred : ∀ e < 8, eligibleFor (distS [wideL]) wideL e = true → e ≠ 1 → Preferred (distS [wideL]) 1 e := by
  unfold Preferred; decide +kernel
/-- A launch of dies 0 and 1 that needs one, beside seven others on each; and one past the cap that may have die 0 alone. -/
def takenS : State :=
  { demo with launches := { wideL with dieset := 3, minDies := 1, allow := 3 } :: { waitingL 9 0 true with allow := 1, prio := 5 } ::
      (List.range 7).map (fun i => { wideL with acc := i + 1, dieset := 3, minDies := 2, allow := 3 }) }
theorem wit_withdraw : { waitingL 9 0 true with allow := 1, prio := 5 }.waits = true ∧ takenS.launch? 9 = some { waitingL 9 0 true with allow := 1, prio := 5 } ∧
    takenS.launch? 0 = some { wideL with dieset := 3, minDies := 1, allow := 3 } ∧ (takenS.die 0).admitted = true ∧ (takenS.die 0).phase = 0 ∧
    8 ≤ (takenS.launches.filter (fun x => x.dieset.getLsbD 0)).length ∧ ({ wideL with dieset := 3, minDies := 1, allow := 3 } : Launch).minDies < dieCount 3 ∧
    (∀ x ∈ takenS.launches, x.change = none) ∧ takenS.launchCtxs 0 ≠ [] ∧
    (∀ v ∈ takenS.launches, v.minDies < dieCount v.dieset → v.acc = 0) := by decide +kernel

/-! ProcessorsTakeEntriesAndPostRecords -/

def demoCp : Cp := { Cp.reset with sqTail := 1, halted := false, halt := false }
def ringMem (es : List (Nat × Byte)) : List Host.Cell := demoMem ++ es.map (fun p => (flagBase + p.1, p.2))
def ringS (c : Cp) (m : List (Nat × Byte)) (cs : List RingCmd) : State :=
  { demo with mem := ringMem m, ringCmds := cs, regs := { demo.regs with cps := [(0, c)], ident := { Ident.reset with fwStat := 2 } } }
theorem ring_entry (c : Cp) (m : List (Nat × Byte)) : (ringS c m []).homeBytes flagBase 64 = readBytes (ringMem m) flagBase 64 := homeBytes_uncached rfl _ _
/-- Commands LAUNCH, MARK and one of no known operation, each at SQHEAD with the sequence number that is due. -/
theorem wit_submission : ∀ op ∈ [1, 7, 8], let s := ringS demoCp [(0, 1), (9, BitVec.ofNat 8 op)] []
    let e := toWords 8 (readBytes (ringMem [(0, 1), (9, BitVec.ofNat 8 op)]) flagBase 64)
    (s.cp 0).halted = false ∧ (s.cp 0).sqHead.toNat % 64 ≠ (s.cp 0).sqTail.toNat % 64 ∧ wordAt e 0 = (s.cp 0).subSeq ∧ slice (wordAt e 1) 15 8 = op ∧
    entryOk e = decide (op ≠ 8) ∧ s.launches.length < 4096 ∧ s.ringCmds = [] := by decide +kernel
theorem wit_submission_others : Cp.reset.halted = true ∧ wordAt (toWords 8 (readBytes (ringMem []) flagBase 64)) 0 ≠ demoCp.subSeq ∧
    (ringS demoCp [] []).regs.ident.fwStat = 2 ∧ 4096 * slice Cp.reset.ring 9 0 + 64 * 2 ^ 6 ≤ 2 ^ 22 ∧ slice Cp.reset.ring 55 52 = 6 ∧ slice Cp.reset.ring 59 56 = 6 := by
  decide +kernel
def demoR (op : BitVec 8) (acc : Nat) : RingCmd :=
  { acc := acc, ring := 0, seq := 1, tag := 0, op := op, addr := 0x4000, arg0 := 0, arg1 := 0, bad := false, status := none, errs := 0, target := none }
def doneCp (tail : BitVec 14) : Cp := { demoCp with done := [5], cqTail := tail, ring := 0x0660000100000000 }
theorem wit_completion : (doneCp 0).done = 5 :: [] ∧ [{ demoR 7 5 with status := some 0 }].find? (fun y => y.acc = 5) = some { demoR 7 5 with status := some 0 } ∧
    ((63 + 1) % 64 = (doneCp 63).cqHead.toNat % 64) ∧ ((62 + 1) % 64 ≠ (doneCp 62).cqHead.toNat % 64) ∧
    Roomy (ringS (doneCp 62) [] []) (flagBase + (4096 * slice (doneCp 62).ring 41 32 + 32 * 62) % 2 ^ 22) := by
  refine ⟨rfl, by decide, by decide, by decide, ?_⟩
  unfold Roomy; decide +kernel

/-! RingCommandsTakeEffect -/

theorem wit_in_hand : ∀ op ∈ [1, 2, 3, 4, 5, 6, 7], let s := ringS demoCp [] [demoR (BitVec.ofNat 8 op) 5]
    InHand s 5 (demoR (BitVec.ofNat 8 op) 5) ∧ s.handleFree 5 0 true = true ∧
    (∀ d ∈ s.ringCmds, ¬ d.acc < 5) := by unfold InHand; decide +kernel
def rangeR (op : BitVec 8) (va : W72) : RingCmd := { demoR op 5 with addr := va, arg0 := 128 }
theorem wit_range : (ringS demoCp [] [rangeR 2 0x4000]).xlateFront 0 0x4000 false = .ok ⟨0x4000, 1, .normal⟩ ∧
    (ringS demoCp [] [rangeR 2 0x2000000000]).xlateFront 0 0x2000000000 false = .error 1 ∧ 0x4000 % 4096 + 128 ≤ 4096 ∧
    Memory.wf (ringS demoCp [] [rangeR 2 0x4000]).mem = true ∧ (ringS demoCp [] [rangeR 2 0x4000]).bayLines = [] := by decide +kernel
def abortR : RingCmd := { demoR 6 5 with arg0 := 0 }
theorem wit_abort : ∀ adm ∈ [true, false], let l : Launch := { queuedL 0 with admitted := adm, seq := 0 }
    let s : State := { ringS demoCp [] [abortR, demoR 1 0] with launches := [l] }
    s.launches.find? (fun z => z.ring = abortR.ring && z.seq = abortR.arg0 && !z.ended) = some l ∧ s.launch? l.acc = some l ∧ (demoR 1 0).acc ≠ 5 ∧
    InHand s 0 (demoR 1 0) ∧ InHand s 5 abortR := by unfold InHand; decide +kernel
theorem wit_abort_ends : (∃ d ∈ [abortR, demoR 1 0], d.acc = 0) ∧ (∀ d ∈ [abortR], d.acc ≠ 0) ∧ { abortR with target := some 0 }.target = some 0 := by decide

/-! LaunchesAreAdmittedAndEnd -/

/-- A launch record at 0x5000: MIN 1, MAX 1, ALLOW 0xFF, PRIO 7, its job control block at 0x6000, one barge at 0x7000, sequence number 1. -/
def recMem (min : Byte) (succ : Byte) : List Host.Cell :=
  [(0x5000, 0x10 ||| min), (0x5001, 0xFF), (0x5002, 7), (0x5004, 1), (0x5005, 1), (0x5006, 1), (0x5009, 0x60), (0x5011, 1), (0x5019, 0x70), (0x5028, 1),
   (0x7004, 1), (0x7011, succ), (0x702A, 2), (0x10000, 0xD4)]
def launchR : RingCmd := { demoR 1 5 with addr := 0x5000 }
def newL : Launch := { demoL with acc := 5, admitted := false, dieset := 0, seq := 1, basins := [], parked := [] }
def launchS (min succ : Byte) (c : RingCmd) : State := withMem (recMem min succ) [] { demo with launches := [newL], ringCmds := [c] }
def recBytes (min succ : Byte) : List Byte := (List.range 64).map (fun i => readByte (launchS min succ launchR).mem (pageOf (0x5000 + i)))
def bargeOf (min succ : Byte) : List W64 := toWords 8 (readBytes (launchS min succ launchR).mem (pageOf 0x7000) 64)
theorem launch_two : TwoPages (launchS 1 0x60 launchR) ∧ TwoPages (launchS 0 0x60 launchR) ∧ TwoPages (launchS 1 0x61 launchR) :=
  ⟨⟨rfl, rfl, by decide +kernel, rfl, rfl, by decide +kernel, by decide +kernel, by decide +kernel, by decide +kernel, by decide +kernel⟩,
   ⟨rfl, rfl, by decide +kernel, rfl, rfl, by decide +kernel, by decide +kernel, by decide +kernel, by decide +kernel, by decide +kernel⟩,
   ⟨rfl, rfl, by decide +kernel, rfl, rfl, by decide +kernel, by decide +kernel, by decide +kernel, by decide +kernel, by decide +kernel⟩⟩
theorem launch_reads {m x : Byte} (h : TwoPages (launchS m x launchR)) : (launchS m x launchR).virtRead 0 0x5000 64 = some (recBytes m x) ∧
    (launchS m x launchR).readBarges 0 0x7000 1 = some [bargeOf m x] := by
  refine ⟨virtRead_two h 64 0x5000 (by decide), ?_⟩
  simp only [State.readBarges, readBarge_two h 0x7000 (by decide), Option.map_some]; rfl
/-- A record that passes; one whose MIN is 0; a barge that does not lead to the control block. -/
theorem wit_launch : recordOk launchR (toWords 8 (recBytes 1 0x60)) = true ∧ recBarges (toWords 8 (recBytes 1 0x60)) = 0x7000 ∧ recCount (toWords 8 (recBytes 1 0x60)) = 1 ∧
    (launchS 1 0x60 launchR).bargesOk (toWords 8 (recBytes 1 0x60)) [bargeOf 1 0x60] = true ∧ recJcb (toWords 8 (recBytes 1 0x60)) = 0x6000 ∧
    recordOk launchR (toWords 8 (recBytes 0 0x60)) = false ∧ recordOk launchR (toWords 8 (recBytes 1 0x61)) = true ∧
    (launchS 1 0x61 launchR).bargesOk (toWords 8 (recBytes 1 0x61)) [bargeOf 1 0x61] = false := by decide +kernel
theorem wit_launch_place : InHand (launchS 1 0x60 launchR) 5 launchR ∧ InLine 0x6000 64 ∧ Roomy (launchS 1 0x60 launchR) 0x6000 ∧ Answers (launchS 1 0x60 launchR) 0x5000 ∧
    (launchS 1 0x60 launchR).handleList launchR = some [] ∧ (launchS 1 0x60 launchR).launch? 5 = some newL ∧
    newL.admitted = false ∧ newL.ended = false ∧ newL.basins = [] ∧ newL.parked = [] := by
  unfold InHand InLine Roomy Answers Sound; decide +kernel
theorem wit_launch_xlate : (launchS 1 0x60 launchR).xlateFront 0 0x5000 false = .ok ⟨0x5000, 1, .normal⟩ ∧
    (launchS 1 0x60 launchR).xlateFront 0 0x6000 true = .ok ⟨0x6000, 1, .normal⟩ :=
  ⟨xlate_two launch_two.1.one 0x5000 false (by decide), xlate_two launch_two.1.one 0x6000 true (by decide)⟩
/-- Lists of one item: unaligned; a reader of an unbound handle, alone and after a BIND of it. -/
def listR (va : W64) : RingCmd := { launchR with arg0 := va, arg1 := 0x10000 }
def itemS (c : RingCmd) (cs : List RingCmd) : State := { launchS 1 0x60 c with mem := (0x4002, 1) :: (launchS 1 0x60 c).mem, ringCmds := c :: cs }
theorem list_two : (∀ va ∈ [0x4000, 0x4001], TwoPages (itemS (listR (BitVec.ofNat 64 va)) [])) := by
  intro va hv
  have : va = 0x4000 ∨ va = 0x4001 := by simpa using hv
  rcases this with rfl | rfl <;> exact ⟨rfl, rfl, by decide +kernel, rfl, rfl, by decide +kernel, by decide +kernel, by decide +kernel, by decide +kernel, by decide +kernel⟩
theorem list_read {va : W64} (h : TwoPages (itemS (listR va) [])) (hv : va.toNat + 4 ≤ 2 ^ 37) : (itemS (listR va) []).handleList (listR va) =
    some [BitVec.ofNat 32 (ofBytes ((List.range 4).map (fun i => readByte (itemS (listR va) []).mem (pageOf (va.toNat + i)))))] := by
  have e : BitVec.ofNat 72 (slice (listR va).arg1 7 0 * 2 ^ 64 + (listR va).arg0.toNat) = BitVec.ofNat 72 va.toNat := by
    rw [show slice (listR va).arg1 7 0 = 0 from (by decide : slice (0x10000 : W64) 7 0 = 0)]; simp [listR]
  have t : (BitVec.ofNat 72 va.toNat).toNat = va.toNat := ofNat_small (by omega)
  simp only [State.handleList, e]
  rw [show slice (listR va).arg1 26 16 = 1 from (by decide : slice (0x10000 : W64) 26 16 = 1), show (listR va).ring = 0 from rfl, virtRead_two h 4 _ (by rw [t]; exact hv), t]
  simp
  rw [List.take_of_length_le (by simp)]
theorem wit_launch_list : (itemS (listR 0x4001) []).handleList (listR 0x4001) = some [0x100] ∧ (itemS (listR 0x4000) []).handleList (listR 0x4000) = some [0x10000] := by
  exact ⟨(list_read (list_two 0x4001 (by decide)) (by decide)).trans (by decide +kernel), (list_read (list_two 0x4000 (by decide)) (by decide)).trans (by decide +kernel)⟩
theorem wit_launch_handles : (itemS (listR 0x4000) []).handleFree 5 0 false = true ∧ tget (itemS (listR 0x4000) []).handles 0 = none ∧
    (itemS (listR 0x4000) [{ demoR 4 3 with arg0 := 64 }]).handleFree 5 0 false = false ∧
    slice (0x10000 : W32) 31 18 = 0 ∧ (0x10000 : W32).getLsbD 16 = true ∧ (listR 0x4000).arg0.toNat % 4 = 0 ∧ (listR 0x4001).arg0.toNat % 4 ≠ 0 := by decide +kernel
def endedL (f a : Bool) (e : Nat) : Launch := { newL with admitted := true, expected := 3, doneN := 3, jcb := 0x6000, faulted := f, aborted := a, errs := e }
theorem wit_job_end : ∀ p ∈ [(true, false, 0), (false, true, 0), (false, false, 0), (false, false, 1)], let l := endedL p.1 p.2.1 p.2.2
    let s : State := { launchS 1 0x60 launchR with launches := [l], ctxs := [], cores := [] }
    s.launch? 5 = some l ∧ l.admitted = true ∧ l.ended = false ∧ l.doneN = l.expected ∧ l.writes = [] ∧ l.acc = 5 ∧
    (s.ret l.ring.toNat).ctrDump.getLsbD 0 = false ∧ s.ringCmds = [launchR] := by decide +kernel

/-! RegistersModulesAndIdentity -/

theorem wit_registers : slice (0 : W64) 47 32 ≤ slice (0 : W64) 31 16 ∧ slice (0x100000000 : W64) 31 16 < slice (0x100000000 : W64) 47 32 ∧
    demo.expert = false ∧ (0x2100 : BitVec 16).toNat = 0x2100 + 8 * (0 : BitVec 5).toNat ∧ (0x8FF8 : BitVec 16).toNat = 0x8000 + 8 * (0x1FF : BitVec 12).toNat := by decide
theorem wit_query : demo.launches.find? (fun v => v.ring = demo.regs.lqCp && v.seq = 2) = none ∧ demo.launches.find? (fun v => v.ring = demo.regs.lqCp && v.seq = 1) = some demoL ∧
    ({ withC { demoC with counts := [(0, 3)] } with launches := [demoL] }).launch? 0 = some demoL ∧ (demoL.counts = []) := by decide +kernel
theorem wit_frame_registers : demo.frames = [] ∧ demo.framesTaken 0 = [] ∧ (cmdOf 2 0).frames ≠ [] ∧ 4096 < slice (0x100100000000 : W64) 44 32 ∧
    slice (0x100000000000 : W64) 44 32 ≤ 4096 := by decide +kernel
theorem wit_retirement : slice RetRegs.reset.trhi 63 48 = 0 ∧ slice ({ RetRegs.reset with trhi := 0x1000000000000 } : RetRegs).trhi 63 48 ≠ 0 ∧
    slice (0x1FFFFFFF : W64) 31 28 < 2 ∧ 2 ≤ slice (0x20000000 : W64) 31 28 ∧ slice (0x80000000 : W64) 31 28 ≤ 8 ∧ 8 < slice (0x90000000 : W64) 31 28 := by decide
theorem wit_power : slice (299 : W64) 15 0 < 300 ∧ slice (300 : W64) 15 0 ≤ 2400 ∧ slice (2400 : W64) 15 0 ≤ 2400 ∧ 2400 < slice (2401 : W64) 15 0 ∧
    slice (4 : W64) 2 0 ≤ 4 ∧ 4 < slice (5 : W64) 2 0 := by decide
def modS (st : ModState) : State :=
  { demo with ctxs := [], cores := [], launches := [], regs := { demo.regs with modules := [(1, { placedModule with st := st })], modPa := 0x10000, modSize := 4 } }
theorem wit_module : slice (0x20001 : W64) 1 0 = 1 ∧ slice (0x20001 : W64) 27 16 = 2 ∧ (modS .live).modState 2 = .free ∧ (modS .live).regs.modSize.toNat = 4 ∧
    homeOf (slice (modS .live).regs.modPa 53 8 * 256) = .dram ∧ homeOf (slice (modS .live).regs.modPa 53 8 * 256 + 4 - 1) = .dram ∧
    slice (0x10002 : W64) 1 0 = 2 ∧ (modS .live).module? 1 = some placedModule ∧ placedModule.st = .live ∧ (modS .live).modState 2 ≠ .live ∧
    (∀ st ∈ [ModState.draining, .purging], (modS st).module? 1 = some { placedModule with st := st }) ∧ (modS .draining).queuedNaming 1 = 0 ∧
    (modS .draining).frames = [] := by decide +kernel
theorem wit_image : slice (8 : W32) 1 0 = 0 ∧ partOk 1 = true ∧ (modS .live).modState 2 = .free ∧ (modS .live).modState 1 ≠ .free ∧ homeOf 0x20000 = .dram ∧
    0x20000 % 256 = 0 ∧ Roomy (modS .live) 0x20000 ∧ slice (7 : W32) 1 0 ≠ 0 := by unfold Roomy; decide +kernel
/-- R37 to R39, by hand: an entry at 0; imports of the code label at 0x20 into the instruction at 0x10, of the data label at 0x40 into the one
at 0, and of the entry into the barge at 0. -/
def handImage : List Byte :=
  toBytes 4 0x444F4D5A ++ toBytes 2 1 ++ toBytes 2 1 ++ toBytes 4 3 ++ toBytes 4 3 ++ toBytes 8 0x30 ++ toBytes 8 0x80 ++ toBytes 8 7 ++ toBytes 8 9 ++
    toBytes 16 0 ++ (toBytes 4 0 ++ toBytes 1 1 ++ toBytes 1 2 ++ toBytes 2 0 ++ toBytes 4 1 ++ toBytes 4 100 ++ toBytes 8 5 ++ toBytes 8 0) ++ toBytes 32 0 ++
    (toBytes 8 0xB ++ toBytes 4 0x10 ++ toBytes 4 0) ++ (toBytes 8 0xC ++ toBytes 4 0 ++ toBytes 4 1) ++ (toBytes 8 0xA ++ toBytes 4 0 ++ toBytes 4 2) ++
    toBytes 16 0 ++ (toBytes 8 0xA ++ toBytes 4 0 ++ toBytes 4 0) ++ (toBytes 8 0xB ++ toBytes 4 0x20 ++ toBytes 4 0) ++
    (toBytes 8 0xC ++ toBytes 4 0x40 ++ toBytes 4 1) ++ toBytes 16 0 ++
    (toBytes 16 3 ++ toBytes 16 3 ++ toBytes 16 0) ++ toBytes 16 0 ++ (toBytes 8 0xFFFFFFFFFFFFFFFF ++ toBytes 120 0)
theorem test_image_imports : let t := (modS .live).loadImage 2 0x20000 0x30000 0x5000 handImage
    t.homeRead 0x20018 8 = 4 ∧ t.homeRead 0x20008 8 = 0x5040 ∧ t.homeRead 0x30000 8 = 0xFFFFF00200000000 ∧
      tget t.regs.staged 2 = some [⟨0, 1, 2, 1, 100⟩] := by decide +kernel
/-- An image that names itself wrongly, one whose number is in use. -/
theorem test_image_refused : (modS .live).loadImage 2 0x20000 0x30000 0x5000 (0 :: handImage.drop 1) = modS .live ∧
    (modS .live).loadImage 1 0x20000 0x30000 0x5000 handImage = modS .live := by
  refine ⟨if_pos ?_, if_pos ?_⟩ <;> decide +kernel
def attest (idSet busy : Bool) (count : BitVec 16) (page : BitVec 10) : Ident := { Ident.reset with idSet := idSet, busy := busy, count := count, attPage := page }
theorem wit_identity : (∀ i ∈ [attest true true 1023 1022, attest true true 1024 1022, attest true true 1023 1023, attest false true 0 0], i.busy = true) ∧
    (1023 : BitVec 16).toNat < 1024 ∧ 1024 ≤ (1024 : BitVec 16).toNat ∧ (1022 : BitVec 10).toNat ≤ 1022 ∧ 1022 < (1023 : BitVec 10).toNat ∧
    tget Ident.reset.meas 0 = none ∧ tget { Ident.reset with meas := [(0, 1)] }.meas 0 ≠ none := by decide
theorem wit_flag_room : ∀ v, homeOf v = .flag → Roomy demo v := by
  intro v hv
  unfold Roomy
  rw [hv]
  exact ⟨rfl, by decide +kernel⟩

/-! WarmResetPassesThroughItsPhases -/

def phaseS (p : BitVec 4) (now : Nat) : State := { demo with now := now, dies := [(0, { Die.reset with phase := p })] }
theorem wit_warm_reset : (∀ p ∈ [0, 1, 2, 3, 4, 5, 6], ((phaseS (BitVec.ofNat 4 p) 0).die 0).phase = BitVec.ofNat 4 p) ∧ demo.launch? demoL.acc = some demoL ∧
    demoL.dieset.getLsbD 0 = true ∧ (1 : W64).getLsbD 0 = true ∧ (1 : W64).getLsbD 2 = false ∧ (5 : W64).getLsbD 2 = true ∧ tget demo.ctxs 0 = some demoC ∧
    demoC.save = none ∧ (phaseS 1 (2 ^ 20 - 1)).now < 2 ^ 20 ∧ 2 ^ 20 ≤ (phaseS 1 (2 ^ 20)).now ∧ (noCtx demoL).ctxs = [] := by
  refine ⟨?_, by decide +kernel⟩
  decide +kernel
def dirtyY : Line := { line := 0x80, data := 0x55, dirty := 1, hint := .normal }
def writeS : State := { phaseS 2 0 with bayLines := [(bayKey 0 3 0x80, [dirtyY])] }
theorem wit_write_back : writeS.bayLines = [(bayKey 0 3 dirtyY.line, [dirtyY])] ∧ (homeOf (128 * dirtyY.line)).cached = true ∧
    writeS.linkOpen (128 * dirtyY.line) = true ∧ dirtyY.dirty.getLsbD 0 = true ∧ Roomy writeS (128 * dirtyY.line) := by
  refine ⟨rfl, by decide, by decide +kernel, by decide, ?_⟩
  unfold Roomy; decide +kernel

/-! PowerHeatMarginsAndEnergy -/

def idleS (cal : Option (Nat × Nat)) (now : Nat) : State :=
  { noCtx demoL with now := now, clusters := [(0, { demoK with calib := cal, vop := 0 })] }
theorem wit_margins : (idleS none (2 ^ 20)).regs.powerctl.getLsbD 32 = true ∧ (∀ p ∈ (idleS none (2 ^ 20)).ctxs, p.1 / 8 ≠ 0) ∧
    (∀ m ∈ (idleS none (2 ^ 20)).liveMoves, m.2.1 / 8 ≠ 0) ∧ ((idleS none (2 ^ 20)).cluster 0).idleAt + 2 ^ 20 ≤ (idleS none (2 ^ 20)).now ∧
    (idleS none (2 ^ 20)).candidate 0 = none ∧ ((idleS (some (7, 0)) (2 ^ 16)).cluster 0).calib = some (7, 0) ∧ (idleS (some (7, 0)) (2 ^ 16)).candidate 0 = none ∧
    (noCtx (queuedL 0)).candidate 0 ≠ none ∧ ({ State.reset with powered := false } : State).powered = false ∧ State.reset.powered = true := by decide +kernel
/-- Whatever the voltage of the curve, a step of a calibration is the last one or is not. -/
theorem wit_margin_steps (vop : BitVec 12) (n : Nat) : vop.toNat + 200 ≤ (Config.curveVoltage n).toNat ∨ (Config.curveVoltage n).toNat < vop.toNat + 200 :=
  Nat.lt_or_ge .. |>.symm
theorem wit_intervals : (2 ^ 20 - 1 : Nat) < demo.regs.powerAt + 2 ^ 20 ∧ demo.regs.energyAt + 2 ^ 20 ≤ 2 ^ 20 ∧ (94 : BitVec 8).toNat < 95 ∧ 95 ≤ (95 : BitVec 8).toNat ∧
    (104 : BitVec 8).toNat < 105 ∧ 105 ≤ (105 : BitVec 8).toNat := by decide

/-! LinksHostAndPeers -/

def linkS (st : BitVec 2) (up : Bool) : State :=
  { demo with regs := { demo.regs with finzu := [(3, ⟨st, 9, 0⟩)], hostUp := up, peers := [(7, 0xC000000800000009)] } }
theorem wit_links : (∀ st ∈ [0, 1], (tgetD (linkS (BitVec.ofNat 2 st) true).regs.finzu 3 ⟨0, 0, 0⟩).state.toNat < 2) ∧
    (∀ st ∈ [2, 3], 2 ≤ (tgetD (linkS (BitVec.ofNat 2 st) true).regs.finzu 3 ⟨0, 0, 0⟩).state.toNat) ∧ (linkS 2 true).portServes 3 7 = true ∧
    (linkS 3 true).portServes 3 7 = false ∧ (tgetD (linkS 2 true).regs.peers 7 0).getLsbD 63 = true ∧ (tgetD (linkS 2 true).regs.peers 7 0).getLsbD 62 = true ∧
    (linkS 2 true).accs = [] ∧ (demo.die 0).auto = true ∧ (demo.die 0).phase = 0 ∧ (({ demo with dies := [(0, { Die.reset with auto := false })] } : State).die 0).auto = false := by
  decide +kernel
theorem wit_outside : homeOf 0x40000000000 = .flag ∧ homeOf 0x3FFFFFFFFFF ≠ .flag ∧ homeOf 0x400003FFFFF = .flag ∧ homeOf 0x400003FFFF8 = .flag ∧
    InLine 0x400003FFFF8 8 ∧ Roomy demo 0x400003FFFF8 ∧ homeOf 0x8FFFFFFFFF = .dram ∧ Sound demo 0x4000 128 ∧ Roomy demo 0x4000 ∧ demo.l2Line (lineOf 0x4000) = none ∧
    0x4004 % 4 = 0 := by unfold InLine Roomy Sound; decide +kernel

/-! StepRunsTheDecodedInstruction, EncodedInstructionsDecodeBack, MemoryStaysCanonical -/

theorem wit_step : let s := State.placed State.reset (toBytes 16 0xD4)
    ∃ c, s.issuing 0 = some (0, c) ∧ c.halted = false ∧ (s.cluster 0).issued = false ∧ s.sliceOpen 0 0 = true ∧ slice c.pc 63 44 = 0 ∧ slice c.pc 1 0 = 0 ∧
      (∃ m, s.module? (slice c.pc 43 32) = some m ∧ m.st = .live ∧ slice c.pc 31 0 + instrBytes .taskend ≤ m.size) ∧
      s.code.has .i0 0 (c.pc.toNat / 128) = true ∧ (c.pc.toNat + instrBytes .taskend - 1) / 128 = c.pc.toNat / 128 ∧
      decode (State.codeBytes { s with now := s.now + 1, agenda := [], focus := ⟨0, 0, s.focus.core⟩ } c.pc 16) = .ok .taskend := by
  refine ⟨_, rfl, by decide +kernel, by decide +kernel, by decide +kernel, by decide +kernel, by decide +kernel, ⟨_, rfl, by decide +kernel, by decide +kernel⟩, ?_⟩
  decide +kernel
def bufX (w : W64) : Core := { demoX with buf := [{ e := 3, op := 0, w := w }] }
/-- An IADD word whose operands lie in the partition, and a word that decodes to nothing. -/
theorem wit_step_core : (∀ w ∈ [0xC000018080301C01, 0], let s := withX (bufX (BitVec.ofNat 64 w))
      s.headWaits 0 0 (bufX (BitVec.ofNat 64 w)) demoC.uid = 0 ∧ demoC.drains s.now = true ∧ 0 ≤ (s.cluster 0).began) ∧
    decodeLane 0xC000018080301C01 ≠ none ∧ decodeLane 0 = none := by decide +kernel
theorem wit_step_unpowered : ({ State.reset with powered := false } : State).powered = false ∧ Act.gen 0 ≠ .event .powerOn ∧ Memory.wf State.reset.mem = true ∧
    encode .powerOn = [] ∧ encodeLane .powerOn = none ∧ encode .taskend ≠ [] ∧ Instr.wf .taskend = true := by decide +kernel
theorem wit_canonical : step State.reset = .next { State.reset with now := 1 } := rfl

/-! ### Frames in the memory of a peer -/

theorem length_flat {α β : Type} (l : List α) (f : α → List β) (k : Nat) (h : ∀ x ∈ l, (f x).length = k) : (l.flatMap f).length = l.length * k := by
  induction l with
  | nil => simp
  | cons x l ih =>
    rw [List.flatMap_cons, List.length_append, h x (List.mem_cons_self ..), ih (fun y hy => h y (List.mem_cons_of_mem _ hy)), List.length_cons]
    rw [Nat.succ_mul]; omega
theorem length_toBytes (n x : Nat) : (toBytes n x).length = n := by simp [toBytes]
theorem length_ofWords (ws : List W64) : (ofWords ws).length = ws.length * 8 := length_flat _ _ 8 fun _ _ => length_toBytes _ _
theorem length_fit (n : Nat) (bs : List Byte) : (fit n bs).length = n := by simp [fit, zeros]
theorem length_slot (x : Slot) : x.frameBytes.length = 32 := by
  unfold Slot.frameBytes
  split <;> simp [length_toBytes, zeros]
theorem length_head {s : State} (hf : s.flights = []) (n slot : Nat) (c : Ctx) (st : Nat) (rec : List W64) : (s.frameHead n slot c st rec).length = 0x2000 := by
  have hg : ((List.range 64).flatMap (fun i => toBytes 16 (tgetD c.g i 0).toNat)).length = 1024 :=
    (length_flat _ _ 16 fun _ _ => length_toBytes _ _).trans (by simp)
  have hs : ((List.range 64).flatMap (fun i => (tgetD c.slots i Slot.reset).frameBytes)).length = 2048 :=
    (length_flat _ _ 32 fun _ _ => length_slot _).trans (by simp)
  have hh : ((List.range 8).flatMap (fun i => toBytes 2 (tgetD c.h i 0).toNat)).length = 16 :=
    (length_flat _ _ 2 fun _ _ => length_toBytes _ _).trans (by simp)
  have ho : ((List.range 16).flatMap (fun _ => ofWords (List.replicate 8 0))).length = 1024 :=
    (length_flat _ _ 64 fun _ _ => by rw [length_ofWords, List.length_replicate]).trans (by simp)
  unfold State.frameHead
  simp only [hf, List.find?_nil, List.length_append, length_toBytes, length_fit, hg, hs, hh, ho, zeros, List.length_replicate, List.length_cons, List.length_nil]
theorem length_block (x : Core) (k : Nat) : (x.block k).length = 1024 := by
  have h1 : ((List.range 16).flatMap (fun i =>
      let a := x.areg (BitVec.ofNat 4 i)
      toBytes 8 a.base.toNat ++ toBytes 4 a.stride.toNat ++ [BitVec.ofNat 8 (Fmt.code a.tag), 0, 0, 0])).length = 256 :=
    (length_flat _ _ 16 fun _ _ => by simp [length_toBytes]).trans (by simp)
  have h2 : ((List.range 16).flatMap (fun i => toBytes 8 (tgetD x.q i 0).toNat)).length = 128 := (length_flat _ _ 8 fun _ _ => length_toBytes _ _).trans (by simp)
  have h3 : ((List.range 8).flatMap (fun i => toBytes 2 (x.mask (BitVec.ofNat 3 i)).toNat)).length = 16 :=
    (length_flat _ _ 2 fun _ _ => length_toBytes _ _).trans (by simp)
  unfold Core.block
  simp only [List.length_append, h1, h2, h3, zeros, List.length_replicate, List.length_cons, List.length_nil, tagBytes, List.length_map, List.length_range]
theorem length_pool (x : Core) (p : W32) : (x.pool p).length = poolSize p := by
  unfold Core.pool poolSize
  rw [List.length_append, List.length_append, length_flat _ _ 4 fun _ _ => length_toBytes _ _, length_flat _ _ 4 fun _ _ => length_toBytes _ _]
  simp only [List.length_range, List.length_map]
  omega
theorem length_image {s : State} (hf : s.flights = []) (n slot : Nat) (c : Ctx) (st : Nat) (rec : List W64) :
    (s.frameImage n slot c st rec).length ≤ 0x22000 + (s.frameCores n slot).length * poolSize (s.partition c) := by
  have hp := length_flat (s.frameCores n slot) (fun p => p.2.pool (s.partition c)) _ fun p _ => length_pool p.2 _
  have hd (b : List Byte) : (frameDigest b).length ≤ 8 := by unfold frameDigest; rw [List.length_take]; omega
  unfold State.frameImage
  simp only [List.length_append, List.length_take, List.length_drop, length_head hf, length_fit, hp]
  have := hd (s.frameHead n slot c st rec ++ fit 131072 (List.flatMap (fun p => p.2.block p.1) (s.frameCores n slot)))
  omega

/-- A machine that saves: its frames stand in the memory of peer 0, its handler's barge at 0x7000. -/
def frameTraps : TrapRegs := { TrapRegs.reset with framelo := 0x1000000000, framehi := 0x200000000, hblo := 0x7000 }
def saveS (c : Ctx) : State :=
  withMem [(0x7004, 1)] [] { withC c with
    launches := [{ demoL with basins := [⟨0x100000000, [(0, [])]⟩] }], regs := { demo.regs with traps := [(0, frameTraps)] } }
def drainC (w : SaveWhy) : Ctx := { savingC w (some (0, 0)) .none with slots := [], queue := [], votes := [] }
theorem save_two (c : Ctx) : TwoPages (saveS c) :=
  ⟨rfl, rfl, by exact (by decide +kernel : (List.range 16).filter (fun n => (saveS demoC).portServes n 0) = [0]), rfl, rfl,
   by exact (by decide +kernel : (saveS demoC).homeRead 0x100000 8 = 0x180001), by exact (by decide +kernel : (saveS demoC).homeRead 0x180000 8 = 0x190001),
   by exact (by decide +kernel : (saveS demoC).homeRead 0x190000 8 = 0x53), by exact (by decide +kernel : (saveS demoC).homeRead 0x190008 8 = 0x20000000000053),
   by exact (by decide +kernel : (saveS demoC).isolated 0 = false)⟩
theorem save_quiet (c : Ctx) (h : c.monitor = .none) : Quiet (saveS c) :=
  ⟨rfl, fun p hp => by cases List.mem_singleton.mp hp; exact h, rfl, by exact (by decide +kernel : Memory.wf (saveS demoC).mem = true)⟩
theorem wit_save_written (w : SaveWhy) : Running (drainC w) ∧ (drainC w).save = some ⟨w, some (0, 0)⟩ ∧ (saveS (drainC w)).drained 0 0 (drainC w) = true ∧
    (let image := ((saveS (drainC w)).writeBackBays 0 (drainC w) true).frameImage 0 0 (drainC w) 1 []
     ∃ u, ((saveS (drainC w)).writeBackBays 0 (drainC w) true).virtWrite (drainC w).ring (image.length / 4096 + 2) ((saveS (drainC w)).frameVa (drainC w).ring 0) image
       = .ok u) := by
  have hw : (saveS (drainC w)).writeBackBays 0 (drainC w) true = saveS (drainC w) := by
    unfold State.writeBackBays
    rw [show (drainC w).bayList = [0] from (by decide +kernel : demoC.bayList = [0])]
    rfl
  have hv : (saveS (drainC w)).frameVa (drainC w).ring 0 = 0x1000000000 := by
    unfold State.frameVa
    rw [show (saveS (drainC w)).trap (drainC w).ring.toNat = frameTraps from rfl]
    decide +kernel
  have hl := length_image (s := saveS (drainC w)) rfl 0 0 (drainC w) 1 []
  rw [show ((saveS (drainC w)).frameCores 0 0).length = 1 from rfl, show (saveS (drainC w)).partition (drainC w) = 0x00010101 from rfl,
    show poolSize 0x00010101 = 12288 from by decide] at hl
  rw [hw, hv]
  refine ⟨rfl, rfl, rfl, ?_⟩
  obtain ⟨m, e, _⟩ := virtWrite_two (save_two (drainC w)) (save_quiet (drainC w) rfl) (((saveS (drainC w)).frameImage 0 0 (drainC w) 1 []).length / 4096 + 2)
    0x1000000000 ((saveS (drainC w)).frameImage 0 0 (drainC w) 1 []) (by decide) (by
      rw [show (0x1000000000 : W72).toNat = 68719476736 from rfl]; omega)
  exact ⟨_, e⟩

def saveL : Launch := { demoL with basins := [⟨0x100000000, [(0, [])]⟩] }
theorem wit_save_launch : (saveS demoC).launch? 0 = some saveL ∧ saveL.basin? (bargeEntry demoC.barge) = some ⟨0x100000000, [(0, [])]⟩ ∧ 0 / 4 ∈ saveL.usable ∧
    saveL.usable.head? = some 0 ∧ 8 ∉ saveL.usable ∧ saveL.aborted = false ∧ saveL.faulted = false ∧ saveL.change = none ∧ saveL.ended = false ∧
    (∀ a ∈ (saveS demoC).accs, ∀ p ∈ a.parts, isSp p.pa = false) := by decide +kernel
def trapC : Ctx := { demoC with status := .blocked, stop := some { demoStop 3 with frame := some 0 } }
def loggedS : State × List (List W64) := (saveS trapC).logRecords 0 0 0 true 0 [List.replicate 8 0]
theorem logged_two : TwoPages loggedS.1 := ⟨rfl, rfl, by decide +kernel, rfl, by decide +kernel, by decide +kernel, by decide +kernel, by decide +kernel, by decide +kernel, by decide +kernel⟩
theorem logged_quiet : Quiet loggedS.1 := ⟨by decide +kernel, by decide +kernel, rfl, by decide +kernel⟩
theorem logged_ctx : loggedS.1.ctx? 0 0 = some trapC ∧ loggedS.1.flights = [] ∧ (loggedS.1.frameCores 0 0).length = 1 ∧ loggedS.1.partition trapC = 0x00010101 ∧
    loggedS.1.frameVa 0 0 = 0x1000000000 ∧ trapC.ring = 0 ∧ (saveS trapC).drained 0 0 trapC = true := by decide +kernel
theorem bayWriteBack_none {s : State} (h : s.bayLines = []) (n b : Nat) : s.bayWriteBack n b true = s := by
  have e : { s with bayLines := [] } = s := by cases s; cases h; rfl
  unfold State.bayWriteBack State.bayAll
  simp only [h, List.filter_nil, List.flatMap_nil, List.foldl_nil, if_true, e]
theorem back_none {s : State} (h : s.bayLines = []) (n : Nat) (c : Ctx) : s.writeBackBays n c true = s := by
  unfold State.writeBackBays
  induction c.bayList with
  | nil => rfl
  | cons b bs ih => rw [List.foldl_cons, bayWriteBack_none h, ih]
/-- What a saved context leaves alone. -/
structure View where
  acc : Nat
  part : W32
  dieset : BitVec 8
  change : Option Change
  aborted : Bool
  faulted : Bool
  basins : List Basin
  deriving DecidableEq
def viewOf (l : Launch) : View := ⟨l.acc, l.part, l.dieset, l.change, l.aborted, l.faulted, l.basins⟩
structure Kept (s t : State) : Prop where
  mem : t.mem = s.mem
  l2 : t.l2 = s.l2
  bad : t.badGranules = s.badGranules
  serves : t.portServes = s.portServes
  iso : t.isolated = s.isolated
  xlroot : t.regs.xlroot = s.regs.xlroot
  peers : t.regs.peers = s.regs.peers
  traps : t.regs.traps = s.regs.traps
  modules : t.regs.modules = s.regs.modules
  rets : t.regs.rets = s.regs.rets
  accs : s.accs = [] → t.accs = []
  launches : t.launches.map viewOf = s.launches.map viewOf
theorem Kept.trans {s t u : State} (h : Kept s t) (k : Kept t u) : Kept s u :=
  ⟨k.mem.trans h.mem, k.l2.trans h.l2, k.bad.trans h.bad, k.serves.trans h.serves, k.iso.trans h.iso, k.xlroot.trans h.xlroot, k.peers.trans h.peers, k.traps.trans h.traps, k.modules.trans h.modules,
   k.rets.trans h.rets, fun e => k.accs (h.accs e), k.launches.trans h.launches⟩
theorem Kept.refl (s : State) : Kept s s := ⟨rfl, rfl, rfl, rfl, rfl, rfl, rfl, rfl, rfl, rfl, id, rfl⟩
theorem kept_launch (s : State) (l : Nat) (f : Launch → Launch) (hf : ∀ x, viewOf (f x) = viewOf x) : Kept s (s.modLaunch l f) := by
  refine ⟨rfl, rfl, rfl, rfl, rfl, rfl, rfl, rfl, rfl, rfl, id, ?_⟩
  simp only [State.modLaunch, List.map_map]
  refine List.map_congr_left fun x _ => ?_
  simp only [Function.comp]
  split
  · exact hf x
  · rfl
theorem kept_count (s : State) (l w k : Nat) : Kept s (s.countLaunch l w k) := kept_launch s l _ fun _ => rfl
theorem kept_trace {s : State} (h : s.regs.rets = []) (n slot a : Nat) : s.traceCtx n slot 4 a = s := by
  unfold State.traceCtx
  split
  · rfl
  · split
    · rfl
    · unfold State.trace
      rw [show s.ret _ = RetRegs.reset from by simp [State.ret, h, tgetD, tget]]
      rfl
theorem kept_remove {s : State} (ha : s.accs = []) (n slot : Nat) : Kept s (s.removeCtx n slot) := by
  unfold State.removeCtx
  split
  · exact .refl s
  · rename_i c hc
    have hw (ks : List Nat) : s.failWindows c.uid ks = s := by unfold State.failWindows; rw [ha]; rfl
    simp only [hw]
    have hs : Kept s (s.sendCounts n slot) := by
      unfold State.sendCounts
      rw [hc]
      exact (kept_launch s c.launch (fun x => { x with counts := countAll x.counts c.counts }) fun _ => rfl).trans ⟨rfl, rfl, rfl, rfl, rfl, rfl, rfl, rfl, rfl, rfl, id, rfl⟩
    refine Kept.trans hs ⟨rfl, rfl, rfl, rfl, rfl, rfl, rfl, rfl, rfl, rfl, fun e => ?_, rfl⟩
    show List.filter _ (s.sendCounts n slot).accs = []
    rw [e]; rfl
theorem kept_charge (s : State) (l : Nat) : Kept s (s.chargeSwap l) := ⟨rfl, rfl, rfl, rfl, rfl, rfl, rfl, rfl, rfl, rfl, id, rfl⟩

theorem save_kept {s : State} {c : Ctx} (h2 : TwoPages s) (hq : Quiet s) (n slot ix st : Nat) (rec : List W64) (hc : s.ctx? n slot = some c) (hb : s.bayLines = [])
    (hf : s.flights = []) (hr : c.ring = 0) (hv : s.frameVa 0 ix = 0x1000000000) (hl : (s.frameCores n slot).length * poolSize (s.partition c) ≤ 2 ^ 30)
    (hrets : s.regs.rets = []) (haccs : s.accs = []) (hno : c.save = none) :
    ∃ m v, s.saveFrame n slot ix st rec = some v ∧ FarOnly s.mem m ∧ Kept { s with mem := m } v := by
  have hi := length_image hf n slot c st rec
  have hlo : 2 ^ 36 ≤ (0x1000000000 : W72).toNat := by decide
  have hhi (k : Nat) (hk : k ≤ 2 ^ 20) : (0x1000000000 : W72).toNat + 4096 * k ≤ 2 ^ 37 := by
    have hn : (0x1000000000 : W72).toNat = 68719476736 := rfl
    simp only [hn]; omega
  obtain ⟨m, e, f⟩ := virtWrite_two h2 hq ((s.frameImage n slot c st rec).length / 4096 + 2) 0x1000000000 (s.frameImage n slot c st rec) hlo (hhi _ (by omega))
  unfold State.saveFrame
  rw [hc]
  simp only [back_none hb, hv, hr, e, hno, Bool.false_eq_true, if_false]
  refine ⟨m, _, rfl, f, ?_⟩
  rw [kept_trace (by exact hrets)]
  refine Kept.trans ?_ ((kept_remove ?_ n slot).trans (kept_charge _ _))
  · refine Kept.trans ?_ (kept_count _ _ _ _)
    exact ⟨rfl, rfl, rfl, rfl, rfl, rfl, rfl, rfl, rfl, rfl, id, rfl⟩
  · exact haccs
theorem logged_saved : ∃ m v, loggedS.1.saveFrame 0 0 0 2 (loggedS.2.headD []) = some v ∧ FarOnly loggedS.1.mem m ∧ Kept { loggedS.1 with mem := m } v := by
  obtain ⟨hc, hf, h1, hp, hv, hr, _⟩ := logged_ctx
  refine save_kept logged_two logged_quiet 0 0 0 2 _ hc (by decide +kernel) hf hr hv ?_ (by decide +kernel) (by decide +kernel) rfl
  rw [h1, hp]; decide +kernel
theorem bargeOk_words {s t : State} (hm : t.regs.modules = s.regs.modules) (p : W32) (x y : List W64) (h : ∀ i < 6, wordAt x i = wordAt y i) :
    t.bargeOk p x = s.bargeOk p y := by
  simp only [State.bargeOk, State.modState, State.entryOf, State.module?, hm, bargeMode, bargeSucc, bargeWeight, bargeModule, bargeOffset,
    h 0 (by decide), h 2 (by decide), h 3 (by decide), h 4 (by decide), h 5 (by decide)]
  rfl
theorem logged_facts : loggedS.1.hbarge 0 = 0x7000 ∧ toWords 8 (readBytes loggedS.1.mem 0x7000 64) = placedBarge ∧
    loggedS.1.launches.map viewOf = [viewOf saveL] ∧ loggedS.1.bargeOk 0x00010101 (stampBarge placedBarge 0 0 0) = true := by decide +kernel
/-- A trapped context whose handler's barge passes. -/
theorem wit_trap_saved : trapC.stop = some { demoStop 3 with frame := some 0 } ∧ (saveS trapC).drained 0 0 trapC = true ∧
    ∃ v l', loggedS.1.saveFrame 0 0 0 2 (loggedS.2.headD []) = some v ∧ v.readBarge 0 (v.hbarge 0) = .ok placedBarge ∧ v.launch? 0 = some l' ∧
      (∀ a b, let image := setWord (setWord placedBarge 6 a) 7 b
        v.bargeOk l'.part (stampBarge image 0 0 0) = true) ∧ 0 / 4 ∈ l'.usable ∧ l'.aborted = false ∧ l'.faulted = false ∧
      ∃ y, l'.basin? (bargeEntry placedBarge) = some y := by
  refine ⟨rfl, by decide +kernel, ?_⟩
  obtain ⟨m, v, e, f, k⟩ := logged_saved
  obtain ⟨hb, hw, hl, hk⟩ := logged_facts
  have h2 : TwoPages { loggedS.1 with mem := m } := two_far logged_two f
  have hr (a : Nat) : v.homeRead a 8 = State.homeRead { loggedS.1 with mem := m } a 8 := by
    simp only [State.homeRead, State.homeLine, State.l2Line, State.l2Set, State.backingLine, k.l2, k.mem]
  have hv : TwoPages v := ⟨k.xlroot.trans h2.root, by rw [k.peers]; exact h2.peers, by rw [k.serves]; exact h2.route, k.bad.trans h2.bad, k.l2.trans h2.l2, (hr _).trans h2.t0, (hr _).trans h2.t1,
    (hr _).trans h2.t2, (hr _).trans h2.t2', by rw [k.iso]; exact h2.own⟩
  have hx := k.launches.trans hl
  obtain ⟨l', hq⟩ : ∃ l', v.launches = [l'] := List.length_eq_one_iff.mp (by simpa using congrArg List.length hx)
  rw [hq] at hx
  have hx : viewOf l' = viewOf saveL := by simpa using hx
  refine ⟨v, l', e, ?_, ?_, fun a b => ?_, ?_, (congrArg View.aborted hx).trans rfl, (congrArg View.faulted hx).trans rfl, ?_⟩
  · have hh : v.hbarge 0 = 0x7000 := by
      rw [← hb]; simp only [State.hbarge, State.trap, k.traps]
    rw [hh, readBarge_two hv 0x7000 (by decide)]
    have : readBytes v.mem 0x7000 64 = readBytes loggedS.1.mem 0x7000 64 := by
      rw [k.mem]
      refine List.map_congr_left fun i hi => f.near _ ?_
      rw [List.mem_range] at hi; omega
    rw [show pageOf (0x7000 : W72).toNat = 0x7000 from rfl, this, hw]
  · unfold State.launch?
    rw [hq, List.find?_cons_of_pos]
    exact decide_eq_true (congrArg View.acc hx)
  · rw [show l'.part = 0x00010101 from congrArg View.part hx, ← hk]
    refine bargeOk_words k.modules _ _ _ fun i hi => ?_
    match i, hi with
    | 0, _ | 1, _ | 2, _ | 3, _ | 4, _ | 5, _ => rfl
  · unfold Launch.usable
    rw [show l'.dieset = 1 from congrArg View.dieset hx, show l'.change = none from congrArg View.change hx]; decide +kernel
  · unfold Launch.basin?
    rw [show l'.basins = [⟨0x100000000, [(0, [])]⟩] from congrArg View.basins hx]; exact ⟨_, rfl⟩

/-! A frame that passes, one that does not, and one that is restored -/

theorem two_low {s : State} (h : TwoPages s) {m : List Host.Cell} (f : ∀ a < 0x200000, readByte m a = readByte s.mem a) : TwoPages { s with mem := m } := by
  have e (a : Nat) (ha : a < 0x1FFF00) : State.homeRead { s with mem := m } a 8 = s.homeRead a 8 := by
    have hl (s : State) (h : s.l2 = []) : s.l2Line (lineOf a) = none := by simp [State.l2Line, State.l2Set, h, tgetD, tget, findLine]
    unfold State.homeRead
    rw [State.homeLine_uncached (hl _ h.l2), State.homeLine_uncached (hl { s with mem := m } h.l2)]
    have : readBytes m (128 * lineOf a) 128 = readBytes s.mem (128 * lineOf a) 128 := by
      refine List.map_congr_left fun i hi => f _ ?_
      rw [List.mem_range] at hi
      unfold lineOf; omega
    unfold State.backingLine
    rw [this]
  exact ⟨h.root, h.peers, h.route, h.bad, h.l2, (e _ (by decide)).trans h.t0, (e _ (by decide)).trans h.t1, (e _ (by decide)).trans h.t2,
    (e _ (by decide)).trans h.t2', h.own⟩

theorem sha_round (h : List W32) (k : W32 × W32) (l : h.length = 8) : (shaRound h k).length = 8 := by
  match h, l with
  | [_, _, _, _, _, _, _, _], _ => rfl
theorem sha_block (h : List W32) (b : List Byte) (l : h.length = 8) : (shaBlock h b).length = 8 := by
  have fold (ks : List (W32 × W32)) : ∀ h : List W32, h.length = 8 → (ks.foldl shaRound h).length = 8 := by
    induction ks with
    | nil => exact fun _ l => l
    | cons k ks ih => exact fun h l => ih _ (sha_round h k l)
  unfold shaBlock
  simp only [List.length_zipWith, fold _ h l, l, Nat.min_self]
theorem sha_length (m : List Byte) : (sha256 m).length = 32 := by
  have blocks (n : Nat) : ∀ (h : List W32) (bs : List Byte), h.length = 8 → (shaBlocks n h bs).length = 8 := by
    induction n with
    | zero => exact fun _ _ l => l
    | succ n ih => exact fun h bs l => ih _ _ (sha_block h _ l)
  unfold sha256
  simp only []
  rw [length_flat _ _ 4 fun _ _ => by rw [List.length_reverse, length_toBytes], blocks _ _ _ rfl]

def goodCells : List Host.Cell :=
  tableCells ++ [(0x2000000, 0x5A), (0x2000001, 0x46), (0x2000002, 0x52), (0x2000003, 0x4D), (0x2000004, 1), (0x2000008, 1)]
def goodBytes : List Byte := (List.range 0x22000).map (fun i => readByte goodCells (0x2000000 + i))
def goodMem (d : List Byte) : List Host.Cell := writeBytes goodCells 0x2000020 d
def goodS (d : List Byte) : State := { cmdOf 2 1 with mem := goodMem d }
theorem digest_length (bs : List Byte) : (frameDigest bs).length = 8 := by
  unfold frameDigest
  rw [List.length_take, sha_length]; rfl
theorem good_other (d : List Byte) (hd : d.length = 8) (a : Nat) (h : a < 0x2000020 ∨ 0x2000028 ≤ a) : readByte (goodMem d) a = readByte goodCells a := by
  unfold goodMem
  rw [readByte_writeBytes_other (by decide +kernel) _ _ (by rw [hd]; omega)]
theorem good_digest (d : List Byte) (hd : d.length = 8) (i : Nat) (h : i < 8) : readByte (goodMem d) (0x2000020 + i) = d.getD i 0 := by
  have hl : i < d.length := by rw [hd]; exact h
  unfold goodMem
  rw [readByte_writeBytes (by decide +kernel) _ _ hl]
  simp [List.getD, hl]
theorem good_zero (i : Nat) (h : 9 ≤ i) (hi : i < 0x22000) : readByte goodCells (0x2000000 + i) = 0 := by
  simp only [goodCells, tableCells, List.cons_append, List.nil_append, readByte]
  repeat rw [if_neg (by omega)]
  unfold blank
  rw [if_pos (by omega)]
theorem good_two (d : List Byte) (hd : d.length = 8) : TwoPages (goodS d) :=
  two_low (s := { cmdOf 2 1 with mem := goodCells })
    ⟨rfl, rfl, by decide +kernel, rfl, rfl, by decide +kernel, by decide +kernel, by decide +kernel, by decide +kernel, by decide +kernel⟩ fun a ha => good_other d hd a (by omega)
/-- The frame as it is read back. -/
def goodImage (d : List Byte) : List Byte := (List.range 0x22000).map (fun i => readByte (goodMem d) (0x2000000 + i))
theorem good_read (d : List Byte) (hd : d.length = 8) : (goodS d).virtRead 0 0x2000000 0x22000 = some (goodImage d) := by
  rw [virtRead_two (good_two d hd) 0x22000 0x2000000 (by decide)]
  unfold goodImage
  refine congrArg some (List.map_congr_left fun i hi => ?_)
  rw [List.mem_range] at hi
  rw [show (0x2000000 : W72).toNat = 0x2000000 from rfl]
  unfold pageOf
  rw [if_pos (by omega)]; rfl
theorem cut {f : Nat → Byte} (n a k : Nat) (h : a + k ≤ n) : (((List.range n).map f).drop a).take k = (List.range k).map (fun i => f (a + i)) := by
  apply List.ext_getElem
  · simp; omega
  · intro i h1 h2; simp
theorem frame_digest_eq (x y : List Byte) (hl : x.length = y.length) (h : ∀ i (hx : i < x.length) (hy : i < y.length), ¬(0x20 ≤ i ∧ i < 0x28) → x[i] = y[i]) :
    frameDigest x = frameDigest y := by
  have e : x.zipIdx.map (fun p : Byte × Nat => if frameRW p.2 || decide (0x20 ≤ p.2 ∧ p.2 < 0x28) then 0 else p.1) =
      y.zipIdx.map (fun p : Byte × Nat => if frameRW p.2 || decide (0x20 ≤ p.2 ∧ p.2 < 0x28) then 0 else p.1) := by
    apply List.ext_getElem
    · simp [hl]
    · intro i h1 h2
      have hx : i < x.length := by simpa using h1
      simp only [List.getElem_map, List.getElem_zipIdx, Nat.zero_add]
      by_cases hi : 0x20 ≤ i ∧ i < 0x28
      · simp [hi]
      · rw [h i hx (hl ▸ hx) hi]
  unfold frameDigest
  simp only [e]
theorem good_passes (d : List Byte) (hd : d.length = 8) (he : frameDigest (goodImage d) = d) : (goodS d).frameGood 0 = true := by
  have word (a k : Nat) (h : a + k ≤ 0x22000) : atWord (goodImage d) a k = ofBytes ((List.range k).map (fun i => readByte (goodMem d) (0x2000000 + (a + i)))) := by
    unfold atWord goodImage; rw [cut _ a k h]
  have near (a k : Nat) (h : a + k ≤ 0x20 ∨ 0x28 ≤ a) : (List.range k).map (fun i => readByte (goodMem d) (0x2000000 + (a + i))) =
      (List.range k).map (fun i => readByte goodCells (0x2000000 + (a + i))) := by
    refine List.map_congr_left fun i hi => ?_
    rw [List.mem_range] at hi
    exact good_other d hd _ (by omega)
  have dig : ((goodImage d).drop 0x20).take 8 = d := by
    unfold goodImage
    rw [cut _ _ _ (by decide)]
    apply List.ext_getElem
    · simp [hd]
    · intro i h1 h2
      have hi : i < 8 := by simpa using h1
      simp only [List.getElem_map, List.getElem_range]
      rw [show 0x2000000 + (0x20 + i) = 0x2000020 + i by omega, good_digest d hd i hi]
      simp [List.getD, h2]
  have rsv : (goodImage d).zipIdx.all (fun p => !frameRSV (frameF 2).cores.length p.2 || p.1 = 0) = true := by
    rw [List.all_eq_true]
    intro p hp
    obtain ⟨h1, h2⟩ := List.mem_zipIdx' hp
    have hl : p.2 < 0x22000 := by simpa [goodImage] using h1
    by_cases hr : p.2 < 9 ∨ (0x20 ≤ p.2 ∧ p.2 < 0x28)
    · have : frameRSV (frameF 2).cores.length p.2 = false := by
        unfold frameRSV
        rw [if_pos (by omega)]
        simp only [decide_eq_false_iff_not]; omega
      simp [this]
    · have : p.1 = 0 := by
        rw [h2]
        simp only [goodImage, List.getElem_map, List.getElem_range]
        rw [good_other d hd _ (by omega)]
        exact good_zero _ (by omega) hl
      simp [this]
  have hv : (goodS d).frameVa (BitVec.ofNat 2 (0 / 4096)) (0 % 4096) = 0x2000000 := by
    unfold State.frameVa
    rw [show (goodS d).trap (BitVec.ofNat 2 (0 / 4096)).toNat = { TrapRegs.reset with framelo := 0x2000000, framehi := 0x200000000 } from rfl]
    decide +kernel
  unfold State.frameGood
  rw [show tget (goodS d).frames 0 = some { frameF 2 with cmd := 1 } from rfl]
  simp only [hv]
  rw [show BitVec.ofNat 2 (0 / 4096) = 0 from rfl, good_read d hd]
  simp only [word 0 4 (by decide), word 4 2 (by decide), word 0xC0 8 (by decide), near 0 4 (by decide), near 4 2 (by decide), near 0xC0 8 (by decide), he, dig, rsv, decide_true, Bool.and_true]
  decide +kernel
theorem wit_frame_good : (goodS (frameDigest goodBytes)).frameGood 0 = true ∧ tget (goodS (frameDigest goodBytes)).frames 0 = some { frameF 2 with cmd := 1 } := by
  have hd := digest_length goodBytes
  refine ⟨good_passes _ hd (frame_digest_eq _ _ (by simp only [goodImage, goodBytes, List.length_map]) fun i hx hy hi => ?_), rfl⟩
  simp only [goodImage, goodBytes, List.getElem_map, List.getElem_range]
  exact good_other _ hd _ (by omega)

theorem bad_magic {s : State} {f : Frame} {bs : List Byte} (hf : tget s.frames 0 = some f)
    (hr : s.virtRead 0 (s.frameVa 0 0) 0x22000 = some bs) (hm : atWord bs 0 4 ≠ 0x4D52465A) : s.frameGood 0 = false := by
  unfold State.frameGood
  rw [hf]
  simp only [show BitVec.ofNat 2 (0 / 4096) = 0 from rfl, show 0 % 4096 = 0 from rfl, hr, hm, decide_false, Bool.false_and]
theorem magic_word (g : Nat → Byte) (h : ofBytes ((List.range 4).map (fun i => g (0 + i))) ≠ 0x4D52465A) (n : Nat) (hn : 4 ≤ n) :
    atWord ((List.range n).map g) 0 4 ≠ 0x4D52465A := by
  unfold atWord
  rw [cut _ _ _ (by omega)]
  exact h
/-- RESUME written beside a header that is not a frame's. -/
theorem wit_frame_bad : (cmdOf 2 1).frameGood 0 = false := by
  have h : TwoPages (cmdOf 2 1) := cmd_two 1 (by decide)
  have hv : (cmdOf 2 1).frameVa 0 0 = 0x2000000 := by decide +kernel
  have hr := virtRead_two h 0x22000 0x2000000 (by decide)
  rw [← hv] at hr
  exact bad_magic (f := { frameF 2 with cmd := 1 }) rfl hr (magic_word _ (by decide +kernel) 0x22000 (by decide))
theorem wit_frame_launch : (cmdOf 2 1).launch? 0 = some saveL ∧ (frameF 2).launch = 0 ∧ (frameF 2).cl / 4 ∈ saveL.usable ∧
    saveL.basin? (bargeEntry (frameF 2).ctx.barge) = some ⟨0x100000000, [(0, [])]⟩ ∧ Roomy (cmdOf 2 1) (logSlot (cmdOf 2 1) 0) ∧ (goodS []).launches = (cmdOf 2 1).launches := by
  unfold Roomy; decide +kernel
/-- A frame at the head of a berth of die 0, the cluster with nothing in it. -/
def frameQ : Queued := { demoQ with frame := some 0, head := true }
def restoreL : Launch := { demoL with basins := [⟨0x100000000, [(0, [frameQ])]⟩] }
def restoreS : State := { saveS demoC with ctxs := [], cores := [], launches := [restoreL], frames := [(0, frameF 1)], now := 0xF0000 }
theorem wit_restore : restoreS.candidate 0 = some (restoreL, frameQ) ∧ frameQ.frame = some (4096 * 0 + 0) ∧ restoreS.canTake 0 frameQ = true ∧
    restoreS.beaten 0 restoreL frameQ = false ∧ restoreS.freeSlots 0 = 0 :: [1, 2, 3, 4, 5, 6, 7] ∧
    (frameF 1).cores.length = 8 * ((restoreS.freeBays 0).take (frameF 1).ctx.bayList.length).length ∧ (frameF 1).ctx.slots = [] ∧ (frameF 1).held = [] ∧
    restoreS.launch? 0 = some restoreL ∧ restoreS.watches = [] ∧ restoreS.ctxs = [] := by decide +kernel
theorem wit_restore_read : ∃ image, restoreS.virtRead 0 (restoreS.frameVa 0 0) (0x22000 + 8 * poolSize (restoreS.partition (frameF 1).ctx)) = some image := by
  have h2 : TwoPages restoreS := ⟨rfl, rfl, by decide +kernel, rfl, rfl, by decide +kernel, by decide +kernel, by decide +kernel, by decide +kernel, by decide +kernel⟩
  have hv : restoreS.frameVa 0 0 = 0x1000000000 := by decide +kernel
  have hp : poolSize (restoreS.partition (frameF 1).ctx) = 12288 := by decide +kernel
  rw [hv, hp]
  exact ⟨_, virtRead_two h2 _ _ (by decide)⟩

/-! ### The clauses that each instruction's less common places need -/

/-- SystemRegistersReadAndWrite: a slot that was resolved twice. -/
def twiceC : Ctx := slotC { errSlot with dres := true }
theorem wit_sysrd_twice : Ready (withC twiceC) (.sysrd 4 (lit32 0x20)) 0 0 twiceC ∧ (withC twiceC).launchOf twiceC = some demoL ∧ (lit32 0x20).val = 0x020 ∧
    (∃ f ∈ twiceC.slots, f.2.dres = true) ∧ (∀ f ∈ demoC.slots, f.2.dres = false) ∧ Running twiceC :=
  ⟨ready_of _ rfl rfl demo_count rfl, rfl, rfl, ⟨_, List.mem_singleton.mpr rfl, rfl⟩, (fun _ h => by cases h), rfl⟩

/-- CaptureStretchesAndEntries: a store with room, and one of 256 entries; a hole that stands twice; a stretch that is full, and an empty one. -/
def holeLit : GLit := ⟨.w64, 0x9000⟩
def holeC : Ctx := { demoC with stretch := some ⟨7, 0, [], [(1, 0, 0)]⟩ }
def fullE : State := { demo with clusters := [(0, { demoK with capt := (List.range 256).map (fun j => (2 ^ 20 + j, demoE)) })] }
theorem wit_capture_room : captHeld (withC fullStretch) 0 < 2048 ∧ (demo.cluster 0).capt.length + (demo.stretches 0).length < 256 ∧
    tget (fullE.cluster 0).capt (captKey demoC.launch 7) = none ∧ 256 ≤ (fullE.cluster 0).capt.length + (fullE.stretches 0).length ∧
    ¬ (([(1, 0, 0)] : List (BitVec 3 × Nat × BitVec 3)).map (fun x => x.1) ++ (emitSlots holeLit.val).map (fun x => x.1)).Nodup := by
  refine ⟨?_, by decide +kernel, by decide +kernel, by decide +kernel, by decide +kernel⟩
  unfold captHeld; decide +kernel
theorem wit_capture_traps (i : Instr) : (∀ c ∈ [holeC, openC [], openC (List.replicate 8192 0)], Ready (withC c) i 0 0 c ∧ Running c) ∧ Ready fullE i 0 0 demoC ∧
    8192 < (List.replicate 8192 (0 : W64)).length + (0 : BitVec 6).toNat + 1 ∧ (7 : BitVec 8) ≠ (lit32 8).val.setWidth 8 := by
  refine ⟨fun c hc => ?_, ready_of i rfl rfl demo_count rfl, by rw [List.length_replicate]; decide, by decide⟩
  rcases List.mem_cons.mp hc with rfl | hc
  · exact ⟨ready_of i rfl rfl demo_count rfl, rfl⟩
  rcases List.mem_cons.mp hc with rfl | hc
  · exact ⟨ready_of i rfl rfl demo_count rfl, rfl⟩
  cases List.mem_singleton.mp hc; exact ⟨ready_of i rfl rfl demo_count rfl, rfl⟩

/-- VotesAndStreamWaits: an SWAIT that waits for its streams, with words of a later operation unwritten. -/
theorem wit_swait_started : Ready (withC { fullC with wait := .counters 1 0 }) (.swait (lit32 1)) 0 0 { fullC with wait := .counters 1 0 } ∧
    ({ fullC with wait := .counters 1 0 } : Ctx).wait.started = true ∧ (withC { fullC with wait := .counters 1 0 }).allStarted 0 0 = false :=
  ⟨ready_of _ rfl rfl demo_count rfl, rfl, by decide +kernel⟩

/-- FlightFaults: each of its reasons. -/
def fullF : State := { withC (initC 0x40000 0x800F) with flights := (List.range 32).map (fun j => { demoF .free with launch := 1 + j }) }
def initF (st : Chamber) (a g : W72) : State := { withC (initC a g) with flights := [demoF st] }
theorem wit_flight_shapes : slice (0x0 : W72) 31 8 = 0 ∧ slice (0x80F0 : W72) 7 4 ≠ 0 ∧
    (slice (0x800F : W72) 71 32 = 0 ∧ slice (0x800F : W72) 7 4 = 0 ∧ slice (0x800F : W72) 31 8 ≠ 0 ∧ slice (0x800F : W72) 31 8 % 128 = 0) ∧
    (0x40001 : W72).toNat % 128 ≠ 0 ∧ (0x40000 : W72).toNat % 128 = 0 ∧ slice (0x10000000 : W72) 31 28 ≠ 0 ∧
    (withC (initC 0x1FC0000 0x800F)).core? 0 (slice (0x1FC0000 : W72) 24 18) = none ∧ fullF.flight? 0 demoC.launch 15 = none ∧
    32 ≤ (fullF.flights.filter (fun z => z.cl = 0)).length ∧
    (∀ st ∈ [Chamber.filling, .full, .draining], ∃ z, (initF st 0x40000 0x800F).flight? 0 0 2 = some z ∧ ∃ e ∈ z.cst, e ≠ .free) := by
  refine ⟨by decide, by decide, by decide, by decide, by decide, by decide, by decide +kernel, by decide +kernel, by decide +kernel, fun st h => ⟨demoF st, rfl, st, List.mem_cons_self .., ?_⟩⟩
  have : st = .filling ∨ st = .full ∨ st = .draining := by simpa using h
  rcases this with rfl | rfl | rfl <;> decide
theorem wit_flight_shapes_ready (a g : W72) (st : Chamber) (i : Instr) : Ready (withC (initC a g)) i 0 0 (initC a g) ∧ Ready (initF st a g) i 0 0 (initC a g) ∧
    Ready fullF i 0 0 (initC 0x40000 0x800F) ∧ ∀ z, (initF st a g).flight? 0 (initC a g).launch 2 = some z → z.away = false :=
  ⟨ready_of i rfl rfl demo_count rfl, ready_of i rfl rfl demo_count rfl, ready_of i rfl rfl demo_count rfl, fun z h => by cases h; rfl⟩
/-- A chamber held as the step needs, one past the last, one whose step is deferred; and a slot with a step, and one with a link. -/
def deferF (st : Chamber) (x : Slot) : State := { withC (stepC 1 x) with flights := [{ demoF .free with cst := [st, st], defer := 2 }] }
theorem wit_flight_steps : ∀ st ∈ [Chamber.filling, .draining], (1 < 2 ∧ ({ demoF .free with cst := [st, st] } : Flight).st 1 = st ∧ (demoF .free).hold.getD 1 0 = 0) ∧
    ¬ (slice ((stepC 2 Slot.reset).gv 4) 63 0 < 2) ∧ ({ demoF .free with defer := 2 } : Flight).defer.getLsbD 1 = true ∧
    ({ pending .none with defer := some (2, 0) } : Slot).defer.isSome = true ∧ ({ pending .none with link := some (0x80, dev) } : Slot).link.isSome = true ∧
    (deferF st Slot.reset).flight? 0 0 2 = some { demoF .free with cst := [st, st], defer := 2 } ∧ (deferF st Slot.reset).stream 0 0 < 1023 ∧
    (deferF st Slot.reset).predsDone 0 0 0 .gen ⟨0, 1, 0⟩ 0 .cluster true = true ∧ (stepF st 2 Slot.reset).predsDone 0 0 0 .gen ⟨0, 1, 0⟩ 0 .cluster true = true := by
  decide +kernel
theorem wit_flight_steps_ready (st : Chamber) (x : Slot) (i : Instr) : Ready (deferF st x) i 0 0 (stepC 1 x) := ready_of i rfl rfl demo_count rfl

/-- MemoryWordsPrefetchWaitAndFault: sixteen ways take the 64 lines that the lanes name, and no bay has anything to write back. -/
def prefLines : List Nat := (List.range 16).flatMap (fun l => (List.range 4).map (fun j => (0x4000 + 16 * l) / 128 * 128 + 128 * j))
theorem wit_prefetch_room : (∀ key, (tgetD (withX memX).l2 key []).length + (prefLines.filter (fun p => l2Key p = key)).length ≤ 16) ∧
    (∀ p ∈ (withX memX).bayLines, p.1 / 128 = 0 → ∀ y ∈ p.2, y.dirty = 0) := by
  refine ⟨fun key => ?_, fun p h => by cases h⟩
  have h : ∀ p ∈ prefLines, (prefLines.filter (fun q => l2Key q = l2Key p)).length ≤ 16 := by decide +kernel
  rw [show tgetD (withX memX).l2 key [] = [] from rfl, List.length_nil, Nat.zero_add]
  by_cases hk : ∃ p ∈ prefLines, l2Key p = key
  · obtain ⟨p, hp, rfl⟩ := hk; exact h p hp
  · rw [List.filter_eq_nil_iff.mpr fun p hp => by simpa using fun e => hk ⟨p, hp, e⟩]; decide

/-- FloatingPointWordsRoundOnce: numbers of the table's cases: an integer, half of an odd number, powers of two; a positive code. -/
theorem wit_special : (Exact.fin 2 1).sound ∧ (Exact.fin 2 1).rat = some 2 ∧ (Exact.fin (-1) 2).rat = some (-1 / 2) ∧ (2 : Rat) = (2 : Int) ∧
    (2 : Rat) * (-1 / 2) = 2 * (-1 : Int) + 1 ∧ (1 / 2 : Rat) = (2 : Rat) ^ (-1 : Int) ∧ (1 : Rat) = (2 : Rat) ^ (0 : Int) ∧ (2 : Rat) ≠ 0 ∧
    (∀ f ∈ [Fmt.fp32, .fp16, .bf16], (binary f).isSome = true) ∧ Fmt.l6 ≠ .untyped ∧ (valueOf .fp16 0x4400).rat = some 4 := by
  refine ⟨⟨by decide, by decide⟩, by simp [Exact.rat], by simp [Exact.rat], by norm_num, by norm_num, by norm_num, by norm_num, by norm_num, by decide, by decide, ?_⟩
  rw [show valueOf .fp16 0x4400 = .fin 1024 256 from by decide +kernel]; simp only [Exact.rat]; norm_num

/-! ### The clauses that an event's less common places need -/

/-- PortsFillsWalksAndTollGoOn: an entry that another cluster holds; a drop of translations that has nothing left to wait for; the cycle in
which a cluster sends its counts. -/
def awayC : Ctx := { demoC with queue := [{ blankOp with kind := .replay, id := 7, entryCl := 1 }] }
def awayS : State := { withC awayC with clusters := [(0, { demoK with ports := [(0, 0)] }), (1, { Cluster.reset 1 with capt := [(7, demoE)] })] }
theorem wit_readback_away : awayC.queue = [{ blankOp with kind := .replay, id := 7, entryCl := 1, fetched := false }] ∧ (1 : Nat) ≠ 0 ∧
    tget (awayS.cluster 1).capt (captKey awayC.launch 7) = some demoE ∧ (∃ p ∈ (awayS.cluster 0).ports, p.2 = 0) := by decide +kernel
def droppingS : State := { demo with accs := [{ demoA with done := true }], regs := { demo.regs with tlbiBusy := true, tlbiWait := [9] } }
theorem wit_tlb_done : droppingS.regs.tlbiBusy = true ∧ (∀ a ∈ droppingS.accs, a.id ∈ droppingS.regs.tlbiWait → a.done = true ∨ a.bad = true) := by decide +kernel
theorem wit_toll_sends : slice ({ demoK with cycle := 0xFFFF } : Cluster).cycle 15 0 = 0xFFFF ∧ slice ({ demoK with cycle := 0xFFFF } : Cluster).cycle 1 0 ≠ 0 ∧
    slice (({ demoK with cycle := 0xFFFF } : Cluster).cycle + 1) 1 0 = 0 := by decide

/-! AccessesArePerformedAndAcknowledged: every kind of access, at its home, in a bay and in a scratchpad -/

/-- The conditions of Due and Handy, by evaluation. -/
def handy (s : State) (a : Access) (p : Part) : Bool :=
  if isSp p.pa then (tget s.cores (spCore p.pa)).isSome && decide (spOff p.pa + p.size ≤ 2 ^ 20)
  else decide (0 < p.size ∧ p.pa % 128 + p.size ≤ 128) && match throughBay a p.pa with
    | some b => (s.bayLine a.cl b (lineOf p.pa)).isSome && decide ((dropLine (s.baySet a.cl b (lineOf p.pa)) (lineOf p.pa)).length < 8)
    | none => (if (homeOf p.pa).cached then decide ((dropLine (s.l2Set (lineOf p.pa)) (lineOf p.pa)).length < 16) && (s.l2Line (lineOf p.pa)).isSome &&
          decide (effScope p.pa a.scope ≠ .system) else (s.l2Line (lineOf p.pa)).isNone) && Memory.wf s.mem &&
        (match bayOf a.agent with | some b => (s.bayLine a.cl b (lineOf p.pa)).isNone | none => true)

theorem handy_of {s : State} {a : Access} {p : Part} (h : handy s a p = true) : Handy s a p := by
  unfold handy at h
  unfold Handy InScratch
  split at h
  · rename_i hi
    rw [if_pos hi]
    simp only [Bool.and_eq_true, decide_eq_true_eq] at h
    exact ⟨hi, h.1, h.2⟩
  · rename_i hi
    rw [if_neg hi]
    rw [Bool.and_eq_true, decide_eq_true_eq] at h
    refine ⟨h.1, ?_⟩
    have h := h.2
    split
    · rename_i b hb
      simp only [hb, Bool.and_eq_true, decide_eq_true_eq] at h
      exact ⟨fun e => by rw [e] at h; simp at h, h.2⟩
    · rename_i hb
      simp only [hb, Bool.and_eq_true] at h
      obtain ⟨⟨h1, h2⟩, h3⟩ := h
      refine ⟨⟨?_, h2⟩, fun hc => ?_, fun b e => ?_⟩
      · split
        · rename_i hc; rw [if_pos hc] at h1; simp only [Bool.and_eq_true, decide_eq_true_eq] at h1; exact h1.1.1
        · rename_i hc; rw [if_neg hc] at h1; exact Option.isNone_iff_eq_none.mp h1
      · rw [if_pos hc] at h1; simp only [Bool.and_eq_true, decide_eq_true_eq] at h1
        exact ⟨fun e => by rw [e] at h1; simp at h1, h1.2⟩
      · rw [e] at h3; exact Option.isNone_iff_eq_none.mp h3

def due (s : State) (a : Access) : Bool :=
  decide (s.accs = [a]) && s.cmds.isEmpty && s.canPerform a [] && a.parts.all (fun p => !p.done && !p.lost) &&
    a.parts.all (fun p => decide (s.cutCarry a.uid a.agent a.key a.pm (effScope p.pa a.scope) p.strong = none))
def met (s : State) (a : Access) : Bool :=
  due s a && a.parts.all (fun p => (isSp p.pa || (!s.badAt p.pa p.size && s.linkOpen p.pa)) && handy (setOut s a) a p)
theorem due_of {s : State} {a : Access} (h : due s a = true) : Due s a := by
  simp only [due, Bool.and_eq_true, decide_eq_true_eq, List.all_eq_true, Bool.not_eq_true', List.isEmpty_iff] at h
  obtain ⟨⟨⟨⟨h1, h2⟩, h3⟩, h4⟩, h5⟩ := h
  refine ⟨⟨by rw [h1]; exact List.mem_singleton.mpr rfl, fun y hy _ => ?_⟩, fun y hy => ?_, h3, h4, h5⟩
  · rw [h1] at hy; exact List.mem_singleton.mp hy
  · rw [h2] at hy; cases hy
theorem met_of {s : State} {a : Access} (h : met s a = true) : Due s a ∧ ∀ p ∈ a.parts, (isSp p.pa = false → Sound s p.pa p.size) ∧ Handy (setOut s a) a p := by
  simp only [met, Bool.and_eq_true, List.all_eq_true, Bool.or_eq_true, Bool.not_eq_true'] at h
  exact ⟨due_of h.1, fun p hp => ⟨fun hs => by rcases (h.2 p hp).1 with e | e; rw [hs] at e; cases e; exact e, handy_of (h.2 p hp).2⟩⟩

/-- A part of n bytes at pa for lane `lane` and register `reg`; an access of some parts; a machine with line 0 in its L2, and in bay 0's cache. -/
def partAt (lane reg pa n : Nat) : Part :=
  { lane := lane, reg := reg, elem := 0, va := BitVec.ofNat 72 pa, pa := pa, size := n, ord := 1, hint := .normal, data := 0xA5, cmp := 0, done := false, acked := false, lost := false }
def accOf (op : AccOp) (sc : Scope) (ag : Agent) (dest : Dest) (ps : List Part) : Access := { demoA with op := op, scope := sc, agent := ag, dest := dest, parts := ps }
def hotS (a : Access) : State := (State.l2Fill { accS a with cores := [(0, tagC .i32)] } 0 .normal)
def bayHotS (a : Access) : State := { hotS a with bayLines := [(bayKey 0 0 0, [⟨0, 0, 0, .normal⟩])] }
def flagPa : Nat := 0x40000000040
/-- The generator: a load, each atomic operation, and a store, of a cached line, of the flag window, and of the first and last bytes of a line. -/
theorem wit_generator_accesses : ∀ op ∈ [AccOp.load, .atom .add, .cas, .fadd, .fmin, .fmax], ∀ pa ∈ [0, 0x7C],
    met (hotS (accOf op .device .gen (.gen .n32 4) [partAt 0 0 pa 4])) (accOf op .device .gen (.gen .n32 4) [partAt 0 0 pa 4]) = true ∧
    (setOut (hotS (accOf op .device .gen (.gen .n32 4) [partAt 0 0 pa 4])) (accOf op .device .gen (.gen .n32 4) [partAt 0 0 pa 4])).ctx? 0 0 =
      some { demoC with gt := [(4, .access 9)] } ∧ tget ({ demoC with gt := [(4, .access 9)] } : Ctx).gt 4 = some (.access 9) := by decide +kernel
theorem wit_generator_flag : met (hotS (accOf .load .device .gen (.gen .n64 4) [partAt 0 0 flagPa 8])) (accOf .load .device .gen (.gen .n64 4) [partAt 0 0 flagPa 8]) = true ∧
    effScope flagPa .device = .system := by decide +kernel
/-- Stores: two elements of a line, the same bytes twice, an element of a scratchpad, and one of a line that the bay holds. -/
def storesOf : List (List Part) := [[partAt 0 0 0 4, partAt 15 0 0x7C 4], [partAt 0 0 0 4, partAt 1 0 0 4], [partAt 0 0 (spAddr 0 0xFFC) 4], [partAt 0 0 flagPa 4]]
theorem wit_stores : (∀ ps ∈ storesOf, met (hotS (accOf .store .device (.core 0) .none ps)) (accOf .store .device (.core 0) .none ps) = true) ∧
    met (bayHotS (accOf .store .core (.core 0) .none [partAt 0 0 0x7C 4])) (accOf .store .core (.core 0) .none [partAt 0 0 0x7C 4]) = true ∧
    throughBay (accOf .store .core (.core 0) .none [partAt 0 0 0x7C 4]) 0x7C = some 0 := by decide +kernel
/-- Lane loads and lane atomics: of two lanes, of a scratchpad, of the bay's line, and of one address for both lanes. -/
def lanesOf : List (List Part) := [[partAt 0 62 0 4, partAt 15 62 0x7C 4], [partAt 0 62 (spAddr 0 0) 4, partAt 15 62 (spAddr 0 0xFFC) 4], [partAt 0 62 0 4, partAt 15 62 0 4]]
theorem wit_lane_accesses : (∀ ps ∈ lanesOf, ∀ op ∈ [AccOp.load, .atom .add, .cas, .fadd],
      met (hotS (accOf op .device (.core 0) (.lanes .i32 false) ps)) (accOf op .device (.core 0) (.lanes .i32 false) ps) = true ∧
      (setOut (hotS (accOf op .device (.core 0) (.lanes .i32 false) ps)) (accOf op .device (.core 0) (.lanes .i32 false) ps)).core? 0 0 = some (tagC .i32)) ∧
    met (bayHotS (accOf .load .lane (.core 0) (.lanes .i32 true) [partAt 0 62 0x7C 4])) (accOf .load .lane (.core 0) (.lanes .i32 true) [partAt 0 62 0x7C 4]) = true := by
  decide +kernel
theorem pair_at {p q x y : Part} {i j : Nat} (hi : [p, q][i]? = some x) (hj : [p, q][j]? = some y) (h : i < j) : x = p ∧ y = q := by
  have hj' : j < 2 := (List.getElem?_eq_some_iff.mp hj).1
  obtain ⟨rfl, rfl⟩ : i = 0 ∧ j = 1 := by omega
  exact ⟨(Option.some.inj hi).symm, (Option.some.inj hj).symm⟩
theorem wit_lane_apart (op : AccOp) (u v : Nat) : FillsApart (accOf op .device (.core 0) (.lanes .i32 false) [partAt 0 62 u 4, partAt 15 62 v 4]) .i32 := by
  refine ⟨fun p hp => ?_, fun i j p q hi hj h => ?_⟩
  · rcases List.mem_cons.mp hp with rfl | hp
    · exact ⟨(by decide : (0 : Nat) < 16), (by decide : 8 * 4 = Fmt.width .i32)⟩
    · cases List.mem_singleton.mp hp; exact ⟨(by decide : (15 : Nat) < 16), (by decide : 8 * 4 = Fmt.width .i32)⟩
  · obtain ⟨rfl, rfl⟩ := pair_at hi hj h; exact .inl (by decide : (0 : Nat) ≠ 15)
theorem wit_modifies : (∀ op : GAtom, Modifies (accOf (.atom op) .device .gen (.gen .n32 4) [partAt 0 0 0 4])) ∧ Modifies (accOf .cas .device (.core 0) (.lanes .i32 false) [partAt 0 62 0 4, partAt 15 62 0 4]) ∧
    Modifies (accOf .fadd .device (.core 0) (.lanes .fp32 false) [partAt 0 62 0 4, partAt 15 62 0x7C 4]) := by
  refine ⟨fun op => ⟨.inl ⟨op, rfl⟩, ?_⟩, ⟨.inr (.inl rfl), by decide⟩, ⟨.inr (.inr ⟨by decide, by decide⟩), by decide⟩⟩
  intro p hp q hq; cases List.mem_singleton.mp hp; cases List.mem_singleton.mp hq; exact .inl ⟨rfl, rfl⟩
/-- Copies of sixteen bytes to and from the first and the last places of a scratchpad. -/
def copyOf (op : AccOp) : Access := accOf op .device (.core 0) .none [partAt 0 (spAddr 0 0) 0 16, partAt 15 (spAddr 0 0xFF0) 0x70 16]
theorem wit_copies : (∀ op ∈ [AccOp.ldcp, .stcp], met (hotS (copyOf op)) (copyOf op) = true ∧ (∀ p ∈ (copyOf op).parts, isSp p.pa = false ∧ p.size ≤ 16 ∧
      isSp p.reg = true ∧ (tget (setOut (hotS (copyOf op)) (copyOf op)).cores (spCore p.reg)).isSome = true ∧ spOff p.reg + p.size ≤ 2 ^ 20)) ∧
    spAddr 0 0 + 16 ≤ spAddr 0 0xFF0 ∧ (0 : Nat) + 16 ≤ 0x70 := by decide +kernel
/-- One part of two; a part whose granule is bad, of the generator and of a core; one that is performed and not yet acknowledged. -/
def loadOf : Access := accOf .load .device (.core 0) (.lanes .i32 false) [partAt 0 62 0 4, partAt 15 62 0x7C 4]
theorem wit_access_parts : due (hotS loadOf) loadOf = true ∧ (hotS loadOf).canPerform loadOf [1] = true ∧ loadOf.pm = 0 ∧ (hotS loadOf).narrow = [] ∧
    (∀ p ∈ loadOf.parts, handy (hotS loadOf) loadOf p = true ∧ p.size ≤ 16 ∧ (hotS loadOf).badAt p.pa p.size = false ∧ (hotS loadOf).linkOpen p.pa = true) ∧
    (0 < loadOf.parts.length ∧ 0 ∉ [1]) := by decide +kernel
def badOf (a : Access) : State := { hotS a with badGranules := [0] }
theorem wit_access_bad : ∀ a ∈ [accOf .load .device .gen (.gen .n64 4) [partAt 0 0 24 8], accOf .load .device (.core 0) (.lanes .i32 false) [partAt 0 62 28 4]],
    due (badOf a) a = true ∧ ∀ p ∈ a.parts, isSp p.pa = false ∧ (badOf a).badAt p.pa p.size = true ∧ (badOf a).linkOpen p.pa = true ∧ (badOf a).badAt 32 4 = false := by
  decide +kernel
theorem wit_acknowledgement : (∃ p ∈ ({ loadOf with parts := [{ partAt 0 62 0 4 with done := true }, partAt 15 62 0x7C 4] } : Access).parts, p.done = true ∧ p.acked = false) ∧
    loadOf.bad = false ∧ loadOf.done = false := ⟨⟨_, List.mem_cons_self .., rfl, rfl⟩, rfl, rfl⟩

/-! EnginesBeginStepAndAnswer: what the units of a command read and write -/

/-- Where an engine of cluster n finds an address, and what it reads there, by evaluation. -/
def placeOf (s : State) (n : Nat) (space : BitVec 2) (va : W72) (write : Bool) : Option Place :=
  if !s.spaceOn space then none else match tlbFind (s.cluster n).tlb space va with
    | some e => (match s.placeIn e va write with | .ok q => some q | .error _ => none)
    | none => none
theorem placeOf_mapped {s : State} {n : Nat} {space : BitVec 2} {va : W72} {write : Bool} {q : Place} (h : placeOf s n space va write = some q) :
    Mapped s n space va write q := by
  unfold placeOf at h
  split at h
  · cases h
  · rename_i ho
    refine ⟨by simpa using ho, ?_⟩
    split at h
    · rename_i e he
      refine ⟨e, he, ?_⟩
      split at h
      · rename_i p hp; rw [hp, Option.some.inj h]
      · cases h
    · cases h
theorem placeOf_only {s : State} {n : Nat} {space : BitVec 2} {va : W72} {write : Bool} {q r : Place} (h : placeOf s n space va write = some q)
    (hr : Mapped s n space va write r) : r = q := by
  obtain ⟨_, e, he, hp⟩ := placeOf_mapped h
  obtain ⟨_, f, hf, hq⟩ := hr
  rw [he] at hf; cases Option.some.inj hf; rw [hp] at hq; cases hq; rfl
def engAt (s : State) (y : Cmd) (q : Place) (n : Nat) : Bool :=
  !s.badAt q.pa n && s.linkOpen q.pa && decide (0 < n ∧ q.pa % 128 + n ≤ 128) && Memory.wf s.mem && decide (effScope q.pa y.x.ann.sc = y.x.ann.sc) &&
    (if (homeOf q.pa).cached then decide ((dropLine (s.l2Set (lineOf q.pa)) (lineOf q.pa)).length < 16) && (s.l2Line (lineOf q.pa)).isSome &&
      decide (y.x.ann.sc ≠ .system) else (s.l2Line (lineOf q.pa)).isNone)
theorem engAt_of {s : State} {y : Cmd} {q : Place} {n : Nat} (h : engAt s y q n = true) : EngineAt s y q n := by
  simp only [engAt, Bool.and_eq_true, decide_eq_true_eq, Bool.not_eq_true'] at h
  obtain ⟨⟨⟨⟨⟨h1, h2⟩, h3⟩, h4⟩, h5⟩, h6⟩ := h
  refine ⟨⟨h1, h2⟩, h3, ⟨?_, h4⟩, fun hc => ?_, h5⟩
  · split
    · rename_i hc; rw [if_pos hc] at h6; simp only [Bool.and_eq_true, decide_eq_true_eq] at h6; exact h6.1.1
    · rename_i hc; rw [if_neg hc] at h6; exact Option.isNone_iff_eq_none.mp h6
  · rw [if_pos hc] at h6; simp only [Bool.and_eq_true, decide_eq_true_eq] at h6
    exact ⟨fun e => by rw [e] at h6; simp at h6, h6.2⟩
def engGets (s : State) (y : Cmd) (n : Nat) (va : W72) (size : Nat) : Option Nat :=
  match placeOf s n (s.cmdRing y) va false with
  | some q => if engAt s y q size then some (s.homeRead q.pa size) else none
  | none => none
theorem engGets_of {s : State} {y : Cmd} {n : Nat} {va : W72} {size x : Nat} (h : engGets s y n va size = some x) : EngineReads s y n va size x := by
  unfold engGets at h
  split at h
  · rename_i q hq
    split at h
    · rename_i he; exact ⟨q, placeOf_mapped hq, engAt_of he, (Option.some.inj h).symm⟩
    · cases h
  · cases h
def engElement (s : State) (y : Cmd) (n : Nat) (d : Desc) (own : List (Nat × W64 × W64)) (x : List Int) : Option Elt :=
  match if d.valid x then d.place own x else none with
  | none => some .pad
  | some (_, va) =>
    if d.brick then
      let ws : List W64 := (List.range (d.bsize / 8)).map (fun i => BitVec.ofNat 64 ((engGets s y n (va + BitVec.ofNat 72 (8 * i)) 8).getD 0))
      if (List.range (d.bsize / 8)).all (fun i => engGets s y n (va + BitVec.ofNat 72 (8 * i)) 8 = some (wordAt ws i).toNat) then
        some (.code (brickCode d.format (ofWords ws) (d.inBrick x)) (brickScale d.format (ofWords ws) (d.inBrick x))) else none
    else (engGets s y n va (Fmt.bytes d.format)).map (fun z => .code z 0x7F)
theorem engElement_of {s : State} {y : Cmd} {n : Nat} {d : Desc} {own : List (Nat × W64 × W64)} {x : List Int} {e : Elt}
    (h : engElement s y n d own x = some e) : ElementAt s y n d own x e := by
  unfold engElement at h
  unfold ElementAt
  split
  · rename_i hp; rw [hp] at h; exact (Option.some.inj h).symm
  · rename_i b va hp
    rw [hp] at h
    simp only at h ⊢
    split
    · rename_i hb
      rw [if_pos hb] at h
      split at h
      · rename_i hw
        refine ⟨_, by rw [List.length_map, List.length_range], fun i w hi => ?_, (Option.some.inj h).symm⟩
        have hl := (List.getElem?_eq_some_iff.mp hi).1
        rw [List.length_map, List.length_range] at hl
        have := of_decide_eq_true (List.all_eq_true.mp hw i (List.mem_range.mpr hl))
        refine engGets_of (this.trans ?_)
        unfold wordAt
        rw [List.getD, hi]; rfl
      · cases h
    · rename_i hb
      rw [if_neg hb] at h
      obtain ⟨z, hz, he⟩ := Option.map_eq_some_iff.mp h
      exact ⟨z, engGets_of hz, he.symm⟩
/-- The elements of every block of a reduction; and the element that a command takes for a position. -/
def engParts (s : State) (y : Cmd) (n : Nat) (loc : List Int) : Option (List Elt) :=
  let at_ (b : Nat) : List Int := dims.map (fun i => loc.getD i 0 + ((posOf (dims.map y.src.nbI) b).getD i 0 : Int) * (y.src.blkI i : Int))
  let es := (List.range y.src.blocks).map (fun b => (engElement s y n y.src y.oa (at_ b)).getD .none)
  if (List.range y.src.blocks).all (fun b => engElement s y n y.src y.oa (at_ b) = some (es.getD b .none)) then some es else none
def engTakes (s : State) (y : Cmd) (n o : Nat) : Option Elt :=
  let w := posOf y.dst.cnt o
  let reduced (op : RedOp) (loc : List Int) : Option Elt := (engParts s y n loc).map (fun es => match es.map y.src.value with
    | [] => .pad
    | v :: vs => .exact (vs.foldl (reduceStep op y.src.format y.x.rnd) v))
  match y.op with
  | .reduce op => reduced op (w.map (fun (i : Nat) => (i : Int)))
  | .allred op => reduced op (y.dst.local_ (y.dst.coord w))
  | _ => (y.sourceAt w).bind (engElement s y n y.src y.oa)
theorem engParts_of {s : State} {y : Cmd} {n : Nat} {loc : List Int} {es : List Elt} (h : engParts s y n loc = some es) :
    es.length = y.src.blocks ∧ ∀ (b : Nat) z, es[b]? = some z → ElementAt s y n y.src y.oa
      (dims.map (fun i => loc.getD i 0 + ((posOf (dims.map y.src.nbI) b).getD i 0 : Int) * (y.src.blkI i : Int))) z := by
  unfold engParts at h
  simp only at h
  split at h
  · rename_i ha
    cases Option.some.inj h
    refine ⟨by rw [List.length_map, List.length_range], fun b z hz => ?_⟩
    have hl := (List.getElem?_eq_some_iff.mp hz).1
    rw [List.length_map, List.length_range] at hl
    have := of_decide_eq_true (List.all_eq_true.mp ha b (List.mem_range.mpr hl))
    refine engElement_of (this.trans ?_)
    rw [List.getD, hz]; rfl
  · cases h
theorem engTakes_of {s : State} {y : Cmd} {n o : Nat} {e : Elt} (h : engTakes s y n o = some e) : SourceAt s y n o e := by
  unfold engTakes at h
  unfold SourceAt
  cases ho : y.op <;> simp only [ho] at h ⊢
  case reduce | allred =>
    obtain ⟨es, he, hv⟩ := Option.map_eq_some_iff.mp h
    obtain ⟨h1, h2⟩ := engParts_of he
    refine ⟨es, h1, h2, ?_⟩
    generalize es.map y.src.value = vs at hv
    cases vs <;> exact hv.symm
  all_goals
    obtain ⟨x, hx, he⟩ := Option.bind_eq_some_iff.mp h
    exact ⟨x, hx, engElement_of he⟩

/-- A unit is due, and its writes have places of their own. -/
def elsOf (s : State) (y : Cmd) (p e : Nat) : Elt := (engTakes s y (y.engine (y.targetBlock p)) (p + e)).getD .none
def unitDue (s : State) (y : Cmd) (o : Nat) : Bool :=
  decide (s.cmds = [y]) && y.begun && !y.ended && !(y.collective && s.ownersGone y) && movesTensor y.op && decide (y.plan[y.pos]? = some o) &&
    (y.group o).all (fun p => y.units.contains p && y.units.all (fun r => decide ((y.target r).map Prod.snd ≠ (y.target p).map Prod.snd) || r = p) &&
      (List.range y.dst.unitLen).any (fun e => y.live p e) &&
      (List.range y.dst.unitLen).all (fun e => !y.live p e || (y.moved (p + e) && (engTakes s y (y.engine (y.targetBlock p)) (p + e)).isSome)))
theorem works_of {s : State} {y : Cmd} (h1 : s.cmds = [y]) (h2 : y.begun = true ∧ y.ended = false) (h3 : (y.collective && s.ownersGone y) = false) :
    Works s y :=
  ⟨⟨by rw [h1]; exact List.mem_singleton.mpr rfl, fun z hz _ => by rw [h1] at hz; exact List.mem_singleton.mp hz⟩, h2,
   fun hc => by rw [hc, Bool.true_and] at h3; exact h3⟩
theorem unitDue_of {s : State} {y : Cmd} {o : Nat} (h : unitDue s y o = true) : Works s y ∧ UnitDue s y o (elsOf s y) := by
  simp only [unitDue, Bool.and_eq_true, decide_eq_true_eq, Bool.not_eq_true', List.all_eq_true, Bool.or_eq_true, List.contains_iff_mem, List.any_eq_true,
    List.mem_range] at h
  obtain ⟨⟨⟨⟨⟨⟨h1, h2⟩, h3⟩, h4⟩, h5⟩, h6⟩, h7⟩ := h
  refine ⟨works_of h1 ⟨h2, h3⟩ h4, h5, h6, fun p hp => ⟨(h7 p hp).1.1.1, fun r hr e => ?_⟩, fun p hp => ⟨(h7 p hp).1.2, fun e he hl => ?_⟩⟩
  · rcases (h7 p hp).1.1.2 r hr with a | a
    · exact absurd e a
    · exact a
  · rcases (h7 p hp).2 e he with a | a
    · rw [hl] at a; cases a
    · obtain ⟨v, hv⟩ := Option.isSome_iff_exists.mp a.2
      refine ⟨a.1, engTakes_of (hv.trans ?_)⟩
      unfold elsOf; rw [hv]; rfl
def apart (s : State) (y : Cmd) (W : List (Nat × W72 × Nat × Nat)) : Bool :=
  let at_ (w : Nat × W72 × Nat × Nat) : Option Place := placeOf s w.1 (s.cmdRing y) w.2.1 true
  W.all (fun w => match at_ w with | some q => engAt s y q w.2.2.1 | none => false) &&
    decide (W.Pairwise (fun w v => (match at_ w, at_ v with | some q, some r => decide (q.pa + w.2.2.1 ≤ r.pa ∨ r.pa + v.2.2.1 ≤ q.pa) | _, _ => false) = true))
theorem apart_of {s : State} {y : Cmd} {W : List (Nat × W72 × Nat × Nat)} (h : apart s y W = true) : PlacedApart s y W := by
  simp only [apart, Bool.and_eq_true, decide_eq_true_eq, List.all_eq_true] at h
  refine ⟨fun w hw => ?_, h.2.imp fun {w v} a q r hq hr => ?_⟩
  · have := h.1 w hw
    split at this
    · rename_i q hq; exact ⟨q, placeOf_mapped hq, engAt_of this⟩
    · cases this
  · split at a
    · rename_i q' r' hq' hr'
      rw [placeOf_only hq' hq, placeOf_only hr' hr]; exact of_decide_eq_true a
    · cases a
def groupWrites (s : State) (y : Cmd) (o : Nat) : List (Nat × W72 × Nat × Nat) :=
  (y.group o).flatMap (fun p => (unitWrites y p (elsOf s y p)).map (fun w => (y.engine (y.targetBlock p), w)))

/-- A tensor of one dimension, whole or in blocks; a machine with four clusters that translate alike, lines 0 to 7 in its L2, and a command. -/
def tensorW (dist : Bool) (base : Nat) (f ext cnt blk : Nat) : List W64 :=
  let one : List W64 := [0x100000000, 0x10000000000]
  [if dist then 0 else BitVec.ofNat 64 base, BitVec.ofNat 64 (f * 2 ^ 52 + 2 ^ 49 + (if dist then 2 ^ 48 else 0) + 0x4688 * 2 ^ 33),
   BitVec.ofNat 64 (ext * 2 ^ 32), BitVec.ofNat 64 (cnt * 2 ^ 40)] ++ one ++ one ++ one ++ one ++
  (if dist then [BitVec.ofNat 64 base, BitVec.ofNat 64 (blk * 2 ^ 32 + 2 ^ 8), 0x10000010000, 0x10000000000] else [0, 0, 0, 0])
def engS (cells : List Host.Cell) (y : Cmd) : State :=
  (List.range 8).foldl (fun s l => s.l2Fill l .normal) { cmdS y with mem := cells ++ demoMem, clusters := (List.range 4).map (fun k => (k, { Cluster.reset k with tlb := [demoPage, flagPage] })) }
def moveY (op : EngOp) (plan : List Nat) (pos : Nat) (ra rb : List W64) : Cmd := { demoY op with begun := true, plan := plan, pos := pos, ra := ra, rb := rb }
/-- The four moves of rows of a plain tensor: the first and the last element; from fp32 to fp16; a row of each of two, by a mask of row 1. -/
def copyY (pos : Nat) : Cmd := moveY .copy [0, 1, 2, 3] pos (tensorW false 0 1 4 4 0) (tensorW false 0x40 1 4 4 0)
def convertY : Cmd := moveY .copy [0, 1] 0 (tensorW false 0 1 2 2 0) (tensorW false 0x40 2 2 2 0)
def gatherY : Cmd := { moveY .gather [0] 0 (tensorW false 0 1 2 2 0) (tensorW false 0x40 1 2 2 0) with sel := [1] }
def scatterY : Cmd := { moveY .scatter [1] 0 (tensorW false 0 1 2 2 0) (tensorW false 0x40 1 2 2 0) with sel := [1] }
/-- The collectives, over two blocks of die 0. -/
def ownersAt (a b : Nat) : List (Nat × W64 × W64) := [(0, BitVec.ofNat 64 a, 0), (1, BitVec.ofNat 64 b, 0)]
def bcastY : Cmd := { moveY .bcast [0, 1] 0 (tensorW false 0 1 2 2 0) (tensorW true 0x7000 1 4 4 2) with ob := ownersAt 0x40 0x60 }
def reduceY (op : RedOp) : Cmd := { moveY (.reduce op) [0, 1] 0 (tensorW true 0x7000 1 4 4 2) (tensorW false 0x40 1 2 2 0) with oa := ownersAt 0 0x10 }
def allredY : Cmd := { moveY (.allred .add) [0, 1] 0 (tensorW true 0x7000 1 4 4 2) (tensorW true 0x7000 1 4 4 2) with oa := ownersAt 0 0x10, ob := ownersAt 0x40 0x60 }
def clGatherY : Cmd := { moveY .clGather [0, 1, 2, 3] 3 (tensorW true 0x7000 1 4 4 2) (tensorW false 0x40 1 4 4 0) with oa := ownersAt 0 0x10 }
def clScatterY : Cmd := { moveY .clScatter [0, 1, 2, 3] 3 (tensorW false 0 1 4 4 0) (tensorW true 0x7000 1 4 4 2) with ob := ownersAt 0x40 0x60 }
def a2aY : Cmd := { moveY .a2a [0, 1, 2, 3] 2 (tensorW true 0x7000 1 4 4 2) (tensorW true 0x7000 1 4 4 2) with oa := ownersAt 0 0x10, ob := ownersAt 0x40 0x60 }
/-- A brick of L6, from plain fp32 elements of which three are inside their tensor. -/
def brickY : Cmd := moveY .copy [0] 0 (tensorW false 0 1 3 192 0) (tensorW false 0x40 6 192 192 0)
def threeCells : List Host.Cell := [(0, 0x11), (4, 0x22), (8, 0x33), (12, 0x44), (16, 0x55), (20, 0x66)]
theorem wit_units : ∀ y ∈ [copyY 0, copyY 3, convertY, gatherY, scatterY, bcastY, reduceY .add, reduceY .min, allredY, clGatherY, clScatterY, a2aY],
    unitDue (engS threeCells y) y (y.plan.getD y.pos 0) = true ∧ apart (engS threeCells y) y (groupWrites (engS threeCells y) y (y.plan.getD y.pos 0)) = true ∧
    y.src.ok true = true ∧ y.dst.ok false = true ∧ y.agree = true ∧ y.planOf = y.plan := by decide +kernel

theorem wit_brick : unitDue (engS threeCells brickY) brickY 0 = true ∧ apart (engS threeCells brickY) brickY (groupWrites (engS threeCells brickY) brickY 0) = true ∧
    brickY.src.ok true = true ∧ brickY.dst.ok false = true ∧ brickY.agree = true ∧ brickY.planOf = [0] := by decide +kernel

/-- The range commands: in one page, and across the end of one; a line with dirty bytes in one bay, none in another. -/
def rangeY (op : EngOp) (sc : Scope) (pos : Nat) : Cmd := { demoY op with begun := true, a := 0xFF8, b := 16, pos := pos, x := ⟨.w32, ⟨0, 0, sc⟩, .rne, false, .normal⟩ }
def dirtyLine (n d : Nat) : Line := ⟨n, 0x55, BitVec.ofNat 128 d, .normal⟩
def rangeS (y : Cmd) (d : Nat) : State := { engS [] y with bayLines := [(bayKey 0 0 31, [dirtyLine 31 d]), (bayKey 0 1 31, [dirtyLine 31 0])] }
theorem wit_ranges : ∀ op ∈ [EngOp.wback, .dropr, .fill], ∀ sc ∈ [Scope.device, .system], ∀ pos < 2, ∀ d < 2,
    (rangeS (rangeY op sc pos) d).cmds = [rangeY op sc pos] ∧
    (let lo := max 0xFF8 (4096 * pos)
     let hi := min (0xFF8 + 16) (4096 * pos + 4096)
     placeOf (rangeS (rangeY op sc pos) d) 0 0 (BitVec.ofNat 72 lo) false = some ⟨lo, 1, .normal⟩ ∧ lo < hi ∧ effScope lo sc = sc ∧
     ((lo + (hi - lo) - 1) / 128 - lo / 128 + 1 = 1) ∧ (rangeS (rangeY op sc pos) d).badAt lo 1 = false ∧ (rangeS (rangeY op sc pos) d).linkOpen lo = true) ∧
    (∀ l ∈ [31, 32], (dropLine ((rangeS (rangeY op sc pos) d).l2Set l) l).length < 16) ∧ Memory.wf (rangeS (rangeY op sc pos) d).mem = true ∧
    (rangeS (rangeY op sc pos) d).bayLine 0 0 31 = some (dirtyLine 31 d) := by decide +kernel
theorem wit_range_bays : ∀ d < 2, (((rangeS (rangeY .wback .device 0) d).bayLines.map Prod.fst).Pairwise (· < ·) ∧
      ∀ p ∈ (rangeS (rangeY .wback .device 0) d).bayLines, ∀ l ∈ p.2, l.line % 128 = p.1 % 128) ∧
    (∀ p ∈ (rangeS (rangeY .wback .device 0) d).bayLines, p.1 / 128 ≠ 16 * 0 + 0 → ∀ u ∈ p.2, u.line = 31 → u.dirty = 0) ∧
    (d = 0 → CleanAbove (rangeS (rangeY .wback .device 0) d) 31) := by
  unfold CleanAbove; decide +kernel

/-- SPMM: pointers that ascend, that descend, and that are equal; a row of two entries and one of none, with and without .set. -/
def tensor2W (base f e0 c0 e1 c1 st : Nat) : List W64 :=
  [BitVec.ofNat 64 base, BitVec.ofNat 64 (f * 2 ^ 52 + 2 * 2 ^ 49 + 0x4688 * 2 ^ 33), BitVec.ofNat 64 (e0 * 2 ^ 32), BitVec.ofNat 64 (c0 * 2 ^ 40),
   BitVec.ofNat 64 (e1 * 2 ^ 32), BitVec.ofNat 64 (c1 * 2 ^ 40 + st), 0x100000000, 0x10000000000, 0x100000000, 0x10000000000, 0x100000000, 0x10000000000, 0, 0, 0, 0]
def sparseW (rows cols : Nat) : List W64 := [0, 0x40, 0x80, 0xD100000000, BitVec.ofNat 64 (rows * 2 ^ 32 + cols), 0, 0, 0]
def spmmY (set : Bool) (sel : List Nat) (pos : Nat) : Cmd :=
  { demoY (.spmm set) with begun := true, plan := [0, 1], pos := pos, sel := sel, ra := sparseW 2 2, rb := tensor2W 0xC0 1 2 2 2 2 8, rc := tensor2W 0x100 1 2 2 2 2 8 }
/-- The pointers a, b and c; columns 0 and 1; and values 2.0 and 1.0. -/
def sparseCells (a b c : Byte) : List Host.Cell :=
  ([(0, a), (4, b), (8, c), (0x44, 1), (0x83, 0x40), (0x86, 0x80), (0x87, 0x3F), (0xC2, 0x80), (0xC3, 0x3F), (0xCF, 0x40)] : List Host.Cell).filter (fun p => p.2 ≠ 0)
def spmmS (cells : List Host.Cell) (y : Cmd) : State := engS cells y
theorem wit_spmm_pointers : ∀ e ∈ [((0 : Byte), (2 : Byte), (2 : Byte), [0, 2, 2]), (2, 1, 0, [2, 1, 0]), (0, 0, 0, [0, 0, 0])],
    let (a, b, c, ps) := e
    let y := spmmY true [] 0
    let s := spmmS (sparseCells a b c) y
    s.cmds = [y] ∧ ps.length = (sparseOf y.ra).rows + 1 ∧ ∀ i < 3, engGets s y 0 ((sparseOf y.ra).ptr + BitVec.ofNat 72 (i * ixBytes (sparseOf y.ra).ifmt)) 4 = some (ps.getD i 0) := by
  decide +kernel
def oldOf (s : State) (y : Cmd) (set : Bool) (i j : Nat) : Elt :=
  if set then .exact (.zero false) else (engElement s y 0 (descOf y.rc) [] ((descOf y.rc).coord [j, i])).getD .none
def rowOf (s : State) (y : Cmd) (cols : List Nat) (j k : Nat) : Elt := (engElement s y 0 (descOf y.rb) [] ((descOf y.rb).coord [j, cols.getD k 0])).getD .none
def rowReads (s : State) (y : Cmd) (set : Bool) (i : Nat) (cols vals : List Nat) : Bool :=
  let r := sparseOf y.ra
  let n := y.sel.getD (i + 1) 0 - y.sel.getD i 0
  decide (s.cmds = [y]) && decide (cols.length = n ∧ vals.length = n) &&
    (List.range n).all (fun k => decide (cols.getD k 0 < r.cols) &&
      decide (engGets s y y.cl (r.col + BitVec.ofNat 72 ((y.sel.getD i 0 + k) * ixBytes r.ifmt)) (ixBytes r.ifmt) = some (cols.getD k 0)) &&
      decide (engGets s y y.cl (r.val + BitVec.ofNat 72 ((y.sel.getD i 0 + k) * valBytes r.vfmt)) (valBytes r.vfmt) = some (vals.getD k 0))) &&
    (List.range ((descOf y.rc).cntI 0)).all (fun j => (set || (engElement s y y.cl (descOf y.rc) [] ((descOf y.rc).coord [j, i])).isSome) &&
      (List.range n).all (fun k => (engElement s y y.cl (descOf y.rb) [] ((descOf y.rb).coord [j, cols.getD k 0])).isSome))
theorem get_some {α : Type} {x : Option α} (h : x.isSome = true) (d : α) : x = some (x.getD d) := by
  obtain ⟨v, rfl⟩ := Option.isSome_iff_exists.mp h; rfl
theorem rowReads_of {s : State} {y : Cmd} {set : Bool} {i : Nat} {cols vals : List Nat} (hc : y.cl = 0) (h : rowReads s y set i cols vals = true) :
    RowReads s y set i cols vals (oldOf s y set i) (rowOf s y cols) := by
  simp only [rowReads, Bool.and_eq_true, decide_eq_true_eq, List.all_eq_true, List.mem_range, Bool.or_eq_true] at h
  obtain ⟨⟨⟨_, h2⟩, h3⟩, h4⟩ := h
  have at_ (xs : List Nat) (k z : Nat) (hz : xs[k]? = some z) : k < xs.length ∧ xs.getD k 0 = z :=
    ⟨(List.getElem?_eq_some_iff.mp hz).1, by rw [List.getD, hz]; rfl⟩
  refine ⟨h2, fun k z hz => ?_, fun k z hz => ?_, fun j hj => ?_, fun j hj k z hz => ?_⟩
  · obtain ⟨hl, e⟩ := at_ _ _ _ hz
    have := h3 k (by rw [← h2.1]; exact hl)
    rw [← e]; exact ⟨this.1.1, engGets_of this.1.2⟩
  · obtain ⟨hl, e⟩ := at_ _ _ _ hz
    rw [← e]; exact engGets_of (h3 k (by rw [← h2.2]; exact hl)).2
  · have := (h4 j hj).1
    split
    · rename_i hs; unfold oldOf; rw [if_pos hs]
    · rename_i hs
      rcases this with a | a
      · exact absurd a hs
      · unfold oldOf; rw [if_neg hs]; rw [hc] at a ⊢; exact engElement_of (get_some a _)
  · obtain ⟨hl, e⟩ := at_ _ _ _ hz
    have := (h4 j hj).2 k (by rw [← h2.1]; exact hl)
    unfold rowOf
    rw [e] at this ⊢; rw [hc] at this ⊢; exact engElement_of (get_some this _)
def rowPlaces (s : State) (y : Cmd) (set : Bool) (i : Nat) (cols vals : List Nat) : List (Nat × W72 × Nat × Nat) := rowWrites y i vals (oldOf s y set i) (rowOf s y cols)
theorem wit_spmm_rows : ∀ set, ∀ e ∈ [(0, [0, 1], [0x40000000, 0x3F800000]), (1, [], [])],
    let (i, cols, vals) := e
    let y := spmmY set [0, 2, 2] i
    let s := spmmS (sparseCells 0 2 2) y
    rowReads s y set i cols vals = true ∧ apart s y (rowPlaces s y set i cols vals) = true ∧ y.plan[y.pos]? = some i ∧ (descOf y.rc).brick = false ∧ y.sel ≠ [] ∧
      (rowPlaces s y set i cols vals).length = 2 := by decide +kernel

/-- MERGE: heads that are less, equal and greater; with and without values; into a result with room, and into one that is full. -/
def runW (idx val vfmt len : Nat) : List W64 := [BitVec.ofNat 64 idx, BitVec.ofNat 64 val, BitVec.ofNat 64 (0xD * 2 ^ 44 + vfmt * 2 ^ 40 + len), 0]
def mergeY (op : EngOp) (u v vfmt cap n : Nat) : Cmd :=
  { demoY op with begun := true, ra := runW 0 0x40 vfmt 1, rb := runW 0x80 0xC0 vfmt 1, rc := runW 0x100 0x140 vfmt cap, merge := ⟨0, 0, n, some u, some v, none, none⟩ }
def entryOf (s : State) (y : Cmd) (r : Run) (i : Nat) : Option Exact :=
  if r.vfmt = 0 then some (.zero false)
  else (engGets s y y.cl (r.val + BitVec.ofNat 72 (i * valBytes r.vfmt)) (valBytes r.vfmt)).map (fun z => valueOf (valFmt r.vfmt) z)
theorem entryOf_of {s : State} {y : Cmd} {r : Run} {i : Nat} {v : Exact} (h : entryOf s y r i = some v) : EntryValue s y r i v := by
  unfold entryOf at h
  unfold EntryValue
  split at h
  · rename_i h0; rw [if_pos h0]; exact (Option.some.inj h).symm
  · rename_i h0
    rw [if_neg h0]
    obtain ⟨z, hz, e⟩ := Option.map_eq_some_iff.mp h
    exact ⟨z, engGets_of hz, e.symm⟩
theorem wit_merge : ∀ op ∈ [EngOp.mergeI, .mergeU true, .mergeU false], ∀ e ∈ [(3, 5), (5, 5), (5, 3)], ∀ vfmt < 2, ∀ n < 2,
    let y := mergeY op e.1 e.2 vfmt 1 n
    let s := engS threeCells y
    s.cmds = [y] ∧ (entryOf s y (runOf y.ra) 0).isSome = true ∧ (entryOf s y (runOf y.rb) 0).isSome = true ∧ y.merge.ha = some e.1 ∧ y.merge.hb = some e.2 ∧
      apart s y [(0, (runOf y.rc).idx, 4, min e.1 e.2), (0, (runOf y.rc).val, 4, 0)] = true := by decide +kernel
/-- A command that waits to begin, of each kind, beside seven that have begun. -/
def waitY (op : EngOp) : Cmd := demoY op
def beginS (op : EngOp) : State := { cmdS (waitY op) with cmds := waitY op :: (List.range 7).map (fun i => { demoY .copy with id := 100 + i, begun := true }) }
theorem wit_begin : ∀ op ∈ [EngOp.copy, .gather, .scatter, .spmm true, .mergeU true, .mergeI, .bcast, .reduce .add, .allred .min, .clGather, .clScatter, .a2a, .wback, .dropr, .fill],
    waitY op ∈ (beginS op).cmds ∧ (∀ z ∈ (beginS op).cmds, z.id = (waitY op).id → z = waitY op) ∧ (waitY op).begun = false ∧ (waitY op).ended = false ∧
    ((beginS op).cmds.filter (fun z => z.cl = 0 && z.begun && !z.ended)).length < 8 := by decide +kernel

/-! ### Further conditions of the event statements -/

/-! BarriersPostsAndScrubbing -/

theorem wit_barrier_die : (withC barC).die 0 = Die.reset ∧ Die.reset.admitted = true ∧ (0 : BitVec 3).toNat = 0 ∧
    tget (withC barC).ctxs 0 = some barC ∧ barC.bays.getLsbD (0 / 128 % 16) = true := by decide +kernel
theorem wit_post_open : (∀ m < 3, ∀ f ∈ [true, false], let s := postS (demoP (BitVec.ofNat 2 m) f)
      (s.die 0).phase ≠ 1 ∧ (s.die 0).phase ≠ 2 ∧ s.watches = []) ∧
    Sound (postS (demoP 1 true)) 0x4000 16 ∧ InLine 0x4000 16 ∧ Roomy (postS (demoP 1 true)) 0x4000 := by unfold Sound InLine Roomy; decide +kernel
theorem wit_scrub_answers : Answers demo 0x8FFFFFFFFF ∧ Answers demo 0x2FFFFFFFFFF ∧ Roomy demo (errorSlot demo) ∧
    ({ demo with l2 := [(l2Key 0x40, [⟨lineOf 0x40, 0, 0, .normal⟩])] } : State).l2Line (lineOf 0x40) ≠ none := by unfold Answers Sound Roomy; decide +kernel

/-! DistributorGivesAndTakesDies -/

/-- The launch past the cap takes die 0 from the one launch that may give a die up. -/
theorem wit_withdraw_capped : pastCap takenS { waitingL 9 0 true with allow := 1, prio := 5 } = true ∧
    (∀ v ∈ takenS.launches, v.minDies < dieCount v.dieset → v.acc = 0) ∧ (∀ x ∈ takenS.launches, x.change = none) ∧
    ({ wideL with dieset := 3, minDies := 1, allow := 3 } : Launch).dieset.getLsbD 0 = true ∧ (1 : BitVec 8).getLsbD 0 = true := by decide +kernel

/-! RegistersModulesAndIdentity -/

def busyS (x : Option W64) : State := { modS .live with regs := { (modS .live).regs with modBusy := x } }
theorem wit_module_busy : (busyS none).regs.modBusy = none ∧ (busyS (some 0x20001)).regs.modBusy = some 0x20001 ∧ (busyS (some 0x20001)).regs.modBusy ≠ none ∧
    (busyS (some 0x20001)).regs.modBusy ≠ some 0x10002 ∧ slice (0x20001 : W64) 1 0 = 1 ∧ slice (0x10002 : W64) 1 0 = 2 ∧ slice (0x10003 : W64) 1 0 = 3 ∧
    (0x3000 : BitVec 16).toNat = 0x3000 := by decide
theorem wit_processor_register : (0x1328 : BitVec 16).toNat = 0x1028 + 0x100 * (3 : BitVec 2).toNat ∧ (1 : W64).getLsbD 0 = true ∧ (0xC : W64).getLsbD 0 = false ∧
    (6 ≤ slice Cp.reset.ring 55 52 ∧ slice Cp.reset.ring 59 56 ≤ 14) ∧ slice (0x0060000000000000 : W64) 59 56 < 6 ∧
    4096 * slice Cp.reset.ring 9 0 + 64 * 2 ^ slice Cp.reset.ring 55 52 ≤ 2 ^ 22 ∧ demo.regs.ident.fwStat ≠ 2 := by decide +kernel
theorem wit_image_offset : (0 : W32).toNat < 4 ∧ ¬(4 : W32).toNat < 4 ∧ slice (4 : W32) 1 0 = 0 := by decide

/-! WarmResetPassesThroughItsPhases -/

/-- A dirty line of memory on the far side of a link that is down, and one of host memory with the host's link down. -/
def cutS (l : LinkName) : State := { writeS with downLinks := [l] }
def hostY : Line := { dirtyY with line := 0x10000000000000 / 128 }
def hostCut : State := { phaseS 2 0 with bayLines := [(bayKey 0 3 hostY.line, [hostY])], regs := { demo.regs with hostUp := false } }
theorem wit_write_lost : (∃ v ∈ (cutS (.front 0)).downLinks ++ (cutS (.near 0 (stackOf 0x4000))).downLinks, writeS.crosses v 0 (128 * dirtyY.line) false = true) ∧
    (cutS (.front 0)).bayLines = [(bayKey 0 3 dirtyY.line, [dirtyY])] ∧ dirtyY.dirty ≠ 0 ∧ 128 * dirtyY.line < 2 ^ 64 ∧ Roomy (cutS (.front 0)) (errorSlot (cutS (.front 0))) ∧
    (∀ v ∈ writeS.downLinks, writeS.crosses v 0 (128 * dirtyY.line) false = false) ∧ hostCut.linkOpen (128 * hostY.line) = false ∧
    hostCut.bayLines = [(bayKey 0 3 hostY.line, [hostY])] := by unfold Roomy; decide +kernel
theorem wit_test_failed : (5 : BitVec 4) ≠ 0 ∧ (5 : BitVec 4).getLsbD 2 = true ∧ (5 : BitVec 4).getLsbD 1 = false ∧ ((phaseS 5 0).die 0).phase = 5 := by decide +kernel
theorem wit_reset_running : Running demoC ∧ (∀ w u, demoC.save ≠ some ⟨w, some u⟩) ∧ ∀ p ∈ (withC (stopC 3 [])).ctxs, p.2.stop ≠ none := by
  refine ⟨rfl, fun _ _ h => ?_, ?_⟩
  · cases h
  · intro p hp; cases List.mem_singleton.mp hp; exact fun h => by cases h

/-! LinksHostAndPeers -/

def real (l : LinkName) : Bool :=
  match l with | .near d k => decide (d < 8 ∧ k / 3 = d / 2) | .front d => decide (d < 8) | .stack k => decide (k < 12) | .finzu n => decide (n < 16) | .host => true
theorem wit_link_names : real (.near 7 11) = true ∧ real (.near 0 3) = false ∧ real (.near 8 12) = false ∧ real (.front 7) = true ∧ real (.front 8) = false ∧
    real (.stack 11) = true ∧ real (.stack 12) = false ∧ real (.finzu 15) = true ∧ real (.finzu 16) = false ∧ real .host = true := by decide
/-- The one access waits for stack 0, a fill of the middle cache for the same stack, one of the cluster caches for the front die, and a walk for the
base die of its walker. -/
theorem wit_link_holds : let s := accS demoA
    demoA ∈ s.accs ∧ demoA.done = false ∧ demoA.bad = false ∧ demoA.parts.length = 1 ∧ (∀ p ∈ demoA.parts, p.done = false ∧ isSp p.pa = false ∧ s.inBay demoA p = false ∧
      s.crosses (.near 0 0) 0 p.pa false = true ∧ s.crosses (.near 0 1) 0 p.pa false = false ∧ s.crosses (.front 0) 0 p.pa false = false ∧ effScope p.pa demoA.scope ≠ .system) ∧
    s.canPerform demoA [0] = true ∧ s.ctx? 0 0 = some { demoC with gt := [(4, .access 9)] } ∧
    (∃ f ∈ (fillS [] .i1).code.fills, (fillS [] .i1).fillCrosses (.front 0) f = true) ∧
    (∃ f ∈ (fillS [(1, placedModule)] .i2).code.fills, ∃ k : Fin 12, (fillS [(1, placedModule)] .i2).fillCrosses (.stack k) f = true) ∧
    (∃ w ∈ (walkS 0xFFFFFF).walksOf 0, w.users ≠ [] ∧ walkerStack 0 (BitVec.ofNat 72 (w.vpn.toNat * 4096)) = 0) ∧
    Roomy s (errorSlot s) := by unfold Roomy; decide +kernel
def refusedS : State := { linkS 2 true with regs := { (linkS 2 true).regs with ident := { Ident.reset with fwStat := 3 } } }
theorem wit_requests : refusedS.regs.ident.fwStat = 3 ∧ (linkS 2 true).regs.ident.fwStat ≠ 3 ∧ (linkS 2 false).regs.hostUp = false ∧ (linkS 2 true).regs.hostUp = true ∧
    (linkS 2 true).badAt 0x4000 8 = false ∧ ({ linkS 2 true with badGranules := [0x4000 / 32] } : State).badAt 0x4000 8 = true ∧
    ({ linkS 2 true with l2 := [(l2Key 0x4000, [⟨lineOf 0x4000, 0, 0, .normal⟩])] } : State).l2Line (lineOf 0x4000) = some ⟨lineOf 0x4000, 0, 0, .normal⟩ ∧
    homeOf (0x4000 + 128 - 1) = homeOf 0x4000 ∧ homeOf (0x8FFFFFFFF8 + 16 - 1) ≠ homeOf 0x8FFFFFFFF8 ∧ homeOf 0x4000 = .dram := by decide +kernel
/-- A trapped frame whose CMD memory holds, beside what the frame last took from it. -/
def untoldS : State := { cmdOf 2 1 with frames := [(0, frameF 2)] }
theorem wit_command_written : tget untoldS.frames 0 = some (frameF 2) ∧ (frameF 2).cmdPa = 0x2000008 ∧ (frameF 2).state = 2 ∧ (frameF 2).cmd = 0 ∧
    homeOf 0x2000008 = .dram ∧ untoldS.badAt 0x2000008 8 = false ∧ InLine 0x2000008 8 ∧ Roomy untoldS 0x2000008 := by
  unfold InLine Roomy; decide +kernel

/-! ### Conditions of the clauses on boundaries, continuations, credits and repeated waits -/

/-- YieldStepAndNop: the last member of a change: a die to add, another die to withdraw, and its own. -/
def boundaryS (ch : Change) : State := { demo with launches := [{ demoL with minDies := 1, maxDies := 3, allow := 7, dieset := 3, change := some ch }] }
theorem wit_step_last : ∀ ch ∈ [(⟨2, true, [0], []⟩ : Change), ⟨1, false, [0], []⟩, ⟨0, false, [0], []⟩],
    let q : Launch := { demoL with minDies := 1, maxDies := 3, allow := 7, dieset := 3, change := some ch }
    (boundaryS ch).launchOf demoC = some q ∧ demoC.uid ∉ ch.inStep ∧ ch.left = [demoC.uid] ∧ q.minDies < (List.range 8).countP (fun d => q.dieset.getLsbD d) ∧
      (List.range 8).countP (fun d => q.dieset.getLsbD d) < q.maxDies ∧ (∀ e ∈ (boundaryS ch).ctxs, e.2.stretch = none) ∧
      (boundaryS ch).allowed q ch.die = true ∧ (boundaryS ch).holders ch.die < 8 ∧ q.dieset.getLsbD ch.die = !ch.add ∧ ch.die < 8 ∧ demoC.save = none := by
  decide +kernel
theorem wit_step_last_ready (ch : Change) : Ready (boundaryS ch) .step 0 0 demoC := ready_of _ rfl rfl demo_count rfl

/-- FsetArmsAndResolves: a word with a continuation registered, which the resolution or the cancel ends; the barge there
passes its checks, does not, or cannot be read. -/
def contWord (n : Nat) : W64 := BitVec.ofNat 64 (n / 64 * 2 ^ 8 + 8)
theorem wit_fset_fires : ∀ n ∈ [0x2000, 0x190000], fires (contWord n) (contWord n + 0x12) ∧ fires (contWord n) (contWord n + 0x13) ∧
    contAt (sc_.gv 4) (contWord n + 0x12) = BitVec.ofNat 72 n := by unfold fires; decide +kernel
theorem wit_fset_ends : Resolution (contWord 0x2000) 0 5 false 0 false (contWord 0x2000 + 0x12) 5 ∧
    Resolution (contWord 0x2000) 0 0 false 0 true (contWord 0x2000 + 0x33) 0 ∧ fires (contWord 0x2000) (contWord 0x2000 + 0x33) := by
  refine ⟨?_, ?_, by unfold fires; decide⟩ <;> constructor <;> decide
def barge? (s : State) (va : W72) (P : List W64 → Bool) : Option Bool := match s.readBarge 0 va with | .ok b => some (P b) | .error _ => none
/-- The image at 0x2000, and the state once the word has ended. -/
def img2000 : List W64 := [0x100000000, 0, 0, 0, 0, 0, 0, 0]
def contMem (s : State) (n : Nat) : State := { s with mem := (0x40, (contWord n).setWidth 8) :: (if n < 2 ^ 20 then 0x41 else 0x45, if n < 2 ^ 20 then ((contWord n) >>> 8).setWidth 8 else 1) :: s.mem }
def endedS (n : Nat) (v : W64) : State := (carried (contMem (withC sc_) n) 0 sc_ dev wordAt40 16).writeSW .device 0x40 .normal ⟨v, 5⟩
theorem wit_fset_continues : syncs (contMem (withC sc_) 0x2000) sc_ (sc_.gv 4) 16 true wordAt40 = true ∧
    (carried (contMem (withC sc_) 0x2000) 0 sc_ dev wordAt40 16).homeRead 0x40 8 = (contWord 0x2000).toNat ∧
    demoL.aborted = false ∧ demoL.faulted = false ∧ demoL.dieset.getLsbD 0 = true ∧ demoL.change = none ∧ demoL.basins.length < 1024 := by decide +kernel
theorem wit_fset_image : barge? (endedS 0x2000 (contWord 0x2000 + 0x12)) 0x2000 (fun b => decide (b = img2000)) = some true := by decide +kernel
theorem wit_fset_barges : (endedS 0x2000 (contWord 0x2000 + 0x12)).bargeOk demoL.part img2000 = true ∧
    (endedS 0x2000 (contWord 0x2000 + 0x33)).bargeOk demoL.part img2000 = true ∧ (endedS 0x2000 (contWord 0x2000 + 0x12)).launchOf sc_ = some demoL ∧
    (endedS 0x2000 (contWord 0x2000 + 0x33)).launchOf sc_ = some demoL ∧ bargeMode img2000 = 0 := by decide +kernel
theorem wit_fset_refused : (endedS 0x2000 (contWord 0x2000 + 0x12)).bargeOk demoL.part [0x4000, 0, 0, 0, 0x2000, 0, 0, 0] = false := by decide +kernel
theorem wit_fset_unread : barge? (endedS 0x4000000000 (contWord 0x4000000000 + 0x12)) 0x4000000000 (fun _ => true) = none := by decide +kernel

/-- FstoreAndFloadJoinSlotsAndWords, FlightFaults: a slot that was resolved twice and is no longer PENDING. -/
theorem wit_dres : twiceC.slot 3 = { errSlot with dres := true } ∧ errSlot.state ≠ .pending ∧ Ready (withC twiceC) (.fstore 3 4 sx) 0 0 twiceC :=
  ⟨by decide, by decide, ready_of _ rfl rfl demo_count rfl⟩
theorem wit_flight_found : ∀ st ∈ [Chamber.filling, .draining], ∀ x ∈ [{ errSlot with dres := true }, pending .none],
    (stepF st 1 x).cutCarry 0 .gen ⟨0, 1, 0⟩ 0 .cluster false = none ∧ (stepF st 1 x).predsDone 0 0 0 .gen ⟨0, 1, 0⟩ 0 .cluster true = true ∧
    (stepF st 1 x).flight? 0 0 2 = some { demoF .free with cst := [st, st] } ∧ ({ demoF .free with cst := [st, st] } : Flight).st 1 = st ∧
    ({ demoF .free with cst := [st, st] } : Flight).hold.getD 1 0 = 0 ∧ (demoF .free).defer.getLsbD 1 = false ∧ 1 < (demoF .free).count := by decide +kernel

/-- FregRegistersContinuation: each mode with a word that is armed, one that is over, and one with a continuation; and a job without credit. -/
def regWord (k : Nat) (w : Byte) : State := { withC (regK k) with mem := if w = 0 then demoMem else (0x40, w) :: demoMem }
theorem wit_freg_words : ∀ k < 3, ∀ w ∈ [(0 : Byte), 0x21, 2, 3, 8, 0x1A], let s0 := carried (regWord k w) 0 (regK k) dev wordAt40 16
    syncs (regWord k w) (regK k) 0x40 16 true wordAt40 = true ∧ maps s0 0 0 0x2000 true at2000 = true ∧ inOrder s0 (regK k) 1 64 at2000 = true ∧
    s0.cutCarry 0 .gen ⟨0, 1, 1⟩ 0 .device false = none ∧ s0.homeRead 0x40 8 = w.toNat ∧ (dropLine (s0.l2Set (lineOf 0x40)) (lineOf 0x40)).length < 16 ∧
    (dropLine (s0.l2Set (lineOf 0x2000)) (lineOf 0x2000)).length < 16 ∧ s0.bargeOk 0x00010101 (regImage k) = true ∧ (regWord k w).launchOf (regK k) = some demoL := by
  decide +kernel
theorem wit_freg_modes : ∀ k < 3, (k = 0 → ((regK k).gv 6).setWidth 64 = (0 : W64)) ∧ (k = 1 → ((regK k).gv 6).setWidth 64 ≠ (0 : W64) ∧ ((regK k).gv 6).setWidth 64 < (regK k).held) ∧
    (k = 2 → (regK k).credit = 1 ∧ demoL.expected + 0 ≤ 2 ^ 48 - 1) ∧ (bargeMode (regK k).barge).toNat = k ∧ Running (regK k) := by unfold Running; decide +kernel
theorem wit_freg_word_states : swState 8 < 2 ∧ swReg 8 = true ∧ swReg 0x1A = true ∧ 2 ≤ swState 0x1A ∧ swReg 0x21 = false ∧ swState 0x21 < 2 ∧ 2 ≤ swState 2 ∧ swReg 2 = false ∧
    2 ≤ swState 3 ∧ swReg 3 = false := by decide
def brokeC : Ctx := { regK 2 with credit := 0 }
theorem wit_freg_broke : let s := withC brokeC
    syncs s brokeC 0x40 16 true wordAt40 = true ∧ maps (carried s 0 brokeC dev wordAt40 16) 0 0 0x2000 true at2000 = true ∧ demoL.expected + (1 - brokeC.credit) ≤ 2 ^ 48 - 1 ∧
    1 - brokeC.credit = 1 ∧ s.launchOf brokeC = some demoL := by decide +kernel

/-- SpawnAndJraiseExtendTheJob: a job with no credit left, and with fewer credits than items. -/
def poorC (k : Nat) : Ctx := { spawnK 2 with credit := k }
theorem wit_spawn_poor : ∀ k < 2, syncs (withC (poorC k)) (poorC k) 0x2000 64 false at2000 = true ∧ (withC (poorC k)).launchOf (poorC k) = some demoL ∧
    demoL.expected + (2 - (poorC k).credit) ≤ 2 ^ 48 - 1 ∧ 2 - (poorC k).credit = 2 - k ∧ 0 < 2 - (poorC k).credit := by decide +kernel

/-- BarriersAndMonitorsWait: an MWAIT that has waited, with a limit and without, and each state of its monitor. -/
theorem wit_mwait_again : ∀ lim ∈ [none, some 5], ∀ m ∈ [Monitor.fired, .lost, .armed 1], (waitC (.mwait lim) m).wait = .mwait lim ∧ lim ≠ some 0 ∧
    (waitC (.mwait lim) m).monitor = m := by decide
theorem wit_mwait_again_ready (lim : Option Nat) (m : Monitor) : Ready (withC (waitC (.mwait lim) m)) (.mwait 4 5) 0 0 (waitC (.mwait lim) m) :=
  ready_of _ rfl rfl demo_count rfl

/-- WatchpointsAreSetAndCleared: what its second access carries is behind no failed link; a watchpoint of the launch, and of another. -/
theorem wit_watch_carries : let s0 := carried (withC (wpC 0x3000)) 0 (wpC 0x3000) dev ⟨0x3000, 1, .normal⟩ 64
    ((s0.readAt 0 none .device 0x3000 64 .normal).2).cutCarry 0 .gen ⟨0, 1, 1⟩ 0 .device false = none := by decide +kernel
theorem wit_watch_cleared : (∃ w, tget ({ withC (wpC 0x100) with watches := [(256, demoW 0)] } : State).watches (slice ((wpC 0x100).gv 4) 9 0) = some w ∧ w.launch = (wpC 0x100).launch) ∧
    (demoW 1).launch ≠ (wpC 0x100).launch := ⟨⟨demoW 0, by decide, by decide⟩, by decide⟩

/-! ### Conditions of the clauses on replays, multicasts, watched stores and lost dies -/

/-- GeneratorsFormAndStealContexts and its neighbours: a context that has waited for its words to start. -/
theorem wit_unblock_written : (blockedC .written .none).wait = .written ∧ (blockedC .written .none).status = .blocked ∧
    (withC (blockedC .written .none)).allStarted 0 0 = true := by decide +kernel

/-- PortsFillsWalksAndTollGoOn: a word with a hole in its entry, and the snapshot's bits in it. -/
def holeE : CapEntry := ⟨[0xC000018080301C01, 0x04B], [(1, 0, 0)], 0, true, 0⟩
def replayOp (next : Nat) : EmitOp := { blankOp with kind := .replay, id := 7, next := next, num := 1, snap := [0, 0x1F, 0, 0, 0, 0, 0, 0] }
def replayS (next : Nat) : State :=
  { withC { demoC with queue := [replayOp next] } with clusters := [(0, { demoK with ports := [(1, 0)], capt := [(7, holeE)] })] }
def replayW (next : Nat) : W64 := patchWord (holeE.words.getD next 0) (replayOp next).snap (holeE.holes.filter (fun h => h.2.1 = next))
theorem wit_replay : ∀ next < 2, (replayS next).served 0 1 = some (0, { demoC with queue := [replayOp next] }, replayOp next) ∧
    tget ((replayS next).cluster 0).capt (captKey demoC.launch 7) = some holeE ∧ ((replayS next).cluster 0).wrote.getLsbD 1 = false ∧
    (replayS next).sliceOpen 0 0 = true ∧ (replayS next).takesWord (ctxKey 0 0) 0 1 (replayW next) = true ∧ next < holeE.words.length := by decide +kernel
theorem wit_replay_patched : ∀ next < 2, Patched holeE (replayOp next).snap next (replayW next) := by unfold Patched; decide +kernel
theorem wit_replay_hole : replayW 0 ≠ 0xC000018080301C01 ∧ replayW 1 = 0x04B := by decide

/-- A multicast of the context of cluster 0 to clusters 0 and 1 of die 0 and to die 1: that of cluster 1 holds the launch's other context. -/
def castOp (next : Nat) (ts : Option (List Nat)) : EmitOp :=
  { blankOp with kind := .emitM, words := [0xC000018080301C01, 0x04B], next := next, num := 1, dest := 0x303, targets := ts }
def castC (uid : Nat) (q : List EmitOp) : Ctx := { demoC with uid := uid, queue := q }
def castS (q : List EmitOp) (full : Bool) : State :=
  { demo with ctxs := [(0, castC 0 q), (8, castC 5 [])], clusters := [(0, { demoK with ports := if q = [] then [] else [(1, 0)] })], launches := [{ demoL with dieset := 3 }],
              cores := [(0, demoX), (128, if full then { demoX with buf := List.replicate 512 ⟨0, 0x04B, 0⟩ } else demoX)] }
def castStart : State := { castS [castOp 0 none] false with clusters := [(0, demoK)] }
theorem wit_multicast_start : tget (castStart.cluster 0).ports 1 = none ∧ castStart.ctx? 0 0 = some (castC 0 [castOp 0 none]) ∧
    castStart.clusterCtxs 0 = [(0, castC 0 [castOp 0 none])] ∧ castStart.launch? demoC.launch = some { demoL with dieset := 3 } ∧
    (List.range 32).filter (fun m => (castOp 0 none).dest.getLsbD (8 + m / 4) && (castOp 0 none).dest.getLsbD (m % 4)) = [0, 1, 4, 5] := by decide +kernel
def castW (next : Nat) (full : Bool) : State := castS [castOp next (some [0, 5])] full
theorem wit_multicast_write : ∀ next < 2, (castW next false).served 0 1 = some (0, castC 0 [castOp next (some [0, 5])], castOp next (some [0, 5])) ∧
    (castW next true).served 0 1 = some (0, castC 0 [castOp next (some [0, 5])], castOp next (some [0, 5])) ∧ ((castW next true).cluster 0).wrote.getLsbD 1 = false ∧
    (castW next true).sliceOpen 0 0 = true ∧ (castW next false).ctxs.map (fun e => (e.1, e.2.uid)) = [(0, 0), (8, 5)] ∧ next < (castOp next none).words.length := by
  decide +kernel
theorem wit_multicast_takes : ∀ next < 2, (castW next false).takesWord 0 0 1 ((castOp next none).words.getD next 0) = true ∧
    (castW next false).takesWord 8 0 1 ((castOp next none).words.getD next 0) = true ∧ (castW next true).takesWord 8 0 1 ((castOp next none).words.getD next 0) = false ∧
    ((castW next false).liveCores 0 0).map (fun y => y.1) = [0] ∧ ((castW next false).liveCores 1 0).map (fun y => y.1) = [0] := by decide +kernel
/-- A half-written multicast of cluster 1's context, into the context of cluster 0, whose own port 1 has a word to write. -/
def halfS : State := { castS [emitOp 0 0x04B] false with
  ctxs := [(0, castC 0 [emitOp 0 0x04B]), (8, castC 5 [castOp 1 (some [0, 5])])],
  clusters := [(0, { demoK with ports := [(1, 0)] }), (1, { Cluster.reset 1 with ports := [(0, 0)] })] }
theorem wit_multicast_half : halfS.served 0 1 = some (0, castC 0 [emitOp 0 0x04B], emitOp 0 0x04B) ∧
    halfS.served 1 0 = some (0, castC 5 [castOp 1 (some [0, 5])], castOp 1 (some [0, 5])) ∧ 0 < (castOp 1 none).next := by decide +kernel

/-- AccessesArePerformedAndAcknowledged: a store into a watched word, which the mask finds a match, or not; a barge that passes, or not. -/
def watchOf (m : Nat) (ok once : Bool) : Watch :=
  { demoW 0 with pa := 0x40, start := 0x40, words := 2, once := once, mask := BitVec.ofNat 64 m, value := 7, image := if ok then placedBarge else [0x4000] }
def watchA (pa : Nat) : Access := accOf .store .device .gen .none [partAt 0 0 pa 4]
def watchS (m : Nat) (ok once : Bool) (pa : Nat) : State := { hotS (watchA pa) with watches := [(5, watchOf m ok once)] }
theorem wit_watched_met : met (watchS 0 true true 0x40) (watchA 0x40) = true ∧ met (watchS 0 true true 0x4C) (watchA 0x4C) = true := by decide +kernel
theorem wit_watched_store : ∀ m ∈ [0, 255], ∀ ok, ∀ pa ∈ [0x40, 0x4C], throughBay (watchA pa) pa = none ∧
    tget (setOut (watchS m ok true pa) (watchA pa)).watches 5 = some (watchOf m ok true) ∧ (setOut (watchS m ok true pa) (watchA pa)).launch? 0 = some demoL ∧
    (watchOf m ok true).pa + 8 * ((pa - 0x40) / 8) ≤ pa ∧
    pa + 4 ≤ (watchOf m ok true).pa + 8 * ((pa - 0x40) / 8) + 8 ∧ (pa - 0x40) / 8 < 2 := by decide +kernel
theorem wit_watched_barge : (setOut (watchS 0 true true 0x40) (watchA 0x40)).bargeOk demoL.part (watchOf 0 true true).image = true ∧
    (setOut (watchS 0 false true 0x40) (watchA 0x40)).bargeOk demoL.part (watchOf 0 false true).image = false := by decide +kernel
theorem wit_watched_match : (0xA5 : W64) &&& 0xFF ≠ 7 &&& 0xFF ∧ (0xA5 : W64) &&& 0 = 7 &&& 0 := by decide

/-! ### Conditions of the clauses on engines, frames, ring commands and links -/

/-- EnginesBeginStepAndAnswer: a FILL over a line that is bad past its first byte; what a range command carries first is behind no failed link; a command
whose page no TLB of its engine holds waits for a walk. -/
theorem wit_fill_bad : let s : State := { rangeS (rangeY .fill .device 0) 1 with badGranules := [127] }
    s.badLine (128 * 31) = true ∧ s.badAt 0xFF8 1 = true ∧ ({ s with badGranules := [124] } : State).badLine (128 * 31) = true ∧
    ({ s with badGranules := [124] } : State).badAt 0xFF8 1 = false ∧ ({ s with badGranules := [124] } : State).linkOpen 0xFF8 = true := by decide +kernel
theorem wit_range_carries : ∀ op ∈ [EngOp.wback, .dropr, .fill], (beginS op).cutCarry 0 .engine ⟨0, 1, 0⟩ 0 .device false = none ∧
    (∀ l ∈ [31, 32], (rangeS (rangeY op .device 0) 1).badLine (128 * l) = false ∧ (rangeS (rangeY op .device 0) 1).linkOpen (128 * l) = true) := by decide +kernel
/-- The first K-step of an L6 operation on core 0, and its second: the lower and the upper half of a brick. -/
def l6M (step : Nat) : MmaOp := { demoM with fmt := .l6, queued := some 0, step := step, a := List.replicate 4 0x3F, b := List.replicate 4 0x3F }
theorem wit_mma_l6 : ∀ step < 2, (mmaS (l6M step) 1).mmas.find? (fun z => z.cl = 0 && z.bay = 0 && z.queued.isSome) = some (l6M step) ∧ (l6M step).a ≠ [] ∧
    (l6M step).fmt = .l6 ∧ (mmaS (l6M step) 1).core? 0 (l6M step).core = some heldX := by decide +kernel
/-- Both codes 19: the magnitudes' sum less 40 is -2, of t6 2896/2048 times 2^-1; signs that differ; a magnitude of 0. -/
theorem test_l6_pair : l6Pair 19 19 = 2896 * 2 ^ 9 ∧ l6Pair 51 19 = -(2896 * 2 ^ 9) ∧ l6Pair 0 19 = 0 ∧ l6Pair 31 31 = 2896 * 2 ^ 15 := by decide

/-- BarriersPostsAndScrubbing: a line that L2 holds, for the slice's patrol and for the storage behind it, and one that it does not hold. -/
theorem wit_scrub_kinds : (({ demo with l2 := [(l2Key 0x4000, [⟨lineOf 0x4000, 0, 0, .normal⟩])] } : State).l2Line (lineOf 0x4000)).isSome = true ∧
    (demo.l2Line (lineOf 0x4000)).isSome = false ∧ demo.badLine 0x4000 = false ∧ homeOf 0x4000 = .dram ∧ homeOf 0x10000004000 = .capacity ∧
    slice demo.regs.scrub 15 0 ≠ 0 ∧ Roomy demo (errorSlot demo) := by unfold Roomy; decide +kernel

/-- StopsDrainAndStick: the context to be saved is being saved for another reason, or is stopped. -/
theorem wit_preempt_leaving : ∀ c ∈ [{ demoC with save := some ⟨.boundary, none⟩ }, { demoC with save := none, stop := some (demoStop 3) }],
    let s : State := { urgentS with ctxs := [(0, c)] }
    s.candidate 0 = some ({ urgentL with acc := 1 }, urgentQ) ∧ (s.freeBays 0).length < s.needs urgentQ ∧ (0, c) ∈ s.clusterCtxs 0 ∧ c.level < 7 ∧
    (∀ p ∈ s.clusterCtxs 0, p = (0, c)) ∧ (c.save ≠ none ∨ c.stop ≠ none) ∧ (∀ u, c.save ≠ some ⟨.level7, u⟩) := by
  intro c hc
  rcases List.mem_cons.mp hc with rfl | hc
  · exact ⟨by decide +kernel, by decide +kernel, by decide +kernel, by decide, by decide +kernel, by decide, fun _ h => by cases h⟩
  · cases List.mem_singleton.mp hc
    exact ⟨by decide +kernel, by decide +kernel, by decide +kernel, by decide, by decide +kernel, by decide, fun _ h => by cases h⟩

/-- DistributorGivesAndTakesDies: a launch whose job has ended, with fewer dies than it needs and a frame to come. -/
theorem wit_restore_ended : let l : Launch := { wideL with minDies := 2, ended := true }
    (distS [l]).restorable l = true ∧ l.change = none ∧ 0 < dieCount l.dieset ∧ dieCount l.dieset < l.maxDies ∧ eligibleFor (distS [l]) l 1 = true := by decide +kernel

/-- RingCommandsTakeEffect: a line that is dirty in a bay, above a dirty line of L2; ranges of whole lines, and of part of one whose bays are clean; a
range of two pages, whose first part completes. -/
def flushS (op : BitVec 8) (d : Nat) (va : W72) (n : W64) : State :=
  { ringS demoCp [] [{ demoR op 5 with addr := va, arg0 := n }] with
    bayLines := [(bayKey 0 3 0x80, [⟨0x80, 0x55, BitVec.ofNat 128 d, .normal⟩])], l2 := [(l2Key 0x4000, [⟨0x80, 0x77, 2, .normal⟩])] }
theorem wit_flush_sound : ∀ d < 2, CachesSound (flushS 2 d 0x4000 128) := by
  intro d hd
  have : d = 0 ∨ d = 1 := by omega
  rcases this with rfl | rfl <;> exact ⟨by decide +kernel, by decide +kernel, by decide +kernel⟩
theorem wit_flush : (∀ op ∈ [2, 3], (flushS (BitVec.ofNat 8 op) 1 0x4000 128).xlateFront 0 0x4000 false = .ok ⟨0x4000, 1, .normal⟩ ∧
      (flushS (BitVec.ofNat 8 op) 1 0x4000 128).linkOpen 0x4000 = true ∧ (flushS (BitVec.ofNat 8 op) 1 0x4000 128).badGranules = []) ∧
    (∃ p ∈ (flushS 2 1 0x4000 128).bayLines, ∃ z ∈ p.2, z.line = lineOf 0x4000 ∧ z.dirty.getLsbD (0x4000 % 128) = true ∧ z.get (0x4000 % 128) 1 = 0x55) ∧
    ((flushS 2 1 0x4000 128).l2Line (lineOf 0x4001)).map (fun z => z.dirty.getLsbD (0x4001 % 128)) = some true := by decide +kernel
theorem wit_inval_part : CleanAbove (flushS 3 0 0x4010 16) (lineOf 0x4010) ∧ (0x4010 : Nat) % 128 ≠ 0 ∧ (0x4000 : Nat) % 128 = 0 := by unfold CleanAbove; decide +kernel
def doneWith (o : Host.Outcome State Fault Refusal) (code : Nat) : Bool := match o with | .next t => t.ringCmds.any (fun d => decide (d.acc = 5 ∧ d.status = some code)) | _ => false
theorem wit_flush_pages : let s := flushS 2 1 0x3F80 256
    4096 - 0x3F80 % 4096 < 256 ∧ doneWith (exec (.flush 5) (partOf s s 5 0x3F80 128)) 0 = true := by decide +kernel
theorem wit_flush_page_lost : let s := flushS 2 1 0x1FFFFFFFF80 256
    4096 - 0x1FFFFFFFF80 % 4096 < 256 ∧ doneWith (exec (.flush 5) (partOf s s 5 0x1FFFFFFFF80 128)) 8 = true := by decide +kernel

/-- LaunchesAreAdmittedAndEnd: a handle list, a record, a barge and a control block that nothing maps; a control block in a peer's memory whose port is down. -/
def recAt (b4 j4 : Byte) : List Host.Cell :=
  [(0x5000, 0x11), (0x5001, 0xFF), (0x5002, 7), (0x5004, 1), (0x5005, 1), (0x5006, 1), (0x500C, j4), (0x5011, 1), (0x5019, 0x70), (0x501C, b4), (0x5028, 1),
   (0x7004, 1), (0x7014, j4), (0x702A, 2), (0x10000, 0xD4)]
def awayL (b4 j4 : Byte) : State :=
  let s := withMem (recAt b4 j4) [] { demo with launches := [newL], ringCmds := [launchR] }
  { s with regs := { s.regs with finzu := [(0, ⟨3, 0, 0⟩)] } }
theorem away_one : OnePage (awayL 0 0x10) ∧ OnePage (awayL 0 0x20) ∧ OnePage (awayL 0x20 0x10) :=
  ⟨⟨rfl, rfl, rfl, rfl, by decide +kernel, by decide +kernel, by decide +kernel, by decide +kernel⟩,
   ⟨rfl, rfl, rfl, rfl, by decide +kernel, by decide +kernel, by decide +kernel, by decide +kernel⟩,
   ⟨rfl, rfl, rfl, rfl, by decide +kernel, by decide +kernel, by decide +kernel, by decide +kernel⟩⟩
def awayRec (b4 j4 : Byte) : List Byte := (List.range 64).map (fun i => readByte (awayL b4 j4).mem (pageOf (0x5000 + i)))
def awayBarge (b4 j4 : Byte) : List W64 := toWords 8 (readBytes (awayL b4 j4).mem (pageOf 0x7000) 64)
theorem away_reads {b j : Byte} (h : OnePage (awayL b j)) : (awayL b j).virtRead 0 0x5000 64 = some (awayRec b j) ∧
    (awayL b j).xlateFront 0 0x5000 false = .ok ⟨0x5000, 1, .normal⟩ ∧ (awayL b j).readBarges 0 0x7000 1 = some [awayBarge b j] := by
  refine ⟨virtRead_one h 64 0x5000 (by decide), xlate_two h 0x5000 false (by decide), ?_⟩
  simp only [State.readBarges, readBarge_one h 0x7000 (by decide) (open_near _ (by decide)), Option.map_some]; rfl
theorem wit_launch_away : (∀ j ∈ [(0x10 : Nat), 0x20], recordOk launchR (toWords 8 (awayRec 0 (BitVec.ofNat 8 j))) = true ∧
      recBarges (toWords 8 (awayRec 0 (BitVec.ofNat 8 j))) = 0x7000 ∧ recCount (toWords 8 (awayRec 0 (BitVec.ofNat 8 j))) = 1 ∧
      (awayL 0 (BitVec.ofNat 8 j)).bargesOk (toWords 8 (awayRec 0 (BitVec.ofNat 8 j))) [awayBarge 0 (BitVec.ofNat 8 j)] = true ∧
      recJcb (toWords 8 (awayRec 0 (BitVec.ofNat 8 j))) = BitVec.ofNat 72 (j * 2 ^ 32)) ∧
    (awayL 0 0x20).xlateFront 0 0x2000000000 true = .error 1 ∧ (awayL 0 0x10).linkOpen (pageOf 0x1000000000) = false ∧
    recordOk launchR (toWords 8 (awayRec 0x20 0x10)) = true ∧ recBarges (toWords 8 (awayRec 0x20 0x10)) = 0x2000007000 ∧
    (awayL 0x20 0x10).readBarges 0 0x2000007000 1 = none := by decide +kernel
theorem wit_launch_away_block : (awayL 0 0x10).xlateFront 0 0x1000000000 true = .ok ⟨pageOf 0x1000000000, 1, .normal⟩ ∧ ¬Sound (awayL 0 0x10) (pageOf 0x1000000000) 64 :=
  ⟨xlate_two away_one.1 0x1000000000 true (by decide), fun h => by have := h.2; rw [wit_launch_away.2.2.1] at this; cases this⟩
theorem wit_launch_away_hand : InHand (awayL 0 0x10) 5 launchR ∧ (awayL 0 0x10).handleList launchR = some [] ∧ (awayL 0 0x10).launch? 5 = some newL ∧
    (awayL 0 0x10).virtRead 0 0x2000005000 64 = none ∧ (awayL 0 0x10).handleList { launchR with arg0 := 0x2000000000, arg1 := 0x10000 } = none := by
  unfold InHand; decide +kernel

/-- RegistersModulesAndIdentity: a processor that waits for the firmware alone, one that is halted, and one whose ring is not valid. -/
theorem wit_firmware_waits : ({ Cp.reset with halt := false } : Cp).ringOk = true ∧ ({ Cp.reset with halt := true } : Cp).halt = true ∧
    ({ Cp.reset with halt := false, ring := 0 } : Cp).ringOk = false := by decide +kernel

/-- LinksHostAndPeers: a read of a sound granule of a bad line; a port that serves its peer, of a die that is not isolated; a stack's link. -/
theorem wit_bad_line : let s : State := { linkS 2 true with badGranules := [0x4020 / 32] }
    s.badAt 0x4000 8 = false ∧ s.badLine 0x4000 = true ∧ s.badAt 0x4020 8 = true ∧ Roomy s (errorSlot s) := by unfold Roomy; decide +kernel
theorem wit_peer_served : (linkS 2 true).portServes 3 7 = true ∧ ((linkS 2 true).die (3 / 2)).phase.toNat < 4 ∧
    ({ linkS 2 true with dies := [(1, { Die.reset with phase := 4 })] } : State).isolated 1 = true := by decide +kernel

/-- SpecialFunctionsRoundTheTrueValue: sources so far out that the boundary is never close: the codes of 64 and of -256. -/
theorem wit_far_out : (valueOf .fp32 0x42800000).rat = some 64 ∧ Fn.farOut .tanh 64 ∧ (64 : Rat) ≠ 0 ∧ (valueOf .bf16 0xC380).rat = some (-256) ∧ Fn.farOut .sigm (-256) ∧
    Fn.farOut .exp2 (-256) ∧ Fn.farOut .erf 64 := by
  refine ⟨by decide +kernel, ?_, by decide, by decide +kernel, ?_, .inl (by norm_num), ?_⟩ <;> (unfold Fn.farOut; norm_num)
theorem wit_true_value : Fn.isValue .tanh 64 (Real.tanh 64) ∧ Fn.isValue .exp2 (-256) ((2 : ℝ) ^ (-256 : ℝ)) ∧ ¬((2 : ℝ) ^ (-256 : ℝ) < 0) :=
  ⟨rfl, rfl, not_lt.mpr (Real.rpow_nonneg (by norm_num) _)⟩

end Sys2Proof.Tests
end

section
/-! PROOFS. Words written out from the encodings (O57), and the module numbers that loading an image leaves as they are (O52). -/

namespace Sys2Proof.Machine

open Sys2Proof.Safety

/-- Settles O57: each word is a closed instance of the decoder, evaluated. -/
theorem wordsDecode : Obligations.WordsDecode := by
  unfold Obligations.WordsDecode
  decide

/-! ### Loading an image changes no module number (R39, R137)

MODCMD alone takes a number out of FREE (R139): the loader writes code and data at their homes and keeps entry records for it. -/

@[simp] theorem State.writeDirty_regs (s : State) (l : Line) : (s.writeDirty l).regs = s.regs := rfl

@[simp] theorem State.l2Put_regs (s : State) (l : Line) (h : Hint) : (s.l2Put l h).regs = s.regs := by
  unfold State.l2Put
  dsimp only
  split
  · rw [State.writeDirty_regs]
  · rfl

@[simp] theorem State.homeWrite_regs (s : State) (pa n x : Nat) (h : Hint) : (s.homeWrite pa n x h).regs = s.regs := by
  unfold State.homeWrite
  dsimp only
  rw [State.homeWritten_regs]
  split
  · rw [State.l2Put_regs]
  · rfl

@[simp] theorem State.deviceBytes_regs (s : State) (pa : Nat) (bs : List Byte) : (s.deviceBytes pa bs).regs = s.regs := by
  unfold State.deviceBytes State.byLine
  generalize linesOf pa bs.length = lines
  induction lines generalizing s with
  | nil => rfl
  | cons line lines ih => rw [List.foldl_cons, ih, State.homeWrite_regs]

theorem State.module?_loadImage (s : State) (m pa dataPa : Nat) (va : W72) (bs : List Byte) (k : Nat) :
    (s.loadImage m pa dataPa va bs).module? k = s.module? k := by
  unfold State.loadImage
  split
  · rfl
  · dsimp only
    split
    · rfl
    · simp only [State.module?, State.deviceBytes_regs]

/-! ### The module table that refutes O52 -/

/-- The power-on state, but with module 1 listed as FREE, which `modState` does not tell from a number that is not listed. The model's own
operations list a number as LIVE, DRAINING or PURGING alone. -/
def listedFree : State := { State.reset with regs := { Regs.reset with modules := [(1, { st := .free, pa := 0, size := 0, entries := [] })] } }

theorem listedFree_listed : listedFree.module? 1 ≠ none := by decide

theorem listedFree_roomy : Roomy listedFree 0 := by
  unfold Roomy
  decide

/-- The entry record of the counterexample's image: at offset 0, with one bay and the smallest partition and budget. -/
def smallestEntry : Entry := { offset := 0, minBays := 1, maxBays := 1, partMin := 1, budget := 1 }

/-- Refutes O52: its image clause says that a number in state FREE is not listed once an image is loaded for it. In `listedFree` number 1 is
in state FREE and listed, the image of `smallestEntry` is good for it, and loading leaves the module table as it was
(`State.module?_loadImage`, which with the premise that the number is not listed gives the clause's claim). -/
theorem not_registersModulesAndIdentity : ¬ Obligations.RegistersModulesAndIdentity := by
  unfold Obligations.RegistersModulesAndIdentity
  intro h
  let l := placedLaunch 0
  let c := Ctx.start 0 l ⟨placedBarge, 0, 0, 0, none, false, none⟩ smallestEntry [0] 0
  obtain ⟨-, -, -, -, -, -, -, -, -, -, -, -, -, -, -, -, -, -, image, -⟩ := h listedFree 0 0 0 1 placedModule l c 0 0
  obtain ⟨-, loaded⟩ := image 0 0 0 0 0 0 smallestEntry (by decide) (by decide) (by decide)
  obtain ⟨-, unlisted, -⟩ := loaded (by decide) listedFree_roomy
  exact listedFree_listed ((State.module?_loadImage listedFree 1 0 0 0 _ 1).symm.trans unlisted)

end Sys2Proof.Machine
end

section
/-! PROOFS. Operations that leave memory as it is (for O59). -/

namespace Sys2Proof.Machine
open Sys2Proof

/-- A choice of states is a choice of memories. -/
@[simp] theorem State.mem_ite (p : Prop) [Decidable p] (s t : State) : (if p then s else t).mem = if p then s.mem else t.mem := by
  split <;> rfl

theorem foldl_mem {α : Type} (f : State → α → State) (hf : ∀ s x, (f s x).mem = s.mem) (xs : List α) (s : State) :
    (xs.foldl f s).mem = s.mem := by
  induction xs generalizing s with
  | nil => rfl
  | cons x xs ih => rw [List.foldl_cons, ih, hf]

@[simp] theorem State.setLclock_mem (s : State) (x : BitVec 48) (a : Option Nat) : (s.setLclock x a).mem = s.mem := by
  unfold State.setLclock
  split <;> simp

@[simp] theorem State.tellDies_mem (s : State) (dies : List Nat) : (s.tellDies dies).mem = s.mem :=
  foldl_mem _ (fun _ _ => State.message_mem ..) _ _

@[simp] theorem State.modCtx_mem (s : State) (n slot : Nat) (f : Ctx → Ctx) : (s.modCtx n slot f).mem = s.mem := by
  unfold State.modCtx
  split <;> simp

@[simp] theorem State.modCore_mem (s : State) (n k : Nat) (f : Core → Core) : (s.modCore n k f).mem = s.mem := by
  unfold State.modCore
  split <;> simp

@[simp] theorem State.setCp_mem (s : State) (p : Nat) (c : Cp) : (s.setCp p c).mem = s.mem := rfl

@[simp] theorem State.setTrap_mem (s : State) (n : Nat) (t : TrapRegs) : (s.setTrap n t).mem = s.mem := rfl

@[simp] theorem State.setRet_mem (s : State) (n : Nat) (r : RetRegs) : (s.setRet n r).mem = s.mem := rfl

@[simp] theorem State.addPost_mem (s : State) (p : Nat → Post) : (s.addPost p).mem = s.mem := rfl

@[simp] theorem State.spoil_mem (s : State) (pa : Nat) : (s.spoil pa).mem = s.mem := rfl

@[simp] theorem State.fireMonitors_mem (s : State) (line : Nat) : (s.fireMonitors line).mem = s.mem := rfl

@[simp] theorem State.fireWatch_mem (s : State) (key pa n : Nat) : (s.fireWatch key pa n).mem = s.mem := by
  obtain ⟨_, _, _, _, _, _, _, _, h⟩ := State.fireWatch_frame s key pa n
  rw [h]

@[simp] theorem State.noteCmds_mem (s : State) (pa n : Nat) : (s.noteCmds pa n).mem = s.mem := rfl

@[simp] theorem State.l2Drop_mem (s : State) (n : Nat) : (s.l2Drop n).mem = s.mem := rfl

@[simp] theorem State.bayDrop_mem (s : State) (n b line : Nat) : (s.bayDrop n b line).mem = s.mem := rfl

@[simp] theorem State.l2Leave_mem (s : State) (n : Nat) : (s.l2Leave n).mem = s.mem := by
  unfold State.l2Leave
  split <;> simp

@[simp] theorem State.bayRenew_mem (s : State) (n b : Nat) : (s.bayRenew n b).mem = s.mem := rfl

@[simp] theorem State.refreshBays_mem (s : State) (n slot : Nat) : (s.refreshBays n slot).mem = s.mem := by
  unfold State.refreshBays
  split
  · rfl
  · exact foldl_mem _ (fun _ _ => State.bayRenew_mem ..) _ _

@[simp] theorem State.dropFirstLevel_mem (s : State) (line : Nat) : (s.dropFirstLevel line).mem = s.mem := rfl

@[simp] theorem State.uniTouch_mem (s : State) (n pa : Nat) : (s.uniTouch n pa).mem = s.mem := by
  unfold State.uniTouch
  simp

@[simp] theorem State.uniWrite_mem (s : State) (n pa : Nat) : (s.uniWrite n pa).mem = s.mem := by
  unfold State.uniWrite
  simp

@[simp] theorem State.tlbEnter_mem (s : State) (die unit : Nat) (e : TlbEnt) (seen : List TlbEnt) :
    (s.tlbEnter die unit e seen).mem = s.mem := rfl

@[simp] theorem State.forgetUsers_mem (s : State) (gone : Nat × Nat → Bool) : (s.forgetUsers gone).mem = s.mem := rfl

@[simp] theorem State.countCtx_mem (s : State) (n slot w k : Nat) : (s.countCtx n slot w k).mem = s.mem := by
  unfold State.countCtx
  simp

@[simp] theorem State.countLaunch_mem (s : State) (l w k : Nat) : (s.countLaunch l w k).mem = s.mem := rfl

@[simp] theorem State.sendCounts_mem (s : State) (n slot : Nat) : (s.sendCounts n slot).mem = s.mem := by
  unfold State.sendCounts
  split <;> simp

@[simp] theorem State.cancelAll_mem (s : State) (uid : Nat) : (s.cancelAll uid).mem = s.mem := rfl

@[simp] theorem State.stopCtx_mem (s : State) (n slot : Nat) (lane : Option Nat) (w : Why) : (s.stopCtx n slot lane w).mem = s.mem := by
  unfold State.stopCtx
  dsimp only
  repeat' split
  all_goals simp

@[simp] theorem State.setReady_mem (s : State) (n slot : Nat) (c : Ctx) : (s.setReady n slot c).mem = s.mem := rfl

@[simp] theorem State.resumeCtx_mem (s : State) (n slot : Nat) (c : Ctx) : (s.resumeCtx n slot c).mem = s.mem := rfl

@[simp] theorem State.charge_mem (s : State) (n sl times : Nat) : (s.charge n sl times).mem = s.mem := rfl

@[simp] theorem State.retireAt_mem (s : State) (n slot : Nat) (yields bubble : Bool) (pc : W64) :
    (s.retireAt n slot yields bubble pc).mem = s.mem := by
  unfold State.retireAt
  split <;> simp

@[simp] theorem State.blockCtx_mem (s : State) (n slot : Nat) (w : Wait) : (s.blockCtx n slot w).mem = s.mem := by
  unfold State.blockCtx
  simp

@[simp] theorem State.spWrite_mem (s : State) (a n x : Nat) : (s.spWrite a n x).mem = s.mem := by
  unfold State.spWrite
  split <;> simp

@[simp] theorem State.joins_mem (s : State) (pa : Nat) (w : SWPair) : (s.joins pa w).mem = s.mem := by
  unfold State.joins
  simp

@[simp] theorem State.joinsAt_mem (s : State) (pa : Nat) : (s.joinsAt pa).mem = s.mem := by
  unfold State.joinsAt
  simp

@[simp] theorem State.deliver_mem (s : State) (a : Access) (p : Machine.Part) (x : Nat) : (s.deliver a p x).mem = s.mem := by
  unfold State.deliver
  dsimp only
  repeat' split
  all_goals simp

@[simp] theorem State.keepNarrow_mem (s : State) (a : Access) (p : Machine.Part) : (s.keepNarrow a p).mem = s.mem := by
  unfold State.keepNarrow
  simp

@[simp] theorem State.settle_mem (s : State) (a : Access) (p : Machine.Part) : (s.settle a p).mem = s.mem := by
  unfold State.settle
  split <;> simp

@[simp] theorem State.modAcc_mem (s : State) (id : Nat) (f : Access → Access) : (s.modAcc id f).mem = s.mem := rfl

@[simp] theorem State.latchesFull_mem (s : State) (a : Access) : (s.latchesFull a).mem = s.mem := by
  unfold State.latchesFull
  split <;> simp

@[simp] theorem State.failCore_mem (s : State) (n k : Nat) : (s.failCore n k).mem = s.mem := by
  unfold State.failCore
  simp

@[simp] theorem State.failAccess_mem (s : State) (a : Access) (w : Why) : (s.failAccess a w).mem = s.mem := by
  unfold State.failAccess
  split <;> simp

@[simp] theorem State.freeTarget_mem (s : State) (a : Access) : (s.freeTarget a).mem = s.mem := by
  unfold State.freeTarget
  split <;> simp

@[simp] theorem State.cutAccess_mem (s : State) (a : Access) : (s.cutAccess a).mem = s.mem := by
  unfold State.cutAccess
  simp

@[simp] theorem State.losePeer_mem (s : State) (a : Access) : (s.losePeer a).mem = s.mem := by
  unfold State.losePeer
  simp

@[simp] theorem State.finishAccess_mem (s : State) (id : Nat) : (s.finishAccess id).mem = s.mem := by
  have settled (a : Access) (ps : List Part) (u : State) : (ps.foldl (fun s p => s.settle a p) u).mem = u.mem :=
    foldl_mem _ (fun _ _ => State.settle_mem ..) _ _
  unfold State.finishAccess
  dsimp only
  repeat' split
  all_goals simp [settled]

@[simp] theorem State.acknowledge_mem (s : State) (id : Nat) : (s.acknowledge id).mem = s.mem := by
  unfold State.acknowledge
  split <;> simp

@[simp] theorem State.startAccess_mem (s : State) (a : Nat → Access) : (s.startAccess a).mem = s.mem := by
  unfold State.startAccess
  simp

@[simp] theorem State.modFlight_mem (s : State) (n l fl : Nat) (f : Flight → Flight) : (s.modFlight n l fl f).mem = s.mem := rfl

@[simp] theorem State.dropHeld_mem (s : State) (n l slot : Nat) : (s.dropHeld n l slot).mem = s.mem := rfl

@[simp] theorem State.modSlot_mem (s : State) (n slot : Nat) (f : BitVec 6) (g : Slot → Slot) : (s.modSlot n slot f g).mem = s.mem := by
  unfold State.modSlot
  simp

@[simp] theorem State.releaseSteps_mem (s : State) (l : Nat) (but : Option Nat) : (s.releaseSteps l but).mem = s.mem := rfl

@[simp] theorem State.noteLost_mem (s : State) (l : Nat) (lost : BitVec 8) : (s.noteLost l lost).mem = s.mem := rfl

@[simp] theorem State.requestSave_mem (s : State) (n slot : Nat) (w : SaveWhy) : (s.requestSave n slot w).mem = s.mem := by
  unfold State.requestSave
  dsimp only
  repeat' split
  all_goals simp

@[simp] theorem State.reap_mem (s : State) (l : Nat) : (s.reap l).mem = s.mem := by
  unfold State.reap
  split <;> simp

@[simp] theorem State.failWindows_mem (s : State) (uid : Nat) (keys : List Nat) : (s.failWindows uid keys).mem = s.mem := by
  unfold State.failWindows
  dsimp only
  refine foldl_mem _ (fun _ _ => ?_) _ _
  simp

@[simp] theorem State.removeCtx_mem (s : State) (n slot : Nat) : (s.removeCtx n slot).mem = s.mem := by
  unfold State.removeCtx
  split <;> simp

@[simp] theorem State.takeSave_mem (s : State) (n slot : Nat) : (s.takeSave n slot).mem = s.mem := by
  unfold State.takeSave
  split <;> simp

@[simp] theorem State.askFill_mem (s : State) (n line : Nat) (seq : Bool) (soft slot : Option Nat) (levels : List Level) :
    (s.askFill n line seq soft slot levels).mem = s.mem := by
  induction levels generalizing s with
  | nil => rfl
  | cons lvl outer ih =>
    unfold State.askFill
    dsimp only
    repeat' split
    all_goals simp [ih]

@[simp] theorem State.demand_mem (s : State) (n slot line : Nat) : (s.demand n slot line).mem = s.mem := by
  unfold State.demand
  rw [foldl_mem _ (fun _ _ => by simp), State.askFill_mem]

@[simp] theorem State.enterLine_mem (s : State) (n line : Nat) : (s.enterLine n line).mem = s.mem := by
  unfold State.enterLine
  simp

@[simp] theorem State.prefetch_mem (s : State) (gen : Nat) (lvl : Sys2Proof.Level) (start : W64) (lines : Nat) :
    (s.prefetch gen lvl start lines).mem = s.mem := by
  unfold State.prefetch
  dsimp only
  refine foldl_mem _ (fun _ _ => ?_) _ _
  simp

@[simp] theorem State.fetchTrap_mem (s : State) (n slot : Nat) (c : Ctx) (cls : Nat) : (s.fetchTrap n slot c cls).mem = s.mem := by
  unfold State.fetchTrap
  simp

@[simp] theorem State.fitCapt_mem (s : State) (n : Nat) (keep : List Nat) : (s.fitCapt n keep).mem = s.mem := rfl

@[simp] theorem State.loadCapt_mem (s : State) (n key : Nat) (e : CapEntry) : (s.loadCapt n key e).mem = s.mem := rfl

@[simp] theorem State.putCapt_mem (s : State) (n key : Nat) (e : CapEntry) : (s.putCapt n key e).mem = s.mem := rfl

@[simp] theorem State.writeWord_mem (s : State) (key num : Nat) (w : W64) : (s.writeWord key num w).mem = s.mem := by
  unfold State.writeWord
  dsimp only
  split
  · rfl
  · rw [foldl_mem _ (fun _ _ => State.modCore_mem ..), State.setCtx_mem]

@[simp] theorem State.startWord_mem (s : State) (n k op : Nat) : (s.startWord n k op).mem = s.mem := by
  unfold State.startWord
  simp

@[simp] theorem State.waitCore_mem (s : State) (n k why : Nat) : (s.waitCore n k why).mem = s.mem := by
  unfold State.waitCore
  simp

@[simp] theorem State.laneFault_mem (s : State) (e : Nat) (bits : W64) (w : Why) : (s.laneFault e bits w).mem = s.mem := by
  unfold State.laneFault
  simp

@[simp] theorem State.leaveCore_mem (s : State) (n slot k : Nat) : (s.leaveCore n slot k).mem = s.mem := by
  unfold State.leaveCore
  split <;> simp

@[simp] theorem State.forgetWalks_mem (s : State) (user : Nat × Nat) : (s.forgetWalks user).mem = s.mem := rfl

@[simp] theorem State.putCmd_mem (s : State) (c : Cmd) : (s.putCmd c).mem = s.mem := rfl

@[simp] theorem State.noteWaiting_mem (s : State) (n : Nat) : (s.noteWaiting n).mem = s.mem := rfl

@[simp] theorem State.dropMma_mem (s : State) (id : Nat) : (s.dropMma id).mem = s.mem := rfl

@[simp] theorem State.endOp_mem (s : State) (m : MmaOp) (failed : Bool) : (s.endOp m failed).mem = s.mem := by
  unfold State.endOp
  simp

@[simp] theorem State.judgeTags_mem (s : State) (m : MmaOp) : (s.judgeTags m).mem = s.mem := by
  unfold State.judgeTags
  dsimp only
  repeat' split
  all_goals simp

@[simp] theorem State.judgeBay_mem (s : State) (n bay : Nat) : (s.judgeBay n bay).mem = s.mem :=
  foldl_mem _ (fun _ _ => State.judgeTags_mem ..) _ _

@[simp] theorem State.countCycle_mem (s : State) (n : Nat) : (s.countCycle n).mem = s.mem := by
  unfold State.countCycle
  dsimp only
  generalize hu : List.foldl _ s _ = u
  have hm : u.mem = s.mem := hu ▸ foldl_mem _ (fun _ _ => by split <;> simp) _ _
  repeat' split
  all_goals simp [hm]

@[simp] theorem State.sendAll_mem (s : State) (n : Nat) : (s.sendAll n).mem = s.mem :=
  foldl_mem _ (fun _ _ => State.sendCounts_mem ..) _ _

@[simp] theorem State.faultFetch_mem (s : State) (lvl : Sys2Proof.Level) (unit line cls : Nat) (clk : BitVec 48) :
    (s.faultFetch lvl unit line cls clk).mem = s.mem := by
  unfold State.faultFetch
  dsimp only
  refine foldl_mem _ (fun _ _ => ?_) _ _
  simp

@[simp] theorem State.queueFrame_mem (s : State) (l key die : Nat) (c : Ctx) : (s.queueFrame l key die c).mem = s.mem := by
  unfold State.queueFrame
  split <;> simp

@[simp] theorem State.chargeSwap_mem (s : State) (l : Nat) : (s.chargeSwap l).mem = s.mem := rfl

@[simp] theorem State.giveBack_mem (s : State) (n slot l : Nat) (p : Nat × Nat × Nat) : (s.giveBack n slot l p).mem = s.mem := rfl

@[simp] theorem State.dropBehind_mem (s : State) (uid : Nat) : (s.dropBehind uid).mem = s.mem :=
  foldl_mem _ (fun _ _ => by repeat' split <;> simp) _ _

@[simp] theorem State.dropMove_mem (s : State) (n slot : Nat) : (s.dropMove n slot).mem = s.mem := by
  unfold State.dropMove
  split <;> simp

@[simp] theorem State.disarm_mem (s : State) (watch : Option Nat) : (s.disarm watch).mem = s.mem := rfl

@[simp] theorem State.writeHalt_mem (s : State) (p : Nat) (halt : Bool) : (s.writeHalt p halt).mem = s.mem := by
  unfold State.writeHalt
  simp

@[simp] theorem State.complete_mem (s : State) (acc status errs : Nat) : (s.complete acc status errs).mem = s.mem := by
  unfold State.complete
  split <;> simp

@[simp] theorem State.endUnadmitted_mem (s : State) (acc status : Nat) : (s.endUnadmitted acc status).mem = s.mem := by
  unfold State.endUnadmitted
  simp

@[simp] theorem State.abortQueued_mem (s : State) (l : Launch) : (s.abortQueued l).mem = s.mem := by
  unfold State.abortQueued
  dsimp only
  refine foldl_mem _ (fun _ _ => ?_) _ _
  simp

@[simp] theorem State.extendMeas_mem (s : State) (n : Nat) (data : List Byte) : (s.extendMeas n data).mem = s.mem := rfl

@[simp] theorem State.modFailed_mem (s : State) : (s.modFailed).mem = s.mem := rfl

@[simp] theorem State.setModule_mem (s : State) (m : Nat) (x : Machine.Module) : (s.setModule m x).mem = s.mem := rfl

@[simp] theorem State.modWrite_mem (s : State) (x : W64) : (s.modWrite x).mem = s.mem := by
  unfold State.modWrite
  simp

@[simp] theorem State.setTollCfg_mem (s : State) (n : Nat) (x : W64) : (s.setTollCfg n x).mem = s.mem := by
  unfold State.setTollCfg
  simp

@[simp] theorem State.setTollCost_mem (s : State) (n : Nat) (x : W64) : (s.setTollCost n x).mem = s.mem := rfl

@[simp] theorem State.usbouloWrites_mem (s : State) : (s.usbouloWrites).mem = s.mem := by
  unfold State.usbouloWrites
  dsimp only
  refine foldl_mem _ (fun _ _ => ?_) _ _
  simp

@[simp] theorem State.retrainPort_mem (s : State) (p : Nat) (st : BitVec 2) : (s.retrainPort p st).mem = s.mem := rfl

@[simp] theorem State.resetFailed_mem (s : State) (d : Nat) : (s.resetFailed d).mem = s.mem := rfl

@[simp] theorem State.cutLink_mem (s : State) (l : LinkName) (clk : BitVec 48) : (s.cutLink l clk).mem = s.mem := by
  unfold State.cutLink
  dsimp only
  rw [foldl_mem _ (fun _ _ => State.stopCtx_mem ..)]
  rw [foldl_mem _ (fun _ _ => State.faultFetch_mem ..), foldl_mem _ (fun _ _ => State.cutAccess_mem ..)]

@[simp] theorem State.setIdent_mem (s : State) (i : Machine.Ident) : (s.setIdent i).mem = s.mem := rfl

@[simp] theorem State.setRegs_mem (s : State) (r : Regs) : (s.setRegs r).mem = s.mem := rfl

@[simp] theorem State.writePlain_mem (s : State) (off : Nat) (x : W64) : (s.writePlain off x).mem = s.mem := by
  unfold State.writePlain
  simp

end Sys2Proof.Machine
end

section
/-! PROOFS. Operations that write memory, or may, keep its one form (for O59). -/

namespace Sys2Proof.Machine
open Sys2Proof

theorem State.push_wf {s : State} (h : Memory.wf s.mem = true) (l : Nat) (b : List W64) (cap : Nat) (die : Option Nat) (watch : Option Nat) :
    ∀ t, (s.push l b cap die watch) = some t → Memory.wf t.mem = true := by
  unfold State.push
  grind [State.addPost_mem, State.modLaunch_mem, State.message_mem]

theorem State.tlbLook_wf {s : State} (h : Memory.wf s.mem = true) (n : Nat) (space : BitVec 2) (va : W72) :
    Memory.wf (s.tlbLook n space va).2.mem = true := by
  unfold State.tlbLook
  grind [State.setCluster_mem]

theorem State.xlate_wf {s : State} (h : Memory.wf s.mem = true) (n : Nat) (space : BitVec 2) (va : W72) (write : Bool) (user : Nat × Nat) :
    Memory.wf (s.xlate n space va write user).2.mem = true := by
  unfold State.xlate
  grind [State.tlbLook_wf]

theorem State.errorRecord_wf {s : State} (h : Memory.wf s.mem = true) (source kind : Nat) (die : Option Nat) (loc unit : Nat) (lseq : W64) :
    Memory.wf (s.errorRecord source kind die loc unit lseq).mem = true := by
  unfold State.errorRecord
  grind [State.systemBytes_wf]

theorem State.storageError_wf {s : State} (h : Memory.wf s.mem = true) (o : Attempt) (pa : Nat) (die : Option Nat) (lseq : W64) :
    Memory.wf (s.storageError o pa die lseq).mem = true := by
  unfold State.storageError
  grind [State.errorRecord_wf, State.spoil_mem]

theorem State.poolError_wf {s : State} (h : Memory.wf s.mem = true) (o : Attempt) (n : Nat) (lseq : W64) :
    Memory.wf (s.poolError o n lseq).mem = true := by
  unfold State.poolError
  grind [State.errorRecord_wf, State.setCluster_mem]

theorem State.trace_wf {s : State} (h : Memory.wf s.mem = true) (space : BitVec 2) (event : Nat) (at_ : Option (Nat × Nat)) (seq ttag : W64)
    (arg : Nat) :
    Memory.wf (s.trace space event at_ seq ttag arg).mem = true := by
  unfold State.trace
  grind [State.setLclock_mem, State.systemBytes_wf, State.setRet_mem]

theorem State.traceCtx_wf {s : State} (h : Memory.wf s.mem = true) (n slot event arg : Nat) :
    Memory.wf (s.traceCtx n slot event arg).mem = true := by
  unfold State.traceCtx
  grind [State.trace_wf]

theorem State.traceLaunch_wf {s : State} (h : Memory.wf s.mem = true) (l : Launch) (event arg : Nat) :
    Memory.wf (s.traceLaunch l event arg).mem = true := by
  unfold State.traceLaunch
  grind [State.trace_wf]

theorem State.traceModule_wf {s : State} (h : Memory.wf s.mem = true) (m state : Nat) : Memory.wf (s.traceModule m state).mem = true :=
  foldl_wf _ (fun _ _ h => State.trace_wf h ..) _ h

theorem State.traceReset_wf {s : State} (h : Memory.wf s.mem = true) (d phase : Nat) : Memory.wf (s.traceReset d phase).mem = true :=
  foldl_wf _ (fun _ _ h => State.trace_wf h ..) _ h

theorem State.logRecords_wf {s : State} (h : Memory.wf s.mem = true) (ring : BitVec 2) (launch dropped : Nat) (resumable : Bool) (ttag : W64)
    (recs : List (List W64)) : Memory.wf (s.logRecords ring launch dropped resumable ttag recs).1.mem = true := by
  unfold State.logRecords
  dsimp only
  rw [State.setTrap_mem]
  refine foldl_wf _ (fun s r h => State.trace_wf ?_ ..) _ h
  rw [State.countLaunch_mem, State.setTrap_mem]
  exact State.systemBytes_wf h ..

theorem State.readElem_wf {s : State} (h : Memory.wf s.mem = true) (n : Nat) (ag : Agent) (sc : Sys2Proof.Scope) (pa size : Nat) (h' : Hint) :
    Memory.wf (s.readElem n ag sc pa size h').2.mem = true := by
  unfold State.readElem
  grind [State.readAt_wf]

theorem State.writeElem_wf {s : State} (h : Memory.wf s.mem = true) (n : Nat) (ag : Agent) (sc : Sys2Proof.Scope) (pa size x : Nat) (h' : Hint) :
    Memory.wf (s.writeElem n ag sc pa size x h').mem = true := by
  unfold State.writeElem
  grind [State.spWrite_mem, State.writeAt_wf]

theorem State.carryThose_wf {s : State} (h : Memory.wf s.mem = true) (mine : Narrow → Bool) (sc : Scope) :
    Memory.wf (s.carryThose mine sc).mem = true := by
  refine foldl_wf _ (fun s r h => ?_) _ h
  grind [State.bayClean_wf, State.l2Clean_wf]

theorem State.carry_wf {s : State} (h : Memory.wf s.mem = true) (uid : Nat) (ag : Agent) (key : Key) (pm : BitVec 8) (sc : Sys2Proof.Scope) :
    Memory.wf (s.carry uid ag key pm sc).mem = true := by
  unfold State.carry
  grind [State.carryThose_wf]

theorem State.carryStrong_wf {s : State} (h : Memory.wf s.mem = true) (uid : Nat) (ag : Agent) (key : Key) (sc : Sys2Proof.Scope) :
    Memory.wf (s.carryStrong uid ag key sc).mem = true := by
  unfold State.carryStrong
  grind [State.carryThose_wf]

theorem State.carryFor_wf {s : State} (h : Memory.wf s.mem = true) (uid : Nat) (ag : Agent) (key : Key) (pm : BitVec 8) (sc : Sys2Proof.Scope)
    (p : Machine.Part) :
    Memory.wf (s.carryFor uid ag key pm sc p).mem = true := by
  unfold State.carryFor
  grind [State.carry_wf, State.carryStrong_wf]

theorem State.performPart_wf {s : State} (h : Memory.wf s.mem = true) (a : Access) (p : Machine.Part) :
    Memory.wf (s.performPart a p).2.mem = true := by
  unfold State.performPart
  grind [State.readElem_wf, State.uniTouch_mem, State.keepNarrow_mem, State.writeElem_wf, State.uniWrite_mem, State.spWrite_mem, State.bayClean_wf,
    State.atomicAt_wf, State.bayRefresh_wf, State.joinsAt_mem]

theorem State.performOne_wf {s : State} (h : Memory.wf s.mem = true) (id i : Nat) : Memory.wf (s.performOne id i).mem = true := by
  unfold State.performOne
  grind [State.modAcc_mem, State.performPart_wf]

theorem State.perform_wf {s : State} (h : Memory.wf s.mem = true) (id : Nat) (which : List Nat) (o : Attempt) :
    Memory.wf (s.perform id which o).mem = true := by
  unfold State.perform
  split
  · exact h
  · rename_i a _
    split
    · exact h
    · extract_lets todo ps mem die seq clk s1 a1 r o1 s2 s3 s4 lanes s5
      have h1 : Memory.wf s1.mem = true := by simpa [s1] using h
      split
      · simpa using h1
      · have h2 : Memory.wf s2.mem = true := by
          simp only [s2, r]
          repeat' split
          all_goals grind [State.poolError_wf, State.storageError_wf]
        split
        · simpa using h2
        · split
          · rw [State.cutAccess_mem]
            exact State.storageError_wf h2 ..
          · have h3 : Memory.wf s3.mem = true := by simpa [s3] using h2
            have h4 : Memory.wf s4.mem = true := foldl_wf _ (fun _ _ h => State.carryFor_wf h ..) _ h3
            rw [State.finishAccess_mem]
            exact foldl_wf _ (fun _ _ h => State.performOne_wf h ..) _ h4

theorem State.markFrame_wf {s : State} (h : Memory.wf s.mem = true) (key st : Nat) : Memory.wf (s.markFrame key st).mem = true := by
  unfold State.markFrame
  grind [State.homeWrite_wf]

theorem State.freeFrameAt_wf {s : State} (h : Memory.wf s.mem = true) (key : Nat) : Memory.wf (s.freeFrameAt key).mem = true := by
  unfold State.freeFrameAt
  grind [State.markFrame_wf]

theorem State.faultLaunch_wf {s : State} (h : Memory.wf s.mem = true) (l : Nat) : Memory.wf (s.faultLaunch l).mem = true := by
  unfold State.faultLaunch
  dsimp only
  split
  · exact h
  · split
    · exact h
    · refine foldl_wf _ (fun _ _ h => by rwa [State.stopCtx_mem]) _ ?_
      rw [State.tellDies_mem, State.modLaunch_mem]
      refine foldl_wf _ (fun _ _ h => State.freeFrameAt_wf h ..) _ ?_
      rw [foldl_mem _ (fun _ _ => State.addPost_mem ..), foldl_mem _ (fun _ _ => State.addPost_mem ..)]
      exact h

theorem State.postFail_wf {s : State} (h : Memory.wf s.mem = true) (l die : Nat) (addr : W72) (xkind : Nat) :
    Memory.wf (s.postFail l die addr xkind).mem = true := by
  unfold State.postFail
  grind [State.faultLaunch_wf, State.logRecords_wf]

theorem State.pushCont_wf {s : State} (h : Memory.wf s.mem = true) (l die : Nat) (va : W72) : Memory.wf (s.pushCont l die va).mem = true := by
  unfold State.pushCont
  dsimp only
  split
  · exact h
  · split
    · exact State.postFail_wf h ..
    · split
      · generalize hp : s.push _ _ _ _ = p
        cases p with
        | none => simpa using h
        | some t => exact State.push_wf h _ _ _ _ _ t hp
      · simpa using h

theorem State.writeSW_wf {s : State} (h : Memory.wf s.mem = true) (sc : Sys2Proof.Scope) (pa : Nat) (h' : Hint) (w : SWPair) :
    Memory.wf (s.writeSW sc pa h' w).mem = true := by
  unfold State.writeSW
  grind [State.writeAt_wf]

theorem State.resolveAt_wf {s : State} (h : Memory.wf s.mem = true) (l die : Nat) (sc : Sys2Proof.Scope) (va : W72) (p : Place) (val : W64)
    (err : Bool) (code : BitVec 8) (cancel : Bool) :
    ∀ t, (s.resolveAt l die sc va p val err code cancel) = some t → Memory.wf t.mem = true := by
  unfold State.resolveAt
  grind [State.joins_mem, State.writeSW_wf, State.pushCont_wf]

theorem State.resolveSlot_wf {s : State} (h : Memory.wf s.mem = true) (n slot : Nat) (f : BitVec 6) (st : SlotState) (code : BitVec 8)
    (kind : BitVec 4) (addr : W72) (value : W64) (uncorr : Bool) :
    Memory.wf (s.resolveSlot n slot f st code kind addr value uncorr).mem = true := by
  unfold State.resolveSlot
  grind [State.setCtx_mem, State.modFlight_mem, State.postFail_wf, State.carryFor_wf, State.reach_mem, State.resolveAt_wf, State.modSlot_mem,
    State.refreshBays_mem]

theorem State.newDieset_wf {s : State} (h : Memory.wf s.mem = true) (l : Nat) (f : Launch → Launch) :
    Memory.wf (s.newDieset l f).mem = true := by
  unfold State.newDieset
  grind [State.noteLost_mem, State.modLaunch_mem, State.tellDies_mem, State.traceLaunch_wf]

theorem State.stickCtx_wf {s : State} (h : Memory.wf s.mem = true) (n slot : Nat) : Memory.wf (s.stickCtx n slot).mem = true := by
  unfold State.stickCtx
  grind [State.faultLaunch_wf, State.stopCtx_mem]

theorem State.boundary_wf {s : State} (h : Memory.wf s.mem = true) (l : Nat) : Memory.wf (s.boundary l).mem = true := by
  unfold State.boundary
  dsimp only
  repeat' split
  · exact h
  · exact h
  · exact h
  · simpa using h
  · rw [State.releaseSteps_mem]
    exact State.newDieset_wf h ..
  · refine foldl_wf _ (fun _ _ h => State.stickCtx_wf h ..) _ ?_
    rw [foldl_mem _ (fun _ _ => State.requestSave_mem ..), State.releaseSteps_mem]
    exact State.newDieset_wf h ..

theorem State.reached_wf {s : State} (h : Memory.wf s.mem = true) (l uid : Nat) (inStep : Bool) :
    Memory.wf (s.reached l uid inStep).mem = true := by
  unfold State.reached
  grind [State.boundary_wf, State.modLaunch_mem]

theorem State.loseDie_wf {s : State} (h : Memory.wf s.mem = true) (d l : Nat) : Memory.wf (s.loseDie d l).mem = true := by
  unfold State.loseDie
  grind [State.newDieset_wf, State.modLaunch_mem, State.releaseSteps_mem]

theorem State.writeBackBays_wf {s : State} (h : Memory.wf s.mem = true) (n : Nat) (c : Ctx) (drop : Bool) :
    Memory.wf (s.writeBackBays n c drop).mem = true :=
  foldl_wf _ (fun _ _ h => State.bayWriteBack_wf h ..) _ h

theorem State.endCtx_wf {s : State} (h : Memory.wf s.mem = true) (n slot : Nat) : Memory.wf (s.endCtx n slot).mem = true := by
  unfold State.endCtx
  grind [State.reached_wf, State.message_mem, State.removeCtx_mem]

theorem State.fcancel_wf {s : State} (h : Memory.wf s.mem = true) (n slot : Nat) (f : BitVec 6) : Memory.wf (s.fcancel n slot f).mem = true := by
  unfold State.fcancel
  grind [State.resolveSlot_wf]

theorem State.takeCredit_wf {s : State} (h : Memory.wf s.mem = true) (n slot : Nat) (x : Ctx) (k : Nat) :
    ∀ t, (s.takeCredit n slot x k) = some t → Memory.wf t.mem = true := by
  unfold State.takeCredit
  grind [State.setCtx_mem, State.modLaunch_mem]

theorem State.pushAll_wf {s : State} (h : Memory.wf s.mem = true) (launch die prio : Nat) (part : W32) (bs : List (List W64)) :
    ∀ t, s.pushAll launch die prio part bs = .ok t → Memory.wf t.mem = true := by
  induction bs generalizing s with
  | nil => rintro t ⟨⟩; exact h
  | cons b bs ih =>
    intro t ht
    unfold State.pushAll at ht
    split at ht
    · cases ht
    · split at ht
      · cases ht
      · rename_i u hu
        exact ih (State.push_wf h _ _ _ _ _ u hu) t ht

theorem State.carryAll_wf {s : State} (h : Memory.wf s.mem = true) (x : Ctx) (sc : Sys2Proof.Scope) :
    Memory.wf (s.carryAll x sc).mem = true := by
  unfold State.carryAll
  grind [State.carry_wf]

theorem State.placeMem_wf {s : State} (h : Memory.wf s.mem = true) (n k : Nat) (c : Ctx) (write : Bool) (ws : List (Want × W72)) :
    Memory.wf (s.placeMem n k c write ws).2.mem = true := by
  induction ws generalizing s with
  | nil => exact h
  | cons w ws ih =>
    have hx := State.xlate_wf h n c.ring w.2 write (userOf c.uid (k + 1))
    unfold State.placeMem
    grind

theorem placeSp_wf {s : State} (h : Memory.wf s.mem = true) (key : Nat) (t : List (Want × W72)) : Memory.wf (placeSp key s t).2.mem = true := by
  unfold placeSp
  grind

theorem placeWin_wf {s : State} (h : Memory.wf s.mem = true) (n : Nat) (c : Ctx) (t : List (Want × W72)) :
    Memory.wf (placeWin n c s t).2.mem = true := by
  unfold placeWin
  grind

theorem State.rangeLine_wf {s : State} (h : Memory.wf s.mem = true) (op : EngOp) (sc : Sys2Proof.Scope) (h' : Hint) (line : Nat) :
    Memory.wf (s.rangeLine op sc h' line).mem = true := by
  unfold State.rangeLine
  grind [State.cleanEverywhere_wf, State.l2Clean_wf, State.dropFirstLevel_mem, State.l2Leave_mem, State.l2Fill_wf]

theorem State.withheld_wf {s : State} (h : Memory.wf s.mem = true) (could : Trial) (n slot : Nat) :
    Memory.wf (s.withheld could n slot).2.mem = true := by
  unfold State.withheld
  grind [State.setCluster_mem]

theorem State.codeRecord_wf {s : State} (h : Memory.wf s.mem = true) (kind : Nat) (lvl : Sys2Proof.Level) (unit line : Nat) (seq : W64) :
    Memory.wf (s.codeRecord kind lvl unit line seq).mem = true := by
  unfold State.codeRecord
  grind [State.errorRecord_wf]

theorem State.codeLost_wf {s : State} (h : Memory.wf s.mem = true) (n line : Nat) : Memory.wf (s.codeLost n line).mem = true := by
  unfold State.codeLost
  grind [State.codeRecord_wf, State.askFill_mem]

theorem State.virtWrite_wf {s : State} (h : Memory.wf s.mem = true) (space : BitVec 2) (fuel : Nat) (va : W72) (bs : List Byte) :
    ∀ t, s.virtWrite space fuel va bs = .ok t → Memory.wf t.mem = true := by
  induction fuel generalizing s va bs with
  | zero => rintro t ⟨⟩; exact h
  | succ fuel ih =>
    intro t ht
    unfold State.virtWrite at ht
    grind [State.deviceBytes_wf]

theorem State.saveFrame_wf {s : State} (h : Memory.wf s.mem = true) (n slot ix st : Nat) (rec : List W64) :
    ∀ t, (s.saveFrame n slot ix st rec) = some t → Memory.wf t.mem = true := by
  unfold State.saveFrame
  grind [State.writeBackBays_wf, State.virtWrite_wf, State.countLaunch_mem, State.traceCtx_wf, State.chargeSwap_mem, State.endCtx_wf,
    State.removeCtx_mem]

theorem State.rejoin_wf {s : State} (h : Memory.wf s.mem = true) (n slot : Nat) (f : BitVec 6) : Memory.wf (s.rejoin n slot f).mem = true := by
  unfold State.rejoin
  grind [State.setCtx_mem, State.resolveSlot_wf, State.modSlot_mem]

theorem State.restoreFrame_wf {s : State} (h : Memory.wf s.mem = true) (n slot key : Nat) (bays : List Nat) :
    ∀ t, s.restoreFrame n slot key bays = some t → Memory.wf t.mem = true := by
  intro t ht
  unfold State.restoreFrame at ht
  dsimp only at ht
  split at ht
  · cases ht
  · split at ht
    · cases ht
    · cases ht
      rw [State.chargeSwap_mem]
      refine State.freeFrameAt_wf (State.traceCtx_wf ?_ ..) ..
      rw [State.refreshBays_mem]
      refine foldl_wf _ (fun _ _ h => State.rejoin_wf h ..) _ ?_
      rw [foldl_mem _ (fun _ _ => State.giveBack_mem ..)]
      simpa using h

theorem State.discardFrame_wf {s : State} (h : Memory.wf s.mem = true) (key : Nat) : Memory.wf (s.discardFrame key).mem = true := by
  unfold State.discardFrame
  dsimp only
  split
  · exact h
  · rw [State.reap_mem]
    refine State.reached_wf (State.freeFrameAt_wf ?_ ..) ..
    simp only [State.addPost_mem]
    rw [foldl_mem _ (fun _ _ => State.giveBack_mem ..)]
    exact h

theorem State.dropRest_wf {s : State} (h : Memory.wf s.mem = true) (n slot : Nat) : Memory.wf (s.dropRest n slot).mem = true := by
  unfold State.dropRest
  dsimp only
  split
  · exact h
  · refine foldl_wf _ (fun _ _ h => by split; exacts [State.fcancel_wf h .., State.fcancel_wf h .., h]) _ ?_
    rw [State.dropBehind_mem, foldl_mem _ (fun _ _ => State.endOp_mem ..), foldl_mem _ (fun _ _ => State.modCore_mem ..),
      State.setCtx_mem]
    exact h

theorem State.finishStop_wf {s : State} (h : Memory.wf s.mem = true) (n slot : Nat) : Memory.wf (s.finishStop n slot).mem = true := by
  unfold State.finishStop
  grind [State.dropHeld_mem, State.writeBackBays_wf, State.addPost_mem, State.logRecords_wf, State.reap_mem, State.endCtx_wf]

theorem State.moveCtx_wf {s : State} (h : Memory.wf s.mem = true) (n slot ix cl sl : Nat) (c : Ctx) :
    ∀ t, s.moveCtx n slot ix cl sl c = some t → Memory.wf t.mem = true := by
  intro t ht
  unfold State.moveCtx at ht
  dsimp only at ht
  split at ht
  · cases ht
  · rename_i u hu
    split at ht
    · cases ht
    · rename_i v hv
      cases ht
      rw [State.modCtx_mem]
      exact State.restoreFrame_wf (State.saveFrame_wf h _ _ _ _ _ u hu) _ _ _ _ v hv

theorem State.trapFrame_wf {s : State} (h : Memory.wf s.mem = true) (n slot ix : Nat) (c : Ctx) (x : Stop) :
    ∀ t, s.trapFrame n slot ix c x = some t → Memory.wf t.mem = true := by
  have hl := State.logRecords_wf h c.ring c.launch x.dropped true c.ttag x.recs
  intro t ht
  unfold State.trapFrame at ht
  dsimp only at ht
  split at ht
  · cases ht
  · rename_i u hu
    have hw := State.saveFrame_wf hl _ _ _ _ _ u hu
    split at ht
    · rename_i v hv
      cases ht
      grind [State.push_wf]
    · split at ht
      · cases ht
      · rename_i v hv
        cases ht
        exact State.discardFrame_wf (State.logRecords_wf (State.saveFrame_wf h _ _ _ _ _ v hv) ..) ..

theorem State.formCtx_wf {s : State} (h : Memory.wf s.mem = true) (n slot : Nat) (l : Launch) (q : Queued) (e : Entry) (bays : List Nat) :
    Memory.wf (s.formCtx n slot l q e bays).mem = true := by
  unfold State.formCtx
  grind [State.setReady_mem, State.setCluster_mem, State.traceCtx_wf, State.refreshBays_mem]

theorem State.takeFrame_wf {s : State} (h : Memory.wf s.mem = true) (n slot key : Nat) : Memory.wf (s.takeFrame n slot key).mem = true := by
  unfold State.takeFrame
  grind [State.restoreFrame_wf, State.discardFrame_wf, State.logRecords_wf]

theorem State.form_wf {s : State} (h : Memory.wf s.mem = true) (n : Nat) (l : Launch) (q : Queued) : Memory.wf (s.form n l q).mem = true := by
  unfold State.form
  grind [State.message_mem, State.modLaunch_mem, State.takeFrame_wf, State.formCtx_wf, State.disarm_mem, State.addPost_mem]

theorem State.requestChange_wf {s : State} (h : Memory.wf s.mem = true) (l d : Nat) (add : Bool) :
    Memory.wf (s.requestChange l d add).mem = true := by
  unfold State.requestChange
  grind [State.boundary_wf, State.modLaunch_mem]

theorem State.flushLine_wf {s : State} (h : Memory.wf s.mem = true) (line : Nat) : Memory.wf (s.flushLine line).mem = true := by
  unfold State.flushLine
  grind [State.cleanEverywhere_wf, State.storageError_wf, State.l2Clean_wf]

theorem State.invalLine_wf {s : State} (h : Memory.wf s.mem = true) (line lo hi : Nat) : Memory.wf (s.invalLine line lo hi).mem = true := by
  unfold State.invalLine
  grind [State.l2Leave_mem, State.dropFirstLevel_mem, State.flushLine_wf]

theorem State.overHandle_wf {s : State} (h : Memory.wf s.mem = true) (space : BitVec 2) (f : State → Nat → State)
    (hf : ∀ s line, Memory.wf s.mem = true → Memory.wf (f s line).mem = true) (fuel : Nat) (va : W72) (len : Nat) :
    Memory.wf (s.overHandle space f fuel va len).mem = true := by
  induction fuel generalizing s va len with
  | zero => exact h
  | succ fuel ih =>
    unfold State.overHandle
    dsimp only
    split
    · exact h
    · refine ih ?_ _ _
      split
      · exact h
      · exact foldl_wf _ hf _ h

theorem State.openHandle_wf {s : State} (h : Memory.wf s.mem = true) (k : Nat) : Memory.wf (s.openHandle k).mem = true := by
  unfold State.openHandle
  split
  · exact h
  · exact State.overHandle_wf h _ _ (fun _ _ h => by rw [State.dropFirstLevel_mem]; exact State.cleanEverywhere_wf h _) _ _ _

theorem State.closeHandle_wf {s : State} (h : Memory.wf s.mem = true) (k : Nat) : Memory.wf (s.closeHandle k).mem = true := by
  unfold State.closeHandle
  split
  · exact h
  · split
    · exact State.overHandle_wf h _ _ (fun _ _ h => State.flushLine_wf h ..) _ _ _
    · exact h

theorem State.writeJcb_wf {s : State} (h : Memory.wf s.mem = true) (space : BitVec 2) (va : W72) (ws : List W64) :
    ∀ t, (s.writeJcb space va ws) = some t → Memory.wf t.mem = true := by
  unfold State.writeJcb
  grind [State.deviceBytes_wf]

theorem State.abortEarly_wf {s : State} (h : Memory.wf s.mem = true) (c : RingCmd) : Memory.wf (s.abortEarly c).mem = true := by
  unfold State.abortEarly
  dsimp only
  rw [State.endUnadmitted_mem]
  split
  · exact h
  · split
    · exact h
    · generalize hj : s.writeJcb _ _ _ = p
      cases p with
      | none => exact h
      | some t => exact State.writeJcb_wf h _ _ _ t hj

theorem State.admitLaunch_wf {s : State} (h : Memory.wf s.mem = true) (c : RingCmd) (r : List W64) (bs : List (List W64)) (items : List W32) :
    ∀ t, s.admitLaunch c r bs items = some t → Memory.wf t.mem = true := by
  intro t ht
  unfold State.admitLaunch at ht
  dsimp only at ht
  split at ht
  · cases ht
  · rename_i u hu
    cases ht
    rw [State.modLaunch_mem, foldl_mem _ (fun _ _ => by split <;> rfl)]
    exact foldl_wf _ (fun _ _ h => State.openHandle_wf h ..) _ (State.writeJcb_wf h _ _ _ u hu)

theorem State.addAt_wf {s : State} (h : Memory.wf s.mem = true) (space : BitVec 2) (va : W72) (x : Nat) (seq : W64) (o : Attempt) :
    ∀ t, (s.addAt space va x seq o) = .ok t → Memory.wf t.mem = true := by
  unfold State.addAt
  grind [State.atomicAt_wf, State.storageError_wf]

theorem State.postTree_wf {s : State} (h : Memory.wf s.mem = true) (p : Post) (o : Attempt) : Memory.wf (s.postTree p o).mem = true := by
  unfold State.postTree
  extract_lets seq fail flagged
  have hfail : ∀ va k, Memory.wf (fail va k).mem = true := by
    intro va k
    refine State.postFail_wf ?_ ..
    split
    · exact State.storageError_wf h ..
    · exact h
  have hflagged : ∀ t, flagged = .ok t → Memory.wf t.mem = true := by
    simp only [flagged]
    grind [State.addAt_wf]
  clear_value flagged
  split
  · exact hfail ..
  · cases flagged with
    | error k => exact hfail ..
    | ok t =>
      dsimp only
      split
      · exact hfail ..
      · rename_i u hu
        exact State.addAt_wf (hflagged t rfl) _ _ _ _ _ u hu

theorem State.dumpCounters_wf {s : State} (h : Memory.wf s.mem = true) (l : Launch) (status : Nat) :
    Memory.wf (s.dumpCounters l status).mem = true := by
  unfold State.dumpCounters
  grind [State.systemBytes_wf, State.setRet_mem]

theorem State.modTaken_wf {s : State} (h : Memory.wf s.mem = true) (x : W64) : ∀ t, (s.modTaken x) = some t → Memory.wf t.mem = true := by
  unfold State.modTaken
  grind

theorem State.lost_wf {s : State} (h : Memory.wf s.mem = true) : Memory.wf s.lost.mem = true := wf_filter _ _ h

theorem State.marginRecord_wf {s : State} (h : Memory.wf s.mem = true) (n : Nat) : Memory.wf (s.marginRecord n).mem = true := by
  unfold State.marginRecord
  grind [State.errorRecord_wf]

theorem State.enterPhase_wf {s : State} (h : Memory.wf s.mem = true) (d phase : Nat) : Memory.wf (s.enterPhase d phase).mem = true := by
  unfold State.enterPhase
  grind [State.message_mem, State.tellDies_mem, State.traceReset_wf, State.setDie_mem]

theorem State.startReset_wf {s : State} (h : Memory.wf s.mem = true) (d : Nat) (abandon : Bool) (cause : Nat) :
    Memory.wf (s.startReset d abandon cause).mem = true := by
  unfold State.startReset
  dsimp only
  rw [foldl_mem _ (fun _ _ => by split <;> simp)]
  refine foldl_wf _ (fun _ _ h => State.loseDie_wf h ..) _ (State.enterPhase_wf ?_ ..)
  rwa [State.setDie_mem]

theorem State.loseLines_wf {s : State} (h : Memory.wf s.mem = true) (n b : Nat) : Memory.wf (s.loseLines n b).mem = true :=
  foldl_wf _ (fun _ _ h => by rw [State.bayDrop_mem]; exact State.errorRecord_wf h ..) _ h

theorem State.outsideStore_wf {s : State} (h : Memory.wf s.mem = true) (pa : BitVec 54) (data : List Byte) :
    Memory.wf (s.outsideStore pa data).mem = true := by
  unfold State.outsideStore
  split
  · exact h
  · exact wf_writeBytes h ..

end Sys2Proof.Machine
end

section
/-! PROOFS. The engine keeps memory in its one form (for O59): a law for each way of joining its steps, then each step by them. -/

namespace Sys2Proof.Machine
open Sys2Proof

/-- A run of an engine's accesses keeps memory in its one form, however it ends. -/
structure EngWf {α : Type} (m : Eng α) : Prop where
  keeps : ∀ p : State × Attempt, Memory.wf p.1.mem = true →
    match m p with
    | .ok (_, q) => Memory.wf q.1.mem = true
    | .error (_, t) => Memory.wf t.mem = true

theorem engWf_pure {α : Type} (x : α) : EngWf (pure x : Eng α) := ⟨fun _ h => h⟩

theorem engWf_halt {α : Type} (w : Halt) : EngWf (halt w : Eng α) := ⟨fun _ h => h⟩

theorem engWf_setS {t : State} (h : Memory.wf t.mem = true) : EngWf (setS t) := ⟨fun _ _ => h⟩

theorem engWf_bind {α β : Type} {m : Eng α} {f : α → Eng β} (hm : EngWf m) (hf : ∀ x, EngWf (f x)) : EngWf (m >>= f) := by
  refine ⟨fun p hp => ?_⟩
  have h := hm.keeps p hp
  simp only [bind, StateT.bind, Except.bind]
  cases hr : m p with
  | error e => simpa [hr] using h
  | ok r => exact (hf r.1).keeps r.2 (by simpa [hr] using h)

/-- A run that looks at the state finds its memory in the one form. -/
theorem engWf_getS_bind {α : Type} {f : State → Eng α} (hf : ∀ s, Memory.wf s.mem = true → EngWf (f s)) : EngWf (getS >>= f) :=
  ⟨fun p hp => (hf p.1 hp).keeps p hp⟩

theorem engWf_knowing {α : Type} (v : W64) {m : Eng α} (hm : EngWf m) : EngWf (knowing v m) := by
  refine ⟨fun p hp => ?_⟩
  have h := hm.keeps p hp
  unfold knowing
  cases hr : m p <;> simpa [hr] using h

theorem engWf_ite {α : Type} {c : Prop} [Decidable c] {m k : Eng α} (hm : EngWf m) (hk : EngWf k) : EngWf (if c then m else k) := by
  split
  · exact hm
  · exact hk

theorem engAll_wf {α β : Type} {f : α → Eng β} (hf : ∀ x, EngWf (f x)) : ∀ xs, EngWf (engAll f xs)
  | [] => engWf_pure _
  | x :: xs => engWf_bind (hf x) fun _ => engWf_bind (engAll_wf hf xs) fun _ => engWf_pure _

theorem engPlace_wf (c : Cmd) (n : Nat) (va : W72) (size : Nat) (write : Bool) : EngWf (engPlace c n va size write) := by
  refine ⟨fun p hp => ?_⟩
  have hx := State.xlate_wf hp n (p.1.cmdRing c) va write c.user
  unfold engPlace
  grind [State.storageError_wf, State.carry_wf, State.reach_mem]

theorem engRead_wf (c : Cmd) (n : Nat) (va : W72) (size : Nat) : EngWf (engRead c n va size) :=
  engWf_bind (engPlace_wf ..) fun _ => engWf_getS_bind fun _ h =>
    engWf_bind (engWf_setS (State.readElem_wf h ..)) fun _ => engWf_pure _

theorem engPerform_wf (c : Cmd) (n : Nat) (q : Place) (size x : Nat) : EngWf (engPerform c n q size x) := by
  refine engWf_getS_bind fun s h => engWf_setS ?_
  have hw := State.writeElem_wf h n .engine c.x.ann.sc q.pa size x q.hint
  split
  · exact hw
  · exact hw

theorem engWrite_wf (c : Cmd) (n : Nat) (va : W72) (size x : Nat) : EngWf (engWrite c n va size x) :=
  engWf_bind (engPlace_wf ..) fun _ => engPerform_wf ..

theorem engWords_wf (c : Cmd) (n : Nat) : ∀ (va : W72) (k : Nat), EngWf (engWords c n va k)
  | _, 0 => engWf_pure _
  | _, k + 1 => engWf_bind (engRead_wf ..) fun _ => engWf_bind (engWords_wf c n _ k) fun _ => engWf_pure _

theorem engPut_wf (c : Cmd) (n : Nat) (va : W72) (words : Nat) (bs : List Byte) (pass : W72 → Bool) : EngWf (engPut c n va words bs pass) :=
  engWf_bind (engAll_wf (fun _ => engWf_bind (engPlace_wf ..) fun _ => engWf_pure _) _) fun _ =>
    engWf_bind (engAll_wf (fun _ => engPerform_wf ..) _) fun _ => engWf_pure _

theorem engElt_wf (c : Cmd) (n : Nat) (s : Desc) (own : List (Nat × W64 × W64)) (x : List Int) : EngWf (engElt c n s own x) := by
  unfold engElt
  repeat' split
  · exact engWf_pure _
  · exact engWf_pure _
  · exact engWf_bind (engWords_wf ..) fun _ => engWf_pure _
  · exact engWf_bind (engRead_wf ..) fun _ => engWf_pure _

theorem engReduce_wf (c : Cmd) (n : Nat) (op : RedOp) (loc : List Int) : EngWf (engReduce c n op loc) :=
  engWf_bind (engAll_wf (fun _ => engElt_wf ..) _) fun _ => by split <;> exact engWf_pure _

theorem engSource_wf (c : Cmd) (n p e : Nat) : EngWf (engSource c n p e) := by
  unfold engSource
  dsimp only
  repeat' split
  · exact engReduce_wf ..
  · exact engReduce_wf ..
  · exact engElt_wf ..
  · exact engWf_pure _

theorem engElts_wf (c : Cmd) (o : Nat) : EngWf (engElts c o) := by
  refine engAll_wf (fun e => ?_) _
  split
  · exact engWf_pure _
  · exact engWf_bind (engSource_wf ..) fun _ => engWf_pure _

theorem engStore_wf (c : Cmd) (o : Nat) (els : List (Elt × Nat)) : EngWf (engStore c o els) := by
  unfold engStore
  dsimp only
  split
  · exact engWf_pure _
  · split
    · split
      · exact engWf_bind (engWords_wf ..) fun _ => engPut_wf ..
      · exact engWf_bind (engWf_pure _) fun _ => engPut_wf ..
    · split
      · exact engWf_pure _
      · exact engWrite_wf ..

theorem engUnit_wf (c : Cmd) (o : Nat) : EngWf (engUnit c o) :=
  engWf_bind (engAll_wf (fun _ => engElts_wf ..) _) fun _ =>
    engWf_bind (engAll_wf (fun _ => engStore_wf ..) _) fun _ => engWf_pure _

theorem engPointers_wf (c : Cmd) : EngWf (engPointers c) :=
  engWf_bind (engAll_wf (fun _ => engRead_wf ..) _) fun _ => engWf_ite (engWf_halt _) (engWf_ite (engWf_halt _) (engWf_pure _))

theorem engRow_wf (c : Cmd) (i : Nat) : EngWf (engRow c i) := by
  refine engWf_bind (engAll_wf (fun _ => engRead_wf ..) _) fun cols => engWf_ite (engWf_pure _) ?_
  refine engWf_bind (engAll_wf (fun _ => engRead_wf ..) _) fun vals => ?_
  refine engWf_bind (engAll_wf (fun _ => engWf_ite (engWf_pure _) (engElt_wf ..)) _) fun old => ?_
  refine engWf_bind (engAll_wf (fun _ => engWf_bind (engAll_wf (fun _ => engElt_wf ..) _) fun _ => engWf_pure _) _) fun res => ?_
  refine engWf_bind (engAll_wf (fun j => engWf_ite ?_ (engWf_pure _)) _) fun _ => engWf_pure _
  split
  · exact engWrite_wf ..
  · exact engWf_pure _

theorem engHead_wf (c : Cmd) (r : Run) (i : Nat) (head before : Option Nat) : EngWf (engHead c r i head before) := by
  unfold engHead
  split
  · exact engWf_pure _
  · refine engWf_ite (engWf_pure _) (engWf_bind (engRead_wf ..) fun h => ?_)
    split
    · exact engWf_ite (engWf_halt _) (engWf_pure _)
    · exact engWf_pure _

theorem engVal_wf (c : Cmd) (r : Run) (i : Nat) : EngWf (engVal c r i) :=
  engWf_ite (engWf_pure _) (engWf_bind (engRead_wf ..) fun _ => engWf_pure _)

theorem engEmit_wf (c : Cmd) (m : MergeSt) (k : Nat) (v : Exact) (dropz : Bool) : EngWf (engEmit c m k v dropz) := by
  unfold engEmit
  dsimp only
  repeat' split
  · exact engWf_pure _
  · exact engWf_pure _
  · exact engWf_bind (engWrite_wf ..) fun _ => engWf_bind (engWrite_wf ..) fun _ => engWf_pure _
  · exact engWf_bind (engWrite_wf ..) fun _ => engWf_pure _

theorem engMerge_wf (c : Cmd) : EngWf (engMerge c) := by
  refine engWf_bind (engHead_wf ..) fun ha => engWf_bind (engHead_wf ..) fun hb => ?_
  extract_lets takeA takeB cap done
  have ends (m : MergeSt) : EngWf (done m) := engWf_pure _
  have emits (r : Run) (i : Nat) (m : MergeSt) (k : Nat) (dz : Bool) : EngWf (do let v ← engVal c r i; engEmit c m k v dz) :=
    engWf_bind (engVal_wf ..) fun _ => engEmit_wf ..
  split
  · refine engWf_ite (engWf_bind (engWf_ite (engWf_pure _) (emits ..)) ends) (engWf_ite (engWf_bind (engWf_ite (engWf_pure _) (emits ..)) ends) ?_)
    exact engWf_bind (engVal_wf ..) fun _ => engWf_bind (engVal_wf ..) fun _ => engWf_bind (engEmit_wf ..) ends
  · exact engWf_ite (engWf_bind (engWf_pure _) ends) (engWf_bind (engVal_wf ..) fun _ => engWf_bind (engEmit_wf ..) ends)
  · exact engWf_ite (engWf_bind (engWf_pure _) ends) (engWf_bind (engVal_wf ..) fun _ => engWf_bind (engEmit_wf ..) ends)
  · exact engWf_bind (engWf_pure _) ends

theorem engPiece_wf (c : Cmd) (k : Nat) : EngWf (engPiece c k) := by
  refine engWf_bind (engPlace_wf ..) fun q => engWf_getS_bind fun s h => ?_
  split
  · exact engWf_bind (engWf_setS (State.storageError_wf h ..)) fun _ => engWf_halt _
  · exact engWf_setS (foldl_wf _ (fun _ _ h => State.rangeLine_wf h ..) _ h)

theorem engDesc_wf (c : Cmd) (va : W72) : EngWf (engDesc c va) := engWf_ite (engWf_halt _) (engWords_wf ..)

theorem engRecord_wf (c : Cmd) (va : W72) (align words : Nat) : EngWf (engRecord c va align words) :=
  engWf_ite (engWf_halt _) (engWords_wf ..)

theorem engOwners_wf (c : Cmd) (d : Desc) (bs : List Nat) : EngWf (engOwners c d bs) := by
  refine engWf_ite (engWf_pure _) (engAll_wf (fun b => engWf_bind (engWords_wf ..) fun ws => ?_) _)
  split
  · exact engWf_pure _
  · exact engWf_halt _

theorem engTransfer_wf (c : Cmd) : EngWf (engTransfer c) := by
  refine engWf_bind (engDesc_wf ..) fun ra => engWf_bind (engDesc_wf ..) fun rb => ?_
  extract_lets c1 rows masked owners
  have judged (mask : List Nat) : EngWf (owners mask) := by
    refine engWf_knowing _ (engWf_bind (engOwners_wf ..) fun ob => engWf_bind (engOwners_wf ..) fun oa => engWf_getS_bind fun s _ => ?_)
    exact engWf_ite (engWf_halt _) (engWf_ite (engWf_halt _) (engWf_ite (engWf_halt _) (engWf_pure _)))
  refine engWf_ite (engWf_halt _) (engWf_ite (engWf_bind (engAll_wf (fun _ => engRead_wf ..) _) judged) ?_)
  exact engWf_bind (engWf_pure _) judged

theorem engSparse_wf (c : Cmd) : EngWf (engSparse c) :=
  engWf_bind (engRecord_wf ..) fun _ => engWf_bind (engDesc_wf ..) fun _ => engWf_bind (engDesc_wf ..) fun _ =>
    engWf_ite (engWf_halt _) (engWf_ite (engWf_halt _) (engWf_ite (engWf_halt _) (engWf_pure _)))

theorem engRuns_wf (c : Cmd) : EngWf (engRuns c) :=
  engWf_bind (engRecord_wf ..) fun _ => engWf_bind (engRecord_wf ..) fun _ => engWf_bind (engRecord_wf ..) fun _ =>
    engWf_ite (engWf_halt _) (engWf_ite (engWf_halt _) (engWf_pure _))

theorem engBegin_wf (c : Cmd) : EngWf (engBegin c) := by
  unfold engBegin
  split
  case h_1 => exact engSparse_wf c
  case h_2 | h_3 => exact engRuns_wf c
  case h_4 | h_5 | h_6 => exact engWf_ite (engWf_halt _) (engWf_pure _)
  case h_7 => exact engTransfer_wf c

theorem engStep_wf (c : Cmd) : EngWf (engStep c) := by
  unfold engStep
  dsimp only
  split
  case h_1 => exact engWf_ite (engPointers_wf c) (engRow_wf ..)
  case h_2 | h_3 => exact engMerge_wf c
  case h_4 | h_5 | h_6 => exact engWf_bind (engPiece_wf ..) fun _ => engWf_pure _
  case h_7 => exact engWf_bind (engUnit_wf ..) fun _ => engWf_pure _

theorem State.runEngine_wf {s : State} (h : Memory.wf s.mem = true) (c : Cmd) (o : Attempt) {f : Cmd → Eng Cmd} (hf : EngWf (f c)) :
    Memory.wf (s.runEngine c o f).mem = true := by
  have hk := hf.keeps (s, o) h
  unfold State.runEngine
  grind [State.putCmd_mem]

theorem State.engineAccess_wf {s : State} (h : Memory.wf s.mem = true) (c : Cmd) (o : Attempt) : Memory.wf (s.engineAccess c o).mem = true := by
  unfold State.engineAccess
  repeat' split
  · exact h
  · exact h
  · exact State.runEngine_wf h c o (engStep_wf c)

end Sys2Proof.Machine
end

section
/-! PROOFS. What an instruction leaves, by the shape of its meaning (for O59): generator instructions, accesses, synchronizing ones, lane words
and commands. -/

namespace Sys2Proof.Machine
open Sys2Proof

/-- An outcome that leaves memory in its one form. -/
def OutWf : Host.Outcome State Fault Refusal → Prop
  | .next t => Memory.wf t.mem = true
  | _ => True

@[simp] theorem outWf_next (t : State) : OutWf (.next t) ↔ Memory.wf t.mem = true := Iff.rfl

/-- An end of a generator's instruction with memory in its one form. -/
def GenWf : Gen → Prop
  | .retire t => Memory.wf t.mem = true
  | .gone t => Memory.wf t.mem = true
  | .jump t _ => Memory.wf t.mem = true
  | .block t _ => Memory.wf t.mem = true
  | .trap t _ => Memory.wf t.mem = true

@[simp] theorem genWf_retire (t : State) : GenWf (.retire t) ↔ Memory.wf t.mem = true := Iff.rfl
@[simp] theorem genWf_gone (t : State) : GenWf (.gone t) ↔ Memory.wf t.mem = true := Iff.rfl
@[simp] theorem genWf_jump (t : State) (pc : W64) : GenWf (.jump t pc) ↔ Memory.wf t.mem = true := Iff.rfl
@[simp] theorem genWf_block (t : State) (w : Wait) : GenWf (.block t w) ↔ Memory.wf t.mem = true := Iff.rfl
@[simp] theorem genWf_trap (t : State) (w : Why) : GenWf (.trap t w) ↔ Memory.wf t.mem = true := Iff.rfl

theorem genWf_ite {c : Prop} [Decidable c] {a b : Gen} (ha : GenWf a) (hb : GenWf b) : GenWf (if c then a else b) := by
  split
  · exact ha
  · exact hb

theorem outWf_ite {c : Prop} [Decidable c] {a b : Host.Outcome State Fault Refusal} (ha : OutWf a) (hb : OutWf b) : OutWf (if c then a else b) := by
  split
  · exact ha
  · exact hb

theorem Gen.outcome_wf {s : State} (h : Memory.wf s.mem = true) (i : Instr) (n slot : Nat) (c : Ctx) {g : Gen} (hg : GenWf g) :
    OutWf (g.outcome s i n slot c) := by
  cases g with
  | retire t => simpa [Gen.outcome] using hg
  | gone t => simpa [Gen.outcome] using hg
  | jump t pc =>
    simp only [Gen.outcome]
    split
    · simpa using hg
    · simpa using h
  | block t w => simpa [Gen.outcome] using hg
  | trap t w => simpa [Gen.outcome] using hg

/-- An instruction of the generator keeps the form if its own meaning does. -/
theorem State.generator_wf {s : State} (h : Memory.wf s.mem = true) (i : Instr) (reads writes : List (BitVec 6))
    {body : Nat → Nat → Ctx → Gen} (hb : ∀ n slot c, GenWf (body n slot c)) : OutWf (s.generator i reads writes body) := by
  unfold State.generator
  dsimp only
  repeat' split
  · exact h
  · simpa using h
  · simpa using h
  · exact h
  · simpa using h
  · exact Gen.outcome_wf h _ _ _ _ (hb ..)

theorem State.memAddr_wf {s : State} (h : Memory.wf s.mem = true) (i : Instr) (n : Nat) (x : Ctx) (va : W72) (align : Nat) (write : Bool)
    {k : State → Place → Gen} (hk : ∀ t p, Memory.wf t.mem = true → GenWf (k t p)) : GenWf (s.memAddr i n x va align write k) := by
  have hx := State.xlate_wf h n x.ring va write (userOf x.uid 0)
  unfold State.memAddr
  dsimp only
  repeat' split
  · exact h
  all_goals
    rename_i e
    rw [e] at hx
  · exact hx
  · exact hx
  · exact hk _ _ hx

theorem State.atHome_wf {s : State} (h : Memory.wf s.mem = true) (n : Nat) (x : Ctx) (va : W72) (pa size : Nat)
    {k : State → Gen} (hk : ∀ t, Memory.wf t.mem = true → GenWf (k t)) : GenWf (s.atHome n x va pa size k) := by
  unfold State.atHome
  dsimp only
  repeat' split
  · exact State.storageError_wf h ..
  · exact State.storageError_wf h ..
  · exact hk _ (by rwa [State.reach_mem])

theorem State.carried_wf {s : State} (h : Memory.wf s.mem = true) (n : Nat) (x : Ctx) (va : W72) (ann : Ann) (sc : Scope) (strong : Bool)
    {k : State → Gen} (hk : ∀ t, Memory.wf t.mem = true → GenWf (k t)) : GenWf (s.carried n x va ann sc strong k) := by
  unfold State.carried
  split
  · exact State.storageError_wf h ..
  · exact hk _ h

theorem State.syncOp_wf {s : State} (h : Memory.wf s.mem = true) (i : Instr) (n slot : Nat) (x : Ctx) (ann : Ann) (va : W72) (align : Nat)
    (write : Bool) {k : State → Ctx → Place → Gen} (hk : ∀ t x p, Memory.wf t.mem = true → GenWf (k t x p)) :
    GenWf (s.syncOp i n slot x ann va align write k) := by
  unfold State.syncOp
  split
  · exact h
  · refine State.memAddr_wf h i n x va align write fun t p ht => genWf_ite ht ?_
    refine State.atHome_wf ht n x va p.pa align fun u hu => State.carried_wf hu n x va ann _ _ fun v hv => hk _ _ _ ?_
    rw [State.setCtx_mem]
    exact State.carryFor_wf hv ..

theorem State.syncStep_wf {s : State} (h : Memory.wf s.mem = true) (n slot : Nat) (x : Ctx) (ann : Ann)
    {k : State → Ctx → Gen} (hk : ∀ t x, Memory.wf t.mem = true → GenWf (k t x)) : GenWf (s.syncStep n slot x ann k) := by
  unfold State.syncStep
  split
  · exact h
  · refine genWf_ite h (State.carried_wf h n x 0 ann _ _ fun t ht => hk _ _ ?_)
    rw [State.setCtx_mem]
    exact State.carry_wf ht ..

theorem State.withFlight_wf {s : State} (h : Memory.wf s.mem = true) (i : Instr) (n : Nat) (x : Ctx) (fl : Nat) {k : Flight → Gen}
    (hk : ∀ y, GenWf (k y)) : GenWf (s.withFlight i n x fl k) := by
  unfold State.withFlight
  split
  · exact h
  · exact genWf_ite h (hk _)

theorem State.genAccess_wf {s : State} (h : Memory.wf s.mem = true) (i : Instr) (n slot : Nat) (x : Ctx) (va : W72) (size : Nat) (ann : Ann)
    (op : AccOp) (dest : Option (MTy × BitVec 6)) (data cmp : BitVec 128) : GenWf (s.genAccess i n slot x va size ann op dest data cmp) := by
  unfold State.genAccess
  split
  · exact h
  · refine State.memAddr_wf h i n x va size _ fun t p ht => ?_
    simpa using ht

/-- An end of a lane word with memory in its one form. -/
def LaneWf : LaneEnd → Prop
  | .done t => Memory.wf t.mem = true
  | .wait t _ => Memory.wf t.mem = true
  | .fault t _ => Memory.wf t.mem = true

theorem laneWf_ite {c : Prop} [Decidable c] {a b : LaneEnd} (ha : LaneWf a) (hb : LaneWf b) : LaneWf (if c then a else b) := by
  split
  · exact ha
  · exact hb

theorem State.lane_wf {s : State} (h : Memory.wf s.mem = true) (i : Instr) (inside : List (Opd × Nat)) (use_ : Core → LaneUse)
    {body : Nat → Nat → Ctx → Core → Nat → LaneEnd} (hb : ∀ n k c x e, LaneWf (body n k c x e)) : OutWf (s.lane i inside use_ body) := by
  unfold State.lane
  dsimp only
  split
  · refine outWf_ite (by simpa using h) (outWf_ite (by simpa using h) (outWf_ite (by simpa using h) (outWf_ite (by simpa using h) ?_)))
    generalize hr : body _ _ _ _ _ = r
    have hw : LaneWf r := hr ▸ hb ..
    cases r <;> simpa [LaneWf] using hw
  · exact h

theorem State.laneLA_wf {s : State} (h : Memory.wf s.mem = true) (i : Instr) (w : LA) (df : Fmt) (ka kb kc : Nat) (narrow : Bool)
    (tags : Core → Bool) (eff : Core → Core) : OutWf (s.laneLA i w df ka kb kc narrow tags eff) :=
  State.lane_wf h _ _ _ fun _ _ _ _ _ => h

theorem State.laneAccess_wf {s : State} (h : Memory.wf s.mem = true) (i : Instr) (n k : Nat) (c : Ctx) (e : Nat) (w : LM) (op : AccOp) (dest : Dest)
    (fails : List (Nat × Nat × W72)) (items : List (Want × W72)) {find : State → List (Want × W72) → List Spot × State}
    (upd : Core → Nat → Bool → Core) (hf : ∀ ws, Memory.wf (find s ws).2.mem = true) :
    LaneWf (s.laneAccess i n k c e w op dest fails items find upd) := by
  unfold State.laneAccess
  refine laneWf_ite h ?_
  dsimp only
  refine laneWf_ite (hf _) ?_
  split
  · simpa [LaneWf] using h
  · simpa [LaneWf] using hf _

theorem State.overLines_wf {s : State} (h : Memory.wf s.mem = true) (space : BitVec 2) {f : State → Nat → Nat → Nat → State}
    (hf : ∀ s line lo hi, Memory.wf s.mem = true → Memory.wf (f s line lo hi).mem = true) (fuel : Nat) (va : W72) (len : Nat) :
    Memory.wf (s.overLines space f fuel va len).1.mem = true := by
  induction fuel generalizing s va len with
  | zero => exact h
  | succ fuel ih =>
    unfold State.overLines
    dsimp only
    split
    · exact h
    · split
      · exact h
      · exact ih (foldl_wf _ (fun _ _ h => hf _ _ _ _ h) _ h) _ _

theorem State.command_wf {s : State} (h : Memory.wf s.mem = true) (i : Instr) (major : BitVec 10) (op : EngOp) (f a b c : BitVec 6)
    (reads : List (BitVec 6)) (gt : Option (BitVec 6)) (x : EX) : OutWf (s.command i major op f a b c reads gt x) := by
  refine State.generator_wf h _ _ _ fun n slot y => ?_
  dsimp only
  repeat' split
  all_goals exact h

end Sys2Proof.Machine
end

section
/-! PROOFS. Instructions and events keep memory in its one form (for O59). -/

namespace Sys2Proof.Machine
open Sys2Proof

theorem regForm_wf {s : State} (h : Memory.wf s.mem = true) (i : Instr) (op : GTy → Int → Int → Int) (t : GTy) (d a b : BitVec 6) :
    OutWf (regForm s i op t d a b) :=
  State.generator_wf h _ _ _ fun _ _ _ => h

theorem litForm_wf {s : State} (h : Memory.wf s.mem = true) (i : Instr) (op : GTy → Int → Int → Int) (t : GTy) (d a : BitVec 6) (l : GLit) :
    OutWf (litForm s i op t d a l) :=
  State.generator_wf h _ _ _ fun _ _ _ => h

theorem shiftReg_wf {s : State} (h : Memory.wf s.mem = true) (i : Instr) (op : GTy → Int → Nat → Int) (t : GTy) (d a b : BitVec 6) :
    OutWf (shiftReg s i op t d a b) :=
  State.generator_wf h _ _ _ fun _ _ _ => h

theorem shiftLit_wf {s : State} (h : Memory.wf s.mem = true) (i : Instr) (op : GTy → Int → Nat → Int) (t : GTy) (d a : BitVec 6) (l : GLit) :
    OutWf (shiftLit s i op t d a l) :=
  State.generator_wf h _ _ _ fun _ _ _ => h

theorem execCmpRegister_wf {s : State} (h : Memory.wf s.mem = true) (r : Sys2Proof.Rel) (t : CTy) (d : BitVec 3) (a b : BitVec 6) :
    OutWf (execCmpRegister r t d a b s) :=
  State.generator_wf h _ _ _ fun _ _ _ => h

theorem execCmpLiteral_wf {s : State} (h : Memory.wf s.mem = true) (r : Sys2Proof.Rel) (t : CTy) (d : BitVec 3) (a : BitVec 6) (l : GLit) :
    OutWf (execCmpLiteral r t d a l s) :=
  State.generator_wf h _ _ _ fun _ _ _ => h

theorem execMovRegister_wf {s : State} (h : Memory.wf s.mem = true) (t : GTy) (d a : BitVec 6) : OutWf (execMovRegister t d a s) :=
  State.generator_wf h _ _ _ fun _ _ _ => h

theorem execMovLiteral_wf {s : State} (h : Memory.wf s.mem = true) (t : GTy) (d : BitVec 6) (l : GLit) : OutWf (execMovLiteral t d l s) :=
  State.generator_wf h _ _ _ fun _ _ _ => h

theorem execClz_wf {s : State} (h : Memory.wf s.mem = true) (t : BTy) (d a : BitVec 6) : OutWf (execClz t d a s) :=
  State.generator_wf h _ _ _ fun _ _ _ => h

theorem execPopc_wf {s : State} (h : Memory.wf s.mem = true) (t : BTy) (d a : BitVec 6) : OutWf (execPopc t d a s) :=
  State.generator_wf h _ _ _ fun _ _ _ => h

theorem execSel_wf {s : State} (h : Memory.wf s.mem = true) (d : BitVec 6) (k : BitVec 3) (a b : BitVec 6) : OutWf (execSel d k a b s) :=
  State.generator_wf h _ _ _ fun _ _ _ => h

theorem execKop_wf {s : State} (h : Memory.wf s.mem = true) (d a b : BitVec 3) (table : BitVec 4) : OutWf (execKop d a b table s) :=
  State.generator_wf h _ _ _ fun _ _ _ => h

theorem execExt_wf {s : State} (h : Memory.wf s.mem = true) (sgn : Bool) (d a m : BitVec 6) : OutWf (execExt sgn d a m s) :=
  State.generator_wf h _ _ _ fun _ _ _ => h

theorem execLea_wf {s : State} (h : Memory.wf s.mem = true) (d a b : BitVec 6) (sh : BitVec 4) : OutWf (execLea d a b sh s) :=
  State.generator_wf h _ _ _ fun _ _ _ => h

theorem execAdr_wf {s : State} (h : Memory.wf s.mem = true) (d : BitVec 6) (l : GLit) : OutWf (execAdr d l s) :=
  State.generator_wf h _ _ _ fun _ _ _ => h

theorem execBr_wf {s : State} (h : Memory.wf s.mem = true) (c : BrCond) (k : BitVec 3) (l : GLit) : OutWf (execBr c k l s) :=
  State.generator_wf h _ _ _ fun _ _ _ => genWf_ite h h

theorem execBrr_wf {s : State} (h : Memory.wf s.mem = true) (c : BrCond) (k : BitVec 3) (a : BitVec 6) : OutWf (execBrr c k a s) :=
  State.generator_wf h _ _ _ fun _ _ _ => genWf_ite h h

theorem execCall_wf {s : State} (h : Memory.wf s.mem = true) (d : BitVec 6) (l : GLit) : OutWf (execCall d l s) :=
  State.generator_wf h _ _ _ fun _ _ _ => h

theorem execCallr_wf {s : State} (h : Memory.wf s.mem = true) (d a : BitVec 6) : OutWf (execCallr d a s) :=
  State.generator_wf h _ _ _ fun _ _ _ => h

theorem execLoop_wf {s : State} (h : Memory.wf s.mem = true) (d : BitVec 6) (l : GLit) : OutWf (execLoop d l s) := by
  unfold execLoop
  refine State.generator_wf h _ _ _ fun n slot x => ?_
  dsimp only
  repeat' split
  all_goals exact h

theorem execIpf_wf {s : State} (h : Memory.wf s.mem = true) (lvl : Level) (m : BitVec 6) (l : GLit) : OutWf (execIpf lvl m l s) :=
  State.generator_wf h _ _ _ fun _ _ _ => by rwa [genWf_retire, State.prefetch_mem]

theorem execIpfr_wf {s : State} (h : Memory.wf s.mem = true) (lvl : Level) (m a : BitVec 6) : OutWf (execIpfr lvl m a s) :=
  State.generator_wf h _ _ _ fun _ _ _ => by rwa [genWf_retire, State.prefetch_mem]

theorem execSysrd_wf {s : State} (h : Memory.wf s.mem = true) (d : BitVec 6) (l : GLit) : OutWf (execSysrd d l s) := by
  unfold execSysrd
  refine State.generator_wf h _ _ _ fun n slot x => ?_
  dsimp only
  repeat' split
  all_goals exact h

theorem execSyswr_wf {s : State} (h : Memory.wf s.mem = true) (a : BitVec 6) (l : GLit) : OutWf (execSyswr a l s) :=
  State.generator_wf h _ _ _ fun _ _ _ => by split <;> exact h

theorem execYield_wf {s : State} (h : Memory.wf s.mem = true) (l : GLit) : OutWf (execYield l s) := by
  have hg : OutWf (s.generator (.yield l) [] [] (fun n slot x => .retire (s.setCtx n slot { x with deadline := l.val.toNat }))) :=
    State.generator_wf h _ _ _ fun _ _ _ => h
  unfold execYield
  grind [outWf_next, State.takeSave_mem, State.traceCtx_wf, State.setReady_mem]

theorem execStep_wf {s : State} (h : Memory.wf s.mem = true) : OutWf (execStep s) := by
  refine State.generator_wf h _ _ _ fun n slot x => genWf_ite h ?_
  split
  · exact h
  · rename_i ch _
    have hr : Memory.wf ((s.message (some (dieOf s.focus.cl)) none).reached x.launch x.uid true).mem = true :=
      State.reached_wf (by rwa [State.message_mem]) ..
    exact genWf_ite h (genWf_ite (genWf_ite hr hr) h)

theorem execTaskend_wf {s : State} (h : Memory.wf s.mem = true) : OutWf (execTaskend s) := by
  refine State.generator_wf h _ _ _ fun n slot x => genWf_ite h ?_
  split
  · exact h
  · refine genWf_ite h ?_
    rw [genWf_gone, State.reap_mem]
    refine State.endCtx_wf ?_ ..
    rw [State.addPost_mem]
    exact State.writeBackBays_wf (State.traceCtx_wf (by rwa [State.setCtx_mem]) ..) ..

theorem execTrap_wf {s : State} (h : Memory.wf s.mem = true) (l : GLit) : OutWf (execTrap l s) :=
  State.generator_wf h _ _ _ fun _ _ _ => h

theorem execNop_wf {s : State} (h : Memory.wf s.mem = true) : OutWf (execNop s) :=
  State.generator_wf h _ _ _ fun _ _ _ => h

theorem execEmit_wf {s : State} (h : Memory.wf s.mem = true) (m : BitVec 6) (l : GLit) : OutWf (execEmit m l s) := by
  unfold execEmit
  refine State.generator_wf h _ _ _ fun n slot x => ?_
  dsimp only
  repeat' split
  all_goals exact h

theorem execEmitM_wf {s : State} (h : Memory.wf s.mem = true) (die : Bool) (m a : BitVec 6) (len : ILen) : OutWf (execEmitM die m a len s) := by
  unfold execEmitM
  refine State.generator_wf h _ _ _ fun n slot x => ?_
  dsimp only
  repeat' split
  all_goals exact h

theorem execCaptBegin_wf {s : State} (h : Memory.wf s.mem = true) (l : GLit) : OutWf (execCaptBegin l s) := by
  unfold execCaptBegin
  refine State.generator_wf h _ _ _ fun n slot x => ?_
  dsimp only
  repeat' split
  all_goals exact h

theorem execCaptEnd_wf {s : State} (h : Memory.wf s.mem = true) : OutWf (execCaptEnd s) := by
  unfold execCaptEnd
  refine State.generator_wf h _ _ _ fun n slot x => ?_
  dsimp only
  repeat' split
  all_goals exact h

theorem execCaptDrop_wf {s : State} (h : Memory.wf s.mem = true) (l : GLit) : OutWf (execCaptDrop l s) := by
  unfold execCaptDrop
  refine State.generator_wf h _ _ _ fun n slot x => ?_
  dsimp only
  repeat' split
  all_goals exact h

theorem execCaptLoad_wf {s : State} (h : Memory.wf s.mem = true) (l : GLit) : OutWf (execCaptLoad l s) := by
  unfold execCaptLoad
  refine State.generator_wf h _ _ _ fun n slot x => ?_
  dsimp only
  repeat' split
  all_goals exact h

theorem State.replayBody_wf {s : State} (h : Memory.wf s.mem = true) (i : Instr) (id : BitVec 8) (o : EmitOp) (n slot : Nat) (x : Ctx) :
    GenWf (s.replayBody i id o n slot x) := by
  refine genWf_ite h (genWf_ite h ?_)
  split
  · exact h
  · exact h

theorem execReplay_wf {s : State} (h : Memory.wf s.mem = true) (l : GLit) : OutWf (execReplay l s) :=
  State.generator_wf h _ _ _ fun _ _ _ => State.replayBody_wf h ..

theorem execReplayM_wf {s : State} (h : Memory.wf s.mem = true) (die : Bool) (a : BitVec 6) (l : GLit) : OutWf (execReplayM die a l s) :=
  State.generator_wf h _ _ _ fun _ _ _ => State.replayBody_wf h ..

theorem execHset_wf {s : State} (h : Memory.wf s.mem = true) (h' : BitVec 3) (a : BitVec 6) : OutWf (execHset h' a s) :=
  State.generator_wf h _ _ _ fun _ _ _ => h

theorem execVrd_wf {s : State} (h : Memory.wf s.mem = true) (d : BitVec 6) : OutWf (execVrd d s) := by
  unfold execVrd
  refine State.generator_wf h _ _ _ fun n slot x => ?_
  dsimp only
  repeat' split
  all_goals exact h

theorem execVtest_wf {s : State} (h : Memory.wf s.mem = true) (k : BitVec 3) : OutWf (execVtest k s) :=
  State.generator_wf h _ _ _ fun _ _ _ => h

theorem execSwait_wf {s : State} (h : Memory.wf s.mem = true) (l : GLit) : OutWf (execSwait l s) := by
  unfold execSwait
  refine State.generator_wf h _ _ _ fun n slot x => ?_
  dsimp only
  repeat' split
  all_goals exact h

theorem execSrd_wf {s : State} (h : Memory.wf s.mem = true) (d : BitVec 6) (m : BitVec 3) : OutWf (execSrd d m s) :=
  State.generator_wf h _ _ _ fun _ _ _ => h

theorem execPortOperationStart_wf {s : State} (h : Memory.wf s.mem = true) (n : BitVec 5) (port : BitVec 1) :
    OutWf (execPortOperationStart n port s) := by
  unfold execPortOperationStart
  dsimp only
  repeat' split
  all_goals simpa using h

theorem execPortWordWrite_wf {s : State} (h : Memory.wf s.mem = true) (n : BitVec 5) (port : BitVec 1) : OutWf (execPortWordWrite n port s) := by
  unfold execPortWordWrite
  extract_lets n k keyOf
  split
  · exact h
  · refine outWf_ite (by simpa using h) (outWf_ite h (outWf_ite h ?_))
    split
    · exact h
    · extract_lets own targets w ends num t far u v k' x y
      have hends (t : State) (next : Nat) : (ends t next).mem = t.mem := by
        simp only [ends]
        split
        · rw [State.setCluster_mem, State.modCtx_mem]
        · rw [State.modCtx_mem]
      have ht : t.mem = s.mem := foldl_mem _ (fun _ _ => State.writeWord_mem ..) _ _
      have hu : u.mem = s.mem := (foldl_mem (fun s d => s.message _ (some d)) (fun _ _ => State.message_mem ..) _ _).trans ht
      have hy : y.mem = s.mem := by simp only [y, x, v, hends, State.setCluster_mem, State.countCtx_mem, hu]
      refine outWf_ite (by rwa [outWf_next, hends]) (outWf_ite h ?_)
      rw [outWf_next, State.mem_ite, State.takeSave_mem, ite_self, hy]
      exact h

theorem execReplayReadback_wf {s : State} (h : Memory.wf s.mem = true) (n : BitVec 5) (slot : Tried (BitVec 3)) :
    OutWf (execReplayReadback n slot s) := by
  unfold execReplayReadback
  grind [outWf_next, State.errorRecord_wf, State.putCapt_mem, State.setCtx_mem, State.exchange_mem, State.stopCtx_mem]

theorem execVoteReady_wf {s : State} (h : Memory.wf s.mem = true) (n : BitVec 5) (slot : BitVec 3) : OutWf (execVoteReady n slot s) := by
  unfold execVoteReady
  dsimp only
  simpa using h

theorem execLd_wf {s : State} (h : Memory.wf s.mem = true) (t : MTy) (d a : BitVec 6) (m : MX) : OutWf (execLd t d a m s) :=
  State.generator_wf h _ _ _ fun _ _ _ => State.genAccess_wf h ..

theorem execSt_wf {s : State} (h : Memory.wf s.mem = true) (t : MTy) (g a : BitVec 6) (m : MX) : OutWf (execSt t g a m s) :=
  State.generator_wf h _ _ _ fun _ _ _ => State.genAccess_wf h ..

theorem execAtom_wf {s : State} (h : Memory.wf s.mem = true) (narrow : Bool) (op : GAtom) (d a g : BitVec 6) (m : MX) :
    OutWf (execAtom narrow op d a g m s) :=
  State.generator_wf h _ _ _ fun _ _ _ => State.genAccess_wf h ..

theorem execCas_wf {s : State} (h : Memory.wf s.mem = true) (narrow : Bool) (d a g : BitVec 6) (m : MX) : OutWf (execCas narrow d a g m s) :=
  State.generator_wf h _ _ _ fun _ _ _ => State.genAccess_wf h ..

theorem State.fwait_wf {s : State} (h : Memory.wf s.mem = true) (i : Instr) (d a : BitVec 6) (w : W64 → Wait)
    (answer : Ctx → W64 → Option W64) : OutWf (s.fwait i d a w answer) := by
  unfold State.fwait
  refine State.generator_wf h _ _ _ fun n slot x => ?_
  dsimp only
  repeat' split
  all_goals exact h

theorem execFtest_wf {s : State} (h : Memory.wf s.mem = true) (d f : BitVec 6) : OutWf (execFtest d f s) :=
  State.generator_wf h _ _ _ fun _ _ _ => genWf_ite h h

theorem execFtestAddr_wf {s : State} (h : Memory.wf s.mem = true) (d f : BitVec 6) : OutWf (execFtestAddr d f s) := by
  unfold execFtestAddr
  refine State.generator_wf h _ _ _ fun n slot x => ?_
  dsimp only
  repeat' split
  all_goals exact h

theorem execFcancel_wf {s : State} (h : Memory.wf s.mem = true) (f : BitVec 6) : OutWf (execFcancel f s) :=
  State.generator_wf h _ _ _ fun _ _ _ => State.fcancel_wf h ..

theorem execFstore_wf {s : State} (h : Memory.wf s.mem = true) (f a : BitVec 6) (y : SX) : OutWf (execFstore f a y s) := by
  refine State.generator_wf h _ _ _ fun n slot x => genWf_ite h (State.syncOp_wf h _ _ _ _ _ _ _ _ fun t z p ht => ?_)
  extract_lets w sl u
  have hu : Memory.wf u.mem = true := by
    simp only [u]
    split
    · exact State.writeSW_wf ht ..
    · exact ht
  refine genWf_ite ht (genWf_ite ht (genWf_ite (by rwa [genWf_retire, State.modCtx_mem]) ?_))
  split
  · rename_i v hv
    exact State.resolveAt_wf hu _ _ _ _ _ _ _ _ _ v hv
  · exact hu

theorem execFload_wf {s : State} (h : Memory.wf s.mem = true) (tv : Bool) (f a gt : BitVec 6) (len : ILen) : OutWf (execFload tv f a gt len s) := by
  refine State.generator_wf h _ _ _ fun n slot x => genWf_ite h ?_
  split
  · exact h
  · refine State.memAddr_wf h _ _ _ _ _ _ fun t p ht => genWf_ite ht (State.atHome_wf ht _ _ _ _ _ fun u hu => ?_)
    extract_lets v w sl z z' z'' v'
    have hv : Memory.wf v'.mem = true := by
      simp only [v', v, State.setCtx_mem]
      split
      · exact State.carryStrong_wf hu ..
      · exact hu
    refine genWf_ite ?_ hv
    split
    · exact State.resolveSlot_wf hv ..
    · exact hv

theorem execFreg_wf {s : State} (h : Memory.wf s.mem = true) (a b c : BitVec 6) (y : SX) : OutWf (execFreg a b c y s) := by
  refine State.generator_wf h _ _ _ fun n slot x => ?_
  extract_lets i va vb gc
  refine State.syncOp_wf h _ _ _ _ _ _ _ _ fun t z p ht => ?_
  extract_lets before stamp fault taken back
  clear_value stamp
  have htaken : ∀ v, taken = some v → Memory.wf v.mem = true := by
    intro v hv
    simp only [taken] at hv
    split at hv
    · grind
    · grind [State.setCtx_mem]
    · exact State.takeCredit_wf ht _ _ _ _ v hv
  have hback (u r) (hu : Memory.wf u.mem = true) : GenWf (fault (back u) r) := by
    simp only [fault, back, genWf_trap]
    split
    · rwa [State.modCtx_mem]
    · rwa [State.modCtx_mem]
    · exact hu
  have refuses (r) : GenWf (fault t r) := ht
  clear_value fault back taken
  refine genWf_ite (refuses _) ?_
  split
  · exact refuses _
  · rename_i u
    have hu := htaken u rfl
    extract_lets clk
    have hx := State.xlate_wf hu n z.ring vb true (userOf z.uid 0)
    split
    · exact ht
    · exact ht
    · rename_i q v hq
      rw [hq] at hx
      refine genWf_ite ht (State.atHome_wf ht _ _ _ _ _ fun _ _ => State.carried_wf ht _ _ _ _ _ _ fun _ _ => ?_)
      extract_lets v1 v2 image image' write v3 w w0 w' v4
      have h2 : Memory.wf v2.mem = true := by
        simp only [v2, v1]
        split
        · exact State.carryStrong_wf (by rwa [State.reach_mem]) ..
        · rwa [State.reach_mem]
      have h3 : Memory.wf v3.mem = true := foldl_wf _ (fun _ _ h => State.homeWrite_wf h ..) _ h2
      refine genWf_ite (hback _ _ h3) (genWf_ite (hback _ _ h3) ?_)
      have h4 : Memory.wf v4.mem = true := State.writeSW_wf h3 ..
      rw [genWf_retire]
      split
      · exact State.pushCont_wf h4 ..
      · exact h4

theorem execFsetInit_wf {s : State} (h : Memory.wf s.mem = true) (m : BitVec 3) (a : BitVec 6) (y : SX) : OutWf (execFsetInit m a y s) :=
  State.generator_wf h _ _ _ fun _ _ _ => State.syncOp_wf h _ _ _ _ _ _ _ _ fun _ _ _ ht => genWf_ite ht (State.writeSW_wf ht ..)

theorem State.fset_wf {s : State} (h : Memory.wf s.mem = true) (i : Instr) (a : BitVec 6) (reads : List (BitVec 6)) (y : SX) (val : Ctx → W64)
    (cancel : Bool) : OutWf (s.fset i a reads y val cancel) := by
  refine State.generator_wf h _ _ _ fun n slot x => State.syncOp_wf h _ _ _ _ _ _ _ _ fun t z p ht => ?_
  split
  · rename_i v hv
    exact State.resolveAt_wf ht _ _ _ _ _ _ _ _ _ v hv
  · exact ht

theorem State.spawn_wf {s : State} (h : Memory.wf s.mem = true) (i : Instr) (reads : List (BitVec 6)) (a : BitVec 6) (m : MX)
    (list : Ctx → Option (List Nat)) (root : Bool) : OutWf (s.spawn i reads a m list root) := by
  unfold State.spawn
  refine State.generator_wf h _ _ _ fun n slot x => ?_
  extract_lets va fault weight
  refine genWf_ite h (State.syncOp_wf h _ _ _ _ _ _ _ _ fun t z p ht => ?_)
  split
  · exact ht
  · exact ht
  · extract_lets items k stamp
    have hr := State.readAt_wf ht n none m.ann.sc p.pa 64 p.hint
    generalize t.readAt n none m.ann.sc p.pa 64 p.hint = r at hr ⊢
    obtain ⟨data, u⟩ := r
    dsimp -zeta only
    extract_lets image image' bs bs' took
    refine genWf_ite (genWf_ite hr ?_) ?_
    · split
      · rename_i v hv
        exact State.pushAll_wf hr _ _ _ _ _ v hv
      · exact hr
    · have htook : ∀ v, took = .ok v → Memory.wf v.mem = true := by
        intro v hv
        simp only [took] at hv
        clear_value stamp
        split at hv
        · grind
        · grind [State.setCtx_mem]
        · split at hv
          · rename_i v' hv'
            cases hv
            exact State.takeCredit_wf hr _ _ _ _ v hv'
          · cases hv
      clear_value took
      split
      · exact hr
      · rename_i v
        have hv' := htook v rfl
        split
        · rename_i v2 hv2
          exact State.pushAll_wf hv' _ _ _ _ _ v2 hv2
        · exact hr

theorem execJraise_wf {s : State} (h : Memory.wf s.mem = true) (l : GLit) : OutWf (execJraise l s) := by
  unfold execJraise
  refine State.generator_wf h _ _ _ fun n slot x => ?_
  dsimp only
  repeat' split
  all_goals exact h

theorem execBquery_wf {s : State} (h : Memory.wf s.mem = true) (d : BitVec 6) (l : GLit) : OutWf (execBquery d l s) :=
  State.generator_wf h _ _ _ fun _ _ _ => h

theorem execFlInit_wf {s : State} (h : Memory.wf s.mem = true) (win : Bool) (a g : BitVec 6) (l : GLit) : OutWf (execFlInit win a g l s) := by
  unfold execFlInit
  refine State.generator_wf h _ _ _ fun n slot x => ?_
  dsimp only
  repeat' split
  all_goals exact h

theorem State.takeChamber_wf {s : State} (h : Memory.wf s.mem = true) (i : Instr) (d : BitVec 6) (l : GLit) (acq : Bool) :
    OutWf (s.takeChamber i d l acq) := by
  unfold State.takeChamber
  refine State.generator_wf h _ _ _ fun n slot x => ?_
  dsimp only
  repeat' split
  all_goals simpa using h

theorem State.flightStep_wf {s : State} (h : Memory.wf s.mem = true) (i : Instr) (a : BitVec 6) (m : MX) (commit : Bool)
    (f : Option (BitVec 6)) : OutWf (s.flightStep i a m commit f) := by
  refine State.generator_wf h _ _ _ fun n slot x => State.withFlight_wf h _ _ _ _ fun _ => State.syncStep_wf h _ _ _ _ fun t z ht => ?_
  split
  · exact ht
  · refine genWf_ite ht (genWf_ite ht ?_)
    split
    · exact ht
    · exact genWf_ite ht (genWf_ite ht (genWf_ite ht ht))

theorem execFlCommit_wf {s : State} (h : Memory.wf s.mem = true) (a : BitVec 6) (m : MX) : OutWf (execFlCommit a m s) :=
  State.flightStep_wf h ..

theorem execFlCommitF_wf {s : State} (h : Memory.wf s.mem = true) (f a : BitVec 6) (m : MX) : OutWf (execFlCommitF f a m s) :=
  State.flightStep_wf h ..

theorem execFlRel_wf {s : State} (h : Memory.wf s.mem = true) (a : BitVec 6) (m : MX) : OutWf (execFlRel a m s) :=
  State.flightStep_wf h ..

theorem execFlRelF_wf {s : State} (h : Memory.wf s.mem = true) (f a : BitVec 6) (m : MX) : OutWf (execFlRelF f a m s) :=
  State.flightStep_wf h ..

theorem execBarCl_wf {s : State} (h : Memory.wf s.mem = true) : OutWf (execBarCl s) :=
  State.generator_wf h _ _ _ fun _ _ _ => genWf_ite (by rw [genWf_retire, State.refreshBays_mem]; exact State.carryAll_wf h ..) h

theorem execBarDie_wf {s : State} (h : Memory.wf s.mem = true) (b : BitVec 2) : OutWf (execBarDie b s) := by
  refine State.generator_wf h _ _ _ fun n slot x => ?_
  have arrives : GenWf (if s.quiet n slot x then .block (s.carryAll x .die) (.barDie b true false) else .block s (.barDie b false false)) :=
    genWf_ite (State.carryAll_wf h ..) h
  dsimp only
  split
  · exact genWf_ite h (genWf_ite h arrives)
  · exact arrives

theorem execBarrierRelease_wf {s : State} (h : Memory.wf s.mem = true) (launch : Nat) (die : BitVec 3) (b : BitVec 2) :
    OutWf (execBarrierRelease launch die b s) := by
  refine outWf_ite h ?_
  rw [outWf_next, foldl_mem _ (fun _ _ => State.refreshBays_mem ..)]
  exact h

theorem execMon_wf {s : State} (h : Memory.wf s.mem = true) (d a : BitVec 6) (y : SX) : OutWf (execMon d a y s) :=
  State.generator_wf h _ _ _ fun _ _ _ => State.syncOp_wf h _ _ _ _ _ _ _ _ fun _ _ _ ht => ht

theorem execMwait_wf {s : State} (h : Memory.wf s.mem = true) (d a : BitVec 6) : OutWf (execMwait d a s) := by
  unfold execMwait
  refine State.generator_wf h _ _ _ fun n slot x => ?_
  dsimp only
  repeat' split
  all_goals exact h

theorem execMwaitLimit_wf {s : State} (h : Memory.wf s.mem = true) (n : BitVec 5) (slot : BitVec 3) : OutWf (execMwaitLimit n slot s) := by
  unfold execMwaitLimit
  grind [outWf_next, State.setReady_mem]

theorem execWpSet_wf {s : State} (h : Memory.wf s.mem = true) (d a : BitVec 6) (y : SX) : OutWf (execWpSet d a y s) := by
  unfold execWpSet
  refine State.generator_wf h _ _ _ fun n slot x => ?_
  refine State.syncOp_wf h _ _ _ _ _ _ _ _ fun t z p ht => ?_
  have hr := State.readAt_wf ht n none y.ann.sc p.pa 64 p.hint
  generalize t.readAt n none y.ann.sc p.pa 64 p.hint = r at hr ⊢
  obtain ⟨data, u⟩ := r
  dsimp -zeta only
  extract_lets r w1 start words barge answer valid
  have hanswer (v b) (hv : Memory.wf v.mem = true) : GenWf (answer v b) := by
    simpa only [answer, genWf_retire, State.modCtx_mem] using hv
  clear_value answer valid barge start words w1
  refine genWf_ite (hanswer _ _ hr) (State.memAddr_wf hr _ _ _ _ _ _ fun v q hv => genWf_ite hv ?_)
  refine State.atHome_wf hv _ _ _ _ _ fun v hv => State.carried_wf hv _ _ _ _ _ _ fun v hv => ?_
  extract_lets v' image
  clear_value image
  have hv' : Memory.wf v'.mem = true := by
    simp only [v']
    split
    · exact State.carryStrong_wf hv ..
    · exact hv
  have hr' := State.readAt_wf hv' n none y.ann.sc q.pa 64 q.hint
  generalize v'.readAt n none y.ann.sc q.pa 64 q.hint = r' at hr' ⊢
  obtain ⟨data', w⟩ := r'
  dsimp -zeta only
  have hx := State.xlate_wf hr' n z.ring start false (userOf z.uid 0)
  dsimp only at hx
  split
  all_goals
    rename_i e
    rw [e] at hx
  · exact hx
  · exact hanswer _ _ hx
  · split
    · exact hanswer _ _ hx
    · refine genWf_ite (hanswer _ _ hx) (genWf_ite (hanswer _ _ hx) ?_)
      split
      · exact hanswer _ _ hx
      · exact hanswer _ _ hx

theorem execWpClr_wf {s : State} (h : Memory.wf s.mem = true) (a : BitVec 6) : OutWf (execWpClr a s) := by
  unfold execWpClr
  refine State.generator_wf h _ _ _ fun n slot x => ?_
  dsimp only
  repeat' split
  all_goals exact h

theorem execContextUnblock_wf {s : State} (h : Memory.wf s.mem = true) (n : BitVec 5) (slot : BitVec 3) :
    OutWf (execContextUnblock n slot s) := by
  unfold execContextUnblock
  grind [outWf_next, State.setReady_mem]

theorem execContextPick_wf {s : State} (h : Memory.wf s.mem = true) (n : BitVec 5) : OutWf (execContextPick n s) := by
  unfold execContextPick
  dsimp only
  repeat' split
  all_goals exact h

theorem execWatchdog_wf {s : State} (h : Memory.wf s.mem = true) (n : BitVec 5) : OutWf (execWatchdog n s) := by
  unfold execWatchdog
  dsimp only
  repeat' split
  all_goals simpa using h

theorem State.affWord_wf {s : State} (h : Memory.wf s.mem = true) (i : Instr) (w : LA) (op : Core → Int × Int) : OutWf (s.affWord i w op) :=
  State.lane_wf h _ _ _ fun _ _ _ _ _ => by split <;> exact h

theorem execPromQv_wf {s : State} (h : Memory.wf s.mem = true) (w : LA) : OutWf (execPromQv w s) :=
  State.laneLA_wf h ..

theorem execPromAv_wf {s : State} (h : Memory.wf s.mem = true) (w : LA) : OutWf (execPromAv w s) :=
  State.laneLA_wf h ..

theorem execXtr_wf {s : State} (h : Memory.wf s.mem = true) (w : LA) : OutWf (execXtr w s) :=
  State.laneLA_wf h ..

theorem State.intWord_wf {s : State} (h : Memory.wf s.mem = true) (i : Instr) (w : LA) (op : IntOp) : OutWf (s.intWord i w op) :=
  State.laneLA_wf h ..

theorem execIcmp_wf {s : State} (h : Memory.wf s.mem = true) (w : LA) : OutWf (execIcmp w s) :=
  State.laneLA_wf h ..

theorem execLaneSel_wf {s : State} (h : Memory.wf s.mem = true) (w : LA) : OutWf (execLaneSel w s) :=
  State.laneLA_wf h ..

theorem execLaneMov_wf {s : State} (h : Memory.wf s.mem = true) (w : LA) : OutWf (execLaneMov w s) :=
  State.laneLA_wf h ..

theorem State.floatWord_wf {s : State} (h : Memory.wf s.mem = true) (i : Instr) (w : LA) (op : Core → Nat → Nat) : OutWf (s.floatWord i w op) :=
  State.laneLA_wf h ..

theorem State.arith_wf {s : State} (h : Memory.wf s.mem = true) (i : Instr) (w : LA) (op : Exact → Exact → Exact → Exact) :
    OutWf (s.arith i w op) :=
  State.floatWord_wf h ..

theorem execFadd_wf {s : State} (h : Memory.wf s.mem = true) (w : LA) : OutWf (execFadd w s) :=
  State.arith_wf h ..

theorem execFsub_wf {s : State} (h : Memory.wf s.mem = true) (w : LA) : OutWf (execFsub w s) :=
  State.arith_wf h ..

theorem execFmul_wf {s : State} (h : Memory.wf s.mem = true) (w : LA) : OutWf (execFmul w s) :=
  State.arith_wf h ..

theorem execFma_wf {s : State} (h : Memory.wf s.mem = true) (w : LA) : OutWf (execFma w s) :=
  State.arith_wf h ..

theorem execFnma_wf {s : State} (h : Memory.wf s.mem = true) (w : LA) : OutWf (execFnma w s) :=
  State.arith_wf h ..

theorem execFdiv_wf {s : State} (h : Memory.wf s.mem = true) (w : LA) : OutWf (execFdiv w s) :=
  State.arith_wf h ..

theorem execFsqrt_wf {s : State} (h : Memory.wf s.mem = true) (w : LA) : OutWf (execFsqrt w s) :=
  State.arith_wf h ..

theorem execFmin_wf {s : State} (h : Memory.wf s.mem = true) (w : LA) : OutWf (execFmin w s) :=
  State.arith_wf h ..

theorem execFmax_wf {s : State} (h : Memory.wf s.mem = true) (w : LA) : OutWf (execFmax w s) :=
  State.arith_wf h ..

theorem execFcmp_wf {s : State} (h : Memory.wf s.mem = true) (w : LA) : OutWf (execFcmp w s) :=
  State.laneLA_wf h ..

theorem execFclass_wf {s : State} (h : Memory.wf s.mem = true) (w : LA) : OutWf (execFclass w s) :=
  State.laneLA_wf h ..

theorem execFrnd_wf {s : State} (h : Memory.wf s.mem = true) (w : LA) : OutWf (execFrnd w s) :=
  State.arith_wf h ..

theorem execFscale_wf {s : State} (h : Memory.wf s.mem = true) (w : LA) : OutWf (execFscale w s) :=
  State.laneLA_wf h ..

theorem execFgetexp_wf {s : State} (h : Memory.wf s.mem = true) (w : LA) : OutWf (execFgetexp w s) :=
  State.laneLA_wf h ..

theorem State.specialWord_wf {s : State} (h : Memory.wf s.mem = true) (i : Instr) (w : LA) (fn : Fn) : OutWf (s.specialWord i w fn) :=
  State.floatWord_wf h ..

theorem execFrcp_wf {s : State} (h : Memory.wf s.mem = true) (w : LA) : OutWf (execFrcp w s) :=
  State.arith_wf h ..

theorem execFrsq_wf {s : State} (h : Memory.wf s.mem = true) (w : LA) : OutWf (execFrsq w s) :=
  State.arith_wf h ..

theorem execFexp2_wf {s : State} (h : Memory.wf s.mem = true) (w : LA) : OutWf (execFexp2 w s) :=
  State.specialWord_wf h ..

theorem execFlog2_wf {s : State} (h : Memory.wf s.mem = true) (w : LA) : OutWf (execFlog2 w s) :=
  State.specialWord_wf h ..

theorem execFsin_wf {s : State} (h : Memory.wf s.mem = true) (w : LA) : OutWf (execFsin w s) :=
  State.specialWord_wf h ..

theorem execFcos_wf {s : State} (h : Memory.wf s.mem = true) (w : LA) : OutWf (execFcos w s) :=
  State.specialWord_wf h ..

theorem execFtanh_wf {s : State} (h : Memory.wf s.mem = true) (w : LA) : OutWf (execFtanh w s) :=
  State.specialWord_wf h ..

theorem execFsigm_wf {s : State} (h : Memory.wf s.mem = true) (w : LA) : OutWf (execFsigm w s) :=
  State.specialWord_wf h ..

theorem execFerf_wf {s : State} (h : Memory.wf s.mem = true) (w : LA) : OutWf (execFerf w s) :=
  State.specialWord_wf h ..

theorem execCvt_wf {s : State} (h : Memory.wf s.mem = true) (w : LA) : OutWf (execCvt w s) := by
  unfold execCvt
  refine State.lane_wf h _ _ _ fun n k c x e => ?_
  exact h

theorem execCvtBlk_wf {s : State} (h : Memory.wf s.mem = true) (w : LA) : OutWf (execCvtBlk w s) :=
  State.laneLA_wf h ..

theorem execBscale_wf {s : State} (h : Memory.wf s.mem = true) (w : LA) : OutWf (execBscale w s) :=
  State.laneLA_wf h ..

theorem execPlanePk_wf {s : State} (h : Memory.wf s.mem = true) (w : LA) : OutWf (execPlanePk w s) := by
  unfold execPlanePk
  refine State.lane_wf h _ _ _ fun n k c x e => ?_
  dsimp only
  repeat' split
  all_goals exact h

theorem execPlaneUp_wf {s : State} (h : Memory.wf s.mem = true) (w : LA) : OutWf (execPlaneUp w s) := by
  unfold execPlaneUp
  refine State.lane_wf h _ _ _ fun n k c x e => ?_
  dsimp only
  repeat' split
  all_goals exact h

theorem State.shuffle_wf {s : State} (h : Memory.wf s.mem = true) (i : Instr) (w : LA) (src : Nat → Nat → Nat) : OutWf (s.shuffle i w src) :=
  State.laneLA_wf h ..

theorem execShfl_wf {s : State} (h : Memory.wf s.mem = true) (w : LA) : OutWf (execShfl w s) :=
  State.shuffle_wf h ..

theorem execShflRot_wf {s : State} (h : Memory.wf s.mem = true) (w : LA) : OutWf (execShflRot w s) :=
  State.shuffle_wf h ..

theorem execShflXor_wf {s : State} (h : Memory.wf s.mem = true) (w : LA) : OutWf (execShflXor w s) :=
  State.shuffle_wf h ..

theorem execBcast_wf {s : State} (h : Memory.wf s.mem = true) (w : LA) : OutWf (execBcast w s) :=
  State.shuffle_wf h ..

theorem State.reduce_wf {s : State} (h : Memory.wf s.mem = true) (i : Instr) (w : LA) (op : RedFn) (empty : Nat) :
    OutWf (s.reduce i w op empty) :=
  State.laneLA_wf h ..

theorem execRedAdd_wf {s : State} (h : Memory.wf s.mem = true) (w : LA) : OutWf (execRedAdd w s) :=
  State.reduce_wf h ..

theorem execRedMin_wf {s : State} (h : Memory.wf s.mem = true) (w : LA) : OutWf (execRedMin w s) :=
  State.reduce_wf h ..

theorem execRedMax_wf {s : State} (h : Memory.wf s.mem = true) (w : LA) : OutWf (execRedMax w s) :=
  State.reduce_wf h ..

theorem execRedAnd_wf {s : State} (h : Memory.wf s.mem = true) (w : LA) : OutWf (execRedAnd w s) :=
  State.reduce_wf h ..

theorem execRedOr_wf {s : State} (h : Memory.wf s.mem = true) (w : LA) : OutWf (execRedOr w s) :=
  State.reduce_wf h ..

theorem State.scan_wf {s : State} (h : Memory.wf s.mem = true) (i : Instr) (w : LA) (op : RedFn) (ident : Nat) : OutWf (s.scan i w op ident) :=
  State.laneLA_wf h ..

theorem execScanAdd_wf {s : State} (h : Memory.wf s.mem = true) (w : LA) : OutWf (execScanAdd w s) :=
  State.scan_wf h ..

theorem execScanMax_wf {s : State} (h : Memory.wf s.mem = true) (w : LA) : OutWf (execScanMax w s) :=
  State.scan_wf h ..

theorem execIsect_wf {s : State} (h : Memory.wf s.mem = true) (w : LA) : OutWf (execIsect w s) := by
  unfold execIsect
  refine State.lane_wf h _ _ _ fun n k c x e => ?_
  dsimp only
  repeat' split
  all_goals exact h

theorem State.pack_wf {s : State} (h : Memory.wf s.mem = true) (i : Instr) (w : LA) (res : (Nat → Nat) → List Nat → Nat → Option Nat) :
    OutWf (s.pack i w res) :=
  State.laneLA_wf h ..

theorem execCompact_wf {s : State} (h : Memory.wf s.mem = true) (w : LA) : OutWf (execCompact w s) :=
  State.pack_wf h ..

theorem execExpand_wf {s : State} (h : Memory.wf s.mem = true) (w : LA) : OutWf (execExpand w s) :=
  State.pack_wf h ..

theorem State.maskWord_wf {s : State} (h : Memory.wf s.mem = true) (i : Instr) (w : LA) (op : Core → BitVec 16) : OutWf (s.maskWord i w op) :=
  State.laneLA_wf h ..

theorem execMToq_wf {s : State} (h : Memory.wf s.mem = true) (w : LA) : OutWf (execMToq w s) :=
  State.laneLA_wf h ..

theorem execLexit_wf {s : State} (h : Memory.wf s.mem = true) (w : LA) : OutWf (execLexit w s) := by
  unfold execLexit
  refine State.lane_wf h _ _ _ fun n k c x e => ?_
  dsimp only
  repeat' split
  all_goals simpa [LaneWf] using h

theorem execVote_wf {s : State} (h : Memory.wf s.mem = true) (w : LA) : OutWf (execVote w s) := by
  unfold execVote
  refine State.lane_wf h _ _ _ fun n k c x e => ?_
  dsimp only
  repeat' split
  all_goals exact h

theorem execLaneLd_wf {s : State} (h : Memory.wf s.mem = true) (w : LM) : OutWf (execLaneLd w s) :=
  State.lane_wf h _ _ _ fun _ _ _ _ _ => State.laneAccess_wf h _ _ _ _ _ _ _ _ _ _ _ fun _ => State.placeMem_wf h ..

theorem execLaneSt_wf {s : State} (h : Memory.wf s.mem = true) (w : LM) : OutWf (execLaneSt w s) :=
  State.lane_wf h _ _ _ fun _ _ _ _ _ => State.laneAccess_wf h _ _ _ _ _ _ _ _ _ _ _ fun _ => State.placeMem_wf h ..

theorem State.scratchWord_wf {s : State} (h : Memory.wf s.mem = true) (i : Instr) (w : LM) (load win : Bool) :
    OutWf (s.scratchWord i w load win) := by
  unfold State.scratchWord
  refine State.lane_wf h _ _ _ fun n k c x e => ?_
  refine State.laneAccess_wf h _ _ _ _ _ _ _ _ _ _ _ fun ws => ?_
  split <;> exact h

theorem State.atomWord_wf {s : State} (h : Memory.wf s.mem = true) (i : Instr) (w : LM) (op : AccOp) (cas : Bool) :
    OutWf (s.atomWord i w op cas) := by
  unfold State.atomWord
  refine State.lane_wf h _ _ _ fun n k c x e => ?_
  refine State.laneAccess_wf h _ _ _ _ _ _ _ _ _ _ _ fun ws => ?_
  exact State.placeMem_wf h ..

theorem State.copyWord_wf {s : State} (h : Memory.wf s.mem = true) (i : Instr) (w : LM) (load : Bool) : OutWf (s.copyWord i w load) := by
  unfold State.copyWord
  refine State.lane_wf h _ _ _ fun n k c x e => ?_
  refine State.laneAccess_wf h _ _ _ _ _ _ _ _ _ _ _ fun ws => ?_
  exact State.placeMem_wf h ..

theorem execPref_wf {s : State} (h : Memory.wf s.mem = true) (w : LM) : OutWf (execPref w s) := by
  refine State.lane_wf h _ _ _ fun n k c x e => ?_
  dsimp only
  refine laneWf_ite (State.placeMem_wf h ..) (foldl_wf _ (fun t p ht => ?_) _ ?_)
  · grind [State.bayFill_wf, State.bayPut_wf, State.l2Fill_wf, State.reach_mem]
  · rw [State.forgetWalks_mem]
    exact State.placeMem_wf h ..

theorem State.indexedWord_wf {s : State} (h : Memory.wf s.mem = true) (i : Instr) (w : LM) (op : AccOp) (load : Bool)
    (data : Core → Nat → Nat) : OutWf (s.indexedWord i w op load data) := by
  unfold State.indexedWord
  refine State.lane_wf h _ _ _ fun n k c x e => ?_
  refine State.laneAccess_wf h _ _ _ _ _ _ _ _ _ _ _ fun ws => ?_
  exact h

theorem execCopy_wf {s : State} (h : Memory.wf s.mem = true) (f a b : BitVec 6) (x : EX) : OutWf (execCopy f a b x s) :=
  State.command_wf h ..

theorem execGather_wf {s : State} (h : Memory.wf s.mem = true) (tv : Bool) (f a b c gt : BitVec 6) (x : EX) :
    OutWf (execGather tv f a b c gt x s) :=
  State.command_wf h ..

theorem execScatter_wf {s : State} (h : Memory.wf s.mem = true) (tv : Bool) (f a b c gt : BitVec 6) (x : EX) :
    OutWf (execScatter tv f a b c gt x s) :=
  State.command_wf h ..

theorem execSpmm_wf {s : State} (h : Memory.wf s.mem = true) (set : Bool) (f a b c : BitVec 6) (x : EX) : OutWf (execSpmm set f a b c x s) :=
  State.command_wf h ..

theorem execMergeU_wf {s : State} (h : Memory.wf s.mem = true) (tv dz : Bool) (f a b c gt : BitVec 6) (x : EX) :
    OutWf (execMergeU tv dz f a b c gt x s) :=
  State.command_wf h ..

theorem execMergeI_wf {s : State} (h : Memory.wf s.mem = true) (tv : Bool) (f a b c gt : BitVec 6) (x : EX) :
    OutWf (execMergeI tv f a b c gt x s) :=
  State.command_wf h ..

theorem execClBcast_wf {s : State} (h : Memory.wf s.mem = true) (f a b : BitVec 6) (x : EX) : OutWf (execClBcast f a b x s) :=
  State.command_wf h ..

theorem execClReduce_wf {s : State} (h : Memory.wf s.mem = true) (op : RedOp) (f a b : BitVec 6) (x : EX) : OutWf (execClReduce op f a b x s) :=
  State.command_wf h ..

theorem execClAllred_wf {s : State} (h : Memory.wf s.mem = true) (op : RedOp) (f a b : BitVec 6) (x : EX) : OutWf (execClAllred op f a b x s) :=
  State.command_wf h ..

theorem execClGather_wf {s : State} (h : Memory.wf s.mem = true) (f a b : BitVec 6) (x : EX) : OutWf (execClGather f a b x s) :=
  State.command_wf h ..

theorem execClScatter_wf {s : State} (h : Memory.wf s.mem = true) (f a b : BitVec 6) (x : EX) : OutWf (execClScatter f a b x s) :=
  State.command_wf h ..

theorem execClA2a_wf {s : State} (h : Memory.wf s.mem = true) (f a b : BitVec 6) (x : EX) : OutWf (execClA2a f a b x s) :=
  State.command_wf h ..

theorem execWback_wf {s : State} (h : Memory.wf s.mem = true) (f a b : BitVec 6) (x : EX) : OutWf (execWback f a b x s) :=
  State.command_wf h ..

theorem execDropr_wf {s : State} (h : Memory.wf s.mem = true) (f a b : BitVec 6) (x : EX) : OutWf (execDropr f a b x s) :=
  State.command_wf h ..

theorem execFill_wf {s : State} (h : Memory.wf s.mem = true) (f a b : BitVec 6) (x : EX) : OutWf (execFill f a b x s) :=
  State.command_wf h ..

theorem execEngineCommandStart_wf {s : State} (h : Memory.wf s.mem = true) (id : Tried Nat) : OutWf (execEngineCommandStart id s) := by
  unfold execEngineCommandStart
  split
  · exact h
  · refine outWf_ite h ?_
    split
    · exact State.runEngine_wf (State.storageError_wf h ..) _ _ (engWf_halt _)
    · exact State.runEngine_wf (State.carry_wf h ..) _ _ (engBegin_wf _)

theorem execMma_wf {s : State} (h : Memory.wf s.mem = true) (w : Sys2Proof.LE) : OutWf (execMma w s) := by
  unfold execMma
  refine State.lane_wf h _ _ _ fun n k c x e => ?_
  dsimp only
  repeat' split
  all_goals simpa [LaneWf] using h

theorem execMmaAccept_wf {s : State} (h : Memory.wf s.mem = true) (id : Nat) : OutWf (execMmaAccept id s) := by
  unfold execMmaAccept
  dsimp only
  repeat' split
  all_goals simpa using h

theorem execMmaStep_wf {s : State} (h : Memory.wf s.mem = true) (n : BitVec 5) (bay : BitVec 4) : OutWf (execMmaStep n bay s) := by
  unfold execMmaStep
  dsimp only
  repeat' split
  all_goals simpa using h

theorem execAccRd_wf {s : State} (h : Memory.wf s.mem = true) (w : LM) : OutWf (execAccRd w s) := by
  unfold execAccRd
  refine State.lane_wf h _ _ _ fun n k c x e => ?_
  dsimp only
  repeat' split
  all_goals exact h

theorem execAccWr_wf {s : State} (h : Memory.wf s.mem = true) (w : LM) : OutWf (execAccWr w s) := by
  unfold execAccWr
  refine State.lane_wf h _ _ _ fun n k c x e => ?_
  dsimp only
  repeat' split
  all_goals exact h

theorem execAccClr_wf {s : State} (h : Memory.wf s.mem = true) (w : LA) : OutWf (execAccClr w s) := by
  unfold execAccClr
  refine State.lane_wf h _ _ _ fun n k c x e => ?_
  dsimp only
  repeat' split
  all_goals exact h

theorem execTollRefill_wf {s : State} (h : Memory.wf s.mem = true) (n : BitVec 5) : OutWf (execTollRefill n s) := by
  unfold execTollRefill
  dsimp only
  repeat' split
  all_goals simpa using h

theorem execCodeFillArrival_wf {s : State} (h : Memory.wf s.mem = true) (lvl : Sys2Proof.Level) (unit : BitVec 5) (line : W64) (o : Attempt) :
    OutWf (execCodeFillArrival lvl unit line o s) := by
  unfold execCodeFillArrival
  grind [outWf_next, State.message_mem, State.storageError_wf, State.faultFetch_mem, State.codeRecord_wf, State.errorRecord_wf, State.askFill_mem]

theorem execPageWalkDone_wf {s : State} (h : Memory.wf s.mem = true) (die : BitVec 3) (space : BitVec 2) (vpn : BitVec 60) (o : Attempt) :
    OutWf (execPageWalkDone die space vpn o s) := by
  unfold execPageWalkDone
  grind [outWf_next, State.storageError_wf, State.exchange_mem, State.tlbEnter_mem]

theorem execAccessPerformed_wf {s : State} (h : Memory.wf s.mem = true) (id : Nat) (o : Tried (List Nat)) :
    OutWf (execAccessPerformed id o s) := by
  unfold execAccessPerformed
  grind [outWf_next, State.engineAccess_wf, State.perform_wf]

theorem execAccessAcknowledgement_wf {s : State} (h : Memory.wf s.mem = true) (id : Nat) : OutWf (execAccessAcknowledgement id s) := by
  unfold execAccessAcknowledgement
  grind [outWf_next, State.acknowledge_mem]

theorem execSlotResolve_wf {s : State} (h : Memory.wf s.mem = true) (n : BitVec 5) (slot : BitVec 3) (f : BitVec 6) :
    OutWf (execSlotResolve n slot f s) := by
  unfold execSlotResolve
  grind [outWf_next, State.modSlot_mem, State.forgetUsers_mem, State.resolveSlot_wf]

theorem execTlbDrop_wf {s : State} (h : Memory.wf s.mem = true) (x : W64) : OutWf (execTlbDrop x s) := by
  unfold execTlbDrop
  dsimp only
  repeat' split
  all_goals exact h

theorem execTlbDropDone_wf {s : State} (h : Memory.wf s.mem = true) : OutWf (execTlbDropDone s) := by
  unfold execTlbDropDone
  grind [outWf_next, State.carryThose_wf]

theorem execFrameResume_wf {s : State} (h : Memory.wf s.mem = true) (space : BitVec 2) (index : BitVec 12) :
    OutWf (execFrameResume space index s) := by
  unfold execFrameResume
  grind [outWf_next, State.markFrame_wf, State.queueFrame_mem, State.logRecords_wf, State.discardFrame_wf]

theorem execFrameDiscard_wf {s : State} (h : Memory.wf s.mem = true) (space : BitVec 2) (index : BitVec 12) :
    OutWf (execFrameDiscard space index s) := by
  unfold execFrameDiscard
  grind [outWf_next, State.discardFrame_wf]

theorem execStopDrainEnd_wf {s : State} (h : Memory.wf s.mem = true) (n : BitVec 5) (slot : BitVec 3) : OutWf (execStopDrainEnd n slot s) := by
  unfold execStopDrainEnd
  grind [outWf_next, State.dropRest_wf, State.finishStop_wf]

theorem execStuck_wf {s : State} (h : Memory.wf s.mem = true) (n : BitVec 5) (slot : BitVec 3) : OutWf (execStuck n slot s) := by
  unfold execStuck
  grind [outWf_next, State.dropRest_wf, State.finishStop_wf, State.faultLaunch_wf, State.stopCtx_mem]

theorem execSaveDrainLimit_wf {s : State} (h : Memory.wf s.mem = true) (n : BitVec 5) (slot : BitVec 3) :
    OutWf (execSaveDrainLimit n slot s) := by
  unfold execSaveDrainLimit
  grind [outWf_next, State.stickCtx_wf]

theorem execFrameWrite_wf {s : State} (h : Memory.wf s.mem = true) (n : BitVec 5) (slot : BitVec 3) : OutWf (execFrameWrite n slot s) := by
  unfold execFrameWrite
  extract_lets m k
  split
  · exact h
  · split
    · split
      · exact h
      · refine outWf_ite h ?_
        split
        · rename_i t ht
          exact State.trapFrame_wf h _ _ _ _ _ t ht
        · exact State.stickCtx_wf h ..
    · exact h
    · split
      · refine outWf_ite ?_ ?_
        · simpa using h
        · simpa using h
      · refine outWf_ite ?_ h
        simpa using h
    · extract_lets queue
      have queued (die) : OutWf (.next (queue die)) := by
        simp only [queue, outWf_next]
        split
        · exact State.stickCtx_wf h ..
        · rename_i t ht
          rw [State.queueFrame_mem]
          exact State.saveFrame_wf h _ _ _ _ _ t ht
      split
      · refine outWf_ite (by simpa using h) (outWf_ite h ?_)
        split
        · rename_i t ht
          exact State.moveCtx_wf h _ _ _ _ _ _ t ht
        · exact State.stickCtx_wf h ..
      all_goals exact outWf_ite (queued _) h

theorem execContextForm_wf {s : State} (h : Memory.wf s.mem = true) (n : BitVec 5) : OutWf (execContextForm n s) := by
  unfold execContextForm
  grind [outWf_next, State.form_wf]

theorem execFrameRestore_wf {s : State} (h : Memory.wf s.mem = true) (n : BitVec 5) : OutWf (execFrameRestore n s) := by
  unfold execFrameRestore
  grind [outWf_next, State.form_wf]

theorem execBargeAging_wf {s : State} (h : Memory.wf s.mem = true) (launch push : Nat) : OutWf (execBargeAging launch push s) :=
  h

theorem execStealRequest_wf {s : State} (h : Memory.wf s.mem = true) (n : BitVec 5) : OutWf (execStealRequest n s) := by
  unfold execStealRequest
  dsimp only
  repeat' split
  all_goals exact h

theorem execStealAnswer_wf {s : State} (h : Memory.wf s.mem = true) (n : BitVec 5) : OutWf (execStealAnswer n s) := by
  unfold execStealAnswer
  grind [outWf_next, State.message_mem, State.setCluster_mem, State.traceLaunch_wf, State.modLaunch_mem]

theorem execHotspotMigration_wf {s : State} (h : Memory.wf s.mem = true) (n : BitVec 5) (slot : BitVec 3) :
    OutWf (execHotspotMigration n slot s) := by
  unfold execHotspotMigration
  dsimp only
  repeat' split
  all_goals simpa using h

theorem execPreemptionRequest_wf {s : State} (h : Memory.wf s.mem = true) (n : BitVec 5) : OutWf (execPreemptionRequest n s) := by
  unfold execPreemptionRequest
  dsimp only
  repeat' split
  all_goals simpa using h

theorem execDieGrant_wf {s : State} (h : Memory.wf s.mem = true) (launch : Nat) : OutWf (execDieGrant launch s) := by
  unfold execDieGrant
  split
  · exact h
  · refine outWf_ite h (State.traceLaunch_wf ?_ ..)
    rw [State.modLaunch_mem, foldl_mem _ (fun _ _ => State.message_mem ..)]
    exact h

theorem execGrantWaitCap_wf {s : State} (h : Memory.wf s.mem = true) (launch : Nat) : OutWf (execGrantWaitCap launch s) :=
  h

theorem execDieAddRequest_wf {s : State} (h : Memory.wf s.mem = true) (launch : Nat) : OutWf (execDieAddRequest launch s) := by
  unfold execDieAddRequest
  grind [outWf_next, State.requestChange_wf]

theorem execDieWithdrawRequest_wf {s : State} (h : Memory.wf s.mem = true) (launch : Nat) : OutWf (execDieWithdrawRequest launch s) := by
  unfold execDieWithdrawRequest
  grind [outWf_next, State.requestChange_wf]

theorem execCpringWrite_wf {s : State} (h : Memory.wf s.mem = true) (cp : BitVec 2) (x : W64) : OutWf (execCpringWrite cp x s) := by
  unfold execCpringWrite
  dsimp only
  repeat' split
  all_goals exact h

theorem execSqtailWrite_wf {s : State} (h : Memory.wf s.mem = true) (cp : BitVec 2) (x : W64) : OutWf (execSqtailWrite cp x s) :=
  h

theorem execCqheadWrite_wf {s : State} (h : Memory.wf s.mem = true) (cp : BitVec 2) (x : W64) : OutWf (execCqheadWrite cp x s) :=
  h

theorem execHaltRequest_wf {s : State} (h : Memory.wf s.mem = true) (cp : BitVec 2) : OutWf (execHaltRequest cp s) :=
  h

theorem execHaltResume_wf {s : State} (h : Memory.wf s.mem = true) (cp : BitVec 2) : OutWf (execHaltResume cp s) := by
  unfold execHaltResume
  grind [outWf_next, State.writeHalt_mem]

theorem execSubmissionExamine_wf {s : State} (h : Memory.wf s.mem = true) (cp : BitVec 2) : OutWf (execSubmissionExamine cp s) := by
  unfold execSubmissionExamine
  extract_lets c head pa e op acc bad cmd t u
  have hu : Memory.wf u.mem = true := h
  clear_value u bad op e
  exact outWf_ite h (outWf_ite h (outWf_ite h (outWf_ite (by rwa [outWf_next, State.complete_mem]) (outWf_ite hu hu))))

theorem execCompletionRecordPost_wf {s : State} (h : Memory.wf s.mem = true) (cp : BitVec 2) : OutWf (execCompletionRecordPost cp s) := by
  unfold execCompletionRecordPost
  grind [outWf_next, State.systemBytes_wf, State.setCp_mem, State.reap_mem]

theorem execFlush_wf {s : State} (h : Memory.wf s.mem = true) (cmd : Nat) : OutWf (execFlush cmd s) := by
  unfold execFlush
  split
  · exact h
  · refine outWf_ite h ?_
    rw [outWf_next, State.complete_mem]
    exact State.overLines_wf h _ (fun _ _ _ _ h => State.flushLine_wf h ..) _ _ _

theorem execInval_wf {s : State} (h : Memory.wf s.mem = true) (cmd : Nat) : OutWf (execInval cmd s) := by
  unfold execInval
  split
  · exact h
  · refine outWf_ite h ?_
    rw [outWf_next, State.complete_mem]
    exact State.overLines_wf h _ (fun _ _ _ _ h => State.invalLine_wf h ..) _ _ _

theorem execBind_wf {s : State} (h : Memory.wf s.mem = true) (cmd : Nat) : OutWf (execBind cmd s) := by
  unfold execBind
  dsimp only
  repeat' split
  all_goals simpa using h

theorem execUnbind_wf {s : State} (h : Memory.wf s.mem = true) (cmd : Nat) : OutWf (execUnbind cmd s) := by
  unfold execUnbind
  dsimp only
  repeat' split
  all_goals simpa using h

theorem execMark_wf {s : State} (h : Memory.wf s.mem = true) (cmd : Nat) : OutWf (execMark cmd s) := by
  unfold execMark
  grind [outWf_next, State.complete_mem]

theorem execAbort_wf {s : State} (h : Memory.wf s.mem = true) (cmd : Nat) : OutWf (execAbort cmd s) := by
  unfold execAbort
  grind [outWf_next, State.complete_mem, State.abortQueued_mem, State.abortEarly_wf]

theorem execLaunch_wf {s : State} (h : Memory.wf s.mem = true) (launch : Nat) (o : Attempt) : OutWf (execLaunch launch o s) := by
  have ends (n) : OutWf (.next (s.endUnadmitted launch n)) := by simpa using h
  unfold execLaunch
  split
  · refine outWf_ite h ?_
    split
    · exact ends _
    · refine outWf_ite (ends _) (outWf_ite h (outWf_ite (ends _) ?_))
      split
      · exact ends _
      · extract_lets r pa how t
        have ht : Memory.wf t.mem = true := State.storageError_wf h ..
        have ends (n) : OutWf (.next (t.endUnadmitted launch n)) := by simpa using ht
        clear_value t how
        split
        · exact ends _
        · exact ends _
        · refine outWf_ite (ends _) ?_
          split
          · exact ends _
          · refine outWf_ite (ends _) ?_
            split
            · rename_i u hu
              exact State.admitLaunch_wf ht _ _ _ _ u hu
            · exact ends _
  · exact h

theorem execCompletionPost_wf {s : State} (h : Memory.wf s.mem = true) (id : Nat) (o : Attempt) : OutWf (execCompletionPost id o s) := by
  unfold execCompletionPost
  grind [outWf_next, State.postTree_wf, State.exchange_mem, State.modLaunch_mem, State.message_mem]

theorem getD_wf {s : State} (h : Memory.wf s.mem = true) {o : Option State} (ho : ∀ t, o = some t → Memory.wf t.mem = true) :
    Memory.wf (o.getD s).mem = true := by
  cases o with
  | none => exact h
  | some t => exact ho t rfl

theorem execJobEnd_wf {s : State} (h : Memory.wf s.mem = true) (launch : Nat) : OutWf (execJobEnd launch s) := by
  unfold execJobEnd
  split
  · exact h
  · rename_i l _
    refine outWf_ite h ?_
    generalize l.outcome = p
    obtain ⟨state, status⟩ := p
    have hc := foldl_wf State.closeHandle (fun _ _ h => State.closeHandle_wf h _) l.writes h
    have hj := getD_wf hc (State.writeJcb_wf hc l.ring l.jcb (jcbWords l.expected l.doneN l.errs state l.seq))
    dsimp -zeta only
    extract_lets t u v w x y z
    have hv : Memory.wf v.mem = true := by
      simp only [v]
      rwa [foldl_mem _ (fun _ _ => State.sendCounts_mem ..)]
    have hy : Memory.wf y.mem = true := by
      simp only [y, State.modLaunch_mem]
      exact State.traceLaunch_wf (State.dumpCounters_wf hv ..) ..
    simpa only [outWf_next, State.reap_mem, State.complete_mem] using hy

theorem execCounterSend_wf {s : State} (h : Memory.wf s.mem = true) (n : BitVec 5) (slot : BitVec 3) : OutWf (execCounterSend n slot s) := by
  unfold execCounterSend
  grind [outWf_next, State.sendCounts_mem]

theorem execMakelive_wf {s : State} (h : Memory.wf s.mem = true) (x : W64) : OutWf (execMakelive x s) := by
  unfold execMakelive
  grind [outWf_next, State.modTaken_wf, State.modFailed_mem, State.setModule_mem, State.extendMeas_mem, State.traceModule_wf]

theorem execUnload_wf {s : State} (h : Memory.wf s.mem = true) (x : W64) : OutWf (execUnload x s) := by
  unfold execUnload
  grind [outWf_next, State.modTaken_wf, State.traceModule_wf, State.setModule_mem, State.modFailed_mem]

theorem execModulePurge_wf {s : State} (h : Memory.wf s.mem = true) (m : BitVec 12) : OutWf (execModulePurge m s) := by
  unfold execModulePurge
  grind [outWf_next, State.traceModule_wf, State.setModule_mem]

theorem execModuleFree_wf {s : State} (h : Memory.wf s.mem = true) (m : BitVec 12) : OutWf (execModuleFree m s) := by
  unfold execModuleFree
  grind [outWf_next, State.traceModule_wf]

theorem execFetchctlWrite_wf {s : State} (h : Memory.wf s.mem = true) (x : W64) : OutWf (execFetchctlWrite x s) := by
  unfold execFetchctlWrite
  dsimp only
  repeat' split
  all_goals exact h

theorem execTollcfgWrite_wf {s : State} (h : Memory.wf s.mem = true) (n : BitVec 5) (x : W64) : OutWf (execTollcfgWrite n x s) := by
  unfold execTollcfgWrite
  grind [outWf_next, State.setTollCfg_mem]

theorem execTollcostWrite_wf {s : State} (h : Memory.wf s.mem = true) (n : BitVec 5) (x : W64) : OutWf (execTollcostWrite n x s) := by
  unfold execTollcostWrite
  grind [outWf_next, State.setTollCost_mem]

theorem execRatioChange_wf {s : State} (h : Memory.wf s.mem = true) (n : BitVec 5) : OutWf (execRatioChange n s) := by
  unfold execRatioChange
  dsimp only
  repeat' split
  all_goals exact h

theorem execPowerctlWrite_wf {s : State} (h : Memory.wf s.mem = true) (x : W64) : OutWf (execPowerctlWrite x s) := by
  unfold execPowerctlWrite
  dsimp only
  repeat' split
  all_goals simpa using h

theorem execPowerInterval_wf {s : State} (h : Memory.wf s.mem = true) (watts : Nat) : OutWf (execPowerInterval watts s) := by
  unfold execPowerInterval
  refine outWf_ite h ?_
  dsimp only
  rw [outWf_next, foldl_mem _ (fun _ _ => State.setCluster_mem ..)]
  exact h

theorem execThrottleEnd_wf {s : State} (h : Memory.wf s.mem = true) (celsius : BitVec 8) : OutWf (execThrottleEnd celsius s) := by
  unfold execThrottleEnd
  dsimp only
  repeat' split
  all_goals exact h

theorem execThrottle_wf {s : State} (h : Memory.wf s.mem = true) (celsius : BitVec 8) : OutWf (execThrottle celsius s) := by
  unfold execThrottle
  grind [outWf_next, State.lost_wf]

theorem execThermalTrip_wf {s : State} (h : Memory.wf s.mem = true) (celsius : BitVec 8) : OutWf (execThermalTrip celsius s) := by
  unfold execThermalTrip
  grind [outWf_next, State.lost_wf]

theorem execCalibrationStart_wf {s : State} (h : Memory.wf s.mem = true) (n : BitVec 5) : OutWf (execCalibrationStart n s) := by
  unfold execCalibrationStart
  dsimp only
  repeat' split
  all_goals exact h

theorem execCalibrationStep_wf {s : State} (h : Memory.wf s.mem = true) (n : BitVec 5) (pass : Bool) : OutWf (execCalibrationStep n pass s) := by
  unfold execCalibrationStep
  grind [outWf_next, State.marginRecord_wf, State.setCluster_mem]

theorem execScrubLine_wf {s : State} (h : Memory.wf s.mem = true) (pa : BitVec 54) (inSlice : Bool) (o : Attempt) :
    OutWf (execScrubLine pa inSlice o s) := by
  unfold execScrubLine
  grind [outWf_next, State.errorRecord_wf, State.spoil_mem]

theorem execEnergyInterval_wf {s : State} (h : Memory.wf s.mem = true) (measured : Nat) : OutWf (execEnergyInterval measured s) := by
  unfold execEnergyInterval
  dsimp only
  repeat' split
  all_goals exact h

theorem execLinkFlitError_wf {s : State} (h : Memory.wf s.mem = true) (l : LinkName) (again : Bool) : OutWf (execLinkFlitError l again s) := by
  unfold execLinkFlitError
  grind [outWf_next, State.retrainPort_mem, State.errorRecord_wf]

theorem execWarmReset_wf {s : State} (h : Memory.wf s.mem = true) (die : BitVec 3) (x : W64) : OutWf (execWarmReset die x s) := by
  unfold execWarmReset
  grind [outWf_next, State.setDie_mem, State.startReset_wf]

theorem execResetStopLimit_wf {s : State} (h : Memory.wf s.mem = true) (die : BitVec 3) : OutWf (execResetStopLimit die s) := by
  refine outWf_ite h ?_
  rw [outWf_next, foldl_mem _ (fun _ _ => State.stopCtx_mem ..)]
  exact h

theorem execQuiesce_wf {s : State} (h : Memory.wf s.mem = true) (die : BitVec 3) : OutWf (execQuiesce die s) := by
  unfold execQuiesce
  grind [outWf_next, State.enterPhase_wf]

theorem execWriteback_wf {s : State} (h : Memory.wf s.mem = true) (die : BitVec 3) : OutWf (execWriteback die s) := by
  unfold execWriteback
  refine outWf_ite h ?_
  rw [outWf_next]
  exact foldl_wf _ (fun _ _ h => State.bayWriteBack_wf (State.loseLines_wf h ..) ..) _ (State.enterPhase_wf h ..)

theorem execIsolate_wf {s : State} (h : Memory.wf s.mem = true) (die : BitVec 3) : OutWf (execIsolate die s) := by
  unfold execIsolate
  grind [outWf_next, State.enterPhase_wf]

theorem execRetrain_wf {s : State} (h : Memory.wf s.mem = true) (die : BitVec 3) (ok : Bool) : OutWf (execRetrain die ok s) := by
  unfold execRetrain
  grind [outWf_next, State.enterPhase_wf, State.resetFailed_mem]

theorem execTest_wf {s : State} (h : Memory.wf s.mem = true) (die : BitVec 3) (failed : BitVec 4) : OutWf (execTest die failed s) := by
  unfold execTest
  extract_lets d clusters u v
  have hu : Memory.wf u.mem = true := by
    simp only [u]
    rw [foldl_mem _ (fun _ _ => State.setCluster_mem ..)]
    exact State.enterPhase_wf h ..
  refine outWf_ite h (outWf_ite hu ?_)
  rw [outWf_next, State.resetFailed_mem]
  exact foldl_wf _ (fun _ _ h => by rw [State.setCluster_mem]; exact State.marginRecord_wf h ..) _ hu

theorem execReadmit_wf {s : State} (h : Memory.wf s.mem = true) (die : BitVec 3) : OutWf (execReadmit die s) := by
  unfold execReadmit
  grind [outWf_next, State.enterPhase_wf, State.setDie_mem]

theorem execLinkFailure_wf {s : State} (h : Memory.wf s.mem = true) (l : LinkName) : OutWf (execLinkFailure l s) := by
  unfold execLinkFailure
  grind [outWf_next, State.cutLink_mem, State.errorRecord_wf, State.startReset_wf, State.retrainPort_mem]

theorem execHostLinkDown_wf {s : State} (h : Memory.wf s.mem = true) : OutWf (execHostLinkDown s) :=
  h

theorem execHostLinkUp_wf {s : State} (h : Memory.wf s.mem = true) : OutWf (execHostLinkUp s) :=
  h

theorem execFinzuRetrain_wf {s : State} (h : Memory.wf s.mem = true) (x : W64) : OutWf (execFinzuRetrain x s) := by
  unfold execFinzuRetrain
  rw [outWf_next, foldl_mem _ (fun _ _ => State.retrainPort_mem ..)]
  exact h

theorem execFinzuPortTrained_wf {s : State} (h : Memory.wf s.mem = true) (port : BitVec 4) (remote : W32) (ok : Bool) :
    OutWf (execFinzuPortTrained port remote ok s) := by
  unfold execFinzuPortTrained
  dsimp only
  repeat' split
  all_goals exact h

theorem execPeerRequest_wf {s : State} (h : Memory.wf s.mem = true) (peer : BitVec 12) (port : BitVec 4) (r : OutsideAccess) :
    OutWf (execPeerRequest peer port r s) := by
  refine outWf_ite h ?_
  split
  · exact foldl_wf _ (fun _ _ h => State.l2Clean_wf h _) _ h
  · exact State.systemBytes_wf (by rwa [State.noteCode_mem]) ..
  · rw [outWf_next]
    split
    · rw [State.joinsAt_mem]
      exact State.atomicAt_wf (by rwa [State.noteCode_mem]) ..
    · exact h

theorem execHostFlagWindowAccess_wf {s : State} (h : Memory.wf s.mem = true) (r : OutsideAccess) : OutWf (execHostFlagWindowAccess r s) := by
  unfold execHostFlagWindowAccess
  grind [outWf_next, State.deviceBytes_wf]

theorem execHostApertureAccess_wf {s : State} (h : Memory.wf s.mem = true) (r : OutsideAccess) (o : Attempt) :
    OutWf (execHostApertureAccess r o s) := by
  unfold execHostApertureAccess
  extract_lets pa read at_ n how u
  refine outWf_ite h ?_
  have hu : Memory.wf u.mem = true := State.storageError_wf h ..
  clear_value u how
  split
  · exact hu
  · exact hu
  · split
    · exact foldl_wf _ (fun _ _ h => State.l2Fill_wf h ..) _ hu
    · exact State.deviceBytes_wf (by rwa [State.noteCode_mem]) ..
    · exact hu

theorem execPowerOn_wf {s : State} (h : Memory.wf s.mem = true) : OutWf (execPowerOn s) := by
  unfold execPowerOn
  grind [outWf_next, State.lost_wf]

theorem execPowerOff_wf {s : State} (h : Memory.wf s.mem = true) : OutWf (execPowerOff s) := by
  unfold execPowerOff
  grind [outWf_next, State.lost_wf]

theorem execFirmwareCheck_wf {s : State} (h : Memory.wf s.mem = true) (x : W64) : OutWf (execFirmwareCheck x s) :=
  h

theorem execFirmwareCheckDone_wf {s : State} (h : Memory.wf s.mem = true) : OutWf (execFirmwareCheckDone s) := by
  unfold execFirmwareCheckDone
  extract_lets i resume
  refine outWf_ite h ?_
  obtain ⟨pa, x⟩ := s.imageName
  dsimp -zeta only
  extract_lets t u
  have ht : t.mem = s.mem := rfl
  have hu : u.mem = s.mem := by
    simp only [u]
    split
    · exact ht
    · rw [State.extendMeas_mem, State.extendMeas_mem, ht]
  have hresume (v : State) (p : Nat) : (resume v p).mem = v.mem := by
    simp only [resume]
    split
    · rfl
    · exact State.writeHalt_mem ..
  refine outWf_ite ?_ ?_
  · rw [outWf_next, foldl_mem _ (fun _ _ => State.setCp_mem ..)]
    exact h
  · rw [outWf_next, foldl_mem _ hresume, State.mem_ite, State.usbouloWrites_mem, ite_self, hu]
    exact h

theorem execIdbootWrite_wf {s : State} (h : Memory.wf s.mem = true) (x : W64) : OutWf (execIdbootWrite x s) := by
  unfold execIdbootWrite
  dsimp only
  repeat' split
  all_goals exact h

theorem execAttestationRequest_wf {s : State} (h : Memory.wf s.mem = true) (x : W64) : OutWf (execAttestationRequest x s) :=
  h

theorem execAttestationReportDone_wf {s : State} (h : Memory.wf s.mem = true) : OutWf (execAttestationReportDone s) := by
  refine outWf_ite h (outWf_ite h (outWf_ite h (outWf_ite h ?_)))
  rw [outWf_next, State.setIdent_mem]
  exact State.systemBytes_wf h ..

theorem execGovctlWrite_wf {s : State} (h : Memory.wf s.mem = true) (x : W64) : OutWf (execGovctlWrite x s) := by
  unfold execGovctlWrite
  dsimp only
  repeat' split
  all_goals exact h

theorem execLaunchQuery_wf {s : State} (h : Memory.wf s.mem = true) (x : W64) : OutWf (execLaunchQuery x s) :=
  h

theorem execXlrootWrite_wf {s : State} (h : Memory.wf s.mem = true) (space : BitVec 2) (x : W64) : OutWf (execXlrootWrite space x s) := by
  unfold execXlrootWrite
  dsimp only
  repeat' split
  all_goals exact h

theorem execFrameloWrite_wf {s : State} (h : Memory.wf s.mem = true) (space : BitVec 2) (x : W64) : OutWf (execFrameloWrite space x s) := by
  unfold execFrameloWrite
  dsimp only
  repeat' split
  all_goals exact h

theorem execFramehiWrite_wf {s : State} (h : Memory.wf s.mem = true) (space : BitVec 2) (x : W64) : OutWf (execFramehiWrite space x s) := by
  unfold execFramehiWrite
  dsimp only
  repeat' split
  all_goals exact h

theorem execCounterQuery_wf {s : State} (h : Memory.wf s.mem = true) (space : BitVec 2) (x : W64) : OutWf (execCounterQuery space x s) :=
  h

theorem execCtrdumpWrite_wf {s : State} (h : Memory.wf s.mem = true) (space : BitVec 2) (x : W64) : OutWf (execCtrdumpWrite space x s) := by
  unfold execCtrdumpWrite
  dsimp only
  repeat' split
  all_goals exact h

theorem execTrloWrite_wf {s : State} (h : Memory.wf s.mem = true) (space : BitVec 2) (x : W64) : OutWf (execTrloWrite space x s) := by
  unfold execTrloWrite
  dsimp only
  repeat' split
  all_goals exact h

theorem execTrhiWrite_wf {s : State} (h : Memory.wf s.mem = true) (space : BitVec 2) (x : W64) : OutWf (execTrhiWrite space x s) :=
  h

theorem execRegisterWrite_wf {s : State} (h : Memory.wf s.mem = true) (offset : BitVec 16) (x : W64) : OutWf (execRegisterWrite offset x s) := by
  unfold execRegisterWrite
  grind [outWf_next, State.writePlain_mem]

end Sys2Proof.Machine
end

section
/-! PROOFS. Fetches, turns and steps keep memory in its one form (O59). -/

namespace Sys2Proof.Machine
open Sys2Proof

theorem State.loadImage_wf {s : State} (h : Memory.wf s.mem = true) (m pa dataPa : Nat) (dataVa : W72) (bs : List Byte) :
    Memory.wf (s.loadImage m pa dataPa dataVa bs).mem = true := by
  unfold State.loadImage
  split
  · exact h
  · dsimp only
    split
    · exact h
    · exact State.deviceBytes_wf (State.deviceBytes_wf h ..) ..

/-- What a fetch leaves, or hands to the instruction that it found, has memory in its one form. -/
def FetchedWf : Fetched → Prop
  | .run _ s => Memory.wf s.mem = true
  | .done s => Memory.wf s.mem = true

theorem fetchedWf_ite {c : Prop} [Decidable c] {a b : Fetched} (ha : FetchedWf a) (hb : FetchedWf b) : FetchedWf (if c then a else b) := by
  split
  · exact ha
  · exact hb

theorem State.fetchGen_wf {s : State} (h : Memory.wf s.mem = true) (n : Nat) : FetchedWf (s.fetchGen n) := by
  unfold State.fetchGen
  split
  · exact h
  · refine fetchedWf_ite h ?_
    extract_lets focus t have_ w0 size total fits u
    have ht : Memory.wf t.mem = true := h
    have hh (k v) (hv : have_ t k = some v) : Memory.wf v.mem = true := by
      simp only [have_] at hv
      split at hv
      · cases hv
      · cases hv
        rwa [State.setCluster_mem, State.demand_mem]
    have hu : Memory.wf u.mem = true := by
      simp only [u]
      rwa [foldl_mem _ (fun _ _ => State.enterLine_mem ..)]
    have traps (v : State) (slot c cls) (hv : Memory.wf v.mem = true) : FetchedWf (.done (v.fetchTrap n slot c cls)) := by
      simpa only [FetchedWf, State.fetchTrap_mem] using hv
    clear_value t u have_
    refine fetchedWf_ite (traps _ _ _ _ ht) ?_
    split
    · exact hh _ _ ‹_›
    · split
      · exact hh _ _ ‹_›
      · split
        · exact fetchedWf_ite hu (traps _ _ _ _ hu)
        · exact traps _ _ _ _ hu
        · exact traps _ _ _ _ hu

theorem State.fetchCore_wf {s : State} (h : Memory.wf s.mem = true) (could : Trial) (n k : Nat) : FetchedWf (s.fetchCore could n k) := by
  unfold State.fetchCore
  split
  · exact h
  · split
    · refine fetchedWf_ite h ?_
      extract_lets why
      refine fetchedWf_ite (by simpa only [FetchedWf, State.waitCore_mem] using h) ?_
      have hw := State.withheld_wf h could n ‹Core›.slot
      split
      all_goals
        rename_i e
        rw [e] at hw
      · simpa only [FetchedWf, State.waitCore_mem] using hw
      · extract_lets t
        split
        · exact hw
        · simpa only [FetchedWf, State.laneFault_mem] using hw
    · exact h

theorem exec_wf {s : State} (h : Memory.wf s.mem = true) (i : Instr) : OutWf (exec i s) := by
  cases i
  case addRegister | subRegister | mulRegister | mulhRegister | divRegister | remRegister | andRegister | orRegister | xorRegister | minRegister |
      maxRegister =>
    exact regForm_wf h ..
  case addLiteral | subLiteral | mulLiteral | mulhLiteral | divLiteral | remLiteral | andLiteral | orLiteral | xorLiteral | minLiteral |
      maxLiteral =>
    exact litForm_wf h ..
  case shlRegister | shrRegister =>
    exact shiftReg_wf h ..
  case shlLiteral | shrLiteral =>
    exact shiftLit_wf h ..
  case fwaitAny | fwaitAll | fwaitFfr =>
    exact State.fwait_wf h ..
  case fsetRes | fsetCan =>
    exact State.fset_wf h ..
  case spawn | spawnMask | spawnRoot =>
    exact State.spawn_wf h ..
  case flAcq | flWait =>
    exact State.takeChamber_wf h ..
  case affAdd | affSub | affMul | affShl | affMk | affStr | promQa =>
    exact State.affWord_wf h ..
  case iadd | isub | imul | imulh | imad | idiv | irem | imin | imax | iabs | laneAnd | laneOr | laneXor | laneShl | laneShr | laneClz | lanePopc
      | bfx | bfi =>
    exact State.intWord_wf h ..
  case fabs | fneg | fsgn =>
    exact State.floatWord_wf h ..
  case mAnd | mOr | mXor | mNot | mFromq =>
    exact State.maskWord_wf h ..
  case ldSp | stSp | ldWin | stWin =>
    exact State.scratchWord_wf h ..
  case laneAtom | laneCas =>
    exact State.atomWord_wf h ..
  case ldcp | stcp =>
    exact State.copyWord_wf h ..
  case sgath | sscat | hist =>
    exact State.indexedWord_wf h ..
  case cmpRegister => exact execCmpRegister_wf h ..
  case cmpLiteral => exact execCmpLiteral_wf h ..
  case movRegister => exact execMovRegister_wf h ..
  case movLiteral => exact execMovLiteral_wf h ..
  case clz => exact execClz_wf h ..
  case popc => exact execPopc_wf h ..
  case sel => exact execSel_wf h ..
  case kop => exact execKop_wf h ..
  case ext => exact execExt_wf h ..
  case lea => exact execLea_wf h ..
  case adr => exact execAdr_wf h ..
  case br => exact execBr_wf h ..
  case brr => exact execBrr_wf h ..
  case call => exact execCall_wf h ..
  case callr => exact execCallr_wf h ..
  case loop => exact execLoop_wf h ..
  case ipf => exact execIpf_wf h ..
  case ipfr => exact execIpfr_wf h ..
  case sysrd => exact execSysrd_wf h ..
  case syswr => exact execSyswr_wf h ..
  case yield => exact execYield_wf h ..
  case step => exact execStep_wf h ..
  case taskend => exact execTaskend_wf h ..
  case trap => exact execTrap_wf h ..
  case nop => exact execNop_wf h ..
  case emit => exact execEmit_wf h ..
  case emitM => exact execEmitM_wf h ..
  case captBegin => exact execCaptBegin_wf h ..
  case captEnd => exact execCaptEnd_wf h ..
  case captDrop => exact execCaptDrop_wf h ..
  case captLoad => exact execCaptLoad_wf h ..
  case replay => exact execReplay_wf h ..
  case replayM => exact execReplayM_wf h ..
  case hset => exact execHset_wf h ..
  case vrd => exact execVrd_wf h ..
  case vtest => exact execVtest_wf h ..
  case swait => exact execSwait_wf h ..
  case srd => exact execSrd_wf h ..
  case portOperationStart => exact execPortOperationStart_wf h ..
  case portWordWrite => exact execPortWordWrite_wf h ..
  case replayReadback => exact execReplayReadback_wf h ..
  case voteReady => exact execVoteReady_wf h ..
  case ld => exact execLd_wf h ..
  case st => exact execSt_wf h ..
  case atom => exact execAtom_wf h ..
  case cas => exact execCas_wf h ..
  case ftest => exact execFtest_wf h ..
  case ftestAddr => exact execFtestAddr_wf h ..
  case fcancel => exact execFcancel_wf h ..
  case fstore => exact execFstore_wf h ..
  case fload => exact execFload_wf h ..
  case freg => exact execFreg_wf h ..
  case fsetInit => exact execFsetInit_wf h ..
  case jraise => exact execJraise_wf h ..
  case bquery => exact execBquery_wf h ..
  case flInit => exact execFlInit_wf h ..
  case flCommit => exact execFlCommit_wf h ..
  case flCommitF => exact execFlCommitF_wf h ..
  case flRel => exact execFlRel_wf h ..
  case flRelF => exact execFlRelF_wf h ..
  case barCl => exact execBarCl_wf h ..
  case barDie => exact execBarDie_wf h ..
  case barrierRelease => exact execBarrierRelease_wf h ..
  case mon => exact execMon_wf h ..
  case mwait => exact execMwait_wf h ..
  case mwaitLimit => exact execMwaitLimit_wf h ..
  case wpSet => exact execWpSet_wf h ..
  case wpClr => exact execWpClr_wf h ..
  case contextUnblock => exact execContextUnblock_wf h ..
  case contextPick => exact execContextPick_wf h ..
  case watchdog => exact execWatchdog_wf h ..
  case promQv => exact execPromQv_wf h ..
  case promAv => exact execPromAv_wf h ..
  case xtr => exact execXtr_wf h ..
  case icmp => exact execIcmp_wf h ..
  case laneSel => exact execLaneSel_wf h ..
  case laneMov => exact execLaneMov_wf h ..
  case fadd => exact execFadd_wf h ..
  case fsub => exact execFsub_wf h ..
  case fmul => exact execFmul_wf h ..
  case fma => exact execFma_wf h ..
  case fnma => exact execFnma_wf h ..
  case fdiv => exact execFdiv_wf h ..
  case fsqrt => exact execFsqrt_wf h ..
  case fmin => exact execFmin_wf h ..
  case fmax => exact execFmax_wf h ..
  case fcmp => exact execFcmp_wf h ..
  case fclass => exact execFclass_wf h ..
  case frnd => exact execFrnd_wf h ..
  case fscale => exact execFscale_wf h ..
  case fgetexp => exact execFgetexp_wf h ..
  case frcp => exact execFrcp_wf h ..
  case frsq => exact execFrsq_wf h ..
  case fexp2 => exact execFexp2_wf h ..
  case flog2 => exact execFlog2_wf h ..
  case fsin => exact execFsin_wf h ..
  case fcos => exact execFcos_wf h ..
  case ftanh => exact execFtanh_wf h ..
  case fsigm => exact execFsigm_wf h ..
  case ferf => exact execFerf_wf h ..
  case cvt => exact execCvt_wf h ..
  case cvtBlk => exact execCvtBlk_wf h ..
  case bscale => exact execBscale_wf h ..
  case planePk => exact execPlanePk_wf h ..
  case planeUp => exact execPlaneUp_wf h ..
  case shfl => exact execShfl_wf h ..
  case shflRot => exact execShflRot_wf h ..
  case shflXor => exact execShflXor_wf h ..
  case bcast => exact execBcast_wf h ..
  case redAdd => exact execRedAdd_wf h ..
  case redMin => exact execRedMin_wf h ..
  case redMax => exact execRedMax_wf h ..
  case redAnd => exact execRedAnd_wf h ..
  case redOr => exact execRedOr_wf h ..
  case scanAdd => exact execScanAdd_wf h ..
  case scanMax => exact execScanMax_wf h ..
  case isect => exact execIsect_wf h ..
  case compact => exact execCompact_wf h ..
  case expand => exact execExpand_wf h ..
  case mToq => exact execMToq_wf h ..
  case lexit => exact execLexit_wf h ..
  case vote => exact execVote_wf h ..
  case laneLd => exact execLaneLd_wf h ..
  case laneSt => exact execLaneSt_wf h ..
  case pref => exact execPref_wf h ..
  case copy => exact execCopy_wf h ..
  case gather => exact execGather_wf h ..
  case scatter => exact execScatter_wf h ..
  case spmm => exact execSpmm_wf h ..
  case mergeU => exact execMergeU_wf h ..
  case mergeI => exact execMergeI_wf h ..
  case clBcast => exact execClBcast_wf h ..
  case clReduce => exact execClReduce_wf h ..
  case clAllred => exact execClAllred_wf h ..
  case clGather => exact execClGather_wf h ..
  case clScatter => exact execClScatter_wf h ..
  case clA2a => exact execClA2a_wf h ..
  case wback => exact execWback_wf h ..
  case dropr => exact execDropr_wf h ..
  case fill => exact execFill_wf h ..
  case engineCommandStart => exact execEngineCommandStart_wf h ..
  case mma => exact execMma_wf h ..
  case mmaAccept => exact execMmaAccept_wf h ..
  case mmaStep => exact execMmaStep_wf h ..
  case accRd => exact execAccRd_wf h ..
  case accWr => exact execAccWr_wf h ..
  case accClr => exact execAccClr_wf h ..
  case tollRefill => exact execTollRefill_wf h ..
  case codeFillArrival => exact execCodeFillArrival_wf h ..
  case pageWalkDone => exact execPageWalkDone_wf h ..
  case accessPerformed => exact execAccessPerformed_wf h ..
  case accessAcknowledgement => exact execAccessAcknowledgement_wf h ..
  case slotResolve => exact execSlotResolve_wf h ..
  case tlbDrop => exact execTlbDrop_wf h ..
  case tlbDropDone => exact execTlbDropDone_wf h ..
  case frameResume => exact execFrameResume_wf h ..
  case frameDiscard => exact execFrameDiscard_wf h ..
  case stopDrainEnd => exact execStopDrainEnd_wf h ..
  case stuck => exact execStuck_wf h ..
  case saveDrainLimit => exact execSaveDrainLimit_wf h ..
  case frameWrite => exact execFrameWrite_wf h ..
  case contextForm => exact execContextForm_wf h ..
  case frameRestore => exact execFrameRestore_wf h ..
  case bargeAging => exact execBargeAging_wf h ..
  case stealRequest => exact execStealRequest_wf h ..
  case stealAnswer => exact execStealAnswer_wf h ..
  case hotspotMigration => exact execHotspotMigration_wf h ..
  case preemptionRequest => exact execPreemptionRequest_wf h ..
  case dieGrant => exact execDieGrant_wf h ..
  case grantWaitCap => exact execGrantWaitCap_wf h ..
  case dieAddRequest => exact execDieAddRequest_wf h ..
  case dieWithdrawRequest => exact execDieWithdrawRequest_wf h ..
  case cpringWrite => exact execCpringWrite_wf h ..
  case sqtailWrite => exact execSqtailWrite_wf h ..
  case cqheadWrite => exact execCqheadWrite_wf h ..
  case haltRequest => exact execHaltRequest_wf h ..
  case haltResume => exact execHaltResume_wf h ..
  case submissionExamine => exact execSubmissionExamine_wf h ..
  case completionRecordPost => exact execCompletionRecordPost_wf h ..
  case flush => exact execFlush_wf h ..
  case inval => exact execInval_wf h ..
  case bind => exact execBind_wf h ..
  case unbind => exact execUnbind_wf h ..
  case mark => exact execMark_wf h ..
  case abort => exact execAbort_wf h ..
  case launch => exact execLaunch_wf h ..
  case completionPost => exact execCompletionPost_wf h ..
  case jobEnd => exact execJobEnd_wf h ..
  case counterSend => exact execCounterSend_wf h ..
  case makelive => exact execMakelive_wf h ..
  case unload => exact execUnload_wf h ..
  case modulePurge => exact execModulePurge_wf h ..
  case moduleFree => exact execModuleFree_wf h ..
  case fetchctlWrite => exact execFetchctlWrite_wf h ..
  case tollcfgWrite => exact execTollcfgWrite_wf h ..
  case tollcostWrite => exact execTollcostWrite_wf h ..
  case ratioChange => exact execRatioChange_wf h ..
  case powerctlWrite => exact execPowerctlWrite_wf h ..
  case powerInterval => exact execPowerInterval_wf h ..
  case throttleEnd => exact execThrottleEnd_wf h ..
  case throttle => exact execThrottle_wf h ..
  case thermalTrip => exact execThermalTrip_wf h ..
  case calibrationStart => exact execCalibrationStart_wf h ..
  case calibrationStep => exact execCalibrationStep_wf h ..
  case scrubLine => exact execScrubLine_wf h ..
  case energyInterval => exact execEnergyInterval_wf h ..
  case linkFlitError => exact execLinkFlitError_wf h ..
  case warmReset => exact execWarmReset_wf h ..
  case resetStopLimit => exact execResetStopLimit_wf h ..
  case quiesce => exact execQuiesce_wf h ..
  case writeback => exact execWriteback_wf h ..
  case isolate => exact execIsolate_wf h ..
  case retrain => exact execRetrain_wf h ..
  case test => exact execTest_wf h ..
  case readmit => exact execReadmit_wf h ..
  case linkFailure => exact execLinkFailure_wf h ..
  case hostLinkDown => exact execHostLinkDown_wf h ..
  case hostLinkUp => exact execHostLinkUp_wf h ..
  case finzuRetrain => exact execFinzuRetrain_wf h ..
  case finzuPortTrained => exact execFinzuPortTrained_wf h ..
  case peerRequest => exact execPeerRequest_wf h ..
  case hostFlagWindowAccess => exact execHostFlagWindowAccess_wf h ..
  case hostApertureAccess => exact execHostApertureAccess_wf h ..
  case powerOn => exact execPowerOn_wf h ..
  case powerOff => exact execPowerOff_wf h ..
  case firmwareCheck => exact execFirmwareCheck_wf h ..
  case firmwareCheckDone => exact execFirmwareCheckDone_wf h ..
  case idbootWrite => exact execIdbootWrite_wf h ..
  case attestationRequest => exact execAttestationRequest_wf h ..
  case attestationReportDone => exact execAttestationReportDone_wf h ..
  case govctlWrite => exact execGovctlWrite_wf h ..
  case launchQuery => exact execLaunchQuery_wf h ..
  case xlrootWrite => exact execXlrootWrite_wf h ..
  case frameloWrite => exact execFrameloWrite_wf h ..
  case framehiWrite => exact execFramehiWrite_wf h ..
  case counterQuery => exact execCounterQuery_wf h ..
  case ctrdumpWrite => exact execCtrdumpWrite_wf h ..
  case trloWrite => exact execTrloWrite_wf h ..
  case trhiWrite => exact execTrhiWrite_wf h ..
  case registerWrite => exact execRegisterWrite_wf h ..

theorem Fetched.run_wf {f : Fetched} (h : FetchedWf f) : OutWf f.run_ := by
  cases f with
  | run i s => exact exec_wf h i
  | done s => exact h

theorem State.runAct_wf {s : State} (h : Memory.wf s.mem = true) (a : Act) : OutWf (s.runAct a) := by
  unfold State.runAct
  refine outWf_ite h ?_
  cases a with
  | gen n => exact Fetched.run_wf (State.fetchGen_wf h _)
  | core n k => exact Fetched.run_wf (State.fetchCore_wf h ..)
  | event i => exact outWf_ite (exec_wf h i) h
  | image m pa dataPa dataVa bytes => exact State.loadImage_wf h ..
  | outsideStore pa data => exact State.outsideStore_wf h ..
  | codeError n line => exact State.codeLost_wf h ..

theorem step_wf {s : State} (h : Memory.wf s.mem = true) : OutWf (step s) := by
  unfold step State.turn
  split
  · exact h
  · rename_i t rest _
    exact State.runAct_wf (s := { s with now := s.now + t.elapse, agenda := rest }) h t.act

/-- Settles O59: each operation of the model either leaves memory as it is or writes it in its one form, and every instruction, event
and fetch is made of these. -/
theorem memoryStaysCanonical : Obligations.MemoryStaysCanonical := by
  unfold Obligations.MemoryStaysCanonical
  intro s t hs ht
  have hw := step_wf hs
  rwa [ht, outWf_next] at hw

end Sys2Proof.Machine
end

section
/-! PROOFS. What the operand forms supply (O25). -/

namespace Sys2Proof.Machine
open Sys2Proof.Safety

theorem Fmt.wide_iff (f : Fmt) : Fmt.wide f = true ↔ Fmt.width f = 64 := by
  cases f <;> decide

theorem Fmt.isSigned_eq (f : Fmt) : Fmt.isSigned f = isSignedFmt f := by
  cases f <;> rfl

theorem Core.data_varying (x : Core) (f : Fmt) (r : BitVec 8) (l : Nat) : x.data f (.v r) l = held x f r.toNat l % 2 ^ Fmt.width f := by
  unfold Core.data held
  simp only [Fmt.wide_iff, Core.pairv]

theorem wrap_eq_ofInt (w : Nat) (i : Int) : wrap w i = (BitVec.ofInt w i).toNat := by
  rw [BitVec.toNat_ofInt]
  norm_num [wrap]

theorem Core.data_affine (x : Core) (f : Fmt) (r : BitVec 4) (l : Nat) : x.data f (.a r) l =
    (BitVec.ofInt 64 ((x.areg r).base.toNat + (16 * x.j + l : Nat) * (x.areg r).stride.toInt)).toNat % 2 ^ Fmt.width f := by
  rw [← wrap_eq_ofInt]
  rfl

theorem Core.int_eq (x : Core) (f : Fmt) (o : Opd) (l : Nat) :
    x.int f o l = if isSignedFmt f then signed (Fmt.width f) (x.data f o l) else (x.data f o l : Int) := by
  rw [← Fmt.isSigned_eq]
  rfl

/-- A varying index is its register's 32 bits, whatever the width of the word's format. -/
theorem Core.index_varying (x : Core) (r : BitVec 8) (l : Nat) : x.index (.v r) l = x.vv r.toNat l :=
  Nat.mod_eq_of_lt (tgetD x.v (16 * r.toNat + l) 0).isLt

theorem Core.unif_uniform (x : Core) (f : Fmt) (r : BitVec 4) :
    x.unif f (.q r) = if isSignedFmt f then (x.qv r).toInt else ((x.qv r).toNat : Int) := by
  rw [← Fmt.isSigned_eq]
  rfl

/-- The opcode ranges of R203's table. -/
theorem laneSlice_ranges (op : Nat) : (0x001 ≤ op ∧ op ≤ 0x04E → laneSlice op = 1) ∧
    ((0x100 ≤ op ∧ op ≤ 0x110) ∨ (0x140 ≤ op ∧ op ≤ 0x144) → laneSlice op = 2) ∧ (0x120 ≤ op ∧ op ≤ 0x128 → laneSlice op = 3) ∧
    (op = 0x240 ∨ op = 0x241 → laneSlice op = 4) ∧ (0x200 ≤ op ∧ op ≤ 0x20F → laneSlice op = 5) := by
  unfold laneSlice
  refine ⟨?_, ?_, ?_, ?_, ?_⟩ <;> intro h <;> split_ifs <;> omega

/-- Settles O25: a clause for each operand form, each by what the form reads, then R203's table. -/
theorem operandsSupplyTheirValues : Obligations.OperandsSupplyTheirValues := by
  unfold Obligations.OperandsSupplyTheirValues
  intro x f l
  refine ⟨fun r => x.data_varying f r l, fun r => rfl, fun r => x.data_affine f r l, fun r => rfl, fun v => rfl, ⟨rfl, rfl⟩, fun o => x.int_eq f o l,
    fun r => x.index_varying r l, fun r => rfl, fun v => rfl, fun r => ⟨x.unif_uniform f r, rfl⟩, fun r => rfl, fun v => ⟨rfl, rfl⟩, laneSlice_ranges⟩

end Sys2Proof.Machine
end

section
/-! PROOFS. Where the management registers stand (R5), and what they read at power-on (O60). -/

namespace Sys2Proof.Machine

theorem blockOf_eq {base size n o : Nat} (ho : o < size) : blockOf base size (base + size * n + o) = (n, o) := by
  have hsub : base + size * n + o - base = o + size * n := by omega
  have hpos : 0 < size := by omega
  simp only [blockOf, hsub, Nat.add_mul_div_left _ _ hpos, Nat.add_mul_mod_self_left, Nat.div_eq_of_lt ho, Nat.mod_eq_of_lt ho, Nat.zero_add]

theorem State.readReg_toll (s : State) {off n o : Nat} (hoff : off = 0x400 + 0x20 * n + o) (hn : n < 32) (ho : o < 0x20) (h8 : o % 8 = 0) :
    s.readReg off = s.readToll n o := by
  simp (disch := omega) only [State.readReg, hoff, blockOf_eq, if_neg, if_pos]

theorem State.readReg_cp (s : State) {off n o : Nat} (hoff : off = 0x1000 + 0x100 * n + o) (hn : n < 4) (ho : o < 0x100) (h8 : o % 8 = 0) :
    s.readReg off = s.readCp n o := by
  simp (disch := omega) only [State.readReg, hoff, blockOf_eq, if_neg, if_pos]

theorem State.readReg_trap (s : State) {off n o : Nat} (hoff : off = 0x5000 + 0x40 * n + o) (hn : n < 4) (ho : o < 0x40) (h8 : o % 8 = 0) :
    s.readReg off = s.readTrap n o := by
  simp (disch := omega) only [State.readReg, hoff, blockOf_eq, if_neg, if_pos]

theorem State.readReg_reset (s : State) {off d o : Nat} (hoff : off = 0x6000 + 0x10 * d + o) (hd : d < 8) (ho : o < 0x10) (h8 : o % 8 = 0) :
    s.readReg off = s.readReset d o := by
  simp (disch := omega) only [State.readReg, hoff, blockOf_eq, if_neg, if_pos]

theorem State.readReg_ret (s : State) {off n o : Nat} (hoff : off = 0x7000 + 0x40 * n + o) (hn : n < 4) (ho : o < 0x40) (h8 : o % 8 = 0) :
    s.readReg off = s.readRet n o := by
  simp (disch := omega) only [State.readReg, hoff, blockOf_eq, if_neg, if_pos]

theorem State.readReg_effRank (s : State) {n : Nat} (hn : n < 32) : s.readReg (0x2100 + 8 * n) = BitVec.ofNat 64 (s.effRank n) := by
  have hix : (0x2100 + 8 * n - 0x2100) / 8 = n := by omega
  simp (disch := omega) only [State.readReg, hix, if_neg, if_pos]

theorem State.readReg_peer (s : State) {p : Nat} (hp : p < 4096) : s.readReg (0x8000 + 8 * p) = tgetD s.regs.peers p 0 := by
  have hix : (0x8000 + 8 * p - 0x8000) / 8 = p := by omega
  simp (disch := omega) only [State.readReg, hix, if_neg, if_pos]

/-- A cluster's voltage of twelve bits stands above its margin of eight, here 0. -/
theorem slice_voltage (v : BitVec 12) :
    slice (BitVec.ofNat 64 (v.toNat * 256 + 0)) 7 0 = 0 ∧ slice (BitVec.ofNat 64 (v.toNat * 256 + 0)) 63 20 = 0 := by
  have hv := v.isLt
  simp only [slice, bits, BitVec.toNat_ofNat]
  omega

theorem State.reset_cluster (n : Nat) : State.reset.cluster n = Cluster.reset n := rfl

theorem State.reset_die (d : Nat) : State.reset.die d = Die.reset := rfl

theorem State.reset_cp (n : Nat) : State.reset.cp n = Cp.reset := rfl

theorem State.reset_trap (n : Nat) : State.reset.trap n = TrapRegs.reset := rfl

theorem State.reset_ret (n : Nat) : State.reset.ret n = RetRegs.reset := rfl

theorem State.reset_framesFree (space : BitVec 2) : State.reset.framesFree space = 0 := by
  have hcount : State.reset.frameCount space = 0 := by simp [State.frameCount, State.reset_trap, TrapRegs.reset, slice, bits]
  rw [State.framesFree, hcount]
  rfl

theorem readReg_reset_toll {n : Nat} (hn : n < 32) :
    State.reset.readReg (0x400 + 0x20 * n) = 0x00100000FFFF0000 ∧ State.reset.readReg (0x408 + 0x20 * n) = 0x0000010101010101 ∧
    State.reset.readReg (0x410 + 0x20 * n) = 0 ∧ slice (State.reset.readReg (0x418 + 0x20 * n)) 7 0 = 0 ∧
    slice (State.reset.readReg (0x418 + 0x20 * n)) 63 20 = 0 := by
  rw [State.readReg_toll (o := 0) _ (by omega) hn (by omega) rfl, State.readReg_toll (o := 8) _ (by omega) hn (by omega) rfl,
    State.readReg_toll (o := 0x10) _ (by omega) hn (by omega) rfl, State.readReg_toll (o := 0x18) _ (by omega) hn (by omega) rfl]
  exact ⟨rfl, rfl, by simp [State.readToll, State.reset_cluster, Cluster.reset, wrap], slice_voltage _⟩

theorem readReg_reset_cp {n : Nat} (hn : n < 4) :
    State.reset.readReg (0x1000 + 0x100 * n) = 0x0660000000000000 ∧ State.reset.readReg (0x1008 + 0x100 * n) = 0 ∧
    State.reset.readReg (0x1010 + 0x100 * n) = 0 ∧ State.reset.readReg (0x1018 + 0x100 * n) = 1 ∧
    State.reset.readReg (0x1020 + 0x100 * n) = 0 ∧ State.reset.readReg (0x1028 + 0x100 * n) = 3 := by
  rw [State.readReg_cp (o := 0) _ (by omega) hn (by omega) rfl, State.readReg_cp (o := 8) _ (by omega) hn (by omega) rfl,
    State.readReg_cp (o := 0x10) _ (by omega) hn (by omega) rfl, State.readReg_cp (o := 0x18) _ (by omega) hn (by omega) rfl,
    State.readReg_cp (o := 0x20) _ (by omega) hn (by omega) rfl, State.readReg_cp (o := 0x28) _ (by omega) hn (by omega) rfl]
  simp [State.readCp, State.reset_cp, Cp.reset, boolNat]

theorem reset_readTrap (n : Nat) : ∀ k < 8, State.reset.readTrap n (8 * k) = if k = 4 then 0x60000000 else 0 := by
  intro k hk
  interval_cases k <;> simp [State.readTrap, State.reset_trap, TrapRegs.reset, State.reset_framesFree]

theorem reset_readRet (n : Nat) : ∀ k < 8, State.reset.readRet n (8 * k) = if k = 0 then 0x20000000 else if k = 3 then 0xA000000000 else 0 := by
  intro k hk
  interval_cases k <;> rfl

theorem readReg_reset_trap {n : Nat} (hn : n < 4) :
    (∀ k < 8, k ≠ 4 → State.reset.readReg (0x5000 + 0x40 * n + 8 * k) = 0) ∧ State.reset.readReg (0x5020 + 0x40 * n) = 0x60000000 := by
  refine ⟨fun k hk h4 => ?_, ?_⟩
  · rw [State.readReg_trap _ rfl hn (by omega) (by omega), reset_readTrap n k hk, if_neg h4]
  · rw [State.readReg_trap (o := 8 * 4) _ (by omega) hn (by omega) rfl, reset_readTrap n 4 (by omega), if_pos rfl]

theorem readReg_reset_reset {d : Nat} (hd : d < 8) : State.reset.readReg (0x6000 + 0x10 * d) = 8 ∧ State.reset.readReg (0x6008 + 0x10 * d) = 0 := by
  rw [State.readReg_reset (o := 0) _ (by omega) hd (by omega) rfl, State.readReg_reset (o := 8) _ (by omega) hd (by omega) rfl]
  simp [State.readReset, State.reset_die, Die.reset, boolNat]

theorem readReg_reset_ret {n : Nat} (hn : n < 4) :
    State.reset.readReg (0x7000 + 0x40 * n) = 0x20000000 ∧ State.reset.readReg (0x7018 + 0x40 * n) = 0xA000000000 ∧
    ∀ k < 8, k ≠ 0 → k ≠ 3 → State.reset.readReg (0x7000 + 0x40 * n + 8 * k) = 0 := by
  refine ⟨?_, ?_, fun k hk h0 h3 => ?_⟩
  · exact State.readReg_ret (o := 0) _ rfl hn (by omega) rfl
  · rw [State.readReg_ret (o := 8 * 3) _ (by omega) hn (by omega) rfl, reset_readRet n 3 (by omega)]
    rfl
  · rw [State.readReg_ret _ rfl hn (by omega) (by omega), reset_readRet n k hk, if_neg h0, if_neg h3]

/-- Settles O60: each register's read at power-on, block by block. -/
theorem resetIsAsSpecified : Obligations.ResetIsAsSpecified := by
  unfold Obligations.ResetIsAsSpecified
  refine ⟨rfl, rfl, ⟨rfl, rfl, rfl, rfl, rfl, rfl, rfl⟩, by decide +kernel, fun n hn => ?_, rfl, rfl, rfl, rfl, rfl, fun n hn => readReg_reset_cp hn,
    rfl, rfl, rfl, rfl, fun n hn => State.readReg_effRank _ hn, by decide +kernel, rfl, by decide +kernel, fun n hn => readReg_reset_trap hn,
    fun d hd => readReg_reset_reset hd, fun n hn => readReg_reset_ret hn, rfl, rfl, by decide +kernel, by decide +kernel, fun p hp => State.readReg_peer _ hp⟩
  obtain ⟨hcfg, hcost, htoll, hmargin, hrest⟩ := readReg_reset_toll hn
  exact ⟨hcfg, hcost, htoll, hmargin, hrest, rfl, rfl⟩

end Sys2Proof.Machine
end

section
/-! PROOFS. What a record of an error leaves as it is (for O53 and O54). -/

namespace Sys2Proof.Machine
open Sys2Proof

/-- `t` differs from `s` at most in memory and its slices, and in what a write at a home sets off. -/
def Stored (s t : State) : Prop := ∃ mem l2, Notified { s with mem := mem, l2 := l2 } t

theorem Stored.refl (s : State) : Stored s s := ⟨_, _, Notified.refl _⟩

theorem Stored.of_notified {s t : State} (h : Notified s t) : Stored s t := ⟨_, _, h⟩

theorem Stored.trans {s t u : State} (h : Stored s t) (k : Stored t u) : Stored s u := by
  obtain ⟨_, _, _, _, _, _, _, _, _, _, rfl⟩ := h
  obtain ⟨_, _, _, _, _, _, _, _, _, _, rfl⟩ := k
  exact ⟨_, _, _, _, _, _, _, _, _, _, rfl⟩

theorem Stored.foldl {α : Type} (f : State → α → State) (hf : ∀ s x, Stored s (f s x)) (xs : List α) (s : State) :
    Stored s (xs.foldl f s) := by
  induction xs generalizing s with
  | nil => exact Stored.refl s
  | cons x xs ih => exact (hf s x).trans (ih (f s x))

theorem Stored.clusters {s t : State} (h : Stored s t) : t.clusters = s.clusters := by
  obtain ⟨_, _, _, _, _, _, _, _, _, _, rfl⟩ := h
  rfl

theorem Stored.dies {s t : State} (h : Stored s t) : t.dies = s.dies := by
  obtain ⟨_, _, _, _, _, _, _, _, _, _, rfl⟩ := h
  rfl

theorem Stored.regs {s t : State} (h : Stored s t) : t.regs = s.regs := by
  obtain ⟨_, _, _, _, _, _, _, _, _, _, rfl⟩ := h
  rfl

theorem Stored.bayLines {s t : State} (h : Stored s t) : t.bayLines = s.bayLines := by
  obtain ⟨_, _, _, _, _, _, _, _, _, _, rfl⟩ := h
  rfl

theorem State.writeDirty_stored (s : State) (l : Line) : Stored s (s.writeDirty l) := ⟨_, _, Notified.refl _⟩

theorem State.l2Put_stored (s : State) (l : Line) (h : Hint) : Stored s (s.l2Put l h) := by
  unfold State.l2Put
  dsimp only
  split
  · exact ⟨_, _, Notified.refl _⟩
  · exact ⟨_, _, Notified.refl _⟩

theorem State.systemWrite_stored (s : State) (pa n x : Nat) (h : Hint) : Stored s (s.systemWrite pa n x h) := by
  have hmem : Stored s { s with mem := writeBytes s.mem pa (toBytes n x) } := ⟨_, _, Notified.refl _⟩
  unfold State.systemWrite
  dsimp only
  split
  · exact (hmem.trans (State.l2Put_stored ..)).trans (.of_notified (State.homeWritten_frame ..))
  · exact hmem.trans (.of_notified (State.homeWritten_frame ..))

theorem State.systemBytes_stored (s : State) (pa : Nat) (bs : List Byte) : Stored s (s.systemBytes pa bs) :=
  Stored.foldl _ (fun _ _ => State.systemWrite_stored ..) _ _

theorem State.errorRecord_clusters (s : State) (source kind : Nat) (die : Option Nat) (loc unit : Nat) (lseq : W64) :
    (s.errorRecord source kind die loc unit lseq).clusters = s.clusters :=
  (State.systemBytes_stored ..).clusters

theorem State.errorRecord_dies (s : State) (source kind : Nat) (die : Option Nat) (loc unit : Nat) (lseq : W64) :
    (s.errorRecord source kind die loc unit lseq).dies = s.dies :=
  (State.systemBytes_stored ..).dies

theorem State.errorRecord_bayLines (s : State) (source kind : Nat) (die : Option Nat) (loc unit : Nat) (lseq : W64) :
    (s.errorRecord source kind die loc unit lseq).bayLines = s.bayLines :=
  (State.systemBytes_stored ..).bayLines

theorem State.errorRecord_regs (s : State) (source kind : Nat) (die : Option Nat) (loc unit : Nat) (lseq : W64) :
    (s.errorRecord source kind die loc unit lseq).regs = { s.regs with errTail := s.regs.errTail + 1 } := by
  unfold State.errorRecord
  dsimp only
  rw [(State.systemBytes_stored ..).regs]

end Sys2Proof.Machine
end

section
/-! PROOFS. Updates of several clusters (for O53 and O54). -/

namespace Sys2Proof.Machine
open Sys2Proof

/-- Each listed cluster changed by a function of what it was. -/
def State.mapClusters (s : State) (f : Cluster → Cluster) (ns : List Nat) : State :=
  ns.foldl (fun s n => s.setCluster n (f (s.cluster n))) s

theorem State.cluster_mapClusters (s : State) (f : Cluster → Cluster) {ns : List Nat} (hns : ns.Nodup) (m : Nat) :
    (s.mapClusters f ns).cluster m = if m ∈ ns then f (s.cluster m) else s.cluster m := by
  unfold State.mapClusters
  induction ns generalizing s with
  | nil => rfl
  | cons n ns ih =>
    obtain ⟨hn, hrest⟩ := List.nodup_cons.mp hns
    rw [List.foldl_cons, ih _ hrest, State.cluster_setCluster]
    by_cases hm : m = n
    · subst hm
      simp [hn]
    · simp [hm]

theorem State.mapClusters_rest (s : State) (f : Cluster → Cluster) (ns : List Nat) :
    s.mapClusters f ns = { s with clusters := (s.mapClusters f ns).clusters } := by
  unfold State.mapClusters
  induction ns generalizing s with
  | nil => rfl
  | cons n ns ih => exact ih _

end Sys2Proof.Machine
end

section
/-! PROOFS. Power, heat, margins and energy (O54). -/

namespace Sys2Proof.Machine
open Sys2Proof.Safety

theorem execPowerInterval_early {s : State} {watts : Nat} (h : s.now < s.regs.powerAt + 2 ^ 20) :
    Happens s (.powerInterval watts) fun t => t = s :=
  ⟨s, if_pos h, rfl⟩

/-- SHIFT of a cluster after an interval of the given power. -/
def State.shifted (s : State) (watts : Nat) (c : Cluster) : Cluster :=
  { c with shift := if s.regs.throttle = true ∨ s.plimit < watts then min (c.shift + 1) 4
                    else if 10 * watts ≤ 9 * s.plimit then c.shift - 1 else c.shift }

theorem execPowerInterval_due {s : State} {watts : Nat} (h : s.regs.powerAt + 2 ^ 20 ≤ s.now) :
    exec (.powerInterval watts) s =
      .next (State.mapClusters { s with regs := { s.regs with powerAt := s.regs.powerAt + 2 ^ 20 } } (s.shifted watts) (List.range 32)) := by
  have hdue : ¬ s.now < s.regs.powerAt + powerCycles := Nat.not_lt.mpr h
  show execPowerInterval watts s = _
  unfold execPowerInterval State.mapClusters State.shifted
  rw [if_neg hdue]
  simp only [Bool.or_eq_true, decide_eq_true_eq]
  rfl

theorem execPowerInterval_shifts {s : State} {watts : Nat} (h : s.regs.powerAt + 2 ^ 20 ≤ s.now) :
    Happens s (.powerInterval watts) fun t => t.regs = { s.regs with powerAt := s.regs.powerAt + 2 ^ 20 } ∧ t.mem = s.mem ∧
      ∀ m < 32, t.cluster m = s.shifted watts (s.cluster m) := by
  refine ⟨_, execPowerInterval_due h, ?_, ?_, fun m hm => ?_⟩
  · rw [State.mapClusters_rest]
  · rw [State.mapClusters_rest]
  · rw [State.cluster_mapClusters _ _ List.nodup_range, if_pos (List.mem_range.mpr hm)]
    rfl

theorem execEnergyInterval_early {s : State} {measured : Nat} (h : s.now < s.regs.energyAt + 2 ^ 20) :
    Happens s (.energyInterval measured) fun t => t = s :=
  ⟨s, if_pos h, rfl⟩

theorem readByte_filter (m : List Host.Cell) (p : Nat → Bool) (a : Nat) :
    readByte (m.filter (fun c => p c.1)) a = if p a then readByte m a else blank a := by
  induction m with
  | nil => simp [readByte]
  | cons c m ih =>
    obtain ⟨k, b⟩ := c
    by_cases hk : p k <;> by_cases ha : k = a
    · subst ha
      simp [readByte, hk]
    · simp [readByte, hk, ha, ih]
    · subst ha
      simp [hk, ih]
    · simp [readByte, hk, ha, ih]

/-- The machine without power, or just powered on: as at reset, but for the far side's memory and the model's own bookkeeping. -/
def Dark (s : State) (on : Bool) (t : State) : Prop :=
  t = { State.reset with powered := on, agenda := s.agenda, fresh := s.fresh, nextId := s.nextId, mem := t.mem } ∧
  (∀ a, a < 0x10000000000000 → readByte t.mem a = 0) ∧
  (Memory.wf s.mem = true → ∀ a, 0x10000000000000 ≤ a → readByte t.mem a = readByte s.mem a)

theorem State.lost_dark (s : State) (on : Bool) : Dark s on { s.lost with powered := on } := by
  have hread (a : Nat) : readByte s.lost.mem a = if 0x10000000000000 ≤ a then readByte s.mem a else blank a := by
    refine (readByte_filter s.mem (fun k => decide (0x10000000000000 ≤ k)) a).trans ?_
    simp only [decide_eq_true_eq]
  refine ⟨rfl, fun a ha => ?_, fun _ a ha => ?_⟩
  · rw [hread, if_neg (by omega), blank, if_pos ha]
  · rw [hread, if_pos ha]

theorem execThrottle_cool {s : State} {celsius : BitVec 8} (h : celsius.toNat < 95) :
    (Happens s (.throttle celsius) fun t => t = s) ∧
    Happens s (.throttleEnd celsius) fun t => t = { s with regs := { s.regs with tmax := celsius, throttle := false } } :=
  ⟨⟨s, if_pos h, rfl⟩, ⟨_, if_neg (Nat.not_le.mpr h), rfl⟩⟩

theorem execThrottle_hot {s : State} {celsius : BitVec 8} (h : 95 ≤ celsius.toNat) :
    (Happens s (.throttleEnd celsius) fun t => t = s) ∧
    (celsius.toNat < 105 → Happens s (.throttle celsius) fun t => t = { s with regs := { s.regs with tmax := celsius, throttle := true } }) ∧
    (105 ≤ celsius.toNat → Happens s (.throttle celsius) (Dark s false)) :=
  ⟨⟨s, if_pos h, rfl⟩, fun hot => ⟨_, (if_neg (Nat.not_lt.mpr h)).trans (if_neg (Nat.not_le.mpr hot)), rfl⟩,
    fun trips => ⟨_, (if_neg (Nat.not_lt.mpr h)).trans (if_pos trips), s.lost_dark false⟩⟩

theorem execThermalTrip_trips {s : State} {celsius : BitVec 8} :
    (celsius.toNat < 105 → Happens s (.thermalTrip celsius) fun t => t = s) ∧
    (105 ≤ celsius.toNat → Happens s (.thermalTrip celsius) (Dark s false)) :=
  ⟨fun h => ⟨s, if_pos h, rfl⟩, fun h => ⟨_, if_neg (Nat.not_lt.mpr h), s.lost_dark false⟩⟩

theorem execPower_switches (s : State) :
    Happens s .powerOff (Dark s false) ∧ (s.powered = true → Happens s .powerOn fun t => t = s) ∧
    (s.powered = false → Happens s .powerOn (Dark s true)) :=
  ⟨⟨_, rfl, s.lost_dark false⟩, fun h => ⟨s, if_pos h, rfl⟩, fun h => ⟨_, if_neg (by simp [h]), s.lost_dark true⟩⟩

theorem State.oneCluster_setCluster (s : State) (n : Nat) (c : Cluster) :
    OneCluster s (s.setCluster n c) n c ∧ s.setCluster n c = { s with clusters := (s.setCluster n c).clusters } :=
  ⟨⟨s.cluster_setCluster_same n c, fun m hm => by rw [State.cluster_setCluster, if_neg hm]⟩, rfl⟩

/-- A cluster that may calibrate: without context, move or candidate, and so for 2^20 cycles. -/
def State.restsLong (s : State) (n : Nat) : Prop :=
  (∀ p ∈ s.ctxs, p.1 / 8 ≠ n) ∧ (∀ m ∈ s.liveMoves, m.2.1 / 8 ≠ n) ∧ (s.cluster n).idleAt + 2 ^ 20 ≤ s.now ∧ s.candidate n = none

theorem State.clusterCtxs_isEmpty (s : State) (n : Nat) : (s.clusterCtxs n).isEmpty = true ↔ ∀ p ∈ s.ctxs, p.1 / 8 ≠ n := by
  simp [State.clusterCtxs, List.filter_eq_nil_iff]

/-- The model's test for a calibration says what the rule asks for. -/
theorem calibrationTest_iff (s : State) (n : Nat) :
    (bit s.regs.powerctl 32 &&
      ((s.clusterCtxs n).isEmpty && !s.liveMoves.any (fun m => m.2.1 / 8 = n) && decide ((s.cluster n).idleAt + 2 ^ 20 ≤ s.now)) &&
      (s.cluster n).calib.isNone && (s.candidate n).isNone) = true ↔
    s.regs.powerctl.getLsbD 32 = true ∧ s.restsLong n ∧ (s.cluster n).calib = none := by
  simp only [Bool.and_eq_true, State.clusterCtxs_isEmpty, State.restsLong, bit, Bool.not_eq_true', List.any_eq_false, decide_eq_true_eq,
    Option.isNone_iff_eq_none]
  tauto

theorem execCalibrationStart_begins {s : State} {cl : BitVec 5} (hon : s.regs.powerctl.getLsbD 32 = true) (hrest : s.restsLong cl.toNat)
    (hnone : (s.cluster cl.toNat).calib = none) :
    exec (.calibrationStart cl) s = .next (s.setCluster cl.toNat { s.cluster cl.toNat with
      calib := some ((s.cluster cl.toNat).vop.toNat, s.now), vop := BitVec.ofNat 12 (curveOf cl.toNat - 5) }) :=
  if_pos ((calibrationTest_iff s cl.toNat).mpr ⟨hon, hrest, hnone⟩)

theorem execCalibrationStart_refuses {s : State} {cl : BitVec 5}
    (h : s.regs.powerctl.getLsbD 32 = false ∨ ¬s.restsLong cl.toNat ∨ (s.cluster cl.toNat).calib ≠ none) :
    Happens s (.calibrationStart cl) fun t => t = s := by
  refine ⟨s, if_neg fun test => ?_, rfl⟩
  obtain ⟨hon, hrest, hnone⟩ := (calibrationTest_iff s cl.toNat).mp test
  obtain off | tired | begun := h
  · exact Bool.false_ne_true (off.symm.trans hon)
  · exact tired hrest
  · exact begun hnone

/-- A cluster whose calibration ends with its lowest passing step. -/
def State.calibrated (s : State) (n lowest : Nat) : Cluster :=
  { s.cluster n with calib := none, vop := BitVec.ofNat 12 (min (curveOf n) (lowest + s.guardBand)), margin := BitVec.ofNat 8 (curveOf n - lowest) }

section
variable {s : State} {cl : BitVec 5} {before t0 : Nat} (hcalib : (s.cluster cl.toNat).calib = some (before, t0))
include hcalib

theorem execCalibrationStep_early (h : s.now < t0 + 2 ^ 16) (pass : Bool) : exec (.calibrationStep cl pass) s = .next s := by
  show execCalibrationStep cl pass s = _
  unfold execCalibrationStep
  simp only [hcalib, if_pos h]

theorem execCalibrationStep_candidate (h : t0 + 2 ^ 16 ≤ s.now) (hc : s.candidate cl.toNat ≠ none) (pass : Bool) :
    exec (.calibrationStep cl pass) s = .next ((if pass then s else s.marginRecord cl.toNat).setCluster cl.toNat
      { s.cluster cl.toNat with calib := none, vop := BitVec.ofNat 12 before }) := by
  show execCalibrationStep cl pass s = _
  unfold execCalibrationStep
  simp only [hcalib, if_neg (Nat.not_lt.mpr h), if_pos (Option.isSome_iff_ne_none.mpr hc)]

theorem execCalibrationStep_failed (h : t0 + 2 ^ 16 ≤ s.now) (hc : s.candidate cl.toNat = none) :
    exec (.calibrationStep cl false) s =
      .next ((s.marginRecord cl.toNat).setCluster cl.toNat (s.calibrated cl.toNat ((s.cluster cl.toNat).vop.toNat + 5))) := by
  show execCalibrationStep cl false s = _
  unfold execCalibrationStep
  simp only [hcalib, if_neg (Nat.not_lt.mpr h), hc]
  rfl

theorem execCalibrationStep_lowest (h : t0 + 2 ^ 16 ≤ s.now) (hc : s.candidate cl.toNat = none)
    (hv : (s.cluster cl.toNat).vop.toNat + 200 ≤ curveOf cl.toNat) :
    exec (.calibrationStep cl true) s = .next (s.setCluster cl.toNat (s.calibrated cl.toNat (s.cluster cl.toNat).vop.toNat)) := by
  show execCalibrationStep cl true s = _
  unfold execCalibrationStep
  simp only [hcalib, if_neg (Nat.not_lt.mpr h), hc, if_pos hv]
  rfl

theorem execCalibrationStep_lower (h : t0 + 2 ^ 16 ≤ s.now) (hc : s.candidate cl.toNat = none)
    (hv : curveOf cl.toNat < (s.cluster cl.toNat).vop.toNat + 200) :
    exec (.calibrationStep cl true) s = .next (s.setCluster cl.toNat
      { s.cluster cl.toNat with calib := some (before, s.now), vop := BitVec.ofNat 12 ((s.cluster cl.toNat).vop.toNat - 5) }) := by
  show execCalibrationStep cl true s = _
  unfold execCalibrationStep
  simp only [hcalib, if_neg (Nat.not_lt.mpr h), hc, if_neg (Nat.not_le.mpr hv)]
  rfl

end

theorem execCalibrationStep_none {s : State} {cl : BitVec 5} (h : (s.cluster cl.toNat).calib = none) (pass : Bool) :
    exec (.calibrationStep cl pass) s = .next s := by
  show execCalibrationStep cl pass s = _
  unfold execCalibrationStep
  simp only [h]

/-- Settles O54: the intervals, the heat, the switches and the margins, each by what its event does. -/
theorem powerHeatMarginsAndEnergy : Obligations.PowerHeatMarginsAndEnergy := by
  unfold Obligations.PowerHeatMarginsAndEnergy
  intro s cl watts measured before t0 celsius pass n k r keeps limit guardBand curve becomes blank_ dark restored settled
  obtain ⟨switchedOff, staysOn, switchedOn⟩ := execPower_switches s
  refine ⟨execPowerInterval_early, execPowerInterval_shifts, execEnergyInterval_early, fun due => ?_,
    ⟨execThrottle_cool, execThrottle_hot, execThermalTrip_trips⟩, switchedOff, staysOn, switchedOn,
    ⟨fun on rests unbegun => ?_, execCalibrationStart_refuses⟩, fun unbegun => ⟨s, execCalibrationStep_none unbegun pass, rfl⟩,
    fun begun => ⟨fun early => ⟨s, execCalibrationStep_early begun early pass, rfl⟩,
      fun late => ⟨fun wanted => ?_, fun unwanted => ⟨?_, fun low => ?_, fun high => ?_⟩⟩⟩⟩
  · refine ⟨_, if_neg (Nat.not_lt.mpr due), ?_⟩
    simp only [List.sum_eq_foldl]
    exact ⟨rfl, rfl⟩
  · exact ⟨_, execCalibrationStart_begins on rests unbegun, State.oneCluster_setCluster ..⟩
  · refine ⟨_, execCalibrationStep_candidate begun late wanted pass, ?_⟩
    simp only [restored, n, State.cluster_setCluster_same]
    exact ⟨trivial, trivial, rfl⟩
  · refine ⟨_, execCalibrationStep_failed begun late unwanted, ?_, ?_⟩
    · simp only [settled, n, State.cluster_setCluster_same]
      exact ⟨rfl, rfl, rfl, rfl⟩
    · rw [State.setCluster_regs, State.marginRecord, State.errorRecord_regs]
  · refine ⟨_, execCalibrationStep_lowest begun late unwanted low, ?_, rfl⟩
    simp only [settled, n, State.cluster_setCluster_same]
    exact ⟨rfl, rfl, rfl, rfl⟩
  · exact ⟨_, execCalibrationStep_lower begun late unwanted high, State.oneCluster_setCluster ..⟩

end Sys2Proof.Machine
end

section
/-! PROOFS. Clocks, phases and contexts of a warm reset (for O53). -/

namespace Sys2Proof.Machine
open Sys2Proof.Safety

/-! ### Logical clocks -/

theorem State.die_setDie (s : State) (d k : Nat) (x : Die) : (s.setDie d x).die k = if k = d then x else s.die k := by
  simp only [State.die, State.setDie, tgetD_tput]

/-- Every die is as it was, but for its logical clock. -/
def DiesKept (s t : State) : Prop := ∀ k, t.die k = { s.die k with lclock := (t.die k).lclock }

theorem DiesKept.refl (s : State) : DiesKept s s := fun _ => rfl

theorem DiesKept.of_dies {s t : State} (h : t.dies = s.dies) : DiesKept s t := fun k => by simp only [State.die, h]

theorem DiesKept.trans {s t u : State} (h : DiesKept s t) (k : DiesKept t u) : DiesKept s u := fun d => by
  rw [k d, h d]

theorem DiesKept.die_eq {s t : State} (h : DiesKept s t) {d : Nat} {v : Die} (hv : s.die d = { v with lclock := (s.die d).lclock }) :
    t.die d = { v with lclock := (t.die d).lclock } :=
  (h d).trans (congrArg (fun x : Die => { x with lclock := (t.die d).lclock }) hv)

theorem DiesKept.foldl {α : Type} (f : State → α → State) (hf : ∀ s x, DiesKept s (f s x)) (xs : List α) (s : State) :
    DiesKept s (xs.foldl f s) := by
  induction xs generalizing s with
  | nil => exact .refl s
  | cons x xs ih => exact (hf s x).trans (ih (f s x))

theorem State.die_message (s : State) (a b : Option Nat) (k : Nat) (h : b ≠ some k) : (s.message a b).die k = s.die k := by
  cases b with
  | none => rfl
  | some d => exact (State.die_setDie ..).trans (if_neg fun hk => h (congrArg some hk.symm))

theorem State.message_dies (s : State) (a b : Option Nat) : DiesKept s (s.message a b) := fun k => by
  cases b with
  | none => rfl
  | some d =>
    simp only [State.message, State.setLclock, State.die_setDie]
    split
    · rename_i hk
      rw [hk]
    · rfl

theorem State.reach_dies (s : State) (d pa : Nat) : DiesKept s (s.reach d pa) := by
  unfold State.reach State.exchange
  split
  · exact (State.message_dies s (some d) none).trans (State.message_dies _ _ _)
  · exact .refl s

theorem State.tellDies_dies (s : State) (ds : List Nat) : DiesKept s (s.tellDies ds) :=
  DiesKept.foldl _ (fun s d => State.message_dies s none (some d)) _ s

/-! ### Traces that are not kept -/

theorem slice_high_clear {x : W64} (h : slice x 63 48 = 0) {i : Nat} (hi : i < 16) : bit x (48 + i) = false := by
  have hx := x.isLt
  have hlow : x.toNat < 2 ^ 48 := by
    simp only [slice, bits] at h
    omega
  exact Nat.testBit_eq_false_of_lt (hlow.trans_le (Nat.pow_le_pow_right (by decide) (by omega)))

theorem State.trace_untraced {s : State} (h : Untraced s) (space : BitVec 2) {event : Nat} (he : event < 16) (at_ : Option (Nat × Nat))
    (seq ttag : W64) (arg : Nat) : s.trace space event at_ seq ttag arg = s := by
  have off := slice_high_clear (h space.toNat space.isLt) he
  unfold State.trace
  simp only [off, Bool.not_false, if_true]

theorem untraced_of_regs {s t : State} (h : Untraced s) (hr : t.regs = s.regs) : Untraced t := fun n hn => by
  have := h n hn
  rwa [State.ret, hr]

theorem State.traceReset_untraced {s : State} (h : Untraced s) (d phase : Nat) : s.traceReset d phase = s := by
  unfold State.traceReset
  simp only [List.range, List.range.loop, List.foldl_cons, List.foldl_nil, State.trace_untraced h _ (show 10 < 16 by decide)]

/-! ### A die enters a phase -/

/-- Only die d and the clocks have changed, and the die is `v` but for its clock. -/
def Enters (s : State) (d : Nat) (v : Die) (t : State) : Prop :=
  t.die d = { v with lclock := (t.die d).lclock } ∧ (∀ k, k ≠ d → t.die k = s.die k) ∧ t = { s with dies := t.dies, lclockF := t.lclockF }

theorem Enters.setDie {s t : State} {d : Nat} {v : Die} (h : Enters s d v t) (f : Die → Die)
    (hf : ∀ x c, f { x with lclock := c } = { f x with lclock := c }) : Enters s d (f v) (t.setDie d (f (t.die d))) := by
  obtain ⟨hd, hk, hrest⟩ := h
  refine ⟨?_, fun k hne => ?_, ?_⟩
  · rw [State.die_setDie, if_pos rfl, hd, hf]
  · rw [State.die_setDie, if_neg hne, hk k hne]
  · conv_lhs => rw [hrest]
    rfl

theorem State.tellDies_one (s : State) (d : Nat) : s.tellDies [d] = s.message none (some d) := by
  simp [State.tellDies, List.eraseDups_cons]

theorem Enters.message {s t : State} {d : Nat} {v : Die} (h : Enters s d v t) : Enters s d v (t.message none (some d)) := by
  obtain ⟨hd, hk, hrest⟩ := h
  refine ⟨?_, fun k hne => ?_, ?_⟩
  · rw [State.message_dies t none (some d) d, hd]
  · rw [State.die_message _ _ _ _ (fun he => hne (Option.some.inj he).symm), hk k hne]
  · rw [State.message_rest, hrest]

theorem State.enterPhase_enters {s : State} (h : Untraced s) (d phase : Nat) :
    Enters s d { s.die d with phase := BitVec.ofNat 4 phase, since := s.now } (s.enterPhase d phase) := by
  have hstart : Enters s d (s.die d) (if phase = 1 then s else s.message (some d) none) := by
    split
    · exact ⟨rfl, fun _ _ => rfl, rfl⟩
    · exact ⟨rfl, fun _ _ => rfl, rfl⟩
  unfold State.enterPhase
  dsimp only
  generalize hu : (if phase = 1 then s else s.message (some d) none) = u at hstart ⊢
  obtain ⟨-, -, hrest⟩ := id hstart
  have hnow : u.now = s.now := by rw [hrest]
  have hregs : u.regs = s.regs := by rw [hrest]
  rw [State.traceReset_untraced (untraced_of_regs (t := u.setDie d _) h hregs), State.tellDies_one, hnow]
  exact (hstart.setDie (fun x => { x with phase := BitVec.ofNat 4 phase, since := s.now }) (fun _ _ => rfl)).message

theorem Enters.regs {s t : State} {d : Nat} {v : Die} (h : Enters s d v t) : t.regs = s.regs := by
  obtain ⟨-, -, hrest⟩ := h
  rw [hrest]

/-! ### The contexts of a die -/

theorem mem_of_tget {α : Type} {t : Tab α} {i : Nat} {x : α} (h : tget t i = some x) : (i, x) ∈ t := by
  induction t with
  | nil => cases h
  | cons p t ih =>
    obtain ⟨k, y⟩ := p
    unfold tget at h
    split at h
    · rename_i hk
      cases h
      exact hk ▸ List.mem_cons_self
    · exact List.mem_cons_of_mem _ (ih h)

theorem State.mem_ctxsOn {s : State} {d n slot : Nat} {c : Ctx} :
    (n, slot, c) ∈ s.ctxsOn d ↔ (∃ p ∈ s.ctxs, p.1 / 8 = n ∧ p.1 % 8 = slot ∧ p.2 = c) ∧ dieOf n = d := by
  simp [State.ctxsOn, State.allCtxs]

theorem State.mem_ctxsOn_of_tget {s : State} {d m : Nat} {c : Ctx} (h : tget s.ctxs m = some c) (hm : m / 32 = d) :
    (m / 8, m % 8, c) ∈ s.ctxsOn d :=
  State.mem_ctxsOn.mpr ⟨⟨(m, c), mem_of_tget h, rfl, rfl, rfl⟩, by unfold dieOf; omega⟩

theorem State.ctxsOn_isEmpty (s : State) (d : Nat) : (s.ctxsOn d).isEmpty = true ↔ ∀ p ∈ s.ctxs, p.1 / 32 ≠ d := by
  have hdie (k : Nat) : dieOf (k / 8) = k / 32 := by unfold dieOf; omega
  simp only [State.ctxsOn, State.allCtxs, List.filter_map, List.isEmpty_map, List.isEmpty_iff, List.filter_eq_nil_iff, Function.comp_apply,
    decide_eq_true_eq, hdie, ne_eq]

/-- The context at a key, if any, is stopping. -/
def StopsAt (s : State) (m : Nat) : Prop := ∀ c, tget s.ctxs m = some c → c.stop ≠ none

/-- Stopping a context writes a stopping context in its place, or finds none there. -/
theorem State.stopCtx_ctxs (s : State) (n slot : Nat) (lane : Option Nat) (w : Why) :
    (tget s.ctxs (ctxKey n slot) = none ∧ s.stopCtx n slot lane w = s) ∨
    ∃ c, c.stop ≠ none ∧ (s.stopCtx n slot lane w).ctxs = tput s.ctxs (ctxKey n slot) c := by
  unfold State.stopCtx
  dsimp only
  split
  · rename_i hn
    exact .inl ⟨hn, rfl⟩
  · right
    repeat' split
    all_goals exact ⟨_, Option.some_ne_none _, rfl⟩

theorem State.stopCtx_stops (s : State) (n slot : Nat) (lane : Option Nat) (w : Why) : StopsAt (s.stopCtx n slot lane w) (ctxKey n slot) := by
  intro c hc
  obtain ⟨hnone, heq⟩ | ⟨c', hstop, hput⟩ := s.stopCtx_ctxs n slot lane w
  · rw [heq, hnone] at hc
    cases hc
  · rw [hput, tget_tput_same] at hc
    cases hc
    exact hstop

theorem StopsAt.stopCtx {s : State} {m : Nat} (h : StopsAt s m) (n slot : Nat) (lane : Option Nat) (w : Why) :
    StopsAt (s.stopCtx n slot lane w) m := by
  by_cases hm : m = ctxKey n slot
  · exact hm ▸ s.stopCtx_stops n slot lane w
  · intro c hc
    rw [State.stopCtx_others _ _ _ _ _ hm] at hc
    exact h c hc

/-- Every listed context stopped for one reason. -/
def State.stopAll (s : State) (w : Why) (ps : List (Nat × Nat × Ctx)) : State := ps.foldl (fun s p => s.stopCtx p.1 p.2.1 none w) s

theorem State.stopAll_rest (s : State) (w : Why) (ps : List (Nat × Nat × Ctx)) :
    s.stopAll w ps = { s with ctxs := (s.stopAll w ps).ctxs, cmds := (s.stopAll w ps).cmds } := by
  unfold State.stopAll
  induction ps generalizing s with
  | nil => rfl
  | cons p ps ih => rw [List.foldl_cons, ih, State.stopCtx_rest]

theorem State.stopAll_stops (s : State) (w : Why) {ps : List (Nat × Nat × Ctx)} {m : Nat}
    (h : StopsAt s m ∨ ∃ p ∈ ps, ctxKey p.1 p.2.1 = m) : StopsAt (s.stopAll w ps) m := by
  unfold State.stopAll
  induction ps generalizing s with
  | nil => simpa using h
  | cons p ps ih =>
    refine ih _ ?_
    obtain hs | ⟨q, hq, hm⟩ := h
    · exact .inl (hs.stopCtx _ _ _ _)
    · obtain rfl | hq := List.mem_cons.mp hq
      · exact .inl (hm ▸ s.stopCtx_stops _ _ _ _)
      · exact .inr ⟨q, hq, hm⟩

end Sys2Proof.Machine
end

section
/-! PROOFS. The short phases of a warm reset (for O53). -/

namespace Sys2Proof.Machine
open Sys2Proof.Safety

theorem execResetStopLimit_waits {s : State} {die : BitVec 3} (h : (s.die die.toNat).phase ≠ 1 ∨ s.now < (s.die die.toNat).since + 2 ^ 20) :
    Happens s (.resetStopLimit die) fun t => t = s :=
  ⟨s, if_pos (by simpa using h), rfl⟩

theorem execResetStopLimit_ends {s : State} {die : BitVec 3} (hp : (s.die die.toNat).phase = 1)
    (hnow : (s.die die.toNat).since + 2 ^ 20 ≤ s.now) : Happens s (.resetStopLimit die) fun t =>
      (∀ m c, tget t.ctxs m = some c → m / 32 = die.toNat → c.stop ≠ none) ∧ t = { s with ctxs := t.ctxs, cmds := t.cmds } := by
  refine ⟨_, if_neg (by simp [hp]; omega), fun m c hc hm => ?_, State.stopAll_rest ..⟩
  refine State.stopAll_stops _ _ ?_ c hc
  by_cases hs : StopsAt s m
  · exact .inl hs
  · simp only [StopsAt, not_forall, not_not] at hs
    obtain ⟨x, hx, hrun⟩ := hs
    refine .inr ⟨(m / 8, m % 8, x), List.mem_filter.mpr ⟨State.mem_ctxsOn_of_tget hx hm, ?_⟩, Nat.div_add_mod m 8⟩
    simp [hrun]

theorem execQuiesce_waits {s : State} {die : BitVec 3} (h : (s.die die.toNat).phase ≠ 1 ∨ ∃ p ∈ s.ctxs, p.1 / 32 = die.toNat) :
    Happens s (.quiesce die) fun t => t = s := by
  refine ⟨s, if_pos ?_, rfl⟩
  simp only [Bool.or_eq_true, decide_eq_true_eq, Bool.not_eq_true', Bool.eq_false_iff, ne_eq, State.ctxsOn_isEmpty]
  simpa using h

theorem execQuiesce_quiet {s : State} {die : BitVec 3} (hu : Untraced s) (hp : (s.die die.toNat).phase = 1)
    (h : ∀ p ∈ s.ctxs, p.1 / 32 ≠ die.toNat) :
    Happens s (.quiesce die) (Enters s die.toNat { s.die die.toNat with phase := 2, since := s.now }) := by
  refine ⟨_, if_neg ?_, State.enterPhase_enters hu _ 2⟩
  simp [hp, (s.ctxsOn_isEmpty die.toNat).mpr h]

theorem execIsolate_enters {s : State} {die : BitVec 3} (hu : Untraced s) (hp : (s.die die.toNat).phase = 3) :
    Happens s (.isolate die) (Enters s die.toNat { s.die die.toNat with phase := 4, since := s.now }) :=
  ⟨_, if_neg (by simp [hp]), State.enterPhase_enters hu _ 4⟩

theorem execReadmit_enters {s : State} {die : BitVec 3} (hu : Untraced s) (hp : (s.die die.toNat).phase = 6) :
    Happens s (.readmit die) (Enters s die.toNat { s.die die.toNat with admitted := true, phase := 0, result := 0, since := s.now }) :=
  ⟨_, if_neg (by simp [hp]),
    (State.enterPhase_enters hu die.toNat 7).setDie (fun x => { x with admitted := true, phase := 0, result := 0 }) fun _ _ => rfl⟩

theorem Enters.resetFailed {s t : State} {d : Nat} {v : Die} (h : Enters s d v t) : Enters s d { v with phase := 0, result := 1 } (t.resetFailed d) :=
  h.setDie (fun x => { x with phase := 0, result := 1 }) fun _ _ => rfl

theorem execRetrain_fails {s : State} {die : BitVec 3} (hu : Untraced s) (hp : (s.die die.toNat).phase = 4) :
    Happens s (.retrain die false) (Enters s die.toNat { s.die die.toNat with phase := 0, result := 1, since := s.now }) :=
  ⟨_, if_neg (by simp [hp]), (State.enterPhase_enters hu die.toNat 5).resetFailed⟩

theorem ofDie_iff (d : Nat) (l : LinkName) : ofDie d l = true ↔ (∃ k, l = .near d k) ∨ l = .front d := by
  cases l <;> simp [ofDie]

theorem execRetrain_passes {s : State} {die : BitVec 3} (hu : Untraced s) (hp : (s.die die.toNat).phase = 4) :
    Happens s (.retrain die true) fun t =>
      t.die die.toNat = { s.die die.toNat with phase := 5, since := s.now, lclock := (t.die die.toNat).lclock } ∧
      (∀ k, k ≠ die.toNat → t.die k = s.die k) ∧ t = { s with dies := t.dies, lclockF := t.lclockF, downLinks := t.downLinks } ∧
      ∀ v, v ∈ t.downLinks ↔ v ∈ s.downLinks ∧ (∀ k, v ≠ .near die.toNat k) ∧ v ≠ .front die.toNat := by
  obtain ⟨hd, hk, hrest⟩ := State.enterPhase_enters hu die.toNat 5
  have hlinks : (s.enterPhase die.toNat 5).downLinks = s.downLinks := by rw [hrest]
  refine ⟨_, if_neg (by simp [hp]), hd, hk, ?_, fun v => ?_⟩
  · exact congrArg (fun u : State => { u with downLinks := (s.enterPhase die.toNat 5).downLinks.filter (fun l => !ofDie die.toNat l) }) hrest
  · show v ∈ List.filter _ (s.enterPhase die.toNat 5).downLinks ↔ _
    rw [hlinks, List.mem_filter, Bool.not_eq_true', Bool.eq_false_iff, ne_eq, ofDie_iff]
    push Not
    rfl

theorem execWarmReset_busy {s : State} {die : BitVec 3} {x : W64} (hx : x.getLsbD 0 = true) (hp : (s.die die.toNat).phase ≠ 0) :
    Happens s (.warmReset die x) fun t => t = s :=
  ⟨s, if_pos (by simpa [bit, hx] using hp), rfl⟩

theorem execWarmReset_fields {s : State} {die : BitVec 3} {x : W64} (hx : x.getLsbD 0 = false) :
    Happens s (.warmReset die x) (Enters s die.toNat { s.die die.toNat with auto := x.getLsbD 3, mode := x.getLsbD 2 }) := by
  refine ⟨s.setDie die.toNat { s.die die.toNat with auto := x.getLsbD 3, mode := x.getLsbD 2 }, ?_, ?_⟩
  · show execWarmReset die x s = _
    simp only [execWarmReset, bit, hx, Bool.false_and, if_neg Bool.false_ne_true]
  · exact Enters.setDie (t := s) (v := s.die die.toNat) ⟨rfl, fun _ _ => rfl, rfl⟩
      (fun y => { y with auto := x.getLsbD 3, mode := x.getLsbD 2 }) fun _ _ => rfl

end Sys2Proof.Machine
end

section
/-! PROOFS. The in-field test of a warm reset (for O53). -/

namespace Sys2Proof.Machine
open Sys2Proof.Safety

theorem State.mapClusters_dies (s : State) (f : Cluster → Cluster) (ns : List Nat) : (s.mapClusters f ns).dies = s.dies := by
  rw [State.mapClusters_rest]

/-- The clusters of a die. -/
def dieClusters (d : Nat) : List Nat := (List.range 4).map (fun c => 4 * d + c)

theorem mem_dieClusters {d k : Nat} : k ∈ dieClusters d ↔ k / 4 = d := by
  simp only [dieClusters, List.mem_map, List.mem_range]
  exact ⟨fun ⟨c, hc, hk⟩ => by omega, fun h => ⟨k % 4, by omega, by omega⟩⟩

theorem nodup_dieClusters (d : Nat) : (dieClusters d).Nodup :=
  List.nodup_range.map fun a b (h : 4 * d + a = 4 * d + b) => by omega

/-- A cluster whose `$cycle` and toll count start again. -/
def Cluster.restarted (c : Cluster) : Cluster := { c with cycle := 0, toll := 0, began := 0 }

/-- Each listed cluster sent back to its curve, with a record. -/
def State.sendBack (s : State) (ns : List Nat) : State :=
  ns.foldl (fun s n => (s.marginRecord n).setCluster n { s.cluster n with vop := Config.curveVoltage n }) s

theorem State.cluster_marginRecord (s : State) (n m : Nat) : (s.marginRecord n).cluster m = s.cluster m := by
  simp only [State.cluster, State.marginRecord, State.errorRecord_clusters]

theorem State.cluster_sendBack (s : State) {ns : List Nat} (hns : ns.Nodup) (m : Nat) :
    (s.sendBack ns).cluster m = if m ∈ ns then { s.cluster m with vop := Config.curveVoltage m } else s.cluster m := by
  unfold State.sendBack
  induction ns generalizing s with
  | nil => rfl
  | cons n ns ih =>
    obtain ⟨hn, hrest⟩ := List.nodup_cons.mp hns
    rw [List.foldl_cons, ih _ hrest, State.cluster_setCluster, State.cluster_marginRecord]
    by_cases hm : m = n
    · subst hm
      simp [hn]
    · simp [hm]

theorem State.sendBack_dies (s : State) (ns : List Nat) : (s.sendBack ns).dies = s.dies := by
  unfold State.sendBack
  induction ns generalizing s with
  | nil => rfl
  | cons n ns ih => rw [List.foldl_cons, ih, State.setCluster_dies, State.marginRecord, State.errorRecord_dies]

theorem State.sendBack_errTail (s : State) (ns : List Nat) : (s.sendBack ns).regs.errTail = s.regs.errTail + BitVec.ofNat _ ns.length := by
  unfold State.sendBack
  induction ns generalizing s with
  | nil => simp
  | cons n ns ih =>
    rw [List.foldl_cons, ih, State.setCluster_regs, State.marginRecord, State.errorRecord_regs, List.length_cons, Nat.add_comm ns.length,
      BitVec.ofNat_add, ← BitVec.add_assoc]
    rfl

/-- The clusters of a die start again as the die enters its test. -/
def State.testing (s : State) (d : Nat) : State := (s.enterPhase d 6).mapClusters Cluster.restarted (dieClusters d)

theorem exec_test {s : State} {die : BitVec 3} (failed : BitVec 4) (hp : (s.die die.toNat).phase = 5) :
    exec (.test die failed) s = .next (if failed = 0 then s.testing die.toNat
      else ((s.testing die.toNat).sendBack ((dieClusters die.toNat).filter (fun n => bit failed (n % 4)))).resetFailed die.toNat) := by
  show execTest die failed s = _
  unfold execTest
  rw [if_neg (by simp [hp])]
  split <;> rfl

theorem State.testing_rest {s : State} (hu : Untraced s) (d : Nat) :
    s.testing d = { s with dies := (s.testing d).dies, lclockF := (s.testing d).lclockF, clusters := (s.testing d).clusters } := by
  obtain ⟨-, -, hrest⟩ := State.enterPhase_enters hu d 6
  unfold State.testing
  rw [State.mapClusters_rest]
  generalize ((s.enterPhase d 6).mapClusters Cluster.restarted (dieClusters d)).clusters = cs
  exact congrArg (fun u : State => { u with clusters := cs }) hrest

theorem State.die_testing {s : State} (hu : Untraced s) (d : Nat) :
    (s.testing d).die d = { s.die d with phase := 6, since := s.now, lclock := ((s.testing d).die d).lclock } := by
  obtain ⟨hd, -, -⟩ := State.enterPhase_enters hu d 6
  have hdie : (s.testing d).die d = (s.enterPhase d 6).die d := by
    simp only [State.die, State.testing, State.mapClusters_dies]
  rw [hdie]
  exact hd

theorem State.cluster_testing {s : State} (hu : Untraced s) (d k : Nat) :
    (s.testing d).cluster k = if k / 4 = d then (s.cluster k).restarted else s.cluster k := by
  obtain ⟨-, -, hrest⟩ := State.enterPhase_enters hu d 6
  have hcl : (s.enterPhase d 6).cluster k = s.cluster k := by rw [hrest]; rfl
  unfold State.testing
  simp only [State.cluster_mapClusters _ _ (nodup_dieClusters _), mem_dieClusters, hcl]

theorem length_failing (d : Nat) (failed : BitVec 4) :
    ((dieClusters d).filter (fun n => bit failed (n % 4))).length = (List.range 4).countP (fun k => failed.getLsbD k) := by
  rw [← List.countP_eq_length_filter, dieClusters, List.countP_map]
  refine List.countP_congr fun k hk => ?_
  have hmod : (4 * d + k) % 4 = k := by
    have := List.mem_range.mp hk
    omega
  simp only [Function.comp_apply, hmod, bit]

theorem execTest_passes {s : State} {die : BitVec 3} (hu : Untraced s) (hp : (s.die die.toNat).phase = 5) :
    Happens s (.test die 0) fun t =>
      t.die die.toNat = { s.die die.toNat with phase := 6, since := s.now, lclock := (t.die die.toNat).lclock } ∧
      (∀ k, t.cluster k = if k / 4 = die.toNat then (s.cluster k).restarted else s.cluster k) ∧
      t = { s with dies := t.dies, lclockF := t.lclockF, clusters := t.clusters } :=
  ⟨_, (exec_test 0 hp).trans (congrArg _ (if_pos rfl)), State.die_testing hu _, State.cluster_testing hu _, State.testing_rest hu _⟩

theorem execTest_fails {s : State} {die : BitVec 3} {failed : BitVec 4} (hu : Untraced s) (hp : (s.die die.toNat).phase = 5) (hf : failed ≠ 0) :
    Happens s (.test die failed) fun t =>
      t.die die.toNat = { s.die die.toNat with phase := 0, result := 1, since := s.now, lclock := (t.die die.toNat).lclock } ∧
      t.regs.errTail = s.regs.errTail + BitVec.ofNat _ ((List.range 4).countP (fun k => failed.getLsbD k)) ∧
      ∀ k, k / 4 = die.toNat → t.cluster k =
        { (s.cluster k).restarted with vop := if failed.getLsbD (k % 4) then Config.curveVoltage k else (s.cluster k).vop } := by
  have hdie (ns) : ((s.testing die.toNat).sendBack ns).die die.toNat = (s.testing die.toNat).die die.toNat := by
    simp only [State.die, State.sendBack_dies]
  refine ⟨_, (exec_test failed hp).trans (congrArg _ (if_neg hf)), ?_, ?_, fun k hk => ?_⟩
  · simp only [State.resetFailed, State.die_setDie, if_pos, hdie]
    rw [State.die_testing hu]
  · rw [State.resetFailed, State.setDie_regs, State.sendBack_errTail, length_failing, State.testing_rest hu]
  · have hbad : k ∈ (dieClusters die.toNat).filter (fun n => bit failed (n % 4)) ↔ failed.getLsbD (k % 4) = true := by
      simp [mem_dieClusters, hk, bit]
    show (State.sendBack _ _).cluster k = _
    rw [State.cluster_sendBack _ ((nodup_dieClusters _).filter _), State.cluster_testing hu, if_pos hk]
    simp only [hbad]
    split <;> rfl

end Sys2Proof.Machine
end

section
/-! PROOFS. Bytes of lines and of memory (for O53). -/

namespace Sys2Proof.Machine
open Sys2Proof

/-! ### Fields and bytes of a line -/

theorem testBit_putBits {w : Nat} (x : BitVec w) {hi lo : Nat} (y : Nat) (hhi : hi < w) (hlo : lo ≤ hi) (i : Nat) :
    (putBits x hi lo y).toNat.testBit i = if lo ≤ i ∧ i ≤ hi then y.testBit (i - lo) else x.toNat.testBit i := by
  have hmask : (2 ^ (hi + 1 - lo) - 1) <<< lo < 2 ^ w := by
    rw [Nat.shiftLeft_eq]
    calc (2 ^ (hi + 1 - lo) - 1) * 2 ^ lo < 2 ^ (hi + 1 - lo) * 2 ^ lo :=
          Nat.mul_lt_mul_of_pos_right (Nat.sub_lt (Nat.two_pow_pos _) one_pos) (Nat.two_pow_pos _)
      _ = 2 ^ (hi + 1) := by rw [← Nat.pow_add]; congr 1; omega
      _ ≤ 2 ^ w := Nat.pow_le_pow_right (by decide) hhi
  have hx : i < w ∨ x.toNat.testBit i = false := by
    by_cases hi : i < w
    · exact .inl hi
    · exact .inr (Nat.testBit_eq_false_of_lt (x.isLt.trans_le (Nat.pow_le_pow_right (by decide) (Nat.not_lt.mp hi))))
  have hcompl : 2 ^ w - 1 - (2 ^ (hi + 1 - lo) - 1) <<< lo = 2 ^ w - ((2 ^ (hi + 1 - lo) - 1) <<< lo + 1) := by omega
  simp only [putBits, BitVec.toNat_ofNat, Nat.testBit_mod_two_pow, Nat.testBit_or, Nat.testBit_and, hcompl, Nat.testBit_two_pow_sub_succ hmask,
    Nat.testBit_shiftLeft, Nat.testBit_two_pow_sub_one]
  by_cases hin : lo ≤ i ∧ i ≤ hi
  · have : i < w := by omega
    have : i - lo < hi + 1 - lo := by omega
    simp [*]
  · have hout : (decide (i ≥ lo) && decide (i - lo < hi + 1 - lo)) = false := by
      simp only [Bool.and_eq_false_iff, decide_eq_false_iff_not]
      omega
    rw [if_neg hin, hout]
    obtain hi | hi := hx <;> simp [hi]

theorem Line.testBit_get (l : Line) (off n i : Nat) : (l.get off n).testBit i = (decide (i < 8 * n) && l.data.toNat.testBit (8 * off + i)) := by
  simp only [Line.get, Nat.testBit_mod_two_pow, Nat.testBit_div_two_pow, Nat.add_comm]

theorem Line.get_put (l : Line) {i j : Nat} (x : Nat) (dirty : Bool) (hi : i < 128) :
    (l.put i 1 x dirty).get j 1 = if j = i then x % 256 else l.get j 1 := by
  refine Nat.eq_of_testBit_eq fun k => ?_
  rw [Line.testBit_get, Line.put, testBit_putBits _ _ (by omega) (by omega)]
  by_cases hji : j = i
  · subst hji
    rw [if_pos rfl, show (256 : Nat) = 2 ^ 8 from rfl, Nat.testBit_mod_two_pow]
    by_cases hk : k < 8
    · rw [if_pos (by omega)]
      simp [hk]
    · simp [hk]
  · rw [if_neg hji, Line.testBit_get]
    by_cases hk : k < 8
    · rw [if_neg (by omega)]
    · simp [hk]

theorem Line.get_byte_lt (l : Line) (j : Nat) : l.get j 1 < 256 := Nat.mod_lt _ (by decide)

/-- Bytes of y put over a line stand there, and the line's own bytes between them. -/
theorem Line.get_merge (y : Line) {is : List Nat} (his : ∀ i ∈ is, i < 128) (l : Line) (j : Nat) :
    (is.foldl (fun h i => h.put i 1 (y.get i 1) true) l).get j 1 = if j ∈ is then y.get j 1 else l.get j 1 := by
  induction is generalizing l with
  | nil => rfl
  | cons i is ih =>
    obtain ⟨hi, hrest⟩ := List.forall_mem_cons.mp his
    rw [List.foldl_cons, ih hrest, Line.get_put _ _ _ hi, Nat.mod_eq_of_lt (y.get_byte_lt i)]
    by_cases hj : j = i
    · subst hj
      simp
    · simp [hj]

theorem Line.merge_line (y : Line) (is : List Nat) (l : Line) : (is.foldl (fun h i => h.put i 1 (y.get i 1) true) l).line = l.line := by
  induction is generalizing l with
  | nil => rfl
  | cons i is ih => exact ih _

theorem mem_setBits {w x i : Nat} : i ∈ setBits w x ↔ i < w ∧ x.testBit i = true := by
  simp [setBits]

/-! ### Bytes of memory -/

theorem ofBytes_div (bs : List Byte) (k : Nat) : ofBytes bs / 2 ^ (8 * k) = ofBytes (bs.drop k) := by
  induction k generalizing bs with
  | zero => simp
  | succ k ih =>
    cases bs with
    | nil => simp [ofBytes]
    | cons b bs =>
      have hb := b.isLt
      have hpow : 2 ^ (8 * (k + 1)) = 256 * 2 ^ (8 * k) := by rw [Nat.mul_succ, Nat.pow_add, Nat.mul_comm]
      have hdiv : (b.toNat + 256 * ofBytes bs) / 256 = ofBytes bs := by omega
      rw [hpow, ← Nat.div_div_eq_div_mul, ofBytes, hdiv, ih, List.drop_succ_cons]

theorem ofBytes_mod (bs : List Byte) (k : Nat) : ofBytes bs % 2 ^ (8 * k) = ofBytes (bs.take k) := by
  induction k generalizing bs with
  | zero => simp [ofBytes, Nat.mod_one]
  | succ k ih =>
    cases bs with
    | nil => simp [ofBytes]
    | cons b bs =>
      have hb := b.isLt
      have hpow : 2 ^ (8 * (k + 1)) = 256 * 2 ^ (8 * k) := by rw [Nat.mul_succ, Nat.pow_add, Nat.mul_comm]
      have hlow : (b.toNat + 256 * ofBytes bs) % 256 = b.toNat := by omega
      have hdiv : (b.toNat + 256 * ofBytes bs) / 256 = ofBytes bs := by omega
      rw [List.take_succ_cons, ofBytes, ofBytes, hpow, Nat.mod_mul, hlow, hdiv, ih]

theorem ofBytes_lt (bs : List Byte) : ofBytes bs < 2 ^ (8 * bs.length) := by
  have h := Nat.mod_lt (ofBytes bs) (Nat.two_pow_pos (8 * bs.length))
  rwa [ofBytes_mod, List.take_length] at h

theorem toNat_ofNat_ofBytes {w : Nat} {bs : List Byte} (h : 8 * bs.length = w) : (BitVec.ofNat w (ofBytes bs)).toNat = ofBytes bs := by
  subst h
  rw [BitVec.toNat_ofNat, Nat.mod_eq_of_lt (ofBytes_lt bs)]

theorem toBytes_succ (n x : Nat) : toBytes (n + 1) x = BitVec.ofNat 8 x :: toBytes n (x / 256) := by
  simp only [toBytes, List.range_succ_eq_map, List.map_cons, List.map_map, Nat.mul_zero, Nat.shiftRight_zero]
  refine congrArg _ (List.map_congr_left fun i _ => ?_)
  simp only [Function.comp_apply, Nat.shiftRight_eq_div_pow, Nat.mul_succ, Nat.pow_add, Nat.mul_comm (2 ^ (8 * i)), ← Nat.div_div_eq_div_mul]

theorem toBytes_length (n x : Nat) : (toBytes n x).length = n := by simp [toBytes]

theorem ofBytes_toBytes (n x : Nat) : ofBytes (toBytes n x) = x % 2 ^ (8 * n) := by
  induction n generalizing x with
  | zero => simp [toBytes, ofBytes, Nat.mod_one]
  | succ n ih =>
    have hpow : 2 ^ (8 * (n + 1)) = 256 * 2 ^ (8 * n) := by rw [Nat.mul_succ, Nat.pow_add, Nat.mul_comm]
    rw [toBytes_succ, ofBytes, ih, hpow, Nat.mod_mul, BitVec.toNat_ofNat]

theorem toBytes_ofBytes (bs : List Byte) : toBytes bs.length (ofBytes bs) = bs := by
  induction bs with
  | nil => rfl
  | cons b bs ih =>
    have hb := b.isLt
    have hdiv : (b.toNat + 256 * ofBytes bs) / 256 = ofBytes bs := by omega
    rw [List.length_cons, toBytes_succ, ofBytes, hdiv, ih]
    refine congrArg (· :: bs) (BitVec.eq_of_toNat_eq ?_)
    rw [BitVec.toNat_ofNat]
    omega

theorem ofWords_length (ws : List W64) : (ofWords ws).length = 8 * ws.length := by
  induction ws with
  | nil => rfl
  | cons w ws ih =>
    have happ : ofWords (w :: ws) = toBytes 8 w.toNat ++ ofWords ws := rfl
    rw [happ, List.length_append, ih, toBytes_length, List.length_cons]
    omega

theorem take_drop_ofWords (ws : List W64) {i : Nat} (hi : i < ws.length) : ((ofWords ws).drop (8 * i)).take 8 = toBytes 8 ws[i].toNat := by
  induction ws generalizing i with
  | nil => simp at hi
  | cons w ws ih =>
    have happ : ofWords (w :: ws) = toBytes 8 w.toNat ++ ofWords ws := rfl
    have hlen := toBytes_length 8 w.toNat
    cases i with
    | zero => rw [happ, Nat.mul_zero, List.drop_zero, List.take_left' hlen, List.getElem_cons_zero]
    | succ i =>
      have hoff : 8 * (i + 1) = (toBytes 8 w.toNat).length + 8 * i := by omega
      rw [happ, hoff, List.drop_append, List.drop_eq_nil_of_le (by omega), List.nil_append, Nat.add_sub_cancel_left,
        ih (Nat.lt_of_succ_lt_succ hi), List.getElem_cons_succ]

theorem drop_readBytes (m : List Host.Cell) (a n k : Nat) : (readBytes m a n).drop k = readBytes m (a + k) (n - k) := by
  refine List.ext_getElem (by simp [readBytes]) fun i h1 h2 => ?_
  simp [readBytes, Nat.add_assoc]

theorem take_readBytes (m : List Host.Cell) (a : Nat) {n k : Nat} (h : k ≤ n) : (readBytes m a n).take k = readBytes m a k := by
  refine List.ext_getElem (by simp [readBytes, h]) fun i h1 h2 => ?_
  simp [readBytes]

/-- A read at a home whose line no slice holds is of memory itself. -/
theorem State.homeRead_backing {s : State} {a n : Nat} (h : s.l2Line (lineOf a) = none) (hn : a % 128 + n ≤ 128) :
    s.homeRead a n = ofBytes (readBytes s.mem a n) := by
  have hfits : n ≤ 128 - a % 128 := by omega
  have ha : 128 * lineOf a + a % 128 = a := Nat.div_add_mod a 128
  rw [State.homeRead, State.homeLine_uncached h, Line.get, State.backingLine, toNat_ofNat_ofBytes (by simp [readBytes]), ofBytes_div, ofBytes_mod,
    drop_readBytes, ha, take_readBytes _ _ hfits]

end Sys2Proof.Machine
end

section
/-! PROOFS. A die's bays write back and drop their lines (for O53). -/

namespace Sys2Proof.Machine
open Sys2Proof.Safety

/-! ### Which lines stay -/

theorem mem_tput {α : Type} {t : Tab α} {i : Nat} {x : α} {p : Nat × α} (h : p ∈ tput t i x) : p = (i, x) ∨ p ∈ t := by
  induction t with
  | nil => exact .inl (List.mem_singleton.mp h)
  | cons q t ih =>
    obtain ⟨k, y⟩ := q
    unfold tput at h
    split at h
    · exact (List.mem_cons.mp h).imp_right id
    · split at h
      · exact (List.mem_cons.mp h).imp_right (List.mem_cons_of_mem _)
      · obtain rfl | h := List.mem_cons.mp h
        · exact .inr List.mem_cons_self
        · exact (ih h).imp_right (List.mem_cons_of_mem _)

/-- The dies are as they were but for their clocks, and no line has come but to one bay. -/
def BayOnly (n b : Nat) (s t : State) : Prop := DiesKept s t ∧ ∀ p ∈ t.bayLines, p.1 / 128 = 16 * n + b ∨ p ∈ s.bayLines

theorem BayOnly.refl (n b : Nat) (s : State) : BayOnly n b s s := ⟨.refl s, fun _ => .inr⟩

theorem BayOnly.trans {n b : Nat} {s t u : State} (h : BayOnly n b s t) (k : BayOnly n b t u) : BayOnly n b s u :=
  ⟨h.1.trans k.1, fun _ hp => (k.2 _ hp).elim .inl (h.2 _)⟩

theorem BayOnly.foldl {α : Type} {n b : Nat} (f : State → α → State) (hf : ∀ s x, BayOnly n b s (f s x)) (xs : List α) (s : State) :
    BayOnly n b s (xs.foldl f s) := by
  induction xs generalizing s with
  | nil => exact .refl n b s
  | cons x xs ih => exact (hf s x).trans (ih (f s x))

theorem BayOnly.of_bayLines {n b : Nat} {s t : State} (hd : DiesKept s t) (hl : t.bayLines = s.bayLines) : BayOnly n b s t :=
  ⟨hd, fun _ hp => .inr (hl ▸ hp)⟩

theorem bayKey_div (n b line : Nat) : bayKey n b line / 128 = 16 * n + b := by
  unfold bayKey
  omega

theorem BayOnly.put (n b line : Nat) (s : State) (set : List Line) :
    BayOnly n b s { s with bayLines := tput s.bayLines (bayKey n b line) set } :=
  ⟨.refl s, fun _ hp => (mem_tput hp).imp_left fun h => by rw [h]; exact bayKey_div n b line⟩

theorem State.carryLine_stored (s : State) (l : Line) : Stored s (s.carryLine l) := by
  unfold State.carryLine
  dsimp only
  split
  · exact .refl s
  · refine Stored.trans (t := if (homeOf (128 * l.line)).cached then _ else _) ?_
      (Stored.foldl _ (fun _ _ => .of_notified (State.homeWritten_frame ..)) _ _)
    split
    · exact State.l2Put_stored ..
    · exact State.writeDirty_stored ..

theorem State.carryFrom_bayOnly (s : State) (n b die : Nat) (l : Line) : BayOnly n b s (s.carryFrom die l) := by
  unfold State.carryFrom
  split
  · exact .refl n b s
  · have hstored := State.carryLine_stored (s.reach die (128 * l.line)) l
    exact .of_bayLines ((State.reach_dies s _ _).trans (.of_dies hstored.dies)) (hstored.bayLines.trans (State.reach_bayLines ..))

theorem State.bayClean_bayOnly (s : State) (n b line : Nat) : BayOnly n b s (s.bayClean n b line) := by
  unfold State.bayClean
  split
  · exact .refl n b s
  · exact (State.carryFrom_bayOnly ..).trans (.put n b line _ _)

theorem State.loseLines_bayOnly (s : State) (n b : Nat) : BayOnly n b s (s.loseLines n b) := by
  unfold State.loseLines
  refine BayOnly.foldl _ (fun s l => ?_) _ s
  exact (BayOnly.of_bayLines (.of_dies (State.errorRecord_dies ..)) (State.errorRecord_bayLines ..)).trans (.put n b l.line _ _)

/-- What phase 3 does with one bay. -/
def State.emptyBay (s : State) (p : Nat × Nat) : State := (s.loseLines p.1 p.2).bayWriteBack p.1 p.2 true

theorem State.emptyBay_bayLines (s : State) (q : Nat × Nat) :
    DiesKept s (s.emptyBay q) ∧ ∀ p ∈ (s.emptyBay q).bayLines, p.1 / 128 ≠ 16 * q.1 + q.2 ∧ p ∈ s.bayLines := by
  have hclean : BayOnly q.1 q.2 s (((s.loseLines q.1 q.2).bayAll q.1 q.2).foldl (fun u l => u.bayClean q.1 q.2 l.line) (s.loseLines q.1 q.2)) :=
    (s.loseLines_bayOnly q.1 q.2).trans (.foldl _ (fun _ _ => State.bayClean_bayOnly ..) _ _)
  obtain ⟨hdies, hlines⟩ := hclean
  refine ⟨hdies, fun p hp => ?_⟩
  obtain ⟨hp, hkey⟩ := List.mem_filter.mp hp
  have hkey : p.1 / 128 ≠ 16 * q.1 + q.2 := by simpa using hkey
  exact ⟨hkey, (hlines p hp).resolve_left hkey⟩

theorem State.emptyBays_bayLines (s : State) (qs : List (Nat × Nat)) : DiesKept s (qs.foldl State.emptyBay s) ∧
    ∀ p ∈ (qs.foldl State.emptyBay s).bayLines, (∀ q ∈ qs, p.1 / 128 ≠ 16 * q.1 + q.2) ∧ p ∈ s.bayLines := by
  induction qs generalizing s with
  | nil => exact ⟨.refl s, fun p hp => ⟨by simp, hp⟩⟩
  | cons q qs ih =>
    obtain ⟨hdies, hlines⟩ := ih (s.emptyBay q)
    obtain ⟨hdies', hlines'⟩ := s.emptyBay_bayLines q
    refine ⟨hdies'.trans hdies, fun p hp => ?_⟩
    obtain ⟨hrest, hp⟩ := hlines p hp
    obtain ⟨hq, hp⟩ := hlines' p hp
    exact ⟨List.forall_mem_cons.mpr ⟨hq, hrest⟩, hp⟩

/-- The bays of a die. -/
def dieBays (d : Nat) : List (Nat × Nat) := (List.range 4).flatMap (fun c => (List.range 16).map (fun b => (4 * d + c, b)))

theorem mem_dieBays {d n b : Nat} : (n, b) ∈ dieBays d ↔ n / 4 = d ∧ b < 16 := by
  simp only [dieBays, List.mem_flatMap, List.mem_map, List.mem_range, Prod.mk.injEq]
  exact ⟨fun ⟨c, hc, j, hj, hn, hb⟩ => by omega, fun ⟨hn, hb⟩ => ⟨n % 4, by omega, b, hb, by omega, rfl⟩⟩

theorem exec_writeback {s : State} {die : BitVec 3} (hp : (s.die die.toNat).phase = 2) :
    exec (.writeback die) s = .next ((dieBays die.toNat).foldl State.emptyBay (s.enterPhase die.toNat 3)) := by
  show execWriteback die s = _
  unfold execWriteback
  rw [if_neg (by simp [hp])]
  rfl

theorem execWriteback_drops {s : State} {die : BitVec 3} (hu : Untraced s) (hp : (s.die die.toNat).phase = 2) :
    Happens s (.writeback die) fun t =>
      t.die die.toNat = { s.die die.toNat with phase := 3, since := s.now, lclock := (t.die die.toNat).lclock } ∧
      ∀ p ∈ t.bayLines, p.1 / 8192 ≠ die.toNat := by
  obtain ⟨hd, -, -⟩ := State.enterPhase_enters hu die.toNat 3
  obtain ⟨hkept, hlines⟩ := State.emptyBays_bayLines (s.enterPhase die.toNat 3) (dieBays die.toNat)
  refine ⟨_, exec_writeback hp, hkept.die_eq hd, fun p hp hdie => ?_⟩
  obtain ⟨hbays, -⟩ := hlines p hp
  refine hbays (4 * die.toNat + p.1 / 2048 % 4, p.1 / 128 % 16) (mem_dieBays.mpr (by omega)) ?_
  show p.1 / 128 = 16 * (4 * die.toNat + p.1 / 2048 % 4) + p.1 / 128 % 16
  omega

/-! ### One line in the bays of the die -/

/-- The bays hold nothing but one line, in bay b of cluster n. -/
def HoldsOne (s : State) (n b : Nat) (y : Line) : Prop := s.bayLines = [(bayKey n b y.line, [y])]

theorem State.bayAll_other {s : State} {n b : Nat} (h : ∀ p ∈ s.bayLines, p.1 / 128 ≠ 16 * n + b) : s.bayAll n b = [] := by
  have hnone : s.bayLines.filter (fun p => decide (p.1 / 128 = 16 * n + b)) = [] := by simpa [List.filter_eq_nil_iff] using h
  rw [State.bayAll, hnone]
  rfl

/-- A bay without lines loses and writes none. -/
theorem State.emptyBay_other {s : State} {q : Nat × Nat} (h : ∀ p ∈ s.bayLines, p.1 / 128 ≠ 16 * q.1 + q.2) : s.emptyBay q = s := by
  have hkeep : s.bayLines.filter (fun p => p.1 / 128 != 16 * q.1 + q.2) = s.bayLines := by simpa [List.filter_eq_self] using h
  simp only [State.emptyBay, State.loseLines, State.bayWriteBack, State.bayAll_other h, List.filter_nil, List.foldl_nil, if_true, hkeep]

theorem State.emptyBays_none {s : State} (h : s.bayLines = []) (qs : List (Nat × Nat)) : qs.foldl State.emptyBay s = s := by
  induction qs with
  | nil => rfl
  | cons q qs ih => rw [List.foldl_cons, State.emptyBay_other (by simp [h]), ih]

theorem HoldsOne.emptyBay_bayLines {s : State} {n b : Nat} {y : Line} (h : HoldsOne s n b y) : (s.emptyBay (n, b)).bayLines = [] := by
  refine List.eq_nil_iff_forall_not_mem.mpr fun p hp => ?_
  obtain ⟨hkey, hp⟩ := (s.emptyBay_bayLines (n, b)).2 p hp
  rw [h, List.mem_singleton] at hp
  exact hkey (hp ▸ bayKey_div n b y.line)

/-- Emptying bays of which one holds the only line is emptying that bay. -/
theorem HoldsOne.emptyBays {s : State} {n b : Nat} {y : Line} (h : HoldsOne s n b y) (hb : b < 16) {qs : List (Nat × Nat)}
    (hqs : ∀ q ∈ qs, q.2 < 16) (hin : (n, b) ∈ qs) : qs.foldl State.emptyBay s = s.emptyBay (n, b) := by
  induction qs with
  | nil => simp at hin
  | cons q qs ih =>
    obtain ⟨hq, hrest⟩ := List.forall_mem_cons.mp hqs
    by_cases heq : q = (n, b)
    · rw [List.foldl_cons, heq, State.emptyBays_none h.emptyBay_bayLines]
    · have hother : 16 * n + b ≠ 16 * q.1 + q.2 := fun hk => heq (Prod.ext (by dsimp only; omega) (by dsimp only; omega))
      have hlines : ∀ p ∈ s.bayLines, p.1 / 128 ≠ 16 * q.1 + q.2 := by
        intro p hp
        rw [h, List.mem_singleton] at hp
        rwa [hp, bayKey_div]
      rw [List.foldl_cons, State.emptyBay_other hlines]
      exact ih hrest ((List.mem_cons.mp hin).resolve_left (Ne.symm heq))

end Sys2Proof.Machine
end

section
/-! PROOFS. The one line of a die's bays reaches its home, or is lost and recorded (for O53). -/

namespace Sys2Proof.Machine
open Sys2Proof.Safety

/-! ### A line put into its slice -/

theorem findLine_touch (set : List Line) (ways cap : Nat) (l : Line) (h : Hint) :
    findLine (touch set ways cap l h).1 l.line = some { l with hint := hintAfter l.hint h } := by
  have hhead : ∀ rest : List Line, findLine ({ l with hint := hintAfter l.hint h } :: rest) l.line = some { l with hint := hintAfter l.hint h } :=
    fun rest => List.find?_cons_of_pos (by simp)
  unfold touch
  dsimp only
  generalize dropLine _ l.line = rest
  split
  · exact hhead rest
  · split
    · exact hhead _
    · exact hhead rest

theorem State.l2Line_l2Put (s : State) (l : Line) (h : Hint) : (s.l2Put l h).l2Line l.line = some { l with hint := hintAfter l.hint h } := by
  have hfound := findLine_touch (s.l2Set l.line) 16 12 l h
  unfold State.l2Put State.l2Line State.l2Set
  dsimp only
  split
  · rw [State.writeDirty, tgetD_tput_same]
    exact hfound
  · rw [tgetD_tput_same]
    exact hfound

theorem lineOf_add (n : Nat) {j : Nat} (hj : j < 128) : lineOf (128 * n + j) = n := by
  unfold lineOf
  omega

theorem State.homeRead_l2Put (s : State) (l : Line) (h : Hint) {j : Nat} (hj : j < 128) (k : Nat) :
    (s.l2Put l h).homeRead (128 * l.line + j) k = l.get j k := by
  have hmod : (128 * l.line + j) % 128 = j := by omega
  rw [State.homeRead, State.homeLine, lineOf_add _ hj, State.l2Line_l2Put, hmod]
  rfl

theorem State.homeLine_line (s : State) (n : Nat) : (s.homeLine n).line = n := by
  unfold State.homeLine
  split
  · rename_i l hl
    simpa using List.find?_some hl
  · rfl

theorem State.homeRead_wordsWritten (s : State) (l : Line) (is : List Nat) (a k : Nat) :
    (is.foldl (fun s i => s.homeWritten (128 * l.line + 8 * i) 8) s).homeRead a k = s.homeRead a k := by
  induction is generalizing s with
  | nil => rfl
  | cons i is ih => rw [List.foldl_cons, ih, State.homeWritten_homeRead]

/-- A line at its home, with the dirty bytes of y over it. -/
def State.mergedLine (s : State) (y : Line) : Line := (setBits 128 y.dirty.toNat).foldl (fun h i => h.put i 1 (y.get i 1) true) (s.homeLine y.line)

theorem State.mergedLine_line (s : State) (y : Line) : (s.mergedLine y).line = y.line :=
  (Line.merge_line ..).trans (s.homeLine_line y.line)

theorem State.mergedLine_get (s : State) {y : Line} {j : Nat} (hj : j < 128) (hdirty : y.dirty.getLsbD j = true) :
    (s.mergedLine y).get j 1 = y.get j 1 :=
  (Line.get_merge y (fun _ hi => (mem_setBits.mp hi).1) _ j).trans (if_pos (mem_setBits.mpr ⟨hj, hdirty⟩))

theorem dirty_ne_zero {y : Line} {j : Nat} (hdirty : y.dirty.getLsbD j = true) : y.dirty ≠ 0 := fun h => by
  simp [h] at hdirty

/-- A dirty byte that a bay carries to a slice reads there as the bay held it. -/
theorem State.homeRead_carryLine (s : State) {y : Line} (hc : (homeOf (128 * y.line)).cached = true) {j : Nat} (hj : j < 128)
    (hdirty : y.dirty.getLsbD j = true) : (s.carryLine y).homeRead (128 * y.line + j) 1 = y.get j 1 := by
  have hput := State.homeRead_l2Put s (s.mergedLine y) .normal hj 1
  rw [s.mergedLine_line, s.mergedLine_get hj hdirty] at hput
  rw [State.carryLine, if_neg (dirty_ne_zero hdirty)]
  dsimp only
  rw [State.homeRead_wordsWritten, if_pos hc]
  exact hput

/-! ### Which homes are cut off -/

/-- What a die's change of phase leaves of the links: they are as open as they were, while the die is as isolated as it was. -/
theorem Enters.cutOff {s t : State} {d : Nat} {v : Die} (h : Enters s d v t) (hv : decide (4 ≤ v.phase.toNat) = s.isolated d) (die pa : Nat) :
    t.cutOff die pa = s.cutOff die pa := by
  obtain ⟨hd, hk, hrest⟩ := h
  have hisolated : ∀ k, t.isolated k = s.isolated k := fun k => by
    by_cases hkd : k = d
    · rw [hkd, ← hv, State.isolated, hd]
    · rw [State.isolated, hk k hkd, State.isolated]
  have hroute : t.routeOf pa = s.routeOf pa := by
    rw [hrest]
    rfl
  have hopen : t.linkOpen pa = s.linkOpen pa := by
    have hregs : t.regs = s.regs := by rw [hrest]
    simp only [State.linkOpen, hroute, hisolated, hregs]
  have hcross : t.downLinks.any (fun l => t.crosses l die pa false) = s.downLinks.any (fun l => s.crosses l die pa false) := by
    rw [hrest]
    rfl
  rw [State.cutOff, State.cutOff, hopen, hcross]

theorem Enters.linesKept {s t : State} {d : Nat} {v : Die} (h : Enters s d v t) : t.bayLines = s.bayLines := by
  obtain ⟨-, -, hrest⟩ := h
  rw [hrest]

/-! ### Emptying the bay that holds the line -/

theorem HoldsOne.bayAll {s : State} {n b : Nat} {y : Line} (h : HoldsOne s n b y) : s.bayAll n b = [y] := by
  rw [State.bayAll, h]
  simp [bayKey_div]

theorem HoldsOne.baySet {s : State} {n b : Nat} {y : Line} (h : HoldsOne s n b y) : s.baySet n b y.line = [y] := by
  rw [State.baySet, h]
  simp [tgetD, tget]

theorem HoldsOne.bayLine {s : State} {n b : Nat} {y : Line} (h : HoldsOne s n b y) : s.bayLine n b y.line = some y := by
  rw [State.bayLine, h.baySet]
  simp [findLine]

/-- A line whose home can be reached reaches it. -/
theorem HoldsOne.homeRead_emptyBay {s : State} {n b : Nat} {y : Line} (h : HoldsOne s n b y) (hreach : s.cutOff (dieOf n) (128 * y.line) = false)
    (hc : (homeOf (128 * y.line)).cached = true) {j : Nat} (hj : j < 128) (hdirty : y.dirty.getLsbD j = true) :
    (s.emptyBay (n, b)).homeRead (128 * y.line + j) 1 = y.get j 1 := by
  have hlost : s.loseLines n b = s := by
    rw [State.loseLines, h.bayAll, List.filter_cons_of_neg (by simp [hreach])]
    rfl
  have hclean : (s.bayClean n b y.line).homeRead (128 * y.line + j) 1 = y.get j 1 := by
    rw [State.bayClean, h.bayLine]
    dsimp only
    rw [State.carryFrom, if_neg (dirty_ne_zero hdirty)]
    exact State.homeRead_carryLine _ hc hj hdirty
  rw [State.emptyBay, hlost, State.bayWriteBack, h.bayAll]
  exact hclean

/-- A line whose home cannot be reached is recorded, and lost. -/
theorem HoldsOne.emptyBay_lost {s : State} {n b : Nat} {y : Line} (h : HoldsOne s n b y) (hcut : s.cutOff (dieOf n) (128 * y.line) = true)
    (hdirty : y.dirty ≠ 0) :
    s.emptyBay (n, b) = { s.errorRecord 8 2 (some (dieOf n)) (128 * y.line) n 0 with bayLines := [] } := by
  generalize hu : s.errorRecord 8 2 (some (dieOf n)) (128 * y.line) n 0 = u
  have hone : HoldsOne u n b y := by
    rw [← hu]
    exact (State.errorRecord_bayLines ..).trans h
  have hlost : s.loseLines n b = { u with bayLines := [(bayKey n b y.line, [])] } := by
    rw [State.loseLines, h.bayAll, List.filter_cons_of_pos (by simpa [hcut] using hdirty), List.filter_nil, List.foldl_cons, List.foldl_nil, hu,
      State.bayDrop, hone.baySet, hone]
    simp [tput, dropLine]
  have hnone : ({ u with bayLines := [(bayKey n b y.line, [])] } : State).bayAll n b = [] := by
    simp [State.bayAll]
  rw [State.emptyBay, hlost, State.bayWriteBack, hnone]
  simp [bayKey_div]

/-! ### The record of an error -/

/-- Bytes of the device's own that lie in one line are one write. -/
theorem State.systemBytes_inLine (s : State) {pa : Nat} {bs : List Byte} (hpos : 0 < bs.length) (hfits : pa % 128 + bs.length ≤ 128) :
    s.systemBytes pa bs = s.systemWrite pa bs.length (ofBytes bs) .normal := by
  have hlines : linesOf pa bs.length = [pa / 128] := by
    have hspan : (pa + bs.length - 1) / 128 - pa / 128 + 1 = 1 := by omega
    rw [linesOf, if_neg (by omega), lineOf, lineOf, hspan]
    simp
  have hlo : max pa (128 * (pa / 128)) = pa := by omega
  have hlen : min (pa + bs.length) (128 * (pa / 128) + 128) - pa = bs.length := by omega
  rw [State.systemBytes, State.byLine, hlines, List.foldl_cons, List.foldl_nil]
  dsimp only
  rw [hlo, hlen, Nat.sub_self, List.drop_zero, List.take_length]

/-- Such a write in a line that no slice holds is of memory, and sets off what a write there does. -/
theorem State.systemWrite_backing {s : State} {pa n x : Nat} (h : Hint) (hline : s.l2Line (lineOf pa) = none) :
    s.systemWrite pa n x h = ({ s with mem := writeBytes s.mem pa (toBytes n x) } : State).homeWritten pa n := by
  have hline' : ({ s with mem := writeBytes s.mem pa (toBytes n x) } : State).l2Line (lineOf pa) = none := hline
  rw [State.systemWrite, hline']

theorem readBytes_writeBytes {m : List Host.Cell} (hwf : Memory.wf m = true) (a : Nat) (bs : List Byte) {k n : Nat} (hn : k + n ≤ bs.length) :
    readBytes (writeBytes m a bs) (a + k) n = (bs.drop k).take n := by
  refine List.ext_getElem (by simp [readBytes]; omega) fun i h1 h2 => ?_
  have hi : i < n := by simpa [readBytes] using h1
  have hread := readByte_writeBytes hwf a bs (i := k + i) (by omega)
  rw [← Nat.add_assoc] at hread
  simpa [readBytes] using hread

theorem errorSlot_in_flags (s : State) : errorSlot s % 32 = 0 ∧ flagBase ≤ errorSlot s ∧ errorSlot s + 32 ≤ flagBase + 2 ^ 22 := by
  unfold errorSlot flagBase
  omega

theorem errorSlot_not_cached (s : State) : (homeOf (errorSlot s)).cached = false := by
  obtain ⟨-, hlo, hhi⟩ := errorSlot_in_flags s
  have hflag : homeOf (errorSlot s) = .flag := by
    unfold flagBase at hlo hhi
    rw [homeOf, if_neg (by omega), if_neg (by omega), if_pos (by omega)]
  rw [hflag]
  rfl

/-- The four words of an error record are written at the tail of its ring, which moves on. -/
theorem State.errorRecord_recorded {s : State} (h : Roomy s (errorSlot s)) (source kind : Nat) (die : Option Nat) (loc unit : Nat) (lseq : W64) :
    ErrorRecorded s (s.errorRecord source kind die loc unit lseq)
      ((([BitVec.ofNat 64 (source * 2 ^ 56 + kind * 2 ^ 54 + (s.lclock die).toNat), BitVec.ofNat 64 loc, BitVec.ofNat 64 (unit % 2 ^ 16), lseq] :
        List W64)).map BitVec.toNat) := by
  obtain ⟨hroom, hwf⟩ := h
  rw [errorSlot_not_cached] at hroom
  have hline : s.l2Line (lineOf (errorSlot s)) = none := by simpa using hroom
  obtain ⟨halign, -, -⟩ := errorSlot_in_flags s
  generalize hws : ([BitVec.ofNat 64 (source * 2 ^ 56 + kind * 2 ^ 54 + (s.lclock die).toNat), BitVec.ofNat 64 loc, BitVec.ofNat 64 (unit % 2 ^ 16),
    lseq] : List W64) = ws
  have hcount : ws.length = 4 := by rw [← hws]; rfl
  have hlen : (ofWords ws).length = 32 := by rw [ofWords_length, hcount]
  have hwritten : ∀ a k, (s.errorRecord source kind die loc unit lseq).homeRead a k =
      ({ s with mem := writeBytes s.mem (errorSlot s) (ofWords ws) } : State).homeRead a k := fun a k => by
    have hbytes := (s.systemBytes_inLine (pa := errorSlot s) (bs := ofWords ws) (by omega) (by omega)).trans (State.systemWrite_backing .normal hline)
    rw [toBytes_ofBytes] at hbytes
    have hread : (s.systemBytes (errorSlot s) (ofWords ws)).homeRead a k =
        ({ s with mem := writeBytes s.mem (errorSlot s) (ofWords ws) } : State).homeRead a k := by
      rw [hbytes, State.homeWritten_homeRead]
    rw [← hread, ← hws]
    rfl
  refine ⟨by rw [State.errorRecord_regs], fun i hi => ?_, fun a ha => ?_⟩
  · have hsame : lineOf (errorSlot s + 8 * i) = lineOf (errorSlot s) := by
      unfold lineOf
      omega
    have hidx : i < ws.length := by omega
    rw [hwritten, State.homeRead_backing (s := { s with mem := _ }) (by rw [hsame]; exact hline) (by omega),
      readBytes_writeBytes hwf _ _ (by omega), take_drop_ofWords ws hidx, ofBytes_toBytes, Nat.mod_eq_of_lt ws[i].isLt]
    simp [hidx]
  · rw [hwritten]
    have hbyte : readByte (writeBytes s.mem (errorSlot s) (ofWords ws)) a = readByte s.mem a := readByte_writeBytes_other hwf _ _ (by omega)
    by_cases hl : s.l2Line (lineOf a) = none
    · have hin : readBytes (writeBytes s.mem (errorSlot s) (ofWords ws)) a 1 = readBytes s.mem a 1 := by
        simp only [readBytes, List.range_one, List.map_cons, List.map_nil, Nat.add_zero, hbyte]
      exact (State.homeRead_backing (s := { s with mem := writeBytes s.mem (errorSlot s) (ofWords ws) }) hl (by omega)).trans
        ((congrArg ofBytes hin).trans (State.homeRead_backing hl (by omega)).symm)
    · obtain ⟨l, hl⟩ := Option.ne_none_iff_exists'.mp hl
      have hl' : ({ s with mem := writeBytes s.mem (errorSlot s) (ofWords ws) } : State).l2Line (lineOf a) = some l := hl
      simp only [State.homeRead, State.homeLine, hl, hl']

/-! ### Phase 3 with one line held -/

section
variable {s : State} {die : BitVec 3} {n b : Nat} {y : Line}

/-- With one line held, phase 3 is the die's new phase and the emptying of one bay. -/
theorem HoldsOne.exec_writeback (h : HoldsOne s n b y) (hu : Untraced s) (hp : (s.die die.toNat).phase = 2) (hn : n / 4 = die.toNat) (hb : b < 16) :
    HoldsOne (s.enterPhase die.toNat 3) n b y ∧ (∀ pa, (s.enterPhase die.toNat 3).cutOff (dieOf n) pa = s.cutOff (dieOf n) pa) ∧
      exec (.writeback die) s = .next ((s.enterPhase die.toNat 3).emptyBay (n, b)) := by
  have henters := State.enterPhase_enters hu die.toNat 3
  have hone : HoldsOne (s.enterPhase die.toNat 3) n b y := henters.linesKept.trans h
  refine ⟨hone, fun pa => henters.cutOff (by simp [State.isolated, hp]) _ pa, ?_⟩
  rw [Machine.exec_writeback hp, hone.emptyBays hb (fun q hq => (mem_dieBays.mp hq).2) (mem_dieBays.mpr ⟨hn, hb⟩)]

theorem HoldsOne.writeback_reaches_home (h : HoldsOne s n b y) (hu : Untraced s) (hp : (s.die die.toNat).phase = 2) (hn : n / 4 = die.toNat)
    (hb : b < 16) (hc : (homeOf (128 * y.line)).cached = true) (hopen : s.linkOpen (128 * y.line) = true)
    (hup : ∀ v ∈ s.downLinks, s.crosses v die.toNat (128 * y.line) false = false) :
    Happens s (.writeback die) fun t => ∀ j < 128, y.dirty.getLsbD j = true → t.homeRead (128 * y.line + j) 1 = y.get j 1 := by
  obtain ⟨hone, hcut, hexec⟩ := h.exec_writeback hu hp hn hb
  have hreach : s.cutOff (dieOf n) (128 * y.line) = false := by
    simpa [State.cutOff, dieOf, hn, hopen] using hup
  exact ⟨_, hexec, fun j hj hdirty => hone.homeRead_emptyBay ((hcut _).trans hreach) hc hj hdirty⟩

theorem HoldsOne.writeback_records_loss (h : HoldsOne s n b y) (hu : Untraced s) (hp : (s.die die.toNat).phase = 2) (hn : n / 4 = die.toNat)
    (hb : b < 16) (hdirty : y.dirty ≠ 0) (haddr : 128 * y.line < 2 ^ 64) (hroom : Roomy s (errorSlot s))
    (hlost : s.linkOpen (128 * y.line) = false ∨ ∃ v ∈ s.downLinks, s.crosses v die.toNat (128 * y.line) false = true) :
    Happens s (.writeback die) fun t =>
      ErrorRecorded s t [8 * 2 ^ 56 + 2 * 2 ^ 54 + (t.die die.toNat).lclock.toNat, 128 * y.line, n, 0] := by
  obtain ⟨hone, hcut, hexec⟩ := h.exec_writeback hu hp hn hb
  obtain ⟨-, -, hrest⟩ := State.enterPhase_enters hu die.toNat 3
  generalize s.enterPhase die.toNat 3 = u at hone hcut hexec hrest
  have hslot : errorSlot u = errorSlot s := by
    rw [hrest]
    rfl
  have hread : ∀ a k, u.homeRead a k = s.homeRead a k := fun a k => by
    rw [hrest]
    rfl
  have hroomy : Roomy u (errorSlot u) := by
    rw [hslot, hrest]
    exact hroom
  have hcutoff : s.cutOff (dieOf n) (128 * y.line) = true := by
    simpa [State.cutOff, dieOf, hn, or_comm] using hlost
  obtain ⟨htail, hrecord, hothers⟩ := State.errorRecord_recorded hroomy 8 2 (some (dieOf n)) (128 * y.line) n 0
  have hregs : u.regs = s.regs := by rw [hrest]
  have hclock : (u.errorRecord 8 2 (some (dieOf n)) (128 * y.line) n 0).die die.toNat = u.die die.toNat := by
    simp only [State.die, State.errorRecord_dies]
  have hwords : [BitVec.ofNat 64 (8 * 2 ^ 56 + 2 * 2 ^ 54 + (u.lclock (some (dieOf n))).toNat), BitVec.ofNat 64 (128 * y.line),
      BitVec.ofNat 64 (n % 2 ^ 16), (0 : W64)].map BitVec.toNat =
      [8 * 2 ^ 56 + 2 * 2 ^ 54 + (u.die die.toNat).lclock.toNat, 128 * y.line, n, 0] := by
    have hlt := (u.die die.toNat).lclock.isLt
    have hdie := die.isLt
    simp only [State.lclock, dieOf, hn, List.map_cons, List.map_nil, BitVec.toNat_ofNat]
    refine congrArg₂ _ (by omega) (congrArg₂ _ (by omega) (congrArg₂ _ (by omega) rfl))
  rw [hwords] at hrecord
  refine ⟨_, hexec.trans (congrArg _ (hone.emptyBay_lost ((hcut _).trans hcutoff) hdirty)), ?_, fun i hi => ?_, fun a ha => ?_⟩
  · exact htail.trans (by rw [hregs])
  · have hword := hrecord i hi
    rw [hslot] at hword
    exact hword.trans (by rw [← hclock]; rfl)
  · exact (hothers a (by rwa [hslot])).trans (hread a 1)

end

end Sys2Proof.Machine
end

section
/-! PROOFS. A die leaves every launch as its warm reset begins (for O53). -/

namespace Sys2Proof.Machine
open Sys2Proof.Safety

/-! ### What the loss of a die makes of a launch -/

theorem putBit_false_clear {w : Nat} (x : BitVec w) (i : Nat) : (putBit x i false).getLsbD i = false := by
  by_cases hi : i < w
  · rw [BitVec.getLsbD, putBit, testBit_putBits x _ hi le_rfl, if_pos ⟨le_rfl, le_rfl⟩]
    simp
  · exact BitVec.getLsbD_of_ge _ _ (Nat.not_lt.mp hi)

theorem Basin.deal_other {dies : List Nat} {d : Nat} (hne : dies ≠ []) (hd : d ∉ dies) (qs : List Queued) (b : Basin) (i : Nat) :
    tget (b.deal dies i qs).berths d = tget b.berths d := by
  induction qs generalizing b i with
  | nil => rfl
  | cons q qs ih =>
    have hlt := Nat.mod_lt i (List.length_pos_of_ne_nil hne)
    have hother : d ≠ dies.getD (i % dies.length) 0 := fun h => hd (by
      rw [h, List.getD_eq_getElem _ _ hlt]
      exact List.getElem_mem hlt)
    rw [Basin.deal, ih]
    exact tget_tput_other _ hother _

/-- No berth of a die is left in a launch that has emptied them. -/
theorem Launch.onDie_dropBerths (l : Launch) (d : Nat) : (l.dropBerths d).onDie d = [] := by
  have hgone (t : Tab (List Queued)) : tget (tdel t d) d = none := by rw [tget_tdel, if_pos rfl]
  unfold Launch.dropBerths Launch.onDie
  dsimp only
  split
  · simp [List.flatMap_map, tgetD, hgone]
  · rename_i hne
    have hdeal := fun qs b => Basin.deal_other (dies := l.usable.filter (· != d)) (d := d) (List.isEmpty_iff.not.mp hne) (by simp) qs b 0
    simp [List.flatMap_map, tgetD, hdeal, hgone]

theorem Launch.dropBerths_keeps (l : Launch) (d : Nat) :
    (l.dropBerths d).acc = l.acc ∧ (l.dropBerths d).dieset = l.dieset ∧ (l.dropBerths d).diegen = l.diegen := by
  unfold Launch.dropBerths
  dsimp only
  split
  · exact ⟨rfl, rfl, rfl⟩
  · exact ⟨rfl, rfl, rfl⟩

/-- A launch whose change of dies, where it is of this die, has ended. -/
def Launch.unchanging (ofThis : Bool) (y : Launch) : Launch := if ofThis then { y with change := none } else y

theorem Launch.unchanging_keeps (ofThis : Bool) (y : Launch) :
    (y.unchanging ofThis).acc = y.acc ∧ (y.unchanging ofThis).dieset = y.dieset ∧ (y.unchanging ofThis).diegen = y.diegen ∧
      (y.unchanging ofThis).basins = y.basins := by
  cases ofThis
  · exact ⟨rfl, rfl, rfl, rfl⟩
  · exact ⟨rfl, rfl, rfl, rfl⟩

/-- A launch that gives a die up. -/
def Launch.without (d now : Nat) (ofThis : Bool) (y : Launch) : Launch :=
  let y := ((y.due now).dropBerths d).unchanging ofThis
  let y := { y with dieset := putBit y.dieset d false }
  { y with waitAt := if y.dieset = 0 then some now else y.waitAt }

theorem Launch.without_keeps (d now : Nat) (ofThis : Bool) (y : Launch) :
    (y.without d now ofThis).acc = y.acc ∧ (y.without d now ofThis).dieset = putBit y.dieset d false ∧
      (y.without d now ofThis).diegen = y.diegen ∧ (y.without d now ofThis).onDie d = [] := by
  obtain ⟨hacc, hset, hgen⟩ := (y.due now).dropBerths_keeps d
  obtain ⟨hacc', hset', hgen', hbasins⟩ := ((y.due now).dropBerths d).unchanging_keeps ofThis
  refine ⟨hacc'.trans hacc, ?_, hgen'.trans hgen, ?_⟩
  · exact congrArg (putBit · d false) (hset'.trans hset)
  · exact (congrArg (List.flatMap fun b : Basin => tgetD b.berths d []) hbasins).trans ((y.due now).onDie_dropBerths d)

/-- `y` is what a launch `x` has become as die d left it; one that did not hold the die keeps its dies. -/
def LeftDie (d : Nat) (x y : Launch) : Prop :=
  (x.dieset.getLsbD d = true → y.dieset = putBit x.dieset d false ∧ y.diegen = x.diegen + 1 ∧ y.onDie d = []) ∧
  (x.dieset.getLsbD d = false → y.dieset = x.dieset ∧ y.diegen = x.diegen ∧ y.onDie d = x.onDie d)

theorem LeftDie.clear {d : Nat} {x y : Launch} (h : LeftDie d x y) : y.dieset.getLsbD d = false := by
  obtain ⟨hheld, hfree⟩ := h
  cases hx : x.dieset.getLsbD d with
  | true => rw [(hheld hx).1, putBit_false_clear]
  | false => rw [(hfree hx).1, hx]

theorem LeftDie.trans {d : Nat} {x y z : Launch} (h : LeftDie d x y) (k : LeftDie d y z) : LeftDie d x z := by
  obtain ⟨hset, hgen, hdie⟩ := k.2 h.clear
  obtain ⟨hheld, hfree⟩ := h
  refine ⟨fun hx => ?_, fun hx => ?_⟩
  · obtain ⟨hset', hgen', hdie'⟩ := hheld hx
    exact ⟨hset.trans hset', hgen.trans hgen', hdie.trans hdie'⟩
  · obtain ⟨hset', hgen', hdie'⟩ := hfree hx
    exact ⟨hset.trans hset', hgen.trans hgen', hdie.trans hdie'⟩

theorem LeftDie.relTrans {d : Nat} {x y z : Option Launch} (h : Option.Rel (LeftDie d) x y) (k : Option.Rel (LeftDie d) y z) :
    Option.Rel (LeftDie d) x z := by
  cases h with
  | none => exact k
  | some h => cases k with
    | some k => exact .some (h.trans k)

/-! ### Launches found -/

theorem State.launch?_acc {s : State} {k : Nat} {x : Launch} (h : s.launch? k = some x) : x.acc = k := by
  simpa using List.find?_some h

theorem State.launch?_modLaunch (s : State) (l k : Nat) {f : Launch → Launch} (hf : ∀ x, (f x).acc = x.acc) :
    (s.modLaunch l f).launch? k = if k = l then (s.launch? k).map f else s.launch? k := by
  have hacc : ∀ x : Launch, (if x.acc = l then f x else x).acc = x.acc := fun x => by
    split
    · exact hf x
    · rfl
  have hmap : (s.modLaunch l f).launch? k = (s.launch? k).map (fun x => if x.acc = l then f x else x) := by
    simp only [State.launch?, State.modLaunch, List.find?_map, Function.comp_def, hacc]
  rw [hmap]
  cases hx : s.launch? k with
  | none => simp
  | some x =>
    rw [Option.map_some, State.launch?_acc hx]
    split
    · rfl
    · rfl

/-! ### One launch loses the die -/

/-- What of a context's state a change of its launch's dies leaves alone. -/
def Ctx.running (c : Ctx) : Option Stop × Option Save × W64 × Tab W72 := (c.stop, c.save, c.pc, c.g)

/-- Memory, the registers, the dies but for their clocks, and what the contexts run are as they were. -/
structure Undisturbed (s t : State) : Prop where
  mem  : t.mem = s.mem
  regs : t.regs = s.regs
  dies : DiesKept s t
  ctxs : ∀ m, (tget t.ctxs m).map Ctx.running = (tget s.ctxs m).map Ctx.running

theorem Undisturbed.refl (s : State) : Undisturbed s s := ⟨rfl, rfl, .refl s, fun _ => rfl⟩

theorem Undisturbed.trans {s t u : State} (h : Undisturbed s t) (k : Undisturbed t u) : Undisturbed s u :=
  ⟨k.mem.trans h.mem, k.regs.trans h.regs, h.dies.trans k.dies, fun m => (k.ctxs m).trans (h.ctxs m)⟩

theorem State.tellDies_undisturbed (s : State) (ds : List Nat) : Undisturbed s (s.tellDies ds) := by
  have hrest := s.tellDies_rest ds
  refine ⟨?_, ?_, s.tellDies_dies ds, fun m => ?_⟩
  · rw [hrest]
  · rw [hrest]
  · rw [hrest]

theorem tget_map_snd {α : Type} (t : Tab α) (f : Nat × α → Nat × α) (hf : ∀ p, (f p).1 = p.1) (m : Nat) :
    tget (t.map f) m = (tget t m).map (fun x => (f (m, x)).2) := by
  induction t with
  | nil => rfl
  | cons p t ih =>
    obtain ⟨k, x⟩ := p
    have hk : f (k, x) = (k, (f (k, x)).2) := Prod.ext (hf (k, x)) rfl
    rw [List.map_cons, hk, tget, tget]
    split
    · rename_i hm
      rw [hm]
      rfl
    · exact ih

theorem State.releaseSteps_undisturbed (s : State) (l : Nat) (but : Option Nat) : Undisturbed s (s.releaseSteps l but) := by
  refine ⟨rfl, rfl, .of_dies rfl, fun m => ?_⟩
  rw [State.releaseSteps, tget_map_snd _ _ (fun p => by split <;> rfl), Option.map_map]
  refine congrArg (Option.map · (tget s.ctxs m)) (funext fun c => ?_)
  dsimp only [Function.comp_apply]
  split
  · rfl
  · rfl

/-- With no trace records, a launch's new die set is the launch changed, the mark on its commands, and messages. -/
theorem State.newDieset_untraced {s : State} (h : Untraced s) (l : Nat) (f : Launch → Launch) : ∃ cmds ds,
    s.newDieset l f = (({ s with cmds := cmds } : State).modLaunch l (fun x => { f x with diegen := (f x).diegen + 1 })).tellDies ds := by
  have htrace (cmds : List Cmd) (ds : List Nat) (x : Launch) :
      ((({ s with cmds := cmds } : State).modLaunch l (fun x => { f x with diegen := (f x).diegen + 1 })).tellDies ds).traceLaunch x 1
          x.diegen.toNat =
        (({ s with cmds := cmds } : State).modLaunch l (fun x => { f x with diegen := (f x).diegen + 1 })).tellDies ds := by
    refine State.trace_untraced (untraced_of_regs h ?_) _ (by decide) _ _ _ _
    rw [State.tellDies_rest]
    rfl
  unfold State.newDieset
  cases s.launch? l with
  | none =>
    dsimp only
    split
    · exact ⟨s.cmds, _, rfl⟩
    · exact ⟨s.cmds, _, htrace s.cmds _ _⟩
  | some x =>
    let marked := (s.noteLost l (x.dieset &&& ~~~(f x).dieset)).cmds
    dsimp only
    split
    · exact ⟨marked, _, rfl⟩
    · exact ⟨marked, _, htrace marked _ _⟩

/-- A launch that loses a die gives it up, or only ends its change of dies; its contexts in STEP may go on. -/
theorem State.loseDie_eq {s : State} {d l : Nat} {x : Launch} (h : s.launch? l = some x) : ∃ ofThis but,
    let u := if x.dieset.getLsbD d then s.newDieset l (Launch.without d s.now ofThis) else s.modLaunch l (Launch.unchanging ofThis)
    s.loseDie d l = u ∨ s.loseDie d l = u.releaseSteps l but := by
  unfold State.loseDie
  rw [h]
  dsimp only
  cases x.change with
  | none => exact ⟨false, none, .inl rfl⟩
  | some ch =>
    refine ⟨decide (ch.die = d), if !ch.add then some d else none, ?_⟩
    by_cases hd : decide (ch.die = d) = true
    · exact .inr (if_pos hd)
    · exact .inl (if_neg hd)

/-- Launch l has lost a die, and the other launches are as they were. -/
def LosesDie (d l : Nat) (s t : State) : Prop :=
  Undisturbed s t ∧ (∀ k, k ≠ l → t.launch? k = s.launch? k) ∧ Option.Rel (LeftDie d) (s.launch? l) (t.launch? l)

theorem State.newDieset_losesDie {s : State} (hu : Untraced s) {d l : Nat} {x : Launch} (hx : s.launch? l = some x)
    (hheld : x.dieset.getLsbD d = true) (ofThis : Bool) : LosesDie d l s (s.newDieset l (Launch.without d s.now ofThis)) := by
  obtain ⟨cmds, ds, hnew⟩ := State.newDieset_untraced hu l (Launch.without d s.now ofThis)
  have hfound (k : Nat) : (s.newDieset l (Launch.without d s.now ofThis)).launch? k = if k = l then
      (s.launch? k).map (fun x => { Launch.without d s.now ofThis x with diegen := (Launch.without d s.now ofThis x).diegen + 1 })
      else s.launch? k := by
    rw [hnew, State.tellDies_rest]
    exact State.launch?_modLaunch { s with cmds := cmds } l k fun x => (x.without_keeps d s.now ofThis).1
  refine ⟨?_, fun k hk => by rw [hfound, if_neg hk], ?_⟩
  · rw [hnew]
    refine .trans ?_ (State.tellDies_undisturbed _ _)
    exact ⟨rfl, rfl, .of_dies rfl, fun _ => rfl⟩
  · rw [hfound, if_pos rfl, hx]
    obtain ⟨-, hset, hgen, hdie⟩ := x.without_keeps d s.now ofThis
    exact .some ⟨fun _ => ⟨hset, congrArg (· + 1) hgen, hdie⟩, fun hfree => absurd (hheld.symm.trans hfree) (by decide)⟩

theorem State.unchanging_losesDie {s : State} {d l : Nat} {x : Launch} (hx : s.launch? l = some x) (hfree : x.dieset.getLsbD d = false)
    (ofThis : Bool) : LosesDie d l s (s.modLaunch l (Launch.unchanging ofThis)) := by
  have hfound (k : Nat) := State.launch?_modLaunch s l k fun x => (x.unchanging_keeps ofThis).1
  refine ⟨⟨rfl, rfl, .of_dies rfl, fun _ => rfl⟩, fun k hk => by rw [hfound, if_neg hk], ?_⟩
  rw [hfound, if_pos rfl, hx]
  obtain ⟨-, hset, hgen, hbasins⟩ := x.unchanging_keeps ofThis
  exact .some ⟨fun hheld => absurd (hheld.symm.trans hfree) (by decide), fun _ =>
    ⟨hset, hgen, congrArg (List.flatMap fun b : Basin => tgetD b.berths d []) hbasins⟩⟩

theorem State.loseDie_losesDie {s : State} (hu : Untraced s) (d l : Nat) : LosesDie d l s (s.loseDie d l) := by
  cases hx : s.launch? l with
  | none =>
    have hsame : s.loseDie d l = s := by rw [State.loseDie, hx]
    rw [hsame]
    exact ⟨.refl s, fun _ _ => rfl, hx ▸ .none⟩
  | some x =>
    obtain ⟨ofThis, but, heq⟩ := State.loseDie_eq (d := d) hx
    have hstep : LosesDie d l s (if x.dieset.getLsbD d then s.newDieset l (Launch.without d s.now ofThis)
        else s.modLaunch l (Launch.unchanging ofThis)) := by
      split
      · rename_i hheld
        exact State.newDieset_losesDie hu hx hheld ofThis
      · rename_i hfree
        exact State.unchanging_losesDie hx (Bool.eq_false_iff.mpr hfree) ofThis
    obtain heq | heq := heq
    · rw [heq]
      exact hstep
    · obtain ⟨hkept, hother, hleft⟩ := hstep
      rw [heq]
      exact ⟨hkept.trans (State.releaseSteps_undisturbed ..), hother, hleft⟩

/-- Launches lose a die one after another. -/
theorem State.loseDies_lose {s : State} (hu : Untraced s) (d : Nat) (ls : List Nat) : Undisturbed s (ls.foldl (fun s l => s.loseDie d l) s) ∧
    ∀ k, (k ∉ ls → (ls.foldl (fun s l => s.loseDie d l) s).launch? k = s.launch? k) ∧
      (k ∈ ls → Option.Rel (LeftDie d) (s.launch? k) ((ls.foldl (fun s l => s.loseDie d l) s).launch? k)) := by
  induction ls generalizing s with
  | nil => exact ⟨.refl s, fun k => ⟨fun _ => rfl, fun h => by simp at h⟩⟩
  | cons l ls ih =>
    obtain ⟨hkept, hother, hleft⟩ := State.loseDie_losesDie hu d l
    obtain ⟨hkept', hrest⟩ := ih (untraced_of_regs hu hkept.regs)
    refine ⟨hkept.trans hkept', fun k => ⟨fun hk => ?_, fun hk => ?_⟩⟩
    · obtain ⟨hkl, hk⟩ := not_or.mp (List.mem_cons.not.mp hk)
      exact ((hrest k).1 hk).trans (hother k hkl)
    · by_cases hkl : k = l
      · subst hkl
        by_cases hin : k ∈ ls
        · exact LeftDie.relTrans hleft ((hrest k).2 hin)
        · exact ((hrest k).1 hin).symm ▸ hleft
      · have hin := (List.mem_cons.mp hk).resolve_left hkl
        exact hother k hkl ▸ (hrest k).2 hin

end Sys2Proof.Machine
end

section
/-! PROOFS. The contexts of a die are asked to save, or end, as its warm reset begins (for O53). -/

namespace Sys2Proof.Machine
open Sys2Proof.Safety

/-! ### Saves asked for -/

/-- A context that runs, and of which no save has been taken. -/
def Unsaved (c : Ctx) : Prop := Running c ∧ ∀ w u, c.save ≠ some ⟨w, some u⟩

/-- The same context with its save asked for by the reset. -/
def Ctx.toSave (c : Ctx) : Ctx := { c with save := some ⟨.reset, none⟩ }

/-- A request to save writes the context again after a message to its die, or finds nothing to ask. -/
theorem State.requestSave_reset (s : State) (n slot : Nat) : s.requestSave n slot .reset = s ∨
    ∃ c moves, s.requestSave n slot .reset = { (s.tellDies [dieOf n]).setCtx n slot c with moves := moves } := by
  unfold State.requestSave
  dsimp only
  split
  · exact .inl rfl
  · split
    · exact .inl rfl
    · split
      · exact .inr ⟨_, _, rfl⟩
      · exact .inr ⟨_, _, rfl⟩
      · exact .inr ⟨_, _, rfl⟩
      · exact .inl rfl

theorem State.requestSave_asks {s : State} {n slot : Nat} {c : Ctx} (hc : s.ctx? n slot = some c) (h : Unsaved c) :
    (s.requestSave n slot .reset).ctxs = tput s.ctxs (ctxKey n slot) c.toSave := by
  obtain ⟨hrun, hsave⟩ := h
  have hput : ({ (s.tellDies [dieOf n]).setCtx n slot c.toSave with moves := s.moves.filter (fun m => m.1 != c.uid) } : State).ctxs =
      tput s.ctxs (ctxKey n slot) c.toSave := by
    rw [State.tellDies_rest]
    rfl
  unfold State.requestSave
  rw [hc]
  dsimp only
  rw [if_neg (by simp [show c.stop = none from hrun])]
  split
  · exact hput
  · exact hput
  · rename_i hs
    exact absurd hs (hsave _ _)
  · rename_i hs
    exact absurd hs (hsave _ _)

theorem State.requestSave_others (s : State) (n slot : Nat) {k : Nat} (hk : k ≠ ctxKey n slot) :
    tget (s.requestSave n slot .reset).ctxs k = tget s.ctxs k := by
  obtain heq | ⟨c, moves, heq⟩ := s.requestSave_reset n slot
  · rw [heq]
  · rw [heq, State.tellDies_rest]
    exact tget_tput_other _ hk _

theorem State.requestSave_keeps (s : State) (n slot : Nat) : (s.requestSave n slot .reset).launches = s.launches ∧
    DiesKept s (s.requestSave n slot .reset) := by
  obtain heq | ⟨c, moves, heq⟩ := s.requestSave_reset n slot
  · rw [heq]
    exact ⟨rfl, .refl s⟩
  · rw [heq]
    refine ⟨?_, s.tellDies_dies [dieOf n]⟩
    rw [State.tellDies_rest]
    rfl

/-- Every listed context asked to save. -/
def State.saveAll (s : State) (ps : List (Nat × Nat × Ctx)) : State := ps.foldl (fun s p => s.requestSave p.1 p.2.1 .reset) s

theorem State.saveAll_keeps (s : State) (ps : List (Nat × Nat × Ctx)) : (s.saveAll ps).mem = s.mem ∧ (s.saveAll ps).launches = s.launches ∧
    DiesKept s (s.saveAll ps) := by
  unfold State.saveAll
  induction ps generalizing s with
  | nil => exact ⟨rfl, rfl, .refl s⟩
  | cons p ps ih =>
    obtain ⟨hmem, hlaunches, hdies⟩ := ih (s.requestSave p.1 p.2.1 .reset)
    obtain ⟨hlaunches', hdies'⟩ := s.requestSave_keeps p.1 p.2.1
    exact ⟨hmem.trans (State.requestSave_mem ..), hlaunches.trans hlaunches', hdies'.trans hdies⟩

theorem State.saveAll_asks {s : State} {ps : List (Nat × Nat × Ctx)} {m : Nat} {c : Ctx} (hc : tget s.ctxs m = some c) (h : Unsaved c)
    (hasked : c.toSave = c ∨ ∃ p ∈ ps, ctxKey p.1 p.2.1 = m) : tget (s.saveAll ps).ctxs m = some c.toSave := by
  unfold State.saveAll
  induction ps generalizing s c with
  | nil => simpa [hc, eq_comm] using hasked
  | cons p ps ih =>
    by_cases hp : ctxKey p.1 p.2.1 = m
    · subst hp
      refine ih (c := c.toSave) ?_ ⟨h.1, by simp [Ctx.toSave]⟩ (.inl rfl)
      rw [State.requestSave_asks hc h, tget_tput_same]
    · refine ih ((State.requestSave_others s _ _ (Ne.symm hp)).trans hc) h (hasked.imp_right fun ⟨q, hq, hm⟩ => ⟨q, ?_, hm⟩)
      exact (List.mem_cons.mp hq).resolve_left fun heq => hp (heq ▸ hm)

/-! ### The reset begins -/

/-- A die as its reset begins by the host's write. -/
def Die.begun (e : Die) (now : Nat) (auto mode : Bool) : Die :=
  { e with auto := auto, mode := mode, admitted := false, count := e.count + 1, cause := 1, result := 0, phase := 1, since := now }

/-- The state as its die enters phase 1, before it leaves the launches. -/
def State.resetBegun (s : State) (d : Nat) (auto mode : Bool) : State :=
  let v := { s.die d with auto := auto, mode := mode }
  ((s.setDie d v).setDie d { v with admitted := false, count := v.count + 1, cause := 1, result := 0 }).enterPhase d 1

theorem State.resetBegun_enters {s : State} (hu : Untraced s) (d : Nat) (auto mode : Bool) :
    Enters s d ((s.die d).begun s.now auto mode) (s.resetBegun d auto mode) := by
  have hset (t : State) (v : Die) : (t.setDie d v).die d = v := (State.die_setDie ..).trans (if_pos rfl)
  have hother (t : State) (v : Die) {k : Nat} (hk : k ≠ d) : (t.setDie d v).die k = t.die k := (State.die_setDie ..).trans (if_neg hk)
  obtain ⟨hd, hk, hrest⟩ := State.enterPhase_enters (s := (s.setDie d { s.die d with auto := auto, mode := mode }).setDie d
    { s.die d with auto := auto, mode := mode, admitted := false, count := (s.die d).count + 1, cause := 1, result := 0 }) hu d 1
  rw [hset] at hd
  exact ⟨hd, fun k hne => (hk k hne).trans ((hother _ _ hne).trans (hother _ _ hne)), hrest⟩

/-- The state with the die out of every launch. -/
def State.resetLeft (s : State) (d : Nat) (auto mode : Bool) : State :=
  ((s.resetBegun d auto mode).launches.map (fun l => l.acc)).foldl (fun s l => s.loseDie d l) (s.resetBegun d auto mode)

theorem State.startReset_go (s : State) (d : Nat) (auto mode : Bool) :
    (s.setDie d { s.die d with auto := auto, mode := mode }).startReset d mode 1 =
      if mode = true then (s.resetLeft d auto mode).stopAll { cls := 0x32 } ((s.resetLeft d auto mode).ctxsOn d)
      else (s.resetLeft d auto mode).saveAll ((s.resetLeft d auto mode).ctxsOn d) := by
  have hset (v : Die) : (s.setDie d v).die d = v := (State.die_setDie ..).trans (if_pos rfl)
  unfold State.startReset
  dsimp only
  rw [hset]
  cases mode
  · rfl
  · rfl

theorem execWarmReset_go {s : State} {die : BitVec 3} {x : W64} (hx : x.getLsbD 0 = true) (hp : (s.die die.toNat).phase = 0) :
    exec (.warmReset die x) s =
      .next (if x.getLsbD 2 = true then (s.resetLeft die.toNat (x.getLsbD 3) (x.getLsbD 2)).stopAll { cls := 0x32 }
          ((s.resetLeft die.toNat (x.getLsbD 3) (x.getLsbD 2)).ctxsOn die.toNat)
        else (s.resetLeft die.toNat (x.getLsbD 3) (x.getLsbD 2)).saveAll ((s.resetLeft die.toNat (x.getLsbD 3) (x.getLsbD 2)).ctxsOn die.toNat)) := by
  show execWarmReset die x s = _
  rw [← State.startReset_go, execWarmReset, if_neg (by simp [hp])]
  exact congrArg Host.Outcome.next (if_pos hx)

/-- What the die's leaving has done before its contexts are asked to save or end. -/
theorem State.resetLeft_effect {s : State} (hu : Untraced s) (d : Nat) (auto mode : Bool) :
    Undisturbed (s.resetBegun d auto mode) (s.resetLeft d auto mode) ∧
      ∀ k, Option.Rel (LeftDie d) (s.launch? k) ((s.resetLeft d auto mode).launch? k) := by
  have henters := State.resetBegun_enters hu d auto mode
  have hlaunches : (s.resetBegun d auto mode).launches = s.launches := by
    obtain ⟨-, -, hrest⟩ := henters
    rw [hrest]
  obtain ⟨hkept, hleft⟩ := State.loseDies_lose (untraced_of_regs hu henters.regs) d ((s.resetBegun d auto mode).launches.map (fun l => l.acc))
  have hfound (k : Nat) : (s.resetBegun d auto mode).launch? k = s.launch? k := by rw [State.launch?, hlaunches, State.launch?]
  refine ⟨hkept, fun k => ?_⟩
  obtain ⟨hout, hin⟩ := hleft k
  rw [hfound] at hout hin
  by_cases hk : k ∈ (s.resetBegun d auto mode).launches.map (fun l => l.acc)
  · exact hin hk
  · have hnone : s.launch? k = none := by
      rw [hlaunches] at hk
      exact List.find?_eq_none.mpr fun x hx hacc => hk (List.mem_map.mpr ⟨x, hx, by simpa using hacc⟩)
    have hnone' : (s.resetLeft d auto mode).launch? k = none := (hout hk).trans hnone
    rw [hnone, hnone']
    exact .none

/-- The reset's start beyond its die's contexts. -/
def GoneOut (s : State) (d : Nat) (v : Die) (t : State) : Prop :=
  t.die d = { v with lclock := (t.die d).lclock } ∧ (∀ k, k ≠ d → t.die k = { s.die k with lclock := (t.die k).lclock }) ∧ t.mem = s.mem ∧
    ∀ k, Option.Rel (LeftDie d) (s.launch? k) (t.launch? k)

theorem State.resetLeft_goneOut {s : State} (hu : Untraced s) (d : Nat) (auto mode : Bool) {t : State}
    (hmem : t.mem = (s.resetLeft d auto mode).mem) (hlaunches : t.launches = (s.resetLeft d auto mode).launches)
    (hdies : DiesKept (s.resetLeft d auto mode) t) :
    GoneOut s d ((s.die d).begun s.now auto mode) t := by
  obtain ⟨hkept, hleft⟩ := State.resetLeft_effect hu d auto mode
  obtain ⟨hd, hother, hrest⟩ := State.resetBegun_enters hu d auto mode
  have hall := hkept.dies.trans hdies
  refine ⟨hall.die_eq hd, fun k hk => hall.die_eq (by rw [hother k hk]), ?_, fun k => ?_⟩
  · rw [hmem, hkept.mem, hrest]
  · have hfound : t.launch? k = (s.resetLeft d auto mode).launch? k := by simp only [State.launch?, hlaunches]
    rw [hfound]
    exact hleft k

theorem GoneOut.clear {s t : State} {d k : Nat} {v : Die} (h : GoneOut s d v t) {y : Launch} (hy : t.launch? k = some y) :
    y.dieset.getLsbD d = false := by
  obtain ⟨-, -, -, hleft⟩ := h
  have hk := hleft k
  rw [hy] at hk
  generalize s.launch? k = o at hk
  cases hk with
  | some hxy => exact hxy.clear

theorem GoneOut.left {s t : State} {d k : Nat} {v : Die} (h : GoneOut s d v t) {x : Launch} (hx : s.launch? k = some x)
    (hheld : x.dieset.getLsbD d = true) :
    ∃ y, t.launch? k = some y ∧ y.dieset = putBit x.dieset d false ∧ y.diegen = x.diegen + 1 ∧ y.onDie d = [] := by
  obtain ⟨-, -, -, hleft⟩ := h
  have hk := hleft k
  rw [hx] at hk
  generalize t.launch? k = o at hk
  cases hk with
  | some hxy => exact ⟨_, rfl, hxy.1 hheld⟩

theorem State.stopAll_asked (s : State) (d : Nat) (w : Why) {m : Nat} {c : Ctx} (hc : tget (s.stopAll w (s.ctxsOn d)).ctxs m = some c)
    (hm : m / 32 = d) : c.stop ≠ none := by
  refine State.stopAll_stops s w ?_ c hc
  cases hs : tget s.ctxs m with
  | none => exact .inl fun x hx => by simp [hs] at hx
  | some x => exact .inr ⟨_, State.mem_ctxsOn_of_tget hs hm, Nat.div_add_mod m 8⟩

theorem State.resetLeft_saves {s : State} (hu : Untraced s) (d : Nat) (auto mode : Bool) {m : Nat} {c : Ctx} (hc : tget s.ctxs m = some c)
    (hm : m / 32 = d) (h : Unsaved c) :
    ∃ c', tget ((s.resetLeft d auto mode).saveAll ((s.resetLeft d auto mode).ctxsOn d)).ctxs m = some c' ∧ c'.save = some ⟨.reset, none⟩ ∧
      c'.pc = c.pc ∧ c'.g = c.g := by
  obtain ⟨hkept, -⟩ := State.resetLeft_effect hu d auto mode
  obtain ⟨-, -, hrest⟩ := State.resetBegun_enters hu d auto mode
  have hctxs : (s.resetBegun d auto mode).ctxs = s.ctxs := by rw [hrest]
  have hsame := hkept.ctxs m
  rw [hctxs, hc, Option.map_some, Option.map_eq_some_iff] at hsame
  obtain ⟨c', hc', hrun⟩ := hsame
  simp only [Ctx.running, Prod.mk.injEq] at hrun
  obtain ⟨hstop, hsave, hpc, hg⟩ := hrun
  have hunsaved : Unsaved c' := ⟨hstop.trans h.1, fun w u => hsave ▸ h.2 w u⟩
  exact ⟨c'.toSave, State.saveAll_asks hc' hunsaved (.inr ⟨_, State.mem_ctxsOn_of_tget hc' hm, Nat.div_add_mod m 8⟩), rfl, hpc, hg⟩

/-- GO: the die leaves every launch, and its contexts end or are asked to save. -/
theorem execWarmReset_starts {s : State} {die : BitVec 3} {x : W64} (hu : Untraced s) (hx : x.getLsbD 0 = true) (hp : (s.die die.toNat).phase = 0) :
    Happens s (.warmReset die x) fun t =>
      GoneOut s die.toNat ((s.die die.toNat).begun s.now (x.getLsbD 3) (x.getLsbD 2)) t ∧
      (x.getLsbD 2 = true → ∀ m c, tget t.ctxs m = some c → m / 32 = die.toNat → c.stop ≠ none) ∧
      (x.getLsbD 2 = false → ∀ m c, tget s.ctxs m = some c → m / 32 = die.toNat → Running c → (∀ w u, c.save ≠ some ⟨w, some u⟩) →
        ∃ c', tget t.ctxs m = some c' ∧ c'.save = some ⟨.reset, none⟩ ∧ c'.pc = c.pc ∧ c'.g = c.g) := by
  refine ⟨_, execWarmReset_go hx hp, ?_⟩
  cases hmode : x.getLsbD 2 with
  | true =>
    have hstop := State.stopAll_rest (s.resetLeft die.toNat (x.getLsbD 3) true) { cls := 0x32 }
      ((s.resetLeft die.toNat (x.getLsbD 3) true).ctxsOn die.toNat)
    rw [if_pos rfl]
    refine ⟨State.resetLeft_goneOut hu _ _ _ ?_ ?_ (.of_dies ?_), fun _ m c => State.stopAll_asked _ _ _, nofun⟩
    · rw [hstop]
    · rw [hstop]
    · rw [hstop]
  | false =>
    obtain ⟨hmem, hlaunches, hdies⟩ := State.saveAll_keeps (s.resetLeft die.toNat (x.getLsbD 3) false)
      ((s.resetLeft die.toNat (x.getLsbD 3) false).ctxsOn die.toNat)
    rw [if_neg Bool.false_ne_true]
    refine ⟨State.resetLeft_goneOut hu _ _ _ hmem hlaunches hdies, nofun, fun _ m c hc hm hrun hsave => ?_⟩
    exact State.resetLeft_saves hu _ _ _ hc hm ⟨hrun, hsave⟩

end Sys2Proof.Machine
end

section
/-! PROOFS. The phases of a warm reset together (O53). -/

namespace Sys2Proof.Machine
open Sys2Proof.Safety

section
variable {s : State} {die : BitVec 3}

theorem execWriteback_waits (h : (s.die die.toNat).phase ≠ 2) : Happens s (.writeback die) fun t => t = s :=
  ⟨s, if_pos (by simpa using h), rfl⟩

theorem execIsolate_waits (h : (s.die die.toNat).phase ≠ 3) : Happens s (.isolate die) fun t => t = s :=
  ⟨s, if_pos (by simpa using h), rfl⟩

theorem execRetrain_waits (ok : Bool) (h : (s.die die.toNat).phase ≠ 4) : Happens s (.retrain die ok) fun t => t = s :=
  ⟨s, if_pos (by simpa using h), rfl⟩

theorem execTest_waits (failed : BitVec 4) (h : (s.die die.toNat).phase ≠ 5) : Happens s (.test die failed) fun t => t = s :=
  ⟨s, if_pos (by simpa using h), rfl⟩

theorem execReadmit_waits (h : (s.die die.toNat).phase ≠ 6) : Happens s (.readmit die) fun t => t = s :=
  ⟨s, if_pos (by simpa using h), rfl⟩

end

/-- Settles O53, phase by phase: each clause is the lemma of its instruction. -/
theorem warmResetPassesThroughItsPhases : Obligations.WarmResetPassesThroughItsPhases := by
  intro s die x ok failed l y n b d e keeps enters entered hu
  refine ⟨execWarmReset_busy, execWarmReset_fields, fun hx hp => ?_, execResetStopLimit_waits, execResetStopLimit_ends, execQuiesce_waits,
    execQuiesce_quiet hu, execWriteback_waits, fun hp => ⟨execWriteback_drops hu hp, ?_, ?_⟩, execIsolate_waits, execIsolate_enters hu,
    execRetrain_waits ok, fun hp => ⟨execRetrain_passes hu hp, execRetrain_fails hu hp⟩, execTest_waits failed,
    fun hp => ⟨execTest_passes hu hp, fun hf => execTest_fails hu hp hf⟩, execReadmit_waits, execReadmit_enters hu⟩
  · obtain ⟨t, hexec, hout, hstop, hsave⟩ := execWarmReset_starts hu hx hp
    obtain ⟨hd, hother, hmem, -⟩ := id hout
    exact ⟨t, hexec, hd, hother, hmem, fun m v => hout.clear, hout.left, hstop, hsave⟩
  · intro hn hb hone hc _ hopen hup _
    exact HoldsOne.writeback_reaches_home hone hu hp hn hb hc hopen hup
  · intro hn hb hone hdirty haddr hroom hlost
    exact HoldsOne.writeback_records_loss hone hu hp hn hb hdirty haddr hroom hlost

end Sys2Proof.Machine
end

section
/-! PROOFS. A move that the front die orders is a message (R128, R296), which refutes O40. -/

namespace Sys2Proof.Machine
open Sys2Proof.Safety

/-- A request for a save that no other stands before is the front die's message to the context's die, unless it makes way for a level-7
candidate (R296, R371). -/
theorem State.requestSave_dies {s : State} {n slot : Nat} {c : Ctx} {w : SaveWhy} (hc : s.ctx? n slot = some c) (hrun : Running c)
    (hsave : c.save = none) (hw : w ≠ .level7) : (s.requestSave n slot w).dies = (s.message none (some (dieOf n))).dies := by
  have hstop : c.stop = none := hrun
  simp only [State.requestSave, hc, hstop, hsave, hw, if_false, Option.isSome_none, Bool.false_eq_true, State.tellDies_one]
  rfl

/-! ### The waiting context that refutes O40 -/

/-- A context that holds bay 0 and has arrived at a barrier of its die, which has not released it. -/
def arrivedCtx : Ctx :=
  { Ctx.start 0 (placedLaunch 0) ⟨placedBarge, 0, 0, 0, none, false, none⟩ ⟨0, 1, 1, 1, 65536⟩ [0] 0 with
    status := .blocked, wait := .barDie 0 true false }

/-- The power-on state, but with that context in slot 0 of cluster 0: every other slot and bay of die 0 is free, and every logical counter is 0. -/
def arrivedAlone : State := { State.reset with ctxs := [(0, arrivedCtx)] }

/-- The front die moves it to slot 0 and bay 0 of cluster 1, and for that asks for its save. -/
theorem exec_hotspotMigration_arrivedAlone : exec (.hotspotMigration 0 0) arrivedAlone =
    .next { arrivedAlone.requestSave 0 0 (.migrate 1 0) with moves := [(0, 8, 1)] } := by
  rfl

/-- Asking has set the counter of the context's die, which heard the front die. -/
theorem lclock_arrivedAlone_requestSave : (arrivedAlone.requestSave 0 0 (.migrate 1 0)).lclock (some 0) = 1 := by
  have hdies := State.requestSave_dies (s := arrivedAlone) (n := 0) (slot := 0) (c := arrivedCtx) (w := .migrate 1 0) rfl rfl rfl nofun
  rw [State.lclock, State.die, hdies]
  rfl

/-- Refutes O40: its clause on HOTSPOT_MIGRATION says that moving a context changes the contexts and the moves alone. In `arrivedAlone` a context waits
at a barrier of die 0 and cluster 1 can take it; the save that the front die asks for is a message to die 0 (R296), whose logical counter goes from 0
to 1. -/
theorem not_contextsFormRunAndMove : ¬ Obligations.ContextsFormRunAndMove := by
  unfold Obligations.ContextsFormRunAndMove
  intro h
  obtain ⟨-, -, -, -, -, -, moves⟩ := h arrivedAlone 0 0 arrivedCtx (placedLaunch 0) ⟨placedBarge, 0, 0, 0, none, false, none⟩
    ⟨0, 1, 1, 1, 65536⟩ 0 [1, 2, 3, 4, 5, 6, 7]
  obtain ⟨t, hexec, -, hrest, -⟩ := moves 1 rfl rfl rfl rfl (by decide) (by decide) (by decide) (by decide) rfl (by decide) rfl (by decide)
    (by decide) (by decide) (by decide)
  have ht := Host.Outcome.next.inj (exec_hotspotMigration_arrivedAlone.symm.trans hexec)
  have hkept : t.lclock (some 0) = 0 := by rw [hrest]; rfl
  have htold : t.lclock (some 0) = 1 := by rw [← ht]; exact lclock_arrivedAlone_requestSave
  exact absurd (hkept.symm.trans htold) (by decide)

end Sys2Proof.Machine
end

section
/-! PROOFS. The words of a record that the device writes into one line, as they are read back (for O51). -/

namespace Sys2Proof.Machine
open Sys2Proof.Safety

/-! ### Bytes put into a line -/

/-- Bytes put into a line read as they were put. -/
theorem Line.get_put_inside (l : Line) {off n k m : Nat} (x : Nat) (dirty : Bool) (hfits : off + n ≤ 128) (hin : k + m ≤ n) :
    (l.put off n x dirty).get (off + k) m = x / 2 ^ (8 * k) % 2 ^ (8 * m) := by
  refine Nat.eq_of_testBit_eq fun i => ?_
  rw [Line.testBit_get, Nat.testBit_mod_two_pow, Nat.testBit_div_two_pow]
  by_cases hi : i < 8 * m
  · have hput : (l.put off n x dirty).data.toNat.testBit (8 * (off + k) + i) = x.testBit (8 * (off + k) + i - 8 * off) :=
      (testBit_putBits l.data x (by omega) (by omega) _).trans (if_pos (by omega))
    rw [hput, show 8 * (off + k) + i - 8 * off = i + 8 * k by omega]
  · simp [hi]

/-- Acting line by line on bytes that lie in one line is acting once. -/
theorem State.byLine_inLine (s : State) (f : State → Nat → Nat → Nat → State) {pa : Nat} {bs : List Byte} (h : InLine pa bs.length) :
    s.byLine f pa bs = f s pa bs.length (ofBytes bs) := by
  obtain ⟨hpos, hfits⟩ := h
  have hlines : linesOf pa bs.length = [pa / 128] := by
    have hspan : (pa + bs.length - 1) / 128 - pa / 128 + 1 = 1 := by omega
    rw [linesOf, if_neg (by omega), lineOf, lineOf, hspan]
    simp
  have hlo : max pa (128 * (pa / 128)) = pa := by omega
  have hlen : min (pa + bs.length) (128 * (pa / 128) + 128) - pa = bs.length := by omega
  rw [State.byLine, hlines, List.foldl_cons, List.foldl_nil]
  dsimp only
  rw [hlo, hlen, Nat.sub_self, List.drop_zero, List.take_length]

/-! ### What a write at a home leaves there -/

/-- A part of what is written at a home reads as written, in a slice or in memory. -/
theorem State.homeRead_homeWrite {s : State} {pa : Nat} {bs : List Byte} (hroom : Roomy s pa) (hline : InLine pa bs.length) {k m : Nat} (hm : 0 < m)
    (hin : k + m ≤ bs.length) (h : Hint) :
    (s.homeWrite pa bs.length (ofBytes bs) h).homeRead (pa + k) m = ofBytes ((bs.drop k).take m) := by
  obtain ⟨hroom, hwf⟩ := hroom
  obtain ⟨hpos, hfits⟩ := hline
  rw [State.homeWrite, State.homeWritten_homeRead]
  by_cases hc : (homeOf pa).cached = true
  · have hpa : pa + k = 128 * lineOf pa + (pa % 128 + k) := by unfold lineOf; omega
    have hput := State.homeRead_l2Put s ((s.homeLine (lineOf pa)).put (pa % 128) bs.length (ofBytes bs) true) h
      (j := pa % 128 + k) (by omega) m
    have hnum : ((s.homeLine (lineOf pa)).put (pa % 128) bs.length (ofBytes bs) true).line = lineOf pa := s.homeLine_line _
    rw [hnum, Line.get_put_inside _ _ _ hfits hin, ofBytes_div, ofBytes_mod] at hput
    rw [if_pos hc, hpa, hput]
  · rw [if_neg hc] at hroom ⊢
    have hsame : lineOf (pa + k) = lineOf pa := by unfold lineOf; omega
    rw [State.homeRead_backing (s := { s with mem := _ }) (by rw [hsame]; exact hroom) (by omega), toBytes_ofBytes,
      readBytes_writeBytes hwf _ _ hin]

/-- Words that the device writes into one line stand there, one after another. -/
theorem State.homeRead_deviceBytes {s : State} {pa : Nat} {ws : List W64} (hroom : Roomy s pa) (hline : InLine pa (8 * ws.length)) {i v : Nat}
    (hi : (ws.map BitVec.toNat)[i]? = some v) : (s.deviceBytes pa (ofWords ws)).homeRead (pa + 8 * i) 8 = v := by
  rw [List.getElem?_map] at hi
  obtain ⟨w, hw, rfl⟩ := Option.map_eq_some_iff.mp hi
  obtain ⟨hlt, rfl⟩ := List.getElem?_eq_some_iff.mp hw
  have hlen := ofWords_length ws
  rw [← hlen] at hline
  rw [State.deviceBytes, State.byLine_inLine _ _ hline, State.homeRead_homeWrite hroom hline (by decide) (by omega), take_drop_ofWords ws hlt, ofBytes_toBytes,
    Nat.mod_eq_of_lt ws[i].isLt]

end Sys2Proof.Machine
end

section
/-! PROOFS. What writes to storage leave of launches and commands, where no watchpoint is set (for O51). -/

namespace Sys2Proof.Machine
open Sys2Proof.Safety

/-! ### Writes that push nothing -/

/-- Where no watchpoint is set, `t` differs from `s` at most in storage, clocks and handles, in what its contexts wait for, and in the commands that
frames have been given: no launch and no command has changed, and no context and no frame has come or gone. -/
structure LaunchesKept (s t : State) : Prop where
  kept : s.watches = [] → ∃ mem l2 bayLines uniLines dies lclockF ctxs frames handles,
    t = { s with mem := mem, l2 := l2, bayLines := bayLines, uniLines := uniLines, dies := dies, lclockF := lclockF, ctxs := ctxs, frames := frames,
                 handles := handles } ∧
      ctxs.map Prod.fst = s.ctxs.map Prod.fst ∧ frames.map Prod.fst = s.frames.map Prod.fst

theorem LaunchesKept.of_storage {s t : State} (h : ∃ mem l2 bayLines uniLines dies lclockF handles, t =
    { s with mem := mem, l2 := l2, bayLines := bayLines, uniLines := uniLines, dies := dies, lclockF := lclockF, handles := handles }) :
    LaunchesKept s t := by
  obtain ⟨_, _, _, _, _, _, _, rfl⟩ := h
  exact ⟨fun _ => ⟨_, _, _, _, _, _, _, _, _, rfl, rfl, rfl⟩⟩

theorem LaunchesKept.refl (s : State) : LaunchesKept s s := .of_storage ⟨_, _, _, _, _, _, _, rfl⟩

theorem LaunchesKept.trans {s t u : State} (h : LaunchesKept s t) (k : LaunchesKept t u) : LaunchesKept s u := ⟨fun hw => by
  obtain ⟨_, _, _, _, _, _, _, _, _, rfl, hctxs, hframes⟩ := h.kept hw
  obtain ⟨_, _, _, _, _, _, _, _, _, rfl, hctxs', hframes'⟩ := k.kept hw
  exact ⟨_, _, _, _, _, _, _, _, _, rfl, hctxs'.trans hctxs, hframes'.trans hframes⟩⟩

theorem LaunchesKept.foldl {α : Type} (f : State → α → State) (hf : ∀ s x, LaunchesKept s (f s x)) (xs : List α) (s : State) :
    LaunchesKept s (xs.foldl f s) := by
  induction xs generalizing s with
  | nil => exact .refl s
  | cons x xs ih => exact (hf s x).trans (ih (f s x))

theorem State.homeWritten_launchesKept (s : State) (pa n : Nat) : LaunchesKept s (s.homeWritten pa n) := ⟨fun hw => by
  have hfired : (s.fireMonitors (lineOf pa)).watches = [] := hw
  rw [State.homeWritten]
  rw [hfired]
  refine ⟨_, _, _, _, _, _, _, _, _, rfl, ?_, ?_⟩
  · simp only [List.map_nil, List.foldl_nil, State.fireMonitors, List.map_map]
    refine List.map_congr_left fun p _ => ?_
    rw [Function.comp_apply]
    split <;> rfl
  · simp [State.fireMonitors]⟩

theorem State.l2Put_launchesKept (s : State) (l : Line) (h : Hint) : LaunchesKept s (s.l2Put l h) := by
  unfold State.l2Put
  dsimp only
  split <;> exact .of_storage ⟨_, _, _, _, _, _, _, rfl⟩

theorem State.homeWrite_launchesKept (s : State) (pa n x : Nat) (h : Hint) : LaunchesKept s (s.homeWrite pa n x h) := by
  rw [State.homeWrite]
  refine LaunchesKept.trans ?_ (State.homeWritten_launchesKept _ pa n)
  split
  · exact State.l2Put_launchesKept ..
  · exact .of_storage ⟨_, _, _, _, _, _, _, rfl⟩

theorem State.deviceBytes_launchesKept (s : State) (pa : Nat) (bs : List Byte) : LaunchesKept s (s.deviceBytes pa bs) :=
  .foldl _ (fun _ _ => State.homeWrite_launchesKept ..) _ _

/-! ### Opening a handle (R101) -/

theorem State.carryLine_launchesKept (s : State) (l : Line) : LaunchesKept s (s.carryLine l) := by
  unfold State.carryLine
  dsimp only
  split
  · exact .refl s
  · refine LaunchesKept.trans (t := if (homeOf (128 * l.line)).cached then _ else _) ?_
      (.foldl _ (fun _ _ => State.homeWritten_launchesKept ..) _ _)
    split
    · exact State.l2Put_launchesKept ..
    · exact .of_storage ⟨_, _, _, _, _, _, _, rfl⟩

theorem State.reach_launchesKept (s : State) (die pa : Nat) : LaunchesKept s (s.reach die pa) :=
  .of_storage ⟨_, _, _, _, _, _, _, State.reach_rest s die pa⟩

theorem State.bayClean_launchesKept (s : State) (n b line : Nat) : LaunchesKept s (s.bayClean n b line) := by
  have hcarry : ∀ (die : Nat) (l : Line), LaunchesKept s (s.carryFrom die l) := fun die l => by
    unfold State.carryFrom
    split
    · exact .refl s
    · exact (State.reach_launchesKept ..).trans (State.carryLine_launchesKept ..)
  unfold State.bayClean
  split
  · exact .refl s
  · exact (hcarry ..).trans (.of_storage ⟨_, _, _, _, _, _, _, rfl⟩)

theorem State.overHandle_launchesKept (s : State) (space : BitVec 2) (f : State → Nat → State) (hf : ∀ s line, LaunchesKept s (f s line))
    (fuel : Nat) (va : W72) (len : Nat) : LaunchesKept s (s.overHandle space f fuel va len) := by
  induction fuel generalizing s va len with
  | zero => exact .refl s
  | succ fuel ih =>
    unfold State.overHandle
    dsimp only
    split
    · exact .refl s
    · refine LaunchesKept.trans ?_ (ih ..)
      split
      · exact .refl s
      · exact .foldl f hf _ s

theorem State.openHandle_launchesKept (s : State) (h : Nat) : LaunchesKept s (s.openHandle h) := by
  have hline : ∀ (s : State) (line : Nat), LaunchesKept s ((s.cleanEverywhere line).dropFirstLevel line) := fun s line =>
    (LaunchesKept.foldl _ (fun _ _ => State.bayClean_launchesKept ..) _ s).trans (.of_storage ⟨_, _, _, _, _, _, _, rfl⟩)
  unfold State.openHandle
  split
  · exact .refl s
  · exact State.overHandle_launchesKept _ _ _ hline ..

end Sys2Proof.Machine
end

section
/-! PROOFS. A command's completion, and the end of a launch that is not admitted (for O51). -/

namespace Sys2Proof.Machine
open Sys2Proof.Safety

/-! ### Completion (R98) -/

/-- A command that stands alone under its number. -/
def StandsAlone (s : State) (c : RingCmd) : Prop := c ∈ s.ringCmds ∧ ∀ d ∈ s.ringCmds, d.acc = c.acc → d = c

theorem StandsAlone.find? {s : State} {c : RingCmd} (h : StandsAlone s c) : s.ringCmds.find? (fun d => d.acc = c.acc) = some c := by
  obtain ⟨hmem, halone⟩ := h
  have hsome : (s.ringCmds.find? (fun d => d.acc = c.acc)).isSome := List.find?_isSome.mpr ⟨c, hmem, decide_eq_true rfl⟩
  obtain ⟨d, hd⟩ := Option.isSome_iff_exists.mp hsome
  rw [hd, halone d (List.mem_of_find?_eq_some hd) (by simpa using List.find?_some hd)]

@[simp] theorem State.complete_launches (s : State) (acc status errs : Nat) : (s.complete acc status errs).launches = s.launches := by
  unfold State.complete
  split <;> rfl

@[simp] theorem State.complete_ctxs (s : State) (acc status errs : Nat) : (s.complete acc status errs).ctxs = s.ctxs := by
  unfold State.complete
  split <;> rfl

@[simp] theorem State.complete_frames (s : State) (acc status errs : Nat) : (s.complete acc status errs).frames = s.frames := by
  unfold State.complete
  split <;> rfl

@[simp] theorem State.complete_l2 (s : State) (acc status errs : Nat) : (s.complete acc status errs).l2 = s.l2 := by
  unfold State.complete
  split <;> rfl

/-- The command completes whatever else has changed since, as long as the commands and the processors stand as they did. -/
theorem StandsAlone.completed {s u : State} {c : RingCmd} (h : StandsAlone s c) (hcmds : u.ringCmds = s.ringCmds) (hcps : u.regs.cps = s.regs.cps)
    (status errs : Nat) : Completed s (u.complete c.acc status errs) c.ring c.acc status errs := by
  obtain ⟨hmem, halone⟩ := id h
  have hcp : u.cp c.ring.toNat = s.cp c.ring.toNat := by rw [State.cp, State.cp, hcps]
  have hfind : u.ringCmds.find? (fun d => d.acc = c.acc) = some c := by rw [hcmds, h.find?]
  rw [State.complete, hfind]
  dsimp only
  refine ⟨?_, fun d hd hacc => ?_, fun d hd hacc => ?_⟩
  · rw [State.setCp, State.cp, tgetD_tput_same, hcp]
  · obtain rfl := halone d hd hacc
    exact ⟨_, List.mem_map.mpr ⟨d, hcmds ▸ hd, if_pos rfl⟩, rfl, rfl, rfl, rfl, rfl, rfl⟩
  · exact List.mem_map.mpr ⟨d, hcmds ▸ hd, if_neg hacc⟩

/-- What happens later to launches alone leaves a command completed. -/
theorem Completed.of_kept {s t u : State} {cp : BitVec 2} {acc status errs : Nat} (h : Completed s t cp acc status errs)
    (hcmds : u.ringCmds = t.ringCmds) (hcps : u.regs.cps = t.regs.cps) : Completed s u cp acc status errs := by
  obtain ⟨hdue, hstatus, hothers⟩ := h
  have hcp : u.cp cp.toNat = t.cp cp.toNat := by rw [State.cp, State.cp, hcps]
  exact ⟨by rw [hcp, hdue], by rw [hcmds]; exact hstatus, by rw [hcmds]; exact hothers⟩

/-! ### A launch that is not admitted (R103) -/

/-- A launch that has been changed is found changed. -/
theorem State.launch?_of_modLaunch {s : State} {l : Nat} {f : Launch → Launch} (hf : ∀ x, (f x).acc = x.acc) {u : Launch}
    (hu : (s.modLaunch l f).launch? l = some u) : ∃ x, s.launch? l = some x ∧ u = f x := by
  rw [State.launch?_modLaunch s l l hf, if_pos rfl] at hu
  obtain ⟨x, hx, rfl⟩ := Option.map_eq_some_iff.mp hu
  exact ⟨x, hx, rfl⟩

theorem State.endUnadmitted_ended {s : State} {acc status : Nat} {u : Launch} (hu : (s.endUnadmitted acc status).launch? acc = some u) :
    u.ended = true := by
  have hmod : (s.modLaunch acc (fun l => { l with ended := true })).launch? acc = some u := by
    rw [State.endUnadmitted] at hu
    rwa [State.launch?, State.complete_launches] at hu
  obtain ⟨x, -, rfl⟩ := State.launch?_of_modLaunch (f := fun l => { l with ended := true }) (fun _ => rfl) hmod
  rfl

theorem StandsAlone.endUnadmitted {s u : State} {c : RingCmd} (h : StandsAlone s c) (hcmds : u.ringCmds = s.ringCmds)
    (hcps : u.regs.cps = s.regs.cps) (status : Nat) : Completed s (u.endUnadmitted c.acc status) c.ring c.acc status 0 :=
  h.completed (u := u.modLaunch c.acc _) hcmds hcps status 0

end Sys2Proof.Machine
end

section
/-! PROOFS. What a LAUNCH that starts finds, check by check (for O51). -/

namespace Sys2Proof.Machine
open Sys2Proof.Safety

/-! ### A LAUNCH that starts (R97) -/

/-- LAUNCH c starts: it is in hand, its launch l is neither admitted nor ended, and no earlier FLUSH or INVAL holds it. -/
structure LaunchBegins (s : State) (c : RingCmd) (l : Launch) : Prop where
  alone  : StandsAlone s c
  hand   : s.ringCmd? c.acc = some c
  launch : s.launch? c.acc = some l
  op     : c.op = opLaunch
  new    : l.admitted = false
  live   : l.ended = false
  unheld : s.unheld c = true

theorem InHand.ringCmd? {s : State} {c : RingCmd} (h : InHand s c.acc c) : s.ringCmd? c.acc = some c := by
  obtain ⟨-, hmem, hstatus, hbad, halone⟩ := h
  have hsome : (s.ringCmd? c.acc).isSome := List.find?_isSome.mpr ⟨c, hmem, by simp [hstatus, hbad]⟩
  obtain ⟨d, hd⟩ := Option.isSome_iff_exists.mp hsome
  have hacc := List.find?_some hd
  simp only [Bool.and_eq_true, decide_eq_true_eq] at hacc
  obtain ⟨⟨hacc, -⟩, -⟩ := hacc
  rw [hd, halone d (List.mem_of_find?_eq_some hd) hacc]

theorem State.unheld_iff (s : State) (c : RingCmd) : s.unheld c = true ↔
    ¬∃ d ∈ s.ringCmds, d.ring = c.ring ∧ d.acc < c.acc ∧ d.status = none ∧ (d.op = 2 ∨ d.op = 3) := by
  simp only [State.unheld, State.unfinished, List.all_eq_true, List.mem_filter, Bool.and_eq_true, decide_eq_true_eq, Option.isNone_iff_eq_none]
  constructor
  · rintro h ⟨d, hd, hring, hacc, hstatus, hop⟩
    obtain ⟨hflush, hinval⟩ := h d ⟨hd, ⟨hring, hacc⟩, hstatus⟩
    exact hop.elim hflush hinval
  · rintro h d ⟨hd, ⟨hring, hacc⟩, hstatus⟩
    exact ⟨fun hop => h ⟨d, hd, hring, hacc, hstatus, .inl hop⟩, fun hop => h ⟨d, hd, hring, hacc, hstatus, .inr hop⟩⟩

/-- A list is one that R100 lets through. -/
theorem listOk_iff (c : RingCmd) (items : List W32) : listOk c items = true ↔
    (items = [] ∨ c.arg0.toNat % 4 = 0) ∧ (items.map itemHandle).Nodup ∧ ∀ x ∈ items, slice x 31 18 = 0 ∧ (itemRead x = true ∨ itemWrite x = true) := by
  simp only [listOk, Bool.and_eq_true, Bool.or_eq_true, decide_eq_true_eq, List.all_eq_true]
  rw [and_assoc, and_comm (b := (items.map itemHandle).Nodup)]

/-- A LAUNCH's handle list is read, is one that R100 lets through, and waits for no earlier command; every handle of it is bound. -/
structure HandlesReady (s : State) (c : RingCmd) (items : List W32) : Prop where
  read  : s.handleList c = some items
  ok    : listOk c items = true
  free  : items.all (fun x => s.handleFree c.acc (itemHandle x) (itemWrite x)) = true
  bound : items.all (fun x => (tget s.handles (itemHandle x)).isSome) = true

/-- Its record is read from storage that answers. -/
structure RecordRead (s : State) (c : RingCmd) (bytes : List Byte) (p : Place) : Prop where
  read  : s.virtRead c.ring c.addr 64 = some bytes
  place : s.xlateFront c.ring c.addr false = .ok p
  sound : Sound s p.pa 64

theorem State.attempt_sound {s : State} {pa n : Nat} (h : Sound s pa n) {o : Attempt} (ho : o ≠ .linkFailed) : s.attempt o pa n = o := by
  obtain ⟨hbad, hopen⟩ := h
  cases o <;> simp_all [State.attempt]

section
variable {s : State} {c : RingCmd} {l : Launch} (h : LaunchBegins s c l)
include h

/-- A LAUNCH that ends with a status is over: its record is due, memory is as it was, and its launch has ended. -/
theorem LaunchBegins.refused {o : Attempt} {status : Nat} (hexec : exec (.launch c.acc o) s = .next (s.endUnadmitted c.acc status)) :
    Happens s (.launch c.acc o) fun t => Completed s t c.ring c.acc status 0 ∧ t.mem = s.mem ∧ ∀ u, t.launch? c.acc = some u → u.ended = true :=
  ⟨_, hexec, h.alone.endUnadmitted rfl rfl status, State.endUnadmitted_mem .., fun _ => State.endUnadmitted_ended⟩

/-! ### Its handle list (R100, R101) -/

theorem LaunchBegins.exec_unreadList (hlist : s.handleList c = none) (o : Attempt) :
    exec (.launch c.acc o) s = .next (s.endUnadmitted c.acc 8) := by
  simp [exec, execLaunch, h.hand, h.launch, h.op, h.new, h.live, h.unheld, hlist]

variable {items : List W32}

theorem LaunchBegins.exec_badList (hlist : s.handleList c = some items) (hok : listOk c items = false) (o : Attempt) :
    exec (.launch c.acc o) s = .next (s.endUnadmitted c.acc 3) := by
  simp [exec, execLaunch, h.hand, h.launch, h.op, h.new, h.live, h.unheld, hlist, hok]

theorem LaunchBegins.exec_waits (hlist : s.handleList c = some items) (hok : listOk c items = true)
    (hbusy : items.all (fun x => s.handleFree c.acc (itemHandle x) (itemWrite x)) = false) (o : Attempt) : exec (.launch c.acc o) s = .next s := by
  simp only [exec, execLaunch, h.hand, h.launch, h.op, h.new, h.live, h.unheld, hlist, hok, hbusy]
  rfl

theorem LaunchBegins.exec_unbound (hlist : s.handleList c = some items) (hok : listOk c items = true)
    (hfree : items.all (fun x => s.handleFree c.acc (itemHandle x) (itemWrite x)) = true)
    (hunbound : items.all (fun x => (tget s.handles (itemHandle x)).isSome) = false) (o : Attempt) :
    exec (.launch c.acc o) s = .next (s.endUnadmitted c.acc 3) := by
  simp only [exec, execLaunch, h.hand, h.launch, h.op, h.new, h.live, h.unheld, hlist, hok, hfree, hunbound]
  rfl

/-! ### Its record, its barges and its job control block (R48, R103) -/

variable (hs : HandlesReady s c items)
include hs

theorem LaunchBegins.exec_unreadRecord (hread : s.virtRead c.ring c.addr 64 = none) (o : Attempt) :
    exec (.launch c.acc o) s = .next (s.endUnadmitted c.acc 8) := by
  simp only [exec, execLaunch, h.hand, h.launch, h.op, h.new, h.live, h.unheld, hs.read, hs.ok, hs.free, hs.bound, hread]
  rfl

variable {bytes : List Byte} {p : Place} (hr : RecordRead s c bytes p)
include hr

theorem LaunchBegins.exec_lasting : exec (.launch c.acc .lasting) s =
    .next ((s.storageError .lasting (s.badPlace p.pa 64 p.pa) none c.seq).endUnadmitted c.acc 8) := by
  simp only [exec, execLaunch, h.hand, h.launch, h.op, h.new, h.live, h.unheld, hs.read, hs.ok, hs.free, hs.bound, hr.read, hr.place,
    State.attempt_sound hr.sound (o := .lasting) nofun]
  rfl

theorem LaunchBegins.exec_badRecord (hrec : recordOk c (toWords 8 bytes) = false) :
    exec (.launch c.acc .ok) s = .next (s.endUnadmitted c.acc 1) := by
  simp only [exec, execLaunch, h.hand, h.launch, h.op, h.new, h.live, h.unheld, hs.read, hs.ok, hs.free, hs.bound, hr.read, hr.place,
    State.attempt_sound hr.sound (o := .ok) nofun, State.storageError, hrec]
  rfl

variable (hrec : recordOk c (toWords 8 bytes) = true)
include hrec

theorem LaunchBegins.exec_unreadBarges
    (hbarges : s.readBarges c.ring (recBarges (toWords 8 bytes)) (recCount (toWords 8 bytes)) = none) :
    exec (.launch c.acc .ok) s = .next (s.endUnadmitted c.acc 8) := by
  simp only [exec, execLaunch, h.hand, h.launch, h.op, h.new, h.live, h.unheld, hs.read, hs.ok, hs.free, hs.bound, hr.read, hr.place,
    State.attempt_sound hr.sound (o := .ok) nofun, State.storageError, hrec, hbarges]
  rfl

variable {barges : List (List W64)} (hbarges : s.readBarges c.ring (recBarges (toWords 8 bytes)) (recCount (toWords 8 bytes)) = some barges)
include hbarges

theorem LaunchBegins.exec_badBarges (hok : s.bargesOk (toWords 8 bytes) barges = false) :
    exec (.launch c.acc .ok) s = .next (s.endUnadmitted c.acc 1) := by
  simp only [exec, execLaunch, h.hand, h.launch, h.op, h.new, h.live, h.unheld, hs.read, hs.ok, hs.free, hs.bound, hr.read, hr.place,
    State.attempt_sound hr.sound (o := .ok) nofun, State.storageError, hrec, hbarges, hok]
  rfl

theorem LaunchBegins.exec_admits (hok : s.bargesOk (toWords 8 bytes) barges = true) :
    exec (.launch c.acc .ok) s = .next ((s.admitLaunch c (toWords 8 bytes) barges items).getD (s.endUnadmitted c.acc 8)) := by
  simp only [exec, execLaunch, h.hand, h.launch, h.op, h.new, h.live, h.unheld, hs.read, hs.ok, hs.free, hs.bound, hr.read, hr.place,
    State.attempt_sound hr.sound (o := .ok) nofun, State.storageError, hrec, hbarges, hok]
  cases s.admitLaunch c (toWords 8 bytes) barges items <;> rfl

end
end Sys2Proof.Machine
end

section
/-! PROOFS. A launch that is admitted: its barges wait for the grant (for O51). -/

namespace Sys2Proof.Machine
open Sys2Proof.Safety

/-! ### Barges that wait for a grant (R103, R123) -/

/-- The entries that a launch has a basin for. -/
def Launch.entries (l : Launch) : List (BitVec 44) := l.basins.map Basin.entry

/-- A launch's basins have one entry each, all of them among es. -/
def Launch.EntriesWithin (l : Launch) (es : List (BitVec 44)) : Prop := l.entries.Nodup ∧ l.entries ⊆ es

theorem Launch.exists_basin? {l : Launch} {e : BitVec 44} (h : e ∈ l.entries) : ∃ z, l.basin? e = some z := by
  obtain ⟨b, hb, hentry⟩ := List.mem_map.mp h
  exact Option.isSome_iff_exists.mp (List.find?_isSome.mpr ⟨b, hb, decide_eq_true hentry⟩)

theorem Launch.not_mem_entries {l : Launch} {e : BitVec 44} (h : l.basin? e = none) : e ∉ l.entries := fun hmem => by
  obtain ⟨z, hz⟩ := Launch.exists_basin? hmem
  rw [h] at hz
  exact nomatch hz

theorem Launch.withBasin_rest (l : Launch) (e : BitVec 44) : ∃ basins, (l.withBasin e).getD l = { l with basins := basins } := by
  unfold Launch.withBasin
  split
  · exact ⟨_, rfl⟩
  · split <;> exact ⟨_, rfl⟩

/-- While all entries are among at most 1,024, an entry among them gets its basin. -/
theorem Launch.withBasin_entries {l : Launch} {es : List (BitVec 44)} (h : l.EntriesWithin es) (hes : es.length ≤ 1024) {e : BitVec 44} (he : e ∈ es) :
    ((l.withBasin e).getD l).EntriesWithin es ∧ e ∈ ((l.withBasin e).getD l).entries ∧ l.entries ⊆ ((l.withBasin e).getD l).entries := by
  obtain ⟨hnodup, hsub⟩ := id h
  unfold Launch.withBasin
  cases hbasin : l.basin? e with
  | some z =>
    have hmem : e ∈ l.entries :=
      List.mem_map.mpr ⟨z, List.mem_of_find?_eq_some hbasin, by simpa using List.find?_some hbasin⟩
    exact ⟨h, hmem, List.Subset.refl _⟩
  | none =>
    have hnew := Launch.not_mem_entries hbasin
    have hnodup' : (l.entries ++ [e]).Nodup := by
      rw [List.nodup_append_comm]
      exact List.nodup_cons.mpr ⟨hnew, hnodup⟩
    have hsub' : l.entries ++ [e] ⊆ es := List.append_subset.mpr ⟨hsub, by simpa using he⟩
    have hlen := (hnodup'.subperm hsub').length_le
    have hroom : l.basins.length < 1024 := by
      simp only [Launch.entries, List.length_append, List.length_map, List.length_singleton] at hlen
      omega
    rw [if_pos hroom, Option.getD_some]
    have hentries : Launch.entries { l with basins := l.basins ++ [⟨e, []⟩] } = l.entries ++ [e] := List.map_append
    rw [Launch.EntriesWithin, hentries]
    exact ⟨⟨hnodup', hsub'⟩, by simp, List.subset_append_left ..⟩

/-- Queueing the initial barges changes a launch's basins, and adds to those that wait for the grant. -/
theorem Launch.queueInitial_rest (now : Nat) (l : Launch) (push : Nat) (bs : List (List W64)) :
    ∃ basins qs, Launch.queueInitial now l push bs = { l with basins := basins, parked := l.parked ++ qs } ∧ qs.map Queued.barge = bs ∧
      ∀ z ∈ qs, z.level = min (bargePrio z.barge) l.prio ∧ z.since = now ∧ z.frame = none := by
  induction bs generalizing l push with
  | nil => exact ⟨_, [], by rw [List.append_nil]; rfl, rfl, nofun⟩
  | cons b bs ih =>
    obtain ⟨basins, hbasin⟩ := l.withBasin_rest (bargeEntry b)
    rw [Launch.queueInitial]
    rw [hbasin]
    obtain ⟨basins', qs, hqueue, hbarges, hlevels⟩ := ih _ (push + 1)
    refine ⟨basins', _ :: qs, by rw [hqueue, List.append_assoc]; rfl, by rw [List.map_cons, hbarges], ?_⟩
    exact List.forall_mem_cons.mpr ⟨⟨rfl, rfl, rfl⟩, hlevels⟩

theorem Launch.queueInitial_entries {l : Launch} {es : List (BitVec 44)} (h : l.EntriesWithin es) (hes : es.length ≤ 1024) (now push : Nat)
    {bs : List (List W64)} (hbs : bs.map bargeEntry ⊆ es) :
    bs.map bargeEntry ⊆ (Launch.queueInitial now l push bs).entries ∧ l.entries ⊆ (Launch.queueInitial now l push bs).entries := by
  induction bs generalizing l push with
  | nil => exact ⟨List.nil_subset _, List.Subset.refl _⟩
  | cons b bs ih =>
    obtain ⟨hb, hbs⟩ := List.cons_subset.mp hbs
    obtain ⟨hwithin, hmem, hold⟩ := Launch.withBasin_entries h hes hb
    obtain ⟨parked, hstep⟩ : ∃ parked, Launch.queueInitial now l push (b :: bs) =
        Launch.queueInitial now { (l.withBasin (bargeEntry b)).getD l with parked := parked } (push + 1) bs := ⟨_, rfl⟩
    rw [hstep]
    obtain ⟨hnew, hkept⟩ := ih (l := { (l.withBasin (bargeEntry b)).getD l with parked := parked }) hwithin (push + 1) hbs
    exact ⟨List.cons_subset.mpr ⟨hkept hmem, hnew⟩, List.Subset.trans hold hkept⟩

/-- The barges of a launch that had no basin all have one, when they name at most 1,024 entries. -/
theorem Launch.queueInitial_basin? {l : Launch} (hl : l.basins = []) {bs : List (List W64)} (hbs : (bs.map bargeEntry).eraseDups.length ≤ 1024)
    (now push : Nat) {b : List W64} (hb : b ∈ bs) : ∃ z, (Launch.queueInitial now l push bs).basin? (bargeEntry b) = some z := by
  have hnone : l.entries = [] := by rw [Launch.entries, hl, List.map_nil]
  have hwithin : l.EntriesWithin (bs.map bargeEntry).eraseDups := by
    rw [Launch.EntriesWithin, hnone]
    exact ⟨.nil, List.nil_subset _⟩
  obtain ⟨hall, -⟩ := Launch.queueInitial_entries hwithin hbs now push (bs := bs) fun e he => List.mem_eraseDups.mpr he
  exact Launch.exists_basin? (hall (List.mem_map_of_mem hb))

/-- A launch that had no basin and nothing queued, with its initial barges queued. -/
theorem Launch.queueInitial_fresh {l : Launch} (hbasins : l.basins = []) (hparked : l.parked = []) {bs : List (List W64)}
    (hbs : (bs.map bargeEntry).eraseDups.length ≤ 1024) (now push : Nat) : ∃ basins qs,
      Launch.queueInitial now l push bs = { l with basins := basins, parked := qs } ∧ qs.map Queued.barge = bs ∧
      (∀ z ∈ qs, z.level = min (bargePrio z.barge) l.prio ∧ z.since = now ∧ z.frame = none) ∧
      ∀ b ∈ bs, ∃ z, Launch.basin? { l with basins := basins, parked := qs } (bargeEntry b) = some z := by
  obtain ⟨basins, qs, hqueue, hbarges, hlevels⟩ := Launch.queueInitial_rest now l push bs
  rw [hparked, List.nil_append] at hqueue
  exact ⟨basins, qs, hqueue, hbarges, hlevels, fun b hb => hqueue ▸ Launch.queueInitial_basin? hbasins hbs now push hb⟩

end Sys2Proof.Machine
end

section
/-! PROOFS. The LAUNCH whose record and barges pass: its job control block, and its launch as it is admitted (for O51). -/

namespace Sys2Proof.Machine
open Sys2Proof.Safety

/-! ### The job control block (R104) -/

theorem jcbWords_toNat (expected done errs : Nat) {state : Nat} (hstate : state < 2 ^ 32) (seq : W64) :
    (jcbWords expected done errs state seq).map BitVec.toNat = [expected % 2 ^ 64, done % 2 ^ 64, errs % 2 ^ 32 * 2 ^ 32 + state, seq.toNat] := by
  have hword : errs % 2 ^ 32 * 2 ^ 32 + state < 2 ^ 64 := by omega
  simp only [jcbWords, List.map_cons, List.map_nil, BitVec.toNat_ofNat, Nat.mod_eq_of_lt hword]

theorem State.writeJcb_error {s : State} {space : BitVec 2} {va : W72} {k : Kind} (hx : s.xlateFront space va true = .error k) (ws : List W64) :
    s.writeJcb space va ws = none := by
  rw [State.writeJcb, hx]

theorem State.writeJcb_unsound {s : State} {space : BitVec 2} {va : W72} {p : Place} (hx : s.xlateFront space va true = .ok p)
    (hsound : ¬Sound s p.pa 64) (ws : List W64) : s.writeJcb space va ws = none := by
  rw [State.writeJcb, hx]
  refine if_neg fun hboth => hsound ?_
  simp only [Bool.and_eq_true, Bool.not_eq_true'] at hboth
  exact hboth.symm

theorem State.writeJcb_sound {s : State} {space : BitVec 2} {va : W72} {p : Place} (hx : s.xlateFront space va true = .ok p)
    (hsound : Sound s p.pa 64) (ws : List W64) : s.writeJcb space va ws = some (s.deviceBytes p.pa (ofWords ws)) := by
  obtain ⟨hbad, hopen⟩ := hsound
  rw [State.writeJcb, hx]
  exact if_pos (by rw [hbad, hopen]; rfl)

/-! ### Admission (R47, R103) -/

/-- A launch with what its record says of it, as it is admitted with count barges. -/
def Launch.filled (l : Launch) (r : List W64) (items : List W32) (count now : Nat) : Launch :=
  { l with part := recPart r, prio := slice (wordAt r 0) 18 16, allow := BitVec.ofNat 8 (slice (wordAt r 0) 15 8), minDies := slice (wordAt r 0) 3 0,
           maxDies := slice (wordAt r 0) 7 4, jcb := recJcb r, reads := (items.filter itemRead).map itemHandle,
           writes := (items.filter itemWrite).map itemHandle, admitted := true, waitAt := some now, expected := count }

theorem State.admitLaunch_none {s : State} {c : RingCmd} {r : List W64} {bs : List (List W64)}
    (h : s.writeJcb c.ring (recJcb r) (jcbWords bs.length 0 0 1 c.seq ++ [0, 0, 0, 0]) = none) (items : List W32) : s.admitLaunch c r bs items = none := by
  rw [State.admitLaunch, h]

/-- A launch whose block is written is admitted in a state where its handles are current. -/
theorem State.admitLaunch_some {s v : State} {c : RingCmd} {r : List W64} {bs : List (List W64)}
    (h : s.writeJcb c.ring (recJcb r) (jcbWords bs.length 0 0 1 c.seq ++ [0, 0, 0, 0]) = some v) (items : List W32) :
    ∃ w, LaunchesKept v w ∧ (items = [] → w = v) ∧ s.admitLaunch c r bs items =
      some { w.modLaunch c.acc (fun l => Launch.queueInitial w.now (l.filled r items bs.length w.now) w.pushes bs) with pushes := w.pushes + bs.length } := by
  rw [State.admitLaunch, h]
  refine ⟨_, ?_, ?_, rfl⟩
  · refine (LaunchesKept.foldl _ State.openHandle_launchesKept _ _).trans (LaunchesKept.foldl _ (fun s x => ?_) _ _)
    dsimp only
    split
    · exact .refl s
    · exact .of_storage ⟨_, _, _, _, _, _, _, rfl⟩
  · rintro rfl
    rfl

/-! ### What a LAUNCH that passes does -/

section
variable {s : State} {c : RingCmd} {l : Launch} {items : List W32} {bytes : List Byte} {p q : Place} {barges : List (List W64)}
  (h : LaunchBegins s c l) (hs : HandlesReady s c items) (hr : RecordRead s c bytes p) (hrec : recordOk c (toWords 8 bytes) = true)
  (hbarges : s.readBarges c.ring (recBarges (toWords 8 bytes)) (recCount (toWords 8 bytes)) = some barges)
  (hok : s.bargesOk (toWords 8 bytes) barges = true)
include h hs hr hrec hbarges hok

/-- A LAUNCH whose block cannot be written ends with XLATE. -/
theorem LaunchBegins.exec_unwritten (hjcb : ∀ ws, s.writeJcb c.ring (recJcb (toWords 8 bytes)) ws = none) :
    exec (.launch c.acc .ok) s = .next (s.endUnadmitted c.acc 8) := by
  rw [h.exec_admits hs hr hrec hbarges hok, State.admitLaunch_none (hjcb _), Option.getD_none]

/-- A LAUNCH whose block can be written is admitted: the block says RUNNING, and the barges wait for the grant. -/
theorem LaunchBegins.admits (hx : s.xlateFront c.ring (recJcb (toWords 8 bytes)) true = .ok q) (hsound : Sound s q.pa 64) (hline : InLine q.pa 64)
    (hroom : Roomy s q.pa) (hwatches : s.watches = []) : Happens s (.launch c.acc .ok) fun t =>
      (items = [] → ∀ i v, ((jcbWords barges.length 0 0 1 c.seq ++ [0, 0, 0, 0]).map BitVec.toNat)[i]? = some v → t.homeRead (q.pa + 8 * i) 8 = v) ∧
      t.ringCmds = s.ringCmds ∧ ∃ push, OneLaunch s t c.acc
        (Launch.queueInitial s.now (l.filled (toWords 8 bytes) items barges.length s.now) push barges) := by
  obtain ⟨w, hkept, hnone, hadmit⟩ := State.admitLaunch_some (State.writeJcb_sound hx hsound _) items
  refine ⟨_, by rw [h.exec_admits hs hr hrec hbarges hok, hadmit, Option.getD_some], ?_, ?_⟩
  · intro hitems i x hi
    rw [hnone hitems]
    exact State.homeRead_deviceBytes hroom (by simpa [jcbWords] using hline) hi
  · obtain ⟨_, _, _, _, _, _, _, _, _, rfl, -, -⟩ := ((State.deviceBytes_launchesKept ..).trans hkept).kept hwatches
    have hacc : ∀ x : Launch, (Launch.queueInitial s.now (x.filled (toWords 8 bytes) items barges.length s.now) s.pushes barges).acc = x.acc := fun x => by
      obtain ⟨_, _, hqueue, -, -⟩ := Launch.queueInitial_rest s.now (x.filled (toWords 8 bytes) items barges.length s.now) s.pushes barges
      rw [hqueue]
      rfl
    refine ⟨rfl, s.pushes, ?_, fun m hm => ?_⟩
    · refine (State.launch?_modLaunch s c.acc c.acc hacc).trans ?_
      rw [if_pos rfl, h.launch, Option.map_some]
    · exact (State.launch?_modLaunch s c.acc m hacc).trans (if_neg hm)

end
end Sys2Proof.Machine
end

section
/-! PROOFS. The end of a job (for O51). -/

namespace Sys2Proof.Machine
open Sys2Proof.Safety

/-! ### The counts of its contexts (R390) -/

/-- Contexts have sent their counts: launches have them added, and beside contexts and logical clocks all else stands. -/
structure CountsSent (s t : State) : Prop where
  rest     : ∃ launches ctxs dies lclockF, t = { s with launches := launches, ctxs := ctxs, dies := dies, lclockF := lclockF }
  launch   : ∀ k x, s.launch? k = some x → ∃ counts, t.launch? k = some { x with counts := counts }
  noCtx    : s.ctxs = [] → t.ctxs = []

theorem CountsSent.refl (s : State) : CountsSent s s := ⟨⟨_, _, _, _, rfl⟩, fun _ _ h => ⟨_, h⟩, id⟩

theorem CountsSent.trans {s t u : State} (h : CountsSent s t) (k : CountsSent t u) : CountsSent s u := by
  obtain ⟨⟨_, _, _, _, rfl⟩, hl, hctxs⟩ := h
  obtain ⟨⟨_, _, _, _, rfl⟩, kl, kctxs⟩ := k
  refine ⟨⟨_, _, _, _, rfl⟩, fun i x hx => ?_, kctxs ∘ hctxs⟩
  obtain ⟨_, hx⟩ := hl i x hx
  obtain ⟨_, hx⟩ := kl i _ hx
  exact ⟨_, hx⟩

theorem State.sendCounts_countsSent (s : State) (n slot : Nat) : CountsSent s (s.sendCounts n slot) := by
  unfold State.sendCounts
  cases hctx : s.ctx? n slot with
  | none => exact .refl s
  | some c =>
    refine ⟨⟨_, _, _, _, State.message_rest ..⟩, fun k x hx => ?_, fun hnone => ?_⟩
    · have hfind := State.launch?_modLaunch s c.launch k (f := fun x => { x with counts := countAll x.counts c.counts }) fun _ => rfl
      refine ⟨if k = c.launch then countAll x.counts c.counts else x.counts, hfind.trans ?_⟩
      rw [hx]
      split <;> rfl
    · rw [State.ctx?, hnone] at hctx
      exact nomatch hctx

theorem CountsSent.foldl {α : Type} (f : State → α → State) (hf : ∀ s x, CountsSent s (f s x)) (xs : List α) (s : State) :
    CountsSent s (xs.foldl f s) := by
  induction xs generalizing s with
  | nil => exact .refl s
  | cons x xs ih => exact (hf s x).trans (ih (f s x))

/-! ### A launch that is live no longer (R347) -/

@[simp] theorem State.reap_ringCmds (s : State) (l : Nat) : (s.reap l).ringCmds = s.ringCmds := by
  unfold State.reap
  split
  · rfl
  · dsimp only
    split <;> rfl

@[simp] theorem State.reap_l2 (s : State) (l : Nat) : (s.reap l).l2 = s.l2 := by
  unfold State.reap
  split
  · rfl
  · dsimp only
    split <;> rfl

@[simp] theorem State.reap_cps (s : State) (l : Nat) : (s.reap l).regs.cps = s.regs.cps := by
  unfold State.reap
  split
  · rfl
  · dsimp only
    split <;> rfl

theorem State.launch?_of_reap {s : State} {l : Nat} {u : Launch} (h : (s.reap l).launch? l = some u) : s.launch? l = some u := by
  unfold State.reap at h
  split at h
  · exact h
  · dsimp only at h
    split at h
    · have hmem := List.mem_of_find?_eq_some h
      simp [State.launch?_acc h] at hmem
    · exact h

/-- A launch that has been admitted and has ended is live no longer once no context and no frame is left. -/
theorem State.reap_gone {s : State} {l : Nat} (hctxs : s.ctxs = []) (hframes : s.frames = [])
    (hover : ∀ x, s.launch? l = some x → x.admitted = true ∧ x.ended = true) : ∀ u ∈ (s.reap l).launches, u.acc ≠ l := by
  unfold State.reap
  cases hx : s.launch? l with
  | none =>
    intro u hu hacc
    exact List.find?_eq_none.mp hx u hu (decide_eq_true hacc)
  | some x =>
    obtain ⟨hadmitted, hended⟩ := hover x hx
    have hnone : (s.launchCtxs l).isEmpty = true := by rw [State.launchCtxs, State.allCtxs, hctxs]; rfl
    simp [hadmitted, hended, hnone, hframes]

/-! ### The job's end (R104, R106) -/

/-- The last steps of a job's end: its queues are emptied, its watchpoints go, its record is due, and it is live no longer if nothing of it is left. -/
def State.closeJob (s : State) (acc status errs : Nat) : State :=
  (({ s.modLaunch acc (fun x => { x.endQueues with ended := true }) with
      watches := s.watches.filter (fun p => p.2.launch != acc) } : State).complete acc status errs).reap acc

theorem StandsAlone.closeJob {s u : State} {c : RingCmd} (h : StandsAlone s c) (hcmds : u.ringCmds = s.ringCmds) (hcps : u.regs.cps = s.regs.cps)
    (status errs : Nat) : Completed s (u.closeJob c.acc status errs) c.ring c.acc status errs :=
  Completed.of_kept (h.completed (u := { u.modLaunch c.acc _ with watches := _ }) hcmds hcps status errs) (State.reap_ringCmds ..) (State.reap_cps ..)

theorem State.launch?_of_closeJob {s : State} {acc status errs : Nat} {u : Launch} (h : (s.closeJob acc status errs).launch? acc = some u) :
    ∃ x, s.launch? acc = some x ∧ u = { x.endQueues with ended := true } := by
  have hcomplete := State.launch?_of_reap h
  rw [State.launch?, State.complete_launches] at hcomplete
  exact State.launch?_of_modLaunch (f := fun x => { x.endQueues with ended := true }) (fun _ => rfl) hcomplete

theorem State.closeJob_homeRead (s : State) (acc status errs pa n : Nat) : (s.closeJob acc status errs).homeRead pa n = s.homeRead pa n := by
  have hmem : (s.closeJob acc status errs).mem = s.mem := by rw [State.closeJob, State.reap_mem, State.complete_mem]; rfl
  have hl2 : (s.closeJob acc status errs).l2 = s.l2 := by rw [State.closeJob, State.reap_l2, State.complete_l2]; rfl
  simp only [State.homeRead, State.homeLine, State.l2Line, State.l2Set, State.backingLine, hmem, hl2]

theorem State.closeJob_gone {s : State} {acc : Nat} {x : Launch} (hfound : s.launch? acc = some x) (hadmitted : x.admitted = true)
    (hctxs : s.ctxs = []) (hframes : s.frames = []) (status errs : Nat) : ∀ u ∈ (s.closeJob acc status errs).launches, u.acc ≠ acc := by
  refine State.reap_gone ?_ ?_ fun y hy => ?_
  · rw [State.complete_ctxs]; exact hctxs
  · rw [State.complete_frames]; exact hframes
  · rw [State.launch?, State.complete_launches] at hy
    obtain ⟨z, hz, rfl⟩ := State.launch?_of_modLaunch (f := fun x => { x.endQueues with ended := true }) (fun _ => rfl) hy
    obtain rfl := Option.some.inj (hfound.symm.trans hz)
    exact ⟨hadmitted, rfl⟩

/-- What a job's end leaves queued is of mode 2. -/
theorem Launch.endQueues_allQueued {l : Launch} {z : Nat × Queued} (h : z ∈ l.endQueues.allQueued) : bargeMode z.2.barge = 2 := by
  simp only [Launch.allQueued, Launch.endQueues, List.mem_append, List.mem_flatMap, List.mem_map, List.mem_filter] at h
  have hkept : ∀ q : Queued, q.frame.isNone = true → (q.frame.isSome || decide (bargeMode q.barge = 2)) = true → bargeMode q.barge = 2 :=
    fun q hframe hkeep => by simpa [Option.isNone_iff_eq_none.mp hframe] using hkeep
  rcases h with ⟨b, ⟨⟨b', -, hb⟩, -⟩, d, hd, q, ⟨hq, hframe⟩, rfl⟩ | ⟨q, ⟨hq, hframe⟩, rfl⟩
  · rw [← hb, List.mem_map] at hd
    obtain ⟨d', -, rfl⟩ := hd
    exact hkept q hframe (List.mem_filter.mp hq).2
  · exact hkept q hframe (hq.elim And.right And.right)

/-- The state and the status that the job's end writes. -/
theorem Launch.outcome_eq (l : Launch) :
    l.outcome = if l.faulted then (4, 6) else if l.aborted then (3, 5) else if l.errs = 0 then (2, 0) else (2, 4) := by
  rw [Launch.outcome, ite_not]

/-- The state with the block of a job that ends. -/
def State.writeOutcome (s : State) (l : Launch) (pa : Nat) : State :=
  s.deviceBytes pa (ofWords (jcbWords l.expected l.doneN l.errs l.outcome.1 l.seq))

/-- The contexts of a launch send their counts. -/
def State.sendAllCounts (s : State) (acc : Nat) : State := (s.launchCtxs acc).foldl (fun s p => s.sendCounts p.1 p.2.1) s

theorem State.sendAllCounts_countsSent (s : State) (acc : Nat) : CountsSent s (s.sendAllCounts acc) :=
  .foldl _ (fun _ _ => State.sendCounts_countsSent ..) _ _

theorem State.dumpCounters_off {s : State} {l : Launch} (h : (s.ret l.ring.toNat).ctrDump.getLsbD 0 = false) (status : Nat) :
    s.dumpCounters l status = s :=
  if_pos (by rw [Bool.not_eq_true', ← h]; rfl)

/-- A job that ends: its launch, and where its block lies. -/
structure JobOver (s : State) (acc : Nat) (l : Launch) (q : Place) : Prop where
  launch   : s.launch? acc = some l
  admitted : l.admitted = true
  live     : l.ended = false
  done     : l.doneN = l.expected
  place    : s.xlateFront l.ring l.jcb true = .ok q
  sound    : Sound s q.pa 64

/-- The state once the block is written and the counts are in. -/
def State.jobCounted (s : State) (acc : Nat) (l : Launch) (q : Place) : State := (s.writeOutcome l q.pa).sendAllCounts acc

theorem State.jobCounted_countsSent (s : State) (acc : Nat) (l : Launch) (q : Place) : CountsSent (s.writeOutcome l q.pa) (s.jobCounted acc l q) :=
  State.sendAllCounts_countsSent ..

theorem State.jobCounted_regs (s : State) (acc : Nat) (l : Launch) (q : Place) : (s.jobCounted acc l q).regs = s.regs := by
  obtain ⟨_, _, _, _, hcounted⟩ := (s.jobCounted_countsSent acc l q).rest
  rw [hcounted]
  exact State.deviceBytes_regs ..

theorem State.jobCounted_homeRead (s : State) (acc : Nat) (l : Launch) (q : Place) (pa n : Nat) :
    (s.jobCounted acc l q).homeRead pa n = (s.writeOutcome l q.pa).homeRead pa n := by
  obtain ⟨_, _, _, _, hcounted⟩ := (s.jobCounted_countsSent acc l q).rest
  rw [hcounted]
  rfl

theorem Launch.outcome_fst_lt (l : Launch) : l.outcome.1 < 2 ^ 32 := by
  rw [Launch.outcome]
  split_ifs <;> decide

section
variable {s : State} (hwatches : s.watches = []) (acc : Nat) (l : Launch) (q : Place)
include hwatches

theorem State.jobCounted_ringCmds : (s.jobCounted acc l q).ringCmds = s.ringCmds := by
  obtain ⟨_, _, _, _, _, _, _, _, _, hwritten, -, -⟩ := (State.deviceBytes_launchesKept ..).kept hwatches
  obtain ⟨_, _, _, _, hcounted⟩ := (s.jobCounted_countsSent acc l q).rest
  rw [hcounted, State.writeOutcome, hwritten]

theorem State.jobCounted_noCtx (h : s.ctxs = []) : (s.jobCounted acc l q).ctxs = [] := by
  obtain ⟨_, _, _, _, _, _, _, _, _, hwritten, hctxs, -⟩ := (State.deviceBytes_launchesKept ..).kept hwatches
  refine (s.jobCounted_countsSent acc l q).noCtx ?_
  rw [State.writeOutcome, hwritten]
  rw [h] at hctxs
  exact List.map_eq_nil_iff.mp hctxs

theorem State.jobCounted_noFrame (h : s.frames = []) : (s.jobCounted acc l q).frames = [] := by
  obtain ⟨_, _, _, _, _, _, _, _, _, hwritten, -, hframes⟩ := (State.deviceBytes_launchesKept ..).kept hwatches
  obtain ⟨_, _, _, _, hcounted⟩ := (s.jobCounted_countsSent acc l q).rest
  rw [hcounted, State.writeOutcome, hwritten]
  rw [h] at hframes
  exact List.map_eq_nil_iff.mp hframes

theorem State.jobCounted_launch? {x : Launch} (h : s.launch? acc = some x) :
    ∃ counts, (s.jobCounted acc l q).launch? acc = some { x with counts := counts } := by
  obtain ⟨_, _, _, _, _, _, _, _, _, hwritten, -, -⟩ := (State.deviceBytes_launchesKept ..).kept hwatches
  refine (s.jobCounted_countsSent acc l q).launch acc x ?_
  rw [State.writeOutcome, hwritten]
  exact h

/-- A job's end, where no writer is to be written back and nothing is dumped or traced: the block is written, counts are sent, and the job closes. -/
theorem JobOver.exec {acc : Nat} {l : Launch} {q : Place} (h : JobOver s acc l q) (hwrites : l.writes = [])
    (hdump : (s.ret l.ring.toNat).ctrDump.getLsbD 0 = false) (huntraced : Untraced s) :
    exec (.jobEnd acc) s = .next ((s.jobCounted acc l q).closeJob acc l.outcome.2 l.errs) := by
  obtain ⟨counts, hfound⟩ := State.jobCounted_launch? hwatches acc l q h.launch
  have hregs := s.jobCounted_regs acc l q
  have hcounters : (s.jobCounted acc l q).dumpCounters (((s.jobCounted acc l q).launch? acc).getD l) l.outcome.2 = s.jobCounted acc l q := by
    rw [hfound]
    exact State.dumpCounters_off (by rw [State.ret, hregs]; exact hdump) _
  have htrace : (s.jobCounted acc l q).traceLaunch l 8 l.doneN = s.jobCounted acc l q :=
    State.trace_untraced (untraced_of_regs huntraced hregs) _ (by decide) ..
  have hjcb : (s.writeJcb l.ring l.jcb (jcbWords l.expected l.doneN l.errs l.outcome.1 l.seq)).getD s = s.writeOutcome l q.pa := by
    rw [State.writeJcb_sound h.place h.sound, Option.getD_some, State.writeOutcome]
  have hguard : (!l.admitted || l.ended || decide (l.doneN ≠ l.expected)) = false := by simp [h.admitted, h.live, h.done]
  change execJobEnd acc s = _
  simp only [execJobEnd, h.launch]
  rw [hguard, if_neg Bool.false_ne_true, hwrites, List.foldl_nil, hjcb]
  change Host.Outcome.next ((((s.jobCounted acc l q).dumpCounters (((s.jobCounted acc l q).launch? acc).getD l) l.outcome.2).traceLaunch l 8 l.doneN).closeJob
    acc l.outcome.2 l.errs) = _
  rw [hcounters, htrace]

/-- The job's record is due; its block reads what the job came to; its queues keep only what waits to be notified; and with no context and no
frame left its launch is live no longer. -/
theorem JobOver.happens {c : RingCmd} {l : Launch} {q : Place} (h : JobOver s c.acc l q) (hc : StandsAlone s c) (hwrites : l.writes = [])
    (hdump : (s.ret l.ring.toNat).ctrDump.getLsbD 0 = false) (huntraced : Untraced s) (hline : InLine q.pa 32) (hroom : Roomy s q.pa) :
    Happens s (.jobEnd c.acc) fun t => Completed s t c.ring c.acc l.outcome.2 l.errs ∧
      (∀ i v, ((jcbWords l.expected l.doneN l.errs l.outcome.1 l.seq).map BitVec.toNat)[i]? = some v → t.homeRead (q.pa + 8 * i) 8 = v) ∧
      (∀ u, t.launch? c.acc = some u → u.ended = true ∧ ∀ z ∈ u.allQueued, bargeMode z.2.barge = 2) ∧
      (s.ctxs = [] → s.frames = [] → ∀ u ∈ t.launches, u.acc ≠ c.acc) := by
  refine ⟨_, h.exec hwatches hwrites hdump huntraced, ?_, fun i v hi => ?_, fun u hu => ?_, fun hctxs hframes => ?_⟩
  · exact hc.closeJob (State.jobCounted_ringCmds hwatches ..) (by rw [State.jobCounted_regs]) _ _
  · rw [State.closeJob_homeRead, State.jobCounted_homeRead]
    exact State.homeRead_deviceBytes hroom (by simpa [jcbWords] using hline) hi
  · obtain ⟨x, -, rfl⟩ := State.launch?_of_closeJob hu
    exact ⟨rfl, fun z hz => Launch.endQueues_allQueued hz⟩
  · obtain ⟨counts, hfound⟩ := State.jobCounted_launch? hwatches c.acc l q h.launch
    exact State.closeJob_gone hfound h.admitted (State.jobCounted_noCtx hwatches _ _ _ hctxs) (State.jobCounted_noFrame hwatches _ _ _ hframes) _ _

end
end Sys2Proof.Machine
end

section
/-! PROOFS. Launches are admitted and end (O51). -/

namespace Sys2Proof.Machine
open Sys2Proof.Safety

/-! ### A lasting error at the record (R383) -/

theorem Stored.ringCmds {s t : State} (h : Stored s t) : t.ringCmds = s.ringCmds := by
  obtain ⟨_, _, _, _, _, _, _, _, _, _, rfl⟩ := h
  rfl

theorem State.storageError_lasting_ringCmds (s : State) (pa : Nat) (die : Option Nat) (lseq : W64) :
    (s.storageError .lasting pa die lseq).ringCmds = s.ringCmds :=
  (State.systemBytes_stored ..).ringCmds

theorem State.storageError_lasting_cps (s : State) (pa : Nat) (die : Option Nat) (lseq : W64) :
    (s.storageError .lasting pa die lseq).regs.cps = s.regs.cps := by
  change ((s.errorRecord _ 2 die _ _ lseq).regs).cps = _
  rw [State.errorRecord_regs]

theorem LaunchBegins.lasting {s : State} {c : RingCmd} {l : Launch} {items : List W32} {bytes : List Byte} {p : Place} (h : LaunchBegins s c l)
    (hs : HandlesReady s c items) (hr : RecordRead s c bytes p) : Happens s (.launch c.acc .lasting) fun t =>
      Completed s t c.ring c.acc 8 0 ∧ ∀ u, t.launch? c.acc = some u → u.ended = true :=
  ⟨_, h.exec_lasting hs hr,
    h.alone.endUnadmitted (State.storageError_lasting_ringCmds ..) (State.storageError_lasting_cps ..) 8, fun _ => State.endUnadmitted_ended⟩

/-! ### A launch as the record describes it (R47) -/

theorem Launch.filled_allow (l : Launch) (r : List W64) (items : List W32) (count now : Nat) :
    (l.filled r items count now).allow.toNat = slice (wordAt r 0) 15 8 := by
  have hlt : slice (wordAt r 0) 15 8 < 2 ^ 8 := Nat.mod_lt _ (by decide)
  rw [Launch.filled, BitVec.toNat_ofNat, Nat.mod_eq_of_lt hlt]

theorem State.bargesOk_entries {s : State} {r : List W64} {bs : List (List W64)} (h : s.bargesOk r bs = true) :
    (bs.map bargeEntry).eraseDups.length ≤ 1024 := by
  simp only [State.bargesOk, Bool.and_eq_true, decide_eq_true_eq] at h
  exact h.2

theorem LaunchBegins.of_inHand {s : State} {c : RingCmd} {l : Launch} (hin : InHand s c.acc c) (hop : c.op = opLaunch)
    (hlaunch : s.launch? c.acc = some l) (hnew : l.admitted = false) (hlive : l.ended = false)
    (hheld : ¬∃ d ∈ s.ringCmds, d.ring = c.ring ∧ d.acc < c.acc ∧ d.status = none ∧ (d.op = 2 ∨ d.op = 3)) : LaunchBegins s c l := by
  have hhand := InHand.ringCmd? hin
  obtain ⟨-, hmem, -, -, halone⟩ := hin
  exact ⟨⟨hmem, halone⟩, hhand, hlaunch, hop, hnew, hlive, (s.unheld_iff c).mpr hheld⟩

theorem State.allBound_iff (s : State) (items : List W32) : items.all (fun x => (tget s.handles (itemHandle x)).isSome) = true ↔
    ∀ x ∈ items, tget s.handles (itemHandle x) ≠ none := by
  simp only [List.all_eq_true, Option.isSome_iff_ne_none]

/-- Settles O51: a LAUNCH that starts is followed check by check, and a job's end step by step. -/
theorem launchesAreAdmittedAndEnd : Obligations.LaunchesAreAdmittedAndEnd := by
  unfold Obligations.LaunchesAreAdmittedAndEnd
  intro s c l items bytes barges p q acc r held begins starts jcb refused listed
  have hbegins : begins → LaunchBegins s c l := fun ⟨hin, hop, hlaunch, hnew, hlive, hheld⟩ => .of_inHand hin hop hlaunch hnew hlive hheld
  have hlisted : listOk c items = true ↔ listed := listOk_iff c items
  refine ⟨fun hb hlist => ?_, fun ⟨hb, hlist⟩ hl hitems => ?_, fun ⟨hb, hlist⟩ => ⟨fun hl => ?_, fun hl hbusy => ?_, fun hl hfree => ⟨fun hunbound => ?_,
    fun hbound hread hplace hsound => ?_⟩⟩, ?_⟩
  · exact (hbegins hb).refused ((hbegins hb).exec_unreadList hlist _)
  · have h := hbegins hb
    have hs : HandlesReady s c items := ⟨hlist, hlisted.mpr hl, List.all_eq_true.mpr fun x hx => (hitems x hx).1,
      (s.allBound_iff items).mpr fun x hx => (hitems x hx).2⟩
    refine ⟨fun hread => h.refused (h.exec_unreadRecord hs hread _), fun hread hplace hsound => ?_⟩
    have hr : RecordRead s c bytes p := ⟨hread, hplace, hsound⟩
    refine ⟨h.lasting hs hr, fun hrec => ⟨fun hbarges => h.refused (h.exec_unreadBarges hs hr hrec hbarges), fun hbarges hok => ⟨fun k hx => ?_,
      fun hx hunsound => ?_⟩⟩⟩
    · exact h.refused (h.exec_unwritten hs hr hrec hbarges hok fun ws => State.writeJcb_error hx ws)
    · exact h.refused (h.exec_unwritten hs hr hrec hbarges hok fun ws => State.writeJcb_unsound hx hunsound ws)
  · exact (hbegins hb).refused ((hbegins hb).exec_badList hlist (by rwa [← Bool.not_eq_true, hlisted]) _)
  · obtain ⟨x, hx, hheld⟩ := hbusy
    exact ⟨s, (hbegins hb).exec_waits hlist (hlisted.mpr hl) (List.all_eq_false.mpr ⟨x, hx, Bool.eq_false_iff.mp hheld⟩) _, rfl⟩
  · obtain ⟨x, hx, hnone⟩ := hunbound
    refine (hbegins hb).refused ((hbegins hb).exec_unbound hlist (hlisted.mpr hl) (List.all_eq_true.mpr hfree) (List.all_eq_false.mpr ⟨x, hx, ?_⟩) _)
    exact fun hbound => Option.isSome_iff_ne_none.mp hbound hnone
  · have h := hbegins hb
    have hs : HandlesReady s c items := ⟨hlist, hlisted.mpr hl, List.all_eq_true.mpr hfree, (s.allBound_iff items).mpr hbound⟩
    have hr : RecordRead s c bytes p := ⟨hread, hplace, hsound⟩
    refine ⟨fun hrec => h.refused (h.exec_badRecord hs hr hrec), fun hrec hbarges => ⟨fun hok => h.refused (h.exec_badBarges hs hr hrec hbarges hok),
      fun hok hx hjsound hline hroom hunwatched hbasins hparked => ?_⟩⟩
    obtain ⟨t, ht, hblock, hcmds, push, hone⟩ := h.admits hs hr hrec hbarges hok hx hjsound hline hroom hunwatched.1
    have hallow := l.filled_allow r items barges.length s.now
    obtain ⟨basins, qs, hqueue, hqs, hlevels, hbasin⟩ := Launch.queueInitial_fresh (l := l.filled r items barges.length s.now) hbasins hparked
      (State.bargesOk_entries hok) s.now push
    rw [hqueue] at hone
    refine ⟨t, ht, fun hitems => ?_, hcmds, _, hone, rfl, rfl, hallow, rfl, rfl, rfl, rfl, rfl, rfl, rfl, hqs, hlevels, hbasin, rfl, rfl⟩
    have hwords := hblock hitems
    rw [List.map_append, jcbWords_toNat _ _ _ (by decide)] at hwords
    exact hwords
  · intro hlaunch hadmitted hlive hdone hwrites hacc hx hsound hline hroom hdump huntraced hunwatched hmem halone out
    have hout : l.outcome = out := l.outcome_eq
    have hover : JobOver s acc l q := ⟨hlaunch, hadmitted, hlive, hdone, hx, hsound⟩
    have hend := hover.happens hunwatched.1 ⟨hmem, halone⟩ hwrites hdump huntraced hline hroom
    rw [jcbWords_toNat _ _ _ l.outcome_fst_lt, hout] at hend
    exact hend

end Sys2Proof.Machine
end

section
/-! PROOFS. What the encoding rules of layout LA say of a word's operands (R146 to R148), and what a result for each lane makes of a core
(for O30 and O33). -/

namespace Sys2Proof.Machine
open Sys2Proof.Safety

/-- A word holds what specification p of its opcode allows. -/
structure FitsSpec (p : LaneSpec) (w : LA) : Prop where
  fmt : if p.fmts.isEmpty then w.fmt = .untyped else w.fmt ∈ p.fmts
  sub : w.sub.toNat ∈ p.subs
  d   : p.d.accepts w.fmt w.d = true
  b   : p.b.accepts w.fmt w.b = true
  c   : p.c.accepts w.fmt w.c = true

theorem FitsSpec.of_ok {op : Nat} {w : LA} {p : LaneSpec} (h : w.ok op = true) (hp : laSpec op w.sub.toNat = some p) : FitsSpec p w := by
  rw [LA.ok, hp] at h
  simp only [Bool.and_eq_true, List.contains_iff_mem] at h
  obtain ⟨⟨⟨⟨⟨⟨⟨⟨⟨⟨hfmt, -⟩, hsub⟩, hd⟩, -⟩, hb⟩, hc⟩, -⟩, -⟩, -⟩, -⟩ := h
  refine ⟨?_, hsub, hd, hb, hc⟩
  split at hfmt <;> simp_all

theorem accepts_of_ok {op : Nat} {w : LA} {p : Pos} (h : w.ok op = true) (hp : (laSpec op w.sub.toNat).map LaneSpec.d = some p) :
    p.accepts w.fmt w.d = true := by
  obtain ⟨q, hq, rfl⟩ := Option.map_eq_some_iff.mp hp
  exact (FitsSpec.of_ok h hq).d

theorem Pos.eq_v_of_vOnly {f : Fmt} {o : Opd} (h : Pos.vOnly.accepts f o = true) : ∃ d, o = .v d := by
  cases o with
  | v d => exact ⟨d, rfl⟩
  | _ => simp [Pos.vOnly, Pos.accepts] at h

/-- The v position of ISECT's counts, whose register holds 32 bits under either format (R229). -/
theorem Pos.eq_v_of_vIndex {f : Fmt} {o : Opd} (h : (Pos.opd true false false false false .index).accepts f o = true) : ∃ d, o = .v d := by
  cases o with
  | v d => exact ⟨d, rfl⟩
  | _ => simp [Pos.accepts] at h

theorem Pos.eq_v_or_q_of_vq {f : Fmt} {o : Opd} (h : Pos.vq.accepts f o = true) : (∃ d, o = .v d) ∨ ∃ d, o = .q d := by
  cases o with
  | v d => exact .inl ⟨d, rfl⟩
  | q d => exact .inr ⟨d, rfl⟩
  | _ => simp [Pos.vq, Pos.accepts] at h

theorem Pos.eq_q_of_qOnly {f : Fmt} {o : Opd} (h : Pos.qOnly.accepts f o = true) : ∃ d, o = .q d := by
  cases o with
  | q d => exact ⟨d, rfl⟩
  | _ => simp [Pos.qOnly, Pos.accepts] at h

theorem Pos.eq_m_of_mask {low : Nat} {f : Fmt} {o : Opd} (h : (Pos.mask low).accepts f o = true) : ∃ m, o = .m m ∧ low ≤ m.toNat := by
  cases o with
  | m d => exact ⟨d, rfl, by simpa [Pos.accepts] using h⟩
  | _ => simp [Pos.accepts] at h

theorem Pos.eq_unused {f : Fmt} {o : Opd} (h : Pos.unused.accepts f o = true) : o = .unused := by
  cases o with
  | unused => rfl
  | _ => simp [Pos.accepts] at h

/-- A destination of v registers is none of part of a q register (R199). -/
theorem whole_of_v {w : LA} {d : BitVec 8} (h : w.d = .v d) : Whole w := .inl fun r hr => by rw [h] at hr; cases hr

/-! ### Results that agree on the lanes -/

theorem putsV_congr {x y : Core} {d : Nat} {f : Fmt} {nwb : Bool} {res res' : Nat → Option Nat} (h : PutsV x y d f nwb res)
    (he : ∀ l < 16, res l = res' l) : PutsV x y d f nwb res' := by
  refine ⟨h.rest, h.kept, fun hn l hl r hr => h.wrote hn l hl r (by rw [he l hl, hr]),
    fun hn l hl hr => h.masked hn l hl (by rw [he l hl, hr]), h.others, h.tags, ?_⟩
  obtain ⟨b, hb, htag, hsrc, hlanes⟩ := h.pushed
  exact ⟨b, hb, htag, hsrc, fun l hl => by simpa only [he l hl] using hlanes l hl⟩

/-- A q register takes a result modulo its format's width. -/
theorem putsQ_congr {x y : Core} {d : BitVec 4} {f : Fmt} {nwb : Bool} {r r' : Nat} (h : PutsQ x y d f nwb r)
    (he : r % 2 ^ Fmt.width f = r' % 2 ^ Fmt.width f) : PutsQ x y d f nwb r' :=
  ⟨h.rest, by simp only [h.wrote, signed, he], h.others⟩

theorem putsM_congr {x y : Core} {d : BitVec 3} {nwb : Bool} {p p' : Nat → Bool} (h : PutsM x y d nwb p) (he : ∀ l < 16, p l = p' l) :
    PutsM x y d nwb p' :=
  ⟨h.rest, fun l hl => by rw [h.wrote l hl, he l hl], h.others⟩

theorem eachLane_congr {x y : Core} {w : LA} {f : Fmt} {r r' : Nat → Nat} (h : EachLane x y w f r) (he : ∀ l < 16, r l = r' l) :
    EachLane x y w f r' := by
  unfold EachLane at h ⊢
  split
  · rename_i d hd; rw [hd] at h; exact putsV_congr h fun l hl => by rw [he l hl]
  · rename_i d hd; rw [hd] at h; exact putsQ_congr h (by rw [he 0 (by decide)])
  · split at h <;> simp_all

/-- Bits of the lanes that a word acts on are those of the selected lanes. -/
theorem setBits_gov (x : Core) (gm : BitVec 3) : setBits 16 (x.gov gm).toNat = selected x gm := by
  exact List.filter_congr fun l _ => (bit_gov x gm l : _)

theorem onLane_lt {x : Core} {gm : BitVec 3} {l : Nat} (h : onLane x gm l = true) : l < 16 := by
  by_contra hl
  simp [onLane, BitVec.getLsbD_of_ge _ _ (Nat.le_of_not_lt hl)] at h

theorem mem_selected {x : Core} {gm : BitVec 3} {l : Nat} : l ∈ selected x gm ↔ onLane x gm l = true := by
  simp only [selected, List.mem_filter, List.mem_range, and_iff_right_iff_imp]; exact onLane_lt

/-! ### Tags of sources -/

theorem tagged_mono {x : Core} {o : Opd} {k : Nat} {T T' : Fmt → Prop} (h : Tagged x o k T) (hT : ∀ t, T t → T' t) : Tagged x o k T' := by
  cases o with
  | v d => exact fun e he => hT _ (h e he)
  | a d => exact hT _ h
  | b d => exact hT _ h
  | _ => trivial

theorem dataTag_iff (x : Core) (f : Fmt) (p : Fmt → Fmt → Bool) (o : Opd) :
    x.dataTag f p o = true ↔ Tagged x o (regCount f) (fun t => p f t = true) := by
  rw [Core.dataTag, tagOk_iff, regsFor_eq]

end Sys2Proof.Machine
end

section
/-! PROOFS. The words that read other lanes of their core (O30). -/

namespace Sys2Proof.Machine
open Sys2Proof.Safety

/-! ### Codes that combine (R226) -/

theorem isInt_eq (f : Fmt) : Fmt.isInt f = isIntFmt f := by cases f <;> decide

theorem rfAdd_eq (f : Fmt) (r : Rnd) : rfAdd f r = addCodes f r := by
  funext u v; simp only [rfAdd, addCodes, isInt_eq]

theorem rfLeast_eq (greatest : Bool) (f : Fmt) (r : Rnd) : rfLeast greatest f r = leastCodes greatest f := by
  funext u v
  simp only [rfLeast, leastCodes, codeInt, isInt_eq, isSigned_eq]
  cases greatest <;> simp

theorem leastCode_eq (f : Fmt) : leastCode f =
    if isIntFmt f then (if isSignedFmt f then 2 ^ (Fmt.width f - 1) else 0) else round (.inf true) f .rne false := by
  rw [leastCode, isInt_eq]
  split
  · cases f <;> simp_all [isIntFmt, isSignedFmt] <;> decide
  · rfl

/-! ### Trees and scans over the lanes -/

/-- What lane l brings to a reduction or scan of word w: nothing where it is not selected, and any NaN as the canonical one (R51). -/
def broughtBy (x : Core) (w : LA) (l : Nat) : Option Nat :=
  if onLane x w.gm l then some (if valueOf w.fmt (x.data w.fmt w.a l) = .nan then canonNan w.fmt else x.data w.fmt w.a l) else none

theorem Core.selected_eq (x : Core) (w : LA) : x.selected w = (List.range 16).map (broughtBy x w) := by
  simp only [Core.selected, bit_gov, canonCode]; rfl

theorem redLevel_cons (op : Nat → Nat → Nat) (u v : Option Nat) (t : List (Option Nat)) :
    redLevel op (u :: v :: t) = joined op u v :: redLevel op t := by
  cases u <;> cases v <;> rfl

/-- One level of the model's reduction is one level of the tree of R226. -/
theorem redLevel_treeAt (op : Nat → Nat → Nat) (lane : Nat → Option Nat) (level n k : Nat) :
    redLevel op ((List.range' (2 * k) (2 * n)).map (treeAt op lane level)) = (List.range' k n).map (treeAt op lane (level + 1)) := by
  induction n generalizing k with
  | zero => rfl
  | succ n ih =>
    rw [Nat.mul_succ, List.range'_succ, List.range'_succ, List.map_cons, List.map_cons, redLevel_cons, List.range'_succ, List.map_cons, ← ih (k + 1)]
    rfl

theorem redTree_lanes (op : Nat → Nat → Nat) (lane : Nat → Option Nat) : redTree op ((List.range 16).map lane) = treeAt op lane 4 0 := by
  have hlane : (List.range 16).map lane = (List.range' (2 * 0) (2 * 8)).map (treeAt op lane 0) := rfl
  rw [redTree, hlane, redLevel_treeAt op lane 0 8 0, redLevel_treeAt op lane 1 4 0, redLevel_treeAt op lane 2 2 0, redLevel_treeAt op lane 3 1 0]
  rfl

theorem scanLanes_some (op : Nat → Nat → Nat) (ex : Bool) (ident : Nat) (acc : Option Nat) (a : Nat) (t : List (Option Nat)) :
    scanLanes op ex ident acc (some a :: t) =
      (if ex then some (acc.getD ident) else joined op acc (some a)) :: scanLanes op ex ident (joined op acc (some a)) t := by
  cases acc <;> cases ex <;> rfl

/-- A scan from lane k on, with what it has gathered until then. -/
theorem scanLanes_range' (op : Nat → Nat → Nat) (ex : Bool) (ident : Nat) (lane : Nat → Option Nat) (n k i : Nat) (hi : i < n) :
    (scanLanes op ex ident (gathered op lane k) ((List.range' k n).map lane)).getD i none =
      if (lane (k + i)).isSome then (if ex then some ((gathered op lane (k + i)).getD ident) else gathered op lane (k + i + 1)) else none := by
  induction n generalizing k i with
  | zero => omega
  | succ n ih =>
    have hcons : scanLanes op ex ident (gathered op lane k) ((List.range' k (n + 1)).map lane) =
        (if (lane k).isSome then (if ex then some ((gathered op lane k).getD ident) else gathered op lane (k + 1)) else none) ::
          scanLanes op ex ident (gathered op lane (k + 1)) ((List.range' (k + 1) n).map lane) := by
      rw [List.range'_succ, List.map_cons, gathered]
      cases lane k with
      | none => cases gathered op lane k <;> rfl
      | some a => exact scanLanes_some ..
    rw [hcons]
    cases i with
    | zero => rfl
    | succ i => rw [List.getD_cons_succ, ih (k + 1) i (by omega), Nat.add_right_comm k 1 i]; rfl

/-! ### Counts and places of the selected lanes (R229, R230) -/

/-- A selected lane's place among the selected lanes is the number of those below it. -/
theorem idxOf_selected {x : Core} {gm : BitVec 3} {l : Nat} (h : onLane x gm l = true) :
    (selected x gm).idxOf l = (List.range l).countP (onLane x gm) := by
  obtain ⟨m, hm⟩ : ∃ m, 16 = l + (m + 1) := ⟨15 - l, by have := onLane_lt h; omega⟩
  have hnot : l ∉ (List.range l).filter (onLane x gm) := fun hl => by simp at hl
  rw [selected, hm, List.range_add, List.filter_append, List.idxOf_append_of_notMem hnot, List.range_succ_eq_map, List.map_cons, List.filter_cons,
    Nat.add_zero, if_pos h, List.idxOf_cons_self, Nat.add_zero, List.countP_eq_length_filter]

/-- The mask that ISECT makes has the bits of the lanes that pass. -/
theorem hits_getLsbD (x : Core) (gm : BitVec 3) (p : Nat → Bool) {l : Nat} (hl : l < 16) :
    (BitVec.ofNat 16 (((selected x gm).filter p).foldl (fun m l => m + 2 ^ l) 0)).getLsbD l = (onLane x gm l && p l) := by
  rw [selected, List.filter_filter, BitVec.getLsbD_ofNat, (powers_where _ 16).2 l hl]
  simp [hl, Bool.and_comm]

/-! ### The words as the shared operations (R225 to R230) -/

theorem exec_shfl (w : LA) (s : State) : exec (.shfl w) s = s.shuffle (.shfl w) w fun _ e => e := rfl
theorem exec_shflRot (w : LA) (s : State) : exec (.shflRot w) s = s.shuffle (.shflRot w) w fun l e => l + e := rfl
theorem exec_shflXor (w : LA) (s : State) : exec (.shflXor w) s = s.shuffle (.shflXor w) w fun l e => l ^^^ e := rfl
theorem exec_bcast (w : LA) (s : State) : exec (.bcast w) s = s.shuffle (.bcast w) w fun _ e => e := rfl
theorem exec_redAdd (w : LA) (s : State) : exec (.redAdd w) s = s.reduce (.redAdd w) w rfAdd 0 := rfl
theorem exec_redMin (w : LA) (s : State) : exec (.redMin w) s = s.reduce (.redMin w) w (rfLeast false) 0 := rfl
theorem exec_redMax (w : LA) (s : State) : exec (.redMax w) s = s.reduce (.redMax w) w (rfLeast true) 0 := rfl
theorem exec_redAnd (w : LA) (s : State) : exec (.redAnd w) s = s.reduce (.redAnd w) w rfAnd (2 ^ 64 - 1) := rfl
theorem exec_redOr (w : LA) (s : State) : exec (.redOr w) s = s.reduce (.redOr w) w rfOr 0 := rfl
theorem exec_scanAdd (w : LA) (s : State) : exec (.scanAdd w) s = s.scan (.scanAdd w) w rfAdd 0 := rfl
theorem exec_scanMax (w : LA) (s : State) : exec (.scanMax w) s = s.scan (.scanMax w) w (rfLeast true) (leastCode w.fmt) := rfl
theorem exec_isect (w : LA) (s : State) : exec (.isect w) s = execIsect w s := rfl
theorem exec_compact (w : LA) (s : State) : exec (.compact w) s = s.pack (.compact w) w fun a sel l => sel[l]?.map a := rfl
theorem exec_expand (w : LA) (s : State) :
    exec (.expand w) s = s.pack (.expand w) w fun a sel l => if sel.contains l then some (a (sel.idxOf l)) else none := rfl

/-! ### The words -/

section
variable {s : State} {n slot k : Nat} {c : Ctx} {x : Core} {w : LA}

theorem shuffle_performs {i : Instr} {src src' : Nat → Nat → Nat} (hr : LaneReady s i n slot k c x (laOpds w w.fmt (regCount w.fmt) 1 0))
    (ha : Tagged x w.a (regCount w.fmt) (SameWidth w.fmt)) (hb : Tagged x w.b 1 IsI32) (hd : ∃ d, w.d = .v d)
    (he : exec i s = s.shuffle i w src) (hsrc : ∀ l < 16, ∀ e < 16, src l e % 16 = src' l e) :
    Performs s i n k fun y => EachLane x y w w.fmt fun l => x.data w.fmt w.a (src' l (x.index w.b l % 16)) := by
  obtain ⟨d, hd⟩ := hd
  rw [State.shuffle, regsFor_eq] at he
  refine State.laneLA_performs hr (.inr (whole_of_v hd)) ?_ ?_ he
  · have ha' := (dataTag_iff x w.fmt sameWidth w.a).mpr (tagged_mono ha fun t => (sameWidth_iff _ t).mpr)
    have hb' := (tagOk_iff x w.b 1 isI32).mpr (tagged_mono hb fun t => (isI32_iff t).mpr)
    simp only [ha', Core.indexTag, hb', Bool.and_self]
  · exact eachLane_congr (x.each_eachLane w w.fmt _ (.inl ⟨d, hd⟩)) fun l hl => by rw [hsrc l hl _ (Nat.mod_lt _ (by decide))]

theorem redTag_of (h : Tagged x w.a (regCount w.fmt) (if isIntFmt w.fmt then SameInt w.fmt else (· = w.fmt))) : x.redTag w = true := by
  refine (dataTag_iff x w.fmt _ w.a).mpr (tagged_mono h fun t ht => ?_)
  rw [isInt_eq]
  split <;> rename_i hi
  · exact (sameInt_iff _ t).mpr (by rwa [if_pos hi] at ht)
  · rw [if_neg hi] at ht; exact decide_eq_true ht

theorem reduce_performs {i : Instr} {op : RedFn} {op' : Nat → Nat → Nat} {empty empty' : Nat}
    (hr : LaneReady s i n slot k c x (laOpds w w.fmt (regCount w.fmt) 0 0))
    (ha : Tagged x w.a (regCount w.fmt) (if isIntFmt w.fmt then SameInt w.fmt else (· = w.fmt))) (hd : ∃ d, w.d = .q d)
    (he : exec i s = s.reduce i w op empty) (hop : op w.fmt w.rnd = op') (hempty : empty % 2 ^ Fmt.width w.fmt = empty' % 2 ^ Fmt.width w.fmt) :
    Performs s i n k fun y => QGiven x y w w.fmt ((treeAt op' (broughtBy x w) 4 0).getD empty') := by
  obtain ⟨d, hd⟩ := hd
  rw [State.reduce, regsFor_eq] at he
  refine State.laneLA_performs hr (.inl rfl) (redTag_of ha) ?_ he
  simp only [QGiven, hd, hop, Core.selected_eq, redTree_lanes]
  refine putsQ_congr (Core.putQ_puts ..) ?_
  cases treeAt op' (broughtBy x w) 4 0 with
  | none => exact hempty
  | some _ => rfl

theorem scan_performs {i : Instr} {op : RedFn} {op' : Nat → Nat → Nat} {ident ident' : Nat}
    (hr : LaneReady s i n slot k c x (laOpds w w.fmt (regCount w.fmt) 0 0))
    (ha : Tagged x w.a (regCount w.fmt) (if isIntFmt w.fmt then SameInt w.fmt else (· = w.fmt))) (hd : ∃ d, w.d = .v d)
    (he : exec i s = s.scan i w op ident) (hop : op w.fmt w.rnd = op') (hident : ident = ident') :
    Performs s i n k fun y => LanesGiven x y w w.fmt fun l => if onLane x w.gm l then
      (if w.sub = 1 then some ((gathered op' (broughtBy x w) l).getD ident') else gathered op' (broughtBy x w) (l + 1)) else none := by
  subst hident
  obtain ⟨d, hd⟩ := hd
  rw [State.scan, regsFor_eq] at he
  refine State.laneLA_performs hr (.inr (whole_of_v hd)) (redTag_of ha) ?_ he
  simp only [LanesGiven, hd, hop, Core.selected_eq, List.range_eq_range']
  refine putsV_congr (Core.putV_puts ..) fun l hl => ?_
  have hsome : (broughtBy x w (0 + l)).isSome = onLane x w.gm l := by
    rw [Nat.zero_add, broughtBy]; cases onLane x w.gm l <;> rfl
  have hscan := scanLanes_range' op' (decide (w.sub = 1)) ident (broughtBy x w) 16 0 l hl
  rw [hsome, Nat.zero_add] at hscan
  simp only [decide_eq_true_eq] at hscan
  exact hscan

theorem pack_performs {i : Instr} {res : (Nat → Nat) → List Nat → Nat → Option Nat} {res' : Nat → Option Nat}
    (hr : LaneReady s i n slot k c x (laOpds w w.fmt (regCount w.fmt) 0 0)) (ha : Tagged x w.a (regCount w.fmt) (SameWidth w.fmt))
    (hd : ∃ d, w.d = .v d) (he : exec i s = s.pack i w res)
    (hres : ∀ l < 16, res (fun l => x.data w.fmt w.a l) (selected x w.gm) l = res' l) :
    Performs s i n k fun y => LanesGiven x y w w.fmt res' := by
  obtain ⟨d, hd⟩ := hd
  rw [State.pack, regsFor_eq] at he
  refine State.laneLA_performs hr (.inr (whole_of_v hd))
    ((dataTag_iff x w.fmt sameWidth w.a).mpr (tagged_mono ha fun t => (sameWidth_iff _ t).mpr)) ?_ he
  simp only [LanesGiven, hd, setBits_gov]
  exact putsV_congr (Core.putV_puts ..) hres

/-- What ISECT makes of a core: the counts in v register d, the matches in mask e. -/
def Core.isected (x : Core) (w : LA) (d : BitVec 8) (e : BitVec 3) : Core :=
  let sel := Safety.selected x w.gm
  let a := x.data w.fmt w.a
  let b := x.data w.fmt w.b
  let lim := min (a (sel.getLast?.getD 0)) (b (sel.getLast?.getD 0))
  (x.putV d .n32 w.nwb fun l =>
    if sel.contains l then some ((sel.filter (fun j => decide (a j ≤ lim))).length + 256 * (sel.filter (fun j => decide (b j ≤ lim))).length) else none).putM
      e w.nwb (BitVec.ofNat 16 ((sel.filter (fun l => sel.any (fun j => a l = b j))).foldl (fun m l => m + 2 ^ l) 0))

theorem Core.isected_puts (x : Core) (w : LA) (d : BitVec 8) {e : BitVec 3} (he : e ≠ 0) :
    let sel := Safety.selected x w.gm
    let a := x.data w.fmt w.a
    let b := x.data w.fmt w.b
    let lim := min (a (sel.getLast?.getD 0)) (b (sel.getLast?.getD 0))
    ∃ z, PutsV x z d.toNat .n32 w.nwb (fun l => if onLane x w.gm l then
        some (sel.countP (fun j => decide (a j ≤ lim)) + 256 * sel.countP (fun j => decide (b j ≤ lim))) else none) ∧
      PutsM z (x.isected w d e) e w.nwb (fun l => onLane x w.gm l && sel.any (fun j => a l = b j)) := by
  intro sel a b lim
  refine ⟨_, putsV_congr (Core.putV_puts ..) fun l _ => ?_, putsM_congr (Core.putM_puts _ e w.nwb _ he) fun l hl => hits_getLsbD x w.gm _ hl⟩
  simp only [List.contains_iff_mem, mem_selected, List.countP_eq_length_filter, sel, a, b, lim]

theorem isect_performs (hr : LaneReady s (.isect w) n slot k c x [(w.d, 1), (w.a, regCount w.fmt), (w.b, regCount w.fmt)])
    (ha : Tagged x w.a (regCount w.fmt) (SameInt w.fmt)) (hb : Tagged x w.b (regCount w.fmt) (SameInt w.fmt)) {d : BitVec 8} {e : BitVec 3}
    (hd : w.d = .v d) (hc : w.c = .m e) : Performs s (.isect w) n k fun y => y = x.isected w d e := by
  have hx := exec_isect w s
  rw [execIsect, regsFor_eq] at hx
  refine State.lane_performs (y := x.isected w d e) hr _ _ ?_ ?_ ?_ ?_ (fun _ => ?_) rfl hx
  · intro r hmem
    simp only [laUse, hc, Opd.regs, List.append_nil, List.mem_append] at hmem
    simp only [List.mem_cons, List.not_mem_nil, or_false, exists_eq_or_imp, exists_eq_left]
    exact or_assoc.mp hmem
  · intro l hmem
    simp only [laUse, latchesOf, List.mem_filterMap, hc] at hmem
    obtain ⟨o, ho, hl⟩ := hmem
    cases o with
    | b m =>
      simp only [List.mem_cons, List.not_mem_nil, or_false, reduceCtorEq] at ho
      simp only [List.mem_cons, List.not_mem_nil, or_false, exists_eq_or_imp, exists_eq_left]
      have hm : l = m.toNat := (Option.some.inj hl).symm
      rcases ho with ho | ho
      · exact .inr (.inl ⟨m, ho.symm, hm⟩)
      · exact .inr (.inr ⟨m, ho.symm, hm⟩)
    | _ => simp at hl
  · simp [laUse, hd]
  · have ha' := (dataTag_iff x w.fmt sameInt w.a).mpr (tagged_mono ha fun t => (sameInt_iff _ t).mpr)
    have hb' := (dataTag_iff x w.fmt sameInt w.b).mpr (tagged_mono hb fun t => (sameInt_iff _ t).mpr)
    simp [laUse, ha', hb']
  · simp only [hd, hc, setBits_gov, Core.isected]

end

/-- Settles O30: each word is one of the model's shared operations, whose combining functions and orders of lanes are the statement's. -/
theorem crossLaneWordsWrite : Obligations.CrossLaneWordsWrite := by
  unfold Obligations.CrossLaneWordsWrite
  intro s n slot k c x w f r a b sel lane shuffles gathers reduces scans
  have hxor : ∀ l < 16, ∀ e < 16, (l ^^^ e) % 16 = l ^^^ e := fun l hl e he => Nat.mod_eq_of_lt (Nat.xor_lt_two_pow (n := 4) hl he)
  have hones : (2 ^ 64 - 1) % 2 ^ Fmt.width f = (2 ^ Fmt.width f - 1) % 2 ^ Fmt.width f := by cases f <;> rfl
  have dest_v {op : Nat} (h : w.ok op = true) (hp : (laSpec op w.sub.toNat).map LaneSpec.d = some .vOnly) : ∃ d, w.d = .v d :=
    Pos.eq_v_of_vOnly (accepts_of_ok h hp)
  have dest_q {op : Nat} (h : w.ok op = true) (hp : (laSpec op w.sub.toNat).map LaneSpec.d = some .qOnly) : ∃ d, w.d = .q d :=
    Pos.eq_q_of_qOnly (accepts_of_ok h hp)
  refine ⟨fun hr ha hb => ?_, fun hr ha hb => ?_, fun hr ha hb => ?_, fun hr ha hb => ?_, fun hr ha => ?_, fun hr ha => ?_, fun hr ha => ?_, fun hr ha => ?_,
    fun hr ha => ?_, fun hr ha => ?_, fun hr ha => ?_, fun hr ha hb => ?_, fun hr ha => ?_, fun hr ha => ?_⟩
  · exact shuffle_performs (src' := fun _ e => e) hr ha hb (dest_v (op := 0x40) hr.legal rfl) (exec_shfl w s) fun l _ e he => Nat.mod_eq_of_lt he
  · exact shuffle_performs (src' := fun l e => (l + e) % 16) hr ha hb (dest_v (op := 0x41) hr.legal rfl) (exec_shflRot w s) fun l _ e _ => rfl
  · exact shuffle_performs (src' := fun l e => l ^^^ e) hr ha hb (dest_v (op := 0x42) hr.legal rfl) (exec_shflXor w s) hxor
  · exact shuffle_performs (src' := fun _ e => e) hr ha hb (dest_v (op := 0x43) hr.legal rfl) (exec_bcast w s) fun l _ e he => Nat.mod_eq_of_lt he
  · exact reduce_performs hr ha (dest_q (op := 0x44) hr.legal rfl) (exec_redAdd w s) (rfAdd_eq ..) rfl
  · exact reduce_performs hr ha (dest_q (op := 0x45) hr.legal rfl) (exec_redMin w s) (rfLeast_eq ..) rfl
  · exact reduce_performs hr ha (dest_q (op := 0x46) hr.legal rfl) (exec_redMax w s) (rfLeast_eq ..) rfl
  · exact reduce_performs hr ha (dest_q (op := 0x47) hr.legal rfl) (exec_redAnd w s) rfl hones
  · exact reduce_performs hr ha (dest_q (op := 0x48) hr.legal rfl) (exec_redOr w s) rfl rfl
  · exact scan_performs hr ha (dest_v (op := 0x49) hr.legal rfl) (exec_scanAdd w s) (rfAdd_eq ..) rfl
  · exact scan_performs hr ha (dest_v (op := 0x4A) hr.legal rfl) (exec_scanMax w s) (rfLeast_eq ..) (leastCode_eq _)
  · have hfit := FitsSpec.of_ok (op := 0x4C) hr.legal rfl
    obtain ⟨d, hd⟩ := Pos.eq_v_of_vIndex hfit.d
    obtain ⟨e, he, hlow⟩ := Pos.eq_m_of_mask hfit.c
    obtain ⟨t, y, hx, hdone, hrest, rfl, hmem⟩ := isect_performs hr ha hb hd he
    obtain ⟨z, hz⟩ := x.isected_puts w d (e := e) fun h0 => by simp [h0] at hlow
    exact ⟨t, _, hx, hdone, hrest, ⟨d, e, z, hd, he, hz⟩, hmem⟩
  · exact pack_performs hr ha (dest_v (op := 0x4D) hr.legal rfl) (exec_compact w s) fun l _ => rfl
  · refine pack_performs hr ha (dest_v (op := 0x4E) hr.legal rfl) (exec_expand w s) fun l _ => ?_
    simp only [List.contains_iff_mem, mem_selected]
    split
    · rw [idxOf_selected ‹_›]
    · rfl

end Sys2Proof.Machine
end

section
/-! PROOFS. Powers of two and the numbers that exact values stand for (for O33 and O43). -/

namespace Sys2Proof.Machine
open Sys2Proof.Safety

/-! ### Powers of two -/

theorem two_zpow_of_neg {e : Int} (h : e < 0) : (2 : Rat) ^ e = (2 ^ (-e).toNat)⁻¹ := by
  obtain ⟨k, rfl⟩ : ∃ k : Nat, e = -k := ⟨(-e).toNat, by omega⟩
  simp

theorem two_zpow_of_nonneg {e : Int} (h : 0 ≤ e) : (2 : Rat) ^ e = 2 ^ e.toNat := by
  obtain ⟨k, rfl⟩ := Int.eq_ofNat_of_zero_le h
  simp

/-- How the model compares a × 2^e with b: by whole numbers. -/
theorem shifted_le_iff (a b : Nat) (e : Int) :
    (if e < 0 then decide (a ≤ b * 2 ^ (-e).toNat) else decide (a * 2 ^ e.toNat ≤ b)) = true ↔ (a : Rat) * 2 ^ e ≤ b := by
  split <;> rename_i h <;> rw [decide_eq_true_iff]
  · rw [two_zpow_of_neg h, ← div_eq_mul_inv, div_le_iff₀ (by positivity)]; exact_mod_cast Iff.rfl
  · rw [two_zpow_of_nonneg (by omega)]; exact_mod_cast Iff.rfl

theorem log2_spec {n : Nat} (hn : 0 < n) : (2 : Rat) ^ (Nat.log2 n : Int) ≤ n ∧ (n : Rat) < 2 ^ ((Nat.log2 n : Int) + 1) := by
  have hlo := Nat.log2_self_le (by omega : n ≠ 0)
  have hhi := Nat.lt_log2_self (n := n)
  constructor
  · exact_mod_cast hlo
  · exact_mod_cast hhi

/-- floorLog2 n d is the exponent of n / d. -/
theorem floorLog2_spec {n d : Nat} (hn : 0 < n) (hd : 0 < d) :
    (2 : Rat) ^ floorLog2 n d * d ≤ n ∧ (n : Rat) < 2 ^ (floorLog2 n d + 1) * d := by
  obtain ⟨hn1, hn2⟩ := log2_spec hn
  obtain ⟨hd1, hd2⟩ := log2_spec hd
  set e : Int := (Nat.log2 n : Int) - Nat.log2 d with he
  have hge := shifted_le_iff d n e
  have htwo : (2 : Rat) ≠ 0 := two_ne_zero
  have hup : (n : Rat) < 2 ^ (e + 1) * d := calc
    (n : Rat) < 2 ^ ((Nat.log2 n : Int) + 1) := hn2
    _ = 2 ^ (e + 1) * 2 ^ (Nat.log2 d : Int) := by rw [← zpow_add₀ htwo]; congr 1; omega
    _ ≤ 2 ^ (e + 1) * d := by gcongr
  have hlow : (2 : Rat) ^ (e - 1) * d ≤ n := calc
    (2 : Rat) ^ (e - 1) * d ≤ 2 ^ (e - 1) * 2 ^ ((Nat.log2 d : Int) + 1) := by gcongr
    _ = 2 ^ (Nat.log2 n : Int) := by rw [← zpow_add₀ htwo]; congr 1; omega
    _ ≤ n := hn1
  have hfl : floorLog2 n d = if (if e < 0 then decide (d ≤ n * 2 ^ (-e).toNat) else decide (d * 2 ^ e.toNat ≤ n)) = true then e else e - 1 := rfl
  by_cases h : (d : Rat) * 2 ^ e ≤ n
  · rw [hfl, if_pos (hge.mpr h)]
    exact ⟨by rwa [mul_comm], hup⟩
  · rw [hfl, if_neg (mt hge.mp h)]
    exact ⟨hlow, by rw [sub_add_cancel, mul_comm]; exact not_le.mp h⟩

/-- An exponent is the only one whose power of two lies so near below. -/
theorem floorLog2_unique {n d : Nat} (hn : 0 < n) (hd : 0 < d) {k : Int} (hlo : (2 : Rat) ^ k * d ≤ n) (hhi : (n : Rat) < 2 ^ (k + 1) * d) :
    floorLog2 n d = k := by
  obtain ⟨h1, h2⟩ := floorLog2_spec hn hd
  have hd' : (0 : Rat) < d := by exact_mod_cast hd
  have a := lt_of_le_of_lt h1 hhi
  have b := lt_of_le_of_lt hlo h2
  rw [mul_lt_mul_iff_left₀ hd', zpow_lt_zpow_iff_right₀ one_lt_two] at a b
  omega

/-! ### The numbers that exact values are -/

theorem scaled_sound (neg : Bool) (n : Nat) (e : Int) : (scaled neg n e).sound := by
  unfold scaled
  split
  · trivial
  · simp only
    split
    · exact ⟨by cases neg <;> simp <;> omega, by positivity⟩
    · exact ⟨by cases neg <;> simp <;> omega, by positivity⟩

theorem scaled_isNeg (neg : Bool) (n : Nat) (e : Int) : (scaled neg n e).isNeg = neg := by
  have hp : (0 : Int) < 2 ^ e.toNat := by positivity
  unfold scaled
  split
  · rfl
  · rename_i h
    have hn : (0 : Int) < n := by omega
    cases neg <;> simp only [Bool.false_eq_true, if_false, if_true] <;> split <;> simp only [Exact.isNeg, decide_eq_true_eq, decide_eq_false_iff_not]
    · omega
    · exact not_lt.mpr (by positivity)
    · omega
    · nlinarith

theorem scaled_rat (neg : Bool) (n : Nat) (e : Int) : (scaled neg n e).rat = some (if neg then -((n : Rat) * 2 ^ e) else n * 2 ^ e) := by
  unfold scaled
  split
  · rename_i h; cases neg <;> simp [Exact.rat, h]
  · simp only
    split <;> rename_i h <;> simp only [Exact.rat]
    · rw [two_zpow_of_neg h]; cases neg <;> simp [div_eq_mul_inv]
    · rw [two_zpow_of_nonneg (by omega)]; cases neg <;> simp

/-- A quotient's magnitude, and its sign. -/
theorem Exact.rat_fin (n : Int) (d : Nat) : (Exact.fin n d).rat = some ((n : Rat) / d) := rfl

theorem abs_fin {n : Int} {d : Nat} : |(n : Rat) / d| = (n.natAbs : Rat) / d := by
  rw [abs_div, Nat.abs_cast, ← Int.cast_abs, Int.abs_eq_natAbs]; rfl

theorem fin_neg_iff {n : Int} {d : Nat} (hd : 0 < d) : (n : Rat) / d < 0 ↔ n < 0 := by
  have hd' : (0 : Rat) < d := by exact_mod_cast hd
  rw [div_lt_iff₀ hd', zero_mul]; exact_mod_cast Iff.rfl

/-! ### Dividing by a power of two -/

/-- Where n / d stands among the multiples of 2^u: at or above the m-th, below the next, and how it stands to their middle. -/
structure Between (q : Rat) (lo hi : Rat) (exact : Bool) (half : Ordering) : Prop where
  above : lo ≤ q
  below : q < hi
  exact : exact = true ↔ q = lo
  more  : half = .gt ↔ (lo + hi) / 2 < q
  same  : half = .eq ↔ (lo + hi) / 2 = q

theorem divide_between (n : Nat) {d : Nat} (hd : 0 < d) :
    Between ((n : Rat) / d) (n / d : Nat) ((n / d : Nat) + 1) (decide (n % d = 0)) (compare (2 * (n % d)) d) := by
  have hd' : (0 : Rat) < d := by exact_mod_cast hd
  have hdm : (n : Rat) = d * (n / d : Nat) + (n % d : Nat) := by exact_mod_cast (Nat.div_add_mod n d).symm
  have hlt : ((n % d : Nat) : Rat) < d := by exact_mod_cast Nat.mod_lt n hd
  generalize n / d = a at *
  generalize n % d = r at *
  have hq : (n : Rat) / d = a + r / d := by rw [hdm]; field_simp
  have hmid : ((a : Rat) + (a + 1)) / 2 = a + 1 / 2 := by ring
  have hone : (r : Rat) / d < 1 := (div_lt_one hd').mpr hlt
  refine ⟨?_, ?_, ?_, ?_, ?_⟩
  · rw [hq]; have : (0 : Rat) ≤ r / d := by positivity
    linarith
  · rw [hq]; linarith
  · rw [hq, decide_eq_true_iff, add_eq_left, div_eq_zero_iff, or_iff_left hd'.ne', Nat.cast_eq_zero]
  · rw [hq, hmid, add_lt_add_iff_left, Nat.compare_eq_gt, div_lt_div_iff₀ two_pos hd', one_mul, mul_comm]; exact_mod_cast Iff.rfl
  · rw [hq, hmid, add_right_inj, Nat.compare_eq_eq, div_eq_div_iff two_ne_zero hd'.ne', one_mul, mul_comm, eq_comm]; exact_mod_cast Iff.rfl

theorem Between.scale {q lo hi : Rat} {exact : Bool} {half : Ordering} (h : Between q lo hi exact half) {c : Rat} (hc : 0 < c) :
    Between (q * c) (lo * c) (hi * c) exact half := by
  have hmid : (lo * c + hi * c) / 2 = (lo + hi) / 2 * c := by ring
  refine ⟨by gcongr; exact h.above, by gcongr; exact h.below, ?_, ?_, ?_⟩
  · rw [h.exact, mul_left_inj' hc.ne']
  · rw [h.more, hmid, mul_lt_mul_iff_left₀ hc]
  · rw [h.same, hmid, mul_left_inj' hc.ne']

theorem divPow_of_neg (n d : Nat) {u : Int} (h : u < 0) : divPow n d u =
    (n * 2 ^ (-u).toNat / d, decide (n * 2 ^ (-u).toNat % d = 0), compare (2 * (n * 2 ^ (-u).toNat % d)) d) := by
  rw [divPow, if_pos h]

theorem divPow_of_nonneg (n d : Nat) {u : Int} (h : ¬u < 0) : divPow n d u =
    (n / (d * 2 ^ u.toNat), decide (n % (d * 2 ^ u.toNat) = 0), compare (2 * (n % (d * 2 ^ u.toNat))) (d * 2 ^ u.toNat)) := by
  rw [divPow, if_neg h]

/-- divPow n d u places n / d among the multiples of 2^u. -/
theorem divPow_between (n : Nat) {d : Nat} (hd : 0 < d) (u : Int) :
    Between ((n : Rat) / d) ((divPow n d u).1 * 2 ^ u) (((divPow n d u).1 + 1) * 2 ^ u) (divPow n d u).2.1 (divPow n d u).2.2 := by
  have hd' : (d : Rat) ≠ 0 := by exact_mod_cast hd.ne'
  by_cases h : u < 0
  · have hb := (divide_between (n * 2 ^ (-u).toNat) hd).scale (c := 2 ^ u) (by positivity)
    have hq : ((n * 2 ^ (-u).toNat : Nat) : Rat) / d * 2 ^ u = n / d := by rw [two_zpow_of_neg h]; push_cast; field_simp
    rw [divPow_of_neg n d h, ← hq]; exact hb
  · have hb := (divide_between n (d := d * 2 ^ u.toNat) (by positivity)).scale (c := 2 ^ u) (by positivity)
    have hq : (n : Rat) / (d * 2 ^ u.toNat : Nat) * 2 ^ u = n / d := by rw [two_zpow_of_nonneg (by omega)]; push_cast; field_simp
    rw [divPow_of_nonneg n d h, ← hq]; exact hb

/-- The candidate that a mode selects between two neighbours of a grid (R62). -/
theorem takesUpper_roundsTo {f : Fmt} {r : Rnd} {neg : Bool} {q : Rat} {k : Nat} {exact : Bool} {half : Ordering} {even : Bool}
    (h : Between q (grid f k) (grid f (k + 1)) exact half) (heven : even = decide (k % 2 = 0)) :
    RoundsTo f r neg (· < q) (· = q) (if takesUpper r neg exact half even then k + 1 else k) := by
  refine ⟨k, ?_⟩
  cases exact with
  | true => exact .inl ⟨(h.exact.mp rfl).symm, rfl⟩
  | false =>
    have hne : grid f k ≠ q := fun e => Bool.false_ne_true (h.exact.mpr e.symm)
    refine .inr ⟨lt_of_le_of_ne h.above hne, not_lt.mpr h.below.le, h.below.ne', ?_⟩
    have hmore := h.more
    have hsame := h.same
    cases r with
    | rtz => rfl
    | rdn => cases neg <;> rfl
    | rup => cases neg <;> rfl
    | rne =>
      simp only [← hmore, ← hsame, takesUpper, heven]
      rcases Nat.mod_two_eq_zero_or_one k with hk | hk <;> cases half <;> simp [hk]
    | rna =>
      simp only [← hmore, ← hsame, takesUpper]
      cases half <;> simp

end Sys2Proof.Machine
end

section
/-! PROOFS. The one rounding to a binary format, to L6 and to an integer format (R62 to R64, for O33). -/

namespace Sys2Proof.Machine
open Sys2Proof.Safety

/-! ### The binary formats (R50) -/

/-- The model's and the statements' parameters of a binary format agree. -/
structure SameLayout (f : Fmt) (s : FloatShape) (b : Binary) : Prop where
  shape : floatShape f = some s
  binary : binary f = some b
  frac  : b.frac = s.fbits
  bias  : b.bias = s.bias
  top   : b.top = s.top
  nan   : canonNan f = b.nan
  width : Fmt.width f - 1 = s.signBit
  even  : 2 ^ s.fbits % 2 = 0
  inf   : f ≠ .e4m3 → b.inf = (2 ^ s.ebits - 1) * 2 ^ s.fbits ∧ s.top + 1 = b.inf

/-- A format is a binary one, or has no layout. -/
theorem sameLayout_or (f : Fmt) : (∃ s b, SameLayout f s b) ∨ (floatShape f = none ∧ binary f = none) := by
  cases f
  case fp32 | fp16 | bf16 | e4m3 | e5m2 => exact .inl ⟨_, _, rfl, rfl, rfl, rfl, rfl, rfl, rfl, rfl, by decide⟩
  all_goals exact .inr ⟨rfl, rfl⟩

theorem SameLayout.of_binary {f : Fmt} {b : Binary} (h : Safety.binary f = some b) : ∃ s, SameLayout f s b := by
  rcases sameLayout_or f with ⟨s, b', hl⟩ | ⟨-, hb⟩
  · obtain rfl : b' = b := Option.some.inj (hl.binary.symm.trans h)
    exact ⟨s, hl⟩
  · rw [hb] at h; cases h

section
variable {f : Fmt} {s : FloatShape} {b : Binary} (hl : SameLayout f s b)
include hl

theorem SameLayout.withSign_eq (neg : Bool) (m : Nat) : s.withSign neg m = Safety.withSign f neg m := by
  rw [FloatShape.withSign, Safety.withSign, hl.width]; cases neg <;> simp [boolNat]

theorem SameLayout.infCode_eq (neg : Bool) : infCode f s neg = infinite f b neg := by
  rw [infCode, infinite, hl.withSign_eq]
  split
  · rename_i h; rw [← h, hl.nan]
  · rename_i h; rw [(hl.inf h).1]

/-- The grid point of exponent E above the least, m its whole number of units there. -/
theorem SameLayout.grid_eq {E m : Nat} (hm : m ≤ 2 ^ (s.fbits + 1)) (hE : E = 0 ∨ 2 ^ s.fbits ≤ m) :
    grid f (E * 2 ^ s.fbits + m) = (m : Rat) * 2 ^ ((E : Int) + 1 - s.bias - s.fbits) := by
  have htwo : (2 : Rat) ≠ 0 := two_ne_zero
  have hp : 0 < 2 ^ s.fbits := by positivity
  rw [pow_succ] at hm
  simp only [grid, hl.binary, hl.frac, hl.bias]
  rcases Nat.lt_or_ge m (2 ^ s.fbits) with hlt | hge
  · obtain rfl : E = 0 := by omega
    rw [if_pos (by omega)]; simp
  · rw [if_neg (by nlinarith)]
    rcases Nat.lt_or_ge m (2 * 2 ^ s.fbits) with hlt | htop
    · obtain ⟨j, rfl⟩ := Nat.exists_eq_add_of_le hge
      have hj : j < 2 ^ s.fbits := by omega
      have hsum : E * 2 ^ s.fbits + (2 ^ s.fbits + j) = j + 2 ^ s.fbits * (E + 1) := by ring
      rw [hsum, Nat.add_mul_mod_self_left, Nat.add_mul_div_left _ _ hp, Nat.mod_eq_of_lt hj, Nat.div_eq_of_lt hj]
      congr 2; push_cast; ring
    · have hsum : E * 2 ^ s.fbits + m = 2 ^ s.fbits * (E + 2) := by rw [show m = 2 * 2 ^ s.fbits by omega]; ring
      rw [hsum, Nat.mul_mod_right, Nat.mul_div_cancel_left _ hp, show m = 2 ^ s.fbits * 2 by omega]
      push_cast
      rw [mul_assoc, ← zpow_one_add₀ htwo]
      congr 2
      · simp
      · ring

end

/-- The grid point that a quotient n / d is rounded to, among those of a binary layout. -/
def FloatShape.magnitude (s : FloatShape) (r : Rnd) (n : Int) (d : Nat) : Nat :=
  let e := max (floorLog2 n.natAbs d) (1 - s.bias)
  let p := divPow n.natAbs d (e - s.fbits)
  (e + s.bias - 1).toNat * 2 ^ s.fbits + if takesUpper r (decide (n < 0)) p.2.1 p.2.2 (p.1 % 2 = 0) then p.1 + 1 else p.1

theorem round_fin_binary {f : Fmt} {s : FloatShape} {b : Binary} (hl : SameLayout f s b) (n : Int) (d : Nat) (r : Rnd) (sat : Bool) :
    round (.fin n d) f r sat = coded f r sat (decide (n < 0)) (s.magnitude r n d) := by
  rw [round, hl.shape]
  simp only [coded, hl.binary, hl.top, ← hl.withSign_eq, ← hl.infCode_eq, FloatShape.magnitude]
  generalize hp : divPow n.natAbs d (max (floorLog2 n.natAbs d) (1 - s.bias) - s.fbits) = p
  obtain ⟨m, exact, half⟩ := p
  simp only
  generalize (max (floorLog2 n.natAbs d) (1 - s.bias) + s.bias - 1).toNat * 2 ^ s.fbits +
    (if takesUpper r (decide (n < 0)) exact half (m % 2 = 0) then m + 1 else m) = mag
  generalize decide (n < 0) = neg
  rcases Nat.lt_or_ge s.top mag with h | h
  · rw [if_pos h, if_neg (Nat.not_le.mpr h)]
    cases r <;> cases neg <;> cases sat <;> rfl
  · rw [if_neg (Nat.not_lt.mpr h), if_pos h]

theorem SameLayout.magnitude_roundsTo {f : Fmt} {s : FloatShape} {b : Binary} (hl : SameLayout f s b) {n : Int} {d : Nat} (hn : n ≠ 0) (hd : 0 < d)
    (r : Rnd) : RoundsTo f r (decide (n < 0)) (· < |(n : Rat) / d|) (· = |(n : Rat) / d|) (s.magnitude r n d) := by
  have hd' : (0 : Rat) < d := by exact_mod_cast hd
  have htwo : (2 : Rat) ≠ 0 := two_ne_zero
  obtain ⟨hlo, hhi⟩ := floorLog2_spec (Int.natAbs_pos.mpr hn) hd
  rw [← le_div_iff₀ hd'] at hlo
  rw [← div_lt_iff₀ hd'] at hhi
  set e : Int := max (floorLog2 n.natAbs d) (1 - s.bias) with he
  have hb := divPow_between n.natAbs hd (e - s.fbits)
  rw [FloatShape.magnitude, abs_fin]
  simp only [← he]
  generalize divPow n.natAbs d (e - s.fbits) = p at hb
  obtain ⟨m, exact, half⟩ := p
  simp only at hb ⊢
  set E : Nat := (e + s.bias - 1).toNat with hE
  have heE : (E : Int) + 1 - s.bias - s.fbits = e - s.fbits := by omega
  have hu : (0 : Rat) < 2 ^ (e - s.fbits) := by positivity
  -- m is below 2^(fbits + 1), and not below 2^fbits unless e is the least exponent
  have hmlt : m + 1 ≤ 2 ^ (s.fbits + 1) := by
    have : (m : Rat) * 2 ^ (e - s.fbits) < 2 ^ (s.fbits + 1) * 2 ^ (e - s.fbits) := calc
      (m : Rat) * 2 ^ (e - s.fbits) ≤ n.natAbs / d := hb.above
      _ < 2 ^ (floorLog2 n.natAbs d + 1) := hhi
      _ ≤ 2 ^ (e + 1) := zpow_le_zpow_right₀ one_le_two (by omega)
      _ = 2 ^ (s.fbits + 1) * 2 ^ (e - s.fbits) := by
        rw [← zpow_natCast, ← zpow_add₀ htwo]; congr 1; push_cast; ring
    rw [mul_lt_mul_iff_left₀ hu] at this
    exact_mod_cast this
  have hmge : E = 0 ∨ 2 ^ s.fbits ≤ m := by
    by_cases hmin : e = 1 - s.bias
    · left; omega
    · right
      have hfl : e = floorLog2 n.natAbs d := by omega
      have : (2 : Rat) ^ s.fbits * 2 ^ (e - s.fbits) < (m + 1) * 2 ^ (e - s.fbits) := calc
        (2 : Rat) ^ s.fbits * 2 ^ (e - s.fbits) = 2 ^ e := by rw [← zpow_natCast, ← zpow_add₀ htwo]; congr 1; ring
        _ ≤ n.natAbs / d := hfl ▸ hlo
        _ < (m + 1) * 2 ^ (e - s.fbits) := hb.below
      rw [mul_lt_mul_iff_left₀ hu] at this
      have : 2 ^ s.fbits < m + 1 := by exact_mod_cast this
      omega
  have hk := hl.grid_eq (E := E) (m := m) (by omega) hmge
  have hk1 := hl.grid_eq (E := E) (m := m + 1) (by omega) (hmge.imp_right (by omega))
  rw [heE] at hk hk1
  have hup : E * 2 ^ s.fbits + (if takesUpper r (decide (n < 0)) exact half (m % 2 = 0) then m + 1 else m) =
      if takesUpper r (decide (n < 0)) exact half (m % 2 = 0) then E * 2 ^ s.fbits + m + 1 else E * 2 ^ s.fbits + m := by split <;> rfl
  rw [hup]
  refine takesUpper_roundsTo ?_ ?_
  · rw [hk, Nat.add_assoc, hk1]; push_cast; exact hb
  · rw [Nat.add_mod, Nat.mul_mod, hl.even, Nat.mul_zero, Nat.zero_mod, Nat.zero_add, Nat.mod_mod]

/-! ### Integer formats (R55) -/

theorem grid_of_int {f : Fmt} (hb : binary f = none) (hf : f ≠ .l6) (m : Nat) : grid f m = m := by
  rw [grid, hb]; simp [hf]

/-- The whole number that a quotient n / d is rounded to. -/
def wholeOf (r : Rnd) (n : Int) (d : Nat) : Nat :=
  let p := divPow n.natAbs d 0
  if takesUpper r (decide (n < 0)) p.2.1 p.2.2 (p.1 % 2 = 0) then p.1 + 1 else p.1

theorem wholeOf_roundsTo {f : Fmt} (hb : binary f = none) (hf : f ≠ .l6) (r : Rnd) (n : Int) {d : Nat} (hd : 0 < d) :
    RoundsTo f r (decide (n < 0)) (· < |(n : Rat) / d|) (· = |(n : Rat) / d|) (wholeOf r n d) := by
  have h := divPow_between n.natAbs hd 0
  rw [wholeOf, abs_fin]
  refine takesUpper_roundsTo ?_ rfl
  simpa only [grid_of_int hb hf, zpow_zero, mul_one, Nat.cast_add, Nat.cast_one] using h

theorem intMin_eq (f : Fmt) : intMin f = least f := by cases f <;> rfl
theorem intMax_eq (f : Fmt) : intMax f = greatest f := by cases f <;> rfl
theorem least_le_greatest (f : Fmt) : least f ≤ greatest f := by cases f <;> decide

theorem round_fin_int {f : Fmt} (hs : floatShape f = none) (hb : binary f = none) (hf : f ≠ .l6) (n : Int) (d : Nat) (r : Rnd) (sat : Bool) :
    round (.fin n d) f r sat = coded f r sat (decide (n < 0)) (wholeOf r n d) := by
  have hle := least_le_greatest f
  rw [round, hs, coded, hb]
  simp only [if_neg hf, intMin_eq, intMax_eq, wrap]
  generalize hp : divPow n.natAbs d 0 = p
  rw [wholeOf, hp]
  obtain ⟨m, exact, half⟩ := p
  simp only
  congr 2
  split_ifs <;> omega

/-! ### L6 (R53) -/

/-- The numerator and denominator of an exact value's magnitude, 0 / 1 where it is no quotient. -/
def quotOf : Exact → Nat × Nat
  | .fin a b => (a.natAbs, b)
  | _ => (0, 1)

theorem quotOf_spec {x : Exact} {q : Rat} (hs : x.sound) (hx : x.rat = some q) (hq : 0 ≤ q) :
    0 < (quotOf x).2 ∧ q = (quotOf x).1 / (quotOf x).2 := by
  cases x with
  | zero b => simp only [Exact.rat, Option.some.injEq] at hx; simp [quotOf, ← hx]
  | fin n d =>
    rw [Exact.rat_fin, Option.some.injEq] at hx
    exact ⟨hs.2, by rw [← abs_of_nonneg hq, ← hx, abs_fin]; rfl⟩
  | _ => simp [Exact.rat] at hx

/-- Point m of L6's grid as the model forms it. -/
def l6Point (m : Nat) : Exact := if m = 0 then .zero false else scaled false (t6 m) (((m / 4 : Nat) : Int) - 5 - 11)

theorem t6_eq (m : Nat) : t6 m = [2048, 2435, 2896, 3444].getD (m % 4) 0 := by
  have h := Nat.mod_lt m (by decide : 4 > 0)
  unfold t6
  interval_cases m % 4 <;> rfl

theorem l6Point_rat (m : Nat) : (l6Point m).rat = some (grid .l6 m) := by
  unfold l6Point
  simp only [grid, Safety.binary, if_true]
  split
  · rfl
  · rw [scaled_rat, t6_eq, sub_sub]; rfl

theorem l6Point_sound (m : Nat) : (l6Point m).sound := by
  unfold l6Point; split
  · trivial
  · exact scaled_sound ..

theorem grid_l6_nonneg (m : Nat) : 0 ≤ grid .l6 m := by
  simp only [grid, Safety.binary, if_true]; split <;> positivity

/-- The fraction index of a magnitude n / d of exponent e: the greatest whose constant it reaches. -/
def l6Frac (n d : Nat) (e : Int) : Int :=
  let le (k : Nat) : Bool := if e < 0 then decide (t6 k * d ≤ 2048 * n * 2 ^ (-e).toNat) else decide (t6 k * d * 2 ^ e.toNat ≤ 2048 * n)
  if le 3 then 3 else if le 2 then 2 else if le 1 then 1 else 0

/-- The greatest point of L6's grid that is not above n / d. -/
def l6Below (n d : Nat) : Nat :=
  let idx : Int := 4 * (floorLog2 n d + 5) + l6Frac n d (floorLog2 n d)
  if idx ≤ 0 then 0 else idx.toNat

/-- The point that a quotient is rounded to, the grid unbounded above. -/
def l6Magnitude (r : Rnd) (n : Int) (d : Nat) : Nat :=
  let m := l6Below n.natAbs d
  let l := quotOf (l6Point m)
  let h := quotOf (scaled false (t6 (m + 1)) ((((m + 1) / 4 : Nat) : Int) - 5 - 11))
  if takesUpper r (decide (n < 0)) (decide (l.1 * d = n.natAbs * l.2)) (compare (2 * n.natAbs * l.2 * h.2) (d * (l.1 * h.2 + h.1 * l.2))) (m % 2 = 0) then m + 1
  else m

theorem round_fin_l6 (n : Int) (d : Nat) (r : Rnd) (sat : Bool) :
    round (.fin n d) .l6 r sat = coded .l6 r sat (decide (n < 0)) (l6Magnitude r n d) := by
  have hmodel : round (.fin n d) .l6 r sat =
      (let m := if l6Magnitude r n d > 31 then 31 else l6Magnitude r n d
       if m = 0 then 0 else m + 32 * boolNat (decide (n < 0))) := rfl
  rw [hmodel, coded]
  simp only [Safety.binary, if_true, Safety.withSign, Fmt.width]
  generalize l6Magnitude r n d = m
  generalize decide (n < 0) = neg
  rcases Nat.lt_or_ge 31 m with h | h
  · rw [if_pos h, if_neg (by decide), if_neg (by omega), Nat.min_eq_right h.le]; cases neg <;> rfl
  · rw [if_neg (Nat.not_lt.mpr h), Nat.min_eq_left h]
    split
    · rfl
    · cases neg <;> rfl

theorem grid_l6_pos {m : Nat} (h : m ≠ 0) : grid .l6 m = (t6 m : Rat) * 2 ^ (((m / 4 : Nat) : Int) - 16) := by
  simp only [grid, Safety.binary, if_true, if_neg h, t6_eq]

theorem l6Frac_spec {n d : Nat} (hn : 0 < n) (hd : 0 < d) : ∃ k : Nat, k < 4 ∧ l6Frac n d (floorLog2 n d) = k ∧
    (t6 k : Rat) * 2 ^ floorLog2 n d ≤ 2048 * (n / d) ∧
    2048 * ((n : Rat) / d) < if k = 3 then 2048 * 2 ^ (floorLog2 n d + 1) else (t6 (k + 1) : Rat) * 2 ^ floorLog2 n d := by
  obtain ⟨hlo, hhi⟩ := floorLog2_spec hn hd
  have hd' : (0 : Rat) < d := by exact_mod_cast hd
  rw [← le_div_iff₀ hd'] at hlo
  rw [← div_lt_iff₀ hd'] at hhi
  have hle (k : Nat) : (if floorLog2 n d < 0 then decide (t6 k * d ≤ 2048 * n * 2 ^ (-floorLog2 n d).toNat)
      else decide (t6 k * d * 2 ^ (floorLog2 n d).toNat ≤ 2048 * n)) = true ↔ (t6 k : Rat) * 2 ^ floorLog2 n d ≤ 2048 * (n / d) := by
    rw [shifted_le_iff, ← mul_div_assoc, le_div_iff₀ hd']; push_cast; rw [mul_right_comm]
  unfold l6Frac
  simp only [hle]
  by_cases h3 : (t6 3 : Rat) * 2 ^ floorLog2 n d ≤ 2048 * (n / d)
  · exact ⟨3, by decide, by rw [if_pos h3]; rfl, h3, by rw [if_pos rfl]; linarith⟩
  by_cases h2 : (t6 2 : Rat) * 2 ^ floorLog2 n d ≤ 2048 * (n / d)
  · exact ⟨2, by decide, by rw [if_neg h3, if_pos h2]; rfl, h2, by simpa using h3⟩
  by_cases h1 : (t6 1 : Rat) * 2 ^ floorLog2 n d ≤ 2048 * (n / d)
  · exact ⟨1, by decide, by rw [if_neg h3, if_neg h2, if_pos h1]; rfl, h1, by simpa using h2⟩
  · refine ⟨0, by decide, by rw [if_neg h3, if_neg h2, if_neg h1]; rfl, ?_, by simpa using h1⟩
    rw [show ((t6 0 : Nat) : Rat) = 2048 by norm_num [t6]]; linarith

theorem l6Below_spec {n d : Nat} (hn : 0 < n) (hd : 0 < d) :
    grid .l6 (l6Below n d) ≤ (n : Rat) / d ∧ (n : Rat) / d < grid .l6 (l6Below n d + 1) := by
  obtain ⟨k, hk, hfrac, hlo, hhi⟩ := l6Frac_spec hn hd
  have htwo : (2 : Rat) ≠ 0 := two_ne_zero
  rw [l6Below, hfrac]
  set e := floorLog2 n d
  set q := (n : Rat) / d
  -- in units of 2^-11, the point 4 (e + 5) + j is t6 j × 2^e
  have hunit (a : Rat) (u : Int) : a * 2 ^ (u - 11) = a * 2 ^ u / 2048 := by
    rw [zpow_sub₀ htwo, ← mul_div_assoc]; norm_num
  have ht (i j : Nat) (h : i % 4 = j % 4) : t6 i = t6 j := by rw [t6_eq, t6_eq, h]
  split <;> rename_i hidx
  · -- every point but 0 is above n / d
    have hq : 0 ≤ q := by positivity
    refine ⟨by simpa [grid, Safety.binary] using hq, ?_⟩
    rw [grid_l6_pos (by decide), show ((t6 (0 + 1) : Nat) : Rat) = 2435 by norm_num [t6]]
    by_cases hk0 : e = -5 ∧ k = 0
    · obtain ⟨he, rfl⟩ := hk0
      rw [if_neg (by decide), he, show ((t6 (0 + 1) : Nat) : Rat) = 2435 by norm_num [t6]] at hhi
      norm_num at hhi ⊢; linarith
    · have he : (2 : Rat) ^ (e + 1) ≤ 2 ^ (-5 : Int) := zpow_le_zpow_right₀ one_le_two (by omega)
      have hup := (floorLog2_spec hn hd).2
      rw [← div_lt_iff₀ (by exact_mod_cast hd)] at hup
      norm_num at he ⊢; linarith
  · set m := (4 * (e + 5) + k : Int).toNat with hm
    have hdiv : ((m / 4 : Nat) : Int) - 16 = e - 11 := by omega
    constructor
    · rw [grid_l6_pos (by omega), ht m k (by omega), hdiv, hunit]; linarith
    · rw [grid_l6_pos (by omega)]
      by_cases h3 : k = 3
      · rw [if_pos h3] at hhi
        have : (((m + 1) / 4 : Nat) : Int) - 16 = e + 1 - 11 := by omega
        rw [ht (m + 1) 0 (by omega), this, hunit, show ((t6 0 : Nat) : Rat) = 2048 by norm_num [t6]]; linarith
      · rw [if_neg h3] at hhi
        have : (((m + 1) / 4 : Nat) : Int) - 16 = e - 11 := by omega
        rw [ht (m + 1) (k + 1) (by omega), this, hunit]; linarith

/-- A comparison of fractions by whole numbers. -/
theorem fractions_between {n d ln ld hn hd : Nat} {q lo hi : Rat} (hd0 : 0 < d) (hl0 : 0 < ld) (hh0 : 0 < hd) (hq : q = n / d) (hlo : lo = ln / ld)
    (hhi : hi = hn / hd) (above : lo ≤ q) (below : q < hi) :
    Between q lo hi (decide (ln * d = n * ld)) (compare (2 * n * ld * hd) (d * (ln * hd + hn * ld))) := by
  have hd' : (d : Rat) ≠ 0 := by exact_mod_cast hd0.ne'
  have hl' : (ld : Rat) ≠ 0 := by exact_mod_cast hl0.ne'
  have hh' : (hd : Rat) ≠ 0 := by exact_mod_cast hh0.ne'
  have hpos : (0 : Rat) < 2 * d * ld * hd := by positivity
  -- both sides of the comparison, over one denominator
  have hx : ((2 * n * ld * hd : Nat) : Rat) = q * (2 * d * ld * hd) := by rw [hq]; push_cast; field_simp
  have hy : ((d * (ln * hd + hn * ld) : Nat) : Rat) = (lo + hi) / 2 * (2 * d * ld * hd) := by rw [hlo, hhi]; push_cast; field_simp
  refine ⟨above, below, ?_, ?_, ?_⟩
  · rw [decide_eq_true_iff, hq, hlo, div_eq_div_iff hd' hl', eq_comm]; exact_mod_cast Iff.rfl
  · rw [Nat.compare_eq_gt, ← Nat.cast_lt (α := Rat), hx, hy, mul_lt_mul_iff_left₀ hpos]
  · rw [Nat.compare_eq_eq, ← Nat.cast_inj (R := Rat), hx, hy, mul_left_inj' hpos.ne', eq_comm]

theorem l6Magnitude_roundsTo {n : Int} {d : Nat} (hn : n ≠ 0) (hd : 0 < d) (r : Rnd) :
    RoundsTo .l6 r (decide (n < 0)) (· < |(n : Rat) / d|) (· = |(n : Rat) / d|) (l6Magnitude r n d) := by
  obtain ⟨hlo, hhi⟩ := l6Below_spec (Int.natAbs_pos.mpr hn) hd
  rw [l6Magnitude, abs_fin, show scaled false (t6 (l6Below n.natAbs d + 1)) ((((l6Below n.natAbs d + 1) / 4 : Nat) : Int) - 5 - 11) =
    l6Point (l6Below n.natAbs d + 1) from (if_neg (Nat.succ_ne_zero _)).symm]
  have hpoint (m : Nat) := quotOf_spec (l6Point_sound m) (l6Point_rat m) (grid_l6_nonneg m)
  obtain ⟨hl0, hl⟩ := hpoint (l6Below n.natAbs d)
  obtain ⟨hh0, hh⟩ := hpoint (l6Below n.natAbs d + 1)
  exact takesUpper_roundsTo (fractions_between hd hl0 hh0 rfl hl hh hlo hhi) rfl

/-! ### Every format -/

/-- round() takes the candidate that the mode selects and encodes it (R63, R64). -/
theorem round_roundedTo (f : Fmt) (r : Rnd) (sat : Bool) {n : Int} {d : Nat} (hn : n ≠ 0) (hd : 0 < d) :
    RoundedTo f r sat (decide (n < 0)) (· < |(n : Rat) / d|) (· = |(n : Rat) / d|) (round (.fin n d) f r sat) := by
  rcases sameLayout_or f with ⟨s, b, hl⟩ | ⟨hs, hb⟩
  · exact ⟨_, hl.magnitude_roundsTo hn hd r, round_fin_binary hl n d r sat⟩
  · by_cases hf : f = .l6
    · subst hf; exact ⟨_, l6Magnitude_roundsTo hn hd r, round_fin_l6 n d r sat⟩
    · exact ⟨_, wholeOf_roundsTo hb hf r n hd, round_fin_int hs hb hf n d r sat⟩

/-- The same, by the rational number that a value is. -/
theorem round_roundedTo_rat (f : Fmt) (r : Rnd) (sat : Bool) {x : Exact} {q : Rat} (hx : x.sound) (hq : x.rat = some q) (h0 : q ≠ 0) :
    RoundedTo f r sat (decide (q < 0)) (· < |q|) (· = |q|) (round x f r sat) := by
  cases x with
  | fin n d =>
    obtain ⟨hn, hd⟩ := hx
    obtain rfl : (n : Rat) / d = q := Option.some.inj hq
    rw [decide_eq_decide.mpr (fin_neg_iff hd)]
    exact round_roundedTo f r sat hn hd
  | zero b => exact absurd (Option.some.inj hq).symm h0
  | _ => cases hq

end Sys2Proof.Machine
end

section
/-! PROOFS. What every code stands for (R50, R53, R55), and what the values that are no numbers round to (R63, R64, for O33). -/

namespace Sys2Proof.Machine
open Sys2Proof.Safety

/-! ### The value of a code -/

/-- What the statements say of a binary format's code: magnitude mag, sign neg. -/
theorem valueOf_binary {f : Fmt} {s : FloatShape} {b : Binary} (hl : SameLayout f s b) (code : Nat) :
    let mag := code % 2 ^ (Fmt.width f - 1)
    let neg := code.testBit (Fmt.width f - 1)
    let x := valueOf f code
    x.sound ∧ if mag ≤ b.top then x.rat = some (if neg then -grid f mag else grid f mag) ∧ x.isNeg = neg
      else if mag = b.inf ∧ f ≠ .e4m3 then x = .inf neg else x = .nan := by
  intro mag neg x
  have hp : 0 < 2 ^ s.fbits := by positivity
  have hx : x = if mag > s.top then (if f ≠ .e4m3 && decide (mag % 2 ^ s.fbits = 0) then .inf neg else .nan)
      else if mag / 2 ^ s.fbits = 0 then scaled neg (mag % 2 ^ s.fbits) (1 - s.bias - s.fbits)
      else scaled neg (mag % 2 ^ s.fbits + 2 ^ s.fbits) ((mag / 2 ^ s.fbits : Nat) - s.bias - s.fbits) := by
    have hmod : code % 2 ^ (s.signBit + 1) % 2 ^ s.signBit = code % 2 ^ s.signBit :=
      Nat.mod_mod_of_dvd _ (pow_dvd_pow 2 (Nat.le_succ _))
    have hbit : (code % 2 ^ (s.signBit + 1)).testBit s.signBit = code.testBit s.signBit := by
      rw [Nat.testBit_mod_two_pow]; simp
    simp only [x, mag, neg, valueOf, hl.shape, hl.width, hmod, hbit]
  have hmag : mag < 2 ^ s.signBit := hl.width ▸ Nat.mod_lt _ (by positivity)
  rw [hl.top]
  rcases Nat.lt_or_ge s.top mag with h | h
  · rw [if_neg (by omega)]
    rw [if_pos h] at hx
    by_cases hf : f = .e4m3
    · simp only [hf, ne_eq, not_true, and_false, if_false, decide_false, Bool.false_and, Bool.false_eq_true] at hx ⊢
      exact ⟨hx ▸ trivial, hx⟩
    · obtain ⟨hinf, htop⟩ := hl.inf hf
      -- above the largest finite code stand 2^fbits codes, from that of infinity on
      have hlt : mag < b.inf + 2 ^ s.fbits := by
        rw [FloatShape.signBit, pow_add] at hmag
        rw [hinf, ← Nat.succ_mul, Nat.succ_eq_add_one, Nat.sub_add_cancel Nat.one_le_two_pow]; exact hmag
      have hzero : mag % 2 ^ s.fbits = 0 ↔ mag = b.inf := by
        obtain ⟨j, hj⟩ := Nat.exists_eq_add_of_le (by omega : b.inf ≤ mag)
        rw [hj, hinf, Nat.mul_add_mod', Nat.mod_eq_of_lt (by omega)]; omega
      simp only [hzero, ne_eq, hf, not_false_eq_true, decide_true, Bool.true_and, decide_eq_true_eq, and_true] at hx ⊢
      split at hx
      · rename_i hi; exact ⟨hx ▸ trivial, by rw [if_pos hi]; exact hx⟩
      · rename_i hi; exact ⟨hx ▸ trivial, by rw [if_neg hi]; exact hx⟩
  · rw [if_pos h]
    rw [if_neg (by omega)] at hx
    have hdm := Nat.div_add_mod' mag (2 ^ s.fbits)
    have hfr := Nat.mod_lt mag hp
    split at hx <;> rename_i he
    · have hgrid := hl.grid_eq (E := 0) (m := mag % 2 ^ s.fbits) (by rw [pow_succ]; omega) (.inl rfl)
      rw [he, Nat.zero_mul, Nat.zero_add] at hdm
      rw [Nat.zero_mul, Nat.zero_add, hdm] at hgrid
      rw [hx, hdm]
      refine ⟨scaled_sound .., ?_, scaled_isNeg ..⟩
      rw [scaled_rat, hgrid]; simp
    · obtain ⟨E, hE⟩ := Nat.exists_eq_succ_of_ne_zero he
      have hgrid := hl.grid_eq (E := E) (m := mag % 2 ^ s.fbits + 2 ^ s.fbits) (by rw [pow_succ]; omega) (.inr (by omega))
      rw [show E * 2 ^ s.fbits + (mag % 2 ^ s.fbits + 2 ^ s.fbits) = mag by rw [hE, Nat.succ_mul] at hdm; omega] at hgrid
      rw [hx, hE]
      refine ⟨scaled_sound .., ?_, scaled_isNeg ..⟩
      rw [scaled_rat, hgrid]; push_cast; rfl

theorem valueOf_l6 {code : Nat} (h : code < 64) :
    (valueOf .l6 code).sound ∧ if code = 0x20 then valueOf .l6 code = .nan
      else (valueOf .l6 code).rat = some (if code.testBit 5 then -grid .l6 (code % 32) else grid .l6 (code % 32)) := by
  have hmod : code % 64 = code := Nat.mod_eq_of_lt h
  by_cases hm : code % 32 = 0
  · rcases (by omega : code = 0 ∨ code = 32) with rfl | rfl
    · exact ⟨trivial, rfl⟩
    · exact ⟨trivial, rfl⟩
  · have hx : valueOf .l6 code = scaled (code.testBit 5) (t6 (code % 32)) (((code % 32 / 4 : Nat) : Int) - 16) := by
      have ht : t6 ((code % 32 + 12) % 4) = t6 (code % 32) := by rw [t6_eq, t6_eq]; congr 1; omega
      have he : (((code % 32 + 12) / 4 : Nat) : Int) - 8 - 11 = ((code % 32 / 4 : Nat) : Int) - 16 := by omega
      simp only [valueOf, floatShape, if_true, hm, if_false, hmod, ht, he]
    rw [hx, if_neg (by omega), scaled_rat, grid_l6_pos hm]
    exact ⟨scaled_sound .., rfl⟩

/-- A whole number as an exact value. -/
theorem exactInt_rat (i : Int) : (exactInt i).sound ∧ (exactInt i).rat = some (i : Rat) := by
  unfold exactInt
  split <;> rename_i h
  · exact ⟨trivial, by simp [Exact.rat, h]⟩
  · exact ⟨⟨h, Nat.one_pos⟩, by simp [Exact.rat]⟩

theorem valueOf_int {f : Fmt} (hs : floatShape f = none) (hf : f ≠ .l6) {code : Nat} (h : code < 2 ^ Fmt.width f) :
    (valueOf f code).sound ∧ (valueOf f code).rat =
      some (if isSignedFmt f ∧ code.testBit (Fmt.width f - 1) then (code : Rat) - 2 ^ Fmt.width f else code) := by
  have hx : valueOf f code = exactInt (if isSignedFmt f then signed (Fmt.width f) code else (code % 2 ^ Fmt.width f : Nat)) := by
    cases f
    case l6 => exact absurd rfl hf
    case fp32 | fp16 | bf16 | e4m3 | e5m2 => cases hs
    all_goals rfl
  rw [hx]
  refine ⟨(exactInt_rat _).1, ?_⟩
  rw [(exactInt_rat _).2, signed, Nat.mod_eq_of_lt h]
  congr 1
  by_cases hsig : isSignedFmt f = true
  · have hw : 2 ^ Fmt.width f = 2 * 2 ^ (Fmt.width f - 1) := by
      cases f
      case i4 | i8 | i32 | i64 => rfl
      all_goals cases hsig
    have htop : code.testBit (Fmt.width f - 1) = true ↔ ¬code < 2 ^ (Fmt.width f - 1) := by
      rw [Nat.testBit_eq_decide_div_mod_eq, decide_eq_true_eq]
      generalize 2 ^ (Fmt.width f - 1) = p at hw
      have hp : 0 < p := by omega
      rcases Nat.lt_or_ge code p with hc | hc
      · simp [Nat.div_eq_of_lt hc, hc]
      · rw [Nat.div_eq_of_lt_le (k := 1) (by omega) (by omega)]; simp [hc]
    simp only [hsig, true_and, htop, if_true]
    by_cases hc : code < 2 ^ (Fmt.width f - 1)
    · rw [if_pos hc, if_neg (not_not_intro hc)]; push_cast; rfl
    · rw [if_neg hc, if_pos hc]; push_cast; rfl
  · simp [hsig]

/-! ### What is no number -/

theorem SameLayout.round_special {f : Fmt} {s : FloatShape} {b : Binary} (hl : SameLayout f s b) (r : Rnd) (sat neg : Bool) :
    round .nan f r sat = b.nan ∧ round (.zero neg) f r sat = Safety.withSign f neg 0 ∧
      round (.inf neg) f r sat = if sat then Safety.withSign f neg b.top else infinite f b neg := by
  simp only [round, hl.shape, hl.nan, hl.withSign_eq, hl.infCode_eq, hl.top, and_self]

theorem round_special_l6 (r : Rnd) (sat neg : Bool) :
    round (.zero neg) .l6 r sat = 0 ∧ round .nan .l6 r sat = 0x20 ∧ round (.inf neg) .l6 r sat = 0x20 := ⟨rfl, rfl, rfl⟩

theorem round_special_int {f : Fmt} (hs : floatShape f = none) (hf : f ≠ .l6) (r : Rnd) (sat neg : Bool) :
    round (.zero neg) f r sat = 0 ∧ round .nan f r sat = 0 ∧
      round (.inf neg) f r sat = ((if neg then least f else greatest f) % 2 ^ Fmt.width f).toNat := by
  simp only [round, hs, if_neg hf, intMin_eq, intMax_eq, wrap, and_self]

/-- FRND: a quotient becomes the whole number that the mode selects, a zero with its sign, and every other value stays (R239). -/
theorem integral_fin (r : Rnd) {n : Int} {d : Nat} (hd : 0 < d) : ∃ m, RoundsTo .i64 r (decide (n < 0)) (· < |(n : Rat) / d|) (· = |(n : Rat) / d|) m ∧
    (integral r (.fin n d)).rat = some (if n < 0 then -(m : Rat) else m) ∧ (integral r (.fin n d)).isNeg = decide (n < 0) := by
  refine ⟨_, wholeOf_roundsTo rfl (by decide) r n hd, ?_⟩
  have hx : integral r (.fin n d) =
      if wholeOf r n d = 0 then .zero (decide (n < 0)) else .fin (if decide (n < 0) then -(wholeOf r n d : Int) else wholeOf r n d) 1 := rfl
  rw [hx]
  simp only [decide_eq_true_eq]
  generalize wholeOf r n d = m
  split <;> rename_i hm
  · subst hm; exact ⟨by simp [Exact.rat], rfl⟩
  · refine ⟨?_, ?_⟩
    · rw [Exact.rat_fin]; split <;> simp
    · simp only [Exact.isNeg]; split <;> simp <;> omega

end Sys2Proof.Machine
end

section
/-! PROOFS. The square root and its reciprocal, rounded once from the irrational numbers that they are (R235, R241, for O33). -/

namespace Sys2Proof.Machine
open Sys2Proof.Safety

/-! ### The integer square root -/

/-- Newton's step from above stays at or above the root. -/
theorem sqrt_le_newton {n s x : Nat} (hs : s * s ≤ n) (hx : 0 < x) : s ≤ (x + n / x) / 2 := by
  rw [Nat.le_div_iff_mul_le two_pos]
  by_contra h
  obtain ⟨e, he⟩ : ∃ e, s * 2 = x + e := Nat.exists_eq_add_of_le (le_trans (Nat.le_add_right x (n / x)) (Nat.le_of_not_le h))
  have hlt : n < e * x := (Nat.div_lt_iff_lt_mul hx).mp (by generalize n / x = y at h; omega)
  nlinarith [sq_nonneg ((x : Int) - e), congrArg (fun z => z * z) he]

theorem isqrtStep_eq (n : Nat) : ∀ k x, Nat.sqrt n ≤ x → x - Nat.sqrt n < 2 ^ k → isqrtStep n k x = Nat.sqrt n := by
  intro k
  induction k with
  | zero => intro x h1 h2; rw [isqrtStep]; omega
  | succ k ih =>
    intro x h1 h2
    have hlow := Nat.sqrt_le n
    have hhigh := Nat.lt_succ_sqrt n
    generalize Nat.sqrt n = s at *
    rw [isqrtStep]
    rcases Nat.eq_zero_or_pos x with rfl | hx
    · simp; omega
    have hge := sqrt_le_newton hlow hx
    rcases Nat.eq_or_lt_of_le h1 with rfl | hlt
    · rw [if_neg (by omega)]
    · have hdiv : n / x ≤ s := Nat.lt_succ_iff.mp ((Nat.div_lt_iff_lt_mul hx).mpr (lt_of_lt_of_le hhigh (Nat.mul_le_mul_left _ hlt)))
      generalize n / x = y at *
      rw [if_pos (by omega)]
      exact ih _ hge (by rw [pow_succ] at h2; omega)

theorem isqrt_eq (n : Nat) : isqrt n = Nat.sqrt n := by
  unfold isqrt
  split <;> rename_i h
  · rw [h, Nat.sqrt_zero]
  · have hx : Nat.sqrt n < 2 ^ (Nat.log2 n / 2 + 1) := by
      rw [Nat.sqrt_lt']
      calc n < 2 ^ (Nat.log2 n + 1) := Nat.lt_log2_self
        _ ≤ 2 ^ ((Nat.log2 n / 2 + 1) * 2) := Nat.pow_le_pow_right two_pos (by omega)
        _ = _ := by rw [pow_mul]
    refine isqrtStep_eq n _ _ hx.le (lt_of_le_of_lt (Nat.sub_le _ _) (Nat.pow_lt_pow_right one_lt_two (by omega)))

/-! ### Values that stand on the same side of every boundary -/

/-- A multiple of 2^-p. -/
def Dyadic (p : Nat) (x : Rat) : Prop := ∃ j : Nat, x * 2 ^ p = j

theorem sqrtNear_side {p n d : Nat} (hd : 0 < d) {x : Rat} (hx : Dyadic p x) :
    (x < ((sqrtNear p n d).1 : Rat) / (sqrtNear p n d).2 ↔ x ^ 2 < (n : Rat) / d) ∧
    (x = ((sqrtNear p n d).1 : Rat) / (sqrtNear p n d).2 ↔ x ^ 2 = (n : Rat) / d) := by
  obtain ⟨j, hj⟩ := hx
  have hd' : (0 : Rat) < d := by exact_mod_cast hd
  have h2 : (0 : Rat) < 2 ^ p := by positivity
  have hx : x = j / 2 ^ p := by rw [← hj]; field_simp
  set N := n * 2 ^ (2 * p) with hN
  -- squares of multiples of 2^-p, in whole numbers
  have hlt : x ^ 2 < (n : Rat) / d ↔ j * j * d < N := by
    rw [lt_div_iff₀ hd', ← mul_lt_mul_iff_left₀ (pow_pos h2 2), ← Nat.cast_lt (α := Rat), hN, hx]
    push_cast
    rw [show ((j : Rat) / 2 ^ p) ^ 2 * d * (2 ^ p) ^ 2 = j * j * d by field_simp, ← pow_mul, mul_comm p 2]
  have heq : x ^ 2 = (n : Rat) / d ↔ j * j * d = N := by
    rw [eq_div_iff hd'.ne', ← mul_left_inj' (pow_pos h2 2).ne', ← Nat.cast_inj (R := Rat), hN, hx]
    push_cast
    rw [show ((j : Rat) / 2 ^ p) ^ 2 * d * (2 ^ p) ^ 2 = j * j * d by field_simp, ← pow_mul, mul_comm p 2]
  rw [hlt, heq]
  unfold sqrtNear
  simp only [← hN, isqrt_eq]
  have hlow : Nat.sqrt (N / d) * Nat.sqrt (N / d) * d ≤ N := (Nat.le_div_iff_mul_le hd).mp (Nat.sqrt_le _)
  have hhigh : N < (Nat.sqrt (N / d) + 1) * (Nat.sqrt (N / d) + 1) * d := (Nat.div_lt_iff_lt_mul hd).mp (Nat.lt_succ_sqrt _)
  generalize Nat.sqrt (N / d) = r at *
  have hmono {u v : Nat} (h : u ≤ v) : u * u * d ≤ v * v * d := Nat.mul_le_mul_right _ (Nat.mul_le_mul h h)
  split <;> rename_i hr
  · have hside : x < (((r : Int) : Rat)) / ((2 ^ p : Nat) : Rat) ↔ j < r := by
      rw [hx]; push_cast; rw [div_lt_div_iff_of_pos_right h2]; exact_mod_cast Iff.rfl
    have hsame : x = (((r : Int) : Rat)) / ((2 ^ p : Nat) : Rat) ↔ j = r := by
      rw [hx]; push_cast; rw [div_left_inj' h2.ne']; exact_mod_cast Iff.rfl
    rw [hside, hsame, ← hr]
    constructor
    · rw [Nat.mul_lt_mul_right hd, Nat.mul_self_lt_mul_self_iff]
    · rw [Nat.mul_left_inj hd.ne', Nat.mul_self_inj]
  · have h21 : (0 : Rat) < 2 ^ (p + 1) := by positivity
    have hxx : x = (2 * j : Nat) / 2 ^ (p + 1) := by rw [hx, pow_succ]; push_cast; field_simp
    have hside : x < (((2 * r + 1 : Nat) : Int) : Rat) / ((2 ^ (p + 1) : Nat) : Rat) ↔ j ≤ r := by
      rw [hxx, Int.cast_natCast, Nat.cast_pow, Nat.cast_ofNat, div_lt_div_iff_of_pos_right h21, Nat.cast_lt]; omega
    have hsame : ¬x = (((2 * r + 1 : Nat) : Int) : Rat) / ((2 ^ (p + 1) : Nat) : Rat) := by
      rw [hxx, Int.cast_natCast, Nat.cast_pow, Nat.cast_ofNat, div_left_inj' h21.ne', Nat.cast_inj]; omega
    have hbelow : j ≤ r → j * j * d < N := fun h => lt_of_le_of_lt (hmono h) (lt_of_le_of_ne hlow hr)
    have habove : ¬j ≤ r → N < j * j * d := fun h => lt_of_lt_of_le hhigh (hmono (Nat.lt_of_not_le h))
    rw [hside, iff_false_left hsame]
    by_cases h : j ≤ r
    · exact ⟨iff_of_true h (hbelow h), (hbelow h).ne⟩
    · exact ⟨iff_of_false h (habove h).not_gt, (habove h).ne'⟩

theorem sqrtNear_pos {p n d : Nat} (hn : 0 < n) : 0 < (sqrtNear p n d).1 ∧ 0 < (sqrtNear p n d).2 := by
  unfold sqrtNear
  simp only
  split <;> rename_i h
  · refine ⟨Int.natCast_pos.mpr (Nat.pos_of_ne_zero fun h0 => ?_), by positivity⟩
    simp only [h0, Nat.zero_mul] at h
    exact absurd h.symm (by positivity)
  · exact ⟨by omega, by positivity⟩

theorem grid_dyadic {f : Fmt} {b : Binary} (hb : binary f = some b) {p : Nat} (hp : b.bias + b.frac ≤ p + 1) (k : Nat) : Dyadic p (grid f k) := by
  have htwo : (2 : Rat) ≠ 0 := two_ne_zero
  -- a whole number times a power of two that is not below 2^-p
  have hwhole (m : Nat) (u : Int) (hu : -(p : Int) ≤ u) : Dyadic p (m * 2 ^ u) := by
    refine ⟨m * 2 ^ (u + p).toNat, ?_⟩
    push_cast
    rw [mul_assoc, ← zpow_natCast 2 p, ← zpow_add₀ htwo, two_zpow_of_nonneg (by omega)]
  simp only [grid, hb]
  split <;> rename_i hk
  · exact hwhole _ _ (by omega)
  · have : 1 ≤ k / 2 ^ b.frac := Nat.div_pos (by omega) (by positivity)
    exact hwhole _ _ (by omega)

theorem mid_dyadic {f : Fmt} {b : Binary} (hb : binary f = some b) {p : Nat} (hp : b.bias + b.frac ≤ p) (k : Nat) :
    Dyadic p ((grid f k + grid f (k + 1)) / 2) := by
  obtain ⟨p, rfl⟩ : ∃ q, p = q + 1 := ⟨p - 1, by have : 0 < b.bias := by { cases f <;> cases hb <;> decide }; omega⟩
  obtain ⟨i, hi⟩ := grid_dyadic hb hp k
  obtain ⟨j, hj⟩ := grid_dyadic hb hp (k + 1)
  refine ⟨i + j, ?_⟩
  rw [pow_succ]; push_cast; rw [← hi, ← hj]; ring

theorem roundsTo_congr {f : Fmt} {r : Rnd} {neg : Bool} {lt eq lt' eq' : Rat → Prop} {m : Nat} (h : RoundsTo f r neg lt eq m)
    (hgrid : ∀ k, (lt (grid f k) ↔ lt' (grid f k)) ∧ (eq (grid f k) ↔ eq' (grid f k)))
    (hmid : ∀ k, (lt ((grid f k + grid f (k + 1)) / 2) ↔ lt' ((grid f k + grid f (k + 1)) / 2)) ∧
      (eq ((grid f k + grid f (k + 1)) / 2) ↔ eq' ((grid f k + grid f (k + 1)) / 2))) : RoundsTo f r neg lt' eq' m := by
  obtain ⟨k, h⟩ := h
  refine ⟨k, ?_⟩
  rw [← (hgrid k).1, ← (hgrid k).2, ← (hgrid (k + 1)).1, ← (hgrid (k + 1)).2]
  simp only [← (hmid k).1, ← (hmid k).2]
  exact h

theorem sqrt_fin {n : Int} {d : Nat} (h : ¬n < 0) {p : Int × Nat} (hp : sqrtNear 256 n.natAbs d = p) : (Exact.fin n d).sqrt = .fin p.1 p.2 := by
  rw [Exact.sqrt, if_neg h, hp]

theorem recipSqrt_fin {n : Int} {d : Nat} (h : ¬n < 0) {p : Int × Nat} (hp : sqrtNear 512 d n.natAbs = p) :
    recipSqrt (.fin n d) = .fin p.1 p.2 := by
  rw [recipSqrt, if_neg h, hp]

/-- The square root of a positive code's value is rounded once, and so is its reciprocal. -/
theorem round_sqrt_code {f : Fmt} (hf : f ∈ [Fmt.fp32, .fp16, .bf16]) (r : Rnd) {x : Exact} {q : Rat} (hs : x.sound) (hx : x.rat = some q) (hq : 0 < q) :
    RoundedTo f r false false (fun g => g ^ 2 < q) (fun g => g ^ 2 = q) (round x.sqrt f r false) ∧
    RoundedTo f r false false (fun g => g ^ 2 * q < 1) (fun g => g ^ 2 * q = 1) (round (recipSqrt x) f r false) := by
  obtain ⟨b, hb, hfine⟩ : ∃ b, binary f = some b ∧ b.bias + b.frac ≤ 256 := by
    simp only [List.mem_cons, List.not_mem_nil, or_false] at hf
    rcases hf with rfl | rfl | rfl <;> exact ⟨_, rfl, by decide⟩
  have near {p n d : Nat} (hp : 256 ≤ p) (hn : 0 < n) (hd : 0 < d) :
      RoundedTo f r false false (fun g => g ^ 2 < (n : Rat) / d) (fun g => g ^ 2 = (n : Rat) / d)
        (round (.fin (sqrtNear p n d).1 (sqrtNear p n d).2) f r false) := by
    obtain ⟨ha, hb'⟩ := sqrtNear_pos (p := p) (d := d) hn
    obtain ⟨m, hm, hcode⟩ := round_roundedTo f r false ha.ne' hb'
    rw [decide_eq_false (not_lt.mpr ha.le)] at hm hcode
    have habs : |((sqrtNear p n d).1 : Rat) / (sqrtNear p n d).2| = (sqrtNear p n d).1 / (sqrtNear p n d).2 :=
      abs_of_pos (div_pos (by exact_mod_cast ha) (by exact_mod_cast hb'))
    rw [habs] at hm
    exact ⟨m, roundsTo_congr hm (fun k => sqrtNear_side hd (grid_dyadic hb (by omega) k)) fun k => sqrtNear_side hd (mid_dyadic hb (by omega) k), hcode⟩
  cases x with
  | fin n d =>
    obtain rfl : (n : Rat) / d = q := Option.some.inj hx
    have hn : ¬n < 0 := fun h => not_lt.mpr hq.le ((fin_neg_iff hs.2).mpr h)
    have hn0 : 0 < n.natAbs := Int.natAbs_pos.mpr hs.1
    have hd : (0 : Rat) < d := by exact_mod_cast hs.2
    have hcast : (n : Rat) / d = n.natAbs / d := by rw [← abs_of_pos hq, abs_fin]
    have hn' : (0 : Rat) < n.natAbs := by exact_mod_cast hn0
    constructor
    · rw [hcast, sqrt_fin hn rfl]
      exact near le_rfl hn0 hs.2
    · have hmul (g : Rat) : (g ^ 2 * ((n : Rat) / d) < 1 ↔ g ^ 2 < (d : Rat) / n.natAbs) ∧ (g ^ 2 * ((n : Rat) / d) = 1 ↔ g ^ 2 = (d : Rat) / n.natAbs) := by
        rw [hcast, ← mul_div_assoc, div_lt_one hd, div_eq_one_iff_eq hd.ne', lt_div_iff₀ hn', eq_div_iff hn'.ne']
        exact ⟨Iff.rfl, Iff.rfl⟩
      simp only [hmul, recipSqrt_fin hn rfl]
      exact near (by decide) hs.2 hn0
  | zero c => exact absurd (Option.some.inj hx) hq.ne
  | _ => cases hx

end Sys2Proof.Machine
end

section
/-! PROOFS. The special functions where they are no irrational number (R240, R241, for O33). -/

namespace Sys2Proof.Machine
open Sys2Proof.Safety

/-! ### The codes of 1, -1 and 1/2 -/

theorem round_units {f : Fmt} {b : Binary} (hf : f ∈ [Fmt.fp32, .fp16, .bf16]) (hb : binary f = some b) (r : Rnd) :
    round (.fin 1 1) f r false = powerCode b 0 ∧ round (.fin (-1) 1) f r false = Safety.withSign f true (powerCode b 0) ∧
      round (.fin 1 2) f r false = powerCode b (-1) := by
  simp only [List.mem_cons, List.not_mem_nil, or_false] at hf
  rcases hf with rfl | rfl | rfl <;> cases hb <;> cases r <;> decide

/-! ### Arguments that are integers, halves and powers of two -/

theorem eq_mul_of_quot {n : Int} {d : Nat} (hd : 0 < d) {k : Int} (h : (n : Rat) / d = k) : n = k * d := by
  rw [div_eq_iff (by exact_mod_cast hd.ne')] at h; exact_mod_cast h

theorem isInt_of_quot {n : Int} {d : Nat} (hd : 0 < d) {k : Int} (h : (n : Rat) / d = k) : isInt n d = true ∧ n / d = k := by
  have hd' : (d : Int) ≠ 0 := by exact_mod_cast hd.ne'
  rw [eq_mul_of_quot hd h]
  exact ⟨decide_eq_true (Int.mul_emod_left k d), Int.mul_ediv_cancel k hd'⟩

theorem isHalf_of_quot {n : Int} {d : Nat} (hd : 0 < d) {k : Int} (h : 2 * ((n : Rat) / d) = 2 * k + 1) :
    isInt n d = false ∧ isHalf n d = true ∧ 2 * n / d = 2 * k + 1 := by
  have hd' : (d : Int) ≠ 0 := by exact_mod_cast hd.ne'
  have h2 : ((2 * n : Int) : Rat) / d = (2 * k + 1 : Int) := by push_cast; rw [← h]; ring
  have hn : 2 * n = (2 * k + 1) * d := eq_mul_of_quot hd h2
  have hnot : isInt n d = false := by
    rw [isInt, decide_eq_false_iff_not]
    intro hmod
    obtain ⟨j, rfl⟩ := Int.dvd_of_emod_eq_zero hmod
    have : 2 * j = 2 * k + 1 := mul_right_cancel₀ hd' (by linarith)
    omega
  refine ⟨hnot, ?_, ?_⟩
  · rw [isHalf, hnot, hn, Int.mul_emod_left]; rfl
  · rw [hn, Int.mul_ediv_cancel _ hd']

/-- A quotient that is 2^k, as the model tells it. -/
theorem floorLog2_of_pow {n : Int} {d : Nat} (hd : 0 < d) {k : Int} (h : (n : Rat) / d = 2 ^ k) :
    0 < n ∧ floorLog2 n.natAbs d = k ∧ (if k < 0 then n * 2 ^ (-k).toNat = d else n = (d : Int) * 2 ^ k.toNat) := by
  have hd' : (0 : Rat) < d := by exact_mod_cast hd
  have hn : (n : Rat) = 2 ^ k * d := (div_eq_iff hd'.ne').mp h
  have hpos : 0 < n := by
    have : (0 : Rat) < n := by rw [hn]; positivity
    exact_mod_cast this
  have habs : (n.natAbs : Rat) = n := by rw [← abs_of_pos (a := (n : Rat)) (by exact_mod_cast hpos), ← Int.cast_abs, Int.abs_eq_natAbs]; rfl
  refine ⟨hpos, floorLog2_unique (by omega) hd ?_ ?_, ?_⟩
  · rw [habs, hn]
  · rw [habs, hn, zpow_add_one₀ two_ne_zero]
    have : (0 : Rat) < 2 ^ k * d := by positivity
    linarith
  · split <;> rename_i hk
    · rw [two_zpow_of_neg hk] at hn
      have : (n : Rat) * 2 ^ (-k).toNat = d := by rw [hn]; field_simp
      exact_mod_cast this
    · rw [two_zpow_of_nonneg (by omega)] at hn
      rw [mul_comm]; exact_mod_cast hn

/-! ### The table (R240, R241) -/

section
variable {f : Fmt} {b : Binary} (hf : f ∈ [Fmt.fp32, .fp16, .bf16]) (hb : binary f = some b) (r : Rnd)
include hf hb

/-- What the special functions round, where it is a zero, an infinity, 1, -1 or 1/2. -/
theorem round_limits : (∀ z, round (.zero z) f r false = Safety.withSign f z 0) ∧ (∀ z, round (.inf z) f r false = Safety.withSign f z b.inf) ∧
    (∀ fn, special fn .nan f r = b.nan) ∧ canonNan f = b.nan ∧ Safety.withSign f false 0 = 0 ∧ Safety.withSign f false b.inf = b.inf := by
  obtain ⟨s, hl⟩ := SameLayout.of_binary hb
  have hne : f ≠ .e4m3 := by rintro rfl; exact absurd hf (by decide)
  refine ⟨fun z => (hl.round_special r false z).2.1, fun z => ?_, fun fn => ?_, hl.nan, rfl, rfl⟩
  · rw [(hl.round_special r false z).2.2, infinite, if_neg hne]; rfl
  · cases fn <;> exact hl.nan

/-- Where the argument is a zero or an infinity, the table decides. -/
theorem special_limits : let one := powerCode b 0
    (∀ fn, special fn .nan f r = b.nan) ∧
    special .exp2 (.inf true) f r = 0 ∧ special .exp2 (.inf false) f r = b.inf ∧ (∀ z, special .exp2 (.zero z) f r = one) ∧
    (∀ z, special .log2 (.zero z) f r = Safety.withSign f true b.inf) ∧ special .log2 (.inf true) f r = b.nan ∧ special .log2 (.inf false) f r = b.inf ∧
    (∀ z, special .sin (.inf z) f r = b.nan ∧ special .sin (.zero z) f r = Safety.withSign f z 0) ∧
    (∀ z, special .cos (.inf z) f r = b.nan ∧ special .cos (.zero z) f r = one) ∧
    (∀ z, special .tanh (.inf z) f r = Safety.withSign f z one ∧ special .tanh (.zero z) f r = Safety.withSign f z 0) ∧
    special .sigm (.inf true) f r = 0 ∧ special .sigm (.inf false) f r = one ∧ (∀ z, special .sigm (.zero z) f r = powerCode b (-1)) ∧
    ∀ z, special .erf (.inf z) f r = Safety.withSign f z one ∧ special .erf (.zero z) f r = Safety.withSign f z 0 := by
  obtain ⟨hzero, hinf, hnan, hcanon, h0, hinf0⟩ := round_limits hf hb r
  obtain ⟨hone, hmone, hhalf⟩ := round_units hf hb r
  have hsigned (z : Bool) : round (if z then .fin (-1) 1 else .fin 1 1) f r false = Safety.withSign f z (powerCode b 0) := by
    cases z
    · exact hone
    · exact hmone
  exact ⟨hnan, (hzero false).trans h0, (hinf false).trans hinf0, fun _ => hone, fun _ => hinf true, hcanon, (hinf false).trans hinf0,
    fun z => ⟨hcanon, hzero z⟩, fun _ => ⟨hcanon, hone⟩, fun z => ⟨hsigned z, hzero z⟩, (hzero false).trans h0, hone, fun _ => hhalf,
    fun z => ⟨hsigned z, hzero z⟩⟩

/-- SIN and COS of half-turns, and EXP2 of integers, are known. -/
theorem special_at_integer {n : Int} {d : Nat} (hd : 0 < d) {k : Int} (h : (n : Rat) / d = k) :
    special .sin (.fin n d) f r = Safety.withSign f (decide (n < 0)) 0 ∧
    special .cos (.fin n d) f r = Safety.withSign f (decide (k % 2 = 1)) (powerCode b 0) ∧
    (-4096 < k → k < 4096 → RoundedTo f r false false (· < (2 : Rat) ^ k) (· = (2 : Rat) ^ k) (special .exp2 (.fin n d) f r)) := by
  obtain ⟨hzero, -⟩ := round_limits hf hb r
  obtain ⟨hone, hmone, -⟩ := round_units hf hb r
  obtain ⟨hint, hdiv⟩ := isInt_of_quot hd h
  refine ⟨?_, ?_, fun hlo hhi => ?_⟩
  · rw [special, if_pos hint]; exact hzero _
  · have hhalf : isHalf n d = false := by rw [isHalf, hint]; exact Bool.and_false _
    rw [special, hhalf, if_neg Bool.false_ne_true, if_pos hint, hdiv]
    rcases Int.emod_two_eq k with hk | hk
    · rw [if_pos hk, hk]; exact hone
    · rw [if_neg (by omega), hk]; exact hmone
  · have hfar : atLeast 4096 n d = false := by
      have habs : n.natAbs = k.natAbs * d := by rw [eq_mul_of_quot hd h, Int.natAbs_mul, Int.natAbs_natCast]
      rw [atLeast, habs, decide_eq_false_iff_not, not_le]
      exact Nat.mul_lt_mul_of_pos_right (by omega) hd
    have hpos : (0 : Rat) < 2 ^ k := by positivity
    have hround := round_roundedTo_rat f r false (scaled_sound false 1 k) (scaled_rat false 1 k) (by simpa using hpos.ne')
    simp only [Bool.false_eq_true, if_false, Nat.cast_one, one_mul, abs_of_pos hpos, decide_eq_false (not_lt.mpr hpos.le)] at hround
    rw [special, if_pos hint, hfar, if_neg Bool.false_ne_true, hdiv]
    exact hround

/-- SIN and COS of odd quarter-turns are known. -/
theorem special_at_half {n : Int} {d : Nat} (hd : 0 < d) {k : Int} (h : 2 * ((n : Rat) / d) = 2 * k + 1) :
    special .cos (.fin n d) f r = 0 ∧ special .sin (.fin n d) f r = Safety.withSign f (decide (k % 2 = 1)) (powerCode b 0) := by
  obtain ⟨hzero, -, -, -, h0, -⟩ := round_limits hf hb r
  obtain ⟨hone, hmone, -⟩ := round_units hf hb r
  obtain ⟨hint, hhalf, hdiv⟩ := isHalf_of_quot hd h
  constructor
  · rw [special, if_pos hhalf]; exact (hzero false).trans h0
  · rw [special, hint, if_neg Bool.false_ne_true, if_pos hhalf, hdiv]
    rcases Int.emod_two_eq k with hk | hk
    · rw [if_pos (by omega), hk]; exact hone
    · rw [if_neg (by omega), hk]; exact hmone

/-- LOG2 of a power of two is its exponent. -/
theorem special_log2_of_pow {n : Int} {d : Nat} (hd : 0 < d) {k : Int} (h : (n : Rat) / d = 2 ^ k) : if k = 0 then special .log2 (.fin n d) f r = 0
    else RoundedTo f r false (decide (k < 0)) (· < |(k : Rat)|) (· = |(k : Rat)|) (special .log2 (.fin n d) f r) := by
  obtain ⟨hzero, -, -, -, h0, -⟩ := round_limits hf hb r
  obtain ⟨hpos, hlog, hexact⟩ := floorLog2_of_pow hd h
  have hx : special .log2 (.fin n d) f r = round (if k = 0 then .zero false else .fin k 1) f r false := by
    rw [special, if_neg (by omega)]; simp only [hlog, if_pos hexact]
  rw [hx]
  by_cases hk : k = 0
  · rw [if_pos hk, if_pos hk]; exact (hzero false).trans h0
  · rw [if_neg hk, if_neg hk]
    have hround := round_roundedTo f r false hk Nat.one_pos
    rwa [Nat.cast_one, div_one] at hround

end

end Sys2Proof.Machine
end

section
/-! PROOFS. The floating-point words on their core's registers (R231 to R241), and O33. -/

namespace Sys2Proof.Machine
open Sys2Proof.Safety

/-! ### Operands of the words -/

theorem float_of_ok {op : Nat} {w : LA} {b c : Pos} {d : Pos} (h : w.ok op = true)
    (hp : (laSpec op w.sub.toNat).map (fun p => (p.fmts, p.d, p.b, p.c)) = some (Fmt.floats, d, b, c)) :
    w.fmt ∈ Fmt.floats ∧ d.accepts w.fmt w.d = true ∧ b.accepts w.fmt w.b = true ∧ c.accepts w.fmt w.c = true := by
  obtain ⟨p, hs, hq⟩ := Option.map_eq_some_iff.mp hp
  simp only [Prod.mk.injEq] at hq
  obtain ⟨hf, rfl, rfl, rfl⟩ := hq
  have hfit := FitsSpec.of_ok h hs
  have hfmt := hfit.fmt
  rw [hf] at hfmt
  exact ⟨hfmt, hfit.d, hfit.b, hfit.c⟩

theorem float_facts {f : Fmt} (h : f ∈ Fmt.floats) : regCount f = 1 ∧ isSignedFmt f = false ∧ ∃ s b, SameLayout f s b := by
  simp only [Fmt.floats, List.mem_cons, List.not_mem_nil, or_false] at h
  rcases h with rfl | rfl | rfl <;> exact ⟨rfl, rfl, (sameLayout_or _).resolve_right fun h => by cases h.1⟩

/-- Every value of a binary format is a quotient with a positive denominator, a zero, an infinity or no number. -/
theorem valueOf_float_sound {f : Fmt} (h : f ∈ Fmt.floats) (code : Nat) : (valueOf f code).sound := by
  obtain ⟨-, -, s, b, hl⟩ := float_facts h
  exact (valueOf_binary hl code).1

/-! ### Results as codes -/

/-- A q destination receives zeros above a code of an unsigned or floating-point format (R231). -/
theorem eachCode_of_eachLane {x y : Core} {w : LA} {f : Fmt} {r : Nat → Nat} (h : EachLane x y w f r) (hf : isSignedFmt f = false) :
    EachCode x y w f r := by
  unfold EachCode
  split
  · rename_i d hd
    rw [EachLane, hd] at h
    exact ⟨h.rest, h.others, by rw [h.wrote, hf, if_neg Bool.false_ne_true]⟩
  · exact h

theorem eachCode_congr {x y : Core} {w : LA} {f : Fmt} {r r' : Nat → Nat} (h : EachCode x y w f r) (he : ∀ l, r l = r' l) : EachCode x y w f r' :=
  funext he ▸ h

/-- FGETEXP's result: a signed format to v registers, zeros above it in a q register. -/
theorem Core.eachZero_i32 (x : Core) (w : LA) (op : Nat → Nat) (h : (∃ d, w.d = .v d) ∨ ∃ d, w.d = .q d) :
    EachCode x (x.eachZero w .i32 op) w .i32 op := by
  rcases h with ⟨d, h⟩ | ⟨d, h⟩ <;> simp only [EachCode, EachLane, Core.eachZero, Core.each, h, bit_gov]
  · exact Core.putV_puts ..
  · have hq := Core.putQ_puts x d .n32 w.nwb (op 0)
    exact ⟨hq.rest, hq.others, hq.wrote⟩

/-! ### The words as the shared operations -/

theorem exec_fadd (w : LA) (s : State) : exec (.fadd w) s = s.arith (.fadd w) w fun u v _ => u.add w.rnd v := rfl
theorem exec_fsub (w : LA) (s : State) : exec (.fsub w) s = s.arith (.fsub w) w fun u v _ => u.add w.rnd v.neg := rfl
theorem exec_fmul (w : LA) (s : State) : exec (.fmul w) s = s.arith (.fmul w) w fun u v _ => u.mul v := rfl
theorem exec_fma (w : LA) (s : State) : exec (.fma w) s = s.arith (.fma w) w fun u v z => (u.mul v).add w.rnd z := rfl
theorem exec_fnma (w : LA) (s : State) : exec (.fnma w) s = s.arith (.fnma w) w fun u v z => (u.mul v).neg.add w.rnd z := rfl
theorem exec_fdiv (w : LA) (s : State) : exec (.fdiv w) s = s.arith (.fdiv w) w fun u v _ => u.div v := rfl
theorem exec_fsqrt (w : LA) (s : State) : exec (.fsqrt w) s = s.arith (.fsqrt w) w fun u _ _ => u.sqrt := rfl
theorem exec_fmin (w : LA) (s : State) : exec (.fmin w) s = s.arith (.fmin w) w fun u v _ => Exact.least false u v := rfl
theorem exec_fmax (w : LA) (s : State) : exec (.fmax w) s = s.arith (.fmax w) w fun u v _ => Exact.least true u v := rfl
theorem exec_frnd (w : LA) (s : State) : exec (.frnd w) s = s.arith (.frnd w) w fun u _ _ => integral w.rnd u := rfl
theorem exec_frcp (w : LA) (s : State) : exec (.frcp w) s = s.arith (.frcp w) w fun u _ _ => (Exact.fin 1 1).div u := rfl
theorem exec_frsq (w : LA) (s : State) : exec (.frsq w) s = s.arith (.frsq w) w fun u _ _ => recipSqrt u := rfl
theorem exec_fexp2 (w : LA) (s : State) : exec (.fexp2 w) s = s.specialWord (.fexp2 w) w .exp2 := rfl
theorem exec_flog2 (w : LA) (s : State) : exec (.flog2 w) s = s.specialWord (.flog2 w) w .log2 := rfl
theorem exec_fsin (w : LA) (s : State) : exec (.fsin w) s = s.specialWord (.fsin w) w .sin := rfl
theorem exec_fcos (w : LA) (s : State) : exec (.fcos w) s = s.specialWord (.fcos w) w .cos := rfl
theorem exec_ftanh (w : LA) (s : State) : exec (.ftanh w) s = s.specialWord (.ftanh w) w .tanh := rfl
theorem exec_fsigm (w : LA) (s : State) : exec (.fsigm w) s = s.specialWord (.fsigm w) w .sigm := rfl
theorem exec_ferf (w : LA) (s : State) : exec (.ferf w) s = s.specialWord (.ferf w) w .erf := rfl
theorem exec_fabs (w : LA) (s : State) :
    exec (.fabs w) s = s.floatWord (.fabs w) w fun x l => withSign w.fmt (x.data w.fmt w.a l) false := rfl
theorem exec_fneg (w : LA) (s : State) : exec (.fneg w) s =
    s.floatWord (.fneg w) w fun x l => withSign w.fmt (x.data w.fmt w.a l) (!signOf w.fmt (x.data w.fmt w.a l)) := rfl
theorem exec_fsgn (w : LA) (s : State) : exec (.fsgn w) s = execFsgn w s := rfl
theorem exec_fclass (w : LA) (s : State) : exec (.fclass w) s = s.laneLA (.fclass w) w .n32 1 0 0 false (fun x => x.floatTags w)
    fun x => x.each w .n32 fun l => classOf w.fmt (x.data w.fmt w.a l) := rfl
theorem exec_fgetexp (w : LA) (s : State) : exec (.fgetexp w) s = s.laneLA (.fgetexp w) w .i32 1 0 0 false (fun x => x.floatTags w)
    fun x => x.eachZero w .i32 fun l => getExp (x.real w.fmt w.a l) := rfl
theorem exec_fscale (w : LA) (s : State) : exec (.fscale w) s = execFscale w s := rfl

/-! ### The words -/

section
variable {s : State} {n slot k : Nat} {c : Ctx} {x : Core} {w : LA}

theorem floatTag_of {o : Opd} (hf : w.fmt ∈ Fmt.floats) (h : Tagged x o 1 (· = w.fmt)) : x.dataTag w.fmt exactTag o = true := by
  rw [dataTag_iff, (float_facts hf).1]
  exact tagged_mono h fun t ht => decide_eq_true ht

theorem unusedTag (f : Fmt) (p : Fmt → Fmt → Bool) : x.dataTag f p .unused = true := rfl

theorem floatWord_performs {i : Instr} {op : Core → Nat → Nat} {op' : Nat → Nat} (hf : w.fmt ∈ Fmt.floats) (hd : Pos.vq.accepts w.fmt w.d = true)
    (hr : LaneReady s i n slot k c x (laOpds w w.fmt 1 1 1)) (hw : Whole w) (ha : Tagged x w.a 1 (· = w.fmt)) (hb : Tagged x w.b 1 (· = w.fmt))
    (hc : Tagged x w.c 1 (· = w.fmt)) (he : exec i s = s.floatWord i w op) (hop : ∀ l, op x l = op' l) :
    Performs s i n k fun y => EachCode x y w w.fmt op' := by
  refine State.laneLA_performs hr (.inr hw) ?_ ?_ he
  · simp only [Core.floatTags, List.all_cons, List.all_nil, floatTag_of hf ha, floatTag_of hf hb, floatTag_of hf hc, Bool.and_self]
  · exact eachCode_congr (eachCode_of_eachLane (x.each_eachLane w w.fmt _ (Pos.eq_v_or_q_of_vq hd)) (float_facts hf).2.1) hop

/-- The class of a code by its value, where a magnitude below the smallest normal number is subnormal (R237). -/
theorem classOf_eq {f : Fmt} (hf : f ∈ Fmt.floats) (code : Nat) : classOf f code = 2 ^ match valueOf f code with
    | .nan => 8
    | .inf b => if b then 0 else 7
    | .zero b => if b then 3 else 4
    | .fin g _ => if g < 0 then (if code % 2 ^ (Fmt.width f - 1) < smallestNormal f then 2 else 1)
        else (if code % 2 ^ (Fmt.width f - 1) < smallestNormal f then 5 else 6) := by
  obtain ⟨-, -, s, b, hl⟩ := float_facts hf
  have hsmall : 2 ^ s.fbits = smallestNormal f := by
    have hshape := hl.shape
    simp only [Fmt.floats, List.mem_cons, List.not_mem_nil, or_false] at hf
    rcases hf with rfl | rfl | rfl <;> cases hshape <;> rfl
  have hsub : code % 2 ^ s.signBit / 2 ^ s.fbits = 0 ↔ code % 2 ^ (Fmt.width f - 1) < smallestNormal f := by
    rw [Nat.div_eq_zero_iff, hl.width, hsmall, or_iff_right (hsmall ▸ by positivity)]
  simp only [classOf, hl.shape, decide_eq_true_eq, hsub]
  cases valueOf f code <;> simp only <;> split_ifs <;> rfl

/-- The exponent that FGETEXP gives for a value (R239). -/
def exponentOf : Exact → Int
  | .fin g d => floorLog2 g.natAbs d
  | .zero _ => -2 ^ 31
  | _ => 2 ^ 31 - 1

theorem getExp_eq (u : Exact) : getExp u = (exponentOf u % 2 ^ 32).toNat := by cases u <;> rfl

theorem clamp_eq (a : Int) : (if a < -4096 then -4096 else if 4096 < a then 4096 else a) = max (-4096) (min a 4096) := by
  split_ifs <;> omega

theorem signRule_eq (sub : BitVec 3) (a b : Bool) :
    (match sub.toNat with | 0 => b | 1 => !b | _ => a != b) = if sub = 0 then b else if sub = 1 then !b else a != b := by
  by_cases h0 : sub = 0
  · rw [h0]; rfl
  · by_cases h1 : sub = 1
    · rw [h1]; rfl
    · rw [if_neg h0, if_neg h1]
      split
      · exact absurd (BitVec.eq_of_toNat_eq ‹_›) h0
      · exact absurd (BitVec.eq_of_toNat_eq ‹_›) h1
      · rfl

theorem signCode_eq (f : Fmt) (code : Nat) (neg : Bool) : withSign f code neg =
    if valueOf f code = .nan then canonNan f else code % 2 ^ (Fmt.width f - 1) + if neg then 2 ^ (Fmt.width f - 1) else 0 := by
  cases neg <;> simp [withSign, boolNat]

theorem fclass_performs (hf : w.fmt ∈ Fmt.floats) (hd : ∃ d, w.d = .v d) (hb : w.b = .unused) (hc : w.c = .unused)
    (hr : LaneReady s (.fclass w) n slot k c x (laOpds w .n32 1 0 0)) (ha : Tagged x w.a 1 (· = w.fmt)) :
    Performs s (.fclass w) n k fun y => EachCode x y w .n32 fun l => classOf w.fmt (x.data w.fmt w.a l) := by
  obtain ⟨d, hd⟩ := hd
  refine State.laneLA_performs hr (.inr (whole_of_v hd)) ?_ ?_ (exec_fclass w s)
  · simp only [Core.floatTags, List.all_cons, List.all_nil, floatTag_of hf ha, hb, hc, unusedTag, Bool.and_self]
  · exact eachCode_of_eachLane (x.each_eachLane w .n32 _ (.inl ⟨d, hd⟩)) rfl

theorem fgetexp_performs (hf : w.fmt ∈ Fmt.floats) (hd : Pos.vq.accepts w.fmt w.d = true) (hb : w.b = .unused) (hc : w.c = .unused)
    (hr : LaneReady s (.fgetexp w) n slot k c x (laOpds w .i32 1 0 0)) (hw : Whole w) (ha : Tagged x w.a 1 (· = w.fmt)) :
    Performs s (.fgetexp w) n k fun y => EachCode x y w .i32 fun l => (exponentOf (valueOf w.fmt (x.data w.fmt w.a l)) % 2 ^ 32).toNat := by
  refine State.laneLA_performs hr (.inr hw) ?_ ?_ (exec_fgetexp w s)
  · simp only [Core.floatTags, List.all_cons, List.all_nil, floatTag_of hf ha, hb, hc, unusedTag, Bool.and_self]
  · exact eachCode_congr (x.eachZero_i32 w _ (Pos.eq_v_or_q_of_vq hd)) fun l => getExp_eq _

theorem fscale_performs (hf : w.fmt ∈ Fmt.floats) (hd : Pos.vq.accepts w.fmt w.d = true)
    (hr : LaneReady s (.fscale w) n slot k c x (laOpds w w.fmt 1 1 0)) (hw : Whole w) (ha : Tagged x w.a 1 (· = w.fmt))
    (hb : Tagged x w.b 1 (match w.b with | .a _ => IsAff | _ => IsI32)) :
    Performs s (.fscale w) n k fun y => EachCode x y w w.fmt fun l =>
      round ((valueOf w.fmt (x.data w.fmt w.a l)).scale (max (-4096) (min (signed 32 (x.index w.b l)) 4096))) w.fmt w.rnd false := by
  have htag : (match w.b with | .a _ => x.tagOk w.b 1 isAff | o => x.indexTag o) = true := by
    cases ho : w.b <;> rw [ho] at hb <;> simp only [Core.indexTag, tagOk_iff]
    case a => exact tagged_mono hb fun t => (isAff_iff t).mpr
    all_goals exact tagged_mono hb fun t => (isI32_iff t).mpr
  refine State.laneLA_performs hr (.inr hw) ?_ ?_ (exec_fscale w s)
  · simp only [floatTag_of hf ha, Bool.true_and]; exact htag
  · refine eachCode_congr (eachCode_of_eachLane (x.each_eachLane w w.fmt _ (Pos.eq_v_or_q_of_vq hd)) (float_facts hf).2.1) fun l => ?_
    rw [← clamp_eq]; rfl

end

/-! ### O33 -/

theorem sqrt_of_neg {n : Int} {d : Nat} (h : n < 0) : (Exact.fin n d).sqrt = .nan := by rw [Exact.sqrt, if_pos h]
theorem recipSqrt_of_neg {n : Int} {d : Nat} (h : n < 0) : recipSqrt (.fin n d) = .nan := by rw [recipSqrt, if_pos h]

/-- FGETEXP's exponent is that of the magnitude, or an end of the range where there is none (R239). -/
theorem exponentOf_spec (u : Exact) : u.sound → match u with
    | .fin g d => (2 : Rat) ^ exponentOf u * d ≤ g.natAbs ∧ (g.natAbs : Rat) < 2 ^ (exponentOf u + 1) * d
    | .zero _ => exponentOf u = -2 ^ 31
    | _ => exponentOf u = 2 ^ 31 - 1 := by
  cases u with
  | fin g d => exact fun h => floorLog2_spec (Int.natAbs_pos.mpr h.1) h.2
  | _ => exact fun _ => rfl

/-- Settles O33: the words by their shared operation, the values and roundings format by format, and the table of the special functions. -/
theorem floatingPointWordsRoundOnce : Obligations.FloatingPointWordsRoundOnce := by
  unfold Obligations.FloatingPointWordsRoundOnce
  refine ⟨⟨?_, fun f hf => ⟨fun code hcode => ?_, fun r sat x q hx hq h0 => round_roundedTo_rat f r sat hx hq h0, fun r sat neg => ?_, fun r x hx => ?_,
    fun hfl r code q hq hpos => ?_⟩⟩, ⟨?_, fun f b r hf hb => ?_⟩⟩
  · intro s n slot k c x w f m a u v z neg signed_ codes rounds
    have word (op : Nat) {b c : Pos} {i : Instr} {eff : Core → Nat → Nat} {res : Nat → Nat} (he : exec i s = s.floatWord i w eff)
        (hres : ∀ l, eff x l = res l) (hwf : i.wf = w.ok op)
        (hp : (laSpec op w.sub.toNat).map (fun p => (p.fmts, p.d, p.b, p.c)) = some (Fmt.floats, .vq, b, c)) : codes i res := by
      intro hr hw ha hb hc
      obtain ⟨hf, hd, -⟩ := float_of_ok (hwf ▸ hr.legal) hp
      exact floatWord_performs hf hd hr hw ha hb hc he hres
    have hsign (l : Nat) (b : Bool) : withSign w.fmt (x.data w.fmt w.a l) b = signed_ l b := signCode_eq ..
    refine ⟨
      word 0x100 (exec_fadd w s) (fun _ => rfl) rfl rfl, word 0x101 (exec_fsub w s) (fun _ => rfl) rfl rfl,
      word 0x102 (exec_fmul w s) (fun _ => rfl) rfl rfl, word 0x103 (exec_fma w s) (fun _ => rfl) rfl rfl,
      word 0x104 (exec_fnma w s) (fun _ => rfl) rfl rfl, word 0x105 (exec_fdiv w s) (fun _ => rfl) rfl rfl,
      word 0x106 (exec_fsqrt w s) (fun _ => rfl) rfl rfl, word 0x107 (exec_fmin w s) (fun _ => rfl) rfl rfl,
      word 0x108 (exec_fmax w s) (fun _ => rfl) rfl rfl, word 0x109 (exec_fabs w s) (fun l => hsign l _) rfl rfl,
      word 0x10A (exec_fneg w s) (fun l => hsign l _) rfl rfl, word 0x10D (exec_fsgn w s) (fun l => ?_) rfl rfl,
      word 0x10E (exec_frnd w s) (fun _ => rfl) rfl rfl, word 0x120 (exec_frcp w s) (fun _ => rfl) rfl rfl,
      word 0x121 (exec_frsq w s) (fun _ => rfl) rfl rfl, word 0x122 (exec_fexp2 w s) (fun _ => rfl) rfl rfl,
      word 0x123 (exec_flog2 w s) (fun _ => rfl) rfl rfl, word 0x124 (exec_fsin w s) (fun _ => rfl) rfl rfl,
      word 0x125 (exec_fcos w s) (fun _ => rfl) rfl rfl, word 0x126 (exec_ftanh w s) (fun _ => rfl) rfl rfl,
      word 0x127 (exec_fsigm w s) (fun _ => rfl) rfl rfl, word 0x128 (exec_ferf w s) (fun _ => rfl) rfl rfl,
      fun hr ha => ?_, fun hr hw ha => ?_, fun hr hw ha hb => ?_⟩
    · exact (hsign l _).trans (congrArg (signed_ l) (signRule_eq w.sub _ _))
    · obtain ⟨hf, hd, hb, hc⟩ := float_of_ok (op := 0x10C) hr.legal rfl
      obtain ⟨t, y, hx, hdone, hrest, hy, hmem⟩ := fclass_performs hf (Pos.eq_v_of_vOnly hd) (Pos.eq_unused hb) (Pos.eq_unused hc) hr ha
      exact ⟨t, y, hx, hdone, hrest, eachCode_congr hy fun l => (classOf_eq hf _).trans rfl, hmem⟩
    · obtain ⟨hf, hd, hb, hc⟩ := float_of_ok (op := 0x110) hr.legal rfl
      obtain ⟨t, y, hx, hdone, hrest, hy, hmem⟩ := fgetexp_performs hf hd (Pos.eq_unused hb) (Pos.eq_unused hc) hr hw ha
      exact ⟨t, y, hx, hdone, hrest, ⟨_, hy, fun l => exponentOf_spec _ (valueOf_float_sound hf _)⟩, hmem⟩
    · obtain ⟨hf, hd, -⟩ := float_of_ok (op := 0x10F) hr.legal rfl
      exact fscale_performs hf hd hr hw ha hb
  · intro mag neg x
    rcases sameLayout_or f with ⟨s, b, hl⟩ | ⟨hs, hb⟩
    · obtain ⟨hsound, hvalue⟩ := valueOf_binary hl code
      rw [hl.binary]; exact ⟨hsound, hvalue⟩
    · rw [hb]
      by_cases h6 : f = .l6
      · subst h6; exact valueOf_l6 hcode
      · simp only [if_neg h6]; exact valueOf_int hs h6 hcode
  · rcases sameLayout_or f with ⟨s, b, hl⟩ | ⟨hs, hb⟩
    · rw [hl.binary]; exact hl.round_special r sat neg
    · rw [hb]
      by_cases h6 : f = .l6
      · subst h6; exact round_special_l6 r sat neg
      · simp only [if_neg h6]; exact round_special_int hs h6 r sat neg
  · cases x with
    | fin n d => exact integral_fin r hx.2
    | _ => rfl
  · obtain ⟨s, b, hl⟩ := (float_facts hfl).2.2
    exact round_sqrt_code hfl r (valueOf_binary hl code).1 hq hpos
  · exact ⟨rfl, rfl, rfl, rfl, rfl, rfl, fun _ => ⟨rfl, rfl⟩, fun n d hn => ⟨sqrt_of_neg hn, recipSqrt_of_neg hn⟩⟩
  · intro one
    obtain ⟨h1, h2, h3, h4, h5, h6, h7, h8, h9, h10, h11, h12, h13, h14⟩ := special_limits hf hb r
    refine ⟨h1, h2, h3, h4, h5, h6, h7, h8, h9, h10, h11, h12, h13, h14, fun x q hx hq h0 => ?_⟩
    cases x with
    | fin n d =>
      obtain rfl : (n : Rat) / d = q := Option.some.inj hq
      refine ⟨fun hneg => ?_, fun k hk => ?_, fun k hk => special_at_half hf hb r hx.2 hk, fun k hk => special_log2_of_pow hf hb r hx.2 hk⟩
      · rw [special, if_pos ((fin_neg_iff hx.2).mp hneg)]; exact (round_limits hf hb r).2.2.2.1
      · have hneg : decide ((n : Rat) / d < 0) = decide (n < 0) := decide_eq_decide.mpr (fin_neg_iff hx.2)
        rw [hneg]; exact special_at_integer hf hb r hx.2 hk
    | zero c => exact absurd (Option.some.inj hq).symm h0
    | _ => cases hq

end Sys2Proof.Machine
end

section
/-! PROOFS. Lines put into a slice that has room, and the bytes that the homes then hold (for O43). -/

namespace Sys2Proof.Machine
open Sys2Proof.Safety

/-! ### A line put into a slice that has room -/

/-- A line with another hint. -/
def rehint (g : Line → Hint) (l : Line) : Line := { l with hint := g l }

theorem map_rehint_same (set : List Line) : set.map (rehint Line.hint) = set := List.map_id' set

theorem capHints_eq (set : List Line) (cap n : Nat) : ∃ g : Line → Hint, capHints set cap n = set.map (rehint g) := by
  unfold capHints
  dsimp only
  split
  · exact ⟨Line.hint, (map_rehint_same set).symm⟩
  · split
    · rename_i v _
      refine ⟨fun l => if l.line = v.line then .normal else l.hint, List.map_congr_left fun l _ => ?_⟩
      unfold rehint
      dsimp only
      split <;> rfl
    · exact ⟨Line.hint, (map_rehint_same set).symm⟩

theorem findLine_cons (x : Line) (set : List Line) (n : Nat) : findLine (x :: set) n = if x.line = n then some x else findLine set n := by
  unfold findLine
  rw [List.find?_cons]
  by_cases hx : x.line = n <;> simp [hx]

theorem dropLine_cons (x : Line) (set : List Line) (n : Nat) :
    dropLine (x :: set) n = if x.line = n then dropLine set n else x :: dropLine set n := by
  unfold dropLine
  rw [List.filter_cons]
  by_cases hx : x.line = n <;> simp [hx]

theorem dropLine_rehinted (set : List Line) (g : Line → Hint) (n : Nat) :
    dropLine (set.map (rehint g)) n = (dropLine set n).map (rehint g) := by
  unfold dropLine
  rw [List.filter_map]
  rfl

theorem findLine_rehinted (set : List Line) (g : Line → Hint) (n : Nat) :
    findLine (set.map (rehint g)) n = (findLine set n).map (rehint g) := by
  unfold findLine
  rw [List.find?_map]
  rfl

/-- A set with room takes a line and gives up none: its other lines change in their hints at most. -/
theorem touch_roomy {set : List Line} {ways : Nat} (cap : Nat) {l : Line} (h : Hint) (hroom : (dropLine set l.line).length < ways) :
    ∃ g : Line → Hint, touch set ways cap l h =
      ({ l with hint := hintAfter l.hint h } :: (dropLine set l.line).map (rehint g), none) := by
  have hset : ∃ g : Line → Hint, (if hintAfter l.hint h = .evictLast then capHints set cap l.line else set) = set.map (rehint g) := by
    split
    · exact capHints_eq ..
    · exact ⟨Line.hint, (map_rehint_same set).symm⟩
  obtain ⟨g, hg⟩ := hset
  refine ⟨g, ?_⟩
  unfold touch
  dsimp only
  rw [hg, dropLine_rehinted, if_pos (by simpa using hroom)]

/-- The lines of a line's set in its slice, without that line. -/
def State.l2Rest (s : State) (n : Nat) : List Line := dropLine (s.l2Set n) n

theorem State.l2Put_roomy {s : State} {l : Line} (h : Hint) (hroom : (s.l2Rest l.line).length < 16) : ∃ g : Line → Hint, s.l2Put l h =
    { s with l2 := tput s.l2 (l2Key (128 * l.line)) ({ l with hint := hintAfter l.hint h } :: (s.l2Rest l.line).map (rehint g)) } := by
  obtain ⟨g, hg⟩ := touch_roomy (ways := 16) 12 h hroom
  refine ⟨g, ?_⟩
  unfold State.l2Put
  rw [hg]
  rfl

theorem findLine_dropLine {set : List Line} {n m : Nat} (h : m ≠ n) : findLine (dropLine set n) m = findLine set m := by
  unfold findLine dropLine
  rw [List.find?_filter]
  refine congrArg (fun p => List.find? p set) (funext fun l => ?_)
  by_cases hl : l.line = m
  · simp [hl, h]
  · simp [hl]

/-- A line as it stands in a slice, but for its hint. -/
def Line.unhinted (l : Line) : Line := { l with hint := .normal }

theorem State.l2Line_l2Put_other {s : State} {l : Line} (h : Hint) (hroom : (s.l2Rest l.line).length < 16) {n : Nat} (hn : n ≠ l.line) :
    ((s.l2Put l h).l2Line n).map Line.unhinted = (s.l2Line n).map Line.unhinted := by
  obtain ⟨g, hg⟩ := State.l2Put_roomy h hroom
  rw [hg]
  unfold State.l2Line State.l2Set
  dsimp only
  rw [tgetD_tput]
  split
  · rename_i hk
    rw [findLine_cons, if_neg hn.symm, findLine_rehinted, State.l2Rest, findLine_dropLine hn, State.l2Set, ← hk, Option.map_map]
    rfl
  · rfl

theorem length_dropLine_lt {set : List Line} {n : Nat} (h : findLine set n ≠ none) : (dropLine set n).length < set.length := by
  obtain ⟨l, hl⟩ := Option.ne_none_iff_exists'.mp h
  refine List.length_filter_lt_length_iff_exists.mpr ⟨l, List.mem_of_find?_eq_some hl, ?_⟩
  simpa using List.find?_some hl

theorem dropLine_dropLine_comm (set : List Line) (n m : Nat) : dropLine (dropLine set n) m = dropLine (dropLine set m) n := by
  unfold dropLine
  rw [List.filter_filter, List.filter_filter]
  exact congrArg (List.filter · set) (funext fun l => Bool.and_comm ..)

/-- Putting a line that its slice holds leaves no set of lines longer. -/
theorem State.l2Rest_l2Put {s : State} {l : Line} (h : Hint) (hroom : (s.l2Rest l.line).length < 16) (hheld : s.l2Line l.line ≠ none) (n : Nat) :
    ((s.l2Put l h).l2Rest n).length ≤ (s.l2Rest n).length := by
  obtain ⟨g, hg⟩ := State.l2Put_roomy h hroom
  rw [hg]
  unfold State.l2Rest State.l2Set
  dsimp only
  rw [tgetD_tput]
  split
  · rename_i hk
    by_cases hn : n = l.line
    · subst hn
      rw [dropLine_cons, if_pos rfl, dropLine_rehinted, List.length_map]
      exact List.length_filter_le ..
    · have hin : findLine (dropLine (s.l2Set l.line) n) l.line ≠ none := by
        rw [findLine_dropLine (fun h => hn h.symm)]
        exact hheld
      have hlt := length_dropLine_lt hin
      rw [dropLine_cons, if_neg (Ne.symm hn), dropLine_rehinted, List.length_cons, List.length_map, hk, dropLine_dropLine_comm]
      exact hlt
  · exact le_refl _

/-! ### The bytes at the homes -/

/-- The byte at an address as its home holds it. -/
def State.homeByte (s : State) (a : Nat) : Nat := s.homeRead a 1

theorem State.homeRead_testBit (s : State) {pa n : Nat} (h : pa % 128 + n ≤ 128) (i : Nat) :
    (s.homeRead pa n).testBit i = (decide (i < 8 * n) && (s.homeByte (pa + i / 8)).testBit (i % 8)) := by
  unfold State.homeByte State.homeRead
  rw [Line.testBit_get, Line.testBit_get]
  by_cases hi : i < 8 * n
  · have hline : lineOf (pa + i / 8) = lineOf pa := by unfold lineOf; omega
    have hmod : (pa + i / 8) % 128 = pa % 128 + i / 8 := by omega
    have hoff : 8 * (pa % 128 + i / 8) + i % 8 = 8 * (pa % 128) + i := by omega
    rw [hline, hmod, hoff]
    simp [hi, show i % 8 < 8 by omega]
  · simp [hi]

/-- What is read inside a line depends on its bytes alone. -/
theorem State.homeRead_congr {s t : State} {pa n : Nat} (h : pa % 128 + n ≤ 128) (hb : ∀ a, pa ≤ a → a < pa + n → t.homeByte a = s.homeByte a) :
    t.homeRead pa n = s.homeRead pa n := by
  refine Nat.eq_of_testBit_eq fun i => ?_
  rw [State.homeRead_testBit _ h, State.homeRead_testBit _ h]
  by_cases hi : i < 8 * n
  · rw [hb _ (by omega) (by omega)]
  · simp [hi]

/-- Bytes that read as those of a number read together as the number. -/
theorem State.homeRead_of_bytes {t : State} {pa n x : Nat} (h : pa % 128 + n ≤ 128)
    (hb : ∀ a, pa ≤ a → a < pa + n → t.homeByte a = x / 2 ^ (8 * (a - pa)) % 256) : t.homeRead pa n = x % 2 ^ (8 * n) := by
  refine Nat.eq_of_testBit_eq fun i => ?_
  rw [State.homeRead_testBit _ h, Nat.testBit_mod_two_pow]
  by_cases hi : i < 8 * n
  · rw [hb _ (by omega) (by omega), show (256 : Nat) = 2 ^ 8 from rfl, Nat.testBit_mod_two_pow, Nat.testBit_div_two_pow]
    have hsum : i % 8 + 8 * (pa + i / 8 - pa) = i := by omega
    rw [hsum]
    simp [show i % 8 < 8 by omega]
  · simp [hi]

/-- Bytes f with the n bytes of a number put from an address. -/
def putBytes (f : Nat → Nat) (pa n x : Nat) (a : Nat) : Nat := if pa ≤ a ∧ a < pa + n then x / 2 ^ (8 * (a - pa)) % 256 else f a

theorem Line.get_put_bytes (l : Line) {off n j : Nat} (x : Nat) (dirty : Bool) (hn : 0 < n) (hfits : off + n ≤ 128) :
    (l.put off n x dirty).get j 1 = if off ≤ j ∧ j < off + n then x / 2 ^ (8 * (j - off)) % 256 else l.get j 1 := by
  refine Nat.eq_of_testBit_eq fun k => ?_
  have hbit : (l.put off n x dirty).data.toNat.testBit (8 * j + k) =
      if 8 * off ≤ 8 * j + k ∧ 8 * j + k ≤ 8 * (off + n) - 1 then x.testBit (8 * j + k - 8 * off) else l.data.toNat.testBit (8 * j + k) :=
    testBit_putBits _ _ (by omega) (by omega) _
  rw [Line.testBit_get, hbit]
  by_cases hk : k < 8
  · by_cases hj : off ≤ j ∧ j < off + n
    · rw [if_pos (by omega), if_pos hj, show (256 : Nat) = 2 ^ 8 from rfl, Nat.testBit_mod_two_pow, Nat.testBit_div_two_pow,
        show 8 * j + k - 8 * off = k + 8 * (j - off) by omega]
    · rw [if_neg (by omega), if_neg hj, Line.testBit_get]
  · rw [show decide (k < 8 * 1) = false by simpa using hk, Bool.false_and]
    split
    · rw [show (256 : Nat) = 2 ^ 8 from rfl, Nat.testBit_mod_two_pow]
      simp [hk]
    · rw [Line.testBit_get, show decide (k < 8 * 1) = false by simpa using hk, Bool.false_and]

theorem State.homeByte_of_l2Line {s t : State} (hmem : t.mem = s.mem) {a : Nat}
    (hl : (t.l2Line (lineOf a)).map Line.unhinted = (s.l2Line (lineOf a)).map Line.unhinted) : t.homeByte a = s.homeByte a := by
  unfold State.homeByte State.homeRead State.homeLine State.backingLine
  cases ht : t.l2Line (lineOf a) with
  | none =>
    rw [ht] at hl
    have hs : s.l2Line (lineOf a) = none := Option.map_eq_none_iff.mp hl.symm
    rw [hs, hmem]
  | some x =>
    rw [ht] at hl
    obtain ⟨y, hs, hxy⟩ := Option.map_eq_some_iff.mp hl.symm
    rw [hs]
    exact (congrArg (fun z : Line => z.get (a % 128) 1) hxy).symm

theorem State.mem_l2Put_roomy {s : State} {l : Line} (h : Hint) (hroom : (s.l2Rest l.line).length < 16) : (s.l2Put l h).mem = s.mem := by
  obtain ⟨g, hg⟩ := State.l2Put_roomy h hroom
  rw [hg]

theorem State.homeByte_l2Put {s : State} {l : Line} (h : Hint) (hroom : (s.l2Rest l.line).length < 16) (a : Nat) :
    (s.l2Put l h).homeByte a = if lineOf a = l.line then l.get (a % 128) 1 else s.homeByte a := by
  split
  · rename_i ha
    have hput := State.homeRead_l2Put s l h (Nat.mod_lt a (by decide)) 1
    rwa [← ha, show 128 * lineOf a + a % 128 = a from Nat.div_add_mod a 128] at hput
  · rename_i ha
    exact State.homeByte_of_l2Line (State.mem_l2Put_roomy h hroom) (State.l2Line_l2Put_other h hroom ha)

@[simp] theorem State.homeWritten_homeByte (s : State) (pa n a : Nat) : (s.homeWritten pa n).homeByte a = s.homeByte a :=
  State.homeWritten_homeRead ..

theorem State.homeByte_homeLine (s : State) (a : Nat) : (s.homeLine (lineOf a)).get (a % 128) 1 = s.homeByte a := rfl

/-- A write at a home that has room changes the bytes that it names and no other. -/
theorem State.homeByte_homeWrite {s : State} {pa n : Nat} (hroom : Roomy s pa) (hline : InLine pa n) (x : Nat) (h : Hint) :
    (s.homeWrite pa n x h).homeByte = putBytes s.homeByte pa n x := by
  obtain ⟨hroom, hwf⟩ := hroom
  obtain ⟨hpos, hfits⟩ := hline
  funext a
  unfold putBytes State.homeWrite
  rw [State.homeWritten_homeByte]
  by_cases hc : (homeOf pa).cached = true
  · rw [if_pos hc] at hroom ⊢
    have hnum : ((s.homeLine (lineOf pa)).put (pa % 128) n x true).line = lineOf pa := s.homeLine_line _
    rw [State.homeByte_l2Put h (by rw [hnum]; exact hroom), hnum, Line.get_put_bytes _ _ _ hpos hfits]
    by_cases ha : lineOf a = lineOf pa
    · have hcond : (pa % 128 ≤ a % 128 ∧ a % 128 < pa % 128 + n) ↔ (pa ≤ a ∧ a < pa + n) := by unfold lineOf at ha; omega
      have hoff : pa ≤ a → a % 128 - pa % 128 = a - pa := by unfold lineOf at ha; omega
      rw [if_pos ha, ← ha, State.homeByte_homeLine]
      simp only [hcond]
      split
      · rename_i h
        rw [hoff h.1]
      · rfl
    · rw [if_neg ha, if_neg (by unfold lineOf at ha; omega)]
  · rw [if_neg hc] at hroom ⊢
    by_cases ha : lineOf a = lineOf pa
    · have hnone : ∀ m, State.l2Line { s with mem := m } (lineOf a) = none := fun m => by rw [ha]; exact hroom
      have hread : ∀ m, State.homeByte { s with mem := m } a = (readByte m a).toNat := fun m => by
        rw [State.homeByte, State.homeRead_backing (hnone m) (by omega)]
        simp [readBytes, ofBytes]
      rw [hread, show s.homeByte a = (readByte s.mem a).toNat from hread s.mem]
      split
      · rename_i hin
        have hi : a - pa < (toBytes n x).length := by rw [toBytes_length]; omega
        have hget := readByte_writeBytes hwf pa (toBytes n x) hi
        rw [show pa + (a - pa) = a by omega] at hget
        rw [hget]
        simp only [toBytes, List.getElem_map, List.getElem_range, BitVec.toNat_ofNat, Nat.shiftRight_eq_div_pow]
      · rename_i hin
        rw [readByte_writeBytes_other hwf pa _ (by rw [toBytes_length]; omega)]
    · rw [if_neg (by unfold lineOf at ha; omega)]
      unfold State.homeByte State.homeRead State.homeLine
      have hsame : State.l2Line { s with mem := writeBytes s.mem pa (toBytes n x) } (lineOf a) = s.l2Line (lineOf a) := rfl
      rw [hsame]
      cases s.l2Line (lineOf a) with
      | some l => rfl
      | none =>
        have hbytes : readBytes (writeBytes s.mem pa (toBytes n x)) (128 * lineOf a) 128 = readBytes s.mem (128 * lineOf a) 128 := by
          refine List.map_congr_left fun i hi => ?_
          rw [List.mem_range] at hi
          refine readByte_writeBytes_other hwf pa _ ?_
          rw [toBytes_length]
          unfold lineOf at ha ⊢
          omega
        dsimp only [State.backingLine]
        rw [hbytes]

end Sys2Proof.Machine
end

section
/-! PROOFS. An engine's accesses that are answered at once: what they read and write, one after another (for O43). -/

namespace Sys2Proof.Machine
open Sys2Proof.Safety

/-! ### What keeps an engine's accesses answered -/

/-- State t translates and answers what s does: an engine's access that is answered at once in s, and room in a slice that s has, are so in t. -/
structure AnswersAs (s t : State) : Prop where
  cmds     : t.cmds = s.cmds
  clusters : t.clusters = s.clusters
  regs     : t.regs = s.regs
  bad      : t.badGranules = s.badGranules
  isolated : ∀ d, t.isolated d = s.isolated d
  rings    : ∀ n slot, (t.ctx? n slot).map Ctx.ring = (s.ctx? n slot).map Ctx.ring
  held     : ∀ n, (t.l2Line n).isSome = (s.l2Line n).isSome
  room     : ∀ n, (s.l2Rest n).length < 16 → (t.l2Rest n).length < 16
  wf       : Memory.wf s.mem = true → Memory.wf t.mem = true

theorem AnswersAs.refl (s : State) : AnswersAs s s :=
  ⟨rfl, rfl, rfl, rfl, fun _ => rfl, fun _ _ => rfl, fun _ => rfl, fun _ => id, id⟩

theorem AnswersAs.trans {s t u : State} (h : AnswersAs s t) (k : AnswersAs t u) : AnswersAs s u where
  cmds := k.cmds.trans h.cmds
  clusters := k.clusters.trans h.clusters
  regs := k.regs.trans h.regs
  bad := k.bad.trans h.bad
  isolated d := (k.isolated d).trans (h.isolated d)
  rings n slot := (k.rings n slot).trans (h.rings n slot)
  held n := (k.held n).trans (h.held n)
  room n hn := k.room n (h.room n hn)
  wf hw := k.wf (h.wf hw)

theorem foldl_ctxs {α : Type} (f : State → α → State) (hf : ∀ s x, (f s x).ctxs = s.ctxs) (xs : List α) (s : State) :
    (xs.foldl f s).ctxs = s.ctxs := by
  induction xs generalizing s with
  | nil => rfl
  | cons x xs ih => rw [List.foldl_cons, ih, hf]

theorem State.push_ctxs {s t : State} {l cap : Nat} {b : List W64} {die watch : Option Nat} (h : s.push l b cap die watch = some t) :
    t.ctxs = s.ctxs := by
  unfold State.push at h
  dsimp only at h
  split at h
  · cases h
  · split at h
    · cases h
    · split at h
      · cases h
        rfl
      · cases h
        split <;> rfl

theorem State.pushIf_ctxs {s t : State} {p : Prop} [Decidable p] {l cap : Nat} {b : List W64} {die watch : Option Nat}
    (h : (if p then s.push l b cap die watch else none) = some t) : t.ctxs = s.ctxs := by
  by_cases hp : p
  · rw [if_pos hp] at h
    exact State.push_ctxs h
  · rw [if_neg hp] at h
    cases h

theorem State.fireWatch_ctxs (s : State) (key pa n : Nat) : (s.fireWatch key pa n).ctxs = s.ctxs := by
  unfold State.fireWatch
  split
  · rfl
  · refine foldl_ctxs _ (fun u i => ?_) _ s
    dsimp only
    split
    · rfl
    · split
      · split
        · split
          · rename_i t hp
            have ht : t.ctxs = u.ctxs := State.pushIf_ctxs hp
            split
            · exact ht
            · exact ht
          · rfl
        · rfl
      · rfl

theorem State.homeWritten_rings (s : State) (pa k n slot : Nat) :
    ((s.homeWritten pa k).ctx? n slot).map Ctx.ring = (s.ctx? n slot).map Ctx.ring := by
  have hctxs : (s.homeWritten pa k).ctxs = (s.fireMonitors (lineOf pa)).ctxs := foldl_ctxs _ (fun u x => State.fireWatch_ctxs u x pa k) _ _
  unfold State.ctx?
  rw [hctxs, State.fireMonitors, tget_map_snd _ _ (fun p => by split <;> rfl), Option.map_map]
  refine congrArg (fun f => Option.map f (tget s.ctxs (ctxKey n slot))) (funext fun c => ?_)
  rw [Function.comp_apply]
  split <;> rfl

theorem State.homeWritten_answersAs (s : State) (pa n : Nat) : AnswersAs s (s.homeWritten pa n) := by
  have hrings := State.homeWritten_rings s pa n
  obtain ⟨_, _, _, _, _, _, _, _, h⟩ := State.homeWritten_frame s pa n
  rw [h] at hrings ⊢
  exact ⟨rfl, rfl, rfl, rfl, fun _ => rfl, hrings, fun _ => rfl, fun _ => id, id⟩

theorem DiesKept.isolated {s t : State} (h : DiesKept s t) (d : Nat) : t.isolated d = s.isolated d := by
  unfold State.isolated
  rw [h d]

theorem State.reach_answersAs (s : State) (d pa : Nat) : AnswersAs s (s.reach d pa) := by
  have hdies := (State.reach_dies s d pa).isolated
  have hrest := State.reach_rest s d pa
  rw [hrest] at hdies ⊢
  exact ⟨rfl, rfl, rfl, rfl, hdies, fun _ _ => rfl, fun _ => rfl, fun _ => id, id⟩

@[simp] theorem State.reach_homeByte (s : State) (d pa : Nat) : (s.reach d pa).homeByte = s.homeByte := by
  rw [State.reach_rest]
  rfl

theorem State.l2Put_answersAs {s : State} {l : Line} (h : Hint) (hroom : (s.l2Rest l.line).length < 16) (hheld : s.l2Line l.line ≠ none) :
    AnswersAs s (s.l2Put l h) := by
  have hheld' : ∀ n, ((s.l2Put l h).l2Line n).isSome = (s.l2Line n).isSome := fun n => by
    by_cases hn : n = l.line
    · rw [hn, State.l2Line_l2Put, Option.isSome_some, Option.isSome_iff_ne_none.mpr hheld]
    · have := congrArg Option.isSome (State.l2Line_l2Put_other h hroom hn)
      rwa [Option.isSome_map, Option.isSome_map] at this
  have hroom' : ∀ n, (s.l2Rest n).length < 16 → ((s.l2Put l h).l2Rest n).length < 16 := fun n hn =>
    (State.l2Rest_l2Put h hroom hheld n).trans_lt hn
  obtain ⟨g, hg⟩ := State.l2Put_roomy h hroom
  rw [hg] at hheld' hroom' ⊢
  exact ⟨rfl, rfl, rfl, rfl, fun _ => rfl, fun _ _ => rfl, hheld', hroom', id⟩

theorem AnswersAs.ring {s t : State} (h : AnswersAs s t) (y : Cmd) : t.cmdRing y = s.cmdRing y := by
  have hring : ∀ u : State, u.cmdRing y = ((u.ctx? y.cl y.slot).map Ctx.ring).getD 0 := fun u => by
    unfold State.cmdRing State.cmdCtx
    cases u.ctx? y.cl y.slot <;> rfl
  rw [hring, hring, h.rings]

theorem AnswersAs.linkOpen {s t : State} (h : AnswersAs s t) (pa : Nat) : t.linkOpen pa = s.linkOpen pa := by
  have hroute : t.routeOf pa = s.routeOf pa := by
    unfold State.routeOf State.portServes
    rw [h.regs]
  unfold State.linkOpen
  rw [hroute, h.regs]
  simp only [h.isolated]

theorem AnswersAs.badAt {s t : State} (h : AnswersAs s t) (pa n : Nat) : t.badAt pa n = s.badAt pa n := by
  unfold State.badAt
  rw [h.bad]

theorem AnswersAs.mapped {s t : State} (h : AnswersAs s t) {n : Nat} {space : BitVec 2} {va : W72} {write : Bool} {q : Place}
    (hm : Mapped s n space va write q) : Mapped t n space va write q := by
  obtain ⟨hon, e, he, hp⟩ := hm
  have hplace : t.placeIn e va write = s.placeIn e va write := by
    unfold State.placeIn State.peerOk
    rw [h.regs]
  refine ⟨?_, e, ?_, hplace.trans hp⟩
  · rw [← hon]
    unfold State.spaceOn State.xlroot
    rw [h.regs]
  · unfold State.cluster
    rw [h.clusters]
    exact he

theorem AnswersAs.roomy {s t : State} (h : AnswersAs s t) {pa : Nat} (hr : Roomy s pa) : Roomy t pa := by
  obtain ⟨hroom, hwf⟩ := hr
  refine ⟨?_, h.wf hwf⟩
  split
  · rename_i hc
    rw [if_pos hc] at hroom
    exact h.room _ hroom
  · rename_i hc
    rw [if_neg hc] at hroom
    have hsome := h.held (lineOf pa)
    rw [hroom, Option.isSome_none, Option.isSome_eq_false_iff, Option.isNone_iff_eq_none] at hsome
    exact hsome

theorem AnswersAs.engineAt {s t : State} (h : AnswersAs s t) {y : Cmd} {q : Place} {n : Nat} (he : EngineAt s y q n) : EngineAt t y q n where
  sound := ⟨(h.badAt _ _).trans he.sound.1, (h.linkOpen _).trans he.sound.2⟩
  within := he.within
  room := h.roomy he.room
  held hc := by
    obtain ⟨hline, hsc⟩ := he.held hc
    refine ⟨?_, hsc⟩
    rw [← Option.isSome_iff_ne_none] at hline ⊢
    rw [h.held, hline]
  scope := he.scope

/-! ### An address that translates -/

theorem mapped_xlate {s : State} {n : Nat} {space : BitVec 2} {va : W72} {write : Bool} {q : Place} (h : Mapped s n space va write q)
    (user : Nat × Nat) : s.xlate n space va write user = (.place q, s) := by
  obtain ⟨hon, e, he, hp⟩ := h
  have hlook : s.tlbLook n space va = (some e, s) := by
    unfold State.tlbLook
    rw [he]
  unfold State.xlate
  rw [hon, if_neg (by decide), hlook]
  dsimp only
  rw [hp]

theorem mapped_homeOf_ne {s : State} {n : Nat} {space : BitVec 2} {va : W72} {write : Bool} {q : Place} (h : Mapped s n space va write q) :
    homeOf q.pa ≠ .absent := by
  obtain ⟨-, e, -, hp⟩ := h
  unfold State.placeIn at hp
  split at hp
  · cases hp
  · dsimp only at hp
    split at hp
    · cases hp
    · rename_i hflag
      cases hp
      rw [hflag]
      decide
    · rename_i habs _
      split at hp
      · cases hp
        exact habs
      · cases hp

/-- No translated address names a scratchpad. -/
theorem mapped_not_isSp {s : State} {n : Nat} {space : BitVec 2} {va : W72} {write : Bool} {q : Place} (h : Mapped s n space va write q) :
    isSp q.pa = false := by
  have hne := mapped_homeOf_ne h
  by_contra hsp
  rw [Bool.not_eq_false, isSp, decide_eq_true_eq, spBase] at hsp
  refine hne ?_
  unfold homeOf
  rw [if_neg (by omega), if_neg (by omega), if_neg (by omega), if_neg (by omega), if_neg (by omega)]

/-! ### Runs of an engine -/

/-- From every state that answers as s0 does and whose homes hold the bytes B, run m gives v and leaves such a state with the bytes B'. -/
def Does (s0 : State) (B : Nat → Nat) {α : Type} (m : Eng α) (v : α) (B' : Nat → Nat) : Prop :=
  ∀ s, AnswersAs s0 s → s.homeByte = B → ∃ t, m (s, .ok) = .ok (v, (t, .ok)) ∧ AnswersAs s0 t ∧ t.homeByte = B'

variable {s0 : State} {y : Cmd} {B B' B'' : Nat → Nat}

theorem does_pure {α : Type} (v : α) : Does s0 B (pure v : Eng α) v B := fun s hs hB => ⟨s, rfl, hs, hB⟩

theorem does_bind {α β : Type} {m : Eng α} {f : α → Eng β} {v : α} {w : β} (hm : Does s0 B m v B') (hf : Does s0 B' (f v) w B'') :
    Does s0 B (m >>= f) w B'' := by
  intro s hs hB
  obtain ⟨t, ht, hst, hB'⟩ := hm s hs hB
  obtain ⟨u, hu, hsu, hB''⟩ := hf t hst hB'
  refine ⟨u, ?_, hsu, hB''⟩
  simp only [bind, StateT.bind, Except.bind]
  rw [ht]
  exact hu

/-- An action that leaves every byte comes first. -/
theorem does_after {α β : Type} {m : Eng α} {f : α → Eng β} {v : α} {w : β} (hm : Does s0 B m v B) (hf : Does s0 B (f v) w B') :
    Does s0 B (m >>= f) w B' := does_bind hm hf

theorem does_map {α β : Type} {m : Eng α} {f : α → β} {v : α} (hm : Does s0 B m v B') : Does s0 B (m >>= fun x => pure (f x)) (f v) B' :=
  does_bind hm (does_pure _)

/-- Actions that leave every byte as it is give their results one after another. -/
theorem engAll_reads {α β : Type} {f : α → Eng β} {g : α → β} {xs : List α} (h : ∀ x ∈ xs, Does s0 B (f x) (g x) B) :
    Does s0 B (engAll f xs) (xs.map g) B := by
  induction xs with
  | nil => exact does_pure _
  | cons x xs ih =>
    obtain ⟨hx, hxs⟩ := List.forall_mem_cons.mp h
    exact does_bind hx (does_map (ih hxs))

/-- Actions that each put some bytes put them one after another. -/
theorem engAll_writes {α β γ : Type} {f : α → Eng β} {g : α → β} {put : (Nat → Nat) → γ → Nat → Nat} {w : α → List γ} {xs : List α}
    (h : ∀ x ∈ xs, ∀ B, Does s0 B (f x) (g x) ((w x).foldl put B)) (B : Nat → Nat) :
    Does s0 B (engAll f xs) (xs.map g) ((xs.flatMap w).foldl put B) := by
  induction xs generalizing B with
  | nil => exact does_pure _
  | cons x xs ih =>
    obtain ⟨hx, hxs⟩ := List.forall_mem_cons.mp h
    rw [List.flatMap_cons, List.foldl_append]
    exact does_bind (hx B) (does_map (ih hxs _))

/-! ### One access -/

/-- The hint that a command's access goes with, where its page has hint h (R265). -/
def Cmd.hintAt (y : Cmd) (h : Hint) : Hint := match y.x.hint with | .normal => h | x => x

/-- The place of an access that storage answers at once is found, and its home is asked. -/
theorem engPlace_at {s : State} {n size : Nat} {va : W72} {write : Bool} {q : Place} (hm : Mapped s n (s.cmdRing y) va write q) (hs : Sound s q.pa size)
    (hsc : effScope q.pa y.x.ann.sc = y.x.ann.sc) :
    engPlace y n va size write (s, .ok) = .ok ({ q with hint := y.hintAt q.hint }, (s.reach (dieOf n) q.pa, .ok)) := by
  have hx := mapped_xlate hm y.user
  have hattempt : s.attempt .ok q.pa size = .ok := by
    unfold State.attempt
    rw [hs.1, hs.2]
    rfl
  unfold engPlace
  dsimp only
  rw [hx]
  dsimp only
  rw [hattempt, hsc]
  simp only [State.storageError, ne_eq, not_true_eq_false, if_false, Bool.false_eq_true, reduceCtorEq, Option.isSome_none]
  rfl

/-- The place of an access that is answered at once is found, whatever the homes hold. -/
theorem engPlace_does {n size : Nat} {va : W72} {write : Bool} {q : Place} (hm : Mapped s0 n (s0.cmdRing y) va write q)
    (he : EngineAt s0 y q size) (B : Nat → Nat) :
    Does s0 B (engPlace y n va size write) { q with hint := y.hintAt q.hint } B := by
  intro s hs hB
  have hm' : Mapped s n (s.cmdRing y) va write q := by
    rw [hs.ring]
    exact hs.mapped hm
  have he' := hs.engineAt he
  exact ⟨s.reach (dieOf n) q.pa, engPlace_at hm' he'.sound he'.scope, hs.trans (State.reach_answersAs ..), by simpa using hB⟩

theorem engineAt_not_system {s : State} {q : Place} {size : Nat} (he : EngineAt s y q size) (hc : (homeOf q.pa).cached = true) :
    effScope q.pa y.x.ann.sc ≠ .system := by
  rw [he.scope]
  exact (he.held hc).2

/-- A fill of a line that its slice holds leaves every byte, and what is answered. -/
theorem State.l2Fill_held {s : State} {n : Nat} (h : Hint) (hroom : (homeOf (128 * n)).cached = true → (s.l2Rest n).length < 16 ∧ s.l2Line n ≠ none) :
    AnswersAs s (s.l2Fill n h) ∧ (s.l2Fill n h).homeByte = s.homeByte := by
  unfold State.l2Fill
  split
  · rename_i hc
    obtain ⟨hroom, hheld⟩ := hroom hc
    have hnum : (s.homeLine n).line = n := s.homeLine_line n
    refine ⟨State.l2Put_answersAs h (by rwa [hnum]) (by rwa [hnum]), funext fun a => ?_⟩
    rw [State.homeByte_l2Put h (by rwa [hnum]), hnum]
    split
    · rename_i ha
      rw [← ha, State.homeByte_homeLine]
    · rfl
  · exact ⟨.refl s, rfl⟩

/-- An engine's read that is answered at once gives what the home holds. -/
theorem engRead_does {n size x : Nat} {va : W72} (h : EngineReads s0 y n va size x) : Does s0 s0.homeByte (engRead y n va size) x s0.homeByte := by
  obtain ⟨q, hm, he, rfl⟩ := h
  refine does_bind (engPlace_does hm he _) fun s hs hB => ?_
  have he' := hs.engineAt he
  obtain ⟨hpos, hfits⟩ := he.within
  have hvalue : s.homeRead q.pa size = s0.homeRead q.pa size := State.homeRead_congr hfits fun a _ _ => congrFun hB a
  suffices h : ∃ t, s.readElem n .engine y.x.ann.sc q.pa size (y.hintAt q.hint) = (s.homeRead q.pa size, t) ∧
      AnswersAs s t ∧ t.homeByte = s.homeByte by
    obtain ⟨t, ht, hst, hbytes⟩ := h
    refine ⟨t, ?_, hs.trans hst, hbytes.trans hB⟩
    rw [← hvalue]
    simp only [bind, StateT.bind, Except.bind, getS, setS, pure, StateT.pure, Except.pure]
    rw [ht]
  unfold State.readElem State.readAt
  dsimp only
  rw [mapped_not_isSp hm, if_neg (by decide)]
  by_cases hc : (homeOf q.pa).cached = true
  · rw [if_neg (by simp [hc])]
    dsimp only [bayOf]
    rw [if_neg (engineAt_not_system he' hc)]
    have hroom : (s.l2Rest (lineOf q.pa)).length < 16 := by
      have := he'.room.1
      rwa [if_pos hc] at this
    obtain ⟨hfill, hbytes⟩ := State.l2Fill_held (s := s) (n := lineOf q.pa) (y.hintAt q.hint) fun _ => ⟨hroom, (he'.held hc).1⟩
    exact ⟨_, congrArg (·, _) (State.homeRead_congr hfits fun a _ _ => congrFun hbytes a), hfill, hbytes⟩
  · rw [if_pos (by simp [hc])]
    have hnone : s.l2Line (lineOf q.pa) = none := by
      have := he'.room.1
      rwa [if_neg hc] at this
    exact ⟨s, by rw [State.homeRead_backing hnone hfits], .refl s, rfl⟩

theorem State.homeWrite_answersAs {s : State} {q : Place} {size : Nat} (he : EngineAt s y q size) (x : Nat) (h : Hint) :
    AnswersAs s (s.homeWrite q.pa size x h) := by
  refine AnswersAs.trans ?_ (State.homeWritten_answersAs ..)
  have hroom := he.room.1
  split
  · rename_i hc
    rw [if_pos hc] at hroom
    have hnum : ((s.homeLine (lineOf q.pa)).put (q.pa % 128) size x true).line = lineOf q.pa := s.homeLine_line _
    exact State.l2Put_answersAs h (by rw [hnum]; exact hroom) (by rw [hnum]; exact (he.held hc).1)
  · exact ⟨rfl, rfl, rfl, rfl, fun _ => rfl, fun _ _ => rfl, fun _ => rfl, fun _ => id, fun hw => wf_writeBytes hw _ _⟩

/-- An engine's write that is answered at once puts its bytes at their home. -/
theorem engPerform_does {n size x : Nat} {va : W72} {q : Place} (hm : Mapped s0 n (s0.cmdRing y) va true q) (he : EngineAt s0 y q size) (h : Hint)
    (B : Nat → Nat) : Does s0 B (engPerform y n { q with hint := h } size x) () (putBytes B q.pa size x) := by
  intro s hs hB
  have he' := hs.engineAt he
  have hwrite : s.writeElem n .engine y.x.ann.sc q.pa size x h = s.homeWrite q.pa size x h := by
    unfold State.writeElem State.writeAt
    dsimp only
    rw [mapped_not_isSp hm, if_neg (by decide)]
    by_cases hc : (homeOf q.pa).cached = true
    · rw [if_neg (by simp [hc])]
      dsimp only [bayOf]
      rw [if_neg (engineAt_not_system he' hc)]
    · rw [if_pos (by simp [hc])]
  have hkeeps := State.homeWrite_answersAs he' x h
  have hbytes := State.homeByte_homeWrite he'.room he'.within x h
  rw [hB] at hbytes
  unfold engPerform
  simp only [bind, StateT.bind, Except.bind, getS, setS]
  rw [hwrite]
  split
  · exact ⟨_, rfl, hs.trans hkeeps, hbytes⟩
  · refine ⟨_, rfl, hs.trans (hkeeps.trans ?_), hbytes⟩
    exact ⟨rfl, rfl, rfl, rfl, fun _ => rfl, fun _ _ => rfl, fun _ => rfl, fun _ => id, id⟩

theorem engWrite_does {n size x : Nat} {va : W72} {q : Place} (hm : Mapped s0 n (s0.cmdRing y) va true q) (he : EngineAt s0 y q size)
    (B : Nat → Nat) : Does s0 B (engWrite y n va size x) () (putBytes B q.pa size x) :=
  does_bind (engPlace_does hm he B) (engPerform_does hm he _ B)

end Sys2Proof.Machine
end

section
/-! PROOFS. What the writes of a command's units leave at the homes, and how a running command goes on (for O43). -/

namespace Sys2Proof.Machine
open Sys2Proof.Safety

/-! ### Writes to places of their own -/

/-- The place that cluster n's TLB gives an address. -/
def tlbPlace (s : State) (space : BitVec 2) (n : Nat) (va : W72) : Place :=
  match tlbFind (s.cluster n).tlb space va with
  | some e => ⟨e.pa + va.toNat % 2 ^ e.bits, if homeOf (e.pa + va.toNat % 2 ^ e.bits) = .flag then 0 else e.ord, e.hint⟩
  | none => ⟨0, 0, .normal⟩

theorem mapped_place {s : State} {n : Nat} {space : BitVec 2} {va : W72} {write : Bool} {q : Place} (h : Mapped s n space va write q) :
    q = tlbPlace s space n va := by
  obtain ⟨-, e, he, hp⟩ := h
  unfold tlbPlace
  rw [he]
  unfold State.placeIn at hp
  split at hp
  · cases hp
  · dsimp only at hp ⊢
    split at hp
    · cases hp
    · rename_i hflag
      cases hp
      rw [if_pos hflag]
    · rename_i _ hflag
      split at hp
      · cases hp
        rw [if_neg hflag]
      · cases hp

/-- Where a unit's write goes for command y. -/
def writeAddr (s : State) (y : Cmd) (w : Nat × W72 × Nat × Nat) : Nat := (tlbPlace s (s.cmdRing y) w.1 w.2.1).pa

/-- Bytes with those of a unit's write put. -/
def putWrite (s : State) (y : Cmd) (f : Nat → Nat) (w : Nat × W72 × Nat × Nat) : Nat → Nat := putBytes f (writeAddr s y w) w.2.2.1 w.2.2.2

/-- Two writes share no byte. -/
def WritesApart (s : State) (y : Cmd) (w v : Nat × W72 × Nat × Nat) : Prop :=
  writeAddr s y w + w.2.2.1 ≤ writeAddr s y v ∨ writeAddr s y v + v.2.2.1 ≤ writeAddr s y w

theorem foldl_putWrite_other {s : State} {y : Cmd} {W : List (Nat × W72 × Nat × Nat)} {a : Nat}
    (h : ∀ w ∈ W, a < writeAddr s y w ∨ writeAddr s y w + w.2.2.1 ≤ a) (f : Nat → Nat) : W.foldl (putWrite s y) f a = f a := by
  induction W generalizing f with
  | nil => rfl
  | cons w W ih =>
    obtain ⟨hw, hW⟩ := List.forall_mem_cons.mp h
    rw [List.foldl_cons, ih hW, putWrite, putBytes, if_neg (by omega)]

theorem foldl_putWrite_mem {s : State} {y : Cmd} {W : List (Nat × W72 × Nat × Nat)} (h : W.Pairwise (WritesApart s y)) {w : Nat × W72 × Nat × Nat}
    (hw : w ∈ W) {a : Nat} (hlo : writeAddr s y w ≤ a) (hhi : a < writeAddr s y w + w.2.2.1) (f : Nat → Nat) :
    W.foldl (putWrite s y) f a = w.2.2.2 / 2 ^ (8 * (a - writeAddr s y w)) % 256 := by
  induction W generalizing f with
  | nil => cases hw
  | cons v W ih =>
    obtain ⟨hv, hW⟩ := List.pairwise_cons.mp h
    rw [List.foldl_cons]
    obtain rfl | hw := List.mem_cons.mp hw
    · rw [foldl_putWrite_other (fun u hu => by have := hv u hu; unfold WritesApart at this; omega), putWrite, putBytes, if_pos ⟨hlo, hhi⟩]
    · exact ih hW hw _

/-- Where the bytes at the homes are as before but for those of writes to places of their own, every write stands and no other byte has changed. -/
theorem writesAll_of_bytes {s t : State} {y : Cmd} {W : List (Nat × W72 × Nat × Nat)} (h : PlacedApart s y W)
    (hbytes : t.homeByte = W.foldl (putWrite s y) s.homeByte) : WritesAll s t y W := by
  obtain ⟨hplaced, hapart⟩ := h
  have haddr : ∀ {w : Nat × W72 × Nat × Nat} {q : Place}, Mapped s w.1 (s.cmdRing y) w.2.1 true q → q.pa = writeAddr s y w := fun hm =>
    congrArg Place.pa (mapped_place hm)
  have hpair : W.Pairwise (WritesApart s y) := hapart.imp_of_mem fun {w v} hw hv hwv => by
    obtain ⟨q, hq, -⟩ := hplaced w hw
    obtain ⟨r, hr, -⟩ := hplaced v hv
    have := hwv q r hq hr
    rwa [haddr hq, haddr hr] at this
  constructor
  · intro w hw q hq
    obtain ⟨q', hq', he⟩ := hplaced w hw
    have hsame : q'.pa = q.pa := (haddr hq').trans (haddr hq).symm
    obtain ⟨-, hfits⟩ := he.within
    rw [hsame] at hfits
    refine State.homeRead_of_bytes hfits fun a hlo hhi => ?_
    rw [haddr hq] at hlo hhi ⊢
    rw [hbytes, foldl_putWrite_mem hpair hw hlo hhi]
  · intro a ha
    refine (congrFun hbytes a).trans (foldl_putWrite_other (fun w hw => ?_) _)
    obtain ⟨q, hq, -⟩ := hplaced w hw
    rw [← haddr hq]
    exact ha w hw q hq

/-! ### A command that is being carried out -/

theorem find?_of_alone {α : Type} {p : α → Bool} {xs : List α} {x : α} (hx : x ∈ xs) (hp : p x = true) (h : ∀ z ∈ xs, p z = true → z = x) :
    xs.find? p = some x := by
  cases hf : xs.find? p with
  | none => exact absurd hp (by simpa using List.find?_eq_none.mp hf x hx)
  | some z => rw [h z (List.mem_of_find?_eq_some hf) (List.find?_some hf)]

theorem Works_find? {s : State} {y : Cmd} (h : Works s y) : s.cmds.find? (fun c => c.id = y.id) = some y :=
  find?_of_alone h.stands.1 (by simp) fun z hz hid => h.stands.2 z hz (by simpa using hid)

/-- The next access of a running command runs its next step. -/
theorem exec_accessPerformed {s : State} {y : Cmd} (h : Works s y) :
    exec (.accessPerformed y.id ⟨[], .ok⟩) s = .next (s.runEngine y .ok engStep) := by
  have hexec : exec (.accessPerformed y.id ⟨[], .ok⟩) s = execAccessPerformed y.id ⟨[], .ok⟩ s := rfl
  obtain ⟨hbegun, hended⟩ := h.begun
  have hgone : (y.collective && s.ownersGone y) = false := by
    cases hc : y.collective with
    | false => rfl
    | true => rw [h.owners hc]; rfl
  rw [hexec, execAccessPerformed, Works_find? h]
  dsimp only
  rw [State.engineAccess, hbegun, hended, if_neg (by decide), hgone, if_neg (by decide)]

/-- Command y has become z in t, whatever is known of its pages (R288). -/
def Left (s t : State) (y z : Cmd) : Prop := ∃ b, t.cmds = s.cmds.map (fun v => if v.id = y.id then { z with loose := b } else v)

/-- A step that a command does leaves the bytes that it puts, and the command as it has it, ended where it has no more to do. -/
theorem works_of_does {s : State} {y z : Cmd} {B : Nat → Nat} (h : Works s y) (hid : z.id = y.id) (hbegun : z.begun = true) (hended : z.ended = false)
    (hd : Does s s.homeByte (engStep y) z B) : Happens s (.accessPerformed y.id ⟨[], .ok⟩) fun t => t.homeByte = B ∧
      Left s t y { z with ended := z.finished } := by
  obtain ⟨u, hu, hkept, hbytes⟩ := hd s (.refl s) rfl
  refine ⟨_, exec_accessPerformed h, ?_⟩
  rw [State.runEngine, hu]
  refine ⟨hbytes, u.onlyLoose { z with begun := true }, ?_⟩
  unfold State.putCmd
  dsimp only
  rw [hkept.cmds]
  have hfinished : ∀ b, Cmd.finished { z with begun := true, loose := b } = z.finished := fun _ => rfl
  have hz : ∀ b, (if (true && Cmd.finished { z with begun := true, loose := b }) = true then
      { z with begun := true, loose := b, ended := true } else { z with begun := true, loose := b }) = { z with ended := z.finished, loose := b } := fun b => by
    rw [hfinished, Bool.true_and]
    cases hf : z.finished
    · rw [if_neg (by decide), ← hbegun, ← hended]
    · rw [if_pos rfl, ← hbegun]
  rw [hz, hid]

end Sys2Proof.Machine
end

section
/-! PROOFS. A unit of a transfer moves its elements (for O43). -/

namespace Sys2Proof.Machine
open Sys2Proof.Safety

variable {s : State} {y : Cmd}

/-! ### Elements of a source -/

theorem engWords_does {n : Nat} {va : W72} {ws : List W64}
    (h : ∀ (i : Nat) w, ws[i]? = some w → EngineReads s y n (va + BitVec.ofNat 72 (8 * i)) 8 w.toNat) :
    Does s s.homeByte (engWords y n va ws.length) ws s.homeByte := by
  induction ws generalizing va with
  | nil => exact does_pure _
  | cons w ws ih =>
    have hhead : EngineReads s y n va 8 w.toNat := by
      have := h 0 w rfl
      rwa [Nat.mul_zero, BitVec.add_zero] at this
    have htail : Does s s.homeByte (engWords y n (va + 8) ws.length) ws s.homeByte := ih fun i v hv => by
      have haddr : va + 8 + BitVec.ofNat 72 (8 * i) = va + BitVec.ofNat 72 (8 * (i + 1)) := by
        rw [BitVec.add_assoc, show (8 : W72) = BitVec.ofNat 72 8 from rfl, ← BitVec.ofNat_add]
        congr 2
        omega
      rw [haddr]
      exact h (i + 1) v hv
    have hw : BitVec.ofNat 64 w.toNat = w := BitVec.ofNat_toNat .. |>.trans (BitVec.setWidth_eq w)
    refine does_bind (f := fun x => engWords y n (va + 8) ws.length >>= fun xs => pure (BitVec.ofNat 64 x :: xs)) (engRead_does hhead) ?_
    rw [hw]
    exact does_map htail

theorem engElt_does {n : Nat} {d : Desc} {own : List (Nat × W64 × W64)} {x : List Int} {e : Elt} (h : ElementAt s y n d own x e) :
    Does s s.homeByte (engElt y n d own x) e s.homeByte := by
  unfold ElementAt at h
  unfold engElt
  cases hv : d.valid x with
  | false =>
    rw [hv] at h
    rw [Bool.not_false, if_pos rfl, show e = .pad from h]
    exact does_pure _
  | true =>
    rw [hv, if_pos rfl] at h
    rw [Bool.not_true, if_neg (by decide)]
    cases hp : d.place own x with
    | none =>
      rw [hp] at h
      rw [show e = .pad from h]
      exact does_pure _
    | some q =>
      obtain ⟨b, va⟩ := q
      rw [hp] at h
      dsimp only at h ⊢
      split
      · rename_i hb
        rw [if_pos hb] at h
        obtain ⟨ws, hlen, hws, rfl⟩ := h
        rw [← hlen]
        exact does_map (engWords_does hws)
      · rename_i hb
        rw [if_neg hb] at h
        obtain ⟨z, hz, rfl⟩ := h
        exact does_map (engRead_does hz)

theorem elementAt_ne_none {n : Nat} {d : Desc} {own : List (Nat × W64 × W64)} {x : List Int} {e : Elt} (h : ElementAt s y n d own x e) : e ≠ .none := by
  unfold ElementAt at h
  split at h
  · rw [h]
    exact fun h => by cases h
  · split at h
    · obtain ⟨ws, -, -, rfl⟩ := h
      exact fun h => by cases h
    · obtain ⟨z, -, rfl⟩ := h
      exact fun h => by cases h

theorem reduceStep_eq (op : RedOp) (f : Fmt) (r : Rnd) (a v : Exact) : redStep op f r a v = reduceStep op f r a v := by
  unfold redStep reduceStep
  rw [isInt_eq]
  cases op with
  | add =>
    dsimp only
    cases isIntFmt f
    · rw [if_neg (by decide), if_neg (by decide), if_neg (by decide)]
    · rw [if_pos rfl, if_pos rfl, if_pos rfl]
  | min => dsimp only
  | max => dsimp only

/-- The coordinate at a position of block b. -/
def Desc.atBlock (d : Desc) (loc : List Int) (b : Nat) : List Int :=
  dims.map (fun i => loc.getD i 0 + ((posOf (dims.map d.nbI) b).getD i 0 : Int) * (d.blkI i : Int))

/-- What a reduction of the blocks' elements gives. -/
def Reduces (y : Cmd) (op : RedOp) (es : List Elt) (z : Elt) : Prop :=
  match es.map y.src.value with
  | [] => z = .pad
  | v :: vs => z = .exact (vs.foldl (reduceStep op y.src.format y.x.rnd) v)

theorem engReduce_does {n : Nat} {op : RedOp} {loc : List Int} {es : List Elt} {z : Elt} (hlen : es.length = y.src.blocks)
    (hes : ∀ (b : Nat) z, es[b]? = some z → ElementAt s y n y.src y.oa (y.src.atBlock loc b) z) (hz : Reduces y op es z) :
    Does s s.homeByte (engReduce y n op loc) z s.homeByte ∧ z ≠ .none := by
  have hread : Does s s.homeByte (engAll (fun b => engElt y n y.src y.oa (y.src.atBlock loc b)) (List.range y.src.blocks))
      ((List.range y.src.blocks).map (fun b => es.getD b .none)) s.homeByte := engAll_reads fun b hb => by
    have hlt : b < es.length := by rw [hlen]; exact List.mem_range.mp hb
    refine engElt_does (hes b _ ?_)
    rw [List.getD_eq_getElem?_getD, List.getElem?_eq_getElem hlt]
    rfl
  have hlist : (List.range y.src.blocks).map (fun b => es.getD b .none) = es := by
    rw [← hlen]
    refine List.ext_getElem (by simp) fun i h1 h2 => ?_
    simp [List.getD_eq_getElem?_getD, List.getElem?_eq_getElem h2]
  rw [hlist] at hread
  have hstep : redStep op y.src.format y.x.rnd = reduceStep op y.src.format y.x.rnd := funext fun a => funext fun v => reduceStep_eq ..
  unfold Reduces at hz
  cases hm : es.map y.src.value with
  | nil =>
    rw [hm] at hz
    obtain rfl : z = .pad := hz
    refine ⟨does_bind hread ?_, fun h => by cases h⟩
    rw [hm]
    exact does_pure _
  | cons v vs =>
    rw [hm] at hz
    obtain rfl : z = .exact (vs.foldl (reduceStep op y.src.format y.x.rnd) v) := hz
    refine ⟨does_bind hread ?_, fun h => by cases h⟩
    rw [hm, ← hstep]
    exact does_pure _

theorem sourceAt_does {n p e : Nat} {z : Elt} (h : SourceAt s y n (p + e) z) : Does s s.homeByte (engSource y n p e) z s.homeByte ∧ z ≠ .none := by
  unfold SourceAt at h
  unfold engSource
  dsimp only at h ⊢
  split
  · rename_i op hop
    rw [hop] at h
    obtain ⟨es, hlen, hes, hz⟩ := h
    exact engReduce_does hlen hes hz
  · rename_i op hop
    rw [hop] at h
    obtain ⟨es, hlen, hes, hz⟩ := h
    exact engReduce_does hlen hes hz
  · rename_i hr ha
    have helt : ∃ x, y.sourceAt (posOf y.dst.cnt (p + e)) = some x ∧ ElementAt s y n y.src y.oa x z := by
      split at h
      · rename_i op hop
        exact absurd hop (hr op)
      · rename_i op hop
        exact absurd hop (ha op)
      · exact h
    obtain ⟨x, hx, helt⟩ := helt
    rw [hx]
    exact ⟨engElt_does helt, elementAt_ne_none helt⟩

/-! ### The elements of a unit -/

/-- A choice among equals is one of them. -/
theorem foldl_pick {p : Nat} (lt : Nat → Nat → Bool) {xs : List Nat} (h : ∀ o ∈ xs, o = p) :
    xs.foldl (fun b o => match b with | none => some o | some q => if lt q o then some o else some q) (some p) = some p := by
  induction xs with
  | nil => rfl
  | cons x xs ih =>
    obtain ⟨rfl, hxs⟩ := List.forall_mem_cons.mp h
    rw [List.foldl_cons]
    dsimp only
    rw [ite_self]
    exact ih hxs

theorem Cmd.winner_alone {shared : List Nat} {p e : Nat} (hin : p ∈ shared) (halone : ∀ o ∈ shared, o = p) (hlive : y.live p e = true)
    (hmoved : y.moved (p + e) = true) : y.winner shared e = some p := by
  have hmem : p ∈ shared.filter (fun o => y.live o e && y.moved (o + e)) := List.mem_filter.mpr ⟨hin, by rw [hlive, hmoved]; rfl⟩
  have hall : ∀ o ∈ shared.filter (fun o => y.live o e && y.moved (o + e)), o = p := fun o ho => halone o (List.mem_filter.mp ho).1
  unfold Cmd.winner
  dsimp only
  generalize shared.filter (fun o => y.live o e && y.moved (o + e)) = xs at hmem hall
  cases xs with
  | nil => cases hmem
  | cons x xs =>
    obtain ⟨rfl, hxs⟩ := List.forall_mem_cons.mp hall
    rw [List.foldl_cons]
    exact foldl_pick _ hxs

/-- The elements of unit p, as they are read. -/
def unitElts (y : Cmd) (els : Nat → Elt) (p : Nat) : List (Elt × Nat) :=
  (List.range y.dst.unitLen).map (fun e => if y.live p e then (els e, p + e) else (.none, 0))

/-- Unit p moves every element below EXT0, and no other unit names its destination. -/
structure UnitReads (s : State) (y : Cmd) (p : Nat) (els : Nat → Elt) : Prop where
  unit  : p ∈ y.units
  alone : ∀ r ∈ y.units, (y.target r).map Prod.snd = (y.target p).map Prod.snd → r = p
  some_ : ∃ e < y.dst.unitLen, y.live p e = true
  reads : ∀ e < y.dst.unitLen, y.live p e = true → y.moved (p + e) = true ∧ SourceAt s y (y.engine (y.targetBlock p)) (p + e) (els e)

theorem UnitReads.elts {p : Nat} {els : Nat → Elt} (h : UnitReads s y p els) : Does s s.homeByte (engElts y p) (unitElts y els p) s.homeByte := by
  refine engAll_reads fun e he => ?_
  have he : e < y.dst.unitLen := List.mem_range.mp he
  cases hlive : y.live p e with
  | false =>
    rw [if_neg (by decide), if_neg (by decide)]
    exact does_pure _
  | true =>
    obtain ⟨hmoved, hsource⟩ := h.reads e he hlive
    have hwinner : y.winner (y.units.filter (fun r => (y.target r).map Prod.snd = (y.target p).map Prod.snd)) e = some p :=
      Cmd.winner_alone (List.mem_filter.mpr ⟨h.unit, by simp⟩)
        (fun r hr => h.alone r (List.mem_filter.mp hr).1 (by simpa using (List.mem_filter.mp hr).2)) hlive hmoved
    rw [if_pos rfl, if_pos rfl, hwinner]
    exact does_map (sourceAt_does hsource).1

end Sys2Proof.Machine
end

section
/-! PROOFS. A unit of a transfer is written, with the units that are written together with it (for O43). -/

namespace Sys2Proof.Machine
open Sys2Proof.Safety

variable {s : State} {y : Cmd}

/-! ### The bytes of a brick -/

theorem brickPlanes_pos (f : Fmt) : 0 < brickPlanes f := by
  unfold brickPlanes
  split <;> decide

/-- The bytes of a brick are made of the codes of its 192 elements and the scales of its 8 blocks. -/
theorem brickBytes_congr {f : Fmt} {code code' scale scale' : Nat → Nat} (hcode : ∀ e < 192, code e = code' e) (hscale : ∀ b < 8, scale b = scale' b) :
    brickBytes f code scale = brickBytes f code' scale' := by
  have hscales : (List.range 8).map (fun b => BitVec.ofNat 8 (scale b)) = (List.range 8).map (fun b => BitVec.ofNat 8 (scale' b)) :=
    List.map_congr_left fun b hb => by rw [hscale b (List.mem_range.mp hb)]
  unfold brickBytes
  dsimp only
  rw [hscales]
  refine congrArg (· ++ _) (List.flatMap_congr fun k hk => ?_)
  have hk : k < 24 * brickPlanes f := List.mem_range.mp hk
  have hgroup : k / (8 * brickPlanes f) < 3 := (Nat.div_lt_iff_lt_mul (Nat.mul_pos (by decide) (brickPlanes_pos f))).mpr (by omega)
  refine congrArg (fun bs => [BitVec.ofNat 8 (List.foldl (fun a b => a + 2 ^ b) 0 bs)]) (List.filter_congr fun b hb => ?_)
  rw [List.mem_range] at hb
  rw [hcode _ (by omega)]

theorem getD_map_range {α : Type} (f : Nat → α) {n i : Nat} (d : α) (hi : i < n) : ((List.range n).map f).getD i d = f i := by
  rw [List.getD_eq_getElem?_getD, List.getElem?_map, List.getElem?_range hi]
  rfl

/-- The scale of a block depends on the elements that live in it alone. -/
theorem Cmd.scaleOf_congr {els els' : List (Elt × Nat)} {live : Nat → Bool} {b : Nat}
    (h : ∀ e, e / 24 = b → live e = true → els.getD e (.none, 0) = els'.getD e (.none, 0)) (old : List Byte) :
    y.scaleOf els live old b = y.scaleOf els' live old b := by
  have hhere : ∀ e ∈ ((List.range 24).map (fun k => 24 * b + k)).filter live, els.getD e (.none, 0) = els'.getD e (.none, 0) := fun e he => by
    obtain ⟨he, hlive⟩ := List.mem_filter.mp he
    obtain ⟨k, hk, rfl⟩ := List.mem_map.mp he
    rw [List.mem_range] at hk
    exact h _ (by omega) hlive
  unfold Cmd.scaleOf
  dsimp only
  generalize ((List.range 24).map (fun k => 24 * b + k)).filter live = here at hhere
  have hany : here.any (fun e => decide ((els.getD e (.none, 0)).1 = .none)) = here.any (fun e => decide ((els'.getD e (.none, 0)).1 = .none)) := by
    rw [Bool.eq_iff_iff, List.any_eq_true, List.any_eq_true]
    exact exists_congr fun e => and_congr_right fun he => by rw [hhere e he]
  rw [hany]
  congr 1
  split
  · exact congrArg (maxBy Prod.snd) (List.filterMap_congr fun e he => by rw [hhere e he])
  · rfl

/-! ### Writing a unit -/

theorem engAll_map {α β γ : Type} (f : β → Eng γ) (g : α → β) (xs : List α) : engAll f (xs.map g) = engAll (fun x => f (g x)) xs := by
  induction xs with
  | nil => rfl
  | cons x xs ih =>
    rw [List.map_cons, engAll, engAll, ih]

/-- Every write of W translates and is answered at once. -/
def Placed (s : State) (y : Cmd) (W : List (Nat × W72 × Nat × Nat)) : Prop :=
  ∀ w ∈ W, ∃ q, Mapped s w.1 (s.cmdRing y) w.2.1 true q ∧ EngineAt s y q w.2.2.1

theorem Placed.place {W : List (Nat × W72 × Nat × Nat)} (h : Placed s y W) {w : Nat × W72 × Nat × Nat} (hw : w ∈ W) :
    Mapped s w.1 (s.cmdRing y) w.2.1 true (tlbPlace s (s.cmdRing y) w.1 w.2.1) ∧ EngineAt s y (tlbPlace s (s.cmdRing y) w.1 w.2.1) w.2.2.1 := by
  obtain ⟨q, hq, he⟩ := h w hw
  rw [← mapped_place hq]
  exact ⟨hq, he⟩

/-- A write that is answered at once puts its bytes. -/
theorem Placed.write {W : List (Nat × W72 × Nat × Nat)} (h : Placed s y W) {n size x : Nat} {va : W72} (hw : (n, va, size, x) ∈ W) (B : Nat → Nat) :
    Does s B (engWrite y n va size x) () (putWrite s y B (n, va, size, x)) := by
  obtain ⟨hm, he⟩ := h.place hw
  exact engWrite_does hm he B

/-- The place that an engine of cluster n finds for an address. -/
def enginePlace (s : State) (y : Cmd) (n : Nat) (va : W72) : Place :=
  { tlbPlace s (s.cmdRing y) n va with hint := y.hintAt (tlbPlace s (s.cmdRing y) n va).hint }

/-- Word i of a brick. -/
def brickWord (n : Nat) (va : W72) (bs : List Byte) (i : Nat) : Nat × W72 × Nat × Nat :=
  (n, va + BitVec.ofNat 72 (8 * i), 8, ofBytes ((bs.drop (8 * i)).take 8))

/-- The words of a brick that are not passed over. -/
def brickWords (n : Nat) (va : W72) (words : Nat) (bs : List Byte) (pass : W72 → Bool) : List (Nat × W72 × Nat × Nat) :=
  ((List.range words).filter (fun i => !pass (va + BitVec.ofNat 72 (8 * i)))).map (brickWord n va bs)

theorem engPut_does {n words : Nat} {va : W72} {bs : List Byte} {pass : W72 → Bool} (h : Placed s y (brickWords n va words bs pass)) (B : Nat → Nat) :
    Does s B (engPut y n va words bs pass) () ((brickWords n va words bs pass).foldl (putWrite s y) B) := by
  unfold engPut
  unfold brickWords at h ⊢
  dsimp only
  generalize (List.range words).filter (fun i => !pass (va + BitVec.ofNat 72 (8 * i))) = is at h
  have hplace : ∀ i ∈ is, Mapped s n (s.cmdRing y) (va + BitVec.ofNat 72 (8 * i)) true (tlbPlace s (s.cmdRing y) n (va + BitVec.ofNat 72 (8 * i))) ∧
      EngineAt s y (tlbPlace s (s.cmdRing y) n (va + BitVec.ofNat 72 (8 * i))) 8 := fun i hi => h.place (List.mem_map_of_mem hi)
  refine does_bind (v := is.map (fun i => (enginePlace s y n (va + BitVec.ofNat 72 (8 * i)), ofBytes ((bs.drop (8 * i)).take 8))))
    (engAll_reads fun i hi => does_map (f := fun q => (q, ofBytes ((bs.drop (8 * i)).take 8))) (engPlace_does (hplace i hi).1 (hplace i hi).2 B)) ?_
  rw [engAll_map, List.map_eq_flatMap]
  exact does_map (f := fun _ => ()) (engAll_writes (g := fun _ => ()) (w := fun i => [brickWord n va bs i])
    (fun i hi B => engPerform_does (hplace i hi).1 (hplace i hi).2 _ B) B)

theorem store_eq_codeFor (e : Elt) : y.src.store y.dst y.x.rnd y.x.sat e = codeFor y e := by
  unfold Desc.store codeFor Desc.value
  cases e <;> rfl

/-- A unit whose elements all move is written with their codes. -/
theorem UnitReads.store {p : Nat} {els : Nat → Elt} (h : UnitReads s y p els)
    (hp : Placed s y ((unitWrites y p els).map (fun w => (y.engine (y.targetBlock p), w)))) (B : Nat → Nat) :
    Does s B (engStore y p (unitElts y els p)) () (((unitWrites y p els).map (fun w => (y.engine (y.targetBlock p), w))).foldl (putWrite s y) B) := by
  have helt : ∀ e < y.dst.unitLen, y.live p e = true → (unitElts y els p).getD e (.none, 0) = (els e, p + e) := fun e he hlive =>
    (getD_map_range _ _ he).trans (if_pos hlive)
  have hsome : ∀ e < y.dst.unitLen, y.live p e = true → els e ≠ .none := fun e he hlive => (sourceAt_does (h.reads e he hlive).2).2
  unfold engStore
  unfold unitWrites at hp ⊢
  cases ht : y.target p with
  | none => exact does_pure _
  | some q =>
    obtain ⟨b, va⟩ := q
    have hb : y.targetBlock p = b := by
      unfold Cmd.targetBlock
      rw [ht]
    rw [ht, hb] at hp
    rw [hb]
    dsimp only at hp ⊢
    cases hbrick : y.dst.brick with
    | true =>
      have hlen : y.dst.unitLen = 192 := by
        unfold Desc.unitLen
        rw [hbrick, if_pos rfl]
      rw [hlen] at helt hsome
      have hkeeps : (List.range 192).any (fun e => y.live p e && decide (((unitElts y els p).getD e (.none, 0)).1 = .none)) = false := by
        rw [List.any_eq_false]
        intro e he
        cases hlive : y.live p e with
        | false => simp
        | true =>
          rw [helt e (List.mem_range.mp he) hlive]
          simpa using hsome e (List.mem_range.mp he) hlive
      rw [hbrick, if_pos rfl] at hp
      rw [if_pos rfl, if_pos rfl, hkeeps]
      refine does_bind (v := []) (does_pure _) ?_
      have hwords : ∀ bs, (((List.range (y.dst.bsize / 8)).filter (fun i => !y.covered b (va + BitVec.ofNat 72 (8 * i)))).map (fun i =>
          (va + BitVec.ofNat 72 (8 * i), 8, ofBytes ((bs.drop (8 * i)).take 8)))).map (fun w => (y.engine b, w)) =
          brickWords (y.engine b) va (y.dst.bsize / 8) bs (y.covered b) := fun bs => List.map_map
      rw [hwords] at hp ⊢
      refine Eq.subst (motive := fun bs => Does s B (engPut y (y.engine b) va (y.dst.bsize / 8) bs (y.covered b)) ()
        (List.foldl (putWrite s y) B (brickWords (y.engine b) va (y.dst.bsize / 8) _ (y.covered b)))) ?_ (engPut_does hp B)
      refine brickBytes_congr (fun e he => ?_) fun k hk => ?_
      · cases hlive : y.live p e with
        | false => rfl
        | true =>
          have hne := hsome e he hlive
          rw [if_pos rfl, Bool.not_true, if_neg (by decide), helt e he hlive, ← store_eq_codeFor]
          cases hz : els e with
          | none => exact absurd hz hne
          | pad => rfl
          | code c scale => rfl
          | exact x => rfl
      · exact Cmd.scaleOf_congr (fun e he hlive => by rw [getD_map_range _ _ (by omega), helt e (by omega) hlive]) _
    | false =>
      have hlen : y.dst.unitLen = 1 := by
        unfold Desc.unitLen
        rw [hbrick, if_neg (by decide)]
      have hlive : y.live p 0 = true := by
        obtain ⟨e, he, hlive⟩ := h.some_
        rwa [show e = 0 by omega] at hlive
      have hhead : (unitElts y els p).headD (.none, 0) = (els 0, p + 0) := by
        unfold unitElts
        rw [hlen]
        exact if_pos hlive
      have hne := hsome 0 (by omega) hlive
      rw [hbrick, if_neg (by decide), hlive, if_pos rfl] at hp
      rw [if_neg (by decide), if_neg (by decide), hhead, hlive, if_pos rfl]
      have hwrite := hp.write (List.mem_singleton_self _) B
      rw [← store_eq_codeFor] at hwrite ⊢
      cases hz : els 0 with
      | none => exact absurd hz hne
      | pad =>
        rw [hz] at hwrite
        exact hwrite
      | code c scale =>
        rw [hz] at hwrite
        exact hwrite
      | exact x =>
        rw [hz] at hwrite
        exact hwrite

/-! ### The unit that is due -/

theorem UnitDue.unitReads {o : Nat} {els : Nat → Nat → Elt} (h : UnitDue s y o els) {p : Nat} (hp : p ∈ y.group o) : UnitReads s y p (els p) :=
  ⟨(h.alone p hp).1, (h.alone p hp).2, (h.reads p hp).1, (h.reads p hp).2⟩

/-- What the units that are written together are written with. -/
def groupWrites (y : Cmd) (o : Nat) (els : Nat → Nat → Elt) : List (Nat × W72 × Nat × Nat) :=
  (y.group o).flatMap (fun p => (unitWrites y p (els p)).map (fun w => (y.engine (y.targetBlock p), w)))

theorem engUnit_does {o : Nat} {els : Nat → Nat → Elt} (h : UnitDue s y o els) (hp : Placed s y (groupWrites y o els)) :
    Does s s.homeByte (engUnit y o) () ((groupWrites y o els).foldl (putWrite s y) s.homeByte) := by
  unfold engUnit
  refine does_bind (engAll_reads fun p hpo => (UnitDue.unitReads h hpo).elts) ?_
  have hzip : (y.group o).zip ((y.group o).map (fun p => unitElts y (els p) p)) = (y.group o).map (fun p => (p, unitElts y (els p) p)) := by
    rw [List.zip_map_right, List.zip_eq_zipWith, List.zipWith_self, List.map_map]
    rfl
  rw [hzip, engAll_map]
  refine does_map (f := fun _ => ()) (engAll_writes (g := fun _ => ()) (fun p hpo B => (UnitDue.unitReads h hpo).store (fun w hw => ?_) B) _)
  exact hp w (List.mem_flatMap.mpr ⟨p, hpo, hw⟩)

/-- The command at its next unit. -/
def Cmd.next (y : Cmd) : Cmd := { y with pos := y.pos + 1 }

theorem engStep_transfer (h : movesTensor y.op = true) : engStep y = engUnit y (y.plan.getD y.pos 0) >>= fun _ => pure y.next := by
  unfold engStep
  dsimp only
  split
  case h_1 hop => rw [hop] at h; cases h
  case h_2 hop => rw [hop] at h; cases h
  case h_3 hop => rw [hop] at h; cases h
  case h_4 hop => rw [hop] at h; cases h
  case h_5 hop => rw [hop] at h; cases h
  case h_6 hop => rw [hop] at h; cases h
  case h_7 => rfl

theorem finished_transfer (h : movesTensor y.op = true) : y.finished = decide (y.plan.length ≤ y.pos) := by
  unfold Cmd.finished
  split
  case h_1 hop => rw [hop] at h; cases h
  case h_2 hop => rw [hop] at h; cases h
  case h_3 hop => rw [hop] at h; cases h
  case h_4 hop => rw [hop] at h; cases h
  case h_5 hop => rw [hop] at h; cases h
  case h_6 hop => rw [hop] at h; cases h
  case h_7 => rfl

theorem getD_of_getElem? {α : Type} {xs : List α} {i : Nat} {x d : α} (h : xs[i]? = some x) : xs.getD i d = x := by
  rw [List.getD_eq_getElem?_getD, h]
  rfl

/-- A due unit of a transfer takes its elements' codes to their destinations, and the command goes on to the next. -/
theorem unit_moves {o : Nat} {els : Nat → Nat → Elt} (hw : Works s y) (h : UnitDue s y o els) (hp : PlacedApart s y (groupWrites y o els)) :
    Happens s (.accessPerformed y.id ⟨[], .ok⟩) fun t => WritesAll s t y (groupWrites y o els) ∧
      Left s t y { y with pos := y.pos + 1, ended := decide (y.plan.length ≤ y.pos + 1) } := by
  have hstep : Does s s.homeByte (engStep y) y.next ((groupWrites y o els).foldl (putWrite s y) s.homeByte) := by
    rw [engStep_transfer h.moves, getD_of_getElem? h.next]
    exact does_map (f := fun _ => y.next) (engUnit_does h hp.1)
  obtain ⟨t, hexec, hbytes, hleft⟩ := works_of_does (z := y.next) hw rfl hw.begun.1 hw.begun.2 hstep
  have hfinished : y.next.finished = decide (y.plan.length ≤ y.pos + 1) := finished_transfer (y := y.next) h.moves
  rw [hfinished] at hleft
  exact ⟨t, hexec, writesAll_of_bytes hp hbytes, hleft⟩

end Sys2Proof.Machine
end

section
/-! PROOFS. SPMM reads its row pointers, and writes a row (for O43). -/

namespace Sys2Proof.Machine
open Sys2Proof.Safety

variable {s : State} {y : Cmd}

/-! ### Lists of reads -/

/-- Actions on a list's items give what is listed for their places. -/
theorem engAll_indexed {s0 : State} {B : Nat → Nat} {α β : Type} {f : α → Eng β} {xs : List α} {g : Nat → β}
    (h : ∀ (i : Nat) x, xs[i]? = some x → Does s0 B (f x) (g i) B) : Does s0 B (engAll f xs) ((List.range xs.length).map g) B := by
  induction xs generalizing g with
  | nil => exact does_pure _
  | cons x xs ih =>
    rw [List.length_cons, List.range_succ_eq_map, List.map_cons, List.map_map]
    exact does_bind (h 0 x rfl) (does_map (ih fun i z hz => h (i + 1) z hz))

theorem map_getD_range {α : Type} (xs : List α) (d : α) : (List.range xs.length).map (fun i => xs.getD i d) = xs := by
  refine List.ext_getElem (by simp) fun i h1 h2 => ?_
  simp [List.getD_eq_getElem?_getD, List.getElem?_eq_getElem h2]

/-- Reads at the places of a list give the list. -/
theorem engAll_range {s0 : State} {B : Nat → Nat} {β : Type} {f : Nat → Eng β} {ys : List β} {n : Nat} (hn : ys.length = n)
    (h : ∀ (i : Nat) z, ys[i]? = some z → Does s0 B (f i) z B) : Does s0 B (engAll f (List.range n)) ys B := by
  subst hn
  cases ys with
  | nil => exact does_pure _
  | cons d ds =>
    have hreads : Does s0 B (engAll f (List.range (d :: ds).length)) ((List.range (d :: ds).length).map (fun i => (d :: ds).getD i d)) B :=
      engAll_reads fun i hi => by
        rw [List.mem_range] at hi
        refine h i _ ?_
        rw [List.getD_eq_getElem?_getD, List.getElem?_eq_getElem hi]
        rfl
    rwa [map_getD_range] at hreads

/-! ### A command that halts -/

/-- From every state that answers as s0 does and whose homes hold the bytes B, run m halts with w, and no byte has changed. -/
def Halts (s0 : State) (B : Nat → Nat) {α : Type} (m : Eng α) (w : Halt) : Prop :=
  ∀ s, AnswersAs s0 s → s.homeByte = B → ∃ t, m (s, .ok) = .error (some w, t) ∧ AnswersAs s0 t ∧ t.homeByte = B

theorem halts_halt {s0 : State} {B : Nat → Nat} {α : Type} (w : Halt) : Halts s0 B (halt w : Eng α) w := fun s hs hB => ⟨s, rfl, hs, hB⟩

theorem halts_bind {s0 : State} {B : Nat → Nat} {α β : Type} {m : Eng α} {f : α → Eng β} {v : α} {w : Halt} (hm : Does s0 B m v B)
    (hf : Halts s0 B (f v) w) : Halts s0 B (m >>= f) w := by
  intro s hs hB
  obtain ⟨t, ht, hst, hB'⟩ := hm s hs hB
  obtain ⟨u, hu, hsu, hB''⟩ := hf t hst hB'
  refine ⟨u, ?_, hsu, hB''⟩
  simp only [bind, StateT.bind, Except.bind]
  rw [ht]
  exact hu

/-- A step that halts ends the command with its code, and no byte changes. -/
theorem works_of_halts {w : Halt} (h : Works s y) (hd : Halts s s.homeByte (engStep y) w) :
    Happens s (.accessPerformed y.id ⟨[], .ok⟩) fun t => t.homeByte = s.homeByte ∧
      Left s t y { y with ended := true, code := w.code, kind := w.kind, addr := w.addr, clk := w.clk, value := w.value.getD y.value } := by
  obtain ⟨u, hu, hkept, hbytes⟩ := hd s (.refl s) rfl
  refine ⟨_, exec_accessPerformed h, ?_⟩
  rw [State.runEngine, hu]
  refine ⟨hbytes, y.loose, ?_⟩
  dsimp only
  rw [hkept.cmds, ← h.begun.1]

/-! ### The row pointers (R323) -/

theorem any_descends {ps : List Nat} {n : Nat} (hlen : ps.length = n + 1) :
    (ps.zip (ps.drop 1)).any (fun p => decide (p.2 < p.1)) = true ↔ ∃ i, i < n ∧ ps.getD (i + 1) 0 < ps.getD i 0 := by
  have hzip : ps.zip (ps.drop 1) = (List.range n).map (fun i => (ps.getD i 0, ps.getD (i + 1) 0)) := by
    refine List.ext_getElem (by simp [hlen]) fun i h1 h2 => ?_
    rw [List.length_map, List.length_range] at h2
    simp [List.getD_eq_getElem?_getD, hlen, show i < n + 1 by omega, h2]
  rw [hzip, List.any_map, List.any_eq_true]
  simp

theorem engStep_spmm {set : Bool} (hop : y.op = .spmm set) :
    engStep y = if y.sel = [] then engPointers y else engRow y.next (y.plan.getD y.pos 0) := by
  unfold engStep
  dsimp only
  split
  case h_1 => rfl
  case h_2 h => rw [hop] at h; cases h
  case h_3 h => rw [hop] at h; cases h
  case h_4 h => rw [hop] at h; cases h
  case h_5 h => rw [hop] at h; cases h
  case h_6 h => rw [hop] at h; cases h
  case h_7 h _ _ _ _ _ => exact absurd hop (h set)

/-- The bytes of the columns and values that row pointers name; none where they name no entry. -/
def entrySpans (r : Sparse) (ps : List Nat) : List (Nat × Nat) :=
  if ps.headD 0 < ps.getLastD 0 then
    [(r.col.toNat + ps.headD 0 * ixBytes r.ifmt, r.col.toNat + ps.getLastD 0 * ixBytes r.ifmt),
     (r.val.toNat + ps.headD 0 * valBytes r.vfmt, r.val.toNat + ps.getLastD 0 * valBytes r.vfmt)]
  else []

/-- SPMM reads its row pointers; descending ones end it, and where no entry is named it goes on with them. -/
theorem pointers_read {set : Bool} {ps : List Nat} (hw : Works s y) (hop : y.op = .spmm set) (hsel : y.sel = [])
    (hlen : ps.length = (sparseOf y.ra).rows + 1)
    (hps : ∀ (i : Nat) z, ps[i]? = some z →
      EngineReads s y y.cl ((sparseOf y.ra).ptr + BitVec.ofNat 72 (i * ixBytes (sparseOf y.ra).ifmt)) (ixBytes (sparseOf y.ra).ifmt) z) :
    Happens s (.accessPerformed y.id ⟨[], .ok⟩) fun t => (∀ a, t.homeRead a 1 = s.homeRead a 1) ∧
      ((∃ i, i < (sparseOf y.ra).rows ∧ ps.getD (i + 1) 0 < ps.getD i 0) →
        Left s t y { y with ended := true, code := 0x05, kind := 0, addr := 0, clk := 0 }) ∧
      ((∀ i < (sparseOf y.ra).rows, ps.getD i 0 ≤ ps.getD (i + 1) 0) → ps.headD 0 = ps.getLastD 0 →
        Left s t y { y with sel := ps, ended := decide (y.plan.length ≤ y.pos) }) := by
  have hstep : engStep y = engPointers y := (engStep_spmm hop).trans (if_pos hsel)
  have hread : Does s s.homeByte (engAll (fun i => engRead y y.cl ((sparseOf y.ra).ptr + BitVec.ofNat 72 (i * ixBytes (sparseOf y.ra).ifmt))
      (ixBytes (sparseOf y.ra).ifmt)) (List.range ((sparseOf y.ra).rows + 1))) ps s.homeByte := engAll_range hlen fun i z hz => engRead_does (hps i z hz)
  have hdesc := any_descends hlen
  cases hany : (ps.zip (ps.drop 1)).any (fun p => decide (p.2 < p.1)) with
  | true =>
    have hhalts : Halts s s.homeByte (engStep y) (hCode 0x05) := by
      rw [hstep]
      refine halts_bind hread ?_
      rw [hany, if_pos rfl]
      exact halts_halt _
    obtain ⟨t, hexec, hbytes, hleft⟩ := works_of_halts hw hhalts
    refine ⟨t, hexec, congrFun hbytes, fun _ => hleft, fun hasc _ => ?_⟩
    obtain ⟨i, hi, hlt⟩ := hdesc.mp hany
    exact absurd (hasc i hi) (Nat.not_le.mpr hlt)
  | false =>
    have hnot : ¬∃ i, i < (sparseOf y.ra).rows ∧ ps.getD (i + 1) 0 < ps.getD i 0 := fun h => by
      rw [hdesc.mpr h] at hany
      cases hany
    cases hmeets : meetsAny (descOf y.rc).bounds (entrySpans (sparseOf y.ra) ps) with
    | true =>
      have hhalts : Halts s s.homeByte (engStep y) hOverlap := by
        rw [hstep]
        refine halts_bind hread ?_
        rw [hany, if_neg (by decide)]
        exact Eq.subst (motive := fun b => Halts s s.homeByte (if b = true then halt hOverlap else pure { y with sel := ps }) hOverlap) hmeets.symm (halts_halt _)
      obtain ⟨t, hexec, hbytes, -⟩ := works_of_halts hw hhalts
      refine ⟨t, hexec, congrFun hbytes, fun h => absurd h hnot, fun _ hsame => ?_⟩
      have hspans : entrySpans (sparseOf y.ra) ps = [] := if_neg (by omega)
      rw [hspans] at hmeets
      unfold meetsAny at hmeets
      split at hmeets <;> cases hmeets
    | false =>
      have hdoes : Does s s.homeByte (engStep y) { y with sel := ps } s.homeByte := by
        rw [hstep]
        refine does_bind hread ?_
        rw [hany, if_neg (by decide)]
        exact Eq.subst (motive := fun b => Does s s.homeByte (if b = true then halt hOverlap else pure { y with sel := ps }) { y with sel := ps } s.homeByte)
          hmeets.symm (does_pure _)
      obtain ⟨t, hexec, hbytes, hleft⟩ := works_of_does (z := { y with sel := ps }) hw rfl hw.begun.1 hw.begun.2 hdoes
      refine ⟨t, hexec, congrFun hbytes, fun h => absurd h hnot, fun _ _ => ?_⟩
      have hne : ps ≠ [] := fun h => by rw [h] at hlen; cases hlen
      have hfinished : Cmd.finished { y with sel := ps } = decide (y.plan.length ≤ y.pos) := by
        unfold Cmd.finished
        dsimp only
        rw [hop]
        simp [hne]
      rwa [hfinished] at hleft

/-! ### A row (R322, R324) -/

theorem EngineAt.next {q : Place} {n : Nat} (h : EngineAt s y q n) : EngineAt s y.next q n := ⟨h.sound, h.within, h.room, h.held, h.scope⟩

theorem EngineReads.next {n size x : Nat} {va : W72} (h : EngineReads s y n va size x) : EngineReads s y.next n va size x := by
  obtain ⟨q, hm, he, hx⟩ := h
  exact ⟨q, hm, EngineAt.next he, hx⟩

theorem ElementAt.next {n : Nat} {d : Desc} {own : List (Nat × W64 × W64)} {x : List Int} {e : Elt} (h : ElementAt s y n d own x e) :
    ElementAt s y.next n d own x e := by
  unfold ElementAt at h ⊢
  split
  · rename_i hnone
    rw [hnone] at h
    exact h
  · rename_i b va hsome
    rw [hsome] at h
    dsimp only at h ⊢
    split
    · rename_i hb
      rw [if_pos hb] at h
      obtain ⟨ws, hlen, hws, he⟩ := h
      exact ⟨ws, hlen, fun i w hi => EngineReads.next (hws i w hi), he⟩
    · rename_i hb
      rw [if_neg hb] at h
      obtain ⟨z, hz, he⟩ := h
      exact ⟨z, EngineReads.next hz, he⟩

theorem Placed.next {W : List (Nat × W72 × Nat × Nat)} (h : Placed s y W) : Placed s y.next W := fun w hw => by
  obtain ⟨q, hq, he⟩ := h w hw
  exact ⟨q, hq, EngineAt.next he⟩

/-- Element j of row i of the result before it is rounded to the format of Y. -/
def rowAcc (y : Cmd) (vals : List Nat) (old : Nat → Elt) (xs : Nat → Nat → Elt) (j : Nat) : Exact :=
  vals.zipIdx.foldl (fun a p => valueOf .fp32 (round (a.add y.x.rnd ((valueOf (valFmt (sparseOf y.ra).vfmt) p.1).mul ((descOf y.rb).value (xs j p.2))))
    .fp32 y.x.rnd false)) ((descOf y.rc).value (old j))

theorem zip_map_range {α β : Type} (vals : List α) (g : Nat → β) : vals.zip ((List.range vals.length).map g) = vals.zipIdx.map (fun p => (p.1, g p.2)) := by
  refine List.ext_getElem (by simp) fun i h1 h2 => ?_
  simp

/-- The write of element j of row i, where it has a place. -/
def rowWrite (y : Cmd) (i : Nat) (acc : Nat → Exact) (j : Nat) : Option (Nat × W72 × Nat × Nat) :=
  let d := descOf y.rc
  if d.valid (d.coord [j, i]) then (d.place [] (d.coord [j, i])).map (fun q =>
    (y.cl, q.2, Fmt.bytes d.format, round (acc j) d.format y.x.rnd y.x.sat)) else none

theorem rowWrites_eq (i : Nat) (vals : List Nat) (old : Nat → Elt) (xs : Nat → Nat → Elt) :
    rowWrites y i vals old xs = (List.range ((descOf y.rc).cntI 0)).flatMap (fun j => (rowWrite y i (rowAcc y vals old xs) j).toList) :=
  List.filterMap_eq_flatMap_toList ..

theorem engRow_does {set : Bool} {i : Nat} {cols vals : List Nat} {old : Nat → Elt} {xs : Nat → Nat → Elt} (hop : y.op = .spmm set)
    (h : RowReads s y set i cols vals old xs) (hp : Placed s y (rowWrites y i vals old xs)) :
    Does s s.homeByte (engRow y.next i) y.next ((rowWrites y i vals old xs).foldl (putWrite s y) s.homeByte) := by
  obtain ⟨hcols, hvals⟩ := h.counts
  have hany : cols.any (fun k => decide ((sparseOf y.ra).cols ≤ k)) = false := by
    rw [List.any_eq_false]
    intro z hz
    obtain ⟨k, hk⟩ := List.mem_iff_getElem?.mp hz
    simpa using (h.inCols k z hk).1
  have hnextop : y.next.op = .spmm set := hop
  unfold engRow
  dsimp only
  refine does_after (v := cols) ?_ ?_
  · rw [engAll_map]
    exact engAll_range hcols fun k z hz => engRead_does (EngineReads.next (h.inCols k z hz).2)
  rw [show cols.any (fun k => decide ((sparseOf y.next.ra).cols ≤ k)) = false from hany, if_neg (by decide), hnextop]
  refine does_after (v := vals) ?_ (does_after (engAll_reads (g := old) fun j hj => ?_) ?_)
  · rw [engAll_map]
    exact engAll_range hvals fun k z hz => engRead_does (EngineReads.next (h.inVals k z hz))
  · have hold := h.inOld j (List.mem_range.mp hj)
    cases set with
    | true =>
      rw [if_pos rfl] at hold ⊢
      rw [hold]
      exact does_pure _
    | false =>
      rw [if_neg (by decide)] at hold ⊢
      exact engElt_does (ElementAt.next hold)
  refine does_after (engAll_reads (g := rowAcc y vals old xs) fun j hj => ?_) ?_
  · have hj : j < (descOf y.rc).cntI 0 := List.mem_range.mp hj
    refine does_after (engAll_indexed (g := xs j) fun k z hz => engElt_does (ElementAt.next (h.inXs j hj k z hz))) ?_
    rw [show ((List.range ((descOf y.next.rc).cntI 0)).map old).getD j .pad = old j from getD_map_range old _ hj, hcols, ← hvals, zip_map_range, List.foldl_map]
    exact does_pure _
  rw [rowWrites_eq] at hp ⊢
  refine does_map (f := fun _ => y.next) (engAll_writes (g := fun _ => ()) (put := putWrite s y) (fun j hj B => ?_) _)
  have hwrite : ∀ w ∈ rowWrite y i (rowAcc y vals old xs) j, w ∈ (List.range ((descOf y.rc).cntI 0)).flatMap
      (fun j => (rowWrite y i (rowAcc y vals old xs) j).toList) := fun w hw => List.mem_flatMap.mpr ⟨j, hj, Option.mem_toList.mpr hw⟩
  rw [getD_map_range _ _ (List.mem_range.mp hj)]
  unfold rowWrite at hwrite ⊢
  dsimp only at hwrite ⊢
  cases hv : (descOf y.rc).valid ((descOf y.rc).coord [j, i]) with
  | false =>
    rw [show (descOf y.next.rc).valid ((descOf y.next.rc).coord [j, i]) = false from hv]
    exact does_pure _
  | true =>
    rw [show (descOf y.next.rc).valid ((descOf y.next.rc).coord [j, i]) = true from hv, if_pos rfl, if_pos rfl]
    rw [hv, if_pos rfl] at hwrite
    cases hq : (descOf y.rc).place [] ((descOf y.rc).coord [j, i]) with
    | none =>
      rw [show (descOf y.next.rc).place [] ((descOf y.next.rc).coord [j, i]) = none from hq]
      exact does_pure _
    | some q =>
      rw [show (descOf y.next.rc).place [] ((descOf y.next.rc).coord [j, i]) = some q from hq]
      rw [hq] at hwrite
      exact Placed.write (Placed.next hp) (hwrite _ rfl) B

/-- A row of SPMM is written, and the command goes on to the next. -/
theorem row_written {set : Bool} {i : Nat} {cols vals : List Nat} {old : Nat → Elt} {xs : Nat → Nat → Elt} (hw : Works s y) (hop : y.op = .spmm set)
    (hsel : y.sel ≠ []) (hplan : y.plan[y.pos]? = some i) (h : RowReads s y set i cols vals old xs) (hp : PlacedApart s y (rowWrites y i vals old xs)) :
    Happens s (.accessPerformed y.id ⟨[], .ok⟩) fun t => WritesAll s t y (rowWrites y i vals old xs) ∧
      Left s t y { y with pos := y.pos + 1, ended := decide (y.plan.length ≤ y.pos + 1) } := by
  have hstep : engStep y = engRow y.next i := by
    rw [engStep_spmm hop, if_neg hsel, getD_of_getElem? hplan]
  have hdoes := engRow_does hop h hp.1
  rw [← hstep] at hdoes
  obtain ⟨t, hexec, hbytes, hleft⟩ := works_of_does (z := y.next) hw rfl hw.begun.1 hw.begun.2 hdoes
  have hfinished : y.next.finished = decide (y.plan.length ≤ y.pos + 1) := by
    unfold Cmd.finished
    rw [show y.next.op = .spmm set from hop]
    exact (congrArg (· && _) (decide_eq_true hsel)).trans (Bool.true_and _)
  rw [hfinished] at hleft
  exact ⟨t, hexec, writesAll_of_bytes hp hbytes, hleft⟩

end Sys2Proof.Machine
end

section
/-! PROOFS. The merge unit takes an entry (for O43). -/

namespace Sys2Proof.Machine
open Sys2Proof.Safety

variable {s : State} {y : Cmd} {B : Nat → Nat}

theorem engVal_does {r : Run} {i : Nat} {v : Exact} (h : EntryValue s y r i v) : Does s s.homeByte (engVal y r i) v s.homeByte := by
  unfold EntryValue at h
  unfold engVal
  split
  · rename_i hv
    rw [if_pos hv] at h
    rw [h]
    exact does_pure _
  · rename_i hv
    rw [if_neg hv] at h
    obtain ⟨z, hz, rfl⟩ := h
    exact does_map (engRead_does hz)

/-- The code of an entry's value in the result. -/
def entryCode (y : Cmd) (v : Exact) : Nat := round v (valFmt (runOf y.rc).vfmt) y.x.rnd y.x.sat

/-- A zero that is not kept: an entry whose value's code is a zero's, where the command drops those. -/
def dropsEntry (y : Cmd) (v : Exact) (dropz : Bool) : Bool :=
  (runOf y.rc).vfmt ≠ 0 && dropz && entryCode y v % 2 ^ (Fmt.width (valFmt (runOf y.rc).vfmt) - 1) = 0

/-- The writes of entry k at place n of the result. -/
def entryWrites (y : Cmd) (n k : Nat) (v : Exact) : List (Nat × W72 × Nat × Nat) :=
  let o := runOf y.rc
  (y.cl, o.idx + BitVec.ofNat 72 (n * ixBytes o.ifmt), ixBytes o.ifmt, k) ::
    (if o.vfmt = 0 then [] else [(y.cl, o.val + BitVec.ofNat 72 (n * valBytes o.vfmt), valBytes o.vfmt, entryCode y v)])

theorem engEmit_drops {m : MergeSt} {k : Nat} {v : Exact} {dropz : Bool} (h : dropsEntry y v dropz = true) : engEmit y m k v dropz = pure m := if_pos h

theorem engEmit_counts {m : MergeSt} {k : Nat} {v : Exact} {dropz : Bool} (h : dropsEntry y v dropz = false) (hfull : (runOf y.rc).len ≤ m.n) :
    engEmit y m k v dropz = pure { m with n := m.n + 1 } := (if_neg (Bool.not_eq_true _ ▸ h)).trans (if_pos hfull)

theorem engEmit_writes {m : MergeSt} {k : Nat} {v : Exact} {dropz : Bool} (h : dropsEntry y v dropz = false) (hroom : ¬(runOf y.rc).len ≤ m.n)
    (hp : Placed s y (entryWrites y m.n k v)) :
    Does s B (engEmit y m k v dropz) { m with n := m.n + 1 } ((entryWrites y m.n k v).foldl (putWrite s y) B) := by
  have hemit : engEmit y m k v dropz = (do
      engWrite y y.cl ((runOf y.rc).idx + BitVec.ofNat 72 (m.n * ixBytes (runOf y.rc).ifmt)) (ixBytes (runOf y.rc).ifmt) k
      if (runOf y.rc).vfmt ≠ 0 then
        engWrite y y.cl ((runOf y.rc).val + BitVec.ofNat 72 (m.n * valBytes (runOf y.rc).vfmt)) (valBytes (runOf y.rc).vfmt) (entryCode y v)
      return { m with n := m.n + 1 }) := (if_neg (Bool.not_eq_true _ ▸ h)).trans (if_neg hroom)
  rw [hemit]
  unfold entryWrites at hp ⊢
  dsimp only at hp ⊢
  rw [List.foldl_cons]
  refine does_bind (hp.write List.mem_cons_self B) ?_
  by_cases hv : (runOf y.rc).vfmt = 0
  · rw [if_neg (not_not.mpr hv), if_pos hv]
    exact does_pure _
  · rw [if_neg hv] at hp
    rw [if_pos hv, if_neg hv]
    exact does_map (f := fun _ => ({ m with n := m.n + 1 } : MergeSt)) (hp.write (List.mem_cons_of_mem _ (List.mem_singleton_self _)) _)

/-- An entry is put at the end of the result, counted where the result is full, or dropped. -/
theorem engEmit_does {m : MergeSt} {k : Nat} {v : Exact} {dropz : Bool}
    (hp : Placed s y (if dropsEntry y v dropz = true ∨ (runOf y.rc).len ≤ m.n then [] else entryWrites y m.n k v)) :
    Does s B (engEmit y m k v dropz) { m with n := if dropsEntry y v dropz then m.n else m.n + 1 }
      ((if dropsEntry y v dropz = true ∨ (runOf y.rc).len ≤ m.n then [] else entryWrites y m.n k v).foldl (putWrite s y) B) := by
  cases hd : dropsEntry y v dropz with
  | true =>
    rw [engEmit_drops hd]
    simpa using does_pure (s0 := s) (B := B) m
  | false =>
    by_cases hfull : (runOf y.rc).len ≤ m.n
    · rw [engEmit_counts hd hfull]
      simpa [hfull] using does_pure (s0 := s) (B := B) { m with n := m.n + 1 }
    · have hw : (if (false = true) ∨ (runOf y.rc).len ≤ m.n then [] else entryWrites y m.n k v) = entryWrites y m.n k v := by simp [hfull]
      rw [hd, hw] at hp
      rw [hw]
      exact engEmit_writes hd hfull hp

/-- Entry u of the first run or v of the second is taken, or both. -/
def MergeSt.taken (m : MergeSt) (u v : Nat) : MergeSt :=
  { i := if u ≤ v then m.i + 1 else m.i, j := if v ≤ u then m.j + 1 else m.j, n := m.n, ha := if u ≤ v then none else some u,
    hb := if v ≤ u then none else some v, pa := if u ≤ v then some u else m.pa, pb := if v ≤ u then some v else m.pb }

/-- The command after a turn that leaves the merge at m (R326). -/
def Cmd.merged (y : Cmd) (m : MergeSt) : Cmd :=
  let over_ := decide (m.i = (runOf y.ra).len ∧ m.j = (runOf y.rb).len)
  let full := over_ && decide ((runOf y.rc).len < m.n)
  { y with merge := m, value := BitVec.ofNat 64 (if full then m.n else min m.n (runOf y.rc).len), code := if full then 0x07 else y.code }

/-- The exact value of the entry that a turn gives. -/
def mergeValue (y : Cmd) (u v : Nat) (ea eb : Exact) : Exact :=
  if u < v then ea else if v < u then eb else if decide (y.op = .mergeI) then ea.mul eb else ea.add y.x.rnd eb

/-- A turn gives no entry: an index of one run alone in an intersection, or a zero that is dropped. -/
def mergeGone (y : Cmd) (u v : Nat) (e : Exact) : Bool :=
  (decide (y.op = .mergeI) && decide (u ≠ v)) || dropsEntry y e (decide (y.op = .mergeU true))

/-- The writes of a turn. -/
def mergeWrites (y : Cmd) (u v : Nat) (e : Exact) : List (Nat × W72 × Nat × Nat) :=
  if mergeGone y u v e = true ∨ (runOf y.rc).len ≤ y.merge.n then [] else entryWrites y y.merge.n (min u v) e

/-- A zero is dropped exactly where the command says so. -/
theorem mergeU_drops (o : EngOp) : (match o with | .mergeU z => z | _ => false) = decide (o = .mergeU true) := by
  cases o with
  | mergeU z => cases z <;> rfl
  | _ => rfl

/-- The merge after the turn of entries u and v with result e. -/
def Cmd.mergeAfter (y : Cmd) (u v : Nat) (e : Exact) : MergeSt :=
  { y.merge.taken u v with n := if mergeGone y u v e then y.merge.n else y.merge.n + 1 }

/-- One index alone gives nothing in an intersection. -/
theorem engAlone_inter {u v : Nat} {e : Exact} (hi : y.op = .mergeI) (huv : u ≠ v) :
    Does s B (pure (y.merge.taken u v) : Eng MergeSt) (y.mergeAfter u v e) ((mergeWrites y u v e).foldl (putWrite s y) B) := by
  have hgone : mergeGone y u v e = true := by simp [mergeGone, hi, huv]
  rw [mergeWrites, if_pos (Or.inl hgone), Cmd.mergeAfter, hgone]
  exact does_pure _

/-- Any other turn puts its entry, counts it or drops it. -/
theorem engTurn_does {u v : Nat} {e : Exact} (hi : y.op = .mergeI → u = v) (hp : Placed s y (mergeWrites y u v e)) :
    Does s B (engEmit y (y.merge.taken u v) (min u v) e (match y.op with | .mergeU z => z | _ => false)) (y.mergeAfter u v e)
      ((mergeWrites y u v e).foldl (putWrite s y) B) := by
  have hgone : mergeGone y u v e = dropsEntry y e (decide (y.op = .mergeU true)) := by
    by_cases h : y.op = .mergeI
    · simp [mergeGone, hi h]
    · simp [mergeGone, h]
  rw [mergeU_drops, Cmd.mergeAfter, hgone]
  rw [mergeWrites, hgone] at hp ⊢
  exact engEmit_does hp

theorem engMerge_does {u v : Nat} {ea eb : Exact} (ha : y.merge.ha = some u) (hb : y.merge.hb = some v)
    (hea : EntryValue s y (runOf y.ra) y.merge.i ea) (heb : EntryValue s y (runOf y.rb) y.merge.j eb)
    (hp : Placed s y (mergeWrites y u v (mergeValue y u v ea eb))) :
    Does s s.homeByte (engMerge y) (y.merged (y.mergeAfter u v (mergeValue y u v ea eb)))
      ((mergeWrites y u v (mergeValue y u v ea eb)).foldl (putWrite s y) s.homeByte) := by
  unfold engMerge
  dsimp only
  rw [ha, hb]
  refine does_after (v := some u) (does_pure _) (does_after (v := some v) (does_pure _) ?_)
  dsimp only
  rcases Nat.lt_trichotomy u v with h | h | h
  · have he : mergeValue y u v ea eb = ea := if_pos h
    have hm : { y.merge with i := y.merge.i + 1, ha := none, hb := some v, pa := some u } = y.merge.taken u v := by
      simp [MergeSt.taken, h.le, h.not_ge]
    have hk : min u v = u := Nat.min_eq_left h.le
    rw [he] at hp ⊢
    rw [if_pos h]
    refine does_map (f := y.merged) ?_
    by_cases hi : y.op = .mergeI
    · rw [if_pos hi, hm]
      exact engAlone_inter hi h.ne
    · rw [if_neg hi, hm]
      have hturn := engTurn_does (B := s.homeByte) (fun x => absurd x hi) hp
      rw [hk] at hturn
      exact does_after (engVal_does hea) hturn
  · subst h
    have he : mergeValue y u u ea eb = if y.op = .mergeI then ea.mul eb else ea.add y.x.rnd eb := by simp [mergeValue]
    have hm : { y.merge with i := y.merge.i + 1, j := y.merge.j + 1, ha := none, hb := none, pa := some u, pb := some u } =
        y.merge.taken u u := by
      simp [MergeSt.taken]
    rw [if_neg (lt_irrefl u), if_neg (lt_irrefl u), hm]
    refine does_after (engVal_does hea) (does_after (engVal_does heb) (does_map (f := y.merged) ?_))
    have hturn := engTurn_does (B := s.homeByte) (fun _ => rfl) hp
    rw [Nat.min_self] at hturn
    rw [he] at hturn ⊢
    exact hturn
  · have he : mergeValue y u v ea eb = eb := (if_neg h.not_gt).trans (if_pos h)
    have hm : { y.merge with j := y.merge.j + 1, ha := some u, hb := none, pb := some v } = y.merge.taken u v := by
      simp [MergeSt.taken, h.le, h.not_ge]
    have hk : min u v = v := Nat.min_eq_right h.le
    rw [he] at hp ⊢
    rw [if_neg h.not_gt, if_pos h]
    refine does_map (f := y.merged) ?_
    by_cases hi : y.op = .mergeI
    · rw [if_pos hi, hm]
      exact engAlone_inter hi h.ne'
    · rw [if_neg hi, hm]
      have hturn := engTurn_does (B := s.homeByte) (fun x => absurd x hi) hp
      rw [hk] at hturn
      exact does_after (engVal_does heb) hturn

theorem engStep_merge (hop : y.op = .mergeI ∨ ∃ dz, y.op = .mergeU dz) : engStep y = engMerge y := by
  obtain h | ⟨dz, h⟩ := hop <;> · unfold engStep; rw [h]

theorem finished_merged {m : MergeSt} (hop : y.op = .mergeI ∨ ∃ dz, y.op = .mergeU dz) :
    (y.merged m).finished = decide (m.i = (runOf y.ra).len ∧ m.j = (runOf y.rb).len) := by
  obtain h | ⟨dz, h⟩ := hop <;> · unfold Cmd.finished; rw [show (y.merged m).op = _ from h]; exact (Bool.decide_and _ _).symm

/-- MERGE writes an entry, counts it or drops it, and ends with its runs (R324 to R327). -/
theorem entry_merged (hw : Works s y) {u v : Nat} {ea eb : Exact} (hop : y.op = .mergeI ∨ ∃ dz, y.op = .mergeU dz)
    (ha : y.merge.ha = some u) (hb : y.merge.hb = some v) (hea : EntryValue s y (runOf y.ra) y.merge.i ea)
    (heb : EntryValue s y (runOf y.rb) y.merge.j eb) (hp : PlacedApart s y (mergeWrites y u v (mergeValue y u v ea eb))) :
    Happens s (.accessPerformed y.id ⟨[], .ok⟩) fun t => WritesAll s t y (mergeWrites y u v (mergeValue y u v ea eb)) ∧
      Left s t y { y.merged (y.mergeAfter u v (mergeValue y u v ea eb)) with
        ended := decide ((y.mergeAfter u v (mergeValue y u v ea eb)).i = (runOf y.ra).len ∧
          (y.mergeAfter u v (mergeValue y u v ea eb)).j = (runOf y.rb).len) } := by
  have hdoes := engMerge_does ha hb hea heb hp.1
  rw [← engStep_merge hop] at hdoes
  obtain ⟨t, hexec, hbytes, hleft⟩ := works_of_does (z := y.merged _) hw rfl hw.begun.1 hw.begun.2 hdoes
  rw [finished_merged hop] at hleft
  exact ⟨t, hexec, writesAll_of_bytes hp hbytes, hleft⟩

end Sys2Proof.Machine
end

section
/-! PROOFS. A bay's line is carried to its home: what it leaves and which bytes it puts (for O43). -/

namespace Sys2Proof.Machine
open Sys2Proof.Safety

/-! ### Folds over lines -/

/-- What one step of a fold keeps, the whole fold keeps; what the step of an entry sets up and every step keeps, holds of each entry at the
end. -/
theorem foldl_keeps {α : Type} {I : State → Prop} {f : State → α → State} {xs : List α} (hI : ∀ x ∈ xs, ∀ u, I u → I (f u x)) {s : State} (hs : I s) :
    I (xs.foldl f s) := by
  induction xs generalizing s with
  | nil => exact hs
  | cons x xs ih => exact ih (fun z hz => hI z (List.mem_cons_of_mem _ hz)) (hI x List.mem_cons_self s hs)

theorem foldl_sets {α : Type} {I : State → Prop} {Q : α → State → Prop} {f : State → α → State} {xs : List α} (hI : ∀ x ∈ xs, ∀ u, I u → I (f u x))
    (hQ : ∀ x ∈ xs, ∀ u, I u → Q x (f u x)) (hkeep : ∀ x ∈ xs, ∀ z ∈ xs, ∀ u, I u → Q x u → Q x (f u z)) {s : State} (hs : I s) :
    ∀ x ∈ xs, Q x (xs.foldl f s) := by
  induction xs generalizing s with
  | nil => simp
  | cons x xs ih =>
    have hx := hI x List.mem_cons_self s hs
    have hrest : ∀ z ∈ xs, ∀ u, I u → I (f u z) := fun z hz => hI z (List.mem_cons_of_mem _ hz)
    refine List.forall_mem_cons.mpr ⟨?_, ih hrest (fun z hz => hQ z (List.mem_cons_of_mem _ hz))
      (fun z hz w hw => hkeep z (List.mem_cons_of_mem _ hz) w (List.mem_cons_of_mem _ hw)) hx⟩
    have hboth := foldl_keeps (I := fun u => I u ∧ Q x u) (xs := xs) (fun z hz u hu =>
      ⟨hrest z hz u hu.1, hkeep x List.mem_cons_self z (List.mem_cons_of_mem _ hz) u hu.1 hu.2⟩) ⟨hx, hQ x List.mem_cons_self s hs⟩
    exact hboth.2

/-! ### Slices of near lines -/

/-- The ranges that slices hold lines of, and where each starts. -/
theorem cached_ranges {pa : Nat} (h : (homeOf pa).cached = true) :
    (pa ≤ 0x8FFFFFFFFF ∧ rangeStart pa = 0) ∨ ((0x10000000000 ≤ pa ∧ pa ≤ 0x2FFFFFFFFFF) ∧ rangeStart pa = 0x10000000000) ∨
      ((0x10000000000000 ≤ pa ∧ pa ≤ 0x1FFFFFFFFFFFFF) ∧ rangeStart pa = 0x10000000000000) := by
  unfold rangeStart
  by_cases hd : pa ≤ 0x8FFFFFFFFF
  · have hhome : homeOf pa = .dram := if_pos hd
    exact .inl ⟨hd, by rw [hhome]⟩
  · by_cases hc : 0x10000000000 ≤ pa ∧ pa ≤ 0x2FFFFFFFFFF
    · have hhome : homeOf pa = .capacity := (if_neg hd).trans (if_pos hc)
      exact .inr (.inl ⟨hc, by rw [hhome]⟩)
    · by_cases hh : 0x10000000000000 ≤ pa ∧ pa ≤ 0x1FFFFFFFFFFFFF
      · have hhome : homeOf pa = .host := (if_neg hd).trans ((if_neg hc).trans ((if_neg (by omega)).trans (if_pos hh)))
        exact .inr (.inr ⟨hh, by rw [hhome]⟩)
      · unfold homeOf at h
        rw [if_neg hd, if_neg hc, if_neg hh] at h
        split at h
        · cases h
        · split at h
          · split at h <;> cases h
          · cases h

/-- Two lines that slices hold and that begin a page or less apart lie in one range. -/
theorem rangeStart_near {i j : Nat} (hi : (homeOf (128 * i)).cached = true) (hj : (homeOf (128 * j)).cached = true) (hij : i < j) (hnear : j ≤ i + 32) :
    rangeStart (128 * i) = rangeStart (128 * j) ∧ rangeStart (128 * i) ≤ 128 * i ∧ rangeStart (128 * i) % 4096 = 0 := by
  have hi := cached_ranges hi
  have hj := cached_ranges hj
  omega

/-- Lines a page or less apart lie in different sets. -/
theorem l2Key_near {i j : Nat} (hi : (homeOf (128 * i)).cached = true) (hj : (homeOf (128 * j)).cached = true) (hij : i < j) (hnear : j ≤ i + 32) :
    l2Key (128 * i) ≠ l2Key (128 * j) := by
  obtain ⟨hstart, hle, hpage⟩ := rangeStart_near hi hj hij hnear
  intro h
  unfold l2Key stackOf stackOffset at h
  rw [← hstart] at h
  generalize rangeStart (128 * i) = r at h hle hpage
  omega

/-! ### Room that stays -/

/-- A line put into a slice with room takes no room from a line of another set. -/
theorem roomy_l2Put {s : State} {x : Line} (h : Hint) (hc : (homeOf (128 * x.line)).cached = true) (hroom : (s.l2Rest x.line).length < 16) {l : Nat}
    (hl : Roomy s (128 * l)) (hkey : (homeOf (128 * l)).cached = true → l ≠ x.line → l2Key (128 * l) ≠ l2Key (128 * x.line)) :
    Roomy (s.l2Put x h) (128 * l) := by
  obtain ⟨hl, hwf⟩ := hl
  refine ⟨?_, State.l2Put_wf hwf _ _⟩
  have hline : lineOf (128 * l) = l := lineOf_add l (j := 0) (by decide)
  rw [hline] at hl ⊢
  split
  · rename_i hcl
    rw [if_pos hcl] at hl
    obtain ⟨g, hg⟩ := State.l2Put_roomy h hroom
    rw [hg]
    unfold State.l2Set
    dsimp only
    rw [tgetD_tput]
    by_cases hne : l = x.line
    · subst hne
      rw [if_pos rfl, dropLine_cons, if_pos rfl, dropLine_rehinted, List.length_map]
      exact (List.length_filter_le ..).trans_lt hroom
    · rw [if_neg (hkey hcl hne)]
      exact hl
  · rename_i hcl
    rw [if_neg hcl] at hl
    have hne : l ≠ x.line := fun hx => hcl (hx ▸ hc)
    have hother := State.l2Line_l2Put_other h hroom hne
    rw [hl] at hother
    exact Option.map_eq_none_iff.mp hother

/-! ### Dirty bytes written to memory -/

/-- Dirty bytes that are not bad data stand in memory once they are written there. -/
theorem readByte_putDirty {s : State} {y : Line} (hbad : ∀ i < 128, s.badAt (128 * y.line + i) 1 = false) {is : List Nat} (his : ∀ i ∈ is, i < 128)
    {m : List Host.Cell} (hwf : Memory.wf m = true) (a : Nat) :
    readByte (is.foldl (fun m i => if s.badAt (128 * y.line + i) 1 then m else writeByte m (128 * y.line + i) (BitVec.ofNat 8 (y.get i 1))) m) a =
      if lineOf a = y.line ∧ a % 128 ∈ is then BitVec.ofNat 8 (y.get (a % 128) 1) else readByte m a := by
  induction is generalizing m with
  | nil => simp
  | cons i is ih =>
    obtain ⟨hi, his⟩ := List.forall_mem_cons.mp his
    have hat : a = 128 * y.line + i ↔ lineOf a = y.line ∧ a % 128 = i := by unfold lineOf; omega
    rw [List.foldl_cons, hbad i hi, if_neg (by decide), ih his (wf_writeByte hwf _ _), readByte_writeByte hwf]
    simp only [hat, List.mem_cons]
    by_cases hline : lineOf a = y.line
    · by_cases hmem : a % 128 ∈ is
      · simp [hline, hmem]
      · by_cases heq : a % 128 = i
        · simp [hline, heq]
        · simp [hline, hmem, heq]
    · simp [hline]

theorem mem_dirtyBits {y : Line} {j : Nat} (hj : j < 128) : j ∈ setBits 128 y.dirty.toNat ↔ y.dirty.getLsbD j = true :=
  mem_setBits.trans (and_iff_right hj)

/-- Bytes B with the dirty bytes of a line over them. -/
def carriedBytes (B : Nat → Nat) (y : Line) (a : Nat) : Nat := if lineOf a = y.line ∧ y.dirty.getLsbD (a % 128) = true then y.get (a % 128) 1 else B a

theorem carriedBytes_clean (B : Nat → Nat) {y : Line} (h : y.dirty = 0) : carriedBytes B y = B := funext fun a => if_neg (by simp [h])

/-- The dirty bytes of a line are written to memory where no slice holds the line. -/
theorem State.homeByte_writeDirty {s : State} {y : Line} (hroom : s.l2Line y.line = none) (hwf : Memory.wf s.mem = true)
    (hbad : ∀ i < 128, s.badAt (128 * y.line + i) 1 = false) : (s.writeDirty y).homeByte = carriedBytes s.homeByte y := by
  have hmem : ∀ a, readByte (s.writeDirty y).mem a =
      if lineOf a = y.line ∧ y.dirty.getLsbD (a % 128) = true then BitVec.ofNat 8 (y.get (a % 128) 1) else readByte s.mem a := fun a => by
    refine (readByte_putDirty hbad (fun i hi => (mem_setBits.mp hi).1) hwf a).trans ?_
    simp only [mem_dirtyBits (Nat.mod_lt a (by decide : 0 < 128))]
  funext a
  unfold carriedBytes
  by_cases hline : lineOf a = y.line
  · have hread : ∀ u : State, u.l2 = s.l2 → u.homeByte a = (readByte u.mem a).toNat := fun u hu => by
      have hnone : u.l2Line (lineOf a) = none := by
        rw [hline, ← hroom]
        unfold State.l2Line State.l2Set
        rw [hu]
      rw [State.homeByte, State.homeRead_backing hnone (by omega)]
      simp [readBytes, ofBytes]
    rw [hread (s.writeDirty y) rfl, hread s rfl, hmem]
    split
    · exact Nat.mod_eq_of_lt (y.get_byte_lt _)
    · rfl
  · rw [if_neg (fun h => hline h.1)]
    unfold State.homeByte State.homeRead State.homeLine
    rw [show (s.writeDirty y).l2Line (lineOf a) = s.l2Line (lineOf a) from rfl]
    cases s.l2Line (lineOf a) with
    | some l => rfl
    | none =>
      have hbytes : readBytes (s.writeDirty y).mem (128 * lineOf a) 128 = readBytes s.mem (128 * lineOf a) 128 := by
        refine List.map_congr_left fun i hi => ?_
        rw [hmem, lineOf_add _ (List.mem_range.mp hi), if_neg (fun h => hline h.1)]
      dsimp only [State.backingLine]
      rw [hbytes]

/-! ### A line carried to its home -/

/-- A line that its home has room for. -/
def Carries (s : State) (l : Nat) : Prop := Roomy s (128 * l) ∧ ∀ i < 128, s.badAt (128 * l + i) 1 = false

theorem roomy_line {s : State} {l : Nat} (h : Roomy s (128 * l)) :
    (if (homeOf (128 * l)).cached then (s.l2Rest l).length < 16 else s.l2Line l = none) ∧ Memory.wf s.mem = true := by
  have hl := h
  unfold Roomy at hl
  rwa [show lineOf (128 * l) = l from lineOf_add l (j := 0) (by decide)] at hl

theorem State.homeByte_wordsWritten (s : State) (l : Line) (is : List Nat) :
    (is.foldl (fun s i => s.homeWritten (128 * l.line + 8 * i) 8) s).homeByte = s.homeByte :=
  funext fun a => State.homeRead_wordsWritten s l is a 1

/-- A line's dirty bytes, carried to its home, stand there, and no other byte changes. -/
theorem State.homeByte_carryLine {s : State} {y : Line} (h : Carries s y.line) : (s.carryLine y).homeByte = carriedBytes s.homeByte y := by
  obtain ⟨hroom, hbad⟩ := h
  obtain ⟨hroom, hwf⟩ := roomy_line hroom
  unfold State.carryLine
  split
  · rename_i hz
    rw [carriedBytes_clean _ hz]
  · dsimp only
    rw [State.homeByte_wordsWritten]
    split
    · rename_i hc
      rw [if_pos hc] at hroom
      funext a
      have hput := State.homeByte_l2Put (s := s) (l := s.mergedLine y) .normal (by rwa [s.mergedLine_line]) a
      rw [s.mergedLine_line] at hput
      refine hput.trans ?_
      unfold carriedBytes
      by_cases hline : lineOf a = y.line
      · have hget := Line.get_merge y (fun i hi => (mem_setBits.mp hi).1) (s.homeLine y.line) (a % 128) (is := setBits 128 y.dirty.toNat)
        rw [if_pos hline]
        refine hget.trans ?_
        simp only [mem_dirtyBits (Nat.mod_lt a (by decide : 0 < 128)), hline, true_and]
        rw [← hline, State.homeByte_homeLine]
      · rw [if_neg hline, if_neg (fun h => hline h.1)]
    · rename_i hc
      rw [if_neg hc] at hroom
      exact State.homeByte_writeDirty hroom hwf hbad

theorem answersAs_wordsWritten (s : State) (l : Line) (is : List Nat) :
    AnswersAs s (is.foldl (fun s i => s.homeWritten (128 * l.line + 8 * i) 8) s) := by
  induction is generalizing s with
  | nil => exact .refl s
  | cons i is ih => exact (State.homeWritten_answersAs ..).trans (ih _)

/-- A carried line takes no room from a line of another set. -/
theorem roomy_carryLine {s : State} {y : Line} (h : Roomy s (128 * y.line)) {l : Nat} (hl : Roomy s (128 * l))
    (hkey : (homeOf (128 * l)).cached = true → (homeOf (128 * y.line)).cached = true → l ≠ y.line → l2Key (128 * l) ≠ l2Key (128 * y.line)) :
    Roomy (s.carryLine y) (128 * l) := by
  obtain ⟨hroom, hwf⟩ := roomy_line h
  unfold State.carryLine
  split
  · exact hl
  · dsimp only
    refine (answersAs_wordsWritten _ y _).roomy ?_
    split
    · rename_i hc
      rw [if_pos hc] at hroom
      refine roomy_l2Put (x := s.mergedLine y) .normal (by rwa [s.mergedLine_line]) (by rwa [s.mergedLine_line]) hl fun hcl => ?_
      rw [s.mergedLine_line]
      exact hkey hcl hc
    · exact ⟨hl.1, State.writeDirty_wf hl.2 _⟩

end Sys2Proof.Machine
end

section
/-! PROOFS. What cleaning a line in every bay leaves, and which bytes it puts (for O43). -/

namespace Sys2Proof.Machine
open Sys2Proof.Safety

/-! ### Sorted tables -/

theorem tput_keys {α : Type} {t : Tab α} {i : Nat} (x : α) (h : (t.map Prod.fst).Pairwise (· < ·)) :
    ((tput t i x).map Prod.fst).Pairwise (· < ·) ∧ ∀ k ∈ (tput t i x).map Prod.fst, k = i ∨ k ∈ t.map Prod.fst := by
  refine ⟨?_, fun k hk => ?_⟩
  · induction t with
    | nil => simp [tput]
    | cons p t ih =>
      obtain ⟨k, y⟩ := p
      obtain ⟨hk, ht⟩ := List.pairwise_cons.mp h
      unfold tput
      split
      · rename_i hik
        refine List.pairwise_cons.mpr ⟨?_, h⟩
        intro j hj
        obtain rfl | hj := List.mem_cons.mp hj
        · exact hik
        · exact hik.trans (hk j hj)
      · split
        · rename_i _ hik
          subst hik
          exact List.pairwise_cons.mpr ⟨hk, ht⟩
        · refine List.pairwise_cons.mpr ⟨fun j hj => ?_, ih ht⟩
          obtain ⟨p, hp, rfl⟩ := List.mem_map.mp hj
          obtain rfl | hp := mem_tput hp
          · dsimp only
            omega
          · exact hk _ (List.mem_map_of_mem hp)
  · obtain ⟨p, hp, rfl⟩ := List.mem_map.mp hk
    exact (mem_tput hp).imp (fun h => by rw [h]) (List.mem_map_of_mem ·)

theorem tget_of_mem {α : Type} {t : Tab α} (h : (t.map Prod.fst).Pairwise (· < ·)) {p : Nat × α} (hp : p ∈ t) : tget t p.1 = some p.2 := by
  induction t with
  | nil => cases hp
  | cons q t ih =>
    obtain ⟨hq, ht⟩ := List.pairwise_cons.mp h
    unfold tget
    obtain rfl | hp := List.mem_cons.mp hp
    · exact if_pos rfl
    · rw [if_neg (hq p.1 (List.mem_map_of_mem hp)).ne']
      exact ih ht hp

/-! ### A bay cleans its copy of a line -/

/-- A set of lines with one line clean. -/
def cleanIn (line : Nat) (set : List Line) : List Line := set.map (fun x => if x.line = line then { x with dirty := 0 } else x)

theorem State.bayClean_none {s : State} {n b line : Nat} (h : s.bayLine n b line = none) : s.bayClean n b line = s := by
  unfold State.bayClean
  rw [h]

theorem State.bayClean_some {s : State} {n b line : Nat} {y : Line} (h : s.bayLine n b line = some y) : s.bayClean n b line =
    { s.carryFrom (dieOf n) y with bayLines := tput s.bayLines (bayKey n b line) (cleanIn line (s.baySet n b line)) } := by
  have hlines : (s.carryFrom (dieOf n) y).bayLines = s.bayLines := by
    unfold State.carryFrom
    split
    · rfl
    · exact (State.carryLine_stored ..).bayLines.trans (State.reach_bayLines ..)
  unfold State.bayClean State.baySet
  rw [h]
  dsimp only
  rw [hlines]
  rfl

theorem bayLine_mem {s : State} {n b line : Nat} {y : Line} (h : s.bayLine n b line = some y) :
    (bayKey n b line, s.baySet n b line) ∈ s.bayLines ∧ y ∈ s.baySet n b line ∧ y.line = line := by
  refine ⟨?_, List.mem_of_find?_eq_some h, by simpa using List.find?_some h⟩
  unfold State.bayLine at h
  unfold State.baySet tgetD at h ⊢
  cases ht : tget s.bayLines (bayKey n b line) with
  | none =>
    rw [ht] at h
    cases h
  | some set => exact mem_of_tget ht

/-- The set that an entry of the bays' table holds is the one found at its key. -/
theorem BaysSorted.baySet {s : State} (h : BaysSorted s) {p : Nat × List Line} (hp : p ∈ s.bayLines) {n b line : Nat} (hk : p.1 = bayKey n b line) :
    s.baySet n b line = p.2 := by
  unfold State.baySet tgetD
  rw [← hk, tget_of_mem h.1 hp]
  rfl

/-- Every line in the bays of t lies in the same set of s, and is clean or has the dirty bytes that it had. -/
def LinesFrom (s t : State) : Prop :=
  ∀ p ∈ t.bayLines, ∀ v ∈ p.2, ∃ q ∈ s.bayLines, q.1 = p.1 ∧ ∃ w ∈ q.2, w.line = v.line ∧ (v.dirty = 0 ∨ v.dirty = w.dirty)

theorem LinesFrom.of_eq {s t : State} (h : t.bayLines = s.bayLines) : LinesFrom s t := fun p hp v hv => ⟨p, h ▸ hp, rfl, v, hv, rfl, .inr rfl⟩

theorem LinesFrom.trans {s t u : State} (h : LinesFrom s t) (k : LinesFrom t u) : LinesFrom s u := by
  intro p hp v hv
  obtain ⟨q, hq, hqp, w, hw, hwv, hd⟩ := k p hp v hv
  obtain ⟨r, hr, hrq, x, hx, hxw, he⟩ := h q hq w hw
  refine ⟨r, hr, hrq.trans hqp, x, hx, hxw.trans hwv, ?_⟩
  obtain hd | hd := hd
  · exact .inl hd
  · rw [hd]
    exact he

theorem LinesFrom.cleanAbove {s t : State} (h : LinesFrom s t) {n : Nat} (hs : CleanAbove s n) : CleanAbove t n := by
  intro p hp v hv hn
  obtain ⟨q, hq, -, w, hw, hwv, hd⟩ := h p hp v hv
  obtain hd | hd := hd
  · exact hd
  · rw [hd]
    exact hs q hq w hw (hwv.trans hn)

theorem State.bayClean_linesFrom (s : State) (n b line : Nat) : LinesFrom s (s.bayClean n b line) := by
  cases h : s.bayLine n b line with
  | none =>
    rw [State.bayClean_none h]
    exact .of_eq rfl
  | some y =>
    rw [State.bayClean_some h]
    intro p hp v hv
    obtain rfl | hp := mem_tput hp
    · obtain ⟨w, hw, rfl⟩ := List.mem_map.mp hv
      refine ⟨_, (bayLine_mem h).1, rfl, w, hw, ?_⟩
      split
      · exact ⟨rfl, .inl rfl⟩
      · exact ⟨rfl, .inr rfl⟩
    · exact LinesFrom.of_eq rfl p hp v hv

theorem State.bayClean_sorted {s : State} (h : BaysSorted s) (n b line : Nat) : BaysSorted (s.bayClean n b line) := by
  have hfrom := s.bayClean_linesFrom n b line
  refine ⟨?_, fun p hp v hv => ?_⟩
  · cases hl : s.bayLine n b line with
    | none =>
      rw [State.bayClean_none hl]
      exact h.1
    | some y =>
      rw [State.bayClean_some hl]
      exact (tput_keys _ h.1).1
  · obtain ⟨q, hq, hqp, w, hw, hwv, -⟩ := hfrom p hp v hv
    rw [← hwv, ← hqp]
    exact h.2 q hq w hw

/-- After a bay has cleaned a line, the line's set in it holds no dirty byte of the line. -/
theorem State.bayClean_clean {s : State} (h : BaysSorted s) (n b line : Nat) {p : Nat × List Line} (hp : p ∈ (s.bayClean n b line).bayLines)
    (hk : p.1 = bayKey n b line) {v : Line} (hv : v ∈ p.2) (hline : v.line = line) : v.dirty = 0 := by
  have hsorted := State.bayClean_sorted h n b line
  have hset := BaysSorted.baySet hsorted hp hk
  cases hl : s.bayLine n b line with
  | none =>
    rw [State.bayClean_none hl] at hset
    rw [← hset] at hv
    have hnone := List.find?_eq_none.mp hl v hv
    simp [hline] at hnone
  | some y =>
    rw [State.bayClean_some hl] at hset
    unfold State.baySet at hset
    rw [tgetD_tput_same] at hset
    rw [← hset] at hv
    obtain ⟨w, -, rfl⟩ := List.mem_map.mp hv
    split
    · rfl
    · rename_i hne
      rw [if_neg hne] at hline
      exact absurd hline hne

theorem findLine_cleanIn {set : List Line} {n m : Nat} (h : m ≠ n) : findLine (cleanIn n set) m = findLine set m := by
  induction set with
  | nil => rfl
  | cons x set ih =>
    have hcons : cleanIn n (x :: set) = (if x.line = n then { x with dirty := 0 } else x) :: cleanIn n set := rfl
    rw [hcons, findLine_cons, findLine_cons, ih]
    by_cases hx : x.line = n
    · have hm : x.line ≠ m := fun hx' => h (hx'.symm.trans hx)
      rw [if_pos hx, if_neg hm, if_neg hm]
    · rw [if_neg hx]

/-- A bay that cleans a line keeps its copies of others. -/
theorem State.bayClean_bayLine {s : State} (n b line : Nat) {k c m : Nat} (h : m ≠ line ∨ bayKey k c m ≠ bayKey n b line) :
    (s.bayClean n b line).bayLine k c m = s.bayLine k c m := by
  cases hl : s.bayLine n b line with
  | none => rw [State.bayClean_none hl]
  | some y =>
    rw [State.bayClean_some hl]
    unfold State.bayLine State.baySet
    dsimp only
    rw [tgetD_tput]
    split
    · rename_i hk
      rw [findLine_cleanIn (h.resolve_right (not_not.mpr hk)), hk]
    · rfl

/-! ### What the carry of a line leaves -/

/-- The commands, the marks of bad data and the links stay. -/
structure RangeKept (s t : State) : Prop where
  cmds : t.cmds = s.cmds
  bad  : t.badGranules = s.badGranules
  link : ∀ pa, t.linkOpen pa = s.linkOpen pa

theorem RangeKept.refl (s : State) : RangeKept s s := ⟨rfl, rfl, fun _ => rfl⟩

theorem RangeKept.trans {s t u : State} (h : RangeKept s t) (k : RangeKept t u) : RangeKept s u :=
  ⟨k.cmds.trans h.cmds, k.bad.trans h.bad, fun pa => (k.link pa).trans (h.link pa)⟩

theorem RangeKept.of_stored {s t : State} (h : Stored s t) : RangeKept s t := by
  obtain ⟨_, _, _, _, _, _, _, _, _, _, rfl⟩ := h
  exact ⟨rfl, rfl, fun _ => rfl⟩

theorem RangeKept.of_answersAs {s t : State} (h : AnswersAs s t) : RangeKept s t := ⟨h.cmds, h.bad, fun pa => h.linkOpen pa⟩

theorem RangeKept.carries {s t : State} (h : RangeKept s t) {l : Nat} (hs : Carries s l) (hr : Roomy t (128 * l)) : Carries t l :=
  ⟨hr, fun i hi => by unfold State.badAt; rw [h.bad]; exact hs.2 i hi⟩

/-- The slice's copy of line n in t, if it holds one, has the dirty bytes that it had in s. -/
def SliceFrom (n : Nat) (s t : State) : Prop := ∀ v, t.l2Line n = some v → ∃ w, s.l2Line n = some w ∧ v.dirty = w.dirty

theorem SliceFrom.of_eq {n : Nat} {s t : State} (h : t.l2Line n = s.l2Line n) : SliceFrom n s t := fun v hv => ⟨v, h ▸ hv, rfl⟩

theorem SliceFrom.trans {n : Nat} {s t u : State} (h : SliceFrom n s t) (k : SliceFrom n t u) : SliceFrom n s u := by
  intro v hv
  obtain ⟨w, hw, hvw⟩ := k v hv
  obtain ⟨x, hx, hwx⟩ := h w hw
  exact ⟨x, hx, hvw.trans hwx⟩

theorem findLine_dropLine_same (set : List Line) (n : Nat) : findLine (dropLine set n) n = none := by
  refine List.find?_eq_none.mpr fun x hx => ?_
  simpa using (List.mem_filter.mp hx).2

theorem findLine_dropLine_some {set : List Line} {n m : Nat} {v : Line} (h : findLine (dropLine set n) m = some v) : findLine set m = some v := by
  by_cases hm : m = n
  · rw [hm, findLine_dropLine_same] at h
    cases h
  · rwa [findLine_dropLine hm] at h

/-- A set that takes a line keeps its other lines as they are, but for their hints, or gives one up. -/
theorem findLine_touch_other {set : List Line} {ways cap : Nat} {l v : Line} {h : Hint} {n : Nat} (hn : n ≠ l.line)
    (hv : findLine (touch set ways cap l h).1 n = some v) : ∃ w, findLine set n = some w ∧ v.dirty = w.dirty := by
  have hset : ∃ g : Line → Hint, (if hintAfter l.hint h = .evictLast then capHints set cap l.line else set) = set.map (rehint g) := by
    split
    · exact capHints_eq ..
    · exact ⟨Line.hint, (map_rehint_same set).symm⟩
  obtain ⟨g, hg⟩ := hset
  have hrest : ∀ w, findLine (dropLine (set.map (rehint g)) l.line) n = some w → ∃ w', findLine set n = some w' ∧ w.dirty = w'.dirty := by
    intro w hw
    rw [findLine_dropLine hn, findLine_rehinted] at hw
    obtain ⟨w', hw', rfl⟩ := Option.map_eq_some_iff.mp hw
    exact ⟨w', hw', rfl⟩
  unfold touch at hv
  dsimp only at hv
  rw [hg] at hv
  split at hv
  · rw [findLine_cons, if_neg hn.symm] at hv
    exact hrest v hv
  · split at hv
    · rw [findLine_cons, if_neg hn.symm] at hv
      exact hrest v (findLine_dropLine_some hv)
    · rw [findLine_cons, if_neg hn.symm] at hv
      exact hrest v hv

theorem l2Put_sliceFrom (s : State) (x : Line) (h : Hint) {n : Nat} (hn : n ≠ x.line) : SliceFrom n s (s.l2Put x h) := by
  intro v hv
  have hset : (s.l2Put x h).l2Set n = if l2Key (128 * n) = l2Key (128 * x.line) then (touch (s.l2Set x.line) 16 12 x h).1 else s.l2Set n := by
    unfold State.l2Put
    dsimp only
    split <;> · unfold State.l2Set; exact tgetD_tput ..
  unfold State.l2Line at hv
  rw [hset] at hv
  split at hv
  · rename_i hk
    obtain ⟨w, hw, hd⟩ := findLine_touch_other hn hv
    refine ⟨w, ?_, hd⟩
    unfold State.l2Line State.l2Set at *
    rw [hk]
    exact hw
  · exact ⟨v, hv, rfl⟩

theorem wordsWritten_l2Line (s : State) (l : Line) (is : List Nat) (n : Nat) :
    (is.foldl (fun s i => s.homeWritten (128 * l.line + 8 * i) 8) s).l2Line n = s.l2Line n := by
  induction is generalizing s with
  | nil => rfl
  | cons i is ih =>
    rw [List.foldl_cons, ih]
    obtain ⟨_, _, _, _, _, _, _, _, h⟩ := State.homeWritten_frame s (128 * l.line + 8 * i) 8
    rw [h]
    rfl

theorem carryLine_sliceFrom (s : State) (y : Line) {n : Nat} (hn : n ≠ y.line) : SliceFrom n s (s.carryLine y) := by
  unfold State.carryLine
  split
  · exact .of_eq rfl
  · dsimp only
    refine SliceFrom.trans ?_ (.of_eq (wordsWritten_l2Line _ y _ n))
    split
    · exact l2Put_sliceFrom s (s.mergedLine y) .normal (by rwa [s.mergedLine_line])
    · exact .of_eq rfl

/-- The carry of a line to its home, as a bay of a die does it: what it leaves. -/
structure Carried (s t : State) (y : Line) : Prop where
  kept  : RangeKept s t
  bytes : Carries s y.line → t.homeByte = carriedBytes s.homeByte y
  room  : Roomy s (128 * y.line) → ∀ l, Roomy s (128 * l) →
    ((homeOf (128 * l)).cached = true → (homeOf (128 * y.line)).cached = true → l ≠ y.line → l2Key (128 * l) ≠ l2Key (128 * y.line)) → Roomy t (128 * l)
  slice : ∀ n, n ≠ y.line → SliceFrom n s t
  uni   : t.uniLines = s.uniLines
  same  : y.dirty = 0 → t = s

theorem carryFrom_carried (s : State) (die : Nat) (y : Line) : Carried s (s.carryFrom die y) y := by
  unfold State.carryFrom
  split
  · rename_i hz
    exact ⟨.refl s, fun _ => (carriedBytes_clean _ hz).symm, fun _ _ h _ => h, fun _ _ => .of_eq rfl, rfl, fun _ => rfl⟩
  · rename_i hz
    have hreach := State.reach_answersAs s die (128 * y.line)
    have hstored := State.carryLine_stored (s.reach die (128 * y.line)) y
    refine ⟨(RangeKept.of_answersAs hreach).trans (.of_stored hstored), fun hc => ?_, fun hy l hl hkey => ?_, fun n hn => ?_, ?_, fun h => absurd h hz⟩
    · have hc' : Carries (s.reach die (128 * y.line)) y.line := (RangeKept.of_answersAs hreach).carries hc (hreach.roomy hc.1)
      rw [State.homeByte_carryLine hc', State.reach_homeByte]
    · exact roomy_carryLine (hreach.roomy hy) (hreach.roomy hl) hkey
    · refine SliceFrom.trans (.of_eq ?_) (carryLine_sliceFrom _ y hn)
      unfold State.l2Line State.l2Set
      rw [State.reach_l2]
    · obtain ⟨_, _, _, _, _, _, _, _, _, _, h⟩ := hstored
      rw [h]
      exact State.reach_uniLines ..

end Sys2Proof.Machine
end

section
/-! PROOFS. A line is cleaned in every bay, and dropped by the first-level caches (for O43). -/

namespace Sys2Proof.Machine
open Sys2Proof.Safety

/-- The sets of two lines in their slices are two, or one line is not held by a slice. -/
def KeysApart (m l : Nat) : Prop :=
  (homeOf (128 * m)).cached = true → (homeOf (128 * l)).cached = true → m ≠ l → l2Key (128 * m) ≠ l2Key (128 * l)

theorem KeysApart.same (l : Nat) : KeysApart l l := fun _ _ h => absurd rfl h

/-- What cleaning line l in the first-level caches leaves. -/
structure Cleaned (l : Nat) (s t : State) : Prop where
  kept   : RangeKept s t
  lines  : LinesFrom s t
  sorted : BaysSorted s → BaysSorted t
  uni    : ∀ p ∈ t.uniLines, ∀ v ∈ p.2, ∃ q ∈ s.uniLines, v ∈ q.2
  others : ∀ k c m, m ≠ l → t.bayLine k c m = s.bayLine k c m
  slice  : ∀ n, n ≠ l → SliceFrom n s t
  same   : CleanAbove s l → t.homeByte = s.homeByte ∧ ∀ pa, Roomy s pa → Roomy t pa
  bytes  : Carries s l → ∀ a, lineOf a ≠ l → t.homeByte a = s.homeByte a
  room   : Roomy s (128 * l) → ∀ m, Roomy s (128 * m) → KeysApart m l → Roomy t (128 * m)

theorem Cleaned.refl (l : Nat) (s : State) : Cleaned l s s :=
  ⟨.refl s, .of_eq rfl, id, fun p hp _ hv => ⟨p, hp, hv⟩, fun _ _ _ _ => rfl, fun _ _ => .of_eq rfl, fun _ => ⟨rfl, fun _ => id⟩, fun _ _ _ => rfl,
    fun _ _ h _ => h⟩

theorem Cleaned.carries {l : Nat} {s t : State} (h : Cleaned l s t) (hs : Carries s l) {m : Nat} (hm : Carries s m) (hk : KeysApart m l) : Carries t m :=
  RangeKept.carries h.kept hm (h.room hs.1 m hm.1 hk)

theorem Cleaned.trans {l : Nat} {s t u : State} (h : Cleaned l s t) (k : Cleaned l t u) : Cleaned l s u where
  kept := h.kept.trans k.kept
  lines := LinesFrom.trans h.lines k.lines
  sorted hs := k.sorted (h.sorted hs)
  uni p hp v hv := by
    obtain ⟨q, hq, hvq⟩ := k.uni p hp v hv
    exact h.uni q hq v hvq
  others n b m hm := (k.others n b m hm).trans (h.others n b m hm)
  slice n hn := SliceFrom.trans (h.slice n hn) (k.slice n hn)
  same hs := by
    obtain ⟨hb, hr⟩ := h.same hs
    obtain ⟨hb', hr'⟩ := k.same (LinesFrom.cleanAbove h.lines hs)
    exact ⟨hb'.trans hb, fun pa hpa => hr' pa (hr pa hpa)⟩
  bytes hs a ha := (k.bytes (h.carries hs hs (.same l)) a ha).trans (h.bytes hs a ha)
  room hl m hm hk := k.room (h.room hl l hl (.same l)) m (h.room hl m hm hk) hk

theorem Cleaned.foldl {α : Type} {l : Nat} {f : State → α → State} {xs : List α} (hf : ∀ s x, Cleaned l s (f s x)) (s : State) :
    Cleaned l s (xs.foldl f s) :=
  foldl_keeps (I := Cleaned l s) (fun x _ u hu => hu.trans (hf u x)) (.refl l s)

theorem State.bayClean_cleaned (s : State) (n b line : Nat) : Cleaned line s (s.bayClean n b line) := by
  have hlines := s.bayClean_linesFrom n b line
  have hsorted := fun h => State.bayClean_sorted (s := s) h n b line
  have hothers := fun k c m h => State.bayClean_bayLine (s := s) n b line (k := k) (c := c) (m := m) (.inl h)
  cases hl : s.bayLine n b line with
  | none =>
    rw [State.bayClean_none hl]
    exact .refl line s
  | some y =>
    obtain ⟨hset, hy, hline⟩ := bayLine_mem hl
    have hcarry := carryFrom_carried s (dieOf n) y
    rw [hline.symm] at hlines hsorted hothers hl ⊢
    rw [State.bayClean_some hl] at hlines hsorted hothers ⊢
    refine ⟨⟨hcarry.kept.cmds, hcarry.kept.bad, hcarry.kept.link⟩, hlines, hsorted, ?_, hothers, hcarry.slice, fun hclean => ?_, fun hc a ha => ?_, hcarry.room⟩
    · intro p hp v hv
      exact ⟨p, hcarry.uni ▸ hp, hv⟩
    · have hsame := hcarry.same (hclean _ hset _ hy rfl)
      rw [hsame]
      exact ⟨rfl, fun pa h => h⟩
    · exact (congrFun (hcarry.bytes hc) a).trans (if_neg fun h => ha h.1)

theorem State.cleanEverywhere_cleaned (s : State) (line : Nat) : Cleaned line s (s.cleanEverywhere line) :=
  Cleaned.foldl (xs := s.bayLines.filter (fun p => p.2.any (fun l => l.line = line)))
    (f := fun u p => u.bayClean (p.1 / 2048) (p.1 / 128 % 16) line) (fun u p => u.bayClean_cleaned (p.1 / 2048) (p.1 / 128 % 16) line) s

theorem bayKey_of_entry {s : State} (h : BaysSorted s) {p : Nat × List Line} (hp : p ∈ s.bayLines) {v : Line} (hv : v ∈ p.2) :
    bayKey (p.1 / 2048) (p.1 / 128 % 16) v.line = p.1 := by
  have := h.2 p hp v hv
  unfold bayKey
  omega

theorem mem_holders {s : State} {line : Nat} {p : Nat × List Line} :
    p ∈ s.bayLines.filter (fun p => p.2.any (fun l => l.line = line)) ↔ p ∈ s.bayLines ∧ ∃ v ∈ p.2, v.line = line := by
  simp [List.mem_filter]

/-- A line that every bay has cleaned has no dirty byte in any. -/
theorem State.cleanEverywhere_clean {s : State} (h : BaysSorted s) (line : Nat) : CleanAbove (s.cleanEverywhere line) line := by
  have hsets := foldl_sets (I := BaysSorted) (Q := fun p u => ∀ q ∈ u.bayLines, q.1 = p.1 → ∀ v ∈ q.2, v.line = line → v.dirty = 0)
    (f := fun u p => u.bayClean (p.1 / 2048) (p.1 / 128 % 16) line) (xs := s.bayLines.filter (fun p => p.2.any (fun l => l.line = line)))
    (fun p _ u hu => State.bayClean_sorted hu ..)
    (fun p hp u hu q hq hqp v hv hline => by
      obtain ⟨hp, w, hw, hwl⟩ := mem_holders.mp hp
      have hkey := bayKey_of_entry h hp hw
      rw [hwl] at hkey
      exact State.bayClean_clean hu _ _ _ hq (hqp.trans hkey.symm) hv hline)
    (fun p _ z _ u _ hq r hr hrp v hv hline => by
      obtain ⟨q, hqm, hqr, w, hw, hwv, hd⟩ := u.bayClean_linesFrom _ _ _ r hr v hv
      obtain hd | hd := hd
      · exact hd
      · rw [hd]
        exact hq q hqm (hqr.trans hrp) w hw (hwv.trans hline)) h
  intro p hp v hv hline
  obtain ⟨q, hq, hqp, w, hw, hwv, -⟩ := (s.cleanEverywhere_cleaned line).lines p hp v hv
  exact hsets q (mem_holders.mpr ⟨hq, w, hw, hwv.trans hline⟩) p hp hqp.symm v hv hline

/-- Every bay but bay c of cluster k holds line n clean. -/
def CleanBut (s : State) (k c n : Nat) : Prop := ∀ p ∈ s.bayLines, p.1 / 128 ≠ 16 * k + c → ∀ u ∈ p.2, u.line = n → u.dirty = 0

theorem LinesFrom.cleanBut {s t : State} (h : LinesFrom s t) {k c n : Nat} (hs : CleanBut s k c n) : CleanBut t k c n := by
  intro p hp hk v hv hn
  obtain ⟨q, hq, hqp, w, hw, hwv, hd⟩ := h p hp v hv
  obtain hd | hd := hd
  · exact hd
  · rw [hd]
    exact hs q hq (by rwa [hqp]) w hw (hwv.trans hn)

/-- A bay that holds a line clean cleans it without a byte changing. -/
theorem State.bayClean_bytes_clean {s : State} {n b line : Nat} (h : ∀ y, s.bayLine n b line = some y → y.dirty = 0) :
    (s.bayClean n b line).homeByte = s.homeByte := by
  cases hl : s.bayLine n b line with
  | none => rw [State.bayClean_none hl]
  | some y =>
    rw [State.bayClean_some hl, (carryFrom_carried s (dieOf n) y).same (h y hl)]
    rfl

/-- A bay that cleans a line puts the line's dirty bytes at its home. -/
theorem State.bayClean_bytes {s : State} {n b : Nat} {y : Line} (hc : Carries s y.line) (h : s.bayLine n b y.line = some y) :
    (s.bayClean n b y.line).homeByte = carriedBytes s.homeByte y := by
  rw [State.bayClean_some h]
  exact (carryFrom_carried s (dieOf n) y).bytes hc

/-- The bay that alone holds dirty bytes of a line leaves none once it has cleaned it. -/
theorem State.bayClean_last {s : State} (h : BaysSorted s) {n b k c line : Nat} (hkey : bayKey n b line = bayKey k c line) (hbut : CleanBut s k c line) :
    CleanAbove (s.bayClean n b line) line := by
  intro q hq v hv hline
  by_cases hqk : q.1 / 128 = 16 * k + c
  · have hmod := (State.bayClean_sorted h n b line).2 q hq v hv
    refine State.bayClean_clean h n b line hq ?_ hv hline
    rw [hkey]
    unfold bayKey
    omega
  · exact LinesFrom.cleanBut (s.bayClean_linesFrom n b line) hbut q hq hqk v hv hline

/-- The dirty bytes that one bay alone holds of a line are put at its home. -/
theorem State.cleanEverywhere_bytes {s : State} (h : BaysSorted s) {line k c : Nat} (hc : Carries s line) (hbut : CleanBut s k c line) {v : Line}
    (hv : s.bayLine k c line = some v) : (s.cleanEverywhere line).homeByte = carriedBytes s.homeByte v := by
  have hkeeps := foldl_keeps (I := fun u => (BaysSorted u ∧ Carries u line ∧ CleanBut u k c line) ∧
      (u.bayLine k c line = some v ∧ u.homeByte = s.homeByte ∨ CleanAbove u line ∧ u.homeByte = carriedBytes s.homeByte v))
    (f := fun u p => u.bayClean (p.1 / 2048) (p.1 / 128 % 16) line) (xs := s.bayLines.filter (fun p => p.2.any (fun l => l.line = line)))
    (fun p hp u hu => by
      obtain ⟨⟨hus, huc, hub⟩, hcase⟩ := hu
      obtain ⟨hps, w, hw, hwl⟩ := mem_holders.mp hp
      have hkey := bayKey_of_entry h hps hw
      have hmod := h.2 p hps w hw
      rw [hwl] at hkey hmod
      have hstep := u.bayClean_cleaned (p.1 / 2048) (p.1 / 128 % 16) line
      refine ⟨⟨hstep.sorted hus, hstep.carries huc huc (.same _), LinesFrom.cleanBut hstep.lines hub⟩, ?_⟩
      obtain ⟨hpend, hbytes⟩ | ⟨hdone, hbytes⟩ := hcase
      · obtain ⟨-, -, hvl⟩ := bayLine_mem hpend
        by_cases hk : p.1 / 128 = 16 * k + c
        · have hsame : bayKey (p.1 / 2048) (p.1 / 128 % 16) line = bayKey k c line := by
            rw [hkey]
            unfold bayKey
            omega
          have hfound : u.bayLine (p.1 / 2048) (p.1 / 128 % 16) line = some v := by
            unfold State.bayLine State.baySet at hpend ⊢
            rwa [hsame]
          refine .inr ⟨State.bayClean_last hus hsame hub, ?_⟩
          rw [← hbytes]
          rw [← hvl] at hfound huc ⊢
          exact State.bayClean_bytes huc hfound
        · refine .inl ⟨(State.bayClean_bayLine _ _ _ (.inr fun hsame => hk ?_)).trans hpend, (State.bayClean_bytes_clean fun y hy => ?_).trans hbytes⟩
          · rw [hkey] at hsame
            rw [← hsame]
            exact bayKey_div k c line
          · obtain ⟨hset, hmem, hyl⟩ := bayLine_mem hy
            rw [hkey] at hset
            exact hub _ hset hk y hmem hyl
      · exact .inr ⟨LinesFrom.cleanAbove hstep.lines hdone, (hstep.same hdone).1.trans hbytes⟩) ⟨⟨h, hc, hbut⟩, .inl ⟨hv, rfl⟩⟩
  obtain ⟨-, ⟨hpend, hbytes⟩ | ⟨-, hbytes⟩⟩ := hkeeps
  · obtain ⟨hset, hmem, hline⟩ := bayLine_mem hpend
    rw [carriedBytes_clean _ (State.cleanEverywhere_clean h line _ hset v hmem hline)]
    exact hbytes
  · exact hbytes

end Sys2Proof.Machine
end

section
/-! PROOFS. What a range command does with the lines of a page (for O43). -/

namespace Sys2Proof.Machine
open Sys2Proof.Safety

theorem keysApart_near {m l : Nat} (h : m ≤ l + 32) (h' : l ≤ m + 32) : KeysApart m l := by
  intro hm hl hne
  obtain hlt | hlt := Nat.lt_or_gt_of_ne hne
  · exact l2Key_near hm hl hlt h'
  · exact (l2Key_near hl hm hlt h).symm

/-! ### The first level -/

theorem State.dropFirstLevel_bayLine (s : State) (line k c m : Nat) (h : m ≠ line) : (s.dropFirstLevel line).bayLine k c m = s.bayLine k c m := by
  unfold State.dropFirstLevel State.bayLine State.baySet tgetD
  dsimp only
  rw [tget_map_snd s.bayLines (fun p => (p.1, dropLine p.2 line)) (fun _ => rfl)]
  cases tget s.bayLines (bayKey k c m) with
  | none => rfl
  | some set => exact findLine_dropLine h

theorem mem_dropFirst {t : List (Nat × List Line)} {line : Nat} {p : Nat × List Line} (h : p ∈ t.map (fun p => (p.1, dropLine p.2 line))) :
    ∃ q ∈ t, q.1 = p.1 ∧ ∀ v ∈ p.2, v ∈ q.2 ∧ v.line ≠ line := by
  obtain ⟨q, hq, rfl⟩ := List.mem_map.mp h
  refine ⟨q, hq, rfl, fun v hv => ?_⟩
  obtain ⟨hv, hne⟩ := List.mem_filter.mp hv
  exact ⟨hv, by simpa using hne⟩

theorem State.dropFirstLevel_cleaned (s : State) (line : Nat) : Cleaned line s (s.dropFirstLevel line) := by
  have hlines : LinesFrom s (s.dropFirstLevel line) := fun p hp v hv => by
    obtain ⟨q, hq, hqp, hall⟩ := mem_dropFirst hp
    exact ⟨q, hq, hqp, v, (hall v hv).1, rfl, .inr rfl⟩
  refine ⟨⟨rfl, rfl, fun _ => rfl⟩, hlines, fun h => ⟨?_, fun p hp v hv => ?_⟩, fun p hp v hv => ?_, fun k c m => s.dropFirstLevel_bayLine line k c m,
    fun _ _ => .of_eq rfl, fun _ => ⟨rfl, fun _ h => h⟩, fun _ _ _ => rfl, fun _ _ h _ => h⟩
  · have hkeys : (s.dropFirstLevel line).bayLines.map Prod.fst = s.bayLines.map Prod.fst := by
      unfold State.dropFirstLevel
      rw [List.map_map]
      rfl
    rw [hkeys]
    exact h.1
  · obtain ⟨q, hq, hqp, w, hw, hwv, -⟩ := hlines p hp v hv
    rw [← hwv, ← hqp]
    exact h.2 q hq w hw
  · obtain ⟨q, hq, -, hall⟩ := mem_dropFirst hp
    exact ⟨q, hq, (hall v hv).1⟩

/-- No first-level cache holds a line. -/
def GoneAbove (s : State) (l : Nat) : Prop := (∀ p ∈ s.bayLines, ∀ v ∈ p.2, v.line ≠ l) ∧ ∀ p ∈ s.uniLines, ∀ v ∈ p.2, v.line ≠ l

theorem State.dropFirstLevel_gone (s : State) (line : Nat) : GoneAbove (s.dropFirstLevel line) line := by
  refine ⟨fun p hp v hv => ?_, fun p hp v hv => ?_⟩
  · obtain ⟨q, -, -, hall⟩ := mem_dropFirst hp
    exact (hall v hv).2
  · obtain ⟨q, -, -, hall⟩ := mem_dropFirst hp
    exact (hall v hv).2

theorem Cleaned.gone {l m : Nat} {s t : State} (h : Cleaned l s t) (hs : GoneAbove s m) : GoneAbove t m := by
  refine ⟨fun p hp v hv hm => ?_, fun p hp v hv => ?_⟩
  · obtain ⟨q, hq, -, w, hw, hwv, -⟩ := h.lines p hp v hv
    exact hs.1 q hq w hw (hwv.trans hm)
  · obtain ⟨q, hq, hvq⟩ := h.uni p hp v hv
    exact hs.2 q hq v hvq

/-- What WBACK or DROPR does with a line in the first-level caches. -/
def State.firstLevel (s : State) (op : EngOp) (l : Nat) : State := if op = .dropr then (s.cleanEverywhere l).dropFirstLevel l else s.cleanEverywhere l

theorem State.firstLevel_cleaned (s : State) (op : EngOp) (l : Nat) : Cleaned l s (s.firstLevel op l) := by
  unfold State.firstLevel
  split
  · exact (s.cleanEverywhere_cleaned l).trans (State.dropFirstLevel_cleaned _ l)
  · exact s.cleanEverywhere_cleaned l

theorem State.firstLevel_clean {s : State} (h : BaysSorted s) (op : EngOp) (l : Nat) : CleanAbove (s.firstLevel op l) l := by
  have hclean := State.cleanEverywhere_clean h l
  unfold State.firstLevel
  split
  · exact LinesFrom.cleanAbove (State.dropFirstLevel_cleaned _ l).lines hclean
  · exact hclean

theorem State.firstLevel_bytes {s : State} (h : BaysSorted s) (op : EngOp) {l k c : Nat} (hc : Carries s l) (hbut : CleanBut s k c l) {v : Line}
    (hv : s.bayLine k c l = some v) : (s.firstLevel op l).homeByte = carriedBytes s.homeByte v := by
  rw [← State.cleanEverywhere_bytes h hc hbut hv]
  unfold State.firstLevel
  split <;> rfl

/-! ### The slice -/

/-- What WBACK or DROPR does with a line in its slice, at system scope. -/
def State.sliceLevel (s : State) (op : EngOp) (l : Nat) : State := if op = .dropr then (s.l2Clean l).l2Leave l else s.l2Clean l

theorem State.l2Clean_stored (s : State) (n : Nat) : Stored s (s.l2Clean n) := by
  unfold State.l2Clean
  split
  · exact .refl s
  · split
    · exact .refl s
    · exact ⟨_, _, Notified.refl _⟩

theorem State.l2Leave_stored (s : State) (n : Nat) : Stored s (s.l2Leave n) := by
  unfold State.l2Leave
  split
  · exact .refl s
  · split
    · exact ⟨_, _, Notified.refl _⟩
    · exact ⟨_, _, Notified.refl _⟩

theorem State.sliceLevel_stored (s : State) (op : EngOp) (l : Nat) : Stored s (s.sliceLevel op l) := by
  unfold State.sliceLevel
  split
  · exact (s.l2Clean_stored l).trans (State.l2Leave_stored _ l)
  · exact s.l2Clean_stored l

theorem findLine_swap (set : List Line) (x : Line) (n : Nat) : findLine (set.map (fun z => if z.line = x.line then x else z)) n =
    if n = x.line then (findLine set n).map (fun _ => x) else findLine set n := by
  induction set with
  | nil => simp [findLine]
  | cons z set ih =>
    rw [List.map_cons, findLine_cons, ih, findLine_cons]
    by_cases hz : z.line = x.line
    · by_cases hn : n = x.line
      · simp [hz, hn]
      · simp [hz, hn, Ne.symm hn]
    · by_cases hn : n = x.line
      · simp [hz, hn]
      · simp [hz, hn]

theorem State.l2Line_l2Swap (s : State) (x : Line) (n : Nat) : (s.l2Swap x).l2Line n = if n = x.line then (s.l2Line n).map (fun _ => x) else s.l2Line n := by
  unfold State.l2Swap State.l2Line State.l2Set
  dsimp only
  rw [tgetD_tput]
  split
  · rename_i hk
    rw [findLine_swap, hk]
  · rename_i hk
    rw [if_neg (fun h => hk (by rw [h]))]

theorem State.l2Line_l2Drop (s : State) (m n : Nat) : (s.l2Drop m).l2Line n = if n = m then none else s.l2Line n := by
  unfold State.l2Drop State.l2Line State.l2Set
  dsimp only
  rw [tgetD_tput]
  by_cases hn : n = m
  · rw [if_pos hn, hn, if_pos rfl, findLine_dropLine_same]
  · rw [if_neg hn]
    split
    · rename_i hk
      rw [findLine_dropLine hn, hk]
    · rfl

theorem l2Line_line {s : State} {n : Nat} {l : Line} (h : s.l2Line n = some l) : l.line = n := by simpa using List.find?_some h

/-- A slice that has written a line to the backing store holds none of its bytes dirty. -/
theorem State.l2Clean_clean {s : State} {n : Nat} (hopen : s.linkOpen (128 * n) = true) {v : Line} (hv : (s.l2Clean n).l2Line n = some v) : v.dirty = 0 := by
  unfold State.l2Clean at hv
  rw [hopen] at hv
  cases hl : s.l2Line n with
  | none =>
    rw [hl] at hv
    dsimp only at hv
    rw [hl] at hv
    cases hv
  | some l =>
    rw [hl] at hv
    dsimp only at hv
    rw [if_neg (by decide), State.l2Line_l2Swap] at hv
    dsimp only at hv
    rw [if_pos (l2Line_line hl).symm] at hv
    obtain ⟨-, -, rfl⟩ := Option.map_eq_some_iff.mp hv
    rfl

theorem State.l2Clean_sliceFrom (s : State) {m n : Nat} (h : n ≠ m) : SliceFrom n s (s.l2Clean m) := by
  unfold State.l2Clean
  split
  · exact .of_eq rfl
  · rename_i l hl
    split
    · exact .of_eq rfl
    · have hline : l.line = m := l2Line_line hl
      refine .of_eq ?_
      rw [State.l2Line_l2Swap, if_neg (fun hn => h (hn.trans hline))]
      rfl

theorem State.l2Leave_sliceFrom (s : State) {m n : Nat} (h : n ≠ m) : SliceFrom n s (s.l2Leave m) := by
  unfold State.l2Leave
  split
  · exact .of_eq rfl
  · rename_i l hl
    split
    · exact .of_eq (by rw [State.l2Line_l2Drop, if_neg h])
    · refine .of_eq ?_
      rw [State.l2Line_l2Swap, if_neg]
      have hline : (l.renewed (s.backingLine m)).line = m := Line.merge_line ..
      rwa [hline]

theorem State.l2Leave_none {s : State} {n : Nat} (h : ∀ v, s.l2Line n = some v → v.dirty = 0) : (s.l2Leave n).l2Line n = none := by
  unfold State.l2Leave
  cases hl : s.l2Line n with
  | none => exact hl
  | some l =>
    dsimp only
    rw [if_pos (h l hl), State.l2Line_l2Drop, if_pos rfl]

/-- Once WBACK or DROPR has done a line at system scope its slice holds none of its bytes dirty, and DROPR leaves it no copy. -/
def SliceDone (op : EngOp) (s : State) (l : Nat) : Prop := (∀ v, s.l2Line l = some v → v.dirty = 0) ∧ (op = .dropr → s.l2Line l = none)

theorem State.sliceLevel_done {s : State} {l : Nat} (op : EngOp) (hopen : s.linkOpen (128 * l) = true) : SliceDone op (s.sliceLevel op l) l := by
  unfold State.sliceLevel
  split
  · have hnone := State.l2Leave_none fun v hv => State.l2Clean_clean hopen hv
    exact ⟨fun v hv => absurd hv (by rw [hnone]; simp), fun _ => hnone⟩
  · rename_i hop
    exact ⟨fun v hv => State.l2Clean_clean hopen hv, fun h => absurd h hop⟩

theorem State.sliceLevel_sliceFrom (s : State) (op : EngOp) {m n : Nat} (h : n ≠ m) : SliceFrom n s (s.sliceLevel op m) := by
  unfold State.sliceLevel
  split
  · exact SliceFrom.trans (s.l2Clean_sliceFrom h) (State.l2Leave_sliceFrom _ h)
  · exact s.l2Clean_sliceFrom h

theorem SliceFrom.done {op : EngOp} {l : Nat} {s t : State} (h : SliceFrom l s t) (hs : SliceDone op s l) : SliceDone op t l := by
  refine ⟨fun v hv => ?_, fun hop => ?_⟩
  · obtain ⟨w, hw, hd⟩ := h v hv
    rw [hd]
    exact hs.1 w hw
  · cases hl : t.l2Line l with
    | none => rfl
    | some v =>
      obtain ⟨w, hw, -⟩ := h v hl
      rw [hs.2 hop] at hw
      cases hw

end Sys2Proof.Machine
end

section
/-! PROOFS. A range command does the lines of a page piece (for O43). -/

namespace Sys2Proof.Machine
open Sys2Proof.Safety

variable {s : State} {op : EngOp} {sc : Scope} {h : Hint} {ls : List Nat}

/-- The lines of a page piece, one after another. -/
def State.rangeLines (s : State) (op : EngOp) (sc : Scope) (h : Hint) (ls : List Nat) : State := ls.foldl (fun s l => s.rangeLine op sc h l) s

/-- WBACK and DROPR work on the first level, and at system scope on the slice too. -/
theorem rangeLine_levels (s : State) (h : Hint) (l : Nat) (hop : op = .wback ∨ op = .dropr) :
    s.rangeLine op sc h l = if sc = .system then (s.firstLevel op l).sliceLevel op l else s.firstLevel op l := by
  obtain rfl | rfl := hop <;> rfl

theorem rangeLine_kept (s : State) (h : Hint) (l : Nat) (hop : op = .wback ∨ op = .dropr ∨ op = .fill) : RangeKept s (s.rangeLine op sc h l) := by
  have hlevels : op = .wback ∨ op = .dropr → RangeKept s (s.rangeLine op sc h l) := fun hop => by
    have hfirst := (s.firstLevel_cleaned op l).kept
    rw [rangeLine_levels s h l hop]
    split
    · exact hfirst.trans (.of_stored (State.sliceLevel_stored ..))
    · exact hfirst
  obtain hop | hop | rfl := hop
  · exact hlevels (.inl hop)
  · exact hlevels (.inr hop)
  · show RangeKept s (s.l2Fill l h)
    unfold State.l2Fill
    split
    · exact .of_stored (State.l2Put_stored ..)
    · exact .refl s

theorem rangeLines_kept (s : State) (h : Hint) (ls : List Nat) (hop : op = .wback ∨ op = .dropr ∨ op = .fill) : RangeKept s (s.rangeLines op sc h ls) :=
  foldl_keeps (I := RangeKept s) (fun l _ u hu => hu.trans (rangeLine_kept u h l hop)) (.refl s)

/-! ### The first level after WBACK and DROPR -/

section
variable (hop : op = .wback ∨ op = .dropr)
include hop

theorem rangeLine_linesFrom (s : State) (h : Hint) (l : Nat) : LinesFrom s (s.rangeLine op sc h l) := by
  have hfirst := (s.firstLevel_cleaned op l).lines
  rw [rangeLine_levels s h l hop]
  split
  · exact LinesFrom.trans hfirst (.of_eq (State.sliceLevel_stored ..).bayLines)
  · exact hfirst

theorem rangeLine_sorted (h : Hint) (l : Nat) (hs : BaysSorted s) : BaysSorted (s.rangeLine op sc h l) := by
  have hfirst := (s.firstLevel_cleaned op l).sorted hs
  rw [rangeLine_levels s h l hop]
  split
  · unfold BaysSorted
    rw [(State.sliceLevel_stored ..).bayLines]
    exact hfirst
  · exact hfirst

theorem rangeLine_clean (h : Hint) (l : Nat) (hs : BaysSorted s) : CleanAbove (s.rangeLine op sc h l) l := by
  have hfirst := State.firstLevel_clean hs op l
  rw [rangeLine_levels s h l hop]
  split
  · exact LinesFrom.cleanAbove (.of_eq (State.sliceLevel_stored ..).bayLines) hfirst
  · exact hfirst

theorem rangeLines_clean (h : Hint) (hs : BaysSorted s) : ∀ l ∈ ls, CleanAbove (s.rangeLines op sc h ls) l :=
  foldl_sets (I := BaysSorted) (Q := fun l u => CleanAbove u l) (fun l _ _ hu => rangeLine_sorted hop h l hu) (fun l _ _ hu => rangeLine_clean hop h l hu)
    (fun _ _ l _ u _ hu => LinesFrom.cleanAbove (rangeLine_linesFrom hop u h l) hu) hs

theorem rangeLine_gone (s : State) (h : Hint) (l : Nat) {m : Nat} (hs : (m = l ∧ op = .dropr) ∨ GoneAbove s m) : GoneAbove (s.rangeLine op sc h l) m := by
  have hfirst : GoneAbove (s.firstLevel op l) m := by
    obtain ⟨rfl, hd⟩ | hs := hs
    · unfold State.firstLevel
      rw [if_pos hd]
      exact State.dropFirstLevel_gone ..
    · exact (s.firstLevel_cleaned op l).gone hs
  rw [rangeLine_levels s h l hop]
  split
  · obtain ⟨_, _, _, _, _, _, _, _, _, _, hst⟩ := State.sliceLevel_stored (s.firstLevel op l) op l
    rw [hst]
    exact hfirst
  · exact hfirst

theorem rangeLines_gone (h : Hint) (hd : op = .dropr) : ∀ l ∈ ls, GoneAbove (s.rangeLines op sc h ls) l :=
  foldl_sets (I := fun _ => True) (Q := fun l u => GoneAbove u l) (fun _ _ _ _ => trivial) (fun l _ u _ => rangeLine_gone hop u h l (.inl ⟨rfl, hd⟩))
    (fun _ _ l _ u _ hu => rangeLine_gone hop u h l (.inr hu)) trivial

/-! ### The slice after WBACK and DROPR at system scope -/

theorem rangeLine_done (s : State) (h : Hint) (l : Nat) (hsc : sc = .system) {m : Nat} (hs : (m = l ∧ s.linkOpen (128 * l) = true) ∨ (m ≠ l ∧ SliceDone op s m)) :
    SliceDone op (s.rangeLine op sc h l) m := by
  have hfirst := s.firstLevel_cleaned op l
  rw [rangeLine_levels s h l hop, if_pos hsc]
  obtain ⟨rfl, hopen⟩ | ⟨hne, hs⟩ := hs
  · exact State.sliceLevel_done op ((hfirst.kept.link _).trans hopen)
  · exact SliceFrom.done (SliceFrom.trans (hfirst.slice m hne) (State.sliceLevel_sliceFrom _ op hne)) hs

theorem rangeLines_done (h : Hint) (hsc : sc = .system) (hopen : ∀ l ∈ ls, s.linkOpen (128 * l) = true) : ∀ l ∈ ls, SliceDone op (s.rangeLines op sc h ls) l :=
  foldl_sets (I := fun u => ∀ l ∈ ls, u.linkOpen (128 * l) = true) (Q := fun l u => SliceDone op u l)
    (fun l _ u hu m hm => ((rangeLine_kept u h l (hop.imp_right .inl)).link _).trans (hu m hm))
    (fun l hl u hu => rangeLine_done hop u h l hsc (.inl ⟨rfl, hu l hl⟩))
    (fun m _ l hl u hu hm => by
      by_cases hml : m = l
      · exact rangeLine_done hop u h l hsc (.inl ⟨hml, hu l hl⟩)
      · exact rangeLine_done hop u h l hsc (.inr ⟨hml, hm⟩)) hopen

/-! ### The bytes at the homes, below system scope -/

theorem rangeLine_first (s : State) (h : Hint) (l : Nat) (hsc : sc ≠ .system) : s.rangeLine op sc h l = s.firstLevel op l := by
  rw [rangeLine_levels s h l hop, if_neg hsc]

/-- Lines that every bay holds clean change no byte. -/
theorem rangeLines_still (h : Hint) (hsc : sc ≠ .system) (hs : ∀ l ∈ ls, CleanAbove s l) : (s.rangeLines op sc h ls).homeByte = s.homeByte := by
  have hkeeps := foldl_keeps (I := fun u => (∀ l ∈ ls, CleanAbove u l) ∧ u.homeByte = s.homeByte) (f := fun u l => u.rangeLine op sc h l) (xs := ls)
    (fun l hl u hu => by
      rw [rangeLine_first hop u h l hsc]
      have hfirst := u.firstLevel_cleaned op l
      exact ⟨fun m hm => LinesFrom.cleanAbove hfirst.lines (hu.1 m hm), (hfirst.same (hu.1 l hl)).1.trans hu.2⟩) ⟨hs, rfl⟩
  exact hkeeps.2

/-- On the way from the bytes B: bay c of cluster k alone may hold dirty bytes of line v, and holds them yet, or they stand at their home. -/
structure Homing (ls : List Nat) (B : Nat → Nat) (k c : Nat) (v : Line) (a : Nat) (u : State) : Prop where
  sorted  : BaysSorted u
  carries : ∀ l ∈ ls, Carries u l
  but     : CleanBut u k c v.line
  stands  : (u.bayLine k c v.line = some v ∧ u.homeByte a = B a) ∨ (CleanAbove u v.line ∧ u.homeByte a = carriedBytes B v a)

theorem rangeLine_homing {B : Nat → Nat} {k c a l : Nat} {v : Line} {u : State} (h : Hint) (hsc : sc ≠ .system) (hnear : ∀ a ∈ ls, ∀ b ∈ ls, a ≤ b + 32)
    (hl : l ∈ ls) (ha : lineOf a = v.line) (hu : Homing ls B k c v a u) : Homing ls B k c v a (u.rangeLine op sc h l) := by
  obtain ⟨hus, huc, hub, hcase⟩ := hu
  rw [rangeLine_first hop u h l hsc]
  have hfirst := u.firstLevel_cleaned op l
  refine ⟨hfirst.sorted hus, fun i hi => hfirst.carries (huc l hl) (huc i hi) (keysApart_near (hnear i hi l hl) (hnear l hl i hi)),
    LinesFrom.cleanBut hfirst.lines hub, ?_⟩
  by_cases hlv : l = v.line
  · subst hlv
    have hclean := State.firstLevel_clean hus op v.line
    obtain ⟨hpend, hbytes⟩ | ⟨hdone, hbytes⟩ := hcase
    · refine .inr ⟨hclean, ?_⟩
      rw [State.firstLevel_bytes hus op (huc _ hl) hub hpend]
      unfold carriedBytes
      rw [hbytes]
    · exact .inr ⟨hclean, (congrFun (hfirst.same hdone).1 a).trans hbytes⟩
  · have hbyte := hfirst.bytes (huc l hl) a (fun h => hlv (h.symm.trans ha))
    obtain ⟨hpend, hbytes⟩ | ⟨hdone, hbytes⟩ := hcase
    · exact .inl ⟨(hfirst.others k c v.line (Ne.symm hlv)).trans hpend, hbyte.trans hbytes⟩
    · exact .inr ⟨LinesFrom.cleanAbove hfirst.lines hdone, hbyte.trans hbytes⟩

/-- The dirty bytes that one bay alone holds of a line of the piece come to stand at their home. -/
theorem rangeLines_bytes (h : Hint) (hsc : sc ≠ .system) (hs : BaysSorted s) (hnear : ∀ a ∈ ls, ∀ b ∈ ls, a ≤ b + 32) (hcarries : ∀ l ∈ ls, Carries s l)
    {k c : Nat} {v : Line} (hl : v.line ∈ ls) (hv : s.bayLine k c v.line = some v) (hbut : CleanBut s k c v.line) {a : Nat} (ha : lineOf a = v.line) :
    (s.rangeLines op sc h ls).homeByte a = carriedBytes s.homeByte v a := by
  have hend : Homing ls s.homeByte k c v a (s.rangeLines op sc h ls) :=
    foldl_keeps (fun l hl u hu => rangeLine_homing hop h hsc hnear hl ha hu) ⟨hs, hcarries, hbut, .inl ⟨hv, rfl⟩⟩
  obtain ⟨hpend, hbytes⟩ | ⟨-, hbytes⟩ := hend.stands
  · obtain ⟨hset, hmem, -⟩ := bayLine_mem hpend
    rw [hbytes, carriedBytes_clean _ (rangeLines_clean hop h hs _ hl _ hset v hmem rfl)]
  · exact hbytes

end

/-! ### FILL -/

theorem l2Fill_held (s : State) (h : Hint) {l m : Nat} (hc : (homeOf (128 * m)).cached = true) (hkey : KeysApart m l)
    (hs : m = l ∨ s.l2Line m ≠ none) : (s.l2Fill l h).l2Line m ≠ none := by
  have hnum : (s.homeLine l).line = l := s.homeLine_line l
  unfold State.l2Fill
  split
  · rename_i hl
    by_cases hml : m = l
    · have hput := State.l2Line_l2Put s (s.homeLine l) h
      rw [hnum] at hput
      rw [hml, hput]
      simp
    · have hset : (s.l2Put (s.homeLine l) h).l2Set m = s.l2Set m := by
        have hne : l2Key (128 * m) ≠ l2Key (128 * (s.homeLine l).line) := by
          rw [hnum]
          exact hkey hc hl hml
        unfold State.l2Put
        dsimp only
        split <;> · unfold State.l2Set; exact (tgetD_tput ..).trans (if_neg hne)
      unfold State.l2Line
      rw [hset]
      exact hs.resolve_left hml
  · rename_i hl
    exact hs.resolve_left fun hml => hl (hml ▸ hc)

/-- FILL leaves every line of the piece that a slice may hold in its slice. -/
theorem rangeLines_filled (h : Hint) (hnear : ∀ a ∈ ls, ∀ b ∈ ls, a ≤ b + 32) :
    ∀ l ∈ ls, (homeOf (128 * l)).cached = true → (s.rangeLines .fill sc h ls).l2Line l ≠ none :=
  foldl_sets (I := fun _ => True) (Q := fun l u => (homeOf (128 * l)).cached = true → u.l2Line l ≠ none) (f := fun u l => u.rangeLine .fill sc h l)
    (fun _ _ _ _ => trivial) (fun l _ u _ hc => l2Fill_held u h hc (.same l) (.inl rfl))
    (fun m hm l hl u _ hu hc => l2Fill_held u h hc (keysApart_near (hnear m hm l hl) (hnear l hl m hm)) (.inr (hu hc))) trivial

theorem l2Fill_still {l m : Nat} (h : Hint) (hl : Roomy s (128 * l)) : (s.l2Fill l h).homeByte = s.homeByte ∧
    (Roomy s (128 * m) → KeysApart m l → Roomy (s.l2Fill l h) (128 * m)) := by
  have hnum : (s.homeLine l).line = l := s.homeLine_line l
  obtain ⟨hroom, -⟩ := roomy_line hl
  unfold State.l2Fill
  split
  · rename_i hc
    rw [if_pos hc] at hroom
    refine ⟨funext fun a => ?_, fun hm hkey => roomy_l2Put h (by rwa [hnum]) (by rwa [hnum]) hm fun hcm hne => ?_⟩
    · rw [State.homeByte_l2Put h (by rwa [hnum]), hnum]
      split
      · rename_i ha
        rw [← ha, State.homeByte_homeLine]
      · rfl
    · rw [hnum] at hne ⊢
      exact hkey hcm hc hne
  · exact ⟨rfl, fun hm _ => hm⟩

/-- FILL changes no byte where the slices have room for the lines. -/
theorem rangeLines_fill_still (h : Hint) (hnear : ∀ a ∈ ls, ∀ b ∈ ls, a ≤ b + 32) (hroom : ∀ l ∈ ls, Roomy s (128 * l)) :
    (s.rangeLines .fill sc h ls).homeByte = s.homeByte := by
  have hkeeps := foldl_keeps (I := fun u => (∀ l ∈ ls, Roomy u (128 * l)) ∧ u.homeByte = s.homeByte) (f := fun u l => u.rangeLine .fill sc h l) (xs := ls)
    (fun l hl u hu => ⟨fun m hm => (l2Fill_still h (hu.1 l hl)).2 (hu.1 m hm) (keysApart_near (hnear m hm l hl) (hnear l hl m hm)),
      ((l2Fill_still (m := l) h (hu.1 l hl)).1).trans hu.2⟩) ⟨hroom, rfl⟩
  exact hkeeps.2

end Sys2Proof.Machine
end

section
/-! PROOFS. The step of a range command, as the command reports it (for O43). -/

namespace Sys2Proof.Machine
open Sys2Proof.Safety

variable {s : State} {y : Cmd}

/-- A step that gives its command z leaves it so, ended where it has no more to do. -/
theorem works_of_ok {z : Cmd} {u : State} (h : Works s y) (hid : z.id = y.id) (hbegun : z.begun = true) (hended : z.ended = false)
    (hcmds : u.cmds = s.cmds) (hu : engStep y (s, .ok) = .ok (z, (u, .ok))) : ∃ t, exec (.accessPerformed y.id ⟨[], .ok⟩) s = .next t ∧
      (∃ cmds, t = { u with cmds := cmds }) ∧ Left s t y { z with ended := z.finished } := by
  refine ⟨_, exec_accessPerformed h, ?_⟩
  rw [State.runEngine, hu]
  refine ⟨⟨_, rfl⟩, u.onlyLoose { z with begun := true }, ?_⟩
  unfold State.putCmd
  dsimp only
  rw [hcmds]
  have hfinished : ∀ b, Cmd.finished { z with begun := true, loose := b } = z.finished := fun _ => rfl
  have hz : ∀ b, (if (true && Cmd.finished { z with begun := true, loose := b }) = true then
      { z with begun := true, loose := b, ended := true } else { z with begun := true, loose := b }) = { z with ended := z.finished, loose := b } := fun b => by
    rw [hfinished, Bool.true_and]
    cases hf : z.finished
    · rw [if_neg (by decide), ← hbegun, ← hended]
    · rw [if_pos rfl, ← hbegun]
  rw [hz, hid]

/-! ### The piece -/

/-- The first byte of a range command's piece, and the one after its last. -/
def Cmd.pieceLo (y : Cmd) : Nat := max y.a.toNat (y.a.toNat / 4096 * 4096 + 4096 * y.pos)
def Cmd.pieceHi (y : Cmd) : Nat := min (y.a.toNat + y.length) (y.a.toNat / 4096 * 4096 + 4096 * y.pos + 4096)

/-- The lines of n bytes from an address. -/
def linesFrom (pa n : Nat) : List Nat := (List.range ((pa + n - 1) / 128 - pa / 128 + 1)).map (fun i => pa / 128 + i)

theorem linesOf_eq {pa n : Nat} (h : 0 < n) : linesOf pa n = linesFrom pa n := by
  unfold linesOf linesFrom lineOf
  rw [if_neg h.ne']
  exact List.map_congr_left fun i _ => Nat.add_comm ..

theorem linesFrom_near {pa n : Nat} (h : n ≤ 4096) : ∀ a ∈ linesFrom pa n, ∀ b ∈ linesFrom pa n, a ≤ b + 32 := by
  intro a ha b hb
  obtain ⟨i, hi, rfl⟩ := List.mem_map.mp ha
  obtain ⟨j, hj, rfl⟩ := List.mem_map.mp hb
  rw [List.mem_range] at hi hj
  omega

/-- A command that works on the lines of a range. -/
def Ranges (op : EngOp) : Prop := op = .wback ∨ op = .dropr ∨ op = .fill

theorem engStep_range (hop : Ranges y.op) : engStep y = (do engPiece y y.pos; return y.next) := by
  obtain h | h | h := hop <;> simp only [engStep, Cmd.next, h]

theorem finished_range (hop : Ranges y.op) : y.next.finished = decide (y.pieces ≤ y.pos + 1) := by
  obtain h | h | h := hop <;> · unfold Cmd.finished; rw [show y.next.op = _ from h]; rfl

/-- A page piece whose place is found: what it does then. -/
theorem engPiece_at {q : Place} (hm : Mapped s y.cl (s.cmdRing y) (BitVec.ofNat 72 y.pieceLo) false q) (hs : Sound s q.pa 1)
    (hsc : effScope q.pa y.x.ann.sc = y.x.ann.sc) (hlt : y.pieceLo < y.pieceHi) (u : State) (hu : u = s.reach (dieOf y.cl) q.pa) :
    ((∀ l ∈ linesFrom q.pa (y.pieceHi - y.pieceLo), u.rangeBad y.op l = false) → engPiece y y.pos (s, .ok) =
      .ok ((), (u.rangeLines y.op y.x.ann.sc (y.hintAt q.hint) (linesFrom q.pa (y.pieceHi - y.pieceLo)), .ok))) ∧
    ((∃ l ∈ linesFrom q.pa (y.pieceHi - y.pieceLo), u.rangeBad y.op l = true) → ∃ (w : Halt) (pa : Nat), w.code = 8 ∧ engPiece y y.pos (s, .ok) =
      .error (some w, u.storageError .lasting pa (some (dieOf y.cl)) (u.cmdSeq y))) := by
  have hplace := engPlace_at hm hs hsc
  have hlines := linesOf_eq (pa := q.pa) (Nat.sub_pos_of_lt hlt)
  rw [← hu] at hplace
  unfold engPiece
  dsimp only
  simp only [bind, StateT.bind, Except.bind]
  unfold Cmd.pieceLo at hplace
  rw [hplace]
  dsimp only [getS]
  unfold Cmd.pieceLo Cmd.pieceHi at *
  rw [hlines]
  refine ⟨fun hnone => ?_, fun ⟨l, hl, hbad⟩ => ?_⟩
  · rw [List.find?_eq_none.mpr fun l hl => Bool.not_eq_true _ ▸ hnone l hl]
    rfl
  · cases hf : List.find? (u.rangeBad y.op) _ with
    | none => exact absurd hbad (List.find?_eq_none.mp hf l hl)
    | some m => exact ⟨_, _, rfl, rfl⟩

/-- The lines of a command's piece, where it begins at q. -/
def Cmd.pieceLines (y : Cmd) (q : Place) : List Nat := linesFrom q.pa (y.pieceHi - y.pieceLo)

theorem pieceLines_near (y : Cmd) (q : Place) : ∀ a ∈ y.pieceLines q, ∀ b ∈ y.pieceLines q, a ≤ b + 32 :=
  linesFrom_near (by unfold Cmd.pieceHi Cmd.pieceLo; omega)

/-- The place of a piece is known and answered, and the piece is not empty. -/
structure PieceAt (s : State) (y : Cmd) (q : Place) : Prop where
  works  : Works s y
  op     : Ranges y.op
  mapped : Mapped s y.cl (s.cmdRing y) (BitVec.ofNat 72 y.pieceLo) false q
  sound  : Sound s q.pa 1
  scope  : effScope q.pa y.x.ann.sc = y.x.ann.sc
  some_  : y.pieceLo < y.pieceHi

theorem State.badLine_reach (s : State) (d pa l : Nat) : (s.reach d pa).badLine l = s.badLine l := by
  unfold State.badLine State.badAt
  rw [State.reach_badGranules]

theorem State.badLine_bytes {s : State} {l : Nat} (h : s.badLine (128 * l) = false) : ∀ i < 128, s.badAt (128 * l + i) 1 = false := by
  intro i hi
  unfold State.badLine State.badAt at *
  rw [List.any_eq_false] at h ⊢
  intro g hg
  have hg := h g hg
  rw [decide_eq_true_eq] at hg ⊢
  omega

theorem State.errorRecord_cmds (s : State) (source kind : Nat) (die : Option Nat) (loc unit : Nat) (lseq : W64) :
    (s.errorRecord source kind die loc unit lseq).cmds = s.cmds :=
  (RangeKept.of_stored (State.systemBytes_stored ..)).cmds

theorem State.storageError_cmds (s : State) (o : Attempt) (pa : Nat) (die : Option Nat) (lseq : W64) : (s.storageError o pa die lseq).cmds = s.cmds := by
  cases o with
  | ok => rfl
  | corrected => exact State.errorRecord_cmds ..
  | transient => exact State.errorRecord_cmds ..
  | lasting => exact State.errorRecord_cmds ..
  | linkFailed => exact State.errorRecord_cmds ..

/-- FILL ends at bad data in its piece (R304). -/
theorem piece_bad {q : Place} (h : PieceAt s y q) (hop : y.op = .fill) {l : Nat} (hl : l ∈ y.pieceLines q) (hbad : s.badLine (128 * l) = true) :
    Happens s (.accessPerformed y.id ⟨[], .ok⟩) fun t =>
      ∃ z, t.cmds = s.cmds.map (fun v => if v.id = y.id then z else v) ∧ z.ended = true ∧ z.code = 8 := by
  have hrange : (s.reach (dieOf y.cl) q.pa).rangeBad y.op l = true := by
    unfold State.rangeBad
    rw [State.badLine_reach, hbad, hop]
    rfl
  obtain ⟨w, pa, hw, hpiece⟩ := (engPiece_at h.mapped h.sound h.scope h.some_ _ rfl).2 ⟨l, hl, hrange⟩
  refine ⟨_, exec_accessPerformed h.works, ?_⟩
  rw [State.runEngine, engStep_range h.op]
  simp only [bind, StateT.bind, Except.bind]
  rw [hpiece]
  dsimp only
  exact ⟨_, congrArg (List.map _) ((State.storageError_cmds ..).trans (State.reach_cmds ..)), rfl, hw⟩

/-- A piece without bad data is done line by line, and the command goes on. -/
theorem piece_done {q : Place} (h : PieceAt s y q) (hsound : ∀ l ∈ y.pieceLines q, s.badLine (128 * l) = false) :
    ∃ t cmds, exec (.accessPerformed y.id ⟨[], .ok⟩) s = .next t ∧
      t = { (s.reach (dieOf y.cl) q.pa).rangeLines y.op y.x.ann.sc (y.hintAt q.hint) (y.pieceLines q) with cmds := cmds } ∧
      Left s t y { y with pos := y.pos + 1, ended := decide (y.pieces ≤ y.pos + 1) } := by
  have hrange : ∀ l ∈ y.pieceLines q, (s.reach (dieOf y.cl) q.pa).rangeBad y.op l = false := fun l hl => by
    unfold State.rangeBad
    rw [State.badLine_reach, hsound l hl]
    rfl
  have hpiece := (engPiece_at h.mapped h.sound h.scope h.some_ _ rfl).1 hrange
  have hstep : engStep y (s, .ok) =
      .ok (y.next, ((s.reach (dieOf y.cl) q.pa).rangeLines y.op y.x.ann.sc (y.hintAt q.hint) (y.pieceLines q), .ok)) := by
    rw [engStep_range h.op]
    simp only [bind, StateT.bind, Except.bind]
    rw [hpiece]
    rfl
  have hcmds := (rangeLines_kept (sc := y.x.ann.sc) (s.reach (dieOf y.cl) q.pa) (y.hintAt q.hint) (y.pieceLines q) h.op).cmds.trans (State.reach_cmds ..)
  obtain ⟨t, hexec, ⟨cmds, ht⟩, hleft⟩ := works_of_ok (z := y.next) h.works rfl h.works.begun.1 h.works.begun.2 hcmds hstep
  rw [finished_range h.op] at hleft
  exact ⟨t, cmds, hexec, ht, hleft⟩

/-! ### What the piece leaves -/

section
variable {q : Place} {t : State} {cmds : List Cmd} {h : Hint} {d : Nat}

theorem reach_bays_sorted (hs : BaysSorted s) (d pa : Nat) : BaysSorted (s.reach d pa) := by
  unfold BaysSorted
  rw [State.reach_bayLines]
  exact hs

theorem reach_cleanAbove {l : Nat} (hs : CleanAbove s l) (d pa : Nat) : CleanAbove (s.reach d pa) l := by
  unfold CleanAbove
  rw [State.reach_bayLines]
  exact hs

/-- The bytes of a line after WBACK or DROPR below system scope. -/
theorem piece_bytes (hop : y.op = .wback ∨ y.op = .dropr) (hsc : y.x.ann.sc ≠ .system) (hsorted : BaysSorted s)
    (hsound : ∀ l ∈ y.pieceLines q, s.badLine (128 * l) = false) (hroom : ∀ l ∈ y.pieceLines q, Roomy s (128 * l)) {l k c : Nat} {v : Line}
    (hl : l ∈ y.pieceLines q) (hv : s.bayLine k c l = some v) (hbut : CleanBut s k c l) {i : Nat} (hi : i < 128) :
    ((s.reach d q.pa).rangeLines y.op y.x.ann.sc h (y.pieceLines q)).homeRead (128 * l + i) 1 =
      if v.dirty.getLsbD i then v.get i 1 else s.homeRead (128 * l + i) 1 := by
  have hreach := State.reach_answersAs s d q.pa
  have hcarries : ∀ l ∈ y.pieceLines q, Carries (s.reach d q.pa) l := fun l hl =>
    (RangeKept.of_answersAs hreach).carries ⟨hroom l hl, State.badLine_bytes (hsound l hl)⟩ (hreach.roomy (hroom l hl))
  obtain ⟨-, -, rfl⟩ := bayLine_mem hv
  have hv' : (s.reach d q.pa).bayLine k c v.line = some v := by
    unfold State.bayLine State.baySet
    rwa [State.reach_bayLines]
  have hbut' : CleanBut (s.reach d q.pa) k c v.line := by
    unfold CleanBut
    rwa [State.reach_bayLines]
  have hbytes := rangeLines_bytes (sc := y.x.ann.sc) hop h hsc (reach_bays_sorted hsorted d q.pa) (pieceLines_near y q) hcarries hl hv' hbut' (lineOf_add v.line hi)
  refine hbytes.trans ?_
  unfold carriedBytes
  rw [lineOf_add v.line hi, show (128 * v.line + i) % 128 = i by omega, State.reach_homeByte]
  simp only [true_and]
  rfl

end

/-- A range command's piece on a page: what it leaves of the lines, in the caches and at their homes. -/
theorem piece_leaves {q : Place} (hp : PieceAt s y q) (hsound : ∀ l ∈ y.pieceLines q, s.badLine (128 * l) = false ∧ s.linkOpen (128 * l) = true) :
    Happens s (.accessPerformed y.id ⟨[], .ok⟩) fun t => Left s t y { y with pos := y.pos + 1, ended := decide (y.pieces ≤ y.pos + 1) } ∧
      (y.op = .fill → (∀ l ∈ y.pieceLines q, (homeOf (128 * l)).cached = true → t.l2Line l ≠ none) ∧
        ((∀ l ∈ y.pieceLines q, Roomy s (128 * l)) → ∀ a, t.homeRead a 1 = s.homeRead a 1)) ∧
      (y.op = .wback → BaysSorted s → ∀ l ∈ y.pieceLines q, CleanAbove t l ∧
        (y.x.ann.sc = .system → ∀ v, t.l2Line l = some v → v.dirty = 0)) ∧
      (y.op = .dropr → ∀ l ∈ y.pieceLines q, (∀ p ∈ t.bayLines, ∀ v ∈ p.2, v.line ≠ l) ∧ (∀ p ∈ t.uniLines, ∀ v ∈ p.2, v.line ≠ l) ∧
        (y.x.ann.sc = .system → t.l2Line l = none)) ∧
      (y.op ≠ .fill → y.x.ann.sc ≠ .system → ((∀ l ∈ y.pieceLines q, CleanAbove s l) → ∀ a, t.homeRead a 1 = s.homeRead a 1) ∧
        ∀ l ∈ y.pieceLines q, ∀ k b v, BaysSorted s → (∀ i ∈ y.pieceLines q, Roomy s (128 * i)) → s.bayLine k b l = some v → b < 16 →
          (∀ p ∈ s.bayLines, p.1 / 128 ≠ 16 * k + b → ∀ u ∈ p.2, u.line = l → u.dirty = 0) → ∀ i < 128,
            t.homeRead (128 * l + i) 1 = if v.dirty.getLsbD i then v.get i 1 else s.homeRead (128 * l + i) 1) := by
  obtain ⟨t, cmds, hexec, ht, hleft⟩ := piece_done hp fun l hl => (hsound l hl).1
  have hreach := State.reach_answersAs s (dieOf y.cl) q.pa
  have hopen : ∀ l ∈ y.pieceLines q, (s.reach (dieOf y.cl) q.pa).linkOpen (128 * l) = true := fun l hl =>
    (hreach.linkOpen _).trans (hsound l hl).2
  have hnear := pieceLines_near y q
  refine ⟨t, hexec, hleft, ?_⟩
  clear hleft
  subst ht
  refine ⟨fun hop => ?_, fun hop hsorted l hl => ⟨?_, fun hsc => ?_⟩, fun hop l hl => ?_, fun hop hsc => ?_⟩
  · rw [hop]
    refine ⟨rangeLines_filled _ hnear, fun hroom a => ?_⟩
    exact (congrFun (rangeLines_fill_still _ hnear fun l hl => hreach.roomy (hroom l hl)) a).trans (congrFun (State.reach_homeByte ..) a)
  · exact rangeLines_clean (.inl hop) _ (reach_bays_sorted hsorted ..) l hl
  · exact (rangeLines_done (.inl hop) _ hsc hopen l hl).1
  · obtain ⟨hbays, huni⟩ := rangeLines_gone (s := s.reach (dieOf y.cl) q.pa) (sc := y.x.ann.sc) (.inr hop) (y.hintAt q.hint) hop l hl
    exact ⟨hbays, huni, fun hsc => (rangeLines_done (.inr hop) _ hsc hopen l hl).2 hop⟩
  · have hop' : y.op = .wback ∨ y.op = .dropr := hp.op.imp_right fun h => h.resolve_right hop
    refine ⟨fun hclean a => ?_, fun l hl k b v hsorted hroom hv _ hbut i hi => ?_⟩
    · exact (congrFun (rangeLines_still hop' _ hsc fun l hl => reach_cleanAbove (hclean l hl) _ _) a).trans (congrFun (State.reach_homeByte ..) a)
    · exact piece_bytes hop' hsc hsorted (fun l hl => (hsound l hl).1) hroom hl hv hbut hi

end Sys2Proof.Machine
end

section
/-! PROOFS. An engine begins a command: it reads the command's records and changes nothing else (for O43). -/

namespace Sys2Proof.Machine
open Sys2Proof.Safety

/-! ### What an engine's accesses leave of the commands -/

theorem foldl_cmds {α : Type} {f : State → α → State} (hf : ∀ s x, (f s x).cmds = s.cmds) (xs : List α) (s : State) : (xs.foldl f s).cmds = s.cmds :=
  foldl_keeps (I := fun u => u.cmds = s.cmds) (fun x _ u hu => (hf u x).trans hu) rfl

theorem State.bayClean_cmds (s : State) (n b line : Nat) : (s.bayClean n b line).cmds = s.cmds := (s.bayClean_cleaned n b line).kept.cmds

theorem State.l2Clean_cmds (s : State) (n : Nat) : (s.l2Clean n).cmds = s.cmds := (RangeKept.of_stored (s.l2Clean_stored n)).cmds

theorem State.carry_cmds (s : State) (uid : Nat) (ag : Agent) (key : Key) (pm : BitVec 8) (sc : Sys2Proof.Scope) :
    (s.carry uid ag key pm sc).cmds = s.cmds := by
  refine (foldl_cmds (fun u r => ?_) _ s)
  have hbay : ∀ v : State, v.cmds = u.cmds → (if sc = .system then v.l2Clean r.line else v).cmds = u.cmds := fun v hv => by
    split
    · exact (v.l2Clean_cmds r.line).trans hv
    · exact hv
  refine hbay _ ?_
  split
  · split
    · rfl
    · exact State.bayClean_cmds ..
  · rfl

theorem State.readElem_cmds (s : State) (n : Nat) (sc : Sys2Proof.Scope) (pa size : Nat) (h : Hint) : (s.readElem n .engine sc pa size h).2.cmds = s.cmds := by
  unfold State.readElem State.readAt
  split
  · rfl
  · dsimp only [bayOf]
    split
    · rfl
    · split
      · unfold State.systemRead
        dsimp only
        split
        · exact (RangeKept.of_stored (State.l2Put_stored ..)).cmds.trans (State.l2Clean_cmds ..)
        · exact State.l2Clean_cmds ..
      · exact (rangeLine_kept (sc := sc) s h (lineOf pa) (.inr (.inr rfl))).cmds

/-- A translation that has ended so: with the commands as they were; or to wait, its user at a walk. -/
def XlEnds (user : Nat × Nat) (cmds : List Cmd) : Xl × State → Prop
  | (.wait _, t) => ∃ w ∈ t.walks, user ∈ w.users
  | (_, t) => t.cmds = cmds

/-- A translation leaves the commands, and one that has to wait has its user at a walk. -/
theorem State.xlate_ends (s : State) (n : Nat) (space : BitVec 2) (va : W72) (write : Bool) (user : Nat × Nat) :
    XlEnds user s.cmds (s.xlate n space va write user) := by
  have hlook : (s.tlbLook n space va).2.cmds = s.cmds := by
    unfold State.tlbLook
    split
    · rfl
    · split <;> rfl
  unfold State.xlate
  split
  · rfl
  · split
    · rename_i e t ht
      rw [ht] at hlook
      split
      · exact hlook
      · exact hlook
    · rename_i t ht
      rw [ht] at hlook
      dsimp only
      split
      · rename_i w hw
        split
        · exact hlook
        · rename_i hkind
          have hmem := List.mem_of_find?_eq_some hw
          have hsame := List.find?_some hw
          refine ⟨_, List.mem_map_of_mem hmem, ?_⟩
          rw [Bool.and_eq_true] at hsame
          rw [if_pos (by rw [hsame.1, hkind]; rfl)]
          exact List.mem_cons_self
      · exact ⟨_, List.mem_append_right _ (List.mem_singleton_self _), List.mem_singleton_self _⟩

/-! ### How a run may end -/

/-- A run that has ended so: with a result of R, or halted, the commands as they were; or to wait, its user at a walk. -/
def EndsWith (user : Nat × Nat) (cmds : List Cmd) {α : Type} (R : α → Prop) : Except (Option Halt × State) (α × (State × Attempt)) → Prop
  | .ok (v, (t, _)) => R v ∧ t.cmds = cmds
  | .error (some _, t) => t.cmds = cmds
  | .error (none, t) => ∃ w ∈ t.walks, user ∈ w.users

/-- A run of an engine that leaves the commands. -/
structure Reads (user : Nat × Nat) {α : Type} (R : α → Prop) (m : Eng α) : Prop where
  ends : ∀ p : State × Attempt, EndsWith user p.1.cmds R (m p)

variable {user : Nat × Nat} {α β : Type} {R : α → Prop} {Q : β → Prop}

theorem reads_pure {v : α} (h : R v) : Reads user R (pure v : Eng α) := ⟨fun _ => ⟨h, rfl⟩⟩

theorem reads_halt (w : Halt) : Reads user R (halt w : Eng α) := ⟨fun _ => rfl⟩

theorem reads_bind {m : Eng α} {f : α → Eng β} (hm : Reads user R m) (hf : ∀ v, R v → Reads user Q (f v)) : Reads user Q (m >>= f) := by
  refine ⟨fun p => ?_⟩
  have h := hm.ends p
  simp only [bind, StateT.bind, Except.bind]
  cases hr : m p with
  | error e =>
    obtain ⟨e, t⟩ := e
    rw [hr] at h
    cases e with
    | none => exact h
    | some w => exact h
  | ok r =>
    obtain ⟨v, t, o⟩ := r
    rw [hr] at h
    obtain ⟨hv, hcmds⟩ := h
    have hnext := (hf v hv).ends (t, o)
    rw [show (t, o).1.cmds = p.1.cmds from hcmds] at hnext
    exact hnext

theorem reads_getS {f : State → Eng α} (hf : ∀ s, Reads user R (f s)) : Reads user R (getS >>= f) := ⟨fun p => (hf p.1).ends p⟩

theorem reads_ite {c : Prop} [Decidable c] {m k : Eng α} (hm : Reads user R m) (hk : Reads user R k) : Reads user R (if c then m else k) := by
  split
  · exact hm
  · exact hk

theorem reads_knowing (v : W64) {m : Eng α} (hm : Reads user R m) : Reads user R (knowing v m) := by
  refine ⟨fun p => ?_⟩
  have h := hm.ends p
  unfold knowing
  cases hr : m p with
  | error e =>
    obtain ⟨e, t⟩ := e
    rw [hr] at h
    cases e with
    | none => exact h
    | some w => exact h
  | ok r =>
    rw [hr] at h
    exact h

/-- Whatever the result. -/
def Any {α : Type} (_ : α) : Prop := True

theorem reads_all {f : α → Eng β} (hf : ∀ x, Reads user Any (f x)) : ∀ xs, Reads user Any (engAll f xs)
  | [] => reads_pure trivial
  | x :: xs => reads_bind (hf x) fun _ _ => reads_bind (reads_all hf xs) fun _ _ => reads_pure trivial

variable (c : Cmd)

theorem engPlace_reads (n : Nat) (va : W72) (size : Nat) (write : Bool) : Reads c.user Any (engPlace c n va size write) := by
  refine ⟨fun p => ?_⟩
  have hx := p.1.xlate_ends n (p.1.cmdRing c) va write c.user
  unfold engPlace
  dsimp only
  split
  · rename_i hw
    rw [hw] at hx
    exact hx
  · rename_i hw
    rw [hw] at hx
    exact hx
  · rename_i q t hw
    rw [hw] at hx
    have hcmds : ∀ o pa die lseq, (t.storageError o pa die lseq).cmds = p.1.cmds := fun o pa die lseq => (State.storageError_cmds ..).trans hx
    have hcarry : ∀ o pa die lseq, ((t.storageError o pa die lseq).carry c.uid .engine c.key c.x.ann.pm .system).cmds = p.1.cmds :=
      fun o pa die lseq => (State.carry_cmds ..).trans (hcmds ..)
    split
    · exact hcmds ..
    · split
      · split
        · exact (State.storageError_cmds ..).trans (hcmds ..)
        · split
          · exact (State.reach_cmds ..).trans (hcarry ..)
          · exact ⟨trivial, (State.reach_cmds ..).trans (hcarry ..)⟩
      · split
        · exact (State.storageError_cmds ..).trans (hcmds ..)
        · split
          · exact (State.reach_cmds ..).trans (hcmds ..)
          · exact ⟨trivial, (State.reach_cmds ..).trans (hcmds ..)⟩

theorem engRead_reads (n : Nat) (va : W72) (size : Nat) : Reads c.user Any (engRead c n va size) := by
  refine reads_bind (engPlace_reads c n va size false) fun q _ => ⟨fun p => ?_⟩
  exact ⟨trivial, State.readElem_cmds ..⟩

theorem engWords_reads (n : Nat) : ∀ (va : W72) (k : Nat), Reads c.user Any (engWords c n va k)
  | _, 0 => reads_pure trivial
  | _, k + 1 => reads_bind (engRead_reads c n _ 8) fun _ _ => reads_bind (engWords_reads n _ k) fun _ _ => reads_pure trivial

theorem engDesc_reads (va : W72) : Reads c.user Any (engDesc c va) := reads_ite (reads_halt _) (engWords_reads c ..)

theorem engRecord_reads (va : W72) (align words : Nat) : Reads c.user Any (engRecord c va align words) := reads_ite (reads_halt _) (engWords_reads c ..)

theorem engOwners_reads (d : Desc) (bs : List Nat) : Reads c.user Any (engOwners c d bs) := by
  refine reads_ite (reads_pure trivial) (reads_all (fun b => reads_bind (engWords_reads c ..) fun ws _ => ?_) _)
  split
  · exact reads_pure trivial
  · exact reads_halt _

/-- A command with its records, its owner entries, its rows, its plan and its value, and all else as it was. -/
def HasRead (c z : Cmd) : Prop := ∃ ra rb rc oa ob sel plan value,
  z = { c with ra := ra, rb := rb, rc := rc, oa := oa, ob := ob, sel := sel, plan := plan, value := value }

theorem HasRead.refl (c : Cmd) : HasRead c c := ⟨_, _, _, _, _, _, _, _, rfl⟩

theorem engSparse_reads : Reads c.user (HasRead c) (engSparse c) :=
  reads_bind (engRecord_reads c ..) fun _ _ => reads_bind (engDesc_reads c ..) fun _ _ => reads_bind (engDesc_reads c ..) fun _ _ =>
    reads_ite (reads_halt _) (reads_ite (reads_halt _) (reads_ite (reads_halt _) (reads_pure ⟨_, _, _, _, _, _, _, _, rfl⟩)))

theorem engRuns_reads : Reads c.user (HasRead c) (engRuns c) :=
  reads_bind (engRecord_reads c ..) fun _ _ => reads_bind (engRecord_reads c ..) fun _ _ => reads_bind (engRecord_reads c ..) fun _ _ =>
    reads_ite (reads_halt _) (reads_ite (reads_halt _) (reads_pure ⟨_, _, _, _, _, _, _, _, rfl⟩))

theorem engTransfer_reads : Reads c.user (HasRead c) (engTransfer c) := by
  refine reads_bind (engDesc_reads c ..) fun ra _ => reads_bind (engDesc_reads c ..) fun rb _ => ?_
  extract_lets c1 rows masked owners
  have judged (mask : List Nat) : Reads c.user (HasRead c) (owners mask) := by
    refine reads_knowing _ (reads_bind (engOwners_reads _ ..) fun ob _ => reads_bind (engOwners_reads _ ..) fun oa _ => reads_getS fun s => ?_)
    exact reads_ite (reads_halt _) (reads_ite (reads_halt _) (reads_ite (reads_halt _) (reads_pure ⟨_, _, _, _, _, _, _, _, rfl⟩)))
  refine reads_ite (reads_halt _) (reads_ite (reads_bind (reads_all (fun _ => engRead_reads c1 ..) _) fun mask _ => judged mask) ?_)
  exact reads_bind (R := Any) (reads_pure trivial) fun mask _ => judged mask

theorem engBegin_reads : Reads c.user (HasRead c) (engBegin c) := by
  unfold engBegin
  split
  case h_1 => exact engSparse_reads c
  case h_2 | h_3 => exact engRuns_reads c
  case h_4 | h_5 | h_6 => exact reads_ite (reads_halt _) (reads_pure (.refl c))
  case h_7 => exact engTransfer_reads c

/-- A range command begins at once, or is too long (R312). -/
theorem engBegin_range (hop : Ranges c.op) : engBegin c = if 2 ^ 54 < c.length then halt hBadrec else pure c := by
  obtain h | h | h := hop <;> · unfold engBegin; rw [h]

/-! ### The command begins -/

/-- An engine may begin command y. -/
structure MayBegin (s : State) (y : Cmd) : Prop where
  stands : y ∈ s.cmds ∧ ∀ z ∈ s.cmds, z.id = y.id → z = y
  fresh  : y.begun = false ∧ y.ended = false
  few    : (s.cmds.filter (fun z => z.cl = y.cl && z.begun && !z.ended)).length < 8
  first  : ∀ v, s.ctx? y.cl y.slot = some v → ∀ o ∈ v.queue, y.key.op < o.num
  preds  : s.predsDone y.cl y.slot y.uid .engine y.key y.x.ann.pm y.x.ann.sc true = true

variable {s : State} {y : Cmd}

theorem MayBegin.writtenBefore (h : MayBegin s y) : s.writtenBefore y = true := by
  unfold State.writtenBefore State.cmdCtx
  cases hc : s.ctx? y.cl y.slot with
  | none => rfl
  | some v => exact List.all_eq_true.mpr fun o ho => decide_eq_true (h.first v hc o ho)

theorem exec_engineCommandStart (h : MayBegin s y) (out : Attempt) : execEngineCommandStart ⟨y.id, out⟩ s =
    match s.cutCarry y.uid .engine y.key y.x.ann.pm y.x.ann.sc false with
    | some pa => .next ((s.storageError .linkFailed pa (some (dieOf y.cl)) (s.cmdSeq y)).runEngine y out
        (fun _ => halt ⟨0x0A, 0, 0, none, s.lclock (some (dieOf y.cl))⟩))
    | none => .next ((s.carry y.uid .engine y.key y.x.ann.pm y.x.ann.sc).runEngine y out engBegin) := by
  have hfind : s.cmds.find? (fun c => c.id = y.id) = some y :=
    find?_of_alone h.stands.1 (by simp) fun z hz hid => h.stands.2 z hz (by simpa using hid)
  have hfew : decide (8 ≤ (s.cmds.filter (fun z => z.cl = y.cl && z.begun && !z.ended)).length) = false := decide_eq_false (Nat.not_le.mpr h.few)
  unfold execEngineCommandStart
  rw [hfind]
  dsimp only
  rw [h.fresh.1, h.fresh.2, hfew, h.writtenBefore, h.preds]
  exact if_neg (by decide)

/-- Command y has begun as z: its records are read, or it has ended. -/
def BegunAs (y z : Cmd) : Prop := (y.code = 0 → z.code ≠ 0 → z.ended = true) ∧
  z = { y with begun := true, ra := z.ra, rb := z.rb, rc := z.rc, oa := z.oa, ob := z.ob, sel := z.sel, plan := z.plan, value := z.value,
               code := z.code, kind := z.kind, addr := z.addr, clk := z.clk, ended := z.ended, loose := z.loose }

/-- A command that has begun, ended where it has no more to do. -/
def Cmd.started (z : Cmd) (b : Bool) : Cmd := { z with begun := true, loose := b, ended := z.finished || z.ended }

theorem runEngine_ok {u t : State} {out o : Attempt} {f : Cmd → Eng Cmd} {z : Cmd} (h : f y (u, out) = .ok (z, (t, o))) :
    ∃ b, (u.runEngine y out f).cmds = t.cmds.map (fun v => if v.id = z.id then z.started b else v) := by
  refine ⟨t.onlyLoose { z with begun := true }, ?_⟩
  have hput : ∀ b, (if (true && Cmd.finished { z with begun := true, loose := b }) = true then { z with begun := true, loose := b, ended := true }
      else { z with begun := true, loose := b }) = z.started b := fun b => by
    unfold Cmd.started
    rw [show Cmd.finished { z with begun := true, loose := b } = z.finished from rfl]
    cases z.finished <;> rfl
  unfold State.runEngine
  rw [h]
  unfold State.putCmd
  dsimp only
  rw [hput]
  rfl

theorem begunAs_started {z : Cmd} (h : HasRead y z) (b : Bool) : BegunAs y (z.started b) := by
  obtain ⟨_, _, _, _, _, _, _, _, rfl⟩ := h
  exact ⟨fun h0 h1 => absurd h0 h1, rfl⟩

/-- A run that reads a command's records ends with the command begun, or waits for a walk. -/
theorem runEngine_begins {u : State} (hu : u.cmds = s.cmds) (out : Attempt) {f : Cmd → Eng Cmd} (hf : Reads y.user (HasRead y) (f y)) :
    ((u.runEngine y out f).cmds = s.cmds ∧ ∃ w ∈ (u.runEngine y out f).walks, y.user ∈ w.users) ∨
      ∃ z, (u.runEngine y out f).cmds = s.cmds.map (fun v => if v.id = y.id then z else v) ∧ BegunAs y z := by
  have hends := hf.ends (u, out)
  cases hr : f y (u, out) with
  | error e =>
    obtain ⟨e, t⟩ := e
    rw [hr] at hends
    unfold State.runEngine
    rw [hr]
    cases e with
    | none => exact .inl ⟨hu, hends⟩
    | some w => exact .inr ⟨_, congrArg (List.map _) (Eq.trans hends hu), fun _ _ => rfl, rfl⟩
  | ok r =>
    obtain ⟨z, t, o⟩ := r
    rw [hr] at hends
    obtain ⟨hz, hcmds⟩ := hends
    obtain ⟨b, hb⟩ := runEngine_ok hr
    refine .inr ⟨z.started b, ?_, begunAs_started hz b⟩
    have hid : z.id = y.id := by
      obtain ⟨_, _, _, _, _, _, _, _, rfl⟩ := hz
      rfl
    rw [hb, hid, show t.cmds = s.cmds from hcmds.trans hu]

/-- An engine begins a command that it may begin, or waits for a walk (R300, R307). -/
theorem command_starts (h : MayBegin s y) (out : Attempt) : Happens s (.engineCommandStart ⟨y.id, out⟩) fun t =>
    (t.cmds = s.cmds ∧ ∃ w ∈ t.walks, y.user ∈ w.users) ∨
      ∃ z, t.cmds = s.cmds.map (fun v => if v.id = y.id then z else v) ∧ BegunAs y z := by
  have hexec := exec_engineCommandStart h out
  cases hcut : s.cutCarry y.uid .engine y.key y.x.ann.pm y.x.ann.sc false with
  | some pa =>
    rw [hcut] at hexec
    exact ⟨_, hexec, runEngine_begins (State.storageError_cmds ..) out (reads_halt _)⟩
  | none =>
    rw [hcut] at hexec
    exact ⟨_, hexec, runEngine_begins (State.carry_cmds ..) out (engBegin_reads y)⟩

theorem pieces_zero (y : Cmd) : y.pieces ≤ 0 ↔ y.length = 0 := by
  unfold Cmd.pieces
  split
  · simp_all
  · omega

/-- A range command begins without reading anything: it is too long, or empty, or has its pages to do (R312). -/
theorem range_starts (h : MayBegin s y) (hop : Ranges y.op) (hpos : y.pos = 0) (hcut : s.cutCarry y.uid .engine y.key y.x.ann.pm y.x.ann.sc false = none)
    (out : Attempt) :
    (2 ^ 54 < y.length → Happens s (.engineCommandStart ⟨y.id, out⟩) fun t =>
      t.cmds = s.cmds.map (fun v => if v.id = y.id then { y with begun := true, ended := true, code := 0x0C, kind := 0, addr := 0, clk := 0 } else v)) ∧
    (y.length ≤ 2 ^ 54 → Happens s (.engineCommandStart ⟨y.id, out⟩) fun t => ∃ b,
      t.cmds = s.cmds.map (fun v => if v.id = y.id then { y with begun := true, ended := decide (y.length = 0), loose := b } else v)) := by
  have hexec := exec_engineCommandStart h out
  have hcmds := s.carry_cmds y.uid .engine y.key y.x.ann.pm y.x.ann.sc
  rw [hcut] at hexec
  refine ⟨fun hlong => ⟨_, hexec, ?_⟩, fun hfits => ⟨_, hexec, ?_⟩⟩
  · unfold State.runEngine
    rw [engBegin_range y hop, if_pos hlong, ← hcmds]
    rfl
  · have hrun : engBegin y (s.carry y.uid .engine y.key y.x.ann.pm y.x.ann.sc, out) = .ok (y, (s.carry y.uid .engine y.key y.x.ann.pm y.x.ann.sc, out)) := by
      rw [engBegin_range y hop, if_neg (by omega)]
      rfl
    obtain ⟨b, hb⟩ := runEngine_ok hrun
    have hfinished : y.finished = decide (y.pieces ≤ y.pos) := by
      obtain hop | hop | hop := hop <;> · unfold Cmd.finished; rw [hop]
    have hend : (y.finished || y.ended) = decide (y.length = 0) := by
      rw [h.fresh.2, Bool.or_false, hfinished, hpos]
      exact decide_eq_decide.mpr (pieces_zero y)
    refine ⟨b, hb.trans ?_⟩
    rw [hcmds, Cmd.started, hend]

end Sys2Proof.Machine
end

section
/-! PROOFS. A matrix engine accepts an operation (for O43). -/

namespace Sys2Proof.Machine
open Sys2Proof.Safety

variable {s : State} {m : MmaOp}

/-- A supplier of an operation has started the word, holds for it, and waits for no load of what it supplies. -/
structure Supplies (s : State) (m : MmaOp) (p : Nat) (z : Core) : Prop where
  core  : s.core? m.cl (8 * m.bay + p) = some z
  here  : z.left = false
  hold  : z.hold = some m.e
  past  : ∀ w ∈ z.buf, w.e ≠ m.e
  ready : ∀ r ∈ m.regsOf p, r < 256 ∧ Settled s m.cl (8 * m.bay + p) m.uid z (.v (BitVec.ofNat 8 r)) 1

/-- A register that a settled core waits for is not one of an unperformed load's. -/
theorem settled_part {n k uid r : Nat} {x : Core} (hr : r < 256) (h : Settled s n k uid x (.v (BitVec.ofNat 8 r)) 1) {a : Access} (ha : a ∈ s.accs)
    (hn : a.cl = n) (hu : a.uid = uid) (hk : a.agent = .core k) (hd : a.done = false) {f : Fmt} (hf : a.dest = .lanes f false) {p : Part}
    (hp : p ∈ a.parts) {e : Nat} (he : e < regCount f) : p.reg + e ≠ r := by
  have hnot := h a ha hn hu hk hd f hf p hp e he
  rw [BitVec.toNat_ofNat, Nat.mod_eq_of_lt hr] at hnot
  omega

/-- No load is on its way to registers that are settled one by one. -/
theorem filling_of_settled {n k uid : Nat} {x : Core} {rs : List Nat} {tags part : Bool}
    (h : ∀ r ∈ rs, r < 256 ∧ Settled s n k uid x (.v (BitVec.ofNat 8 r)) 1) :
    s.filling n k uid x { regs := rs, latches := [], tags := tags, part := part } = false := by
  unfold State.filling
  rw [List.any_nil, Bool.false_or, List.any_eq_false]
  intro a ha hfills
  simp only [Bool.and_eq_true, decide_eq_true_eq, Bool.not_eq_eq_eq_not, Bool.not_true] at hfills
  obtain ⟨⟨⟨⟨hn, hu⟩, hk⟩, hd⟩, hdest⟩ := hfills
  cases hf : a.dest with
  | lanes f nwb =>
    rw [hf] at hdest
    simp only [Bool.and_eq_true, Bool.not_eq_eq_eq_not, Bool.not_true, List.any_eq_true, Bool.or_eq_true, List.contains_iff_mem] at hdest
    obtain ⟨rfl, p, hp, hreg | ⟨hwide, hreg⟩⟩ := hdest
    · obtain ⟨hr, hs⟩ := h _ hreg
      exact settled_part hr hs ha hn hu hk hd hf hp (e := 0) (by unfold regCount; split <;> decide) rfl
    · obtain ⟨hr, hs⟩ := h _ hreg
      exact settled_part hr hs ha hn hu hk hd hf hp (e := 1) (by rw [regCount, if_pos (Fmt.wide_iff f |>.mp hwide)]; decide) rfl
  | _ =>
    rw [hf] at hdest
    cases hdest

/-- A matrix engine with room accepts an operation that its suppliers have started, once its predecessors are performed (R317). -/
theorem mma_accepted (hm : m ∈ s.mmas) (halone : ∀ z ∈ s.mmas, z.id = m.id → z = m) (hqueued : m.queued = none) (hsup : ∀ p ∈ m.places, ∃ z, Supplies s m p z)
    (hpreds : s.predsDone m.cl m.slot m.uid (.matrix m.bay) ⟨m.op, 0, m.e⟩ m.pm .bay false = true)
    (hroom : (s.mmas.filter (fun z => z.cl = m.cl && z.bay = m.bay && z.queued.isSome)).length < 16) :
    execMmaAccept m.id s = .next { s with mmas := s.mmas.filter (fun z => z.id ≠ m.id) ++ [{ m with queued := some s.now }] } := by
  have hfind : s.mmas.find? (fun z => z.id = m.id) = some m := find?_of_alone hm (by simp) fun z hz hid => halone z hz (by simpa using hid)
  have hfilter : s.mmas.filter (fun z => z.id != m.id) = s.mmas.filter (fun z => z.id ≠ m.id) := List.filter_congr fun z _ => Bool.eq_iff_iff.mpr (by simp)
  unfold execMmaAccept
  rw [hfind]
  dsimp only [MmaOp.coreAt]
  rw [hqueued, if_neg (by decide), if_neg, if_pos, hfilter]
  · simp only [Bool.and_eq_true]
    refine ⟨⟨⟨List.all_eq_true.mpr fun p hp => ?_, List.all_eq_true.mpr fun p hp => ?_⟩, hpreds⟩, decide_eq_true hroom⟩
    · obtain ⟨z, hz⟩ := hsup p hp
      have hpast : z.buf.any (fun w => w.e = m.e) = false := List.any_eq_false.mpr fun w hw => by simpa using hz.past w hw
      rw [hz.core]
      simp [hpast, hz.hold]
    · obtain ⟨z, hz⟩ := hsup p hp
      rw [hz.core]
      dsimp only
      rw [filling_of_settled hz.ready]
      rfl
  · simp only [Bool.not_eq_true, List.any_eq_false]
    intro p hp
    obtain ⟨z, hz⟩ := hsup p hp
    rw [hz.core]
    simp [hz.here]

end Sys2Proof.Machine
end

section
/-! PROOFS. A matrix engine completes a K-step (for O43). -/

namespace Sys2Proof.Machine
open Sys2Proof.Safety

/-! ### The contribution of a block of L6 (R68) -/

theorem brickCodeOf_eq (bs : List Byte) (e : Nat) : stepGroups.brickCodeOf bs e = l6Code bs e := by
  unfold stepGroups.brickCodeOf l6Code
  generalize 8 * (6 * (e / 64)) = g
  have hfold : ∀ (is : List Nat) (c : Nat) (p : Nat → Bool),
      (is.filter p).foldl (fun a i => a + 2 ^ i) c = c + (is.map (fun i => if p i then 2 ^ i else 0)).sum := by
    intro is c p
    induction is generalizing c with
    | nil => simp
    | cons i is ih =>
      rw [List.map_cons, List.sum_cons]
      cases hp : p i with
      | true => rw [List.filter_cons_of_pos hp, List.foldl_cons, ih]; simp [Nat.add_assoc]
      | false => rw [List.filter_cons_of_neg (by simp [hp]), ih]; simp
  rw [hfold, Nat.zero_add]
  rfl

theorem l6Term_eq (a b : Nat) : l6Term a b = l6Pair a b := by
  unfold l6Term l6Pair
  split
  · rfl
  · have hmod : (((a % 32 + b % 32 : Nat) : Int) - 40) % 4 = ((a % 32 + b % 32) % 4 : Nat) := by omega
    have hdiv : ((((a % 32 + b % 32 : Nat) : Int) - 40) / 4 + 10).toNat = (a % 32 + b % 32) / 4 := by omega
    dsimp only
    rw [hmod, hdiv, t6_eq, Nat.mod_mod, Int.toNat_natCast]
    cases a.testBit 5 <;> cases b.testBit 5 <;> rfl

/-- A scaled value is a multiple of what it was. -/
theorem scale_rat {x : Exact} {p : Rat} (h : x.rat = some p) (k : Int) : (x.scale k).rat = some (p * 2 ^ k) := by
  cases x with
  | zero n =>
    cases h
    simp [Exact.scale, Exact.rat]
  | fin n d =>
    cases h
    by_cases hk : k < 0
    · have hscale : (Exact.fin n d).scale k = .fin n (d * 2 ^ (-k).toNat) := if_pos hk
      rw [hscale, two_zpow_of_neg hk, Exact.rat_fin]
      push_cast
      rw [div_mul_eq_div_div, div_eq_mul_inv (_ / _)]
    · have hscale : (Exact.fin n d).scale k = .fin (n * 2 ^ k.toNat) d := if_neg hk
      rw [hscale, two_zpow_of_nonneg (not_lt.mp hk), Exact.rat_fin]
      push_cast
      rw [mul_div_right_comm]
  | _ => cases h

/-- The codes of a block, each with its partner's. -/
theorem blockPairs_eq (x y : List Byte) (blk : Nat) {α : Type} (f : Nat → Nat → α) :
    ((((List.range 24).map (fun k => 24 * blk + k)).map (stepGroups.brickCodeOf x)).zip
      (((List.range 24).map (fun k => 24 * blk + k)).map (stepGroups.brickCodeOf y))).map (fun p => f p.1 p.2) =
      (List.range 24).map (fun i => f (l6Code x (24 * blk + i)) (l6Code y (24 * blk + i))) := by
  rw [List.map_map, List.map_map, List.zip_map', List.map_map]
  refine List.map_congr_left fun i _ => ?_
  simp only [Function.comp_apply, brickCodeOf_eq]

/-- A code of the block in either row says NaN. -/
def BlockNaN (x y : List Byte) (blk : Nat) : Prop := ∃ e, e / 24 = blk ∧ (l6Code x e = 0x20 ∨ l6Code y e = 0x20)

theorem blockNaN_iff (x y : List Byte) (blk : Nat) :
    ((((List.range 24).map (fun k => 24 * blk + k)).map (stepGroups.brickCodeOf x)).zip
      (((List.range 24).map (fun k => 24 * blk + k)).map (stepGroups.brickCodeOf y))).any (fun p => p.1 = 0x20 || p.2 = 0x20) = true ↔
      BlockNaN x y blk := by
  have hmap := congrArg (List.any · id) (blockPairs_eq x y blk (fun a b => decide (a = 0x20) || decide (b = 0x20)))
  rw [List.any_map, List.any_map] at hmap
  refine (Bool.eq_iff_iff.mp hmap).trans ?_
  simp only [List.any_eq_true, List.mem_range, Function.comp_apply, id_eq, Bool.or_eq_true, decide_eq_true_eq, BlockNaN]
  constructor
  · rintro ⟨i, hi, h⟩
    exact ⟨24 * blk + i, by omega, h⟩
  · rintro ⟨e, he, h⟩
    refine ⟨e % 24, Nat.mod_lt _ (by decide), ?_⟩
    rwa [show 24 * blk + e % 24 = e by omega]

theorem blockSum_eq (x y : List Byte) (blk : Nat) :
    (((((List.range 24).map (fun k => 24 * blk + k)).map (stepGroups.brickCodeOf x)).zip
      (((List.range 24).map (fun k => 24 * blk + k)).map (stepGroups.brickCodeOf y))).map (fun p => l6Term p.1 p.2)).foldl (· + ·) 0 = l6Sum x y blk := by
  rw [blockPairs_eq x y blk l6Term, ← List.sum_eq_foldl]
  unfold l6Sum
  simp only [l6Term_eq]

theorem scale_exactInt_ne_nan (i k : Int) : (exactInt i).scale k ≠ .nan := by
  have hrat := scale_rat (exactInt_rat i).2 k
  intro h
  rw [h] at hrat
  cases hrat

/-- A block of two rows contributes what R68 says. -/
theorem l6Block_holds (x y : List Byte) (blk : Nat) :
    L6Block x y blk (l6Block (((List.range 24).map (fun k => 24 * blk + k)).map (stepGroups.brickCodeOf x))
      (((List.range 24).map (fun k => 24 * blk + k)).map (stepGroups.brickCodeOf y)) (x.getD (144 + blk) 0).toNat (y.getD (144 + blk) 0).toNat) := by
  have hff : ∀ z : List Byte, (z.getD (144 + blk) 0).toNat = 0xFF ↔ z.getD (144 + blk) 0 = 0xFF := fun z =>
    ⟨fun h => BitVec.eq_of_toNat_eq h, fun h => by rw [h]; rfl⟩
  unfold l6Block
  rw [blockSum_eq]
  simp only [hff]
  by_cases hscale : x.getD (144 + blk) 0 = 0xFF ∨ y.getD (144 + blk) 0 = 0xFF
  · rw [if_pos hscale]
    exact ⟨⟨fun _ => hscale.imp_right .inl, fun _ => rfl⟩, fun h => absurd rfl h, fun h => absurd rfl h⟩
  · rw [if_neg hscale]
    by_cases hnan : BlockNaN x y blk
    · rw [if_pos ((blockNaN_iff x y blk).mpr hnan)]
      exact ⟨⟨fun _ => .inr (.inr hnan), fun _ => rfl⟩, fun h => absurd rfl h, fun h => absurd rfl h⟩
    · rw [if_neg (mt (blockNaN_iff x y blk).mp hnan)]
      refine ⟨⟨fun h => absurd h (scale_exactInt_ne_nan _ _), fun h => ?_⟩, fun _ => ?_, fun _ hzero => ?_⟩
      · obtain h | h | h := h
        · exact absurd (.inl h) hscale
        · exact absurd (.inr h) hscale
        · exact absurd h hnan
      · rw [scale_rat (exactInt_rat _).2, zpow_add₀ two_ne_zero, zpow_add₀ two_ne_zero, zpow_neg, div_eq_mul_inv]
        simp only [mul_assoc]
        rfl
      · rw [hzero]
        rfl

/-! ### The contributions of a K-step -/

/-- What a K-step of m contributes to an element, from row i of the operand a and row j of b (R67 to R69). -/
def Contributes (m : MmaOp) (a b : List Byte) (i j : Nat) (vs : List Exact) : Prop :=
  if m.fmt = .l6 then vs.length = 4 ∧ ∀ (g : Nat) v, vs[g]? = some v →
    L6Block (rowOf .l6 a (m.step / 2) i) (rowOf .l6 b (m.step / 2) j) (4 * (m.step % 2) + g) v
  else vs = [sumExact ((List.range (kStep m.fmt)).map (fun e =>
    (valueOf m.fmt (eltOf m.fmt (rowOf m.fmt a m.step i) e)).mul (valueOf m.fmt (eltOf m.fmt (rowOf m.fmt b m.step j) e))))]

theorem stepGroups_contributes (m : MmaOp) (a b : List Byte) (i j : Nat) : Contributes m a b i j (stepGroups m.fmt a b m.step i j) := by
  unfold Contributes stepGroups
  by_cases hf : m.fmt = .l6
  · rw [if_pos hf, if_pos hf, hf]
    refine ⟨by simp, fun g v hv => ?_⟩
    rw [List.getElem?_map] at hv
    obtain ⟨k, hk, rfl⟩ := Option.map_eq_some_iff.mp hv
    obtain ⟨-, rfl⟩ := List.getElem?_eq_some_iff.mp hk
    rw [List.getElem_range]
    exact l6Block_holds _ _ _
  · rw [if_neg hf, if_neg hf]
    unfold groupV
    dsimp only
    rw [List.zip_map', List.map_map]
    rfl

/-! ### The step on the tile -/

theorem foldl_tput_range {α : Type} (t : Tab α) (b : Nat) (v : Nat → α) (d : α) (n e : Nat) :
    tgetD ((List.range n).foldl (fun t k => tput t (b + k) (v k)) t) e d = if b ≤ e ∧ e < b + n then v (e - b) else tgetD t e d := by
  induction n with
  | zero => rw [if_neg (by omega)]; rfl
  | succ n ih =>
    rw [List.range_succ, List.foldl_append, List.foldl_cons, List.foldl_nil, tgetD_tput, ih]
    by_cases he : e = b + n
    · rw [if_pos he, if_pos (by omega), he, Nat.add_sub_cancel_left]
    · rw [if_neg he]
      by_cases hin : b ≤ e ∧ e < b + n
      · rw [if_pos hin, if_pos (by omega)]
      · rw [if_neg hin, if_neg (by omega)]

/-- The new value of element n of the tile. -/
def MmaOp.newElem (m : MmaOp) (x : Core) (n : Nat) : W32 :=
  BitVec.ofNat 32 ((stepGroups m.fmt m.a m.b m.step (n / 32) (n % 32)).foldl accumulate (tgetD x.z (1024 * m.z + n) 0).toNat)

theorem mmaStep_eq (x : Core) (m : MmaOp) : x.mmaStep m =
    { x with z := (List.range 1024).foldl (fun t n => tput t (1024 * m.z + n) (m.newElem x n)) x.z, ztag := tput x.ztag m.z .fp32 } := by
  unfold Core.mmaStep MmaOp.newElem
  dsimp only

theorem mmaStep_elem (x : Core) (m : MmaOp) {i j : Nat} (hi : i < 32) (hj : j < 32) :
    (tgetD (x.mmaStep m).z (1024 * m.z + 32 * i + j) 0).toNat =
      ((stepGroups m.fmt m.a m.b m.step i j).foldl accumulate (tgetD x.z (1024 * m.z + 32 * i + j) 0).toNat) % 2 ^ 32 := by
  rw [mmaStep_eq]
  dsimp only
  rw [foldl_tput_range, if_pos (by omega), show 1024 * m.z + 32 * i + j - 1024 * m.z = 32 * i + j by omega]
  unfold MmaOp.newElem
  rw [show (32 * i + j) / 32 = i by omega, show (32 * i + j) % 32 = j by omega, ← Nat.add_assoc, BitVec.toNat_ofNat]

theorem mmaStep_other (x : Core) (m : MmaOp) {e : Nat} (he : e / 1024 ≠ m.z) : tgetD (x.mmaStep m).z e 0 = tgetD x.z e 0 := by
  rw [mmaStep_eq]
  dsimp only
  rw [foldl_tput_range, if_neg (by omega)]

theorem mmaStep_tag (x : Core) (m : MmaOp) : tgetD (x.mmaStep m).ztag m.z .untyped = .fp32 := by
  rw [mmaStep_eq]
  dsimp only
  rw [tgetD_tput_same]

theorem mmaStep_core (x : Core) (m : MmaOp) : x.mmaStep m = { x with z := (x.mmaStep m).z, ztag := (x.mmaStep m).ztag } := by
  rw [mmaStep_eq]

/-- An operation with its operands read. -/
def MmaOp.withRead (m : MmaOp) (s : State) : MmaOp :=
  { m with a := if m.a = [] then s.mmaRead m m.opdA else m.a, b := if m.a = [] then s.mmaRead m m.opdB else m.b }

theorem withRead_eq (m : MmaOp) (s : State) : (if m.read then m else { m with a := s.mmaRead m m.opdA, b := s.mmaRead m m.opdB }) = m.withRead s := by
  unfold MmaOp.withRead MmaOp.read
  by_cases h : m.a = []
  · simp [h]
  · simp [h]

variable {s : State} {m : MmaOp}

/-- What a K-step leaves of its core. -/
structure Steps (s t : State) (m : MmaOp) (x z : Core) : Prop where
  core  : t.core? m.cl m.core = some z
  only  : z = { x with z := z.z, ztag := z.ztag }
  elems : ∃ V : Nat → Nat → List Exact, (∀ i < 32, ∀ j < 32, Contributes m (m.withRead s).a (m.withRead s).b i j (V i j)) ∧
    ∀ i < 32, ∀ j < 32, (tgetD z.z (1024 * m.z + 32 * i + j) 0).toNat =
      ((V i j).foldl accumulate (tgetD x.z (1024 * m.z + 32 * i + j) 0).toNat) % 2 ^ 32
  tiles : ∀ e, e / 1024 ≠ m.z → tgetD z.z e 0 = tgetD x.z e 0
  tag   : tgetD z.ztag m.z .untyped = .fp32
  cores : ∀ e, e ≠ coreKey m.cl m.core → tget t.cores e = tget s.cores e
  mem   : t.mem = s.mem

theorem steps_of_cores {t : State} {x : Core} (ht : t.cores = tput s.cores (coreKey m.cl m.core) (x.mmaStep (m.withRead s))) (hmem : t.mem = s.mem) :
    Steps s t m x (x.mmaStep (m.withRead s)) where
  core := by
    unfold State.core?
    rw [ht, tget_tput_same]
  only := mmaStep_core ..
  elems := ⟨_, fun i _ j _ => stepGroups_contributes m (m.withRead s).a (m.withRead s).b i j, fun i hi j hj => mmaStep_elem x (m.withRead s) hi hj⟩
  tiles e he := mmaStep_other x (m.withRead s) he
  tag := mmaStep_tag x (m.withRead s)
  cores e he := by rw [ht, tget_tput_other _ he]
  mem := hmem

theorem modCtx_kept (s : State) (n slot : Nat) (f : Ctx → Ctx) : (s.modCtx n slot f).cores = s.cores ∧ (s.modCtx n slot f).mem = s.mem := by
  unfold State.modCtx
  split
  · exact ⟨rfl, rfl⟩
  · exact ⟨rfl, rfl⟩

theorem endOp_cores (s : State) (m : MmaOp) (failed : Bool) : (s.endOp m failed).cores = s.cores := (modCtx_kept ..).1
theorem endOp_mem (s : State) (m : MmaOp) (failed : Bool) : (s.endOp m failed).mem = s.mem := (modCtx_kept ..).2

theorem endOp_eq {m : MmaOp} {c : Ctx} (hctx : s.ctx? m.cl m.slot = some c) (huid : c.uid = m.uid) (failed : Bool) :
    s.endOp m failed = (s.dropMma m.id).setCtx m.cl m.slot (c.endPart m.f failed) := by
  have hctx' : (s.dropMma m.id).ctx? m.cl m.slot = some c := hctx
  unfold State.endOp State.modCtx
  rw [hctx']
  dsimp only
  rw [if_pos huid]

/-- A matrix engine completes a K-step of its first operation; after the last, the slot part ends (R318, R319). -/
theorem mma_steps {cl : BitVec 5} {bay : BitVec 4} {x : Core} {c : Ctx}
    (hfind : s.mmas.find? (fun z => z.cl = cl.toNat && z.bay = bay.toNat && z.queued.isSome) = some m)
    (hcore : s.core? m.cl m.core = some x) (hctx : s.ctx? m.cl m.slot = some c) (huid : c.uid = m.uid) :
    Happens s (.mmaStep cl bay) fun t => ∃ z, Steps s t m x z ∧
      (m.step + 1 < m.opdA.steps → t.ctxs = s.ctxs ∧
        t.mmas = s.mmas.map (fun v => if v.id = m.id then { m.withRead s with step := m.step + 1 } else v)) ∧
      (m.opdA.steps ≤ m.step + 1 → t.mmas = s.mmas.filter (fun v => v.id ≠ m.id) ∧ OneCtx s t m.cl m.slot (c.endPart m.f false)) := by
  have hmod : s.modCore m.cl m.core (fun x => x.mmaStep (m.withRead s)) = s.setCore m.cl m.core (x.mmaStep (m.withRead s)) := by
    unfold State.modCore
    rw [hcore]
  have hexec : exec (.mmaStep cl bay) s = .next (if m.opdA.steps ≤ m.step + 1 then
      (s.setCore m.cl m.core (x.mmaStep (m.withRead s))).endOp { m.withRead s with step := m.step + 1 } false
      else { s.setCore m.cl m.core (x.mmaStep (m.withRead s)) with
        mmas := s.mmas.map (fun v => if v.id = m.id then { m.withRead s with step := m.step + 1 } else v) }) := by
    show execMmaStep cl bay s = _
    unfold execMmaStep
    rw [hfind]
    dsimp only
    rw [withRead_eq, show s.modCore (m.withRead s).cl (m.withRead s).core (fun x => x.mmaStep (m.withRead s)) = _ from hmod]
    by_cases hlast : m.opdA.steps ≤ m.step + 1
    · rw [if_pos hlast]
      exact if_pos hlast
    · rw [if_neg hlast]
      exact if_neg hlast
  refine ⟨_, hexec, x.mmaStep (m.withRead s), ?_, fun hlt => ?_, fun hle => ?_⟩
  · split
    · exact steps_of_cores (endOp_cores ..) (endOp_mem ..)
    · exact steps_of_cores rfl rfl
  · rw [if_neg (Nat.not_le.mpr hlt)]
    exact ⟨rfl, rfl⟩
  · rw [if_pos hle]
    have hend : (s.setCore m.cl m.core (x.mmaStep (m.withRead s))).endOp { m.withRead s with step := m.step + 1 } false =
        ((s.setCore m.cl m.core (x.mmaStep (m.withRead s))).dropMma m.id).setCtx m.cl m.slot (c.endPart m.f false) :=
      endOp_eq (s := s.setCore m.cl m.core (x.mmaStep (m.withRead s))) (m := { m.withRead s with step := m.step + 1 }) hctx huid false
    rw [hend]
    refine ⟨List.filter_congr fun z _ => Bool.eq_iff_iff.mpr (by simp), tget_tput_same .., fun k hk => tget_tput_other _ hk _⟩

/-- A part of a slot that ends leaves the registers, and one part fewer. -/
theorem endPart_leaves (c : Ctx) (f : BitVec 6) : (c.endPart f false).gv = c.gv ∧
    ∀ u h, (c.slot f).state = .pending → (c.slot f).work = .mma u h → ((c.endPart f false).slot f).work = .mma (u - 1) h := by
  refine ⟨?_, fun u h hp hw => ?_⟩
  · unfold Ctx.endPart
    dsimp only
    split <;> rfl
  · unfold Ctx.endPart
    dsimp only
    rw [hp, hw]
    dsimp only
    unfold Ctx.slot Ctx.setSlot
    rw [tgetD_tput_same, Bool.or_false]

end Sys2Proof.Machine
end

section
/-! PROOFS. A slot leaves PENDING with its answer, and the bays are brought up to date (for O43). -/

namespace Sys2Proof.Machine
open Sys2Proof.Safety

/-! ### Lines brought up to their homes -/

theorem Line.merge_hint (y : Line) (is : List Nat) (l : Line) : (is.foldl (fun h i => h.put i 1 (y.get i 1) true) l).hint = l.hint := by
  induction is generalizing l with
  | nil => rfl
  | cons i is ih => exact ih _

theorem Line.merge_dirty (y : Line) {is : List Nat} (his : ∀ i ∈ is, i < 128) (l : Line) (j : Nat) :
    (is.foldl (fun h i => h.put i 1 (y.get i 1) true) l).dirty.getLsbD j = (decide (j ∈ is) || l.dirty.getLsbD j) := by
  induction is generalizing l with
  | nil => simp
  | cons i is ih =>
    obtain ⟨hi, his⟩ := List.forall_mem_cons.mp his
    have hput : (l.put i 1 (y.get i 1) true).dirty.getLsbD j = (decide (j = i) || l.dirty.getLsbD j) := by
      have hbit := testBit_putBits l.dirty (2 ^ 1 - 1) (show i + 1 - 1 < 128 by omega) (show i ≤ i + 1 - 1 by omega) j
      refine hbit.trans ?_
      by_cases hj : j = i
      · rw [if_pos (by omega), hj]
        simp
      · rw [if_neg (by omega), decide_eq_false hj, Bool.false_or]
        rfl
    rw [List.foldl_cons, ih his, hput]
    by_cases hj : j = i
    · simp [hj]
    · simp [hj]

theorem Line.renewed_spec (l home : Line) (hline : home.line = l.line) : (l.renewed home).line = l.line ∧ (l.renewed home).dirty = l.dirty ∧
    (l.renewed home).hint = l.hint ∧ ∀ i < 128, (l.renewed home).get i 1 = if l.dirty.getLsbD i then l.get i 1 else home.get i 1 := by
  have his : ∀ i ∈ setBits 128 l.dirty.toNat, i < 128 := fun i hi => (mem_setBits.mp hi).1
  refine ⟨(Line.merge_line ..).trans hline, BitVec.eq_of_getLsbD_eq fun j hj => ?_, Line.merge_hint .., fun i hi => ?_⟩
  · refine (Line.merge_dirty l his _ j).trans ?_
    simp [mem_dirtyBits hj]
  · refine (Line.get_merge l his _ i).trans ?_
    simp only [mem_dirtyBits hi]
    rfl

/-- A set of lines brought up to their homes in s. -/
def State.renewSet (s : State) (set : List Line) : List Line := set.map (fun l => l.renewed (s.homeLine l.line))

theorem bayRenew_tget (s : State) (n b k : Nat) :
    tget (s.bayRenew n b).bayLines k = if k / 128 = 16 * n + b then (tget s.bayLines k).map s.renewSet else tget s.bayLines k := by
  unfold State.bayRenew
  dsimp only
  rw [tget_map_snd s.bayLines (fun p => if p.1 / 128 = 16 * n + b then (p.1, p.2.map (fun l => l.renewed (s.homeLine l.line))) else p)
    (fun p => by split <;> rfl)]
  by_cases hk : k / 128 = 16 * n + b
  · simp only [hk, if_true]
    rfl
  · simp only [hk, if_false]
    exact Option.map_id' ..

theorem foldl_bayRenew (s : State) (n : Nat) {bs : List Nat} (hbs : bs.Nodup) (k : Nat) (u : State) (hu : u = { s with bayLines := u.bayLines }) :
    (bs.foldl (fun s b => s.bayRenew n b) u) = { s with bayLines := (bs.foldl (fun s b => s.bayRenew n b) u).bayLines } ∧
    tget (bs.foldl (fun s b => s.bayRenew n b) u).bayLines k =
      if ∃ b ∈ bs, k / 128 = 16 * n + b then (tget u.bayLines k).map s.renewSet else tget u.bayLines k := by
  induction bs generalizing u with
  | nil => exact ⟨hu, by simp⟩
  | cons b bs ih =>
    obtain ⟨hb, hbs⟩ := List.nodup_cons.mp hbs
    have hnext : u.bayRenew n b = { s with bayLines := (u.bayRenew n b).bayLines } := by
      rw [hu]
      rfl
    have hset : u.renewSet = s.renewSet := by
      rw [hu]
      rfl
    obtain ⟨hframe, hget⟩ := ih hbs _ hnext
    refine ⟨hframe, ?_⟩
    rw [List.foldl_cons, hget, bayRenew_tget, hset]
    by_cases hk : k / 128 = 16 * n + b
    · have hlater : ¬∃ c ∈ bs, k / 128 = 16 * n + c := fun ⟨c, hc, hkc⟩ => hb (by rwa [show b = c by omega])
      rw [if_neg hlater, if_pos hk, if_pos ⟨b, List.mem_cons_self, hk⟩]
    · rw [if_neg hk]
      simp [hk]

/-- The bays of a context brought up to date (R291, R300, R333). -/
theorem refreshBays_fresh {s : State} {n slot : Nat} {c : Ctx} (hctx : s.ctx? n slot = some c) :
    s.refreshBays n slot = { s with bayLines := (s.refreshBays n slot).bayLines } ∧ BaysFresh s (s.refreshBays n slot) n c.bays := by
  have hrun : s.refreshBays n slot = (setBits 16 c.bays.toNat).foldl (fun s b => s.bayRenew n b) s := by
    unfold State.refreshBays
    rw [hctx]
  have hnodup : (setBits 16 c.bays.toNat).Nodup := List.nodup_range.filter _
  rw [hrun]
  refine ⟨(foldl_bayRenew s n hnodup 0 s rfl).1, fun k => ?_⟩
  obtain ⟨hframe, hget⟩ := foldl_bayRenew s n hnodup k s rfl
  have hbay : (∃ b ∈ setBits 16 c.bays.toNat, k / 128 = 16 * n + b) ↔ k / 2048 = n ∧ c.bays.getLsbD (k / 128 % 16) = true := by
    constructor
    · rintro ⟨b, hb, hk⟩
      obtain ⟨hb16, hbit⟩ := mem_setBits.mp hb
      refine ⟨by omega, ?_⟩
      rw [show k / 128 % 16 = b by omega]
      exact hbit
    · rintro ⟨hn, hbit⟩
      exact ⟨k / 128 % 16, mem_setBits.mpr ⟨by omega, hbit⟩, by omega⟩
  generalize (setBits 16 c.bays.toNat).foldl (fun s b => s.bayRenew n b) s = t at hframe hget ⊢
  rw [hget]
  cases hset : tget s.bayLines k with
  | none => simp
  | some set =>
    simp only [hbay]
    split
    · refine ⟨s.renewSet set, rfl, List.length_map .., fun j l hl => ?_⟩
      have hget : (s.renewSet set)[j]? = some (l.renewed (s.homeLine l.line)) := by
        rw [State.renewSet, List.getElem?_map, hl]
        rfl
      obtain ⟨hline, hdirty, hhint, hbytes⟩ := Line.renewed_spec l (s.homeLine l.line) (s.homeLine_line _)
      refine ⟨_, hget, hline, hdirty, hhint, fun i hi => ?_⟩
      have hhome : t.homeRead (128 * l.line + i) 1 = (s.homeLine l.line).get i 1 := by
        rw [hframe]
        unfold State.homeRead
        rw [lineOf_add _ hi, show (128 * l.line + i) % 128 = i by omega]
        rfl
      rw [hbytes i hi, hhome]
    · rfl

end Sys2Proof.Machine
end

section
/-! PROOFS. A slot resolves (for O43). -/

namespace Sys2Proof.Machine
open Sys2Proof.Safety

variable {s : State} {n slot : Nat} {c : Ctx} {f : BitVec 6} {st : SlotState} {code : BitVec 8} {kind : BitVec 4} {addr : W72} {value : W64} {bad : Bool}

/-- A slot's record once it has its answer. -/
def Slot.answered (u : Slot) (st : SlotState) (code : BitVec 8) (kind : BitVec 4) (addr : W72) (value : W64) (bad : Bool) : Slot :=
  { u with state := st, code := code, kind := kind, addr := addr, value := if u.op = 0x56 then 0 else value, work := .none, target := none,
           link := none, defer := none, uncorr := u.uncorr || bad }

/-- A context one of whose slots has its answer, which its target receives. -/
def Ctx.answered (c : Ctx) (f : BitVec 6) (u : Slot) (target : Option (BitVec 6)) (value : W64) (bad : Bool) : Ctx :=
  match target with
  | some g => if tget c.gt g.toNat = some (.slot f) && !bad then { (c.setSlot f u).setG g (BitVec.ofNat 72 value.toNat) with gt := tdel c.gt g.toNat }
    else c.setSlot f u
  | none => c.setSlot f u

theorem answered_only (u : Slot) (target : Option (BitVec 6)) :
    c.answered f u target value bad = { c with slots := tput c.slots f.toNat u, g := (c.answered f u target value bad).g,
                                               gt := (c.answered f u target value bad).gt } := by
  unfold Ctx.answered
  split
  · split <;> rfl
  · rfl

theorem answered_slot (u : Slot) (target : Option (BitVec 6)) (h : BitVec 6) :
    (c.answered f u target value bad).slot h = if h = f then u else c.slot h := by
  rw [answered_only]
  unfold Ctx.slot
  dsimp only
  rw [tgetD_tput]
  simp only [BitVec.toNat_inj]

theorem answered_target (u : Slot) {g : BitVec 6} (hg : tget c.gt g.toNat = some (.slot f)) :
    (c.answered f u (some g) value false).gv g = value.setWidth 72 ∧ tget (c.answered f u (some g) value false).gt g.toNat = none := by
  have hanswer : c.answered f u (some g) value false = { (c.setSlot f u).setG g (BitVec.ofNat 72 value.toNat) with gt := tdel c.gt g.toNat } := by
    unfold Ctx.answered
    dsimp only
    rw [hg]
    exact if_pos (by simp)
  rw [hanswer]
  refine ⟨?_, ?_⟩
  · unfold Ctx.gv Ctx.setG
    dsimp only
    rw [tgetD_tput_same, BitVec.ofNat_toNat]
  · dsimp only
    rw [tget_tdel, if_pos rfl]

theorem answered_other (u : Slot) {target : Option (BitVec 6)} {g : BitVec 6} (hg : target ≠ some g) :
    (c.answered f u target value bad).gv g = c.gv g := by
  unfold Ctx.answered
  split
  · rename_i h
    split
    · have hne : g.toNat ≠ h.toNat := fun he => hg (by rw [BitVec.eq_of_toNat_eq he])
      unfold Ctx.gv Ctx.setG
      dsimp only
      rw [tgetD_tput, if_neg hne]
      rfl
    · rfl
  · rfl

/-- A flight's chamber that a slot was deferred to takes its step (R363). -/
def State.deferTo (s : State) (n launch : Nat) (defer : Option (Nat × Nat)) (bad : Bool) : State :=
  match defer with
  | some (fl, i) => s.modFlight n launch fl (fun y => y.step i bad)
  | none => s

theorem deferTo_frame (s : State) (n launch : Nat) (defer : Option (Nat × Nat)) (bad : Bool) :
    s.deferTo n launch defer bad = { s with flights := (s.deferTo n launch defer bad).flights } := by
  unfold State.deferTo
  split <;> rfl

theorem deferTo_flights (s : State) (n launch : Nat) (defer : Option (Nat × Nat)) (bad : Bool) : match defer with
    | none => (s.deferTo n launch defer bad).flights = s.flights
    | some (fl, i) => (s.deferTo n launch defer bad).flights = s.flights.map (fun z =>
        if z.cl = n ∧ z.launch = launch ∧ z.fl = fl then z.step i bad else z) := by
  cases defer with
  | none => rfl
  | some d =>
    refine List.map_congr_left fun z _ => ?_
    simp only [Bool.and_eq_true, decide_eq_true_eq, and_assoc]

/-- The record of an answered slot that had no link. -/
theorem answered_of_unlinked {u : Slot} (hlink : u.link = none) : u.answered st code kind addr value bad =
    { u with state := st, code := code, kind := kind, addr := addr, value := if u.op = 0x56 then 0 else value, work := .none, target := none,
             defer := none, uncorr := u.uncorr || bad } := by
  unfold Slot.answered
  rw [hlink]

theorem answered_launch (u : Slot) (target : Option (BitVec 6)) : (c.answered f u target value bad).launch = c.launch := by rw [answered_only]
theorem answered_bays (u : Slot) (target : Option (BitVec 6)) : (c.answered f u target value bad).bays = c.bays := by rw [answered_only]

theorem resolveSlot_eq (hctx : s.ctx? n slot = some c) (hlink : (c.slot f).link = none) : s.resolveSlot n slot f st code kind addr value bad =
    ((s.setCtx n slot (c.answered f ((c.slot f).answered st code kind addr value bad) (c.slot f).target value bad)).deferTo n c.launch (c.slot f).defer
      (decide (st ≠ .ok))).refreshBays n slot := by
  rw [← answered_launch (c := c) (f := f) (value := value) (bad := bad) ((c.slot f).answered st code kind addr value bad) (c.slot f).target]
  unfold State.resolveSlot
  rw [hctx]
  dsimp only
  rw [hlink]
  rfl

/-- What slot f of a context c of s has resolved with in t. -/
structure Resolved (s t : State) (n slot : Nat) (c : Ctx) (f : BitVec 6) (st : SlotState) (code : BitVec 8) (kind : BitVec 4) (addr : W72) (value : W64)
    (bad : Bool) (clk : BitVec 48) : Prop where
  frame   : t = { s with ctxs := t.ctxs, flights := t.flights, bayLines := t.bayLines, cmds := t.cmds, walks := t.walks }
  bays    : BaysFresh s t n c.bays
  flights : match (c.slot f).defer with
    | none => t.flights = s.flights
    | some (fl, i) => t.flights = s.flights.map (fun z =>
        if z.cl = n ∧ z.launch = c.launch ∧ z.fl = fl then z.step i (decide (st ≠ .ok)) else z)
  ctx     : ∃ c', OneCtx s t n slot c' ∧ c' = { c with slots := c'.slots, g := c'.g, gt := c'.gt } ∧ (∀ h, h ≠ f → c'.slot h = c.slot h) ∧
    c'.slot f = { c.slot f with state := st, code := code, kind := kind, addr := addr, value := if (c.slot f).op = 0x56 then 0 else value, work := .none,
                                target := none, defer := none, uncorr := (c.slot f).uncorr || bad, clk := clk } ∧
    (∀ g, (c.slot f).target = some g → tget c.gt g.toNat = some (.slot f) → bad = false → c'.gv g = value.setWidth 72 ∧ tget c'.gt g.toNat = none) ∧
    ∀ g, (c.slot f).target ≠ some g → c'.gv g = c.gv g

theorem resolveSlot_resolved (hctx : s.ctx? n slot = some c) (hlink : (c.slot f).link = none) :
    Resolved s (s.resolveSlot n slot f st code kind addr value bad) n slot c f st code kind addr value bad (c.slot f).clk ∧
      (s.resolveSlot n slot f st code kind addr value bad).cmds = s.cmds := by
  rw [resolveSlot_eq hctx hlink]
  generalize hu : (c.slot f).answered st code kind addr value bad = u
  generalize hc' : c.answered f u (c.slot f).target value bad = c'
  generalize hv : (s.setCtx n slot c').deferTo n c.launch (c.slot f).defer (decide (st ≠ .ok)) = v
  have hframe : v = { s.setCtx n slot c' with flights := v.flights } := hv ▸ deferTo_frame ..
  have hvctx : v.ctx? n slot = some c' := by
    rw [hframe]
    exact tget_tput_same ..
  have hbays : c'.bays = c.bays := hc' ▸ answered_bays ..
  obtain ⟨hrefresh, hfresh⟩ := refreshBays_fresh hvctx
  rw [hbays] at hfresh
  generalize v.refreshBays n slot = t at hrefresh hfresh
  have hctxs : t.ctxs = tput s.ctxs (ctxKey n slot) c' := by
    rw [hrefresh, hframe]
    rfl
  refine ⟨⟨?_, ?_, ?_, c', ⟨?_, fun k hk => ?_⟩, ?_, fun h hh => ?_, ?_, fun g hg hgt hbad => ?_, fun g hg => ?_⟩, ?_⟩
  · rw [hrefresh, hframe]
    rfl
  · rw [hframe] at hfresh
    exact hfresh
  · have hflights := deferTo_flights (s.setCtx n slot c') n c.launch (c.slot f).defer (decide (st ≠ .ok))
    rw [hv] at hflights
    rw [hrefresh]
    exact hflights
  · unfold State.ctx?
    rw [hctxs, tget_tput_same]
  · rw [hctxs, tget_tput_other _ hk]
  · rw [← hc', answered_only]
  · rw [← hc', answered_slot, if_neg hh]
  · rw [← hc', answered_slot, if_pos rfl, ← hu, answered_of_unlinked hlink]
  · rw [← hc', hg, hbad]
    exact answered_target u hgt
  · rw [← hc']
    exact answered_other u hg
  · rw [hrefresh, hframe]
    rfl

/-! ### The three answers -/

section
variable {cl : BitVec 5} {sl : BitVec 3}

/-- A slot whose work is an operation of a matrix engine that has ended (R318). -/
theorem slot_answers_mma (hctx : s.ctx? cl.toNat sl.toNat = some c) (hpending : (c.slot f).state = .pending) (hlink : (c.slot f).link = none) {failed : Bool}
    (hwork : (c.slot f).work = .mma 0 failed) : Happens s (.slotResolve cl sl f) fun t =>
      Resolved s t cl.toNat sl.toNat c f (if failed then .error else .ok) (if failed then 9 else 0) 0 0 0 false (c.slot f).clk ∧ t.cmds = s.cmds := by
  have hexec : execSlotResolve cl sl f s =
      .next (s.resolveSlot cl.toNat sl.toNat f (if failed then .error else .ok) (if failed then 9 else 0) 0 0 0 false) := by
    unfold execSlotResolve
    dsimp only
    rw [hctx]
    dsimp only
    rw [hpending, hwork]
    rfl
  exact ⟨_, hexec, resolveSlot_resolved hctx hlink⟩

/-- A slot that has joined another's answer (R336). -/
theorem slot_answers_joined (hctx : s.ctx? cl.toNat sl.toNat = some c) (hpending : (c.slot f).state = .pending) (hlink : (c.slot f).link = none)
    {st : SlotState} {code : BitVec 8} {v : W64} (hwork : (c.slot f).work = .joined st code v) : Happens s (.slotResolve cl sl f) fun t =>
      Resolved s t cl.toNat sl.toNat c f st code 0 0 v false (c.slot f).clk ∧ t.cmds = s.cmds := by
  have hexec : execSlotResolve cl sl f s = .next (s.resolveSlot cl.toNat sl.toNat f st code 0 0 v false) := by
    unfold execSlotResolve
    dsimp only
    rw [hctx]
    dsimp only
    rw [hpending, hwork]
    rfl
  exact ⟨_, hexec, resolveSlot_resolved hctx hlink⟩

/-- The context of a slot whose clock is set. -/
def Ctx.clocked (c : Ctx) (f : BitVec 6) (clk : BitVec 48) : Ctx := c.setSlot f { c.slot f with clk := clk }

theorem clocked_slot (c : Ctx) (f : BitVec 6) (clk : BitVec 48) (h : BitVec 6) :
    (c.clocked f clk).slot h = if h = f then { c.slot f with clk := clk } else c.slot h := by
  unfold Ctx.clocked Ctx.setSlot Ctx.slot
  dsimp only
  rw [tgetD_tput]
  simp only [BitVec.toNat_inj]

/-- The state in which a command's slot resolves: the command is gone, and waits for no walk. -/
def State.withoutCmd (s : State) (y : Cmd) : State := { s with cmds := s.cmds.filter (fun z => z.id ≠ y.id) }.forgetUsers (· = y.user)

/-- A slot that resolves once its clock is set is one that resolves, with that clock. -/
theorem Resolved.of_clocked {t u : State} {y : Cmd} {clk clk' : BitVec 48} (hu : u = (s.withoutCmd y).setCtx n slot (c.clocked f clk'))
    (h : Resolved u t n slot (c.clocked f clk') f st code kind addr value bad clk) : Resolved s t n slot c f st code kind addr value bad clk := by
  obtain ⟨hframe, hbays, hflights, c', ⟨hctx, hothers⟩, honly, hslots, hslot, htarget, hregs⟩ := h
  have hself : (c.clocked f clk').slot f = { c.slot f with clk := clk' } := (clocked_slot ..).trans (if_pos rfl)
  rw [hself] at hflights hslot htarget hregs
  subst hu
  refine ⟨hframe.trans rfl, hbays, hflights, c', ⟨hctx, fun k hk => (hothers k hk).trans (tget_tput_other _ hk _)⟩, honly, fun h hh => ?_, hslot, htarget, hregs⟩
  rw [hslots h hh, clocked_slot, if_neg hh]

/-- A slot whose command has ended (R300, R308). -/
theorem slot_answers_command {y : Cmd} (hctx : s.ctx? cl.toNat sl.toNat = some c) (hpending : (c.slot f).state = .pending) (hlink : (c.slot f).link = none)
    (hy : y ∈ s.cmds) (halone : ∀ z ∈ s.cmds, z.id = y.id → z = y) (hwork : (c.slot f).work = .command y.id) (hended : y.ended = true) :
    Happens s (.slotResolve cl sl f) fun t =>
      Resolved s t cl.toNat sl.toNat c f (if y.cancel then .cancelled else if y.code = 0 then .ok else .error) (if y.cancel then 0 else y.code)
        (if y.cancel = false ∧ y.code = 3 then y.kind else 0) y.addr y.value (y.cancel = false ∧ y.code = 8) y.clk ∧
        t.cmds = s.cmds.filter (fun z => z.id ≠ y.id) := by
  have hfind : s.cmds.find? (fun z => z.id = y.id) = some y := find?_of_alone hy (by simp) fun z hz hid => halone z hz (by simpa using hid)
  have hmod : (s.withoutCmd y).modSlot cl.toNat sl.toNat f (fun z => { z with clk := y.clk }) =
      (s.withoutCmd y).setCtx cl.toNat sl.toNat (c.clocked f y.clk) := by
    have hctx' : (s.withoutCmd y).ctx? cl.toNat sl.toNat = some c := hctx
    unfold State.modSlot State.modCtx
    rw [hctx']
    rfl
  have hself : (c.clocked f y.clk).slot f = { c.slot f with clk := y.clk } := (clocked_slot ..).trans (if_pos rfl)
  have hexec : execSlotResolve cl sl f s = .next (((s.withoutCmd y).setCtx cl.toNat sl.toNat (c.clocked f y.clk)).resolveSlot cl.toNat sl.toNat f
      (if y.cancel then .cancelled else if y.code = 0 then .ok else .error) (if y.cancel then 0 else y.code)
      (if y.cancel = false ∧ y.code = 3 then y.kind else 0) y.addr y.value (y.cancel = false ∧ y.code = 8)) := by
    have hfilter : s.cmds.filter (fun z => z.id != y.id) = s.cmds.filter (fun z => z.id ≠ y.id) :=
      List.filter_congr fun z _ => Bool.eq_iff_iff.mpr (by simp)
    unfold execSlotResolve
    dsimp only
    rw [hctx]
    dsimp only
    rw [hpending, hwork]
    dsimp only
    rw [hfind]
    dsimp only
    unfold State.withoutCmd at hmod ⊢
    rw [hfilter, hended, hmod]
    cases y.cancel with
    | true => rfl
    | false => simp
  have hctx' : ((s.withoutCmd y).setCtx cl.toNat sl.toNat (c.clocked f y.clk)).ctx? cl.toNat sl.toNat = some (c.clocked f y.clk) := tget_tput_same ..
  have hlink' : ((c.clocked f y.clk).slot f).link = none := by rw [hself]; exact hlink
  obtain ⟨hresolved, hcmds⟩ := resolveSlot_resolved hctx' hlink' (st := if y.cancel then .cancelled else if y.code = 0 then .ok else .error)
    (code := if y.cancel then 0 else y.code) (kind := if y.cancel = false ∧ y.code = 3 then y.kind else 0) (addr := y.addr) (value := y.value)
    (bad := y.cancel = false ∧ y.code = 8)
  rw [hself] at hresolved
  exact ⟨_, hexec, Resolved.of_clocked rfl hresolved, hcmds⟩
end

end Sys2Proof.Machine
end

section
/-! PROOFS. Engines begin, step and answer (O43). -/

namespace Sys2Proof.Machine
open Sys2Proof.Safety

theorem mergeGone_eq (y : Cmd) (u v : Nat) (e : Exact) : mergeGone y u v e = ((decide (y.op = .mergeI) && decide (u ≠ v)) ||
    (decide (y.op = .mergeU true) && decide ((runOf y.rc).vfmt ≠ 0 ∧
      round e (valFmt (runOf y.rc).vfmt) y.x.rnd y.x.sat % 2 ^ (Fmt.width (valFmt (runOf y.rc).vfmt) - 1) = 0))) := by
  unfold mergeGone dropsEntry entryCode
  cases decide (y.op = .mergeU true) with
  | true => simp
  | false => simp

theorem merged_ended (y : Cmd) (m : MergeSt) :
    { y with merge := m, value := BitVec.ofNat 64 (if decide (decide (m.i = (runOf y.ra).len ∧ m.j = (runOf y.rb).len) = true ∧ (runOf y.rc).len < m.n) = true
              then m.n else min m.n (runOf y.rc).len),
             code := if decide (decide (m.i = (runOf y.ra).len ∧ m.j = (runOf y.rb).len) = true ∧ (runOf y.rc).len < m.n) = true then 0x07 else y.code,
             ended := decide (m.i = (runOf y.ra).len ∧ m.j = (runOf y.rb).len) } =
      { y.merged m with ended := decide (m.i = (runOf y.ra).len ∧ m.j = (runOf y.rb).len) } := by
  unfold Cmd.merged
  rw [Bool.decide_and, Bool.decide_coe]

/-- Settles O43, clause by clause: the begin of a command, its units, rows, entries and pages, the acceptance and the K-steps of a matrix engine's
operations, and the answers of a slot. -/
theorem enginesBeginStepAndAnswer : Obligations.EnginesBeginStepAndAnswer := by
  unfold Obligations.EnginesBeginStepAndAnswer
  intro s cl sl bay f y m c x n slot with_ works left still
  refine ⟨fun out hy halone hbegun hended hfew hfirst hpreds => ?_, fun hw => ⟨fun o els hdue hW => unit_moves hw hdue hW, ?_, ?_, ?_, ?_⟩,
    fun hm halone hqueued hplaces hpreds hroom => ?_, fun hfind halone hcore hctx huid => ?_, fun hctx hpending hlink => ⟨?_, ?_, ?_⟩⟩
  · have h : MayBegin s y := ⟨⟨hy, halone⟩, ⟨hbegun, hended⟩, hfew, hfirst, hpreds⟩
    refine ⟨command_starts h out, fun hop _ hpos hcut => ⟨fun hlong => ?_, fun hfits => ?_⟩⟩
    · obtain ⟨t, hexec, hcmds⟩ := (range_starts h hop hpos hcut out).1 hlong
      exact ⟨t, hexec, _, hcmds, rfl⟩
    · obtain ⟨t, hexec, b, hcmds⟩ := (range_starts h hop hpos hcut out).2 hfits
      exact ⟨t, hexec, _, hcmds, rfl⟩
  · intro hop first page lo hi pages q hmap hsound hscope hlt lines
    have hp : PieceAt s y q := ⟨hw, hop, hmap, hsound, hscope, hlt⟩
    refine ⟨fun hfill ⟨l, hl, hbad⟩ => piece_bad hp hfill hl hbad, fun hall => piece_leaves hp hall⟩
  · intro set hop hsel r ps hlen hps
    exact pointers_read hw hop hsel hlen hps
  · intro set i cols vals old xs hop hsel hplan hreads _ W hW
    exact row_written hw hop hsel hplan hreads hW
  · intro u v ea eb hop ha hb hea heb inter o e w gone m' over_ full z W hW
    have hgone : gone = mergeGone y u v (mergeValue y u v ea eb) := (mergeGone_eq ..).symm
    have hmerge : m' = y.mergeAfter u v (mergeValue y u v ea eb) := by
      unfold Cmd.mergeAfter
      rw [← hgone]
      rfl
    have hz : z = { y.merged m' with ended := over_ } := merged_ended y m'
    have hwrites : W = mergeWrites y u v (mergeValue y u v ea eb) := by
      unfold mergeWrites
      rw [← hgone]
      rfl
    have hdone := entry_merged hw hop ha hb hea heb (hwrites ▸ hW)
    rw [← hwrites, ← hmerge] at hdone
    rw [hz]
    exact hdone
  · exact ⟨_, mma_accepted hm halone hqueued (fun p hp => by
      obtain ⟨z, hcore, hhere, hhold, hpast, hready⟩ := hplaces p hp
      exact ⟨z, hcore, hhere, hhold, hpast, hready⟩) hpreds hroom, rfl⟩
  · intro a b terms add
    have hfound := List.find?_some hfind
    simp only [Bool.and_eq_true, decide_eq_true_eq] at hfound
    obtain ⟨⟨hcl, -⟩, -⟩ := hfound
    rw [← hcl] at hcore hctx ⊢
    obtain ⟨t, hexec, z, ⟨hz, honly, helems, htiles, htag, hcores, hmem⟩, hmid, hend⟩ := mma_steps hfind hcore hctx huid
    obtain ⟨hregs, hwork⟩ := endPart_leaves c m.f
    refine ⟨t, hexec, z, hz, honly, helems, htiles, htag, hcores, hmem, hmid, fun hlast => ?_⟩
    obtain ⟨hmmas, hone⟩ := hend hlast
    exact ⟨hmmas, _, hone, hregs, hwork⟩
  · intro hy halone hwork hended
    obtain ⟨t, hexec, h, hcmds⟩ := slot_answers_command hctx hpending hlink hy halone hwork hended
    exact ⟨t, hexec, hcmds ▸ h.frame, h.bays, h.flights, h.ctx⟩
  · intro failed hwork
    obtain ⟨t, hexec, h, hcmds⟩ := slot_answers_mma hctx hpending hlink hwork
    exact ⟨t, hexec, hcmds ▸ h.frame, h.bays, h.flights, h.ctx⟩
  · intro st code v hwork
    obtain ⟨t, hexec, h, hcmds⟩ := slot_answers_joined hctx hpending hlink hwork
    exact ⟨t, hexec, hcmds ▸ h.frame, h.bays, h.flights, h.ctx⟩

end Sys2Proof.Machine
end

section
/-! PROOFS. Bytes that the device or the host writes into one line, as the homes then hold them (for O49 and O55). -/

namespace Sys2Proof.Machine
open Sys2Proof Sys2Proof.Safety

/-- Bytes written into one line stand at their home, and no other byte changes. -/
theorem State.deviceBytes_holds {s : State} {pa : Nat} {bs : List Byte} (hroom : Roomy s pa) (hline : InLine pa bs.length) :
    Holds s (s.deviceBytes pa bs) pa bs.length (ofBytes bs) := by
  have hone : s.deviceBytes pa bs = s.homeWrite pa bs.length (ofBytes bs) .normal := State.byLine_inLine s _ hline
  rw [hone]
  refine ⟨?_, fun a ha => ?_⟩
  · have hread := State.homeRead_homeWrite hroom hline (k := 0) (m := bs.length) hline.1 (by omega) .normal
    rw [Nat.add_zero, List.drop_zero, List.take_length] at hread
    rw [hread, Nat.mod_eq_of_lt (ofBytes_lt bs)]
  · exact (congrFun (State.homeByte_homeWrite hroom hline (ofBytes bs) .normal) a).trans (if_neg (by omega))

/-- In the flag window, which no slice holds, what the device records is written as any other bytes are. -/
theorem State.systemBytes_eq_deviceBytes {s : State} {pa : Nat} {bs : List Byte} (hflag : homeOf pa = .flag) (hroom : Roomy s pa)
    (hline : InLine pa bs.length) : s.systemBytes pa bs = s.deviceBytes pa bs := by
  have hcached : (homeOf pa).cached = false := by rw [hflag]; rfl
  have hnone : s.l2Line (lineOf pa) = none := by simpa [hcached] using hroom.1
  have hsystem : s.systemBytes pa bs = s.systemWrite pa bs.length (ofBytes bs) .normal := State.byLine_inLine s _ hline
  have hdevice : s.deviceBytes pa bs = s.homeWrite pa bs.length (ofBytes bs) .normal := State.byLine_inLine s _ hline
  rw [hsystem, hdevice, State.systemWrite_backing _ hnone, State.homeWrite, hcached]
  rfl

/-- A place in the flag window, which a ring's records are counted from. -/
theorem homeOf_flagBase (k : Nat) : homeOf (flagBase + k % 2 ^ 22) = .flag := by
  unfold flagBase
  rw [homeOf, if_neg (by omega), if_neg (by omega), if_pos (by omega)]

end Sys2Proof.Machine
end

section
/-! PROOFS. The command processors: their registers, the entries that they take, and the records that they post (O49). -/

namespace Sys2Proof.Machine
open Sys2Proof Sys2Proof.Safety

/-! ### Registers of a processor (R93) -/

/-- Processor p is now c', and nothing else has changed. -/
structure OnlyCp (s t : State) (p : Nat) (c' : Cp) : Prop where
  here   : t.cp p = c'
  others : ∀ k, k ≠ p → t.cp k = s.cp k
  rest   : t = { s with regs := { s.regs with cps := t.regs.cps } }

theorem State.cp_setCp (s : State) (p : Nat) (c : Cp) (k : Nat) : (s.setCp p c).cp k = if k = p then c else s.cp k := tgetD_tput ..

theorem State.setCp_onlyCp (s : State) (p : Nat) (c : Cp) : OnlyCp s (s.setCp p c) p c :=
  ⟨by rw [State.cp_setCp, if_pos rfl], fun k hk => by rw [State.cp_setCp, if_neg hk], rfl⟩

/-- CPRING is valid: both sizes lie in their range, and both rings in the window. -/
theorem Cp.ringOk_iff (c : Cp) : c.ringOk = true ↔ 6 ≤ slice c.ring 55 52 ∧ slice c.ring 55 52 ≤ 14 ∧ 6 ≤ slice c.ring 59 56 ∧ slice c.ring 59 56 ≤ 14 ∧
    4096 * slice c.ring 9 0 + 64 * c.sqSize ≤ 2 ^ 22 ∧ 4096 * slice c.ring 41 32 + 32 * c.cqSize ≤ 2 ^ 22 := by
  simp only [Cp.ringOk, Bool.and_eq_true, decide_eq_true_eq, and_assoc]

theorem State.writeHalt_resumes {s : State} {p : Nat} (h : (s.cp p).ringOk = true) :
    s.writeHalt p false = s.setCp p { s.cp p with halt := false, halted := decide (s.regs.ident.fwStat ≠ 2) } := by
  simp [State.writeHalt, h]

theorem State.writeHalt_invalid {s : State} {p : Nat} (h : (s.cp p).ringOk = false) :
    s.writeHalt p false = s.setCp p { s.cp p with halt := false, halted := true, cfgErr := true } := by
  simp [State.writeHalt, h]

/-! ### The entry at SQHEAD (R94 to R96) -/

/-- SQHEAD and CQTAIL, within their rings. -/
def Cp.head (c : Cp) : Nat := c.sqHead.toNat % c.sqSize
def Cp.tail (c : Cp) : Nat := c.cqTail.toNat % c.cqSize

/-- The words of the entry at SQHEAD. -/
def State.headEntry (s : State) (p : Nat) : List W64 :=
  toWords 8 (s.homeBytes (flagBase + (4096 * slice (s.cp p).ring 9 0 + 64 * (s.cp p).head) % 2 ^ 22) 64)

/-- The command that an entry makes, refused or not, and the state in which it has been taken. -/
def RingCmd.ofEntry (acc : Nat) (cp : BitVec 2) (e : List W64) (bad : Bool) : RingCmd :=
  { acc := acc, ring := cp, seq := wordAt e 0, tag := wordAt e 6, op := BitVec.ofNat 8 (slice (wordAt e 1) 15 8),
    addr := BitVec.ofNat 72 (slice (wordAt e 1) 7 0 * 2 ^ 64 + (wordAt e 2).toNat), arg0 := wordAt e 3, arg1 := wordAt e 4, bad := bad,
    status := none, errs := 0, target := none }

def State.taking (s : State) (cp : BitVec 2) (cmd : RingCmd) : State :=
  let c := s.cp cp.toNat
  { s.setCp cp.toNat { c with subSeq := c.subSeq + 1, sqHead := BitVec.ofNat 14 ((c.head + 1) % c.sqSize) } with
    accepted := s.accepted + 1, ringCmds := s.ringCmds ++ [cmd] }

section
variable {s : State} {cp : BitVec 2}

theorem execSubmissionExamine_idle (h : (s.cp cp.toNat).halted = true ∨ (s.cp cp.toNat).head = (s.cp cp.toNat).sqTail.toNat % (s.cp cp.toNat).sqSize) :
    exec (.submissionExamine cp) s = .next s := by
  change execSubmissionExamine cp s = _
  unfold execSubmissionExamine
  exact if_pos (by simpa [Cp.head] using h)

variable (hrun : (s.cp cp.toNat).halted = false) (hmore : (s.cp cp.toNat).head ≠ (s.cp cp.toNat).sqTail.toNat % (s.cp cp.toNat).sqSize)
include hrun hmore

/-- A processor that runs and has an entry checks its SEQ, its OP and its fields, and takes it. -/
theorem execSubmissionExamine_runs : exec (.submissionExamine cp) s =
    let c := s.cp cp.toNat
    let e := s.headEntry cp.toNat
    let cmd := RingCmd.ofEntry s.accepted cp e (!entryOk e)
    if wordAt e 0 ≠ c.subSeq then .next (s.setCp cp.toNat { c with seqErr := true, halt := true, halted := true })
    else if cmd.op = opLaunch && decide (4096 ≤ s.launches.length) then .next s
    else if !entryOk e then .next ((s.taking cp cmd).complete s.accepted 2 0)
    else if cmd.op = opLaunch then .next { s.taking cp cmd with launches := s.launches ++ [Launch.accepted s.accepted cp (wordAt e 0)] }
    else .next (s.taking cp cmd) := by
  change execSubmissionExamine cp s = _
  unfold execSubmissionExamine
  exact if_neg (by simpa [hrun, Cp.head] using hmore)

end

/-- A command as it stands once it has completed. -/
def RingCmd.completed (c : RingCmd) (status errs : Nat) : RingCmd := { c with status := some (BitVec.ofNat 8 status), errs := BitVec.ofNat 32 errs }

theorem StandsAlone.complete_eq {s : State} {c : RingCmd} (h : StandsAlone s c) (status errs : Nat) : s.complete c.acc status errs =
    { s with ringCmds := s.ringCmds.map (fun (d : RingCmd) => if d.acc = c.acc then d.completed status errs else d) }.setCp c.ring.toNat
      { s.cp c.ring.toNat with done := (s.cp c.ring.toNat).done ++ [c.acc] } := by
  rw [State.complete, h.find?]
  rfl

theorem RingCmd.ofEntry_op (acc : Nat) (cp : BitVec 2) (e : List W64) (bad : Bool) : (RingCmd.ofEntry acc cp e bad).op.toNat = slice (wordAt e 1) 15 8 := by
  have hlt : slice (wordAt e 1) 15 8 < 2 ^ 8 := Nat.mod_lt _ (by decide)
  exact (BitVec.toNat_ofNat ..).trans (Nat.mod_eq_of_lt hlt)

theorem RingCmd.ofEntry_launch (acc : Nat) (cp : BitVec 2) (e : List W64) (bad : Bool) :
    (RingCmd.ofEntry acc cp e bad).op = opLaunch ↔ slice (wordAt e 1) 15 8 = 1 := by
  rw [← RingCmd.ofEntry_op acc cp e bad, ← BitVec.toNat_inj]
  rfl

theorem State.taking_cp (s : State) (cp : BitVec 2) (cmd : RingCmd) : (s.taking cp cmd).cp cp.toNat =
    { s.cp cp.toNat with subSeq := (s.cp cp.toNat).subSeq + 1,
                         sqHead := BitVec.ofNat 14 (((s.cp cp.toNat).head + 1) % (s.cp cp.toNat).sqSize) } :=
  tgetD_tput_same ..

/-- A command that is taken is the one of its number. -/
theorem State.taking_alone {s : State} (cp : BitVec 2) {cmd : RingCmd} (hacc : cmd.acc = s.accepted) (hnew : ∀ y ∈ s.ringCmds, y.acc < s.accepted) :
    StandsAlone (s.taking cp cmd) cmd := by
  refine ⟨List.mem_append_right _ List.mem_cons_self, fun d hd hdacc => ?_⟩
  obtain hd | hd := List.mem_append.mp hd
  · have := hnew d hd
    omega
  · exact List.mem_singleton.mp hd

/-- A refused entry has been taken and has completed with status 2. -/
theorem State.refused_entry {s : State} (cp : BitVec 2) (e : List W64) (hnew : ∀ y ∈ s.ringCmds, y.acc < s.accepted) :
    let t := (s.taking cp (.ofEntry s.accepted cp e true)).complete s.accepted 2 0
    (RingCmd.ofEntry s.accepted cp e true).completed 2 0 ∈ t.ringCmds ∧ t.accepted = s.accepted + 1 ∧
      t.cp cp.toNat = { (s.taking cp (.ofEntry s.accepted cp e true)).cp cp.toNat with done := (s.cp cp.toNat).done ++ [s.accepted] } := by
  have halone := State.taking_alone (s := s) cp (cmd := .ofEntry s.accepted cp e true) rfl hnew
  have heq := halone.complete_eq 2 0
  change (s.taking cp (.ofEntry s.accepted cp e true)).complete s.accepted 2 0 = _ at heq
  dsimp only
  rw [heq]
  refine ⟨List.mem_map.mpr ⟨_, halone.1, if_pos rfl⟩, rfl, ?_⟩
  have hdone : ((s.taking cp (.ofEntry s.accepted cp e true)).cp cp.toNat).done = (s.cp cp.toNat).done := by rw [State.taking_cp]
  rw [State.cp_setCp]
  exact (if_pos rfl).trans (by rw [← hdone]; rfl)

section
variable {s : State} {cp : BitVec 2} (hrun : (s.cp cp.toNat).halted = false)
  (hmore : (s.cp cp.toNat).head ≠ (s.cp cp.toNat).sqTail.toNat % (s.cp cp.toNat).sqSize)
  (hseq : wordAt (s.headEntry cp.toNat) 0 = (s.cp cp.toNat).subSeq)
  (hlive : slice (wordAt (s.headEntry cp.toNat) 1) 15 8 = 1 → s.launches.length < 4096)
include hrun hmore hseq hlive

/-- An entry in its turn is taken: refused, as a new launch, or as another command. -/
theorem execSubmissionExamine_takes : exec (.submissionExamine cp) s =
    let e := s.headEntry cp.toNat
    let cmd := RingCmd.ofEntry s.accepted cp e (!entryOk e)
    if !entryOk e then .next ((s.taking cp cmd).complete s.accepted 2 0)
    else if slice (wordAt e 1) 15 8 = 1 then
      .next { s.taking cp cmd with launches := s.launches ++ [Launch.accepted s.accepted cp (wordAt e 0)] }
    else .next (s.taking cp cmd) := by
  have hroom (bad : Bool) : ((RingCmd.ofEntry s.accepted cp (s.headEntry cp.toNat) bad).op = opLaunch && decide (4096 ≤ s.launches.length)) = false := by
    by_cases hop : slice (wordAt (s.headEntry cp.toNat) 1) 15 8 = 1
    · simp [hlive hop]
    · simp [RingCmd.ofEntry_launch, hop]
  rw [execSubmissionExamine_runs hrun hmore]
  dsimp only
  rw [if_neg (not_not.mpr hseq), hroom, if_neg (by decide)]
  simp only [RingCmd.ofEntry_launch]

theorem execSubmissionExamine_refuses (hbad : entryOk (s.headEntry cp.toNat) = false) : exec (.submissionExamine cp) s =
    .next ((s.taking cp (RingCmd.ofEntry s.accepted cp (s.headEntry cp.toNat) true)).complete s.accepted 2 0) := by
  rw [execSubmissionExamine_takes hrun hmore hseq hlive]
  simp only [hbad, Bool.not_false, if_true]

theorem execSubmissionExamine_accepts (hok : entryOk (s.headEntry cp.toNat) = true) : exec (.submissionExamine cp) s =
    .next { s.taking cp (RingCmd.ofEntry s.accepted cp (s.headEntry cp.toNat) false) with
      launches := if slice (wordAt (s.headEntry cp.toNat) 1) 15 8 = 1 then
        s.launches ++ [Launch.accepted s.accepted cp (wordAt (s.headEntry cp.toNat) 0)] else s.launches } := by
  rw [execSubmissionExamine_takes hrun hmore hseq hlive]
  simp only [hok, Bool.not_true, Bool.false_eq_true, if_false]
  split <;> rfl

end

/-! ### The record of a completed command (R98) -/

theorem State.reap_handles (s : State) (l : Nat) : (s.reap l).handles = s.handles := by
  unfold State.reap
  split
  · rfl
  · dsimp only
    split <;> rfl

/-- The words of the record of a command, the place in the ring where it goes, and what the processor becomes with it. -/
def Cp.recordOf (c : Cp) (x : RingCmd) : List W64 :=
  [c.cmpSeq + 1, x.seq, x.tag, BitVec.ofNat 64 (x.errs.toNat * 2 ^ 32 + match x.status with | some y => y.toNat | none => 0)]

def Cp.recordSlot (c : Cp) : Nat := flagBase + (4096 * slice c.ring 41 32 + 32 * c.tail) % 2 ^ 22

def Cp.posted (c : Cp) (rest : List Nat) : Cp := { c with cmpSeq := c.cmpSeq + 1, cqTail := BitVec.ofNat 14 ((c.tail + 1) % c.cqSize), done := rest }

theorem Cp.recordOf_words (c : Cp) (x : RingCmd) : (c.recordOf x).map BitVec.toNat =
    [(c.cmpSeq + 1).toNat, x.seq.toNat, x.tag.toNat, x.errs.toNat * 2 ^ 32 + (x.status.getD 0).toNat] := by
  have hstatus : (match x.status with | some y => y.toNat | none => 0) = (x.status.getD 0).toNat := by cases x.status <;> rfl
  have herrs := x.errs.isLt
  have hcode := (x.status.getD 0).isLt
  unfold Cp.recordOf
  rw [hstatus, List.map_cons, List.map_cons, List.map_cons, List.map_cons, List.map_nil, BitVec.toNat_ofNat, Nat.mod_eq_of_lt (by omega)]

/-- The state in which the record of command acc has posted; whether its launch is live still is another matter. -/
def State.posting (s : State) (p acc : Nat) (rest : List Nat) (x : RingCmd) : State :=
  let u := (s.systemBytes (s.cp p).recordSlot (ofWords ((s.cp p).recordOf x))).setCp p ((s.cp p).posted rest)
  { u with ringCmds := u.ringCmds.filter (fun y => y.acc != acc),
           handles := u.handles.map (fun q => (q.1, { q.2 with readers := q.2.readers.filter (· != acc) })) }

section
variable {s : State} {cp : BitVec 2} {acc : Nat} {rest : List Nat} {cmd : RingCmd} (hdone : (s.cp cp.toNat).done = acc :: rest)
  (hfind : s.ringCmds.find? (fun y => y.acc = acc) = some cmd)
include hdone hfind

theorem execCompletionRecordPost_full
    (hfull : ((s.cp cp.toNat).tail + 1) % (s.cp cp.toNat).cqSize = (s.cp cp.toNat).cqHead.toNat % (s.cp cp.toNat).cqSize) :
    exec (.completionRecordPost cp) s = .next s := by
  change execCompletionRecordPost cp s = _
  unfold execCompletionRecordPost
  dsimp only
  rw [hdone]
  dsimp only
  rw [hfind]
  exact if_pos hfull

theorem execCompletionRecordPost_posts
    (hroom : ((s.cp cp.toNat).tail + 1) % (s.cp cp.toNat).cqSize ≠ (s.cp cp.toNat).cqHead.toNat % (s.cp cp.toNat).cqSize) :
    exec (.completionRecordPost cp) s = .next ((s.posting cp.toNat acc rest cmd).reap acc) := by
  change execCompletionRecordPost cp s = _
  unfold execCompletionRecordPost
  dsimp only
  rw [hdone]
  dsimp only
  rw [hfind]
  exact if_neg hroom

end

section
variable (s : State) (p acc : Nat) (rest : List Nat) (x : RingCmd)

theorem State.posting_cp : (s.posting p acc rest x).cp p = (s.cp p).posted rest := tgetD_tput_same ..

theorem State.posting_ringCmds : (s.posting p acc rest x).ringCmds = s.ringCmds.filter (fun y => y.acc ≠ acc) := by
  change (s.systemBytes _ _).ringCmds.filter (fun y => y.acc != acc) = _
  rw [(State.systemBytes_stored ..).ringCmds]
  exact List.filter_congr fun y _ => by rw [bne_eq, decide_not, beq_eq_decide]

/-- No handle keeps the posted command among its readers. -/
theorem State.posting_handles {h : Nat} {y : Handle} (hy : tget (s.posting p acc rest x).handles h = some y) : acc ∉ y.readers := by
  have hmap := tget_map_snd (s.systemBytes (s.cp p).recordSlot (ofWords ((s.cp p).recordOf x))).handles
    (fun q => (q.1, { q.2 with readers := q.2.readers.filter (· != acc) })) (fun _ => rfl) h
  obtain ⟨z, -, rfl⟩ := Option.map_eq_some_iff.mp (hmap.symm.trans hy)
  simp

theorem State.posting_homeRead (pa n : Nat) : ((s.posting p acc rest x).reap acc).homeRead pa n =
    (s.systemBytes (s.cp p).recordSlot (ofWords ((s.cp p).recordOf x))).homeRead pa n := by
  have hmem := State.reap_mem (s.posting p acc rest x) acc
  have hl2 := State.reap_l2 (s.posting p acc rest x) acc
  unfold State.homeRead State.homeLine State.l2Line State.l2Set State.backingLine
  rw [hmem, hl2]
  rfl

end

/-- The record of a command stands in the ring at CQTAIL. -/
theorem State.posting_record {s : State} {p : Nat} (hroom : Roomy s (s.cp p).recordSlot) (acc : Nat) (rest : List Nat) (x : RingCmd) :
    (∀ i < 4, ((s.posting p acc rest x).reap acc).homeRead ((s.cp p).recordSlot + 8 * i) 8 = (((s.cp p).recordOf x).map BitVec.toNat).getD i 0) ∧
    ∀ a, a < (s.cp p).recordSlot ∨ (s.cp p).recordSlot + 32 ≤ a → ((s.posting p acc rest x).reap acc).homeRead a 1 = s.homeRead a 1 := by
  have hlen : (ofWords ((s.cp p).recordOf x)).length = 32 := ofWords_length _
  have hline : InLine (s.cp p).recordSlot 32 := by
    have hslot : (s.cp p).recordSlot % 32 = 0 := by
      unfold Cp.recordSlot flagBase
      omega
    exact ⟨by decide, by omega⟩
  have hbytes : s.systemBytes (s.cp p).recordSlot (ofWords ((s.cp p).recordOf x)) = s.deviceBytes (s.cp p).recordSlot (ofWords ((s.cp p).recordOf x)) :=
    State.systemBytes_eq_deviceBytes (homeOf_flagBase _) hroom (hlen.symm ▸ hline)
  refine ⟨fun i hi => ?_, fun a ha => ?_⟩
  · rw [State.posting_homeRead, hbytes]
    exact State.homeRead_deviceBytes (ws := (s.cp p).recordOf x) hroom hline (List.getElem?_eq_some_iff.mpr ⟨hi, (List.getD_eq_getElem _ 0 hi).symm⟩)
  · rw [State.posting_homeRead, hbytes]
    exact (State.deviceBytes_holds hroom (hlen.symm ▸ hline)).2 a (by rwa [hlen])

/-! ### O49 -/

/-- Settles O49, clause by clause: the writes of a processor's registers, the entry that it takes, and the record that it posts. -/
theorem processorsTakeEntriesAndPostRecords : Obligations.ProcessorsTakeEntriesAndPostRecords := by
  unfold Obligations.ProcessorsTakeEntriesAndPostRecords
  intro s cp x acc rest cmd c becomes sq cq head tail fits e op taken
  have hbecomes {i : Instr} {c' : Cp} (h : exec i s = .next (s.setCp cp.toNat c')) : becomes i c' :=
    ⟨_, h, (s.setCp_onlyCp cp.toNat c').here, (s.setCp_onlyCp cp.toNat c').others, rfl⟩
  have htaken {bad : Bool} {t : State} {y : RingCmd} (hacc : t.accepted = s.accepted + 1) (hsub : (t.cp cp.toNat).subSeq = c.subSeq + 1)
      (hhead : (t.cp cp.toNat).sqHead = BitVec.ofNat 14 ((c.head + 1) % c.sqSize)) (hmem : t.mem = s.mem) (hy : y ∈ t.ringCmds)
      (hof : ∃ status errs, y = { RingCmd.ofEntry s.accepted cp e bad with status := status, errs := errs }) : taken bad t := by
    obtain ⟨status, errs, rfl⟩ := hof
    exact ⟨hacc, hsub, by rw [hhead]; exact BitVec.toNat_ofNat .., hmem, _, hy, rfl, rfl, rfl, rfl, RingCmd.ofEntry_op s.accepted cp e bad, rfl, rfl, rfl, rfl⟩
  refine ⟨fun hhalt => hbecomes (if_pos hhalt), fun hrun => ⟨s, if_neg (by rw [hrun]; decide), rfl⟩, hbecomes rfl, hbecomes rfl, hbecomes rfl,
    fun hfits => hbecomes (congrArg _ (State.writeHalt_resumes (c.ringOk_iff.mpr hfits))),
    fun hbad => hbecomes (congrArg _ (State.writeHalt_invalid (Bool.eq_false_iff.mpr fun h => hbad (c.ringOk_iff.mp h)))),
    fun hidle => ⟨s, execSubmissionExamine_idle hidle, rfl⟩, fun hrun hmore => ⟨fun hseq => ?_, fun hseq hlive hnew => ⟨fun hbad => ?_, fun hok => ?_⟩⟩,
    fun hdone hfind hunwatched => ⟨fun hfull => ⟨s, execCompletionRecordPost_full hdone hfind hfull, rfl⟩, fun hmore hroom => ?_⟩⟩
  · exact hbecomes ((execSubmissionExamine_runs hrun hmore).trans (if_pos hseq))
  · refine ⟨_, execSubmissionExamine_refuses hrun hmore hseq hlive hbad, ?_⟩
    obtain ⟨hmem, hacc, hcp⟩ := s.refused_entry cp e hnew
    rw [State.taking_cp] at hcp
    exact ⟨htaken hacc (congrArg Cp.subSeq hcp) (congrArg Cp.sqHead hcp) (State.complete_mem ..) hmem ⟨_, _, rfl⟩, State.complete_launches ..,
      congrArg Cp.done hcp, _, hmem, rfl, rfl⟩
  · refine ⟨_, execSubmissionExamine_accepts hrun hmore hseq hlive hok, ?_⟩
    have hcp := s.taking_cp cp (.ofEntry s.accepted cp e false)
    have hsub := congrArg Cp.subSeq hcp
    have hhead := congrArg Cp.sqHead hcp
    have hdone := congrArg Cp.done hcp
    exact ⟨htaken rfl hsub hhead rfl (List.mem_append_right _ List.mem_cons_self) ⟨none, 0, rfl⟩, hdone, fun hop => if_neg hop,
      fun hop => ⟨_, if_pos hop, rfl, rfl, rfl, rfl, rfl, rfl, rfl, rfl⟩⟩
  · obtain ⟨hrecord, hothers⟩ := State.posting_record hroom acc rest cmd
    have hcp : ((s.posting cp.toNat acc rest cmd).reap acc).cp cp.toNat = c.posted rest := by
      rw [State.cp, State.reap_cps]
      exact s.posting_cp cp.toNat acc rest cmd
    refine ⟨_, execCompletionRecordPost_posts hdone hfind hmore, hcp, ?_, fun i hi => (hrecord i hi).trans ?_, hothers, fun h y hy => ?_⟩
    · rw [State.reap_ringCmds, State.posting_ringCmds]
    · rw [Cp.recordOf_words]
    · rw [State.reap_handles] at hy
      exact s.posting_handles cp.toNat acc rest cmd hy

end Sys2Proof.Machine
end

section
/-! PROOFS. Which dies the work distributor may give a launch, and in what order (for O48). -/

namespace Sys2Proof.Machine
open Sys2Proof Sys2Proof.Safety

/-! ### Dies that are eligible (R112, R113) -/

/-- Those with p or q are those with p, and those with q alone. -/
theorem length_filter_or {α : Type} (p q : α → Bool) (xs : List α) :
    (xs.filter fun x => p x || q x).length = (xs.filter p).length + (xs.filter fun x => q x && !p x).length := by
  induction xs with
  | nil => rfl
  | cons x xs ih =>
    simp only [List.filter_cons]
    cases p x <;> cases q x <;> simp [ih] <;> omega

theorem State.claims_eq (s : State) (d : Nat) : s.claims d =
    (s.launches.filter (fun x => x.dieset.getLsbD d || x.change.any (fun h => h.add && h.die = d))).length := by
  rw [length_filter_or]
  refine congrArg (s.holders d + ·) (congrArg List.length (List.filter_congr fun x _ => ?_))
  cases x.change <;> rfl

theorem State.eligible_eq (s : State) (l : Launch) (d : Nat) : s.eligible l d = eligibleFor s l d := by
  rw [State.eligible, State.claims_eq]
  rfl

theorem Launch.past_eq (s : State) (l : Launch) : l.past s.now = pastCap s l := by
  unfold Launch.past pastCap
  cases l.waitAt with
  | none => rfl
  | some t => rw [Option.any_some]

/-- A launch past the cap, considered before another, that could use a die. -/
theorem State.takes_first_eq (s : State) (l w : Launch) (d : Nat) :
    (w.past s.now && decide (w.acc ≠ l.acc) && w.first_ l && s.eligible w d) = (pastCap s w && (w.acc != l.acc) && considered w l && eligibleFor s w d) := by
  rw [State.eligible_eq, Launch.past_eq, decide_not]
  rfl

theorem State.grantable_eq (s : State) (l : Launch) : s.grantable l = mayHold s l := by
  rw [State.grantable, mayHold, State.eligibleDies, List.filter_filter]
  refine List.filter_congr fun d _ => ?_
  rw [State.eligible_eq, Bool.and_comm, List.any_filter, List.not_any_eq_all_not]
  simp only [State.takes_first_eq]

theorem mem_mayHold {s : State} {l : Launch} {d : Nat} (h : d ∈ mayHold s l) : d < 8 := List.mem_range.mp (List.mem_of_mem_filter h)

theorem mayHold_nodup (s : State) (l : Launch) : (mayHold s l).Nodup := List.nodup_range.filter _

theorem State.mem_eligibleDies {s : State} {l : Launch} {d : Nat} : d ∈ s.eligibleDies l ↔ d < 8 ∧ eligibleFor s l d = true := by
  rw [State.eligibleDies, List.mem_filter, List.mem_range, State.eligible_eq]

theorem State.eligibleDies_nodup (s : State) (l : Launch) : (s.eligibleDies l).Nodup := List.nodup_range.filter _

/-! ### Preference (R113) -/

theorem State.prefers_iff (s : State) (a b : Nat) : s.prefers a b = true ↔ Preferred s a b := by
  have hrank (d : Nat) : s.dieRank d = s.effRank (4 * d) + s.effRank (4 * d + 1) + s.effRank (4 * d + 2) + s.effRank (4 * d + 3) := by
    change 0 + s.effRank (4 * d + 0) + _ + _ + _ = _
    rw [Nat.zero_add]
    rfl
  have hheld (d : Nat) : s.holders d = (s.launches.filter (fun x => x.dieset.getLsbD d)).length := rfl
  unfold State.prefers Preferred
  simp only [← hrank, ← hheld]
  split
  · rw [decide_eq_true_eq]
    omega
  · split
    · rw [decide_eq_true_eq]
      omega
    · rw [decide_eq_true_eq]
      omega

theorem Preferred.trans {s : State} {a b c : Nat} (hab : Preferred s a b) (hbc : Preferred s b c) : Preferred s a c := by
  simp only [Preferred] at *
  omega

theorem Preferred.asymm {s : State} {a b : Nat} (hab : Preferred s a b) : ¬Preferred s b a := by
  simp only [Preferred] at *
  omega

theorem preferred_of_not {s : State} {a b : Nat} (hne : a ≠ b) (hab : ¬Preferred s a b) : Preferred s b a := by
  simp only [Preferred] at *
  omega

theorem State.insertDie_perm (s : State) (d : Nat) (es : List Nat) : (s.insertDie d es).Perm (d :: es) := by
  induction es with
  | nil => exact .refl _
  | cons e es ih =>
    rw [State.insertDie]
    split
    · exact .refl _
    · exact (ih.cons e).trans (.swap d e es)

theorem State.insertDie_pairwise {s : State} {d : Nat} {es : List Nat} (h : es.Pairwise (Preferred s)) (hd : d ∉ es) :
    (s.insertDie d es).Pairwise (Preferred s) := by
  induction es with
  | nil => exact List.pairwise_singleton ..
  | cons e es ih =>
    obtain ⟨hde, hd⟩ := not_or.mp (List.mem_cons.not.mp hd)
    obtain ⟨he, hes⟩ := List.pairwise_cons.mp h
    rw [State.insertDie]
    split
    · rename_i hprefers
      have hfirst := (s.prefers_iff d e).mp hprefers
      exact h.cons (List.forall_mem_cons.mpr ⟨hfirst, fun x hx => Preferred.trans hfirst (he x hx)⟩)
    · rename_i hprefers
      have hlater := (s.prefers_iff d e).not.mp hprefers
      refine (ih hes hd).cons fun x hx => ?_
      obtain rfl | hx := List.mem_cons.mp ((s.insertDie_perm d es).mem_iff.mp hx)
      · exact preferred_of_not hde hlater
      · exact he x hx

/-- Dies in their order of preference are those dies, each before all that it is preferred to. -/
theorem State.inPreference_perm (s : State) (ds : List Nat) : (s.inPreference ds).Perm ds := by
  induction ds with
  | nil => exact .refl _
  | cons d ds ih => exact (s.insertDie_perm d _).trans (ih.cons d)

theorem State.inPreference_pairwise (s : State) {ds : List Nat} (h : ds.Nodup) : (s.inPreference ds).Pairwise (Preferred s) := by
  induction ds with
  | nil => exact .nil
  | cons d ds ih =>
    obtain ⟨hd, hds⟩ := List.nodup_cons.mp h
    exact State.insertDie_pairwise (ih hds) fun hmem => hd ((s.inPreference_perm ds).mem_iff.mp hmem)

/-- The die that is preferred to all others comes first. -/
theorem State.inPreference_head? {s : State} {ds : List Nat} (h : ds.Nodup) {d : Nat} (hd : d ∈ ds) (hfirst : ∀ e ∈ ds, e ≠ d → Preferred s d e) :
    (s.inPreference ds).head? = some d := by
  have hperm := s.inPreference_perm ds
  have hsorted := s.inPreference_pairwise h
  generalize s.inPreference ds = ps at hperm hsorted ⊢
  cases ps with
  | nil => exact absurd (hperm.mem_iff.mpr hd) List.not_mem_nil
  | cons e es =>
    obtain ⟨he, -⟩ := List.pairwise_cons.mp hsorted
    refine congrArg some (not_not.mp fun hne => ?_)
    have hmem : d ∈ es := (List.mem_cons.mp (hperm.mem_iff.mpr hd)).resolve_left (Ne.symm hne)
    exact Preferred.asymm (he d hmem) (hfirst e (hperm.mem_iff.mp List.mem_cons_self) hne)

/-- The n dies that come first are preferred to every other. -/
theorem State.inPreference_take {s : State} {ds : List Nat} (h : ds.Nodup) (n : Nat) {e f : Nat} (he : e ∈ (s.inPreference ds).take n)
    (hf : f ∈ ds) (hout : f ∉ (s.inPreference ds).take n) : Preferred s e f := by
  have hsorted := s.inPreference_pairwise h
  have hmem := (s.inPreference_perm ds).mem_iff.mpr hf
  rw [← List.take_append_drop n (s.inPreference ds)] at hsorted hmem
  exact (List.pairwise_append.mp hsorted).2.2 e he f ((List.mem_append.mp hmem).resolve_left hout)

end Sys2Proof.Machine
end

section
/-! PROOFS. A launch found after it has changed, the dies that a grant gives it, and what they are dealt (for O48). -/

namespace Sys2Proof.Machine
open Sys2Proof Sys2Proof.Safety

/-! ### One launch changed -/

/-- A launch that is changed under its own number is found as it became, and the others as they were. -/
theorem State.oneLaunch_modLaunch {s : State} {acc : Nat} {l : Launch} (hl : s.launch? acc = some l) {f : Launch → Launch}
    (hf : ∀ x : Launch, x.acc = acc → (f x).acc = acc) : OneLaunch s (s.modLaunch acc f) acc (f l) := by
  have hkeeps (x : Launch) : (if x.acc = acc then f x else x).acc = x.acc := by
    split
    · rename_i hx
      rw [hf x hx, hx]
    · rfl
  have hfound (k : Nat) : (s.modLaunch acc f).launch? k = (s.launch? k).map (fun x => if x.acc = acc then f x else x) := by
    simp only [State.launch?, State.modLaunch, List.find?_map, Function.comp_def, hkeeps]
  refine ⟨?_, fun k hk => ?_⟩
  · rw [hfound, hl, Option.map_some, if_pos (State.launch?_acc hl)]
  · rw [hfound]
    cases hx : s.launch? k with
    | none => rfl
    | some x => rw [Option.map_some, if_neg (State.launch?_acc hx ▸ hk)]

theorem State.launch?_mem {s : State} {k : Nat} {x : Launch} (h : s.launch? k = some x) : x ∈ s.launches := List.mem_of_find?_eq_some h

/-! ### The set of the dies granted -/

/-- The dies of a list as a grant's die set. -/
def setOf (ds : List Nat) : BitVec 8 := BitVec.ofNat 8 (((List.range 8).filter (fun d => ds.contains d)).foldl (fun a d => a + 2 ^ d) 0)

theorem getLsbD_setOf (ds : List Nat) {d : Nat} (hd : d < 8) : (setOf ds).getLsbD d = decide (d ∈ ds) := by
  obtain ⟨hlt, hbits⟩ := powers_where (fun d => ds.contains d) 8
  rw [setOf, BitVec.getLsbD, BitVec.toNat_ofNat, Nat.mod_eq_of_lt hlt, hbits d hd, List.contains_eq_mem]

/-- The dies below 8 of a list without repetition are as many as the list has. -/
theorem length_filter_contains {ds : List Nat} (h : ds.Nodup) (hlt : ∀ d ∈ ds, d < 8) :
    ((List.range 8).filter (fun d => ds.contains d)).length = ds.length := by
  refine ((List.perm_ext_iff_of_nodup (List.nodup_range.filter _) h).mpr fun d => ?_).length_eq
  rw [List.mem_filter, List.mem_range, List.contains_eq_mem, decide_eq_true_eq]
  exact ⟨And.right, fun hd => ⟨hlt d hd, hd⟩⟩

theorem dieCount_setOf {ds : List Nat} (h : ds.Nodup) (hlt : ∀ d ∈ ds, d < 8) : dieCount (setOf ds) = ds.length := by
  rw [← length_filter_contains h hlt, dieCount]
  refine congrArg List.length (List.filter_congr fun d hd => ?_)
  rw [getLsbD_setOf ds (List.mem_range.mp hd), List.contains_eq_mem]

/-! ### The dies are told (R296) -/

theorem State.tell_lclockF (s : State) (ds : List Nat) : (ds.foldl (fun s d => s.message none (some d)) s).lclockF = s.lclockF := by
  induction ds generalizing s with
  | nil => rfl
  | cons d ds ih => exact ih _

theorem State.tell_die (s : State) {ds : List Nat} {k : Nat} (h : k ∉ ds) : (ds.foldl (fun s d => s.message none (some d)) s).die k = s.die k := by
  induction ds generalizing s with
  | nil => rfl
  | cons d ds ih =>
    obtain ⟨hk, hrest⟩ := not_or.mp (List.mem_cons.not.mp h)
    exact (ih _ hrest).trans (State.die_message s none (some d) k fun heq => hk (Option.some.inj heq).symm)

theorem max_succ_ofNat {w : Nat} (a b : BitVec w) : (if a.toNat < b.toNat then b else a) + 1 = BitVec.ofNat w (max a.toNat b.toNat + 1) := by
  have h : max a.toNat b.toNat = (if a.toNat < b.toNat then b else a).toNat := by
    split <;> omega
  rw [h, BitVec.ofNat_add, BitVec.ofNat_toNat, BitVec.setWidth_eq]
  rfl

/-- Each of some dies that the front die tells once sets its logical counter. -/
theorem State.tell_hears (s : State) {ds : List Nat} (h : ds.Nodup) {d : Nat} (hd : d ∈ ds) :
    Hears s (ds.foldl (fun s d => s.message none (some d)) s) none (some d) := by
  induction ds generalizing s with
  | nil => exact absurd hd List.not_mem_nil
  | cons e ds ih =>
    obtain ⟨he, hds⟩ := List.nodup_cons.mp h
    obtain rfl | hd := List.mem_cons.mp hd
    · have hlater : ((d :: ds).foldl (fun s d => s.message none (some d)) s).die d = (s.message none (some d)).die d := State.tell_die _ he
      have hset : ((s.message none (some d)).die d).lclock = (if s.lclockF.toNat < (s.die d).lclock.toNat then (s.die d).lclock else s.lclockF) + 1 := by
        rw [State.message, State.setLclock, State.die_setDie, if_pos rfl]
        rfl
      exact (congrArg Die.lclock hlater).trans (hset.trans (max_succ_ofNat ..))
    · have hsame : (s.message none (some e)).die d = s.die d :=
        State.die_message s none (some e) d fun heq => he (Option.some.inj heq ▸ hd)
      refine (ih (s.message none (some e)) hds hd).trans ?_
      change BitVec.ofNat 48 (max s.lclockF.toNat ((s.message none (some e)).die d).lclock.toNat + 1) = _
      rw [hsame]
      rfl

theorem State.tell_rest (s : State) (ds : List Nat) : ∃ dies, ds.foldl (fun s d => s.message none (some d)) s = { s with dies := dies } := by
  induction ds generalizing s with
  | nil => exact ⟨_, rfl⟩
  | cons d ds ih => exact ih _

/-! ### Barges dealt (R113, R123) -/

theorem Launch.addTo_entries (l : Launch) (e : BitVec 44) (d : Nat) (q : Queued) : (l.addTo e d q).entries = l.entries := by
  rw [Launch.entries, Launch.addTo, List.map_map]
  refine List.map_congr_left fun b _ => ?_
  rw [Function.comp_apply]
  split <;> rfl

theorem Launch.mem_onDie {l : Launch} {d : Nat} {q : Queued} : q ∈ l.onDie d ↔ ∃ b ∈ l.basins, q ∈ tgetD b.berths d [] := List.mem_flatMap

theorem Basin.mem_modBerth (b : Basin) (d k : Nat) (q x : Queued) :
    x ∈ tgetD (b.modBerth d (fun xs => xs ++ [q])).berths k [] ↔ x ∈ tgetD b.berths k [] ∨ k = d ∧ x = q := by
  rw [Basin.modBerth, tgetD_tput]
  split
  · rename_i hk
    rw [List.mem_append, List.mem_singleton, hk]
    exact or_congr_right ⟨fun h => ⟨rfl, h⟩, And.right⟩
  · rename_i hk
    exact ⟨.inl, fun h => h.resolve_right fun hq => hk hq.1⟩

/-- What a die's berths hold stays there as one more is queued. -/
theorem Launch.mem_onDie_addTo {l : Launch} {k : Nat} {x : Queued} (hx : x ∈ l.onDie k) (e : BitVec 44) (d : Nat) (q : Queued) :
    x ∈ (l.addTo e d q).onDie k := by
  obtain ⟨b, hb, hx⟩ := Launch.mem_onDie.mp hx
  refine Launch.mem_onDie.mpr ⟨_, List.mem_map_of_mem hb, ?_⟩
  split
  · exact (b.mem_modBerth d k q x).mpr (.inl hx)
  · exact hx

/-- A barge of a basin that the launch has is queued in that die's berth. -/
theorem Launch.addTo_mem_onDie {l : Launch} {e : BitVec 44} (he : e ∈ l.entries) (d : Nat) (q : Queued) : q ∈ (l.addTo e d q).onDie d := by
  obtain ⟨b, hb, rfl⟩ := List.mem_map.mp he
  refine Launch.mem_onDie.mpr ⟨_, List.mem_map_of_mem hb, ?_⟩
  rw [if_pos rfl]
  exact (b.mem_modBerth d d q q).mpr (.inr ⟨rfl, rfl⟩)

theorem Launch.mem_entries_of_basin? {l : Launch} {e : BitVec 44} {b : Basin} (h : l.basin? e = some b) : e ∈ l.entries :=
  List.mem_map.mpr ⟨b, List.mem_of_find?_eq_some h, by simpa using List.find?_some h⟩

theorem Launch.withBasin_of_mem {l : Launch} {e : BitVec 44} (h : e ∈ l.entries) : (l.withBasin e).getD l = l := by
  obtain ⟨b, hb⟩ := Launch.exists_basin? h
  rw [Launch.withBasin, hb]
  rfl

/-- What is dealt stands in the berths of the dies that it is dealt to, and only basins change. -/
theorem Launch.dealAll_deals {dies : List Nat} (l : Launch) (i : Nat) {qs : List Queued} (hqs : ∀ q ∈ qs, bargeEntry q.barge ∈ l.entries) :
    (∃ basins, Launch.dealAll dies l i qs = { l with basins := basins }) ∧ (∀ k, ∀ x ∈ l.onDie k, x ∈ (Launch.dealAll dies l i qs).onDie k) ∧
    (dies ≠ [] → ∀ q ∈ qs, ∃ d ∈ dies, q ∈ (Launch.dealAll dies l i qs).onDie d) := by
  induction qs generalizing l i with
  | nil => exact ⟨⟨l.basins, rfl⟩, fun _ _ hx => hx, fun _ q hq => absurd hq List.not_mem_nil⟩
  | cons q qs ih =>
    obtain ⟨hq, hqs⟩ := List.forall_mem_cons.mp hqs
    have hstep : Launch.dealAll dies l i (q :: qs) =
        Launch.dealAll dies (l.addTo (bargeEntry q.barge) (dies.getD (i % dies.length) 0) q) (i + 1) qs := by
      rw [Launch.dealAll, Launch.withBasin_of_mem hq]
    obtain ⟨⟨basins, hrest⟩, hkept, hdealt⟩ := ih (l.addTo (bargeEntry q.barge) (dies.getD (i % dies.length) 0) q) (i + 1)
      (by rwa [Launch.addTo_entries])
    rw [hstep]
    refine ⟨⟨basins, hrest⟩, fun k x hx => hkept k x (Launch.mem_onDie_addTo hx ..), fun hdies => List.forall_mem_cons.mpr ⟨?_, hdealt hdies⟩⟩
    have hlt : i % dies.length < dies.length := Nat.mod_lt _ (List.length_pos_iff.mpr hdies)
    refine ⟨dies.getD (i % dies.length) 0, ?_, hkept _ _ (Launch.addTo_mem_onDie hq ..)⟩
    rw [List.getD_eq_getElem _ _ hlt]
    exact List.getElem_mem hlt

end Sys2Proof.Machine
end

section
/-! PROOFS. Aging, grants, adds and withdrawals of the work distributor (O48). -/

namespace Sys2Proof.Machine
open Sys2Proof Sys2Proof.Safety

/-! ### Aging (R108) -/

theorem Queued.aged_eq (q : Queued) (now : Nat) : q.aged now =
    if q.level < 7 ∧ q.since + 2 ^ 20 ≤ now then { q with level := q.level + 1, since := q.since + 2 ^ 20, head := false } else q := by
  unfold Queued.aged ageCycles
  simp only [Bool.and_eq_true, decide_eq_true_eq]

/-! ### Grants (R113, R119) -/

/-- A launch as it is granted some dies, before it is dealt what waits. -/
def Launch.granting (l : Launch) (set : BitVec 8) : Launch :=
  { l with dieset := set, diegen := if l.granted then l.diegen + 1 else 0, granted := true, waitAt := none, capped := false, first := [], parked := [] }

/-- The dies that a grant gives launch l, in ascending d. -/
def State.grantDies (s : State) (l : Launch) : List Nat := (s.inPreference (mayHold s l)).take l.maxDies
def State.grantOrder (s : State) (l : Launch) : List Nat := (List.range 8).filter (fun d => (s.grantDies l).contains d)

/-- The launch with its dies and the barges dealt to them. -/
def State.grantedLaunch (s : State) (l : Launch) : Launch :=
  Launch.dealAll (s.grantOrder l) (l.granting (setOf (s.grantDies l))) 0 (l.first ++ l.parked)

section
variable {s : State} {l : Launch}

theorem State.mem_grantDies {d : Nat} (h : d ∈ s.grantDies l) : d ∈ mayHold s l := (s.inPreference_perm _).mem_iff.mp (List.mem_of_mem_take h)

theorem State.grantDies_nodup : (s.grantDies l).Nodup :=
  ((s.inPreference_perm _).nodup_iff.mpr (mayHold_nodup s l)).sublist (List.take_sublist ..)

theorem State.grantDies_length : (s.grantDies l).length = min l.maxDies (mayHold s l).length := by
  rw [State.grantDies, List.length_take, (s.inPreference_perm _).length_eq]

theorem State.mem_grantOrder {d : Nat} : d ∈ s.grantOrder l ↔ d ∈ s.grantDies l := by
  rw [State.grantOrder, List.mem_filter, List.mem_range, List.contains_eq_mem, decide_eq_true_eq]
  exact ⟨And.right, fun h => ⟨mem_mayHold (State.mem_grantDies h), h⟩⟩

/-- The launch with its dies: only its basins are not said. -/
theorem State.grantedLaunch_deals (hbasins : ∀ q ∈ l.first ++ l.parked, ∃ b, l.basin? (bargeEntry q.barge) = some b) :
    (∃ basins, s.grantedLaunch l = { l.granting (setOf (s.grantDies l)) with basins := basins }) ∧
    (s.grantDies l ≠ [] → ∀ q ∈ l.first ++ l.parked, ∃ d ∈ s.grantDies l, q ∈ (s.grantedLaunch l).onDie d) := by
  have hentries : ∀ q ∈ l.first ++ l.parked, bargeEntry q.barge ∈ (l.granting (setOf (s.grantDies l))).entries := fun q hq => by
    obtain ⟨b, hb⟩ := hbasins q hq
    exact Launch.mem_entries_of_basin? hb
  obtain ⟨hrest, -, hdealt⟩ := Launch.dealAll_deals (dies := s.grantOrder l) _ 0 hentries
  refine ⟨hrest, fun hdies q hq => ?_⟩
  obtain ⟨d, hd⟩ := List.exists_mem_of_ne_nil _ hdies
  obtain ⟨e, he, hmem⟩ := hdealt (List.ne_nil_of_mem (State.mem_grantOrder.mpr hd)) q hq
  exact ⟨e, State.mem_grantOrder.mp he, hmem⟩

variable {acc : Nat} (hl : s.launch? acc = some l) (hwaits : l.waits = true) (henough : l.minDies ≤ (mayHold s l).length) (hnone : NoneShort s)
  (hfirst : ∀ v ∈ s.launches, v.acc ≠ acc → considered v l = true → v.waits = true → (mayHold s v).length < v.minDies)
include hl hwaits henough hnone hfirst

/-- A launch whose turn it is gets its dies. -/
theorem execDieGrant_grants : exec (.dieGrant acc) s = .next ((((s.grantOrder l).foldl (fun s d => s.message none (some d)) s).modLaunch acc
    (fun _ => s.grantedLaunch l)).traceLaunch (s.grantedLaunch l) 0 (setOf (s.grantDies l)).toNat) := by
  have hcan (v : Launch) : s.canGrant v = (v.waits && decide (v.minDies ≤ (mayHold s v).length)) := by rw [State.canGrant, State.grantable_eq]
  have hmine : s.canGrant l = true := by rw [hcan, hwaits, decide_eq_true henough]; rfl
  have hacc := State.launch?_acc hl
  have hearlier : (s.launches.any fun w => w.acc ≠ l.acc && w.first_ l && s.canGrant w) = false := by
    refine List.any_eq_false.mpr fun v hv hall => ?_
    simp only [hcan, Bool.and_eq_true, decide_eq_true_eq] at hall
    obtain ⟨⟨hne, hbefore⟩, hvwaits, hvenough⟩ := hall
    exact Nat.not_lt.mpr hvenough (hfirst v hv (hacc ▸ hne) hbefore hvwaits)
  have hshort : s.launches.any s.restorable = false := List.any_eq_false.mpr fun v hv => Bool.eq_false_iff.mp (hnone v hv)
  change execDieGrant acc s = _
  unfold execDieGrant
  rw [hl]
  dsimp only
  rw [hmine, hearlier, hshort, if_neg (by decide), State.grantable_eq]
  rfl

end

/-! ### Adds and withdrawals (R115 to R117) -/

section
variable {s : State} {acc : Nat} {l : Launch}

theorem State.oneLaunch_requested (hl : s.launch? acc = some l) (d : Nat) (add : Bool) (ms : List Nat) :
    OneLaunch s (s.modLaunch acc (fun x => { x with change := some ⟨d, add, ms, []⟩ })) acc { l with change := some ⟨d, add, ms, []⟩ } :=
  State.oneLaunch_modLaunch hl (f := fun x => { x with change := some ⟨d, add, ms, []⟩ }) fun _ h => h

/-- While the boundary set has members, a request changes the launch alone. -/
theorem State.requestChange_waits (hl : s.launch? acc = some l) (d : Nat) (add : Bool) (hmembers : (s.launchCtxs acc).map (fun p => p.2.2.uid) ≠ []) :
    s.requestChange acc d add = s.modLaunch acc (fun x => { x with change := some ⟨d, add, (s.launchCtxs acc).map (fun p => p.2.2.uid), []⟩ }) := by
  obtain ⟨hfound, -⟩ := State.oneLaunch_requested hl d add ((s.launchCtxs acc).map (fun p => p.2.2.uid))
  unfold State.requestChange State.boundary
  dsimp only
  rw [hfound]
  exact if_pos hmembers

theorem State.holders_modLaunch (s : State) (acc : Nat) {f : Launch → Launch} (hf : ∀ x, (f x).dieset = x.dieset) (d : Nat) :
    (s.modLaunch acc f).holders d = s.holders d := by
  have hset (x : Launch) : bit (if x.acc = acc then f x else x).dieset d = bit x.dieset d := by
    split
    · rw [hf]
    · rfl
  simp only [State.holders, State.modLaunch, List.filter_map, List.length_map, Function.comp_def, hset]

/-- A launch without members reaches the boundary of an add at once. -/
theorem State.requestChange_adds (hl : s.launch? acc = some l) (hu : Untraced s) {d : Nat} (hmembers : (s.launchCtxs acc).map (fun p => p.2.2.uid) = [])
    (heligible : eligibleFor s l d = true) (hroom : dieCount l.dieset < l.maxDies) :
    OneLaunch s (s.requestChange acc d true) acc { l with dieset := putBit l.dieset d true, diegen := l.diegen + 1, change := none } := by
  have hone := State.oneLaunch_requested hl d true []
  have hholders := s.holders_modLaunch acc (f := fun x => { x with change := some ⟨d, true, [], []⟩ }) (fun _ => rfl) d
  have hu' : Untraced (s.modLaunch acc (fun x => { x with change := some ⟨d, true, [], []⟩ })) := untraced_of_regs hu rfl
  have hrequest : s.requestChange acc d true = (s.modLaunch acc (fun x => { x with change := some ⟨d, true, [], []⟩ })).boundary acc := by
    rw [State.requestChange, hmembers]
  rw [hrequest]
  generalize hmod : s.modLaunch acc (fun x => { x with change := some ⟨d, true, [], []⟩ }) = u at hone hholders hu'
  obtain ⟨hfound, hothers⟩ := hone
  have heligible' := (s.eligible_eq l d).trans heligible
  simp only [State.eligible, Bool.and_eq_true, Bool.not_eq_true', decide_eq_true_eq] at heligible'
  obtain ⟨⟨hallowed, hfree⟩, hclaims⟩ := heligible'
  have hholds : u.changeHolds { l with change := some ⟨d, true, [], []⟩ } ⟨d, true, [], []⟩ = true := by
    have hallowed' : u.allowed { l with change := some ⟨d, true, [], []⟩ } d = true := by rw [← hmod]; exact hallowed
    have hheld : u.holders d < 8 := by
      rw [hholders]
      exact (Nat.le_add_right ..).trans_lt hclaims
    unfold State.changeHolds
    simp only [if_true, hallowed', hheld, hfree, decide_true, Bool.not_false, Bool.and_true, Bool.true_and, decide_eq_true_eq]
    exact hroom
  have hboundary : u.boundary acc =
      (u.newDieset acc (fun x => { x with dieset := putBit x.dieset d true, change := none })).releaseSteps acc none := by
    rw [State.boundary, hfound]
    dsimp only
    rw [hholds]
    rfl
  obtain ⟨cmds, ds, hnew⟩ := State.newDieset_untraced hu' acc (fun x => { x with dieset := putBit x.dieset d true, change := none })
  obtain ⟨hhere, hthere⟩ := State.oneLaunch_modLaunch (s := { u with cmds := cmds }) hfound
    (f := fun x => { x with dieset := putBit x.dieset d true, change := none, diegen := x.diegen + 1 }) fun _ h => h
  have hlaunches (k : Nat) : (u.boundary acc).launch? k =
      (({ u with cmds := cmds } : State).modLaunch acc (fun x => { x with dieset := putBit x.dieset d true, change := none, diegen := x.diegen + 1 })).launch? k := by
    rw [hboundary, hnew, State.tellDies_rest]
    rfl
  exact ⟨(hlaunches acc).trans hhere, fun m hm => (hlaunches m).trans ((hthere m hm).trans (hothers m hm))⟩

/-- A die is added where a launch was left short, or where it may grow. -/
theorem execDieAddRequest_adds {d : Nat} (hl : s.launch? acc = some l) (hchange : l.change = none) (hheld : 0 < dieCount l.dieset)
    (hroom : dieCount l.dieset < l.maxDies) (hwhy : s.restorable l = true ∨
      (l.ended = false ∧ s.regs.govctl.getLsbD 0 = true ∧ slice s.regs.govctl 47 32 < l.queued ∧ NoneShort s))
    (hd : d < 8) (heligible : eligibleFor s l d = true) (hprefer : ∀ e < 8, eligibleFor s l e = true → e ≠ d → Preferred s d e) :
    exec (.dieAddRequest acc) s = .next (s.requestChange acc d true) := by
  have hreason : (s.restorable l || (s.grow && decide (s.hiwat < l.queued) && !s.launches.any s.restorable) && !l.ended) = true := by
    obtain hrestores | ⟨hlive, hgrow, hqueued, hnone⟩ := hwhy
    · rw [hrestores, Bool.true_or]
    · have hshort : s.launches.any s.restorable = false := List.any_eq_false.mpr fun v hv => Bool.eq_false_iff.mp (hnone v hv)
      have hhiwat : s.hiwat < l.queued := hqueued
      rw [hshort, hlive, decide_eq_true hhiwat, show s.grow = true from hgrow]
      exact Bool.or_true _
  have hhead := State.inPreference_head? (s.eligibleDies_nodup l) (State.mem_eligibleDies.mpr ⟨hd, heligible⟩)
    fun e he => hprefer e (State.mem_eligibleDies.mp he).1 (State.mem_eligibleDies.mp he).2
  have hcount : (setBits 8 l.dieset.toNat).length = dieCount l.dieset := rfl
  change execDieAddRequest acc s = _
  unfold execDieAddRequest
  rw [hl]
  dsimp only
  rw [hcount, hreason, hchange, decide_eq_false hheld.ne', decide_eq_false hroom.not_ge, if_neg (by decide), hhead]

/-! ### Withdrawals (R115, R116) -/

theorem firstHolder_mem {xs : List (Launch × Nat)} {x : Launch × Nat} (h : firstHolder xs = some x) : x ∈ xs := by
  induction xs generalizing x with
  | nil => exact nomatch h
  | cons y ys ih =>
    rw [firstHolder] at h
    split at h
    · exact Option.some.inj h ▸ List.mem_cons_self
    · rename_i z hz
      split at h
      · exact Option.some.inj h ▸ List.mem_cons_of_mem _ (ih hz)
      · exact Option.some.inj h ▸ List.mem_cons_self

theorem yieldsFirst_asymm {a b : Launch} (h : yieldsFirst a b = true) : yieldsFirst b a = false := by
  simp only [yieldsFirst, decide_eq_true_eq, decide_eq_false_iff_not] at *
  omega

theorem firstHolder_isSome {x : Launch × Nat} (xs : List (Launch × Nat)) : ∃ y, firstHolder (x :: xs) = some y := by
  rw [firstHolder]
  split
  · exact ⟨_, rfl⟩
  · split <;> exact ⟨_, rfl⟩

/-- The holder that yields before all others is the one from which a die is withdrawn. -/
theorem firstHolder_of_first {l : Launch} {xs : List (Launch × Nat)} (hfirst : ∀ y ∈ xs, y.1 = l ∨ yieldsFirst l y.1 = true) (hl : ∃ d, (l, d) ∈ xs) :
    ∃ e, firstHolder xs = some (l, e) ∧ (l, e) ∈ xs := by
  suffices h : ∃ e, firstHolder xs = some (l, e) from h.imp fun e he => ⟨he, firstHolder_mem he⟩
  induction xs with
  | nil => exact hl.elim fun _ h => absurd h List.not_mem_nil
  | cons x xs ih =>
    obtain ⟨hx, hxs⟩ := List.forall_mem_cons.mp hfirst
    rw [firstHolder]
    by_cases hin : ∃ d, (l, d) ∈ xs
    · obtain ⟨e, he⟩ := ih hxs hin
      rw [he]
      dsimp only
      obtain hx | hx := hx
      · split
        · exact ⟨e, rfl⟩
        · exact ⟨x.2, by rw [← hx]⟩
      · exact ⟨e, if_pos hx⟩
    · obtain ⟨d, hd⟩ := hl
      have hxl : (l, d) = x := (List.mem_cons.mp hd).resolve_right fun h => hin ⟨d, h⟩
      subst hxl
      cases hrest : firstHolder xs with
      | none => exact ⟨d, rfl⟩
      | some y =>
        have hy := firstHolder_mem hrest
        have hyields : yieldsFirst l y.1 = true := (hxs y hy).resolve_left fun heq => hin ⟨y.2, heq ▸ hy⟩
        exact ⟨d, if_neg (Bool.eq_false_iff.mp (yieldsFirst_asymm hyields))⟩

/-- Launch v holds die e, can give it up, and launch w could hold it but for its eight holders. -/
structure Gives (s : State) (w v : Launch) (e : Nat) : Prop where
  live    : v ∈ s.launches
  die     : e < 8
  allowed : s.allowed w e = true
  full    : 8 ≤ s.holders e
  holds   : v.dieset.getLsbD e = true
  still   : v.change = none
  spare   : v.minDies < dieCount v.dieset
  stays   : ∀ x ∈ s.launches, ∀ y, x.change = some y → y.add = true ∨ y.die ≠ e

/-- The dies that a withdrawal for launch w can take, with their holders. -/
def State.withdrawable (s : State) (w : Launch) : List (Launch × Nat) :=
  let leaving (d : Nat) : Bool := s.launches.any (fun l => match l.change with | some c => !c.add && c.die = d | none => false)
  ((List.range 8).filter (fun d => s.allowed w d && decide (8 ≤ s.holders d) && !leaving d)).flatMap (fun d =>
    (s.launches.filter (fun l => bit l.dieset d && l.change.isNone && decide (l.minDies < (setBits 8 l.dieset.toNat).length))).map (fun l => (l, d)))

theorem State.stays_iff (s : State) (d : Nat) :
    (s.launches.any (fun l => match l.change with | some c => !c.add && c.die = d | none => false)) = false ↔
      ∀ x ∈ s.launches, ∀ y, x.change = some y → y.add = true ∨ y.die ≠ d := by
  rw [List.any_eq_false]
  refine forall₂_congr fun x _ => ?_
  cases x.change with
  | none => simp
  | some c => cases hc : c.add <;> simp [hc]

theorem State.mem_withdrawable {w v : Launch} {e : Nat} : (v, e) ∈ s.withdrawable w ↔ Gives s w v e := by
  have hheld : bit v.dieset e = v.dieset.getLsbD e := rfl
  have hcount : (setBits 8 v.dieset.toNat).length = dieCount v.dieset := rfl
  unfold State.withdrawable
  simp only [List.mem_flatMap, List.mem_filter, List.mem_range, List.mem_map, Bool.and_eq_true, Bool.not_eq_true', decide_eq_true_eq,
    Option.isNone_iff_eq_none, Prod.mk.injEq, State.stays_iff]
  constructor
  · rintro ⟨d, ⟨hd, ⟨hallowed, hfull⟩, hstays⟩, x, ⟨hx, ⟨hholds, hstill⟩, hspare⟩, rfl, rfl⟩
    exact ⟨hx, hd, hallowed, hfull, hholds, hstill, hspare, hstays⟩
  · rintro ⟨hx, hd, hallowed, hfull, hholds, hstill, hspare, hstays⟩
    exact ⟨e, ⟨hd, ⟨hallowed, hfull⟩, hstays⟩, v, ⟨hx, ⟨hholds, hstill⟩, hspare⟩, rfl, rfl⟩

theorem execDieWithdrawRequest_withdraws {w : Launch} (hpast : pastCap s w = true) (hw : s.launch? w.acc = some w) (hgives : ∃ d, Gives s w l d)
    (hfirst : ∀ v e, Gives s w v e → v = l ∨ yieldsFirst l v = true) :
    ∃ e, Gives s w l e ∧ exec (.dieWithdrawRequest w.acc) s = .next (s.requestChange l.acc e false) := by
  obtain ⟨e, hholder, hmem⟩ := firstHolder_of_first (l := l) (xs := s.withdrawable w) (fun y hy => hfirst y.1 y.2 (State.mem_withdrawable.mp hy))
    (hgives.imp fun d hd => State.mem_withdrawable.mpr hd)
  refine ⟨e, State.mem_withdrawable.mp hmem, ?_⟩
  change execDieWithdrawRequest w.acc s = _
  unfold execDieWithdrawRequest
  rw [hw]
  dsimp only
  rw [Launch.past_eq, hpast, if_neg (by decide)]
  change (match firstHolder (s.withdrawable w) with
    | none => _
    | some (l, d) => _) = _
  rw [hholder]

end

/-! ### O48 -/

theorem gives_iff (s : State) (w v : Launch) (e : Nat) : Gives s w v e ↔
    v ∈ s.launches ∧ e < 8 ∧ w.allow.getLsbD e = true ∧ (s.die e).admitted = true ∧ (s.die e).phase = 0 ∧
      8 ≤ (s.launches.filter (fun x => x.dieset.getLsbD e)).length ∧ v.dieset.getLsbD e = true ∧ v.change = none ∧ v.minDies < dieCount v.dieset ∧
      ∀ x ∈ s.launches, ∀ y, x.change = some y → y.add = true ∨ y.die ≠ e := by
  have hallowed : s.allowed w e = true ↔ w.allow.getLsbD e = true ∧ (s.die e).admitted = true ∧ (s.die e).phase = 0 := by
    rw [State.allowed, Bool.and_eq_true, Bool.and_eq_true, decide_eq_true_eq, and_assoc]
    rfl
  constructor
  · rintro ⟨hlive, hdie, hall, hfull, hholds, hstill, hspare, hstays⟩
    obtain ⟨hallow, hadmitted, hphase⟩ := hallowed.mp hall
    exact ⟨hlive, hdie, hallow, hadmitted, hphase, hfull, hholds, hstill, hspare, hstays⟩
  · rintro ⟨hlive, hdie, hallow, hadmitted, hphase, hfull, hholds, hstill, hspare, hstays⟩
    exact ⟨hlive, hdie, hallowed.mpr ⟨hallow, hadmitted, hphase⟩, hfull, hholds, hstill, hspare, hstays⟩

theorem execGrantWaitCap_caps (acc : Nat) (s : State) :
    exec (.grantWaitCap acc) s = .next (s.modLaunch acc (fun l => if l.past s.now then { l with capped := true } else l)) := rfl

/-- What a grant leaves: the dies that the launch holds, the clocks of those dies, and the barges dealt. -/
theorem State.granted_effect {s : State} {acc : Nat} {l : Launch} (hl : s.launch? acc = some l) (hacc : l.acc = acc) (hu : Untraced s)
    (hbasins : ∀ q ∈ l.first ++ l.parked, ∃ b, l.basin? (bargeEntry q.barge) = some b) :
    let t := (((s.grantOrder l).foldl (fun s d => s.message none (some d)) s).modLaunch acc (fun _ => s.grantedLaunch l)).traceLaunch
      (s.grantedLaunch l) 0 (setOf (s.grantDies l)).toNat
    OneLaunch s t acc (s.grantedLaunch l) ∧ ∀ d ∈ s.grantDies l, Hears s t none (some d) := by
  intro t
  obtain ⟨dies, htold⟩ := s.tell_rest (s.grantOrder l)
  have ht : t = ((s.grantOrder l).foldl (fun s d => s.message none (some d)) s).modLaunch acc (fun _ => s.grantedLaunch l) :=
    State.trace_untraced (untraced_of_regs hu (by rw [htold]; rfl)) _ (by decide) _ _ _ _
  obtain ⟨⟨basins, hrest⟩, -⟩ := State.grantedLaunch_deals hbasins
  have hfound : (s.grantedLaunch l).acc = acc := by rw [hrest]; exact hacc
  rw [ht]
  refine ⟨?_, fun d hd => s.tell_hears (List.nodup_range.filter _) (State.mem_grantOrder.mpr hd)⟩
  rw [htold]
  exact State.oneLaunch_modLaunch (s := { s with dies := dies }) hl (f := fun _ => s.grantedLaunch l) fun _ _ => hfound

/-- Settles O48, clause by clause: the aging of a barge, a grant, the cap of a wait, an add and a withdrawal. -/
theorem distributorGivesAndTakesDies : Obligations.DistributorGivesAndTakesDies := by
  unfold Obligations.DistributorGivesAndTakesDies
  intro s acc push d t0 l w members pending rise hl hacc
  have hrise : (fun q : Queued => if q.push = push then q.aged s.now else q) = rise := funext fun q => by
    simp only [rise, Queued.aged_eq]
    split <;> simp [*]
  have hcap (t0 : Nat) (hwaits : l.waits = true) (hat : l.waitAt = some t0) : l.past s.now = (l.capped || decide (t0 + 2 ^ 24 ≤ s.now)) := by
    rw [Launch.past_eq, pastCap, hwaits, hat, Bool.true_and, Option.any_some]
  have hcapped : OneLaunch s (s.modLaunch acc (fun l => if l.past s.now then { l with capped := true } else l)) acc
      (if l.past s.now then { l with capped := true } else l) :=
    State.oneLaunch_modLaunch hl (f := fun l => if l.past s.now then { l with capped := true } else l) fun x hx => by split <;> exact hx
  refine ⟨⟨_, rfl, rfl, ?_⟩, fun hu hwaits henough hnone hfirst hbasins hmax => ?_, fun hwaits hat => ⟨fun hearly => ?_, fun hlate => ?_⟩,
    fun hchange hheld hroom hu hwhy hd heligible hprefer => ?_, fun hpast hw => fun hgives hfirst hmembers => ?_⟩
  · rw [hrise]
    exact State.oneLaunch_modLaunch hl (f := fun l => { l with basins := _, parked := _, first := _ }) fun _ h => h
  · obtain ⟨hone, hhears⟩ := State.granted_effect hl hacc hu hbasins
    obtain ⟨⟨basins, hrest⟩, hdealt⟩ := State.grantedLaunch_deals hbasins
    have hset : (s.grantedLaunch l).dieset = setOf (s.grantDies l) := by rw [hrest]; rfl
    have hlow : ∀ e ∈ s.grantDies l, e < 8 := fun e he => mem_mayHold (State.mem_grantDies he)
    have hmem {e : Nat} (he : e < 8) : (s.grantedLaunch l).dieset.getLsbD e = decide (e ∈ s.grantDies l) := by rw [hset, getLsbD_setOf _ he]
    refine ⟨_, execDieGrant_grants hl hwaits henough hnone hfirst, s.grantedLaunch l, hone, ?_, ?_, fun e he hin => ?_, fun e he hin => ?_,
      fun e he f hf hin hout => ?_, fun hsome q hq => ?_⟩
    · rw [hrest]
      rfl
    · rw [hset, dieCount_setOf State.grantDies_nodup hlow, State.grantDies_length]
    · exact hhears e (of_decide_eq_true ((hmem he).symm.trans hin))
    · exact State.mem_grantDies (of_decide_eq_true ((hmem he).symm.trans hin))
    · exact State.inPreference_take (mayHold_nodup s l) _ (of_decide_eq_true ((hmem (mem_mayHold he)).symm.trans hin)) hf
        (of_decide_eq_false ((hmem (mem_mayHold hf)).symm.trans hout))
    · have hdies : s.grantDies l ≠ [] := List.length_pos_iff.mp (by
        rw [State.grantDies_length]
        exact Nat.lt_min.mpr ⟨hmax, List.length_pos_iff.mpr hsome⟩)
      obtain ⟨e, he, hin⟩ := hdealt hdies q hq
      exact ⟨e, (hmem (hlow e he)).trans (decide_eq_true he), hin⟩
  · have hsame : (if l.past s.now then { l with capped := true } else l) = l := by
      rw [hcap t0 hwaits hat, decide_eq_false hearly.not_ge, Bool.or_false]
      split
      · rename_i h
        rw [← h]
      · rfl
    rw [hsame] at hcapped
    exact ⟨_, execGrantWaitCap_caps acc s, hcapped⟩
  · rw [hcap t0 hwaits hat, decide_eq_true hlate, Bool.or_true, if_pos rfl] at hcapped
    exact ⟨_, execGrantWaitCap_caps acc s, hcapped⟩
  · have hexec := execDieAddRequest_adds hl hchange hheld hroom hwhy hd heligible hprefer
    refine ⟨fun hmembers => ⟨_, hexec, ?_⟩, fun hmembers => ⟨_, hexec, ?_⟩⟩
    · rw [State.requestChange_waits hl d true (hacc ▸ hmembers)]
      subst hacc
      exact ⟨State.oneLaunch_requested hl d true _, rfl⟩
    · exact State.requestChange_adds hl hu (hacc ▸ hmembers) heligible hroom
  · subst hacc
    obtain ⟨e, he, hexec⟩ := execDieWithdrawRequest_withdraws hpast hw ⟨d, (gives_iff s w l d).mpr hgives⟩ fun v e hv =>
      (hfirst v e ((gives_iff s w v e).mp hv)).imp_right fun h => decide_eq_true h
    refine ⟨_, hexec, ?_⟩
    rw [State.requestChange_waits hl e false hmembers]
    exact ⟨rfl, e, (gives_iff s w l e).mp he, State.oneLaunch_requested hl e false _⟩

end Sys2Proof.Machine
end

section
/-! PROOFS. The record of a link's error, where nothing is watched (for O55). -/

namespace Sys2Proof.Machine
open Sys2Proof Sys2Proof.Safety

/-! ### What a record leaves as it is -/

/-- With no monitor armed and no watchpoint set, a write at a home sets off the commands of frames alone. -/
theorem State.homeWritten_unwatched {s : State} (h : Unwatched s) (pa n : Nat) : ∃ frames, s.homeWritten pa n = { s with frames := frames } := by
  obtain ⟨hwatches, hmonitors⟩ := h
  have hctxs : s.ctxs.map (fun p => if p.2.monitor = .armed (lineOf pa) then (p.1, { p.2 with monitor := .fired }) else p) = s.ctxs :=
    (List.map_congr_left fun p hp => if_neg (hmonitors p hp _)).trans (List.map_id' _)
  have hquiet : s.fireMonitors (lineOf pa) = s := by rw [State.fireMonitors, hctxs]
  have hfold : (s.watches.map Prod.fst).foldl (fun s k => s.fireWatch k pa n) s = s := by
    rw [hwatches]
    rfl
  rw [State.homeWritten, hquiet, hfold]
  exact ⟨_, rfl⟩

/-- What the device writes into one line that no slice holds then changes memory and the commands of frames. -/
theorem State.systemBytes_unwatched {s : State} (hw : Unwatched s) {pa : Nat} {bs : List Byte} (hline : s.l2Line (lineOf pa) = none)
    (hin : InLine pa bs.length) : ∃ mem frames, s.systemBytes pa bs = { s with mem := mem, frames := frames } := by
  have hbytes := (s.systemBytes_inLine hin.1 hin.2).trans (State.systemWrite_backing .normal hline)
  obtain ⟨frames, hwritten⟩ := State.homeWritten_unwatched (s := { s with mem := writeBytes s.mem pa (toBytes bs.length (ofBytes bs)) }) hw pa bs.length
  exact ⟨_, frames, hbytes.trans hwritten⟩

/-- A record in the error ring then changes memory, the ring's tail and the commands of frames. -/
theorem State.errorRecord_unwatched {s : State} (hw : Unwatched s) (hroom : Roomy s (errorSlot s)) (source kind : Nat) (die : Option Nat)
    (loc unit : Nat) (lseq : W64) : ∃ mem frames, s.errorRecord source kind die loc unit lseq =
      { s with mem := mem, frames := frames, regs := { s.regs with errTail := s.regs.errTail + 1 } } := by
  have hline : s.l2Line (lineOf (errorSlot s)) = none := by
    have h := hroom.1
    rwa [errorSlot_not_cached] at h
  obtain ⟨halign, -, -⟩ := errorSlot_in_flags s
  have hslot : ringAt (slice s.regs.errCfg 41 32) (slice s.regs.errCfg 31 28) 32 s.regs.errTail.toNat = errorSlot s := rfl
  unfold State.errorRecord
  rw [hslot]
  dsimp only
  generalize hws : ([BitVec.ofNat 64 (source * 2 ^ 56 + kind * 2 ^ 54 + (s.lclock die).toNat), BitVec.ofNat 64 loc, BitVec.ofNat 64 (unit % 2 ^ 16),
    lseq] : List W64) = ws
  have hlen : (ofWords ws).length = 32 := by rw [ofWords_length, ← hws]; rfl
  obtain ⟨mem, frames, h⟩ := State.systemBytes_unwatched hw (bs := ofWords ws) hline ⟨by omega, by omega⟩
  rw [h]
  exact ⟨mem, frames, rfl⟩

theorem errorWords_toNat {source kind clk loc unit : Nat} (hsource : source < 2 ^ 8) (hkind : kind < 4) (hclk : clk < 2 ^ 48) (hloc : loc < 2 ^ 64)
    (hunit : unit < 2 ^ 16) : ([BitVec.ofNat 64 (source * 2 ^ 56 + kind * 2 ^ 54 + clk), BitVec.ofNat 64 loc, BitVec.ofNat 64 (unit % 2 ^ 16), 0] :
      List W64).map BitVec.toNat = [source * 2 ^ 56 + kind * 2 ^ 54 + clk, loc, unit, 0] := by
  simp only [List.map_cons, List.map_nil, BitVec.toNat_ofNat]
  refine congrArg₂ _ (Nat.mod_eq_of_lt (by omega)) (congrArg₂ _ (Nat.mod_eq_of_lt hloc) (congrArg₂ _ (by omega) rfl))

/-- What is read at a home is said by memory and the slices. -/
theorem State.homeRead_of_storage {s t : State} (hmem : t.mem = s.mem) (hl2 : t.l2 = s.l2) (a n : Nat) : t.homeRead a n = s.homeRead a n := by
  unfold State.homeRead State.homeLine State.l2Line State.l2Set State.backingLine
  rw [hmem, hl2]

/-- A record stays in its ring while storage and the ring's tail stay as they are. -/
theorem errorRecorded_kept {s u t : State} {ws : List Nat} (h : ErrorRecorded s u ws) (hmem : t.mem = u.mem) (hl2 : t.l2 = u.l2)
    (htail : t.regs.errTail = u.regs.errTail) : ErrorRecorded s t ws := by
  obtain ⟨htail', hrecord, hothers⟩ := h
  exact ⟨htail.trans htail', fun i hi => (State.homeRead_of_storage hmem hl2 ..).trans (hrecord i hi),
    fun a ha => (State.homeRead_of_storage hmem hl2 ..).trans (hothers a ha)⟩

theorem State.errorRecord_link {s : State} (hroom : Roomy s (errorSlot s)) {source kind unit : Nat} (hsource : source < 2 ^ 8) (hkind : kind < 4)
    (hunit : unit < 2 ^ 16) : ErrorRecorded s (s.errorRecord source kind none 0 unit 0) [source * 2 ^ 56 + kind * 2 ^ 54 + s.lclockF.toNat, 0, unit, 0] := by
  have h := State.errorRecord_recorded hroom source kind none 0 unit 0
  rwa [errorWords_toNat hsource hkind (s.lclock none).isLt (by decide) hunit] at h

end Sys2Proof.Machine
end

section
/-! PROOFS. What faults leave of the contexts that they meet (for O55). -/

namespace Sys2Proof.Machine
open Sys2Proof Sys2Proof.Safety

/-! ### Contexts -/

/-- A context as faults of classes Q leave it: it has not moved, no target has come to it, it stops if it stopped, and for a class in Q if for one
before. -/
structure CtxFaulted (Q : BitVec 8 → Prop) (c c' : Ctx) : Prop where
  pc    : c'.pc = c.pc
  g     : c'.g = c.g
  k     : c'.k = c.k
  gt    : ∀ m, tget c.gt m = none → tget c'.gt m = none
  stops : c.stop ≠ none → c'.stop ≠ none
  cls   : (∀ x, c.stop = some x → Q x.cls) → ∀ x, c'.stop = some x → Q x.cls

section
variable {Q : BitVec 8 → Prop}

theorem CtxFaulted.refl (c : Ctx) : CtxFaulted Q c c := ⟨rfl, rfl, rfl, fun _ => id, id, id⟩

theorem CtxFaulted.trans {c d e : Ctx} (h : CtxFaulted Q c d) (k : CtxFaulted Q d e) : CtxFaulted Q c e :=
  ⟨k.pc.trans h.pc, k.g.trans h.g, k.k.trans h.k, fun m hm => k.gt m (h.gt m hm), fun hs => k.stops (h.stops hs), fun hq => k.cls (h.cls hq)⟩

/-- Every context is as faults of classes Q leave it. -/
def CtxsFaulted (Q : BitVec 8 → Prop) (s t : State) : Prop := ∀ m, Option.Rel (CtxFaulted Q) (tget s.ctxs m) (tget t.ctxs m)

theorem CtxsFaulted.refl (s : State) : CtxsFaulted Q s s := fun m => by
  cases tget s.ctxs m with
  | none => exact .none
  | some c => exact .some (.refl c)

theorem CtxsFaulted.of_ctxs {s t : State} (h : t.ctxs = s.ctxs) : CtxsFaulted Q s t := fun m => by
  rw [h]
  exact CtxsFaulted.refl s m

theorem CtxsFaulted.trans {s t u : State} (h : CtxsFaulted Q s t) (k : CtxsFaulted Q t u) : CtxsFaulted Q s u := fun m => by
  have hm := h m
  have km := k m
  revert hm km
  generalize tget s.ctxs m = a, tget t.ctxs m = b, tget u.ctxs m = c
  intro hm km
  cases hm with
  | none => exact km
  | some hab => cases km with
    | some hbc => exact .some (hab.trans hbc)

theorem CtxsFaulted.foldl {α : Type} (f : State → α → State) (hf : ∀ s x, CtxsFaulted Q s (f s x)) (xs : List α) (s : State) :
    CtxsFaulted Q s (xs.foldl f s) := by
  induction xs generalizing s with
  | nil => exact .refl s
  | cons x xs ih => exact (hf s x).trans (ih (f s x))

/-- A context that was there is still, as the faults leave it. -/
theorem CtxsFaulted.some {s t : State} (h : CtxsFaulted Q s t) {m : Nat} {c : Ctx} (hc : tget s.ctxs m = some c) :
    ∃ c', tget t.ctxs m = .some c' ∧ CtxFaulted Q c c' := by
  have hm := h m
  rw [hc] at hm
  generalize tget t.ctxs m = o at hm
  cases hm with
  | some h => exact ⟨_, rfl, h⟩

theorem CtxsFaulted.put {s : State} {n slot : Nat} {c c' : Ctx} (hc : s.ctx? n slot = .some c) (h : CtxFaulted Q c c') :
    CtxsFaulted Q s (s.setCtx n slot c') := fun m => by
  change Option.Rel _ _ (tget (tput s.ctxs (ctxKey n slot) c') m)
  by_cases hm : m = ctxKey n slot
  · subst hm
    rw [tget_tput_same]
    change tget s.ctxs (ctxKey n slot) = _ at hc
    rw [hc]
    exact .some h
  · rw [tget_tput_other _ hm]
    exact CtxsFaulted.refl s m

/-- A stop of a class in Q leaves contexts so. -/
theorem State.stopCtx_faulted (s : State) (n slot : Nat) (lane : Option Nat) {w : Why} (hw : Q (BitVec.ofNat 8 w.cls)) :
    CtxsFaulted Q s (s.stopCtx n slot lane w) := by
  have hfresh {c : Ctx} (x : Stop) (hx : x.cls = BitVec.ofNat 8 w.cls) (q : List EmitOp) : CtxFaulted Q c
      { c with stop := some x, status := .blocked, since := s.now, save := none, queue := q } :=
    ⟨rfl, rfl, rfl, fun _ => id, fun _ => Option.some_ne_none _, fun _ y hy => by cases hy; exact hx ▸ hw⟩
  have hmore {c : Ctx} {x x' : Stop} (hc : c.stop = some x) (hx : x'.cls = x.cls) : CtxFaulted Q c { c with stop := some x' } :=
    ⟨rfl, rfl, rfl, fun _ => id, fun _ => Option.some_ne_none _, fun h y hy => by cases hy; exact hx ▸ h x hc⟩
  unfold State.stopCtx
  cases hc : s.ctx? n slot with
  | none => exact .refl s
  | some c =>
    dsimp only
    cases hs : c.stop with
    | none =>
      dsimp only
      split
      · exact .put hc (hfresh _ rfl c.queue)
      · exact (CtxsFaulted.put hc (hfresh _ rfl [])).trans (.of_ctxs rfl)
    | some x =>
      dsimp only
      have hagain (k : Nat) : CtxsFaulted Q s (s.setCtx n slot { c with stop := some { x with dropped := x.dropped + k } }) := .put hc (hmore hs rfl)
      have hend (x' : Stop) (hx : x'.cls = BitVec.ofNat 8 w.cls) : CtxsFaulted Q s ((s.setCtx n slot { c with
          stop := some x', status := .blocked, since := s.now, save := none, queue := [] }).cancelAll c.uid) :=
        (CtxsFaulted.put hc (hfresh x' hx [])).trans (.of_ctxs rfl)
      split
      · exact hend _ rfl
      · split
        · exact hagain 1
        · split
          · split
            · exact .put hc (hmore hs rfl)
            · split
              · exact hend _ rfl
              · exact hagain 1
          · exact hagain 1

theorem State.stopAll_faulted (s : State) {w : Why} (hw : Q (BitVec.ofNat 8 w.cls)) (ps : List (Nat × Nat × Ctx)) : CtxsFaulted Q s (s.stopAll w ps) :=
  .foldl (fun s p => s.stopCtx p.1 p.2.1 none w) (fun s p => s.stopCtx_faulted p.1 p.2.1 none hw) ps s

/-- The key of a context is stopping still. -/
theorem StopsAt.faulted {s t : State} {m : Nat} (h : StopsAt s m) (k : CtxsFaulted Q s t) : StopsAt t m := fun c hc => by
  have hm := k m
  rw [hc] at hm
  generalize hs : tget s.ctxs m = o at hm
  cases hm with
  | some hcc => exact hcc.stops (h _ hs)

end

/-! ### One access that a link held (R295) -/

/-- Where a core stands, it has failed. -/
def CoreFailed (s : State) (m : Nat) : Prop := ∀ y, tget s.cores m = some y → y.failed = true

/-- What a change of one core by f leaves: other cores are as they were. -/
theorem State.modCore_tget (s : State) (n k : Nat) (f : Core → Core) (m : Nat) :
    tget (s.modCore n k f).cores m = if m = coreKey n k then (tget s.cores m).map f else tget s.cores m := by
  unfold State.modCore State.core?
  cases hc : tget s.cores (coreKey n k) with
  | none =>
    dsimp only
    split
    · rename_i hm
      rw [hm, hc]
      rfl
    · rfl
  | some c =>
    dsimp only
    rw [State.setCore, tget_tput]
    split
    · rename_i hm
      rw [hm, hc]
      rfl
    · rfl

theorem CoreFailed.modCore {s : State} {m : Nat} (h : CoreFailed s m) (n k : Nat) {f : Core → Core} (hf : ∀ y, y.failed = true → (f y).failed = true) :
    CoreFailed (s.modCore n k f) m := fun y hy => by
  rw [State.modCore_tget] at hy
  split at hy
  · obtain ⟨z, hz, rfl⟩ := Option.map_eq_some_iff.mp hy
    exact hf z (h z hz)
  · exact h y hy

theorem State.modCore_rest (s : State) (n k : Nat) (f : Core → Core) : s.modCore n k f = { s with cores := (s.modCore n k f).cores } := by
  unfold State.modCore
  split <;> rfl

/-- A change that leaves cores failed, but for the accesses marked, and the contexts as faults of a failed link leave them. -/
structure Cut (s t : State) : Prop where
  rest  : t = { s with accs := t.accs, cores := t.cores, ctxs := t.ctxs, cmds := t.cmds }
  ctxs  : CtxsFaulted (· = 0x31) s t
  cores : ∀ m, CoreFailed s m → CoreFailed t m
  accs  : ∀ y ∈ s.accs, ∃ z ∈ t.accs, z = { y with bad := z.bad, clk := z.clk } ∧ (y.bad = true → z.bad = true)

theorem Cut.refl (s : State) : Cut s s := ⟨rfl, .refl s, fun _ => id, fun y hy => ⟨y, hy, rfl, id⟩⟩

theorem Cut.trans {s t u : State} (h : Cut s t) (k : Cut t u) : Cut s u := by
  refine ⟨?_, h.ctxs.trans k.ctxs, fun m hm => k.cores m (h.cores m hm), fun y hy => ?_⟩
  · rw [k.rest, h.rest]
  · obtain ⟨z, hz, hyz, hbad⟩ := h.accs y hy
    obtain ⟨w, hw, hzw, hbad'⟩ := k.accs z hz
    refine ⟨w, hw, ?_, fun hb => hbad' (hbad hb)⟩
    rw [hyz] at hzw
    exact hzw

theorem Cut.foldl {α : Type} (f : State → α → State) (hf : ∀ s x, Cut s (f s x)) (xs : List α) (s : State) : Cut s (xs.foldl f s) := by
  induction xs generalizing s with
  | nil => exact .refl s
  | cons x xs ih => exact (hf s x).trans (ih (f s x))

theorem Cut.modCore (s : State) (n k : Nat) {f : Core → Core} (hf : ∀ y, y.failed = true → (f y).failed = true) : Cut s (s.modCore n k f) := by
  have hrest := s.modCore_rest n k f
  refine ⟨?_, .of_ctxs (by rw [hrest]), fun m hm => hm.modCore n k hf, fun y hy => ⟨y, ?_, rfl, id⟩⟩
  · rw [hrest]
  · rw [hrest]
    exact hy

theorem State.latchesFull_cut (s : State) (a : Access) : Cut s (s.latchesFull a) := by
  unfold State.latchesFull
  split
  · exact .modCore s _ _ fun _ hy => hy
  · exact .refl s

theorem State.freeTarget_cut (s : State) (a : Access) : Cut s (s.freeTarget a) := by
  unfold State.freeTarget
  split
  · rename_i u d hdest
    unfold State.modCtx
    split
    · rename_i c hc
      refine ⟨rfl, .put hc ⟨rfl, rfl, rfl, fun m hm => ?_, id, id⟩, fun _ => id, fun y hy => ⟨y, hy, rfl, id⟩⟩
      change tget (tdel c.gt d.toNat) m = none
      rw [tget_tdel]
      split
      · rfl
      · exact hm
    · exact .refl s
  · exact .refl s

theorem State.markBad_cut (s : State) (acc : Nat) (clk : BitVec 48) : Cut s (s.modAcc acc (fun x => { x with bad := true, clk := clk })) := by
  refine ⟨rfl, .of_ctxs rfl, fun _ => id, fun y hy => ⟨_, List.mem_map_of_mem hy, ?_⟩⟩
  split
  · exact ⟨rfl, fun _ => rfl⟩
  · exact ⟨rfl, id⟩

theorem State.stopLink_cut (s : State) (n slot : Nat) (lane : Option Nat) {w : Why} (hw : w.cls = 0x31) : Cut s (s.stopCtx n slot lane w) := by
  have hrest := s.stopCtx_rest n slot lane w
  refine ⟨?_, s.stopCtx_faulted n slot lane (by rw [hw]; rfl), fun m hm => ?_, fun y hy => ⟨y, ?_, rfl, id⟩⟩
  · rw [hrest]
  · rw [hrest]
    exact hm
  · rw [hrest]
    exact hy

/-- The core of an access fails. -/
def State.failAgent (s : State) (a : Access) : State := match a.agent with | .core k => s.failCore a.cl k | _ => s

theorem State.failAgent_cut (s : State) (a : Access) : Cut s (s.failAgent a) := by
  unfold State.failAgent
  split
  · exact .modCore s _ _ fun _ _ => rfl
  · exact .refl s

theorem State.whyAccess_cls (s : State) (a : Access) (cls : Nat) (lost : List Part) : (s.whyAccess a cls lost).cls = cls := by
  unfold State.whyAccess
  dsimp only
  split <;> rfl

theorem State.cutAccess_eq (s : State) (a : Access) : ∃ w : Why, w.cls = 0x31 ∧ s.cutAccess a =
    ((((s.freeTarget a).latchesFull a).modAcc a.id (fun x => { x with bad := true, clk := a.clk })).failAgent a).stopCtx a.cl a.slot a.laneNo w :=
  ⟨s.whyAccess a 0x31 (a.parts.filter (fun p => !p.done)), s.whyAccess_cls a 0x31 _, rfl⟩

theorem State.cutAccess_cut (s : State) (a : Access) : Cut s (s.cutAccess a) := by
  obtain ⟨w, hw, heq⟩ := s.cutAccess_eq a
  rw [heq]
  exact ((((s.freeTarget_cut a).trans (State.latchesFull_cut _ a)).trans (State.markBad_cut _ a.id a.clk)).trans (State.failAgent_cut _ a)).trans
    (State.stopLink_cut _ _ _ _ hw)

/-- An access is faulted: it is marked, its context stops, it is no register's target, and its core has failed. -/
structure AccessCut (a : Access) (t : State) : Prop where
  acc    : ∃ y ∈ t.accs, y = { a with bad := true, clk := y.clk }
  stop   : StopsAt t (ctxKey a.cl a.slot)
  target : ∀ u g, a.dest = .gen u g → ∀ c, t.ctx? a.cl a.slot = some c → tget c.gt g.toNat = none
  core   : ∀ k, a.agent = .core k → CoreFailed t (coreKey a.cl k)

/-- It stays so while contexts are faulted further, and accesses and cores that have failed stay as they are. -/
theorem AccessCut.kept {a : Access} {t u : State} (h : AccessCut a t) {Q : BitVec 8 → Prop} (hctxs : CtxsFaulted Q t u)
    (hcores : ∀ m, CoreFailed t m → CoreFailed u m)
    (haccs : ∀ y ∈ t.accs, ∃ z ∈ u.accs, z = { y with bad := z.bad, clk := z.clk } ∧ (y.bad = true → z.bad = true)) : AccessCut a u := by
  obtain ⟨⟨y, hy, hya⟩, hstop, htarget, hcore⟩ := h
  refine ⟨?_, hstop.faulted hctxs, fun u' g hdest c hc => ?_, fun k hk => hcores _ (hcore k hk)⟩
  · obtain ⟨z, hz, hyz, hbad⟩ := haccs y hy
    refine ⟨z, hz, ?_⟩
    rw [hya] at hyz
    have hb : z.bad = true := hbad (by rw [hya])
    rw [hyz, hb]
  · have hm := hctxs (ctxKey a.cl a.slot)
    change tget u.ctxs _ = _ at hc
    rw [hc] at hm
    generalize ht : tget t.ctxs (ctxKey a.cl a.slot) = o at hm
    cases hm with
    | some hcc => exact hcc.gt _ (htarget u' g hdest _ ht)

theorem AccessCut.cut {a : Access} {t u : State} (h : AccessCut a t) (k : Cut t u) : AccessCut a u := h.kept k.ctxs k.cores k.accs

theorem AccessCut.faulted {a : Access} {t u : State} (h : AccessCut a t) {Q : BitVec 8 → Prop} (hctxs : CtxsFaulted Q t u) (hcores : u.cores = t.cores)
    (haccs : u.accs = t.accs) : AccessCut a u :=
  h.kept hctxs (fun _ hm y hy => hm y (hcores ▸ hy)) fun y hy => ⟨y, haccs ▸ hy, rfl, id⟩

/-- To cut an access of the list, or what has become of it, faults it. -/
theorem State.cutAccess_cuts {s : State} {a : Access} (clk : BitVec 48) (ha : ∃ y ∈ s.accs, y = { a with bad := y.bad, clk := y.clk }) :
    AccessCut a (s.cutAccess { a with clk := clk }) := by
  obtain ⟨w, hw, heq⟩ := s.cutAccess_eq { a with clk := clk }
  rw [heq]
  have hfreed := s.freeTarget_cut { a with clk := clk }
  have hlatched := hfreed.trans (State.latchesFull_cut _ { a with clk := clk })
  have hmarked := State.markBad_cut ((s.freeTarget { a with clk := clk }).latchesFull { a with clk := clk }) a.id clk
  generalize hu : ((s.freeTarget { a with clk := clk }).latchesFull { a with clk := clk }).modAcc a.id (fun x => { x with bad := true, clk := clk }) = u at hmarked
  have hfailed := State.failAgent_cut u { a with clk := clk }
  have hstopped := State.stopLink_cut (u.failAgent { a with clk := clk }) a.cl a.slot (Access.laneNo { a with clk := clk }) hw
  refine ⟨?_, State.stopCtx_stops _ _ _ _ _, fun u' g hdest c hc => ?_, fun k hk => hstopped.cores _ ?_⟩
  · obtain ⟨y, hy, hya⟩ := ha
    obtain ⟨z, hz, hyz, -⟩ := hlatched.accs y hy
    have hmem : { z with bad := true, clk := clk } ∈ u.accs := by
      rw [← hu]
      refine List.mem_map.mpr ⟨z, hz, if_pos ?_⟩
      rw [hyz, hya]
    obtain ⟨v, hv, hzv, hbad⟩ := (hfailed.trans hstopped).accs _ hmem
    refine ⟨v, hv, ?_⟩
    rw [hyz, hya] at hzv
    rw [hzv, hbad rfl]
  · have hfree : ∀ c, (s.freeTarget { a with clk := clk }).ctx? a.cl a.slot = some c → tget c.gt g.toNat = none := fun c hc => by
      unfold State.freeTarget at hc
      rw [hdest] at hc
      dsimp only at hc
      unfold State.modCtx at hc
      cases hs : s.ctx? a.cl a.slot with
      | none =>
        rw [hs] at hc
        dsimp only at hc
        rw [hs] at hc
        cases hc
      | some c' =>
        rw [hs] at hc
        dsimp only at hc
        rw [State.setCtx, State.ctx?, tget_tput_same] at hc
        cases hc
        exact (tget_tdel ..).trans (if_pos rfl)
    have hall := (((State.latchesFull_cut _ { a with clk := clk }).trans hmarked).trans hfailed).trans hstopped
    have hm := hall.ctxs (ctxKey a.cl a.slot)
    change tget _ _ = _ at hc
    rw [hc] at hm
    generalize ht : tget (s.freeTarget { a with clk := clk }).ctxs (ctxKey a.cl a.slot) = o at hm
    cases hm with
    | some hcc => exact hcc.gt _ (hfree _ ht)
  · intro y hy
    unfold State.failAgent State.failCore at hy
    rw [hk] at hy
    dsimp only at hy
    rw [State.modCore_tget, if_pos rfl] at hy
    obtain ⟨z, -, rfl⟩ := Option.map_eq_some_iff.mp hy
    rfl

/-- Of accesses that are cut one after another, each is faulted. -/
theorem State.cutAll_cuts {s : State} (clk : BitVec 48) {accs : List Access} {a : Access} (hin : a ∈ accs)
    (ha : ∃ y ∈ s.accs, y = { a with bad := y.bad, clk := y.clk }) : AccessCut a (accs.foldl (fun s a => s.cutAccess { a with clk := clk }) s) := by
  have hall (s : State) (accs : List Access) : Cut s (accs.foldl (fun s a => s.cutAccess { a with clk := clk }) s) :=
    .foldl _ (fun s x => s.cutAccess_cut { x with clk := clk }) accs s
  induction accs generalizing s with
  | nil => exact absurd hin List.not_mem_nil
  | cons x accs ih =>
    rw [List.foldl_cons]
    obtain rfl | hin := List.mem_cons.mp hin
    · exact (State.cutAccess_cuts clk ha).cut (hall _ accs)
    · refine ih hin ?_
      obtain ⟨y, hy, hya⟩ := ha
      obtain ⟨z, hz, hyz, -⟩ := (s.cutAccess_cut { x with clk := clk }).accs y hy
      refine ⟨z, hz, ?_⟩
      rw [hya] at hyz
      exact hyz

end Sys2Proof.Machine
end

section
/-! PROOFS. What a failed link held (for O55). -/

namespace Sys2Proof.Machine
open Sys2Proof Sys2Proof.Safety

/-! ### Fills, walks and read-backs that are faulted (R295, R383) -/

/-- The accesses that a link holds. -/
def State.heldBy (s : State) (l : LinkName) : List Access :=
  s.accs.filter (fun a => !a.done && !a.bad && a.parts.zipIdx.any (fun p =>
    (!p.1.done && !isSp p.1.pa && !s.inBay a p.1 && s.crosses l (dieOf a.cl) p.1.pa (effScope p.1.pa a.scope = .system)) && s.canPerform a [p.2]))

def State.cutAccs (s : State) (accs : List Access) (clk : BitVec 48) : State := accs.foldl (fun s a => s.cutAccess { a with clk := clk }) s

def State.cutFills (s : State) (fills : List Fill) (clk : BitVec 48) : State :=
  fills.foldl (fun s f => s.faultFetch f.lvl f.unit f.line 0x31 clk) s

/-- A walk as the failure leaves it, where it is one of those that the link held. -/
def Walk.cutIn (walks : List Walk) (clk : BitVec 48) (w : Walk) : Walk := if walks.contains w then { w with kind := some kLink, clk := clk } else w

def State.cutWalks (s : State) (walks : List Walk) (clk : BitVec 48) : State :=
  { s with walks := (s.walks.map (Walk.cutIn walks clk)).filter (fun w => w.kind.isNone || w.users != []) }

def State.cutReads (s : State) (reads : List (Nat × Nat × Ctx)) (clk : BitVec 48) : State :=
  reads.foldl (fun s p => s.stopCtx p.1 p.2.1 none { cls := 0x31, retried := true, where_ := p.2.2.pc, clk := some clk }) s

theorem State.cutLink_eq (s : State) (l : LinkName) (clk : BitVec 48) : ∃ reads, s.cutLink l clk =
    (((s.cutAccs (s.heldBy l) clk).cutFills (s.code.fills.filter (s.fillCrosses l)) clk).cutWalks
      (((List.range 8).flatMap s.walksOf).filter (s.walkCrosses l)) clk).cutReads reads clk := ⟨_, rfl⟩

theorem State.cutAccs_cut (s : State) (accs : List Access) (clk : BitVec 48) : Cut s (s.cutAccs accs clk) :=
  .foldl (fun (s : State) (a : Access) => s.cutAccess { a with clk := clk }) (fun s x => s.cutAccess_cut { x with clk := clk }) accs s

theorem State.cutReads_rest (s : State) (reads : List (Nat × Nat × Ctx)) (clk : BitVec 48) :
    s.cutReads reads clk = { s with ctxs := (s.cutReads reads clk).ctxs, cmds := (s.cutReads reads clk).cmds } := by
  unfold State.cutReads
  induction reads generalizing s with
  | nil => rfl
  | cons p ps ih => rw [List.foldl_cons, ih, State.stopCtx_rest]

theorem State.cutReads_faulted (s : State) (reads : List (Nat × Nat × Ctx)) (clk : BitVec 48) : CtxsFaulted (· = 0x31) s (s.cutReads reads clk) :=
  .foldl (fun s (p : Nat × Nat × Ctx) => s.stopCtx p.1 p.2.1 none { cls := 0x31, retried := true, where_ := p.2.2.pc, clk := some clk })
    (fun s p => s.stopCtx_faulted p.1 p.2.1 none rfl) reads s

/-- A fault of a line's fetch stops contexts, after the line's fills are gone. -/
theorem State.faultFetch_eq (s : State) (f : Fill) (clk : BitVec 48) : ∃ fills reads, (f.lvl ≠ .i0 → f ∉ fills) ∧ (∀ y ∈ fills, y ∈ s.code.fills) ∧
    s.faultFetch f.lvl f.unit f.line 0x31 clk = ({ s with code := { s.code with fills := fills } } : State).cutReads reads clk := by
  refine ⟨_, _, fun hlvl hmem => ?_, fun y hy => List.mem_of_mem_filter hy, rfl⟩
  have hkept := (List.mem_filter.mp hmem).2
  obtain ⟨lvl, unit, line, seq, soft⟩ := f
  cases lvl with
  | i0 => exact hlvl rfl
  | i1 => simp at hkept
  | i2 => simp at hkept

/-- The fills of a link are faulted: they are gone, and only fills, contexts and their commands have changed. -/
structure FillsCut (s t : State) : Prop where
  rest  : t = { s with code := t.code, ctxs := t.ctxs, cmds := t.cmds }
  ctxs  : CtxsFaulted (· = 0x31) s t
  fills : ∀ y ∈ t.code.fills, y ∈ s.code.fills

theorem FillsCut.refl (s : State) : FillsCut s s := ⟨rfl, .refl s, fun _ => id⟩

theorem FillsCut.trans {s t u : State} (h : FillsCut s t) (k : FillsCut t u) : FillsCut s u :=
  ⟨by rw [k.rest, h.rest], h.ctxs.trans k.ctxs, fun y hy => h.fills y (k.fills y hy)⟩

theorem State.faultFetch_cut (s : State) (f : Fill) (clk : BitVec 48) : FillsCut s (s.faultFetch f.lvl f.unit f.line 0x31 clk) ∧
    (f.lvl ≠ .i0 → f ∉ (s.faultFetch f.lvl f.unit f.line 0x31 clk).code.fills) := by
  obtain ⟨fills, reads, hgone, hsub, heq⟩ := s.faultFetch_eq f clk
  have hrest := State.cutReads_rest { s with code := { s.code with fills := fills } } reads clk
  have hfaulted := State.cutReads_faulted { s with code := { s.code with fills := fills } } reads clk
  rw [heq]
  refine ⟨⟨?_, (CtxsFaulted.of_ctxs rfl).trans hfaulted, fun y hy => hsub y ?_⟩, fun hlvl => ?_⟩
  · rw [hrest]
  · rwa [hrest] at hy
  · rw [hrest]
    exact hgone hlvl

theorem State.cutFills_cut (s : State) (fills : List Fill) (clk : BitVec 48) : FillsCut s (s.cutFills fills clk) ∧
    ∀ f ∈ fills, f.lvl ≠ .i0 → f ∉ (s.cutFills fills clk).code.fills := by
  unfold State.cutFills
  induction fills generalizing s with
  | nil => exact ⟨.refl s, fun _ h => absurd h List.not_mem_nil⟩
  | cons f fs ih =>
    obtain ⟨hcut, hgone⟩ := s.faultFetch_cut f clk
    obtain ⟨hcuts, hall⟩ := ih (s.faultFetch f.lvl f.unit f.line 0x31 clk)
    exact ⟨hcut.trans hcuts, List.forall_mem_cons.mpr ⟨fun hlvl hmem => hgone hlvl (hcuts.fills f hmem), hall⟩⟩

theorem State.fillCrosses_lvl {s : State} {l : LinkName} {f : Fill} (h : s.fillCrosses l f = true) : f.lvl ≠ .i0 := fun hlvl => by
  rw [State.fillCrosses, hlvl] at h
  exact Bool.false_ne_true h

theorem State.mem_cutWalks {s : State} {walks : List Walk} {w : Walk} (hw : w ∈ s.walks) (hin : w ∈ walks) (husers : w.users ≠ []) (clk : BitVec 48) :
    { w with kind := some kLink, clk := clk } ∈ (s.cutWalks walks clk).walks := by
  refine List.mem_filter.mpr ⟨List.mem_map.mpr ⟨w, hw, if_pos (List.contains_iff_mem.mpr hin)⟩, ?_⟩
  rw [Bool.or_eq_true]
  exact .inr (bne_iff_ne.mpr husers)

/-! ### All that it held -/

/-- What the failure of link l leaves of s but for the link's own state. -/
structure LinkCut (l : LinkName) (s t : State) : Prop where
  rest  : t = { s with accs := t.accs, cores := t.cores, ctxs := t.ctxs, cmds := t.cmds, code := t.code, walks := t.walks }
  ctxs  : CtxsFaulted (· = 0x31) s t
  accs  : ∀ a ∈ s.heldBy l, AccessCut a t
  fills : ∀ y ∈ s.code.fills, s.fillCrosses l y = true → y ∉ t.code.fills
  walks : ∀ d < 8, ∀ w ∈ s.walksOf d, s.walkCrosses l w = true → w.users ≠ [] → ∃ y ∈ t.walks, y = { w with kind := some kLink, clk := y.clk }

theorem State.cutLink_cuts (s : State) (l : LinkName) (clk : BitVec 48) : LinkCut l s (s.cutLink l clk) := by
  obtain ⟨reads, heq⟩ := s.cutLink_eq l clk
  have haccs := s.cutAccs_cut (s.heldBy l) clk
  have hheld : ∀ a ∈ s.heldBy l, AccessCut a (s.cutAccs (s.heldBy l) clk) := fun a ha =>
    State.cutAll_cuts clk ha ⟨a, List.mem_of_mem_filter ha, rfl⟩
  generalize s.cutAccs (s.heldBy l) clk = t at heq haccs hheld
  obtain ⟨hfills, hgone⟩ := t.cutFills_cut (s.code.fills.filter (s.fillCrosses l)) clk
  generalize t.cutFills (s.code.fills.filter (s.fillCrosses l)) clk = u at heq hfills hgone
  have hwalks : u.walks = s.walks := by rw [hfills.rest, haccs.rest]
  have hreads := State.cutReads_rest (u.cutWalks (((List.range 8).flatMap s.walksOf).filter (s.walkCrosses l)) clk) reads clk
  have hfaulted := State.cutReads_faulted (u.cutWalks (((List.range 8).flatMap s.walksOf).filter (s.walkCrosses l)) clk) reads clk
  have hcut {w : Walk} (hw : w ∈ s.walks) (hin : w ∈ ((List.range 8).flatMap s.walksOf).filter (s.walkCrosses l)) (husers : w.users ≠ []) :=
    State.mem_cutWalks (s := u) (hwalks ▸ hw) hin husers clk
  have hlater : CtxsFaulted (· = 0x31) u (u.cutWalks (((List.range 8).flatMap s.walksOf).filter (s.walkCrosses l)) clk) := .of_ctxs rfl
  generalize hv : u.cutWalks (((List.range 8).flatMap s.walksOf).filter (s.walkCrosses l)) clk = v at heq hreads hfaulted hcut hlater
  have hvrest : v = { u with walks := v.walks } := by rw [← hv]; rfl
  have hctxs := hfills.ctxs.trans (hlater.trans hfaulted)
  rw [heq]
  refine ⟨?_, haccs.ctxs.trans hctxs, fun a ha => (hheld a ha).faulted hctxs ?_ ?_, fun y hy hcross => ?_, fun d hd w hw hcross husers => ?_⟩
  · rw [hreads, hvrest, hfills.rest, haccs.rest]
  · rw [hreads, hvrest, hfills.rest]
  · rw [hreads, hvrest, hfills.rest]
  · have hy := hgone y (List.mem_filter.mpr ⟨hy, hcross⟩) (State.fillCrosses_lvl hcross)
    rwa [hreads, hvrest]
  · have hmem : w ∈ s.walks := List.mem_of_mem_filter (List.mem_of_mem_take hw)
    have hin := hcut hmem (List.mem_filter.mpr ⟨List.mem_flatMap.mpr ⟨d, List.mem_range.mpr hd, hw⟩, hcross⟩) husers
    rw [hreads]
    exact ⟨_, hin, rfl⟩

/-- An access that a link holds by its part j. -/
theorem State.mem_heldBy {s : State} {l : LinkName} {a : Access} {j : Nat} {p : Part} (ha : a ∈ s.accs) (hdone : a.done = false) (hbad : a.bad = false)
    (hp : a.parts[j]? = some p) (hpart : p.done = false) (hsp : isSp p.pa = false) (hbay : s.inBay a p = false)
    (hcross : s.crosses l (a.cl / 4) p.pa (effScope p.pa a.scope = .system) = true) (hcan : s.canPerform a [j] = true) : a ∈ s.heldBy l := by
  refine List.mem_filter.mpr ⟨ha, ?_⟩
  have hcross' : s.crosses l (dieOf a.cl) p.pa (effScope p.pa a.scope = .system) = true := hcross
  rw [hdone, hbad]
  refine List.any_eq_true.mpr ⟨(p, j), List.mem_zipIdx_iff_getElem?.mpr hp, ?_⟩
  dsimp only
  rw [hpart, hsp, hbay, hcross', hcan]
  rfl

end Sys2Proof.Machine
end

section
/-! PROOFS. The reset of a die whose link has failed (for O55). -/

namespace Sys2Proof.Machine
open Sys2Proof Sys2Proof.Safety

/-! ### A die leaves its launches -/

/-- What a die's leaving of its launches changes: clocks, launches, commands and what contexts wait for. -/
structure Leaves (s t : State) : Prop where
  rest : t = { s with dies := t.dies, lclockF := t.lclockF, launches := t.launches, ctxs := t.ctxs, cmds := t.cmds }
  ctxs : CtxsFaulted (fun _ => True) s t

theorem Leaves.refl (s : State) : Leaves s s := ⟨rfl, .refl s⟩

theorem Leaves.trans {s t u : State} (h : Leaves s t) (k : Leaves t u) : Leaves s u := ⟨by rw [k.rest, h.rest], h.ctxs.trans k.ctxs⟩

theorem State.tellDies_leaves (s : State) (ds : List Nat) : Leaves s (s.tellDies ds) := by
  rw [State.tellDies_rest]
  exact ⟨rfl, .of_ctxs rfl⟩

theorem State.releaseSteps_leaves (s : State) (l : Nat) (but : Option Nat) : Leaves s (s.releaseSteps l but) := by
  refine ⟨rfl, fun m => ?_⟩
  have hmap := tget_map_snd s.ctxs (fun p => if p.2.launch = l && p.2.wait = .step && but ≠ some (dieOf (p.1 / 8)) then
    (p.1, { p.2 with wait := .stepDone }) else p) (fun p => by split <;> rfl) m
  change Option.Rel _ _ (tget (s.ctxs.map _) m)
  rw [hmap]
  cases tget s.ctxs m with
  | none => exact .none
  | some c =>
    refine .some ?_
    dsimp only
    split
    · exact ⟨rfl, rfl, rfl, fun _ => id, id, id⟩
    · exact .refl c

theorem State.newDieset_leaves {s : State} (hu : Untraced s) (l : Nat) (f : Launch → Launch) : Leaves s (s.newDieset l f) := by
  obtain ⟨cmds, ds, heq⟩ := State.newDieset_untraced hu l f
  have hmod : Leaves s (({ s with cmds := cmds } : State).modLaunch l (fun x => { f x with diegen := (f x).diegen + 1 })) := ⟨rfl, .of_ctxs rfl⟩
  exact heq ▸ hmod.trans (State.tellDies_leaves _ ds)

theorem State.loseDie_leaves {s : State} (hu : Untraced s) (d l : Nat) : Leaves s (s.loseDie d l) := by
  cases hx : s.launch? l with
  | none =>
    rw [State.loseDie, hx]
    exact .refl s
  | some x =>
    obtain ⟨ofThis, but, heq⟩ := State.loseDie_eq (d := d) hx
    have hstep : Leaves s (if x.dieset.getLsbD d then s.newDieset l (Launch.without d s.now ofThis) else s.modLaunch l (Launch.unchanging ofThis)) := by
      split
      · exact State.newDieset_leaves hu l _
      · exact ⟨rfl, .of_ctxs rfl⟩
    obtain heq | heq := heq
    · exact heq ▸ hstep
    · exact heq ▸ hstep.trans (State.releaseSteps_leaves _ l but)

theorem State.loseDies_leaves {s : State} (hu : Untraced s) (d : Nat) (ls : List Nat) : Leaves s (ls.foldl (fun s l => s.loseDie d l) s) := by
  induction ls generalizing s with
  | nil => exact .refl s
  | cons l ls ih =>
    have hstep := State.loseDie_leaves hu d l
    exact hstep.trans (ih (untraced_of_regs hu (by rw [hstep.rest])))

/-! ### The reset that a link's failure starts (R383) -/

/-- A die as an ABANDON reset of it begins for a link's failure. -/
def Die.abandoned (e : Die) (now : Nat) : Die :=
  { e with admitted := false, count := e.count + 1, cause := 2, result := 0, phase := 1, since := now }

/-- What such a reset leaves: the die out of service, the other dies as they were, and its contexts stopping. -/
structure Abandons (d : Nat) (s t : State) : Prop where
  rest   : t = { s with dies := t.dies, lclockF := t.lclockF, launches := t.launches, ctxs := t.ctxs, cmds := t.cmds }
  ctxs   : CtxsFaulted (fun _ => True) s t
  here   : t.die d = { (s.die d).abandoned s.now with lclock := (t.die d).lclock }
  others : ∀ k, k ≠ d → t.die k = { s.die k with lclock := (t.die k).lclock }
  stops  : ∀ m c, tget t.ctxs m = some c → m / 32 = d → c.stop ≠ none

theorem State.startReset_abandons {s : State} (hu : Untraced s) (d : Nat) : Abandons d s (s.startReset d true 2) := by
  let x : Die := { s.die d with admitted := false, count := (s.die d).count + 1, cause := 2, result := 0 }
  have hset : (s.setDie d x).die d = x := (State.die_setDie ..).trans (if_pos rfl)
  have hother {k : Nat} (hk : k ≠ d) : (s.setDie d x).die k = s.die k := (State.die_setDie ..).trans (if_neg hk)
  have hstart : ∃ ls : List Nat, s.startReset d true 2 = (ls.foldl (fun s l => s.loseDie d l) ((s.setDie d x).enterPhase d 1)).stopAll { cls := 0x32 }
      ((ls.foldl (fun s l => s.loseDie d l) ((s.setDie d x).enterPhase d 1)).ctxsOn d) := ⟨_, rfl⟩
  obtain ⟨ls, heq⟩ := hstart
  obtain ⟨hd, hk, hrest⟩ := id (State.enterPhase_enters (s := s.setDie d x) hu d 1)
  rw [hset] at hd
  generalize (s.setDie d x).enterPhase d 1 = u at heq hd hk hrest
  have hu' : Untraced u := untraced_of_regs hu (by rw [hrest]; rfl)
  have hleaves := State.loseDies_leaves hu' d ls
  have hkept := (State.loseDies_lose hu' d ls).1.dies
  generalize ls.foldl (fun s l => s.loseDie d l) u = v at heq hleaves hkept
  have hstop := v.stopAll_rest { cls := 0x32 } (v.ctxsOn d)
  have hctxs : CtxsFaulted (fun _ => True) s u := .of_ctxs (by rw [hrest]; rfl)
  have hdies : DiesKept u (v.stopAll { cls := 0x32 } (v.ctxsOn d)) := hkept.trans (.of_dies (by rw [hstop]))
  rw [heq]
  refine ⟨?_, (hctxs.trans hleaves.ctxs).trans (State.stopAll_faulted v (w := { cls := 0x32 }) trivial _), hdies.die_eq hd,
    fun k hne => hdies.die_eq ?_, fun m c => State.stopAll_asked v d _⟩
  · rw [hstop, hleaves.rest, hrest]
    rfl
  · rw [hk k hne, hother hne]

end Sys2Proof.Machine
end

section
/-! PROOFS. The errors and the failure of a link (for O55). -/

namespace Sys2Proof.Machine
open Sys2Proof Sys2Proof.Safety

/-! ### The link itself (R383, R410) -/

/-- A link of compute die d. -/
def LinkOf (d : Nat) (l : LinkName) : Prop := l = .front d ∨ ∃ k, l = .near d k

def State.linkGone (v : State) (l : LinkName) : State := { v with downLinks := l :: v.downLinks.filter (· ≠ l) }

/-- A link of die d is down, which resets the die where AUTO is set. -/
def State.dieLinkGone (v : State) (l : LinkName) (d : Nat) : State :=
  if ((v.linkGone l).die d).auto && ((v.linkGone l).die d).phase = 0 then (v.linkGone l).startReset d true 2 else v.linkGone l

/-- A link that has failed, once what it held is faulted. -/
def State.afterLink (v : State) (l : LinkName) : State :=
  match l with
  | .near d _ => v.dieLinkGone l d
  | .front d => v.dieLinkGone l d
  | .stack _ => v.linkGone l
  | .finzu p => v.retrainPort p 3
  | .host => { v with regs := { v.regs with hostUp := false } }

theorem execLinkFailure_fails {s : State} {l : LinkName} (h : realLink l = true) : exec (.linkFailure l) s =
    .next (((s.errorRecord (linkSource l).1 2 none 0 (linkSource l).2 0).cutLink l s.lclockF).afterLink l) := by
  change execLinkFailure l s = _
  unfold execLinkFailure
  rw [h, if_neg (by decide)]
  cases l <;> rfl

theorem execLinkFailure_unreal {s : State} {l : LinkName} (h : realLink l = false) : exec (.linkFailure l) s = .next s := by
  change execLinkFailure l s = _
  unfold execLinkFailure
  rw [h]
  rfl

theorem State.afterLink_die {v : State} {l : LinkName} {d : Nat} (h : LinkOf d l) : v.afterLink l = v.dieLinkGone l d := by
  obtain rfl | ⟨k, rfl⟩ := h
  · rfl
  · rfl

/-- The failure of a die's own link, with AUTO set and no reset in progress, begins one. -/
theorem State.afterLink_resets {v : State} {l : LinkName} {d : Nat} (hu : Untraced v) (h : LinkOf d l) (hauto : (v.die d).auto = true)
    (hphase : (v.die d).phase = 0) : Abandons d (v.linkGone l) (v.afterLink l) := by
  rw [State.afterLink_die h, State.dieLinkGone, if_pos]
  · exact State.startReset_abandons (s := v.linkGone l) hu d
  · change ((v.die d).auto && decide ((v.die d).phase = 0)) = true
    rw [hauto, hphase]
    rfl

/-- Otherwise the failure changes the link's own state alone. -/
theorem State.afterLink_still {v : State} {l : LinkName} (h : ∀ d, LinkOf d l → ¬((v.die d).auto = true ∧ (v.die d).phase = 0)) :
    v.afterLink l = { v with downLinks := (v.afterLink l).downLinks, regs := (v.afterLink l).regs } ∧
      (v.afterLink l).regs.errTail = v.regs.errTail := by
  have hdie {d : Nat} (hd : LinkOf d l) : v.afterLink l = v.linkGone l := by
    rw [State.afterLink_die hd, State.dieLinkGone, if_neg]
    intro hboth
    rw [Bool.and_eq_true, decide_eq_true_eq] at hboth
    exact h d hd hboth
  cases l with
  | near d k =>
    rw [hdie (.inr ⟨k, rfl⟩)]
    exact ⟨rfl, rfl⟩
  | front d =>
    rw [hdie (.inl rfl)]
    exact ⟨rfl, rfl⟩
  | stack k => exact ⟨rfl, rfl⟩
  | finzu p => exact ⟨rfl, rfl⟩
  | host => exact ⟨rfl, rfl⟩

theorem LinkOf.eq {d e : Nat} {l : LinkName} (h : LinkOf d l) (k : LinkOf e l) : d = e := by
  obtain rfl | ⟨j, rfl⟩ := h
  · obtain h | ⟨_, h⟩ := k
    · cases h
      rfl
    · cases h
  · obtain h | ⟨_, h⟩ := k
    · cases h
    · cases h
      rfl

/-- A link of a die or of a stack is among those that are down. -/
theorem State.mem_downLinks {v : State} {l : LinkName} (hu : Untraced v) {d : Nat} (h : LinkOf d l ∨ l = .stack d) : l ∈ (v.afterLink l).downLinks := by
  obtain h | rfl := h
  · by_cases hreset : (v.die d).auto = true ∧ (v.die d).phase = 0
    · rw [(State.afterLink_resets hu h hreset.1 hreset.2).rest]
      exact List.mem_cons_self
    · rw [State.afterLink_die h, State.dieLinkGone, if_neg]
      · exact List.mem_cons_self
      · intro hboth
        rw [Bool.and_eq_true, decide_eq_true_eq] at hboth
        exact hreset hboth
  · exact List.mem_cons_self

/-- What the failure changes beyond the faults: the link's own state, and what a reset begins with. -/
structure LinkEnds (v t : State) : Prop where
  mem   : t.mem = v.mem
  l2    : t.l2 = v.l2
  tail  : t.regs.errTail = v.regs.errTail
  accs  : t.accs = v.accs
  cores : t.cores = v.cores
  code  : t.code = v.code
  walks : t.walks = v.walks
  ctxs  : CtxsFaulted (fun _ => True) v t

theorem State.afterLink_ends {v : State} (hu : Untraced v) (l : LinkName) : LinkEnds v (v.afterLink l) := by
  by_cases h : ∃ d, LinkOf d l ∧ (v.die d).auto = true ∧ (v.die d).phase = 0
  · obtain ⟨d, hd, hauto, hphase⟩ := h
    have hres := State.afterLink_resets hu hd hauto hphase
    have hctxs := (CtxsFaulted.of_ctxs (Q := fun _ => True) (s := v) (t := v.linkGone l) rfl).trans hres.ctxs
    rw [hres.rest] at hctxs ⊢
    exact ⟨rfl, rfl, rfl, rfl, rfl, rfl, rfl, hctxs⟩
  · obtain ⟨hrest, htail⟩ := State.afterLink_still (v := v) (l := l) fun d hd hboth => h ⟨d, hd, hboth⟩
    have hctxs : CtxsFaulted (fun _ => True) v (v.afterLink l) := .of_ctxs (by rw [hrest])
    refine ⟨?_, ?_, htail, ?_, ?_, ?_, ?_, hctxs⟩ <;> rw [hrest]

/-! ### The whole failure -/

theorem linkSource_lt {l : LinkName} (h : realLink l = true) : (linkSource l).1 < 2 ^ 8 ∧ (linkSource l).2 < 2 ^ 16 := by
  cases l with
  | near d k =>
    obtain ⟨hd, -⟩ := of_decide_eq_true h
    exact ⟨(by decide : 5 < 2 ^ 8), by change d < _; omega⟩
  | front d =>
    have hd : d < 8 := of_decide_eq_true h
    exact ⟨(by decide : 5 < 2 ^ 8), by change d < _; omega⟩
  | stack k =>
    have hk : k < 12 := of_decide_eq_true h
    exact ⟨(by decide : 5 < 2 ^ 8), by change k < _; omega⟩
  | finzu p =>
    have hp : p < 16 := of_decide_eq_true h
    exact ⟨(by decide : 6 < 2 ^ 8), by change p < _; omega⟩
  | host => exact ⟨by decide, by decide⟩

/-- A reset begins on die d as link l fails. -/
def Resets (s : State) (l : LinkName) (d : Nat) : Prop := LinkOf d l ∧ (s.die d).auto = true ∧ (s.die d).phase = 0

section
variable {s : State} {l : LinkName} (hreal : realLink l = true) (hroom : Roomy s (errorSlot s)) (hw : Unwatched s) (hu : Untraced s)
include hreal hroom hw hu

/-- The failure of a link: its record, the faults of what it held, and the end of the link, in this order. -/
theorem execLinkFailure_stages : ∃ v t, exec (.linkFailure l) s = .next t ∧ t = v.afterLink l ∧ LinkEnds v t ∧ Untraced v ∧ v.dies = s.dies ∧
    v.regs = { s.regs with errTail := s.regs.errTail + 1 } ∧ CtxsFaulted (· = 0x31) s v ∧
    ErrorRecorded s v [(linkSource l).1 * 2 ^ 56 + 2 * 2 ^ 54 + s.lclockF.toNat, 0, (linkSource l).2, 0] ∧
    (∀ a ∈ s.heldBy l, AccessCut a v) ∧ (∀ y ∈ s.code.fills, s.fillCrosses l y = true → y ∉ v.code.fills) ∧
    (∀ d k, l = .near d k → ∀ w ∈ s.walksOf d, w.users ≠ [] → walkerStack d (BitVec.ofNat 72 (w.vpn.toNat * 4096)) = k →
      ∃ y ∈ v.walks, y = { w with kind := some kLink, clk := y.clk }) := by
  obtain ⟨hsource, hunit⟩ := linkSource_lt hreal
  have hrecord := State.errorRecord_link hroom hsource (kind := 2) (by decide) hunit
  obtain ⟨mem, frames, heq⟩ := State.errorRecord_unwatched hw hroom (linkSource l).1 2 none 0 (linkSource l).2 0
  have hexec := execLinkFailure_fails (s := s) hreal
  rw [heq] at hrecord hexec
  have hcut := State.cutLink_cuts { s with mem := mem, frames := frames, regs := { s.regs with errTail := s.regs.errTail + 1 } } l s.lclockF
  generalize State.cutLink { s with mem := mem, frames := frames, regs := { s.regs with errTail := s.regs.errTail + 1 } } l s.lclockF = v at hexec hcut
  have hregs : v.regs = { s.regs with errTail := s.regs.errTail + 1 } := by rw [hcut.rest]
  have hu' : Untraced v := fun n hn => by
    have := hu n hn
    rwa [State.ret, hregs]
  refine ⟨v, _, hexec, rfl, State.afterLink_ends hu' l, hu', by rw [hcut.rest], hregs, (CtxsFaulted.of_ctxs rfl).trans hcut.ctxs, errorRecorded_kept hrecord ?_ ?_ ?_,
    hcut.accs, hcut.fills, fun d k hl w hmem husers hstack => ?_⟩
  · rw [hcut.rest]
  · rw [hcut.rest]
  · rw [hregs]
  · subst hl
    obtain ⟨hd, -⟩ := of_decide_eq_true hreal
    have hdie : w.die = d := by
      have := (List.mem_filter.mp (List.mem_of_mem_take hmem)).2
      rw [Bool.and_eq_true, decide_eq_true_eq] at this
      exact this.1
    refine hcut.walks d hd w hmem ?_ husers
    unfold State.walkCrosses
    dsimp only
    rw [hdie, hstack]
    simp

end

/-- What a link held as it failed: its access, the context of the access, and its core. -/
theorem AccessCut.faults {s v t : State} {a : Access} {c : Ctx} (h : AccessCut a v) (hends : LinkEnds v t) (hctxs : CtxsFaulted (· = 0x31) s v)
    (hc : s.ctx? a.cl a.slot = some c) (hrun : Running c) :
    (∃ y ∈ t.accs, y = { a with bad := true, clk := y.clk }) ∧ ∃ c', t.ctx? a.cl a.slot = some c' ∧ c'.stop ≠ none ∧
      (t.ctxs = v.ctxs → c'.stop.map (fun y => y.cls) = some 0x31 ∧ c'.pc = c.pc ∧ c'.g = c.g ∧ c'.k = c.k) ∧
      (∀ u g, a.dest = .gen u g → tget c'.gt g.toNat = none) ∧ ∀ k y, a.agent = .core k → t.core? a.cl k = some y → y.failed = true := by
  obtain ⟨hacc, hstop, htarget, hcore⟩ := h.faulted hends.ctxs hends.cores hends.accs
  obtain ⟨c1, hc1, hfault⟩ := hctxs.some hc
  obtain ⟨c2, hc2, -⟩ := hends.ctxs.some hc1
  refine ⟨hacc, c2, hc2, hstop c2 hc2, fun hsame => ?_, fun u g hdest => htarget u g hdest c2 hc2, fun k y hk hy => hcore k hk y hy⟩
  have hsame' : c2 = c1 := by
    rw [hsame, hc1] at hc2
    exact (Option.some.inj hc2).symm
  subst hsame'
  refine ⟨?_, hfault.pc, hfault.g, hfault.k⟩
  obtain ⟨x, hx⟩ := Option.ne_none_iff_exists'.mp (hstop c2 hc2)
  have hcls := hfault.cls (fun y hy => absurd (hrun.symm.trans hy) (Option.some_ne_none y).symm) x hx
  rw [hx, Option.map_some, hcls]

/-! ### A flit that fails its check -/

theorem execLinkFlitError_waits (s : State) (l : LinkName) : exec (.linkFlitError l false) s = .next s := rfl

theorem execLinkFlitError_unreal {s : State} {l : LinkName} (h : realLink l = false) (again : Bool) : exec (.linkFlitError l again) s = .next s := by
  change execLinkFlitError l again s = _
  unfold execLinkFlitError
  rw [h]
  exact if_pos (Bool.or_true _)

/-- The state of a Finzu port that retrains after its flit has failed twice. -/
def State.flitRetrained (s : State) (l : LinkName) : State :=
  match l with
  | .finzu p => if (tgetD s.regs.finzu p ⟨0, 0, 0⟩).state = 2 then s.retrainPort p 2 else s
  | _ => s

theorem execLinkFlitError_records {s : State} {l : LinkName} (h : realLink l = true) : exec (.linkFlitError l true) s =
    .next ((s.flitRetrained l).errorRecord (linkSource l).1 1 none 0 (linkSource l).2 0) := by
  change execLinkFlitError l true s = _
  unfold execLinkFlitError
  rw [h, if_neg (by decide)]
  rfl

theorem State.flitRetrained_rest (s : State) (l : LinkName) :
    s.flitRetrained l = { s with regs := { s.regs with finzu := (s.flitRetrained l).regs.finzu } } := by
  unfold State.flitRetrained
  split
  · split <;> rfl
  · rfl

/-- Port p is now v, and every other port is as before. -/
def OnlyPort (s t : State) (p : Nat) (v : Finzu) : Prop := tget t.regs.finzu p = some v ∧ ∀ m, m ≠ p → tget t.regs.finzu m = tget s.regs.finzu m

/-- A port in a new state, its retraining counted. -/
def Finzu.retrained (f : Finzu) (st : BitVec 2) : Finzu := { f with state := st, retrains := if f.retrains = 0xFFFF then f.retrains else f.retrains + 1 }

theorem State.retrainPort_only (s : State) (p : Nat) (st : BitVec 2) :
    OnlyPort s (s.retrainPort p st) p ((tgetD s.regs.finzu p ⟨0, 0, 0⟩).retrained st) :=
  ⟨tget_tput_same .., fun _ hm => tget_tput_other _ hm _⟩

/-- A flit that fails twice is recorded, and retrains a port that is up. -/
theorem execLinkFlitError_effect {s : State} {l : LinkName} (hreal : realLink l = true) (hroom : Roomy s (errorSlot s)) :
    Happens s (.linkFlitError l true) fun t => (∀ n, l = .finzu n → (tgetD s.regs.finzu n ⟨0, 0, 0⟩).state = 2 →
      OnlyPort s t n ((tgetD s.regs.finzu n ⟨0, 0, 0⟩).retrained 2)) ∧
      ErrorRecorded s t [(linkSource l).1 * 2 ^ 56 + 1 * 2 ^ 54 + s.lclockF.toNat, 0, (linkSource l).2, 0] := by
  obtain ⟨hsource, hunit⟩ := linkSource_lt hreal
  refine ⟨_, execLinkFlitError_records hreal, fun n hl hup => ?_, ?_⟩
  · subst hl
    have hport : s.flitRetrained (.finzu n) = s.retrainPort n 2 := if_pos hup
    have hregs := State.errorRecord_regs (s.retrainPort n 2) (linkSource (.finzu n)).1 1 none 0 (linkSource (.finzu n)).2 0
    rw [hport, OnlyPort, hregs]
    exact s.retrainPort_only n 2
  · have hrest := s.flitRetrained_rest l
    generalize s.flitRetrained l = u at hrest
    rw [hrest]
    obtain ⟨htail, hrecord, hothers⟩ := State.errorRecord_link (s := { s with regs := { s.regs with finzu := u.regs.finzu } }) hroom hsource (kind := 1)
      (by decide) hunit
    exact ⟨htail, hrecord, hothers⟩

/-! ### Ports that train (R409, R410) -/

theorem State.retrainPort_finzu (s : State) (p : Nat) (st : BitVec 2) (n : Nat) : tgetD (s.retrainPort p st).regs.finzu n ⟨0, 0, 0⟩ =
    if n = p then (tgetD s.regs.finzu p ⟨0, 0, 0⟩).retrained st else tgetD s.regs.finzu n ⟨0, 0, 0⟩ := tgetD_tput ..

/-- Of some ports that retrain, each in its turn, every one has counted it once. -/
theorem State.retrainPorts_finzu (s : State) {ps : List Nat} (h : ps.Nodup) (st : BitVec 2) (n : Nat) :
    tgetD (ps.foldl (fun s p => s.retrainPort p st) s).regs.finzu n ⟨0, 0, 0⟩ =
      if n ∈ ps then (tgetD s.regs.finzu n ⟨0, 0, 0⟩).retrained st else tgetD s.regs.finzu n ⟨0, 0, 0⟩ := by
  induction ps generalizing s with
  | nil => rfl
  | cons p ps ih =>
    obtain ⟨hp, hps⟩ := List.nodup_cons.mp h
    rw [List.foldl_cons, ih _ hps, State.retrainPort_finzu]
    by_cases hn : n = p
    · subst hn
      simp [hp]
    · simp [hn]

theorem State.retrainPorts_rest (s : State) (ps : List Nat) (st : BitVec 2) : ps.foldl (fun s p => s.retrainPort p st) s =
    { s with regs := { s.regs with finzu := (ps.foldl (fun s p => s.retrainPort p st) s).regs.finzu } } := by
  induction ps generalizing s with
  | nil => rfl
  | cons p ps ih =>
    rw [List.foldl_cons, ih]
    rfl

/-- FZCMD: exactly the selected ports train again. -/
theorem execFinzuRetrain_trains (s : State) (x : W64) : Happens s (.finzuRetrain x) fun t => t = { s with regs := { s.regs with finzu := t.regs.finzu } } ∧
    ∀ n < 16, tgetD t.regs.finzu n ⟨0, 0, 0⟩ =
      if x.getLsbD n then (tgetD s.regs.finzu n ⟨0, 0, 0⟩).retrained 1 else tgetD s.regs.finzu n ⟨0, 0, 0⟩ := by
  refine ⟨_, rfl, s.retrainPorts_rest _ 1, fun n hn => ?_⟩
  have hmem : n ∈ setBits 16 (slice x 15 0) ↔ x.getLsbD n = true := by
    have hslice : slice x 15 0 = x.toNat % 2 ^ 16 := rfl
    rw [mem_setBits, hslice, Nat.testBit_mod_two_pow, BitVec.getLsbD]
    simp [hn]
  have hnodup : (setBits 16 (slice x 15 0)).Nodup := List.nodup_range.filter _
  rw [State.retrainPorts_finzu s hnodup 1]
  simp only [hmem]

end Sys2Proof.Machine
end

section
/-! PROOFS. One line of memory as the host and peers reach it (for O55). -/

namespace Sys2Proof.Machine
open Sys2Proof Sys2Proof.Safety

/-! ### Places of one line -/

theorem homeOf_samePage {a b : Nat} (h : a / 4096 = b / 4096) : homeOf a = homeOf b := by
  have hpeer : bits a 52 42 = bits b 52 42 := by
    unfold bits
    rw [Nat.shiftRight_eq_div_pow, Nat.shiftRight_eq_div_pow]
    omega
  have hdram : a ≤ 0x8FFFFFFFFF ↔ b ≤ 0x8FFFFFFFFF := by omega
  have hcapacity : 0x10000000000 ≤ a ∧ a ≤ 0x2FFFFFFFFFF ↔ 0x10000000000 ≤ b ∧ b ≤ 0x2FFFFFFFFFF := by omega
  have hflag : 0x40000000000 ≤ a ∧ a ≤ 0x400003FFFFF ↔ 0x40000000000 ≤ b ∧ b ≤ 0x400003FFFFF := by omega
  have hhost : 0x10000000000000 ≤ a ∧ a ≤ 0x1FFFFFFFFFFFFF ↔ 0x10000000000000 ≤ b ∧ b ≤ 0x1FFFFFFFFFFFFF := by omega
  have hfar : 0x20000000000000 ≤ a ∧ a ≤ 0x3FFFFFFFFFFFFF ↔ 0x20000000000000 ≤ b ∧ b ≤ 0x3FFFFFFFFFFFFF := by omega
  unfold homeOf
  simp only [hdram, hcapacity, hflag, hhost, hfar, hpeer]

theorem homeOf_sameLine {a b : Nat} (h : a / 128 = b / 128) : homeOf a = homeOf b := homeOf_samePage (by omega)

theorem homeOf_lineBase (pa : Nat) : homeOf (128 * lineOf pa) = homeOf pa := homeOf_sameLine (by unfold lineOf; omega)

theorem stackOf_sameLine {a b : Nat} (hc : (homeOf b).cached = true) (h : a / 128 = b / 128) : stackOf a = stackOf b := by
  have hstart : rangeStart a = rangeStart b := by
    unfold rangeStart
    rw [homeOf_sameLine h]
  have hrange := cached_ranges hc
  unfold stackOf
  rw [hstart]
  omega

theorem linesOf_inLine {pa n : Nat} (h : InLine pa n) : linesOf pa n = [lineOf pa] := by
  obtain ⟨hpos, hfits⟩ := h
  have hspan : (pa + n - 1) / 128 - pa / 128 + 1 = 1 := by omega
  rw [linesOf_eq hpos, linesFrom, hspan]
  rfl

theorem roomy_lineBase {s : State} {pa : Nat} : Roomy s (128 * lineOf pa) ↔ Roomy s pa := by
  have hline : lineOf (128 * lineOf pa) = lineOf pa := lineOf_add (lineOf pa) (j := 0) (by decide)
  unfold Roomy
  rw [homeOf_lineBase, hline]

/-- A line that a slice holds and has room for. -/
theorem roomy_l2Rest {s : State} {pa : Nat} (h : Roomy s pa) {l : Line} (hl : s.l2Line (lineOf pa) = some l) :
    (s.l2Rest (lineOf pa)).length < 16 := by
  obtain ⟨hroom, -⟩ := h
  split at hroom
  · exact hroom
  · rw [hl] at hroom
    cases hroom

/-! ### A slice's line written to the backing store -/

/-- The dirty bytes of a line go to the line's own bytes of memory. -/
theorem readByte_writeDirty_other {s : State} {l : Line} (hwf : Memory.wf s.mem = true) {a : Nat} (ha : lineOf a ≠ l.line) :
    readByte (s.writeDirty l).mem a = readByte s.mem a := by
  have hput (is : List Nat) (his : ∀ i ∈ is, i < 128) (m : List Host.Cell) (hm : Memory.wf m = true) :
      readByte (is.foldl (fun m i => if s.badAt (128 * l.line + i) 1 then m else writeByte m (128 * l.line + i) (BitVec.ofNat 8 (l.get i 1))) m) a =
        readByte m a := by
    induction is generalizing m with
    | nil => rfl
    | cons i is ih =>
      obtain ⟨hi, his⟩ := List.forall_mem_cons.mp his
      have hne : a ≠ 128 * l.line + i := fun h => ha (by rw [h]; exact lineOf_add _ hi)
      rw [List.foldl_cons]
      split
      · exact ih his m hm
      · rw [ih his _ (wf_writeByte hm _ _), readByte_writeByte hm, if_neg hne]
  exact hput _ (fun i hi => (mem_setBits.mp hi).1) s.mem hwf

theorem State.writeDirty_clean (s : State) {l : Line} (h : l.dirty = 0) : s.writeDirty l = s := by
  unfold State.writeDirty
  rw [h]
  rfl

theorem readBytes_congr {m k : List Host.Cell} {pa n : Nat} (h : ∀ a, pa ≤ a → a < pa + n → readByte k a = readByte m a) : readBytes k pa n = readBytes m pa n :=
  List.map_congr_left fun i hi => h _ (by omega) (by have := List.mem_range.mp hi; omega)

/-- What the homes hold does not change as a slice writes a line to the backing store. -/
theorem State.l2Clean_homeByte {s : State} (hwf : Memory.wf s.mem = true) (n : Nat) : (s.l2Clean n).homeByte = s.homeByte := by
  unfold State.l2Clean
  cases hl : s.l2Line n with
  | none => rfl
  | some l =>
    dsimp only
    split
    · rfl
    · have hline : l.line = n := l2Line_line hl
      funext a
      unfold State.homeByte State.homeRead State.homeLine
      rw [State.l2Line_l2Swap]
      by_cases ha : lineOf a = n
      · rw [if_pos (ha.trans hline.symm), ha, hl, show (s.writeDirty l).l2Line n = some l from hl]
        rfl
      · rw [if_neg (fun h => ha (h.trans hline)), show (s.writeDirty l).l2Line (lineOf a) = s.l2Line (lineOf a) from rfl]
        cases s.l2Line (lineOf a) with
        | some x => rfl
        | none =>
          have hbytes : readBytes (s.writeDirty l).mem (128 * lineOf a) 128 = readBytes s.mem (128 * lineOf a) 128 :=
            readBytes_congr fun b hlo hhi => readByte_writeDirty_other hwf (by
              rw [hline, show lineOf b = lineOf a by unfold lineOf at *; omega]
              exact ha)
          unfold State.backingLine
          exact congrArg (fun bs => Line.get ⟨lineOf a, BitVec.ofNat 1024 (ofBytes bs), 0, .normal⟩ (a % 128) 1) hbytes

theorem State.l2Rest_l2Swap (s : State) (x : Line) (n : Nat) : ((s.l2Swap x).l2Rest n).length = (s.l2Rest n).length := by
  have hkeep (set : List Line) : (dropLine (set.map (fun z => if z.line = x.line then x else z)) n).length = (dropLine set n).length := by
    unfold dropLine
    rw [List.filter_map, List.length_map]
    refine congrArg List.length (List.filter_congr fun z _ => ?_)
    rw [Function.comp_apply]
    split
    · rename_i hz
      rw [hz]
    · rfl
  unfold State.l2Rest State.l2Set State.l2Swap
  dsimp only
  rw [tgetD_tput]
  split
  · rename_i hk
    rw [hkeep, State.l2Set, hk]
  · rfl

/-! ### System scope (R255, R297) -/

section
variable {s : State} {pa n : Nat}

/-- A write at system scope reaches the backing store, and a slice's copy where it has one. -/
theorem State.systemWrite_mem (hroom : ∀ z, s.l2Line (lineOf pa) = some z → Roomy s pa) (x : Nat) (h : Hint) :
    (s.systemWrite pa n x h).mem = writeBytes s.mem pa (toBytes n x) := by
  unfold State.systemWrite
  rw [State.homeWritten_mem]
  rw [show ({ s with mem := writeBytes s.mem pa (toBytes n x) } : State).l2Line (lineOf pa) = s.l2Line (lineOf pa) from rfl]
  cases hl : s.l2Line (lineOf pa) with
  | none => rfl
  | some l =>
    refine State.mem_l2Put_roomy h ?_
    have hline : (l.put (pa % 128) n x false).line = lineOf pa := l2Line_line (s := s) (l := l) hl
    rw [hline]
    exact roomy_l2Rest (s := s) (hroom l hl) hl

theorem State.systemWrite_homeRead (hwf : Memory.wf s.mem = true) (hin : InLine pa n) (x : Nat) (h : Hint) :
    (s.systemWrite pa n x h).homeRead pa n = x % 2 ^ (8 * n) := by
  obtain ⟨hpos, hfits⟩ := hin
  unfold State.systemWrite
  rw [State.homeWritten_homeRead]
  rw [show ({ s with mem := writeBytes s.mem pa (toBytes n x) } : State).l2Line (lineOf pa) = s.l2Line (lineOf pa) from rfl]
  cases hl : s.l2Line (lineOf pa) with
  | none =>
    have hread := readBytes_writeBytes hwf pa (toBytes n x) (k := 0) (n := n) (by rw [toBytes_length]; omega)
    rw [Nat.add_zero, List.drop_zero, List.take_of_length_le (toBytes_length n x).le] at hread
    dsimp only
    rw [State.homeRead_backing (s := { s with mem := writeBytes s.mem pa (toBytes n x) }) hl hfits, hread, ofBytes_toBytes]
  | some l =>
    have hline : (l.put (pa % 128) n x false).line = lineOf pa := l2Line_line (s := s) (l := l) hl
    have hpa : 128 * lineOf pa + pa % 128 = pa := Nat.div_add_mod pa 128
    have hput := State.homeRead_l2Put { s with mem := writeBytes s.mem pa (toBytes n x) } (l.put (pa % 128) n x false) h (Nat.mod_lt pa (by decide)) n
    have hget := l.get_put_inside (off := pa % 128) (n := n) (k := 0) (m := n) x false hfits (by omega)
    rw [Nat.add_zero, Nat.mul_zero, Nat.pow_zero, Nat.div_one] at hget
    rw [hline, hpa] at hput
    exact hput.trans hget

/-- The backing store holds the bytes written, and its others as before. -/
theorem readByte_written (hwf : Memory.wf s.mem = true) {x : Nat} {t : State} (hmem : t.mem = writeBytes s.mem pa (toBytes n x)) :
    (∀ i < n, readByte t.mem (pa + i) = BitVec.ofNat 8 (x / 2 ^ (8 * i))) ∧ ∀ a, a < pa ∨ pa + n ≤ a → readByte t.mem a = readByte s.mem a := by
  rw [hmem]
  refine ⟨fun i hi => ?_, fun a ha => readByte_writeBytes_other hwf _ _ (by rwa [toBytes_length])⟩
  rw [readByte_writeBytes hwf pa _ (by rwa [toBytes_length])]
  simp only [toBytes, List.getElem_map, List.getElem_range, Nat.shiftRight_eq_div_pow]

/-- A read at system scope of a line that its slice holds clean finds what the backing store holds, and brings the slice's copy up to it. -/
theorem State.systemRead_clean (hwf : Memory.wf s.mem = true) (hc : (homeOf pa).cached = true) (hopen : s.linkOpen (128 * lineOf pa) = true)
    (hin : InLine pa n) (hroom : ∀ z, s.l2Line (lineOf pa) = some z → Roomy s pa) (hclean : ∀ z, s.l2Line (lineOf pa) = some z → z.dirty = 0) (h : Hint) :
    (s.systemRead pa n h).2.mem = s.mem ∧ (s.systemRead pa n h).2.homeRead pa n = ofBytes (readBytes s.mem pa n) ∧
      ∀ z, (s.systemRead pa n h).2.l2Line (lineOf pa) = some z → Roomy (s.systemRead pa n h).2 pa := by
  obtain ⟨hpos, hfits⟩ := hin
  cases hl : s.l2Line (lineOf pa) with
  | none =>
    have hsame : (s.systemRead pa n h).2 = s := by
      unfold State.systemRead State.l2Clean
      simp only [hl]
    rw [hsame]
    exact ⟨rfl, State.homeRead_backing hl hfits, hroom⟩
  | some l =>
    have hline : l.line = lineOf pa := l2Line_line hl
    let x : Line := { l with dirty := 0, hint := if l.hint = .evictLast && l.dirty ≠ 0 then .normal else l.hint }
    have hx : x.line = lineOf pa := hline
    have hcleaned : s.l2Clean (lineOf pa) = s.l2Swap x := by
      unfold State.l2Clean
      rw [hl, hopen]
      dsimp only
      rw [if_neg (by decide), State.writeDirty_clean s (hclean l hl)]
    have hheld : (s.l2Swap x).l2Line (lineOf pa) = some x := by
      rw [State.l2Line_l2Swap, if_pos hx.symm, hl]
      rfl
    let y : Line := { s.backingLine (lineOf pa) with hint := x.hint }
    have hread : (s.systemRead pa n h).2 = (s.l2Swap x).l2Put y h := by
      unfold State.systemRead
      rw [hcleaned]
      dsimp only
      rw [hheld]
      rfl
    have hrest : ((s.l2Swap x).l2Rest (lineOf pa)).length < 16 := by
      rw [State.l2Rest_l2Swap]
      exact roomy_l2Rest (hroom l hl) hl
    have hmem : ((s.l2Swap x).l2Put y h).mem = s.mem := State.mem_l2Put_roomy (l := y) h hrest
    have hpa : 128 * lineOf pa + pa % 128 = pa := Nat.div_add_mod pa 128
    have hroomy : Roomy (s.l2Swap x) (128 * lineOf pa) := roomy_lineBase.mpr ⟨by rw [if_pos hc]; exact hrest, hwf⟩
    rw [hread]
    refine ⟨hmem, ?_, fun z hz => ?_⟩
    · have hput := State.homeRead_l2Put (s.l2Swap x) y h (Nat.mod_lt pa (by decide)) n
      rw [show y.line = lineOf pa from rfl, hpa] at hput
      have hback : (s.backingLine (lineOf pa)).get (pa % 128) n = ofBytes (readBytes s.mem pa n) := by
        have hfits' : n ≤ 128 - pa % 128 := by omega
        rw [Line.get, State.backingLine, toNat_ofNat_ofBytes (by simp [readBytes]), ofBytes_div, ofBytes_mod, drop_readBytes, hpa, take_readBytes _ _ hfits']
      exact hput.trans hback
    · refine roomy_lineBase.mp (roomy_l2Put (x := y) h ?_ hrest hroomy fun _ hne => absurd rfl hne)
      exact (congrArg Home.cached (homeOf_lineBase pa)).trans hc

end

/-! ### The commands of frames (R378) -/

/-- A frame whose CMD a write to n bytes may have reached, now that the word there is x. -/
def Frame.noting (f : Frame) (pa n x : Nat) : Frame :=
  if decide (f.cmdPa < pa + n ∧ pa < f.cmdPa + 8) && f.state = 2 && f.cmd = 0 && decide (x = 1 ∨ x = 2) then { f with cmd := x } else f

theorem State.push_frames {s t : State} {l cap : Nat} {b : List W64} {die watch : Option Nat} (h : s.push l b cap die watch = some t) :
    t.frames = s.frames := by
  unfold State.push at h
  split at h
  · cases h
  · dsimp only at h
    split at h
    · cases h
    · split at h
      · cases h
        rfl
      · cases h
        split
        · rw [State.message_frames]
          rfl
        · rfl

theorem State.pushIf_frames {s t : State} {p : Prop} [Decidable p] {l cap : Nat} {b : List W64} {die watch : Option Nat}
    (h : (if p then s.push l b cap die watch else none) = some t) : t.frames = s.frames := by
  by_cases hp : p
  · rw [if_pos hp] at h
    exact State.push_frames h
  · rw [if_neg hp] at h
    cases h

/-- What no step of a fold changes, the fold does not. -/
theorem foldl_kept {α β : Type} (g : State → β) (f : State → α → State) (hf : ∀ s x, g (f s x) = g s) (xs : List α) (s : State) :
    g (xs.foldl f s) = g s := by
  induction xs generalizing s with
  | nil => rfl
  | cons x xs ih => rw [List.foldl_cons, ih, hf]

theorem State.fireWatch_frames (s : State) (key pa n : Nat) : (s.fireWatch key pa n).frames = s.frames := by
  unfold State.fireWatch
  split
  · rfl
  · refine foldl_kept State.frames _ (fun u i => ?_) _ s
    dsimp only
    split
    · rfl
    · split
      · split
        · split
          · rename_i t hp
            have ht : t.frames = u.frames := State.pushIf_frames hp
            split <;> exact ht
          · rfl
        · rfl
      · rfl

theorem State.fireWatch_homeRead (s : State) (key pa n a k : Nat) : (s.fireWatch key pa n).homeRead a k = s.homeRead a k := by
  obtain ⟨_, _, _, _, _, _, _, _, h⟩ := State.fireWatch_frame s key pa n
  rw [h]
  rfl

/-- A write at a home gives frames their commands by what their CMDs then hold. -/
theorem State.homeWritten_frames (s : State) (pa n : Nat) :
    (s.homeWritten pa n).frames = s.frames.map (fun p => (p.1, p.2.noting pa n (s.homeRead p.2.cmdPa 8))) := by
  have hfold := foldl_kept State.frames (fun s k => s.fireWatch k pa n) (fun s k => s.fireWatch_frames k pa n)
    ((s.fireMonitors (lineOf pa)).watches.map Prod.fst) (s.fireMonitors (lineOf pa))
  have hread (a : Nat) := foldl_kept (fun s : State => s.homeRead a 8) (fun s k => s.fireWatch k pa n) (fun s k => s.fireWatch_homeRead k pa n a 8)
    ((s.fireMonitors (lineOf pa)).watches.map Prod.fst) (s.fireMonitors (lineOf pa))
  unfold State.homeWritten State.noteCmds
  dsimp only
  rw [hfold]
  refine List.map_congr_left fun p _ => ?_
  rw [hread p.2.cmdPa]
  rfl

/-- A TRAPPED frame without a command is given the one that is written to its CMD. -/
theorem State.homeWritten_gives {s : State} {m pa : Nat} {y : Frame} (hy : tget s.frames m = some y) (hcmd : y.cmdPa = pa) (hstate : y.state = 2)
    (hnone : y.cmd = 0) (hword : s.homeRead pa 8 = 1 ∨ s.homeRead pa 8 = 2) :
    tget (s.homeWritten pa 8).frames m = some { y with cmd := s.homeRead pa 8 } := by
  have hmap := tget_map_snd s.frames (fun p => (p.1, p.2.noting pa 8 (s.homeRead p.2.cmdPa 8))) (fun _ => rfl) m
  have hgiven : y.noting pa 8 (s.homeRead y.cmdPa 8) = { y with cmd := s.homeRead pa 8 } := by
    subst hcmd
    refine if_pos ?_
    rw [hstate, hnone, decide_eq_true hword, decide_eq_true (by omega)]
    rfl
  rw [State.homeWritten_frames, hmap, hy, Option.map_some, hgiven]

end Sys2Proof.Machine
end

section
/-! PROOFS. Requests of the host and of peers (for O55). -/

namespace Sys2Proof.Machine
open Sys2Proof Sys2Proof.Safety

/-! ### Requests that are refused (R91, R255, R408, R412, R413) -/

theorem requestIn_iff (q : OutsideAccess) (ok : Home → Bool) : requestIn q ok = true ↔
    (1 ≤ q.size ∧ q.size ≤ 128) ∧ ok (homeOf q.addr.toNat) = true ∧ homeOf (q.addr.toNat + q.size - 1) = homeOf q.addr.toNat := by
  rw [requestIn, Bool.and_eq_true, Bool.and_eq_true, decide_eq_true_eq, decide_eq_true_eq, and_assoc]

theorem requestIn_false {q : OutsideAccess} (ok : Home → Bool)
    (h : q.size = 0 ∨ 128 < q.size ∨ homeOf (q.addr.toNat + q.size - 1) ≠ homeOf q.addr.toNat) : requestIn q ok = false := by
  refine Bool.eq_false_iff.mpr fun hin => ?_
  obtain ⟨⟨hlo, hhi⟩, -, hsame⟩ := (requestIn_iff q ok).mp hin
  obtain h | h | h := h
  · omega
  · omega
  · exact h hsame

theorem requestIn_inLine {q : OutsideAccess} {ok : Home → Bool} (h : InLine q.addr.toNat q.size) (hok : ok (homeOf q.addr.toNat) = true) :
    requestIn q ok = true := by
  obtain ⟨hpos, hfits⟩ := h
  exact (requestIn_iff q ok).mpr ⟨by omega, hok, homeOf_sameLine (by omega)⟩

theorem storedHome_iff (h : Home) : storedHome h = true ↔ h = .dram ∨ h = .capacity := by
  cases h <;> simp [storedHome]

section
variable {s : State} {q : OutsideAccess}

theorem execHostFlagWindowAccess_refuses (h : s.regs.hostUp = false ∨ s.refused = true ∨ requestIn q (fun h => h = .flag) = false) :
    exec (.hostFlagWindowAccess q) s = .next s := by
  change execHostFlagWindowAccess q s = _
  unfold execHostFlagWindowAccess
  refine if_pos ?_
  obtain h | h | h := h <;> rw [h] <;> simp

theorem execHostApertureAccess_refuses (o : Attempt) (h : s.regs.hostUp = false ∨ s.refused = true ∨ requestIn q storedHome = false) :
    exec (.hostApertureAccess q o) s = .next s := by
  change execHostApertureAccess q o s = _
  unfold execHostApertureAccess
  refine if_pos ?_
  obtain h | h | h := h <;> rw [h] <;> simp

/-- A peer's request is served: its entry and port name it, and the port's die is not isolated. -/
def State.serves (s : State) (peer : BitVec 12) (port : BitVec 4) : Bool :=
  let e := tgetD s.regs.peers peer.toNat 0
  bit e 63 && bit e 62 && s.portServes port.toNat peer.toNat && !s.isolated (port.toNat / 2)

theorem execPeerRequest_eq (peer : BitVec 12) (port : BitVec 4) : exec (.peerRequest peer port q) s =
    if !(s.serves peer port && requestIn q storedHome) || s.refused || s.badAt q.addr.toNat q.size then .next s
    else
      match q.kind with
      | .read => .next ((linesOf q.addr.toNat q.size).foldl (fun s l => s.l2Clean l) s)
      | .write => .next ((s.noteCode q.addr.toNat q.size).systemBytes q.addr.toNat (requestBytes q))
      | _ => .next (if outsideSized q then
          ((s.noteCode q.addr.toNat q.size).atomicAt .system q.addr.toNat q.size .normal (outsideValue q)).2.joinsAt q.addr.toNat else s) := rfl

theorem execPeerRequest_refuses {peer : BitVec 12} {port : BitVec 4}
    (h : s.serves peer port = false ∨ requestIn q storedHome = false ∨ s.refused = true ∨ s.badAt q.addr.toNat q.size = true) :
    exec (.peerRequest peer port q) s = .next s := by
  rw [execPeerRequest_eq]
  refine if_pos ?_
  obtain h | h | h | h := h <;> rw [h] <;> simp

theorem State.serves_iff (s : State) (peer : BitVec 12) (port : BitVec 4) : s.serves peer port = true ↔
    (tgetD s.regs.peers peer.toNat 0).getLsbD 63 = true ∧ (tgetD s.regs.peers peer.toNat 0).getLsbD 62 = true ∧
      s.portServes port.toNat peer.toNat = true ∧ (s.die (port.toNat / 2)).phase.toNat < 4 := by
  have hopen : (!s.isolated (port.toNat / 2)) = true ↔ (s.die (port.toNat / 2)).phase.toNat < 4 := by
    rw [Bool.not_eq_true', State.isolated, decide_eq_false_iff_not, Nat.not_le]
  unfold State.serves
  rw [Bool.and_eq_true, Bool.and_eq_true, Bool.and_eq_true, and_assoc, and_assoc, hopen]
  rfl

theorem State.refused_iff (s : State) : s.refused = true ↔ s.regs.ident.fwStat = 3 := decide_eq_true_iff

/-! ### The host's accesses (R91, R408) -/

variable (hup : s.regs.hostUp = true) (hanswers : s.refused = false) (hin : InLine q.addr.toNat q.size)

theorem requestBytes_inLine (hin : InLine q.addr.toNat q.size) : requestBytes q = toBytes q.size q.data.toNat := by
  obtain ⟨hpos, hfits⟩ := hin
  rw [requestBytes, Nat.min_eq_left (by omega)]

theorem requestBytes_length (hin : InLine q.addr.toNat q.size) : (requestBytes q).length = q.size := by rw [requestBytes_inLine hin, toBytes_length]

theorem ofBytes_requestBytes (hin : InLine q.addr.toNat q.size) : ofBytes (requestBytes q) = q.data.toNat % 2 ^ (8 * q.size) := by
  rw [requestBytes_inLine hin, ofBytes_toBytes]

/-- A request's bytes, written at their home. -/
theorem State.deviceBytes_request (hin : InLine q.addr.toNat q.size) (hroom : Roomy s q.addr.toNat) :
    Holds s (s.deviceBytes q.addr.toNat (requestBytes q)) q.addr.toNat q.size q.data.toNat := by
  have hlen := requestBytes_length hin
  have h := State.deviceBytes_holds (bs := requestBytes q) hroom (hlen.symm ▸ hin)
  rw [ofBytes_requestBytes hin] at h
  obtain ⟨hread, hothers⟩ := h
  rw [hlen, Nat.mod_mod] at hread
  exact ⟨hread, fun a ha => hothers a (by rwa [hlen])⟩

include hup hanswers hin

theorem execHostFlagWindowAccess_writes (hflag : homeOf q.addr.toNat = .flag) (hkind : q.kind = .write) :
    exec (.hostFlagWindowAccess q) s = .next (s.deviceBytes q.addr.toNat (requestBytes q)) := by
  change execHostFlagWindowAccess q s = _
  unfold execHostFlagWindowAccess
  rw [hup, hanswers, requestIn_inLine hin (by rw [hflag]; rfl), if_neg (by decide)]
  simp only [hkind]

theorem execHostFlagWindowAccess_reads (hflag : homeOf q.addr.toNat = .flag) (hkind : q.kind = .read) :
    exec (.hostFlagWindowAccess q) s = .next s := by
  change execHostFlagWindowAccess q s = _
  unfold execHostFlagWindowAccess
  rw [hup, hanswers, requestIn_inLine hin (by rw [hflag]; rfl), if_neg (by decide)]
  simp only [hkind]

variable (hstored : storedHome (homeOf q.addr.toNat) = true)

omit hup hanswers hin in
/-- A link to the module's own memory is always there. -/
theorem State.linkOpen_stored {pa : Nat} (h : storedHome (homeOf pa) = true) : s.linkOpen pa = true := by
  unfold State.linkOpen
  obtain h | h := (storedHome_iff _).mp h <;> rw [h]

omit hup hanswers hin in
theorem State.attempt_ok {pa n : Nat} (hopen : s.linkOpen pa = true) : s.attempt .ok pa n = if s.badAt pa n then .lasting else .ok := by
  unfold State.attempt
  rw [hopen]
  rfl

omit hup hanswers in
theorem badAt_line (hbad : s.badAt q.addr.toNat q.size = true) : s.badLine q.addr.toNat = true := by
  obtain ⟨g, hg, hhit⟩ := List.any_eq_true.mp hbad
  obtain ⟨hpos, hfits⟩ := hin
  refine List.any_eq_true.mpr ⟨g, hg, ?_⟩
  rw [decide_eq_true_eq] at hhit ⊢
  omega

omit hup hanswers hin in
/-- The place that a lasting error is recorded for lies in the line. -/
theorem State.badPlace_sameLine {at_ n : Nat} (hat : at_ / 128 * 128 = q.addr.toNat / 128 * 128) (hn : at_ % 128 + n ≤ 128) :
    s.badPlace at_ n q.addr.toNat / 128 = q.addr.toNat / 128 := by
  unfold State.badPlace
  cases hfind : (List.range n).find? (fun i => s.badAt (at_ + i) 1) with
  | none => rfl
  | some i =>
    have hi := List.mem_range.mp (List.mem_of_find?_eq_some hfind)
    dsimp only
    omega

include hstored

/-- A write that meets no bad data is performed at its home. -/
theorem execHostApertureAccess_writes (hkind : q.kind = .write) (hgood : s.badAt q.addr.toNat q.size = false) : exec (.hostApertureAccess q .ok) s =
    .next ((s.noteCode q.addr.toNat q.size).deviceBytes q.addr.toNat (requestBytes q)) := by
  change execHostApertureAccess q .ok s = _
  unfold execHostApertureAccess
  rw [hup, hanswers, requestIn_inLine hin hstored, if_neg (by decide), hkind]
  have hanswer : s.attempt .ok q.addr.toNat q.size = .ok := by rw [State.attempt_ok (State.linkOpen_stored hstored), hgood]; rfl
  simp only [reduceCtorEq, if_false, hanswer]
  rfl

theorem execHostApertureAccess_reads (hkind : q.kind = .read) (hgood : s.badLine q.addr.toNat = false) : exec (.hostApertureAccess q .ok) s =
    .next (s.l2Fill (lineOf q.addr.toNat) .normal) := by
  have hopen : s.linkOpen (q.addr.toNat / 128 * 128) = true :=
    State.linkOpen_stored (by rwa [homeOf_sameLine (show q.addr.toNat / 128 * 128 / 128 = q.addr.toNat / 128 by omega)])
  change execHostApertureAccess q .ok s = _
  unfold execHostApertureAccess
  rw [hup, hanswers, requestIn_inLine hin hstored, if_neg (by decide), hkind, linesOf_inLine hin]
  have hanswer : s.attempt .ok (q.addr.toNat / 128 * 128) (128 * 1) = .ok := by
    rw [State.attempt_ok hopen, show s.badAt (q.addr.toNat / 128 * 128) (128 * 1) = false from hgood]
    rfl
  simp only [if_true, List.length_singleton, hanswer]
  rfl

/-- An access that meets a lasting error records it, and does nothing else. -/
theorem execHostApertureAccess_fails (hbad : s.badAt q.addr.toNat q.size = true ∨ (q.kind = .read ∧ s.badLine q.addr.toNat = true)) :
    ∃ place, place / 128 = q.addr.toNat / 128 ∧ exec (.hostApertureAccess q .ok) s = .next (s.storageError .lasting place none 0) := by
  obtain ⟨hpos, hfits⟩ := id hin
  change ∃ place, _ ∧ execHostApertureAccess q .ok s = _
  unfold execHostApertureAccess
  rw [hup, hanswers, requestIn_inLine hin hstored, if_neg (by decide)]
  dsimp only
  by_cases hread : q.kind = .read
  · have hopen : s.linkOpen (q.addr.toNat / 128 * 128) = true :=
      State.linkOpen_stored (by rwa [homeOf_sameLine (show q.addr.toNat / 128 * 128 / 128 = q.addr.toNat / 128 by omega)])
    have hline : s.badAt (q.addr.toNat / 128 * 128) (128 * 1) = true := hbad.elim (badAt_line hin) And.right
    refine ⟨s.badPlace (q.addr.toNat / 128 * 128) (128 * 1) q.addr.toNat, State.badPlace_sameLine (by omega) (by omega), ?_⟩
    have hanswer : s.attempt .ok (q.addr.toNat / 128 * 128) (128 * 1) = .lasting := by
      rw [State.attempt_ok hopen, hline]
      rfl
    simp only [linesOf_inLine hin, hread, if_true, List.length_singleton, hanswer]
  · have hbytes : s.badAt q.addr.toNat q.size = true := hbad.resolve_right fun h => hread h.1
    refine ⟨s.badPlace q.addr.toNat q.size q.addr.toNat, State.badPlace_sameLine (by omega) (by omega), ?_⟩
    have hanswer : s.attempt .ok q.addr.toNat q.size = .lasting := by rw [State.attempt_ok (State.linkOpen_stored hstored), hbytes]; rfl
    simp only [hread, if_false, hanswer, if_true]

end

end Sys2Proof.Machine
end

section
/-! PROOFS. The links, the host and the peers together (O55). -/

namespace Sys2Proof.Machine
open Sys2Proof Sys2Proof.Safety

/-! ### What the host's access leaves (R378, R408) -/

section
variable {s : State} {q : OutsideAccess}

/-- A line put at its home, before a write there sets off what it does. -/
def State.homePut (s : State) (pa n x : Nat) (h : Hint) : State :=
  if (homeOf pa).cached then s.l2Put ((s.homeLine (lineOf pa)).put (pa % 128) n x true) h else { s with mem := writeBytes s.mem pa (toBytes n x) }

theorem State.homePut_frames (s : State) (pa n x : Nat) (h : Hint) : (s.homePut pa n x h).frames = s.frames := by
  unfold State.homePut State.l2Put
  split
  · dsimp only
    split <;> rfl
  · rfl

/-- Eight bytes written to the CMD of a TRAPPED frame give it its command. -/
theorem State.deviceBytes_commands (hin : InLine q.addr.toNat q.size) (hroom : Roomy s q.addr.toNat) (hsize : q.size = 8) {m : Nat} {y : Frame}
    (hy : tget s.frames m = some y) (hcmd : y.cmdPa = q.addr.toNat) (hstate : y.state = 2) (hnone : y.cmd = 0)
    (hword : q.data.toNat % 2 ^ 64 = 1 ∨ q.data.toNat % 2 ^ 64 = 2) :
    tget (s.deviceBytes q.addr.toNat (requestBytes q)).frames m = some { y with cmd := q.data.toNat % 2 ^ 64 } := by
  have hlen := requestBytes_length hin
  have hholds := (State.deviceBytes_request hin hroom).1
  have hone : s.deviceBytes q.addr.toNat (requestBytes q) =
      (s.homePut q.addr.toNat (requestBytes q).length (ofBytes (requestBytes q)) .normal).homeWritten q.addr.toNat (requestBytes q).length :=
    State.byLine_inLine s _ (hlen.symm ▸ hin)
  rw [hone, State.homeWritten_homeRead, hsize] at hholds
  rw [hone]
  have hread : (s.homePut q.addr.toNat (requestBytes q).length (ofBytes (requestBytes q)) .normal).homeRead q.addr.toNat 8 = q.data.toNat % 2 ^ 64 := hholds
  have hlen' : (requestBytes q).length = 8 := hlen.trans hsize
  have hgives := State.homeWritten_gives (s := s.homePut q.addr.toNat (requestBytes q).length (ofBytes (requestBytes q)) .normal)
    ((congrArg (tget · m) (State.homePut_frames ..)).trans hy) hcmd hstate hnone (by rwa [hread])
  rw [hread] at hgives
  rw [hlen'] at hgives ⊢
  exact hgives

/-- To bring a line into its slice, where it has room, changes no byte. -/
theorem State.l2Fill_reads (hroom : Roomy s q.addr.toNat) : (s.l2Fill (lineOf q.addr.toNat) .normal).mem = s.mem ∧
    (s.l2Fill (lineOf q.addr.toNat) .normal).ctxs = s.ctxs ∧ ∀ v, (s.l2Fill (lineOf q.addr.toNat) .normal).homeRead v 1 = s.homeRead v 1 := by
  have hline := roomy_lineBase.mpr hroom
  have hstill := (l2Fill_still (m := lineOf q.addr.toNat) .normal hline).1
  refine ⟨?_, ?_, fun v => congrFun hstill v⟩
  all_goals
    unfold State.l2Fill
    split
    · rename_i hc
      obtain ⟨hrest, -⟩ := roomy_line hline
      rw [if_pos hc] at hrest
      obtain ⟨g, hg⟩ := State.l2Put_roomy (l := s.homeLine (lineOf q.addr.toNat)) .normal (by rwa [s.homeLine_line])
      rw [hg]
    · rfl

/-- The record of a lasting error that the host has met. -/
theorem State.lasting_recorded (hstored : storedHome (homeOf q.addr.toNat) = true) (hslot : Roomy s (errorSlot s)) {place : Nat}
    (hplace : place / 128 = q.addr.toNat / 128) :
    let cached := (s.l2Line (lineOf q.addr.toNat)).isSome
    let dram := decide (homeOf q.addr.toNat = .dram)
    ErrorRecorded s (s.storageError .lasting place none 0) [(if cached then 3 else if dram then 1 else 2) * 2 ^ 56 + 2 * 2 ^ 54 + s.lclockF.toNat,
      q.addr.toNat / 128 * 128, if cached then stackOf q.addr.toNat else if dram then q.addr.toNat / 4096 % 12 else (q.addr.toNat - 0x10000000000) / 4096 % 4, 0] := by
  intro cached dram
  have hc : (homeOf q.addr.toNat).cached = true := by
    obtain h | h := (storedHome_iff _).mp hstored <;> rw [h] <;> rfl
  have hsource : s.errorSource place = (if cached then 3 else if dram then 1 else 2,
      if cached then stackOf q.addr.toNat else if dram then q.addr.toNat / 4096 % 12 else (q.addr.toNat - 0x10000000000) / 4096 % 4) := by
    have hstack := stackOf_sameLine hc hplace
    have hline : lineOf place = lineOf q.addr.toNat := hplace
    unfold State.errorSource behind
    rw [hline, homeOf_sameLine hplace, hstack]
    by_cases hcached : (s.l2Line (lineOf q.addr.toNat)).isSome = true
    · simp only [cached, hcached, if_true]
    · obtain h | h := (storedHome_iff _).mp hstored
      · have hzero : stackOf q.addr.toNat = q.addr.toNat / 4096 % 12 := by
          simp only [stackOf, rangeStart, h, Nat.sub_zero]
        simp only [cached, dram, hcached, h, decide_true, if_true, hzero, Bool.false_eq_true, if_false]
      · have hnot : decide (homeOf q.addr.toNat = .dram) = false := by rw [h]; rfl
        have hsame : (place - 0x10000000000) / 4096 % 4 = (q.addr.toNat - 0x10000000000) / 4096 % 4 := by omega
        simp only [cached, dram, hcached, hnot, h, hsame, Bool.false_eq_true, if_false]
  have haddr := q.addr.isLt
  have hloc : place / 128 * 128 = q.addr.toNat / 128 * 128 := by rw [hplace]
  have hunit : (if cached then stackOf q.addr.toNat else if dram then q.addr.toNat / 4096 % 12 else (q.addr.toNat - 0x10000000000) / 4096 % 4) < 2 ^ 16 := by
    have : stackOf q.addr.toNat < 12 := Nat.mod_lt _ (by decide)
    split
    · omega
    · split <;> omega
  have hcode : (if cached then 3 else if dram then 1 else 2 : Nat) < 2 ^ 8 := by
    split
    · omega
    · split <;> omega
  have hrecord := State.errorRecord_recorded hslot (if cached then 3 else if dram then 1 else 2) 2 none (q.addr.toNat / 128 * 128)
    (if cached then stackOf q.addr.toNat else if dram then q.addr.toNat / 4096 % 12 else (q.addr.toNat - 0x10000000000) / 4096 % 4) 0
  rw [errorWords_toNat hcode (by decide) (s.lclock none).isLt (by omega) hunit] at hrecord
  unfold State.storageError
  rw [hsource, hloc]
  exact errorRecorded_kept hrecord rfl rfl rfl

/-! ### What a peer's request leaves (R255, R412) -/

variable {peer : BitVec 12} {port : BitVec 4} (hserves : s.serves peer port = true) (hanswers : s.refused = false) (hin : InLine q.addr.toNat q.size)
  (hgood : s.badAt q.addr.toNat q.size = false) (hstored : storedHome (homeOf q.addr.toNat) = true)

theorem State.l2Clean_ctxs (s : State) (n : Nat) : (s.l2Clean n).ctxs = s.ctxs := by
  unfold State.l2Clean
  split
  · rfl
  · split <;> rfl

theorem State.l2Clean_held {n : Nat} {z : Line} (hz : s.l2Line n = some z) (hopen : s.linkOpen (128 * n) = true) :
    ((s.l2Clean n).l2Line n).map (fun w => w.dirty) = some 0 := by
  have hline : z.line = n := l2Line_line hz
  unfold State.l2Clean
  rw [hz, hopen]
  dsimp only
  rw [if_neg (by decide), State.l2Line_l2Swap, if_pos hline.symm, show (s.writeDirty z).l2Line n = some z from hz]
  rfl

/-- An atomic at system scope of a line that its slice holds clean works on what the backing store holds, and leaves it there and in the slice. -/
theorem State.atomicAt_clean {pa n : Nat} (hwf : Memory.wf s.mem = true) (hstored : storedHome (homeOf pa) = true) (hin : InLine pa n)
    (hroom : ∀ z, s.l2Line (lineOf pa) = some z → Roomy s pa) (hclean : ∀ z, s.l2Line (lineOf pa) = some z → z.dirty = 0) (h : Hint) (f : Nat → Nat) :
    (s.atomicAt .system pa n h f).2.mem = writeBytes s.mem pa (toBytes n (f (ofBytes (readBytes s.mem pa n)))) ∧
      (s.atomicAt .system pa n h f).2.homeRead pa n = f (ofBytes (readBytes s.mem pa n)) % 2 ^ (8 * n) := by
  have hc : (homeOf pa).cached = true := by
    obtain h | h := (storedHome_iff _).mp hstored <;> rw [h] <;> rfl
  have hopen : s.linkOpen (128 * lineOf pa) = true := State.linkOpen_stored (by rwa [homeOf_lineBase])
  have hscope : effScope pa .system = .system := by
    unfold effScope
    split <;> rfl
  obtain ⟨hmem, hread, hroom'⟩ := State.systemRead_clean hwf hc hopen hin hroom hclean h
  have hatomic : (s.atomicAt .system pa n h f).2 =
      (s.systemRead pa n h).2.systemWrite pa n (f ((s.systemRead pa n h).2.homeRead pa n)) h := by
    unfold State.atomicAt
    rw [hc, hscope]
    rfl
  rw [hatomic, hread, State.systemWrite_mem hroom', hmem, State.systemWrite_homeRead (by rwa [hmem]) hin]
  exact ⟨rfl, rfl⟩

theorem State.joinsAt_rest (s : State) (pa : Nat) : s.joinsAt pa = { s with ctxs := (s.joinsAt pa).ctxs } := by
  unfold State.joinsAt State.joins
  split <;> rfl

include hserves hanswers hin hgood hstored

/-- A request that is good is performed. -/
theorem execPeerRequest_performs : exec (.peerRequest peer port q) s =
    match q.kind with
    | .read => .next (s.l2Clean (lineOf q.addr.toNat))
    | .write => .next ((s.noteCode q.addr.toNat q.size).systemBytes q.addr.toNat (requestBytes q))
    | _ => .next (if outsideSized q then
        ((s.noteCode q.addr.toNat q.size).atomicAt .system q.addr.toNat q.size .normal (outsideValue q)).2.joinsAt q.addr.toNat else s) := by
  rw [execPeerRequest_eq, hserves, requestIn_inLine hin hstored, hanswers, hgood, if_neg (by decide), linesOf_inLine hin]
  rfl

theorem execPeerRequest_acts (hread : q.kind ≠ .read) (hwrite : q.kind ≠ .write) : exec (.peerRequest peer port q) s =
    .next (if outsideSized q then
      ((s.noteCode q.addr.toNat q.size).atomicAt .system q.addr.toNat q.size .normal (outsideValue q)).2.joinsAt q.addr.toNat else s) := by
  rw [execPeerRequest_performs hserves hanswers hin hgood hstored]
  cases hkind : q.kind with
  | read => exact absurd hkind hread
  | write => exact absurd hkind hwrite
  | atom op => rfl
  | fadd => rfl
  | fmin => rfl
  | fmax => rfl
  | cas => rfl

variable (hwf : Memory.wf s.mem = true)
include hwf

theorem execPeerRequest_reads (hkind : q.kind = .read) : Happens s (.peerRequest peer port q) fun t => t.ctxs = s.ctxs ∧
    (∀ v, t.homeRead v 1 = s.homeRead v 1) ∧
      ∀ z, s.l2Line (lineOf q.addr.toNat) = some z → (t.l2Line (lineOf q.addr.toNat)).map (fun w => w.dirty) = some 0 := by
  have hexec := execPeerRequest_performs hserves hanswers hin hgood hstored
  rw [hkind] at hexec
  exact ⟨_, hexec, State.l2Clean_ctxs .., fun v => congrFun (State.l2Clean_homeByte hwf _) v, fun z hz =>
    State.l2Clean_held hz (State.linkOpen_stored (by rwa [homeOf_lineBase]))⟩

variable (hroom : ∀ z, s.l2Line (lineOf q.addr.toNat) = some z → Roomy s q.addr.toNat)
include hroom

theorem execPeerRequest_writes (hkind : q.kind = .write) : Happens s (.peerRequest peer port q) fun t =>
    (∀ i < q.size, readByte t.mem (q.addr.toNat + i) = BitVec.ofNat 8 (q.data.toNat / 2 ^ (8 * i))) ∧
      ∀ v, v < q.addr.toNat ∨ q.addr.toNat + q.size ≤ v → readByte t.mem v = readByte s.mem v := by
  have hexec := execPeerRequest_performs hserves hanswers hin hgood hstored
  rw [hkind] at hexec
  refine ⟨_, hexec, readByte_written hwf ?_⟩
  have hlen := requestBytes_length hin
  have hone : (s.noteCode q.addr.toNat q.size).systemBytes q.addr.toNat (requestBytes q) =
      (s.noteCode q.addr.toNat q.size).systemWrite q.addr.toNat (requestBytes q).length (ofBytes (requestBytes q)) .normal :=
    State.byLine_inLine _ _ (hlen.symm ▸ hin)
  rw [hone, State.systemWrite_mem (s := s.noteCode q.addr.toNat q.size) hroom, toBytes_ofBytes, requestBytes_inLine hin]
  rfl

/-- An atomic that is sized leaves its value in the backing store and at the home, and no other byte of memory changes. -/
theorem execPeerRequest_atomic (hread : q.kind ≠ .read) (hwrite : q.kind ≠ .write) (hsized : outsideSized q = true)
    (hclean : ∀ z, s.l2Line (lineOf q.addr.toNat) = some z → z.dirty = 0) {v : Nat}
    (hv : outsideValue q (ofBytes (readBytes s.mem q.addr.toNat q.size)) = v) : Happens s (.peerRequest peer port q) fun t =>
      ofBytes (readBytes t.mem q.addr.toNat q.size) = v % 2 ^ (8 * q.size) ∧ t.homeRead q.addr.toNat q.size = v % 2 ^ (8 * q.size) ∧
        ∀ u, u < q.addr.toNat ∨ q.addr.toNat + q.size ≤ u → readByte t.mem u = readByte s.mem u := by
  have hexec := execPeerRequest_acts hserves hanswers hin hgood hstored hread hwrite
  obtain ⟨hmem, hhome⟩ := State.atomicAt_clean (s := s.noteCode q.addr.toNat q.size) hwf hstored hin hroom hclean .normal (outsideValue q)
  rw [if_pos hsized, State.joinsAt_rest] at hexec
  generalize ((s.noteCode q.addr.toNat q.size).atomicAt .system q.addr.toNat q.size .normal (outsideValue q)).2 = u at hexec hmem hhome
  change u.mem = writeBytes s.mem q.addr.toNat (toBytes q.size (outsideValue q (ofBytes (readBytes s.mem q.addr.toNat q.size)))) at hmem
  change u.homeRead _ _ = outsideValue q (ofBytes (readBytes s.mem q.addr.toNat q.size)) % _ at hhome
  rw [hv] at hmem hhome
  refine ⟨_, hexec, ?_, hhome, (readByte_written hwf hmem).2⟩
  have hall := readBytes_writeBytes hwf q.addr.toNat (toBytes q.size v) (k := 0) (n := q.size) (by rw [toBytes_length]; omega)
  rw [Nat.add_zero, List.drop_zero, List.take_of_length_le (toBytes_length q.size v).le] at hall
  change ofBytes (readBytes u.mem _ _) = _
  rw [hmem, hall, ofBytes_toBytes]

end

/-! ### The failure of a link, as O55 says it -/

section
variable {s v t : State} {l : LinkName} (ht : t = v.afterLink l) (hu : Untraced v) (hdies : v.dies = s.dies)
include ht hu hdies

theorem die_afterLink_resets {d : Nat} (h : Resets s l d) : (t.die d).phase = 1 ∧ (t.die d).cause = 2 ∧ (t.die d).admitted = false ∧
    (t.die d).count = (s.die d).count + 1 ∧ ∀ m y, tget t.ctxs m = some y → m / 32 = d → y.stop ≠ none := by
  obtain ⟨hlink, hauto, hphase⟩ := h
  have hsame : v.die d = s.die d := by rw [State.die, hdies, State.die]
  obtain ⟨-, -, hhere, -, hstops⟩ := State.afterLink_resets hu hlink (hsame ▸ hauto) (hsame ▸ hphase)
  have hgone : (v.linkGone l).die d = s.die d := hsame
  rw [← ht] at hhere hstops
  rw [hhere, hgone]
  exact ⟨rfl, rfl, rfl, rfl, hstops⟩

theorem die_afterLink_others {d : Nat} (h : ¬Resets s l d) : (t.die d).phase = (s.die d).phase ∧ (t.die d).admitted = (s.die d).admitted := by
  have hsame (k : Nat) : v.die k = s.die k := by rw [State.die, hdies, State.die]
  by_cases hany : ∃ e, Resets s l e
  · obtain ⟨e, hlink, hauto, hphase⟩ := hany
    have hne : d ≠ e := fun hde => h (hde ▸ ⟨hlink, hauto, hphase⟩)
    obtain ⟨-, -, -, hothers, -⟩ := State.afterLink_resets hu hlink (hsame e ▸ hauto) (hsame e ▸ hphase)
    have hgone : (v.linkGone l).die d = s.die d := hsame d
    rw [ht, hothers d hne, hgone]
    exact ⟨rfl, rfl⟩
  · obtain ⟨hrest, -⟩ := State.afterLink_still (v := v) (l := l) fun e hlink hboth => hany ⟨e, hlink, hsame e ▸ hboth⟩
    have hdie : t.die d = s.die d := by
      rw [ht, hrest]
      exact hsame d
    rw [hdie]
    exact ⟨rfl, rfl⟩

omit hu in
theorem ctxs_afterLink (h : ∀ d, ¬Resets s l d) : t.ctxs = v.ctxs := by
  have hsame (k : Nat) : v.die k = s.die k := by rw [State.die, hdies, State.die]
  obtain ⟨hrest, -⟩ := State.afterLink_still (v := v) (l := l) fun e hlink hboth => h e ⟨hlink, hsame e ▸ hboth⟩
  rw [ht, hrest]

end

/-- What each link's own state has become, as it has failed. -/
theorem State.afterLink_own {s v : State} (hregs : v.regs = { s.regs with errTail := s.regs.errTail + 1 }) (l : LinkName) :
    (∀ n, l = .finzu n → OnlyPort s (v.afterLink l) n ((tgetD s.regs.finzu n ⟨0, 0, 0⟩).retrained 3)) ∧
      (l = .host → (v.afterLink l).regs.hostUp = false) := by
  refine ⟨fun n hl => ?_, fun hl => ?_⟩
  · subst hl
    have h := v.retrainPort_only n 3
    rw [OnlyPort, hregs] at h
    exact h
  · subst hl
    rfl

/-! ### Every event of theirs goes on -/

theorem linkFlitError_goesOn (s : State) (l : LinkName) (again : Bool) : GoesOn (exec (.linkFlitError l again) s) := by
  cases hreal : realLink l with
  | false => exact ⟨_, execLinkFlitError_unreal hreal again⟩
  | true => cases again with
    | false => exact ⟨_, execLinkFlitError_waits s l⟩
    | true => exact ⟨_, execLinkFlitError_records hreal⟩

theorem linkFailure_goesOn (s : State) (l : LinkName) : GoesOn (exec (.linkFailure l) s) := by
  cases hreal : realLink l with
  | false => exact ⟨_, execLinkFailure_unreal hreal⟩
  | true => exact ⟨_, execLinkFailure_fails hreal⟩

theorem finzuPortTrained_goesOn (s : State) (port : BitVec 4) (remote : W32) (ok : Bool) : GoesOn (exec (.finzuPortTrained port remote ok) s) := by
  change GoesOn (execFinzuPortTrained port remote ok s)
  unfold execFinzuPortTrained
  dsimp only
  split <;> exact ⟨_, rfl⟩

theorem peerRequest_goesOn (s : State) (peer : BitVec 12) (port : BitVec 4) (q : OutsideAccess) : GoesOn (exec (.peerRequest peer port q) s) := by
  rw [execPeerRequest_eq]
  split
  · exact ⟨_, rfl⟩
  · split <;> exact ⟨_, rfl⟩

theorem hostFlagWindowAccess_goesOn (s : State) (q : OutsideAccess) : GoesOn (exec (.hostFlagWindowAccess q) s) := by
  change GoesOn (execHostFlagWindowAccess q s)
  unfold execHostFlagWindowAccess
  split
  · exact ⟨_, rfl⟩
  · split <;> exact ⟨_, rfl⟩

theorem hostApertureAccess_goesOn (s : State) (q : OutsideAccess) (o : Attempt) : GoesOn (exec (.hostApertureAccess q o) s) := by
  change GoesOn (execHostApertureAccess q o s)
  unfold execHostApertureAccess
  split
  · exact ⟨_, rfl⟩
  · dsimp only
    split
    · exact ⟨_, rfl⟩
    · exact ⟨_, rfl⟩
    · split <;> exact ⟨_, rfl⟩

/-! ### Atomics of peers by their kinds -/

theorem outsideSized_iff (q : OutsideAccess) : outsideSized q = true ↔
    (q.size = 4 ∨ (q.size = 8 ∧ ¬(q.kind = .fadd ∨ q.kind = .fmin ∨ q.kind = .fmax))) ∧ q.addr.toNat % q.size = 0 := by
  simp only [outsideSized, Bool.and_eq_true, Bool.or_eq_true, decide_eq_true_eq, Bool.not_eq_true', Bool.or_eq_false_iff, decide_eq_false_iff_not,
    not_or, and_assoc]

/-! ### O55 -/

/-- Settles O55, clause by clause: the links, what one of them held as it failed, and the requests of the host and of peers. -/
theorem linksHostAndPeers : Obligations.LinksHostAndPeers := by
  unfold Obligations.LinksHostAndPeers
  intro s x port remote link again ok peer q o a c p j keeps f onlyPort raised real source unit_ records ofADie resets b inDevice good
  have hreal : real ↔ realLink link = true := by
    cases link <;> simp [real, realLink]
  have hunreal (h : ¬real) : realLink link = false := Bool.eq_false_iff.mpr fun hl => h (hreal.mpr hl)
  have hsource : source = (linkSource link).1 ∧ unit_ = (linkSource link).2 := by
    cases link <;> exact ⟨rfl, rfl⟩
  have hstays {i : Instr} (h : exec i s = .next s) : keeps i := ⟨s, h, rfl⟩
  have hstored : inDevice ↔ storedHome (homeOf b) = true := (storedHome_iff _).symm
  have hrefused (h : s.regs.ident.fwStat ≠ 3) : s.refused = false := Bool.eq_false_iff.mpr fun hr => h (s.refused_iff.mp hr)
  refine ⟨?_, ⟨_, rfl, rfl⟩, ⟨_, rfl, rfl⟩, execFinzuRetrain_trains s x, fun htrains => ?_, fun htrained => hstays (if_pos htrained), hstays rfl,
    fun h => ⟨hstays (execLinkFlitError_unreal (hunreal h) again), hstays (execLinkFailure_unreal (hunreal h))⟩, fun h hroom hw hu => ⟨?_, ?_⟩,
    fun h => ?_, fun h => ?_, fun h => ?_, fun h => ?_, fun hup hfw hflag hin hroom => ⟨fun hkind => ?_, fun hkind => ?_⟩, fun h => ?_,
    fun hup hfw hdev hroom => ⟨fun hgood hkind => ?_, fun hgood hkind hsize m y hy hcmd hstate hnone hword => ?_, fun hgood hline hkind => ?_, fun hin hbad hslot _ => ?_⟩, ?_⟩
  · exact ⟨linkFlitError_goesOn s link again, linkFailure_goesOn s link, ⟨_, rfl⟩, finzuPortTrained_goesOn s port remote ok, peerRequest_goesOn s peer port q,
      hostFlagWindowAccess_goesOn s q, hostApertureAccess_goesOn s q o⟩
  · have hport (v : Finzu) : onlyPort { s with regs := { s.regs with finzu := tput s.regs.finzu port.toNat v } } port.toNat v :=
      ⟨tget_tput_same .., fun m hm => tget_tput_other _ hm _⟩
    have hlow : ¬2 ≤ (tgetD s.regs.finzu port.toNat ⟨0, 0, 0⟩).state.toNat := Nat.not_le.mpr htrains
    exact ⟨⟨_, if_neg hlow, hport _⟩, ⟨_, if_neg hlow, hport _⟩⟩
  · obtain ⟨t, hexec, hports, hrecord⟩ := execLinkFlitError_effect (hreal.mp h) hroom
    refine ⟨t, hexec, fun n hl hup => ?_, by rw [hsource.1, hsource.2]; exact hrecord⟩
    have hport := hports n hl hup
    rw [← hup] at hport
    exact hport
  · obtain ⟨v, t, hexec, ht, hends, hu', hdies, hregs, hctxs, hrecord, haccs, hfills, hwalks⟩ := execLinkFailure_stages (hreal.mp h) hroom hw hu
    have hown := State.afterLink_own hregs link
    rw [← ht] at hown
    refine ⟨t, hexec, ⟨hown.1, hown.2, fun d hd => ?_, fun d hd => die_afterLink_resets ht hu' hdies hd, fun d hd => die_afterLink_others ht hu' hdies hd,
      fun ha hid hdone hbad hp hpart hsp hbay hcross hcan hc hrun => ?_, fun y hy hcross => ?_, fun d k hl w hmem husers hstack => ?_⟩, ?_⟩
    · exact ht ▸ State.mem_downLinks hu' hd
    · have hcut := haccs a (State.mem_heldBy ha hdone hbad hp hpart hsp hbay hcross hcan)
      obtain ⟨hacc, c', hc', hstop, hstill, htarget, hcore⟩ := hcut.faults hends hctxs hc hrun
      exact ⟨hacc, c', hc', hstop, fun hno => hstill (ctxs_afterLink ht hdies hno), htarget, hcore⟩
    · rw [hends.code]
      exact hfills y hy hcross
    · rw [hends.walks]
      exact hwalks d k hl w hmem husers hstack
    · rw [hsource.1, hsource.2]
      exact errorRecorded_kept hrecord hends.mem hends.l2 hends.tail
  · have hr := s.refused_iff.mpr h
    exact ⟨hstays (execHostFlagWindowAccess_refuses (.inr (.inl hr))), hstays (execHostApertureAccess_refuses o (.inr (.inl hr))),
      hstays (execPeerRequest_refuses (.inr (.inr (.inl hr))))⟩
  · exact ⟨hstays (execHostFlagWindowAccess_refuses (.inl h)), hstays (execHostApertureAccess_refuses o (.inl h))⟩
  · exact ⟨hstays (execHostFlagWindowAccess_refuses (.inr (.inr (requestIn_false _ h)))), hstays (execHostApertureAccess_refuses o (.inr (.inr (requestIn_false _ h)))),
      hstays (execPeerRequest_refuses (.inr (.inl (requestIn_false _ h))))⟩
  · refine hstays (execHostFlagWindowAccess_refuses (.inr (.inr (Bool.eq_false_iff.mpr fun hin => h ?_))))
    exact of_decide_eq_true ((requestIn_iff q _).mp hin).2.1
  · exact ⟨_, execHostFlagWindowAccess_writes hup (hrefused hfw) hin hflag hkind, State.deviceBytes_request hin hroom⟩
  · exact hstays (execHostFlagWindowAccess_reads hup (hrefused hfw) hin hflag hkind)
  · refine hstays (execHostApertureAccess_refuses o (.inr (.inr (Bool.eq_false_iff.mpr fun hin => h (hstored.mpr ?_)))))
    exact ((requestIn_iff q _).mp hin).2.1
  · exact ⟨_, execHostApertureAccess_writes hup (hrefused hfw) hgood.1 (hstored.mp hdev) hkind hgood.2,
      State.deviceBytes_request (s := s.noteCode b q.size) hgood.1 hroom⟩
  · exact ⟨_, execHostApertureAccess_writes hup (hrefused hfw) hgood.1 (hstored.mp hdev) hkind hgood.2,
      State.deviceBytes_commands (s := s.noteCode b q.size) hgood.1 hroom hsize hy hcmd hstate hnone hword⟩
  · exact ⟨_, execHostApertureAccess_reads hup (hrefused hfw) hgood.1 (hstored.mp hdev) hkind hline, State.l2Fill_reads hroom⟩
  · obtain ⟨place, hplace, hexec⟩ := execHostApertureAccess_fails hup (hrefused hfw) hin (hstored.mp hdev) hbad
    exact ⟨_, hexec, State.lasting_recorded (hstored.mp hdev) hslot hplace⟩
  · intro e served w operand before
    have hserves : served ↔ s.serves peer port = true := (s.serves_iff peer port).symm
    refine ⟨fun h => ?_, fun hserved hfw hdev hgood hwf hroom => ?_⟩
    · refine hstays (execPeerRequest_refuses ?_)
      obtain h | h | h := h
      · exact .inl (Bool.eq_false_iff.mpr fun hs => h (hserves.mpr hs))
      · exact .inr (.inl (Bool.eq_false_iff.mpr fun hin => h (hstored.mpr ((requestIn_iff q _).mp hin).2.1)))
      · exact .inr (.inr (.inr h))
    · have hs := hserves.mp hserved
      have hdev' := hstored.mp hdev
      have hatomic {v : Nat} (hclean) (hread : q.kind ≠ .read) (hwrite : q.kind ≠ .write) (hsized) (hv : outsideValue q before = v) :=
        execPeerRequest_atomic hs (hrefused hfw) hgood.1 hgood.2 hdev' hwf hroom hread hwrite hsized hclean hv
      refine ⟨execPeerRequest_writes hs (hrefused hfw) hgood.1 hgood.2 hdev' hwf hroom, execPeerRequest_reads hs (hrefused hfw) hgood.1 hgood.2 hdev' hwf,
        fun hsize halign hclean => ⟨fun op hkind => ?_, fun hkind => ?_, fun hfour => ⟨fun hkind => ?_, fun hkind => ?_, fun hkind => ?_⟩⟩,
        fun hread hwrite hbad => ?_⟩
      · refine hatomic hclean (by simp [hkind]) (by simp [hkind]) ((outsideSized_iff q).mpr ⟨by simpa [hkind] using hsize, halign⟩) ?_
        unfold outsideValue
        rw [hkind]
      · refine hatomic hclean (by simp [hkind]) (by simp [hkind]) ((outsideSized_iff q).mpr ⟨by simpa [hkind] using hsize, halign⟩) ?_
        unfold outsideValue
        rw [hkind]
      · refine hatomic hclean (by simp [hkind]) (by simp [hkind]) ((outsideSized_iff q).mpr ⟨.inl hfour, halign⟩) ?_
        unfold outsideValue
        rw [hkind]
      · refine hatomic hclean (by simp [hkind]) (by simp [hkind]) ((outsideSized_iff q).mpr ⟨.inl hfour, halign⟩) ?_
        unfold outsideValue
        rw [hkind]
      · refine hatomic hclean (by simp [hkind]) (by simp [hkind]) ((outsideSized_iff q).mpr ⟨.inl hfour, halign⟩) ?_
        unfold outsideValue
        rw [hkind]
      · have hexec := execPeerRequest_acts hs (hrefused hfw) hgood.1 hgood.2 hdev' hread hwrite
        have hunsized : ¬outsideSized q = true := fun hsized => by
          obtain ⟨hsize, halign⟩ := (outsideSized_iff q).mp hsized
          obtain ⟨hfour, height⟩ | hmis := hbad
          · exact (hsize.resolve_left hfour).2 (height.resolve_left (not_not.mpr (hsize.resolve_left hfour).1))
          · exact hmis halign
        rw [if_neg hunsized] at hexec
        exact hstays hexec

end Sys2Proof.Machine
end

section
/-! PROOFS. Ring commands that touch no line: MARK, BIND, UNBIND and ABORT (for O50). -/

namespace Sys2Proof.Machine
open Sys2Proof Sys2Proof.Safety

/-! ### Commands in hand -/

/-- The handle that a BIND sets (R99). -/
def RingCmd.bound (c : RingCmd) : Handle :=
  { space := c.ring, addr := c.addr, len := c.arg0.toNat, hostvis := bit c.arg1 16, writer := none, readers := [] }

theorem InHand.alone {s : State} {acc : Nat} {c : RingCmd} (h : InHand s acc c) : StandsAlone s c := by
  obtain ⟨rfl, hmem, -, -, halone⟩ := h
  exact ⟨hmem, halone⟩

@[simp] theorem State.complete_handles (s : State) (acc status errs : Nat) : (s.complete acc status errs).handles = s.handles := by
  unfold State.complete
  split <;> rfl

section
variable {s : State} {c : RingCmd} (h : InHand s c.acc c)
include h

theorem execMark_completes (hop : c.op = 7) : exec (.mark c.acc) s = .next (s.complete c.acc 0 0) := by
  change execMark c.acc s = _
  unfold execMark
  rw [InHand.ringCmd? h]
  exact if_pos hop

theorem execBind_binds (hop : c.op = 4) (hheld : s.unheld c = true) (hfree : s.handleFree c.acc (slice c.arg1 15 0) true = true) :
    exec (.bind c.acc) s = .next ({ s with handles := tput s.handles (slice c.arg1 15 0) c.bound }.complete c.acc 0 0) := by
  change execBind c.acc s = _
  unfold execBind
  rw [InHand.ringCmd? h]
  exact if_neg (by simp [hop, hheld, hfree, opBind])

theorem execUnbind_unbinds (hop : c.op = 5) (hheld : s.unheld c = true) (hfree : s.handleFree c.acc (slice c.arg1 15 0) true = true) :
    exec (.unbind c.acc) s = .next ({ s with handles := tdel s.handles (slice c.arg1 15 0) }.complete c.acc 0 0) := by
  change execUnbind c.acc s = _
  unfold execUnbind
  rw [InHand.ringCmd? h]
  exact if_neg (by simp [hop, hheld, hfree, opUnbind])

end

/-! ### ABORT (R107) -/

/-- The commands once ABORT `cmd` has found launch acc. -/
def State.aimed (s : State) (cmd acc : Nat) : State :=
  { s with ringCmds := s.ringCmds.map (fun x => if x.acc = cmd then { x with target := some acc } else x) }

section
variable {s : State} {c : RingCmd} (h : InHand s c.acc c) (hop : c.op = 6)
include h hop

theorem execAbort_waits {m : Nat} (htarget : c.target = some m) (hlive : ∃ d ∈ s.ringCmds, d.acc = m) : exec (.abort c.acc) s = .next s := by
  change execAbort c.acc s = _
  unfold execAbort
  rw [InHand.ringCmd? h]
  dsimp only
  rw [if_neg (by simp [hop, opAbort]), htarget]
  exact if_pos (by simpa using hlive)

theorem execAbort_completes {m : Nat} (htarget : c.target = some m) (hgone : ∀ d ∈ s.ringCmds, d.acc ≠ m) :
    exec (.abort c.acc) s = .next (s.complete c.acc 0 0) := by
  change execAbort c.acc s = _
  unfold execAbort
  rw [InHand.ringCmd? h]
  dsimp only
  rw [if_neg (by simp [hop, opAbort]), htarget]
  exact if_neg (by simpa using hgone)

theorem execAbort_missing (htarget : c.target = none) (hnone : s.launches.find? (fun z => z.ring = c.ring && z.seq = c.arg0 && !z.ended) = none) :
    exec (.abort c.acc) s = .next (s.complete c.acc 7 0) := by
  change execAbort c.acc s = _
  unfold execAbort
  rw [InHand.ringCmd? h]
  dsimp only
  rw [if_neg (by simp [hop, opAbort]), htarget]
  dsimp only
  rw [hnone]

theorem execAbort_admitted {l : Launch} (htarget : c.target = none)
    (hfound : s.launches.find? (fun z => z.ring = c.ring && z.seq = c.arg0 && !z.ended) = some l) (hadmitted : l.admitted = true) :
    exec (.abort c.acc) s = .next ((s.aimed c.acc l.acc).abortQueued l) := by
  change execAbort c.acc s = _
  unfold execAbort
  rw [InHand.ringCmd? h]
  dsimp only
  rw [if_neg (by simp [hop, opAbort]), htarget]
  dsimp only
  rw [hfound]
  exact if_pos hadmitted

theorem execAbort_unadmitted {l : Launch} {y : RingCmd} (htarget : c.target = none)
    (hfound : s.launches.find? (fun z => z.ring = c.ring && z.seq = c.arg0 && !z.ended) = some l) (hnew : l.admitted = false)
    (hy : (s.aimed c.acc l.acc).ringCmds.find? (fun x => x.acc = l.acc) = some y) :
    exec (.abort c.acc) s = .next ((s.aimed c.acc l.acc).abortEarly y) := by
  change execAbort c.acc s = _
  unfold execAbort
  rw [InHand.ringCmd? h]
  dsimp only
  rw [if_neg (by simp [hop, opAbort]), htarget]
  dsimp only
  rw [hfound]
  dsimp only
  rw [if_neg (by simp [hnew])]
  unfold State.aimed at hy
  rw [hy]
  rfl

end

/-- The command that found a launch has it for its target. -/
theorem State.aimed_target {s : State} {c : RingCmd} (hc : c ∈ s.ringCmds) (acc : Nat) : { c with target := some acc } ∈ (s.aimed c.acc acc).ringCmds :=
  List.mem_map.mpr ⟨c, hc, if_pos rfl⟩

/-- Every other command stands as it did. -/
theorem StandsAlone.aimed {s : State} {y : RingCmd} (h : StandsAlone s y) {cmd : Nat} (hne : y.acc ≠ cmd) (acc : Nat) : StandsAlone (s.aimed cmd acc) y := by
  obtain ⟨hmem, halone⟩ := h
  refine ⟨List.mem_map.mpr ⟨y, hmem, if_neg hne⟩, fun d hd hacc => ?_⟩
  obtain ⟨x, hx, rfl⟩ := List.mem_map.mp hd
  by_cases hxc : x.acc = cmd
  · rw [if_pos hxc] at hacc
    exact absurd (hacc.symm.trans hxc) hne
  · rw [if_neg hxc] at hacc ⊢
    exact halone x hx hacc

/-! ### What a launch has queued goes -/

/-- The frames among queued barges. -/
def framesOf (qs : List Queued) : List Queued := qs.filter (fun q => q.frame.isSome)

/-- A launch that is aborted: its queues hold frames alone. -/
def Launch.abortedNow (l : Launch) : Launch :=
  { l with aborted := true, parked := framesOf l.parked, first := framesOf l.first,
           basins := l.basins.map (fun b => { b with berths := b.berths.map (fun p => (p.1, framesOf p.2)) }) }

theorem framesOf_isNone (qs : List Queued) : (framesOf qs).filter (fun q => q.frame.isNone) = [] := by
  refine List.filter_eq_nil_iff.mpr fun q hq => ?_
  have hsome := (List.mem_filter.mp hq).2
  rw [Option.isSome_iff_ne_none] at hsome
  simpa using hsome

theorem Launch.abortedNow_allQueued (l : Launch) : l.abortedNow.allQueued = [] := by
  have hberths (b : Basin) : ∀ p ∈ b.berths.map (fun p => (p.1, framesOf p.2)), (p.2.filter (fun q => q.frame.isNone)).map (fun q => (p.1, q)) = [] := by
    intro p hp
    obtain ⟨q, -, rfl⟩ := List.mem_map.mp hp
    rw [framesOf_isNone]
    rfl
  have hbasins : ∀ b ∈ l.abortedNow.basins, b.berths.flatMap (fun p => (p.2.filter (fun q => q.frame.isNone)).map (fun q => (p.1, q))) = [] := by
    intro b hb
    obtain ⟨x, -, rfl⟩ := List.mem_map.mp hb
    exact List.flatMap_eq_nil_iff.mpr (hberths x)
  have hrest : (l.abortedNow.parked ++ l.abortedNow.first).filter (fun q => q.frame.isNone) = [] := by
    rw [List.filter_append]
    exact List.append_eq_nil_iff.mpr ⟨framesOf_isNone _, framesOf_isNone _⟩
  rw [Launch.allQueued, List.flatMap_eq_nil_iff.mpr hbasins, hrest]
  rfl

/-- Frames stay in their berths. -/
theorem Launch.onDie_abortedNow {l : Launch} {e : Nat} {q : Queued} (hframe : q.frame ≠ none) (hq : q ∈ l.onDie e) : q ∈ l.abortedNow.onDie e := by
  obtain ⟨b, hb, hq⟩ := List.mem_flatMap.mp hq
  refine List.mem_flatMap.mpr ⟨_, List.mem_map.mpr ⟨b, hb, rfl⟩, ?_⟩
  unfold tgetD at hq ⊢
  rw [tget_map_snd b.berths (fun p => (p.1, framesOf p.2)) (fun _ => rfl)]
  cases hget : tget b.berths e with
  | none =>
    rw [hget] at hq
    cases hq
  | some qs =>
    rw [hget] at hq
    exact List.mem_filter.mpr ⟨hq, Option.isSome_iff_ne_none.mpr hframe⟩

/-- The completions that are owed to what a launch has queued. -/
def State.postRemoved (s : State) (l : Launch) (qs : List (Nat × Queued)) : State :=
  qs.foldl (fun s p => s.addPost (fun id => l.postOf id p.1 p.2.barge)) s

theorem State.postRemoved_rest (s : State) (l : Launch) (qs : List (Nat × Queued)) :
    s.postRemoved l qs = { s with posts := (s.postRemoved l qs).posts, nextId := (s.postRemoved l qs).nextId } :=
  foldl_keeps (I := fun u => u = { s with posts := u.posts, nextId := u.nextId }) (fun _ _ u hu => by
    rw [hu]
    rfl) rfl

/-- One completion for each, flagged and without a credit. -/
theorem State.postRemoved_posts (s : State) (l : Launch) (qs : List (Nat × Queued)) :
    (s.postRemoved l qs).posts.length = s.posts.length + qs.length ∧ (∀ z ∈ s.posts, z ∈ (s.postRemoved l qs).posts) ∧
      ∀ q ∈ qs, ∃ id, l.postOf id q.1 q.2.barge ∈ (s.postRemoved l qs).posts := by
  induction qs generalizing s with
  | nil => exact ⟨rfl, fun _ hz => hz, by simp⟩
  | cons q qs ih =>
    obtain ⟨hlength, hkept, hposted⟩ := ih (s.addPost (fun id => l.postOf id q.1 q.2.barge))
    refine ⟨hlength.trans ?_, fun z hz => hkept z (List.mem_append_left _ hz), List.forall_mem_cons.mpr ⟨⟨s.nextId, hkept _ ?_⟩, hposted⟩⟩
    · simp only [State.addPost, List.length_append, List.length_cons, List.length_nil]
      omega
    · exact List.mem_append_right _ (List.mem_singleton.mpr rfl)

/-- ABORT of a launch that runs. -/
theorem State.abortQueued_eq (s : State) (l : Launch) : s.abortQueued l = (s.postRemoved l l.allQueued).modLaunch l.acc Launch.abortedNow := rfl

theorem State.abortQueued_oneLaunch {s : State} {l : Launch} (hl : s.launch? l.acc = some l) : OneLaunch s (s.abortQueued l) l.acc l.abortedNow := by
  have hsame (m : Nat) : (s.postRemoved l l.allQueued).launch? m = s.launch? m := by
    rw [State.postRemoved_rest]
    rfl
  rw [State.abortQueued_eq]
  refine ⟨?_, fun m hm => ?_⟩
  · rw [State.launch?_modLaunch _ _ _ (by intro x; rfl), if_pos rfl, hsame, hl]
    rfl
  · rw [State.launch?_modLaunch _ _ _ (by intro x; rfl), if_neg hm, hsame]

/-! ### A launch that is not yet admitted -/

theorem State.homeWrite_stored (s : State) (pa n x : Nat) (h : Hint) : Stored s (s.homeWrite pa n x h) := by
  unfold State.homeWrite
  refine Stored.trans (t := if (homeOf pa).cached then _ else _) ?_ (.of_notified (State.homeWritten_frame ..))
  split
  · exact State.l2Put_stored ..
  · exact ⟨_, _, Notified.refl _⟩

theorem State.deviceBytes_stored (s : State) (pa : Nat) (bs : List Byte) : Stored s (s.deviceBytes pa bs) :=
  .foldl _ (fun _ _ => State.homeWrite_stored ..) _ _

theorem State.writeJcb_stored {s t : State} {space : BitVec 2} {va : W72} {ws : List W64} (h : s.writeJcb space va ws = some t) : Stored s t := by
  unfold State.writeJcb at h
  split at h
  · cases h
  · split at h
    · obtain rfl := Option.some.inj h
      exact State.deviceBytes_stored ..
    · cases h

/-- What ABORT of a launch that has queued no barge comes to: its block is written or not, and it ends with status 5. -/
theorem State.abortEarly_ends (s : State) (y : RingCmd) : ∃ u, Stored s u ∧ s.abortEarly y = u.endUnadmitted y.acc 5 := by
  unfold State.abortEarly
  refine ⟨_, ?_, rfl⟩
  cases s.virtRead y.ring y.addr 64 with
  | none => exact .refl s
  | some bs =>
    dsimp only
    split
    · exact .refl s
    · cases hw : s.writeJcb y.ring (recJcb (toWords 8 bs)) (jcbWords 0 0 0 3 y.seq ++ [0, 0, 0, 0]) with
      | none => exact .refl s
      | some t => exact State.writeJcb_stored hw

end Sys2Proof.Machine
end

section
/-! PROOFS. What commands and processors there are has no part in what is done with lines (for O50). -/

namespace Sys2Proof.Machine
open Sys2Proof Sys2Proof.Safety

/-! ### Operations that look at no command -/

/-- The state with other commands and other processors. -/
def State.ruled (s : State) (rc : List RingCmd) (cps : Tab Cp) : State := { s with ringCmds := rc, regs := { s.regs with cps := cps } }

/-- An operation neither looks at the commands and the processors nor changes them. -/
def Blind (f : State → State) : Prop := ∀ (s : State) (rc : List RingCmd) (cps : Tab Cp), f (s.ruled rc cps) = (f s).ruled rc cps

theorem Blind.id : Blind fun s => s := fun _ _ _ => rfl

theorem Blind.comp {f g : State → State} (hg : Blind g) (hf : Blind f) : Blind fun s => g (f s) := fun s rc cps =>
  (congrArg g (hf s rc cps)).trans (hg (f s) rc cps)

theorem Blind.foldl {α : Type} {f : State → α → State} (hf : ∀ x, Blind (f · x)) (xs : List α) : Blind fun s => xs.foldl f s := by
  induction xs with
  | nil => exact .id
  | cons x xs ih => exact Blind.comp ih (hf x)

theorem Blind.ite {c : State → Prop} [∀ s, Decidable (c s)] {f g : State → State} (hc : ∀ s rc cps, c (s.ruled rc cps) ↔ c s) (hf : Blind f) (hg : Blind g) :
    Blind fun s => if c s then f s else g s := fun s rc cps => by
  simp only [hc]
  split
  · exact hf s rc cps
  · exact hg s rc cps

/-- What a blind operation leaves. -/
theorem Blind.kept {f : State → State} (hf : Blind f) (s : State) : (f s).ringCmds = s.ringCmds ∧ (f s).regs.cps = s.regs.cps := by
  have h := hf s s.ringCmds s.regs.cps
  rw [show s.ruled s.ringCmds s.regs.cps = s from rfl] at h
  rw [h]
  exact ⟨rfl, rfl⟩

/-! ### Messages and what a write at a home sets off -/

theorem State.message_blind (a b : Option Nat) : Blind (·.message a b) := fun s rc cps => by
  cases b <;> cases a <;> rfl

theorem State.reach_blind (die pa : Nat) : Blind (·.reach die pa) :=
  .ite (c := fun _ => farFrom die pa) (fun _ _ _ => .rfl) ((State.message_blind none (some die)).comp (State.message_blind (some die) none)) .id

theorem State.push_ruled (s : State) (rc : List RingCmd) (cps : Tab Cp) (l : Nat) (b : List W64) (cap : Nat) (watch : Option Nat) :
    (s.ruled rc cps).push l b cap none watch = (s.push l b cap none watch).map (·.ruled rc cps) := by
  unfold State.push
  rw [show (s.ruled rc cps).launch? l = s.launch? l from rfl]
  cases s.launch? l with
  | none => rfl
  | some x =>
    dsimp only
    cases x.withBasin (bargeEntry b) with
    | none => rfl
    | some y =>
      dsimp only
      split <;> rfl

theorem State.fireWatch_blind (key pa n : Nat) : Blind (·.fireWatch key pa n) := fun s rc cps => by
  unfold State.fireWatch
  dsimp only
  rw [show (s.ruled rc cps).watches = s.watches from rfl]
  cases tget s.watches key with
  | none => rfl
  | some v =>
    refine Blind.foldl (fun i => ?_) (List.range v.words) s rc cps
    intro s rc cps
    dsimp only
    rw [show (s.ruled rc cps).watches = s.watches from rfl]
    cases tget s.watches key with
    | none => rfl
    | some w =>
      dsimp only
      split
      · rw [show (s.ruled rc cps).homeRead (v.pa + 8 * i) 8 = s.homeRead (v.pa + 8 * i) 8 from rfl]
        split
        · rw [show (s.ruled rc cps).launch? w.launch = s.launch? w.launch from rfl]
          have hpush (part : W32) (b : List W64) (cap : Nat) :
              (if (s.ruled rc cps).bargeOk part b then (s.ruled rc cps).push w.launch b cap none (some w.id) else none) =
                (if s.bargeOk part b then s.push w.launch b cap none (some w.id) else none).map (·.ruled rc cps) := by
            rw [show (s.ruled rc cps).bargeOk part b = s.bargeOk part b from rfl, State.push_ruled]
            split <;> rfl
          rw [hpush]
          generalize (if s.bargeOk _ _ then s.push _ _ _ none _ else none) = pushed
          cases pushed with
          | none => rfl
          | some t =>
            dsimp only [Option.map_some]
            split <;> rfl
        · rfl
      · rfl

theorem State.homeWritten_blind (pa n : Nat) : Blind (·.homeWritten pa n) := fun s rc cps => by
  have hfold := Blind.foldl (fun k => State.fireWatch_blind k pa n) (s.watches.map Prod.fst) (s.fireMonitors (lineOf pa)) rc cps
  unfold State.homeWritten
  dsimp only
  exact congrArg (State.noteCmds · pa n) hfold

/-! ### Lines -/

theorem State.l2Put_blind (l : Line) (h : Hint) : Blind (·.l2Put l h) := fun s rc cps => by
  unfold State.l2Put
  dsimp only
  rw [show (s.ruled rc cps).l2Set l.line = s.l2Set l.line from rfl]
  cases touch (s.l2Set l.line) 16 12 l h with
  | mk set out => cases out <;> rfl

theorem State.carryLine_blind (l : Line) : Blind (·.carryLine l) := fun s rc cps => by
  unfold State.carryLine
  dsimp only
  split
  · rfl
  · have hput := State.l2Put_blind (s.mergedLine l) .normal s rc cps
    have hwords := fun u => Blind.foldl (fun i => State.homeWritten_blind (128 * l.line + 8 * i) 8) l.dirtyWords u rc cps
    split
    · exact (congrArg (fun u => l.dirtyWords.foldl (fun s i => s.homeWritten (128 * l.line + 8 * i) 8) u) hput).trans (hwords _)
    · exact hwords (s.writeDirty l)

theorem State.carryFrom_blind (die : Nat) (l : Line) : Blind (·.carryFrom die l) :=
  .ite (c := fun _ => l.dirty = 0) (fun _ _ _ => .rfl) .id ((State.carryLine_blind l).comp (State.reach_blind die _))

theorem State.bayClean_blind (n b line : Nat) : Blind (·.bayClean n b line) := fun s rc cps => by
  unfold State.bayClean
  dsimp only
  rw [show (s.ruled rc cps).bayLine n b line = s.bayLine n b line from rfl]
  cases s.bayLine n b line with
  | none => rfl
  | some l =>
    dsimp only
    rw [show (s.ruled rc cps).carryFrom (dieOf n) l = (s.carryFrom (dieOf n) l).ruled rc cps from State.carryFrom_blind (dieOf n) l s rc cps]
    rfl

theorem State.cleanEverywhere_blind (line : Nat) : Blind (·.cleanEverywhere line) := fun s rc cps =>
  Blind.foldl (fun p : Nat × List Line => State.bayClean_blind (p.1 / 2048) (p.1 / 128 % 16) line)
    (s.bayLines.filter (fun p => p.2.any (fun l => l.line = line))) s rc cps

theorem State.l2Clean_blind (n : Nat) : Blind (·.l2Clean n) := fun s rc cps => by
  unfold State.l2Clean
  dsimp only
  rw [show (s.ruled rc cps).l2Line n = s.l2Line n from rfl]
  cases s.l2Line n with
  | none => rfl
  | some l =>
    dsimp only
    rw [show (s.ruled rc cps).linkOpen (128 * n) = s.linkOpen (128 * n) from rfl]
    split <;> rfl

theorem State.l2Leave_blind (n : Nat) : Blind (·.l2Leave n) := fun s rc cps => by
  unfold State.l2Leave
  dsimp only
  rw [show (s.ruled rc cps).l2Line n = s.l2Line n from rfl]
  cases s.l2Line n with
  | none => rfl
  | some l =>
    dsimp only
    split <;> rfl

/-! ### Records of errors -/

theorem State.systemWrite_blind (pa n x : Nat) (h : Hint) : Blind (·.systemWrite pa n x h) := fun s rc cps => by
  unfold State.systemWrite
  dsimp only
  rw [show ({ s.ruled rc cps with mem := writeBytes (s.ruled rc cps).mem pa (toBytes n x) } : State) =
    ({ s with mem := writeBytes s.mem pa (toBytes n x) } : State).ruled rc cps from rfl]
  generalize ({ s with mem := writeBytes s.mem pa (toBytes n x) } : State) = u
  rw [show (u.ruled rc cps).l2Line (lineOf pa) = u.l2Line (lineOf pa) from rfl]
  cases u.l2Line (lineOf pa) with
  | none => exact State.homeWritten_blind pa n u rc cps
  | some l =>
    dsimp only
    rw [show ∀ x, (u.ruled rc cps).l2Put x h = (u.l2Put x h).ruled rc cps from fun x => State.l2Put_blind x h u rc cps]
    exact State.homeWritten_blind pa n _ rc cps

theorem State.systemBytes_blind (pa : Nat) (bs : List Byte) : Blind (·.systemBytes pa bs) := fun s rc cps => by
  unfold State.systemBytes State.byLine
  refine Blind.foldl (fun line => ?_) _ s rc cps
  exact State.systemWrite_blind _ _ _ .normal

theorem State.errorRecord_blind (source kind : Nat) (die : Option Nat) (loc unit : Nat) (lseq : W64) :
    Blind (·.errorRecord source kind die loc unit lseq) := fun s rc cps => by
  unfold State.errorRecord
  dsimp only
  rw [show (s.ruled rc cps).lclock die = s.lclock die by cases die <;> rfl]
  rw [show (s.ruled rc cps).regs.errCfg = s.regs.errCfg from rfl, show (s.ruled rc cps).regs.errTail = s.regs.errTail from rfl,
    show ∀ pa bs, (s.ruled rc cps).systemBytes pa bs = (s.systemBytes pa bs).ruled rc cps from fun pa bs => State.systemBytes_blind pa bs s rc cps]
  rfl

theorem State.linkFailed_blind (pa : Nat) : Blind (·.storageError .linkFailed pa none 0) := fun s rc cps =>
  State.errorRecord_blind (s.linkUnit pa none).1 2 none 0 (s.linkUnit pa none).2 0 s rc cps

/-! ### FLUSH and INVAL of a line -/

theorem State.flushLine_blind (line : Nat) : Blind (·.flushLine line) :=
  Blind.comp (g := fun s => if s.l2Dirty line && !s.linkOpen (128 * line) then s.storageError .linkFailed (128 * line) none 0 else s.l2Clean line)
    (.ite (fun _ _ _ => .rfl) (State.linkFailed_blind _) (State.l2Clean_blind line)) (State.cleanEverywhere_blind line)

/-- Bytes lo to hi of a line are clean in every cache. -/
def State.masked (s : State) (line lo hi : Nat) : State :=
  let mask : BitVec 128 := BitVec.ofNat 128 (2 ^ 128 - 1 - (2 ^ (hi + 1) - 2 ^ lo))
  let keep (l : Line) : Line := if l.line = line then { l with dirty := l.dirty &&& mask } else l
  let all (t : Tab (List Line)) : Tab (List Line) := t.map (fun p => (p.1, p.2.map keep))
  { s with bayLines := all s.bayLines, l2 := all s.l2 }

theorem State.invalLine_eq (s : State) (line lo hi : Nat) : s.invalLine line lo hi =
    (((s.masked line lo hi).flushLine line).dropFirstLevel line).l2Leave line := rfl

theorem State.invalLine_blind (line lo hi : Nat) : Blind (·.invalLine line lo hi) := fun s rc cps => by
  exact (congrArg (fun u => (u.dropFirstLevel line).l2Leave line) (State.flushLine_blind line (s.masked line lo hi) rc cps)).trans
    (State.l2Leave_blind line (((s.masked line lo hi).flushLine line).dropFirstLevel line) rc cps)

/-! ### Translation -/

theorem State.walkFrom_ruled (s : State) (rc : List RingCmd) (cps : Tab Cp) (unit : Option Nat) (space : BitVec 2) (va : W72) (fuel t pa : Nat) :
    (s.ruled rc cps).walkFrom unit space va fuel t pa = s.walkFrom unit space va fuel t pa := by
  induction fuel generalizing t pa with
  | zero => rfl
  | succ fuel ih =>
    unfold State.walkFrom
    simp only [ih]
    rfl

theorem State.xlateFront_ruled (s : State) (rc : List RingCmd) (cps : Tab Cp) (space : BitVec 2) (va : W72) (write : Bool) :
    (s.ruled rc cps).xlateFront space va write = s.xlateFront space va write := by
  have hwalk : (s.ruled rc cps).walk none space va = s.walk none space va := by
    unfold State.walk
    rw [State.walkFrom_ruled]
    rfl
  unfold State.xlateFront
  rw [hwalk]
  rfl

end Sys2Proof.Machine
end

section
/-! PROOFS. FLUSH and INVAL page by page (for O50). -/

namespace Sys2Proof.Machine
open Sys2Proof Sys2Proof.Safety

/-! ### The command as a whole (R97) -/

/-- What FLUSH or INVAL does with bytes lo to hi of a line. -/
def RingCmd.work (c : RingCmd) (s : State) (line lo hi : Nat) : State := if c.op = opFlush then s.flushLine line else s.invalLine line lo hi

theorem RingCmd.work_blind (c : RingCmd) (line lo hi : Nat) : Blind (c.work · line lo hi) := by
  unfold RingCmd.work
  split
  · exact State.flushLine_blind line
  · exact State.invalLine_blind line lo hi

/-- FLUSH or INVAL, and the instruction that carries it out. -/
def Ranging (c : RingCmd) (i : Instr) : Prop := (c.op = 2 ∧ i = .flush c.acc) ∨ (c.op = 3 ∧ i = .inval c.acc)

/-- The state once the command has done its range, completed as its last page translated. -/
def State.rangeDone (s : State) (c : RingCmd) : State :=
  let r := s.overLines c.ring c.work (pagesOf c.arg0.toNat) c.addr c.arg0.toNat
  r.1.complete c.acc (if r.2 then 0 else 8) 0

theorem State.unfinished_nil {s : State} {c : RingCmd} (h : ¬∃ d ∈ s.ringCmds, d.ring = c.ring ∧ d.acc < c.acc ∧ d.status = none) : s.unfinished c = [] := by
  refine List.filter_eq_nil_iff.mpr fun d hd hall => h ?_
  simp only [Bool.and_eq_true, decide_eq_true_eq, Option.isNone_iff_eq_none] at hall
  obtain ⟨⟨hring, hacc⟩, hstatus⟩ := hall
  exact ⟨d, hd, hring, hacc, hstatus⟩

theorem exec_ranging {s : State} {c : RingCmd} {i : Instr} (h : InHand s c.acc c) (hi : Ranging c i)
    (hfirst : ¬∃ d ∈ s.ringCmds, d.ring = c.ring ∧ d.acc < c.acc ∧ d.status = none) : exec i s = .next (s.rangeDone c) := by
  have hnone := State.unfinished_nil hfirst
  obtain ⟨hop, rfl⟩ | ⟨hop, rfl⟩ := hi
  · have hwork : c.work = fun s line _ _ => s.flushLine line := by
      funext s line lo hi
      exact if_pos hop
    change execFlush c.acc s = _
    unfold execFlush State.rangeDone
    rw [InHand.ringCmd? h]
    dsimp only
    rw [if_neg (by simp [hop, hnone, opFlush]), hwork]
  · have hwork : c.work = fun s line lo hi => s.invalLine line lo hi := by
      funext s line lo hi
      exact if_neg (by simp [hop, opFlush])
    change execInval c.acc s = _
    unfold execInval State.rangeDone
    rw [InHand.ringCmd? h]
    dsimp only
    rw [if_neg (by simp [hop, hnone, opInval]), hwork]

/-! ### A range of lines -/

/-- The lines of n bytes that begin at pa, each with its part of them. -/
def State.pageLines (s : State) (f : State → Nat → Nat → Nat → State) (pa n : Nat) : State :=
  (linesOf pa n).foldl (fun s line => f s line (if line = lineOf pa then pa % 128 else 0) (if line = lineOf (pa + n - 1) then (pa + n - 1) % 128 else 127)) s

section
variable {space : BitVec 2} {f : State → Nat → Nat → Nat → State}

theorem State.overLines_error {s : State} {va : W72} {len : Nat} {k : Kind} (hlen : 0 < len) (hx : s.xlateFront space va false = .error k) (fuel : Nat) :
    s.overLines space f (fuel + 1) va len = (s, false) := by
  unfold State.overLines
  rw [if_neg (by omega), hx]

theorem State.overLines_page {s : State} {va : W72} {len : Nat} {p : Place} (hlen : 0 < len) (hx : s.xlateFront space va false = .ok p) (fuel : Nat) :
    s.overLines space f (fuel + 1) va len = (s.pageLines f p.pa (min len (4096 - va.toNat % 4096))).overLines space f fuel
      (va + BitVec.ofNat 72 (min len (4096 - va.toNat % 4096))) (len - min len (4096 - va.toNat % 4096)) := by
  conv_lhs => unfold State.overLines
  rw [if_neg (by omega), hx]
  rfl

theorem State.overLines_empty (s : State) (va : W72) (fuel : Nat) : s.overLines space f fuel va 0 = (s, true) := by
  cases fuel with
  | zero => rfl
  | succ fuel =>
    unfold State.overLines
    exact if_pos rfl

/-- A range within one page. -/
theorem State.overLines_one {s : State} {va : W72} {len : Nat} {p : Place} (hlen : 0 < len) (hfits : va.toNat % 4096 + len ≤ 4096)
    (hx : s.xlateFront space va false = .ok p) (fuel : Nat) : s.overLines space f (fuel + 1) va len = (s.pageLines f p.pa len, true) := by
  rw [State.overLines_page hlen hx, Nat.min_eq_left (by omega), Nat.sub_self, State.overLines_empty]

/-- The commands and the processors have no part in a range. -/
theorem State.overLines_ruled (hf : ∀ line lo hi, Blind (f · line lo hi)) (s : State) (rc : List RingCmd) (cps : Tab Cp) (fuel : Nat) (va : W72) (len : Nat) :
    (s.ruled rc cps).overLines space f fuel va len = ((s.overLines space f fuel va len).1.ruled rc cps, (s.overLines space f fuel va len).2) := by
  induction fuel generalizing s va len with
  | zero => rfl
  | succ fuel ih =>
    obtain rfl | hlen := Nat.eq_zero_or_pos len
    · rw [State.overLines_empty, State.overLines_empty]
    · cases hx : s.xlateFront space va false with
      | error k => rw [State.overLines_error hlen hx, State.overLines_error hlen ((s.xlateFront_ruled rc cps ..).trans hx)]
      | ok p =>
        have hpage : ∀ n, (s.ruled rc cps).pageLines f p.pa n = (s.pageLines f p.pa n).ruled rc cps := fun n =>
          Blind.foldl (fun line => hf line _ _) (linesOf p.pa n) s rc cps
        rw [State.overLines_page hlen hx, State.overLines_page hlen ((s.xlateFront_ruled rc cps ..).trans hx), hpage, ih]

theorem State.overLines_blind (hf : ∀ line lo hi, Blind (f · line lo hi)) (fuel : Nat) (va : W72) (len : Nat) :
    Blind fun s => (s.overLines space f fuel va len).1 := fun s rc cps => congrArg Prod.fst (State.overLines_ruled hf s rc cps fuel va len)

/-- The page after one begins at its start. -/
theorem page_after (va : W72) : (va + BitVec.ofNat 72 (4096 - va.toNat % 4096)).toNat % 4096 = 0 := by
  rw [BitVec.toNat_add, BitVec.toNat_ofNat]
  omega

/-- Any number of pages that is enough for a range that begins at a page's start will do. -/
theorem State.overLines_enough {s : State} {va : W72} {len fuel k : Nat} (hva : va.toNat % 4096 = 0) (hfuel : len ≤ 4096 * fuel) (hk : len ≤ 4096 * k) :
    s.overLines space f fuel va len = s.overLines space f k va len := by
  induction fuel generalizing s va len k with
  | zero =>
    obtain rfl : len = 0 := by omega
    rw [State.overLines_empty, State.overLines_empty]
  | succ fuel ih =>
    obtain rfl | hlen := Nat.eq_zero_or_pos len
    · rw [State.overLines_empty, State.overLines_empty]
    · cases k with
      | zero => omega
      | succ k =>
        cases hx : s.xlateFront space va false with
        | error e => rw [State.overLines_error hlen hx, State.overLines_error hlen hx]
        | ok p =>
          rw [State.overLines_page hlen hx, State.overLines_page hlen hx]
          by_cases hlast : len ≤ 4096
          · rw [hva, Nat.min_eq_left (by omega), Nat.sub_self, State.overLines_empty, State.overLines_empty]
          · rw [hva, Nat.min_eq_right (by omega)]
            refine ih ?_ (by omega) (by omega)
            have hnext := page_after va
            rwa [hva] at hnext

end

/-! ### Parts of a command -/

section
variable {s : State} {c : RingCmd} (h : InHand s c.acc c)

/-- The command for a part of its range. -/
def RingCmd.part (c : RingCmd) (va : W72) (n : Nat) : RingCmd := { c with addr := va, arg0 := BitVec.ofNat 64 n }

theorem partOf_eq (s u : State) (acc : Nat) (va : W72) (n : Nat) :
    partOf s u acc va n = u.ruled (s.ringCmds.map (fun d => if d.acc = acc then d.part va n else d)) s.regs.cps := rfl

theorem State.complete_ruled (s : State) (acc status errs : Nat) (rc : List RingCmd) (cps : Tab Cp) :
    (s.complete acc status errs).ruled rc cps = s.ruled rc cps := by
  unfold State.complete
  split <;> rfl

theorem part_acc {d : RingCmd} {acc : Nat} {va : W72} {n : Nat} : (if d.acc = acc then d.part va n else d).acc = d.acc := by
  split <;> rfl

include h

/-- The part is in hand as the command was. -/
theorem InHand.part (u : State) (va : W72) (n : Nat) : InHand (partOf s u c.acc va n) (c.part va n).acc (c.part va n) := by
  obtain ⟨-, hmem, hstatus, hbad, halone⟩ := h
  refine ⟨rfl, List.mem_map.mpr ⟨c, hmem, if_pos rfl⟩, hstatus, hbad, fun d hd hacc => ?_⟩
  obtain ⟨x, hx, rfl⟩ := List.mem_map.mp hd
  obtain rfl := halone x hx (part_acc.symm.trans hacc)
  exact if_pos rfl

omit h in
theorem part_first (u : State) (va : W72) (n : Nat) (hfirst : ¬∃ d ∈ s.ringCmds, d.ring = c.ring ∧ d.acc < c.acc ∧ d.status = none) :
    ¬∃ d ∈ (partOf s u c.acc va n).ringCmds, d.ring = (c.part va n).ring ∧ d.acc < (c.part va n).acc ∧ d.status = none := by
  rintro ⟨d, hd, hring, hacc, hstatus⟩
  obtain ⟨x, hx, rfl⟩ := List.mem_map.mp hd
  refine hfirst ⟨x, hx, ?_, part_acc.symm.trans_lt hacc, ?_⟩
  · split at hring <;> exact hring
  · split at hstatus <;> exact hstatus

/-- A part that has completed is, as the whole command again, the command completed. -/
theorem wholeOf_part {v : State} (hcmds : v.ringCmds = s.ringCmds) (hcps : v.regs.cps = s.regs.cps) (va : W72) (n status : Nat) :
    Safety.wholeOf c ((v.ruled (s.ringCmds.map (fun d => if d.acc = c.acc then d.part va n else d)) s.regs.cps).complete c.acc status 0) =
      v.complete c.acc status 0 := by
  have hpart : (v.ruled (s.ringCmds.map (fun d => if d.acc = c.acc then d.part va n else d)) s.regs.cps).ringCmds.find? (fun d => d.acc = c.acc) =
      some (c.part va n) := (InHand.alone (InHand.part h v va n)).find?
  have hwhole : v.ringCmds.find? (fun d => d.acc = c.acc) = some c := by
    rw [hcmds]
    exact (InHand.alone h).find?
  obtain ⟨-, -, -, -, halone⟩ := h
  unfold State.complete
  rw [hpart, hwhole]
  unfold Safety.wholeOf State.ruled State.setCp State.cp
  dsimp only
  rw [hcps, List.map_map, List.map_map]
  have hmap : ∀ d ∈ s.ringCmds, ((fun d : RingCmd => if d.acc = c.acc then { d with addr := c.addr, arg0 := c.arg0 } else d) ∘
      (fun d : RingCmd => if d.acc = c.acc then { d with status := some (BitVec.ofNat 8 status), errs := BitVec.ofNat 32 0 } else d) ∘
      fun d : RingCmd => if d.acc = c.acc then d.part va n else d) d =
        if d.acc = c.acc then { d with status := some (BitVec.ofNat 8 status), errs := BitVec.ofNat 32 0 } else d := by
    intro d hd
    by_cases hacc : d.acc = c.acc
    · obtain rfl := halone d hd hacc
      simp [RingCmd.part]
    · simp [hacc]
  rw [hcmds, ← List.map_congr_left hmap]
  rfl

/-- A part runs as the command would over the same bytes. -/
theorem exec_part {i : Instr} (hi : Ranging c i) (hfirst : ¬∃ d ∈ s.ringCmds, d.ring = c.ring ∧ d.acc < c.acc ∧ d.status = none) (u : State) (va : W72)
    {n : Nat} (hn : n < 2 ^ 64) : exec i (partOf s u c.acc va n) =
      .next (((u.overLines c.ring c.work (pagesOf n) va n).1.ruled (s.ringCmds.map (fun d => if d.acc = c.acc then d.part va n else d)) s.regs.cps).complete c.acc
        (if (u.overLines c.ring c.work (pagesOf n) va n).2 then 0 else 8) 0) := by
  have hlen : (c.part va n).arg0.toNat = n := by
    rw [RingCmd.part, BitVec.toNat_ofNat, Nat.mod_eq_of_lt hn]
  have hexec := exec_ranging (InHand.part h u va n) (i := i) hi (part_first u va n hfirst)
  rw [hexec, State.rangeDone, hlen, partOf_eq]
  rw [State.overLines_ruled (c.part va n).work_blind]
  rfl

omit h in
/-- What a command's completion says of its status. -/
theorem StandsAlone.complete_status {u : State} {d : RingCmd} (hd : StandsAlone u d) {status errs : Nat} {x : RingCmd}
    (hx : x ∈ (u.complete d.acc status errs).ringCmds) (hacc : x.acc = d.acc) : x.status = some (BitVec.ofNat 8 status) := by
  unfold State.complete at hx
  rw [hd.find?] at hx
  obtain ⟨z, -, rfl⟩ := List.mem_map.mp hx
  by_cases hz : z.acc = d.acc
  · rw [if_pos hz]
  · rw [if_neg hz] at hacc
    exact absurd hacc hz

/-- A range of several pages comes to its first page's part, and then to the rest. -/
theorem exec_parts {i : Instr} (hi : Ranging c i) (hfirst : ¬∃ d ∈ s.ringCmds, d.ring = c.ring ∧ d.acc < c.acc ∧ d.status = none)
    (hlong : 4096 - c.addr.toNat % 4096 < c.arg0.toNat) {t : State} (ht : exec i (partOf s s c.acc c.addr (4096 - c.addr.toNat % 4096)) = .next t) :
    ((∃ d ∈ t.ringCmds, d.acc = c.acc ∧ d.status = some 8) → exec i s = .next (Safety.wholeOf c t)) ∧
      ((∃ d ∈ t.ringCmds, d.acc = c.acc ∧ d.status = some 0) → ∀ u,
        exec i (partOf s t c.acc (c.addr + BitVec.ofNat 72 (4096 - c.addr.toNat % 4096)) (c.arg0.toNat - (4096 - c.addr.toNat % 4096))) = .next u →
          exec i s = .next (Safety.wholeOf c u)) := by
  have hsize := c.arg0.isLt
  have hafter := page_after c.addr
  have hpos : 0 < 4096 - c.addr.toNat % 4096 := by omega
  have hfits : c.addr.toNat % 4096 + (4096 - c.addr.toNat % 4096) ≤ 4096 := by omega
  have hmin : min c.arg0.toNat (4096 - c.addr.toNat % 4096) = 4096 - c.addr.toNat % 4096 := Nat.min_eq_right hlong.le
  have hpart (v : State) (va : W72) (n : Nat) : StandsAlone (v.ruled (s.ringCmds.map (fun d => if d.acc = c.acc then d.part va n else d)) s.regs.cps) (c.part va n) :=
    InHand.alone (InHand.part h v va n)
  have hfuel : c.arg0.toNat - (4096 - c.addr.toNat % 4096) ≤ 4096 * (c.arg0.toNat / 4096 + 1) := by omega
  have hrest : c.arg0.toNat - (4096 - c.addr.toNat % 4096) ≤ 4096 * pagesOf (c.arg0.toNat - (4096 - c.addr.toNat % 4096)) := by
    unfold pagesOf
    omega
  rw [exec_part h hi hfirst s c.addr (by omega)] at ht
  rw [exec_ranging h hi hfirst, State.rangeDone]
  generalize hn : 4096 - c.addr.toNat % 4096 = n at *
  cases hx : s.xlateFront c.ring c.addr false with
  | error k =>
    rw [show pagesOf n = n / 4096 + 1 + 1 from rfl, State.overLines_error hpos hx] at ht
    obtain rfl := Host.Outcome.next.inj ht
    refine ⟨fun _ => ?_, fun ⟨d, hd, hacc, hstatus⟩ => ?_⟩
    · rw [wholeOf_part h rfl rfl, show pagesOf c.arg0.toNat = c.arg0.toNat / 4096 + 1 + 1 from rfl, State.overLines_error (by omega) hx]
    · have hstopped := (hpart s c.addr n).complete_status hd hacc
      rw [hstatus] at hstopped
      simp at hstopped
  | ok p =>
    rw [show pagesOf n = n / 4096 + 1 + 1 from rfl, State.overLines_one hpos hfits hx] at ht
    have hkept : (s.pageLines c.work p.pa n).ringCmds = s.ringCmds ∧ (s.pageLines c.work p.pa n).regs.cps = s.regs.cps :=
      Blind.kept (Blind.foldl (fun line => c.work_blind line _ _) (linesOf p.pa n)) s
    generalize hv : s.pageLines c.work p.pa n = v at *
    obtain rfl := Host.Outcome.next.inj ht
    refine ⟨fun ⟨d, hd, hacc, hstatus⟩ => ?_, fun _ u hu => ?_⟩
    · have hwent := (hpart v c.addr n).complete_status hd hacc
      rw [hstatus] at hwent
      simp at hwent
    · have hstep := exec_part h hi hfirst v (c.addr + BitVec.ofNat 72 n) (n := c.arg0.toNat - n) (by omega)
      rw [partOf_eq, State.complete_ruled] at hu
      rw [partOf_eq] at hstep
      obtain rfl := Host.Outcome.next.inj (hstep.symm.trans hu)
      obtain ⟨hcmds, hcps⟩ := hkept
      have hover (fuel : Nat) : ((v.overLines c.ring c.work fuel (c.addr + BitVec.ofNat 72 n) (c.arg0.toNat - n)).1).ringCmds = s.ringCmds ∧
          ((v.overLines c.ring c.work fuel (c.addr + BitVec.ofNat 72 n) (c.arg0.toNat - n)).1).regs.cps = s.regs.cps := by
        obtain ⟨hkc, hkp⟩ := (State.overLines_blind c.work_blind fuel (c.addr + BitVec.ofNat 72 n) (c.arg0.toNat - n)).kept v
        exact ⟨hkc.trans hcmds, hkp.trans hcps⟩
      rw [wholeOf_part h (hover _).1 (hover _).2, show pagesOf c.arg0.toNat = c.arg0.toNat / 4096 + 1 + 1 from rfl, State.overLines_page (by omega) hx]
      rw [hn, hmin, hv, State.overLines_enough hafter hfuel hrest]

end

end Sys2Proof.Machine
end

section
/-! PROOFS. What an operation on one line leaves of the caches (for O50). -/

namespace Sys2Proof.Machine
open Sys2Proof Sys2Proof.Safety

/-! ### Tables of lines -/

/-- A set of lines holds each line once, and only lines that K allows under its key. -/
def SetWell (K : Nat → Nat → Prop) (k : Nat) (set : List Line) : Prop := (set.map Line.line).Nodup ∧ ∀ z ∈ set, K k z.line

/-- A table of sets holds each set once. -/
def TableWell (K : Nat → Nat → Prop) (t : Tab (List Line)) : Prop := (t.map Prod.fst).Pairwise (· < ·) ∧ ∀ p ∈ t, SetWell K p.1 p.2

/-- The lines of a bay's set, and of a slice's. -/
def BayKeyed (k n : Nat) : Prop := n % 128 = k % 128
def SliceKeyed (k n : Nat) : Prop := l2Key (128 * n) = k ∧ (homeOf (128 * n)).cached = true

theorem cachesSound_iff (s : State) : CachesSound s ↔ TableWell BayKeyed s.bayLines ∧ TableWell SliceKeyed s.l2 ∧ Memory.wf s.mem = true :=
  ⟨fun ⟨hbays, hslice, hmem⟩ => ⟨hbays, hslice, hmem⟩, fun ⟨hbays, hslice, hmem⟩ => ⟨hbays, hslice, hmem⟩⟩

theorem CachesSound.sorted {s : State} (h : CachesSound s) : BaysSorted s := by
  obtain ⟨⟨hkeys, hsets⟩, -, -⟩ := h
  exact ⟨hkeys, fun p hp => (hsets p hp).2⟩

section
variable {K : Nat → Nat → Prop}

/-- Fewer lines, or the same with other bytes, are as well. -/
theorem SetWell.of_sublist {k : Nat} {set new : List Line} (h : SetWell K k set) (hsub : (new.map Line.line).Sublist (set.map Line.line)) : SetWell K k new := by
  obtain ⟨hnodup, hkeyed⟩ := h
  refine ⟨hsub.nodup hnodup, fun z hz => ?_⟩
  obtain ⟨w, hw, hwz⟩ := List.mem_map.mp (hsub.subset (List.mem_map_of_mem (f := Line.line) hz))
  rw [← hwz]
  exact hkeyed w hw

theorem TableWell.get {t : Tab (List Line)} (h : TableWell K t) (k : Nat) : SetWell K k (tgetD t k []) := by
  unfold tgetD
  cases hget : tget t k with
  | none => exact ⟨List.nodup_nil, by simp⟩
  | some set => exact h.2 _ (mem_of_tget hget)

theorem TableWell.put {t : Tab (List Line)} (h : TableWell K t) {k : Nat} {set : List Line} (hset : SetWell K k set) : TableWell K (tput t k set) := by
  refine ⟨(tput_keys set h.1).1, fun p hp => ?_⟩
  obtain rfl | hp := mem_tput hp
  · exact hset
  · exact h.2 p hp

theorem TableWell.map {t : Tab (List Line)} (h : TableWell K t) {f : List Line → List Line}
    (hf : ∀ set, ((f set).map Line.line).Sublist (set.map Line.line)) : TableWell K (t.map (fun p => (p.1, f p.2))) := by
  refine ⟨?_, fun p hp => ?_⟩
  · rw [List.map_map]
    exact h.1
  · obtain ⟨q, hq, rfl⟩ := List.mem_map.mp hp
    exact (h.2 q hq).of_sublist (hf q.2)

end

theorem dropLine_sublist (set : List Line) (n : Nat) : ((dropLine set n).map Line.line).Sublist (set.map Line.line) := List.filter_sublist.map _

theorem map_line_sublist {f : Line → Line} (hf : ∀ l, (f l).line = l.line) (set : List Line) : ((set.map f).map Line.line).Sublist (set.map Line.line) := by
  rw [List.map_map, show Line.line ∘ f = Line.line from funext hf]

/-- A set that a line enters with a hint is the same set but for its hints. -/
theorem capped_eq (set : List Line) (cap : Nat) (l : Line) (h : Hint) :
    ∃ g : Line → Hint, (if hintAfter l.hint h = .evictLast then capHints set cap l.line else set) = set.map (rehint g) := by
  split
  · exact capHints_eq ..
  · exact ⟨Line.hint, (map_rehint_same set).symm⟩

/-- What a set that takes a line gives up is another line of it. -/
theorem touch_out {set : List Line} {ways cap : Nat} {l v : Line} {h : Hint} (hv : (touch set ways cap l h).2 = some v) :
    v.line ≠ l.line ∧ ∃ w ∈ set, w.line = v.line := by
  have hrest : ∀ g : Line → Hint, v ∈ dropLine (set.map (rehint g)) l.line → v.line ≠ l.line ∧ ∃ w ∈ set, w.line = v.line := by
    intro g hmem
    obtain ⟨hmem, hne⟩ := List.mem_filter.mp hmem
    obtain ⟨w, hw, rfl⟩ := List.mem_map.mp hmem
    exact ⟨by simpa using hne, w, hw, rfl⟩
  have hvictim : ∀ rest : List Line, victim rest = some v → v ∈ rest := by
    intro rest hr
    unfold victim lruWith at hr
    split at hr
    · rename_i x hx
      obtain rfl := Option.some.inj hr
      exact (List.mem_filter.mp (List.mem_of_getLast? hx)).1
    · split at hr
      · rename_i x hx
        obtain rfl := Option.some.inj hr
        exact (List.mem_filter.mp (List.mem_of_getLast? hx)).1
      · exact (List.mem_filter.mp (List.mem_of_getLast? hr)).1
  obtain ⟨g, hg⟩ := capped_eq set cap l h
  unfold touch at hv
  dsimp only at hv
  rw [hg] at hv
  split at hv
  · cases hv
  · split at hv
    · rename_i x hx
      obtain rfl := Option.some.inj hv
      exact hrest g (hvictim _ hx)
    · cases hv

theorem touch_well {K : Nat → Nat → Prop} {k : Nat} {set : List Line} (hset : SetWell K k set) (ways cap : Nat) {l : Line} (hl : K k l.line) (h : Hint) :
    SetWell K k (touch set ways cap l h).1 := by
  have hcons : ∀ (rest : List Line) (x : Hint), (rest.map Line.line).Sublist (set.map Line.line) → (∀ z ∈ rest, z.line ≠ l.line) →
      SetWell K k ({ l with hint := x } :: rest) := by
    intro rest x hsub hne
    obtain ⟨hnodup, hkeyed⟩ := hset.of_sublist hsub
    refine ⟨List.nodup_cons.mpr ⟨fun hmem => ?_, hnodup⟩, List.forall_mem_cons.mpr ⟨hl, hkeyed⟩⟩
    obtain ⟨z, hz, hzl⟩ := List.mem_map.mp hmem
    exact hne z hz hzl
  have hdrop : ∀ g : Line → Hint, ((dropLine (set.map (rehint g)) l.line).map Line.line).Sublist (set.map Line.line) := fun g =>
    (dropLine_sublist _ _).trans (map_line_sublist (f := rehint g) (fun _ => rfl) set)
  have hne : ∀ (rest : List Line), ∀ z ∈ dropLine rest l.line, z.line ≠ l.line := fun rest z hz => by simpa using (List.mem_filter.mp hz).2
  obtain ⟨g, hg⟩ := capped_eq set cap l h
  unfold touch
  dsimp only
  rw [hg]
  split
  · exact hcons _ _ (hdrop g) (hne _)
  · split
    · exact hcons _ _ ((dropLine_sublist _ _).trans (hdrop g)) fun z hz => hne _ z (List.mem_filter.mp hz).1
    · exact hcons _ _ (hdrop g) (hne _)

/-! ### The operations leave the caches sound -/

theorem CachesSound.of_fields {s t : State} (hs : CachesSound s) (hbays : t.bayLines = s.bayLines) (hl2 : t.l2 = s.l2) (hmem : t.mem = s.mem) :
    CachesSound t := by
  rw [cachesSound_iff, hbays, hl2, hmem]
  exact (cachesSound_iff s).mp hs

theorem CachesSound.of_notified {s t : State} (hs : CachesSound s) (h : Notified s t) : CachesSound t := by
  obtain ⟨_, _, _, _, _, _, _, _, rfl⟩ := h
  exact CachesSound.of_fields hs rfl rfl rfl

theorem wordsWritten_notified (s : State) (l : Line) (is : List Nat) :
    Notified s (is.foldl (fun s i => s.homeWritten (128 * l.line + 8 * i) 8) s) :=
  .foldl _ (fun _ _ => State.homeWritten_frame ..) _ _

theorem State.l2Put_parts (s : State) (x : Line) (h : Hint) : (s.l2Put x h).l2 = tput s.l2 (l2Key (128 * x.line)) (touch (s.l2Set x.line) 16 12 x h).1 ∧
    (s.l2Put x h).bayLines = s.bayLines := by
  unfold State.l2Put
  dsimp only
  split <;> exact ⟨rfl, rfl⟩

theorem l2Put_sound {s : State} (hs : CachesSound s) {x : Line} (hc : (homeOf (128 * x.line)).cached = true) (h : Hint) : CachesSound (s.l2Put x h) := by
  obtain ⟨hbays, hslice, hmem⟩ := (cachesSound_iff s).mp hs
  obtain ⟨hl2, hlines⟩ := s.l2Put_parts x h
  refine (cachesSound_iff _).mpr ⟨hlines ▸ hbays, ?_, State.l2Put_wf hmem _ _⟩
  rw [hl2]
  exact hslice.put (touch_well (hslice.get _) 16 12 ⟨rfl, hc⟩ h)

theorem carryLine_sound {s : State} (hs : CachesSound s) (y : Line) : CachesSound (s.carryLine y) := by
  unfold State.carryLine
  split
  · exact hs
  · dsimp only
    refine CachesSound.of_notified ?_ (wordsWritten_notified _ y _)
    split
    · rename_i hc
      refine l2Put_sound hs (x := s.mergedLine y) ?_ .normal
      rwa [s.mergedLine_line]
    · obtain ⟨hbays, hslice, hmem⟩ := (cachesSound_iff s).mp hs
      exact (cachesSound_iff _).mpr ⟨hbays, hslice, State.writeDirty_wf hmem _⟩

theorem reach_sound {s : State} (hs : CachesSound s) (die pa : Nat) : CachesSound (s.reach die pa) :=
  CachesSound.of_fields hs (State.reach_bayLines ..) (State.reach_l2 ..) (State.reach_mem ..)

theorem carryFrom_sound {s : State} (hs : CachesSound s) (die : Nat) (y : Line) : CachesSound (s.carryFrom die y) := by
  unfold State.carryFrom
  split
  · exact hs
  · exact carryLine_sound (reach_sound hs die _) y

theorem bayClean_sound {s : State} (hs : CachesSound s) (n b line : Nat) : CachesSound (s.bayClean n b line) := by
  cases hl : s.bayLine n b line with
  | none => rwa [State.bayClean_none hl]
  | some y =>
    obtain ⟨hbays, -, -⟩ := (cachesSound_iff s).mp hs
    obtain ⟨-, hslice, hmem⟩ := (cachesSound_iff _).mp (carryFrom_sound hs (dieOf n) y)
    rw [State.bayClean_some hl]
    refine (cachesSound_iff _).mpr ⟨hbays.put ((hbays.get _).of_sublist (map_line_sublist (fun x => ?_) _)), hslice, hmem⟩
    split <;> rfl

theorem l2Swap_well {s : State} (h : TableWell SliceKeyed s.l2) (x : Line) : TableWell SliceKeyed (s.l2Swap x).l2 := by
  refine h.put ((h.get _).of_sublist (map_line_sublist (fun z => ?_) _))
  split
  · rename_i hz
    exact hz.symm
  · rfl

theorem l2Clean_sound {s : State} (hs : CachesSound s) (n : Nat) : CachesSound (s.l2Clean n) := by
  obtain ⟨hbays, hslice, hmem⟩ := (cachesSound_iff s).mp hs
  refine (cachesSound_iff _).mpr ⟨(State.l2Clean_stored s n).bayLines ▸ hbays, ?_, State.l2Clean_wf hmem n⟩
  unfold State.l2Clean
  split
  · exact hslice
  · split
    · exact hslice
    · exact l2Swap_well (s := s.writeDirty _) hslice _

theorem dropFirstLevel_sound {s : State} (hs : CachesSound s) (line : Nat) : CachesSound (s.dropFirstLevel line) := by
  obtain ⟨hbays, hslice, hmem⟩ := (cachesSound_iff s).mp hs
  exact (cachesSound_iff _).mpr ⟨hbays.map fun set => dropLine_sublist set line, hslice, hmem⟩

theorem l2Leave_sound {s : State} (hs : CachesSound s) (n : Nat) : CachesSound (s.l2Leave n) := by
  obtain ⟨hbays, hslice, hmem⟩ := (cachesSound_iff s).mp hs
  unfold State.l2Leave
  split
  · exact hs
  · split
    · exact (cachesSound_iff _).mpr ⟨hbays, hslice.put ((hslice.get _).of_sublist (dropLine_sublist _ n)), hmem⟩
    · exact (cachesSound_iff _).mpr ⟨hbays, l2Swap_well hslice _, hmem⟩

/-- A line with some of its bytes clean. -/
def Line.cleared (line : Nat) (mask : BitVec 128) (l : Line) : Line := if l.line = line then { l with dirty := l.dirty &&& mask } else l

theorem Line.cleared_line (line : Nat) (mask : BitVec 128) (l : Line) : (l.cleared line mask).line = l.line := by
  unfold Line.cleared
  split <;> rfl

/-- The bytes of a line but lo to hi. -/
def outside (lo hi : Nat) : BitVec 128 := BitVec.ofNat 128 (2 ^ 128 - 1 - (2 ^ (hi + 1) - 2 ^ lo))

theorem State.masked_eq (s : State) (line lo hi : Nat) : s.masked line lo hi =
    { s with bayLines := s.bayLines.map (fun p => (p.1, p.2.map (Line.cleared line (outside lo hi)))),
             l2 := s.l2.map (fun p => (p.1, p.2.map (Line.cleared line (outside lo hi)))) } := rfl

theorem masked_sound {s : State} (hs : CachesSound s) (line lo hi : Nat) : CachesSound (s.masked line lo hi) := by
  obtain ⟨hbays, hslice, hmem⟩ := (cachesSound_iff s).mp hs
  have hline := Line.cleared_line line (outside lo hi)
  exact (cachesSound_iff _).mpr ⟨hbays.map (map_line_sublist hline), hslice.map (map_line_sublist hline), hmem⟩

end Sys2Proof.Machine
end

section
/-! PROOFS. What an operation on one line leaves of another line of its page (for O50). -/

namespace Sys2Proof.Machine
open Sys2Proof Sys2Proof.Safety

/-- Line n stands in t as it stood in s: in its slice, in memory, and in the bays. -/
structure LineKept (n : Nat) (s t : State) : Prop where
  slice : t.l2Line n = s.l2Line n
  bytes : ∀ a, lineOf a = n → readByte t.mem a = readByte s.mem a
  bays  : ∀ k b, t.bayLine k b n = s.bayLine k b n

theorem LineKept.refl (n : Nat) (s : State) : LineKept n s s := ⟨rfl, fun _ _ => rfl, fun _ _ => rfl⟩

theorem LineKept.trans {n : Nat} {s t u : State} (h : LineKept n s t) (k : LineKept n t u) : LineKept n s u :=
  ⟨k.slice.trans h.slice, fun a ha => (k.bytes a ha).trans (h.bytes a ha), fun c b => (k.bays c b).trans (h.bays c b)⟩

theorem LineKept.of_notified {n : Nat} {s t : State} (h : Notified s t) : LineKept n s t := by
  obtain ⟨_, _, _, _, _, _, _, _, rfl⟩ := h
  exact ⟨rfl, fun _ _ => rfl, fun _ _ => rfl⟩

theorem LineKept.of_fields {n : Nat} {s t : State} (hl2 : t.l2 = s.l2) (hmem : t.mem = s.mem) (hbays : t.bayLines = s.bayLines) : LineKept n s t := by
  refine ⟨?_, fun a _ => by rw [hmem], fun k b => ?_⟩
  · unfold State.l2Line State.l2Set
    rw [hl2]
  · unfold State.bayLine State.baySet
    rw [hbays]

/-- What the homes hold of a line that is kept. -/
theorem LineKept.homeByte {n : Nat} {s t : State} (h : LineKept n s t) {a : Nat} (ha : lineOf a = n) : t.homeByte a = s.homeByte a := by
  subst ha
  unfold State.homeByte State.homeRead State.homeLine
  rw [h.slice]
  cases s.l2Line (lineOf a) with
  | some l => rfl
  | none =>
    have hbytes : readBytes t.mem (128 * lineOf a) 128 = readBytes s.mem (128 * lineOf a) 128 :=
      readBytes_congr fun b hlo hhi => h.bytes b (by unfold lineOf at *; omega)
    exact congrArg (fun bs => Line.get ⟨lineOf a, BitVec.ofNat 1024 (ofBytes bs), 0, .normal⟩ (a % 128) 1) hbytes

/-! ### Lines that slices hold -/

/-- A slice holds no line that L2 may not. -/
theorem l2Line_uncached {s : State} (hs : CachesSound s) {n : Nat} (hn : (homeOf (128 * n)).cached = false) : s.l2Line n = none := by
  obtain ⟨-, hslice, -⟩ := (cachesSound_iff s).mp hs
  cases hl : s.l2Line n with
  | none => rfl
  | some l =>
    have hc := ((hslice.get _).2 l (List.mem_of_find?_eq_some hl)).2
    rw [l2Line_line hl, hn] at hc
    cases hc

section
variable {s : State} (hs : CachesSound s) {n l : Nat} (hne : n ≠ l) (hapart : KeysApart n l)
include hs hne hapart

/-- Nothing that a slice gives up for a line is of a line apart from it. -/
theorem l2Put_kept {x : Line} (hx : x.line = l) (hc : (homeOf (128 * l)).cached = true) (h : Hint) : LineKept n s (s.l2Put x h) := by
  subst hx
  obtain ⟨-, hslice, hmem⟩ := (cachesSound_iff s).mp hs
  obtain ⟨hl2, hlines⟩ := s.l2Put_parts x h
  refine ⟨?_, fun a ha => ?_, fun k b => ?_⟩
  · cases hn : (homeOf (128 * n)).cached with
    | false => rw [l2Line_uncached hs hn, l2Line_uncached (l2Put_sound hs hc h) hn]
    | true =>
      unfold State.l2Line State.l2Set
      rw [hl2, tgetD_tput, if_neg (hapart hn hc hne)]
  · unfold State.l2Put
    dsimp only
    cases hout : (touch (s.l2Set x.line) 16 12 x h).2 with
    | none => rfl
    | some v =>
      refine readByte_writeDirty_other hmem fun hv => ?_
      obtain ⟨-, w, hw, hwv⟩ := touch_out hout
      obtain ⟨hkey, hcached⟩ := (hslice.get (l2Key (128 * x.line))).2 w hw
      rw [hwv, ← hv, ha] at hkey hcached
      exact hapart hcached hc hne hkey
  · unfold State.bayLine State.baySet
    rw [hlines]

theorem carryLine_kept {y : Line} (hy : y.line = l) : LineKept n s (s.carryLine y) := by
  unfold State.carryLine
  split
  · exact .refl n s
  · dsimp only
    refine LineKept.trans ?_ (.of_notified (wordsWritten_notified _ y _))
    split
    · rename_i hc
      exact l2Put_kept hs hne hapart (x := s.mergedLine y) ((s.mergedLine_line y).trans hy) (hy ▸ hc) .normal
    · obtain ⟨-, -, hmem⟩ := (cachesSound_iff s).mp hs
      exact ⟨rfl, fun a ha => readByte_writeDirty_other hmem (by rwa [ha, hy]), fun _ _ => rfl⟩

theorem carryFrom_kept {y : Line} (hy : y.line = l) (die : Nat) : LineKept n s (s.carryFrom die y) := by
  unfold State.carryFrom
  split
  · exact .refl n s
  · exact (LineKept.of_fields (State.reach_l2 ..) (State.reach_mem ..) (State.reach_bayLines ..)).trans
      (carryLine_kept (reach_sound hs die _) hne hapart hy)

theorem bayClean_kept (k b : Nat) : LineKept n s (s.bayClean k b l) := by
  have hbays := fun c d => State.bayClean_bayLine (s := s) k b l (k := c) (c := d) (.inl hne)
  cases hl : s.bayLine k b l with
  | none =>
    rw [State.bayClean_none hl]
    exact .refl n s
  | some y =>
    obtain ⟨-, -, hy⟩ := bayLine_mem hl
    have hcarry := carryFrom_kept hs hne hapart hy (dieOf k)
    rw [State.bayClean_some hl] at hbays ⊢
    exact ⟨hcarry.slice, hcarry.bytes, hbays⟩

theorem cleanEverywhere_kept : LineKept n s (s.cleanEverywhere l) :=
  (foldl_keeps (I := fun u => CachesSound u ∧ LineKept n s u) (f := fun u (p : Nat × List Line) => u.bayClean (p.1 / 2048) (p.1 / 128 % 16) l)
    (fun _ _ _ hu => ⟨bayClean_sound hu.1 _ _ l, hu.2.trans (bayClean_kept hu.1 hne hapart _ _)⟩) ⟨hs, .refl n s⟩).2

omit hapart in
theorem l2Clean_kept : LineKept n s (s.l2Clean l) := by
  obtain ⟨-, -, hmem⟩ := (cachesSound_iff s).mp hs
  unfold State.l2Clean
  split
  · exact .refl n s
  · rename_i x hx
    split
    · exact .refl n s
    · have hline : x.line = l := l2Line_line hx
      refine ⟨?_, fun a ha => ?_, fun _ _ => rfl⟩
      · rw [State.l2Line_l2Swap, if_neg (fun h => hne (h.trans hline))]
        rfl
      · exact readByte_writeDirty_other hmem (by rwa [ha, hline])

omit hs hapart in
theorem dropFirstLevel_kept (s : State) : LineKept n s (s.dropFirstLevel l) := ⟨rfl, fun _ _ => rfl, fun k b => s.dropFirstLevel_bayLine l k b n hne⟩

omit hs hapart in
theorem l2Leave_kept (s : State) : LineKept n s (s.l2Leave l) := by
  unfold State.l2Leave
  split
  · exact .refl n s
  · rename_i x hx
    split
    · exact ⟨by rw [State.l2Line_l2Drop, if_neg hne], fun _ _ => rfl, fun _ _ => rfl⟩
    · refine ⟨?_, fun _ _ => rfl, fun _ _ => rfl⟩
      rw [State.l2Line_l2Swap, if_neg]
      have hline : (x.renewed (s.backingLine l)).line = l := Line.merge_line ..
      rwa [hline]

end

theorem findLine_cleared (set : List Line) (line n : Nat) (mask : BitVec 128) :
    findLine (set.map (Line.cleared line mask)) n = (findLine set n).map (Line.cleared line mask) := by
  induction set with
  | nil => rfl
  | cons x set ih =>
    rw [List.map_cons, findLine_cons, findLine_cons, Line.cleared_line, ih]
    split <;> rfl

theorem cleared_other {line n : Nat} (hne : n ≠ line) (mask : BitVec 128) {o : Option Line} (ho : ∀ l, o = some l → l.line = n) :
    o.map (Line.cleared line mask) = o := by
  cases o with
  | none => rfl
  | some l => exact congrArg some (if_neg (fun h => hne ((ho l rfl).symm.trans h)))

theorem tgetD_cleared (t : Tab (List Line)) (line k : Nat) (mask : BitVec 128) :
    tgetD (t.map (fun p => (p.1, p.2.map (Line.cleared line mask)))) k [] = (tgetD t k []).map (Line.cleared line mask) := by
  unfold tgetD
  rw [tget_map_snd t (fun p => (p.1, p.2.map (Line.cleared line mask))) (fun _ => rfl)]
  cases tget t k <;> rfl

theorem State.bayLine_masked (s : State) (line lo hi k b n : Nat) :
    (s.masked line lo hi).bayLine k b n = (s.bayLine k b n).map (Line.cleared line (outside lo hi)) := by
  rw [State.masked_eq]
  unfold State.bayLine State.baySet
  dsimp only
  rw [tgetD_cleared, findLine_cleared]

theorem State.l2Line_masked (s : State) (line lo hi n : Nat) :
    (s.masked line lo hi).l2Line n = (s.l2Line n).map (Line.cleared line (outside lo hi)) := by
  rw [State.masked_eq]
  unfold State.l2Line State.l2Set
  dsimp only
  rw [tgetD_cleared, findLine_cleared]

theorem masked_kept (s : State) {n l : Nat} (hne : n ≠ l) (lo hi : Nat) : LineKept n s (s.masked l lo hi) := by
  refine ⟨?_, fun _ _ => rfl, fun k b => ?_⟩
  · rw [State.l2Line_masked]
    exact cleared_other hne _ fun x hx => l2Line_line hx
  · rw [State.bayLine_masked]
    exact cleared_other hne _ fun x hx => (bayLine_mem hx).2.2

end Sys2Proof.Machine
end

section
/-! PROOFS. What becomes of a byte as its own line is cleaned (for O50). -/

namespace Sys2Proof.Machine
open Sys2Proof Sys2Proof.Safety

/-! ### A line carried to its home -/

/-- The slice holds the byte at a, and dirty. -/
def State.dirtyAt (s : State) (a : Nat) : Prop := ∃ z, s.l2Line (lineOf a) = some z ∧ z.dirty.getLsbD (a % 128) = true

theorem State.dirtyAt_of_slice {s t : State} {a : Nat} (h : t.l2Line (lineOf a) = s.l2Line (lineOf a)) : t.dirtyAt a ↔ s.dirtyAt a := by
  unfold State.dirtyAt
  rw [h]

theorem Line.dirty_put (l : Line) {i j : Nat} (x : Nat) (hi : i < 128) :
    (l.put i 1 x true).dirty.getLsbD j = (decide (j = i) || l.dirty.getLsbD j) := by
  have hbit := testBit_putBits l.dirty (hi := i + 1 - 1) (lo := i) (2 ^ 1 - 1) (by omega) (by omega) j
  refine hbit.trans ?_
  by_cases hj : j = i
  · subst hj
    simp
  · rw [if_neg (by omega)]
    simp [hj, BitVec.getLsbD]

/-- Bytes of y put over a line are dirty there, as the line's own dirty bytes are. -/
theorem Line.dirty_merge (y : Line) {is : List Nat} (his : ∀ i ∈ is, i < 128) (l : Line) (j : Nat) :
    (is.foldl (fun h i => h.put i 1 (y.get i 1) true) l).dirty.getLsbD j = (decide (j ∈ is) || l.dirty.getLsbD j) := by
  induction is generalizing l with
  | nil => simp
  | cons i is ih =>
    obtain ⟨hi, hrest⟩ := List.forall_mem_cons.mp his
    rw [List.foldl_cons, ih hrest, Line.dirty_put _ _ hi]
    simp only [List.mem_cons, Bool.decide_or]
    rw [Bool.or_comm (decide (j = i)) (decide (j ∈ is)), Bool.or_assoc]

theorem State.mergedLine_dirty (s : State) (y : Line) {j : Nat} (hj : j < 128) :
    (s.mergedLine y).dirty.getLsbD j = (y.dirty.getLsbD j || (s.homeLine y.line).dirty.getLsbD j) := by
  have hmerge := Line.dirty_merge y (fun i hi => (mem_setBits.mp hi).1) (s.homeLine y.line) j (is := setBits 128 y.dirty.toNat)
  refine hmerge.trans ?_
  simp [mem_dirtyBits hj]

/-- A byte of its home line is dirty just where the slice holds it so. -/
theorem State.homeLine_dirty (s : State) (a : Nat) : (s.homeLine (lineOf a)).dirty.getLsbD (a % 128) = true ↔ s.dirtyAt a := by
  unfold State.homeLine State.dirtyAt
  cases s.l2Line (lineOf a) with
  | some z => exact ⟨fun h => ⟨z, rfl, h⟩, fun ⟨w, hw, h⟩ => Option.some.inj hw ▸ h⟩
  | none => simp [State.backingLine]

theorem badAt_none {s : State} (h : s.badGranules = []) (pa n : Nat) : s.badAt pa n = false := by
  rw [State.badAt, h]
  rfl

/-- The dirty bytes of a line, written to memory, stand there. -/
theorem readByte_writeDirty {s : State} (hbad : s.badGranules = []) (hwf : Memory.wf s.mem = true) (y : Line) (a : Nat) : readByte (s.writeDirty y).mem a =
    if lineOf a = y.line ∧ y.dirty.getLsbD (a % 128) = true then BitVec.ofNat 8 (y.get (a % 128) 1) else readByte s.mem a := by
  refine (readByte_putDirty (fun _ _ => badAt_none hbad ..) (fun i hi => (mem_setBits.mp hi).1) hwf a).trans ?_
  simp only [mem_dirtyBits (Nat.mod_lt a (by decide : 0 < 128))]

/-- What the carry of a line does with a byte of it: a dirty byte stands at its home, to be written back or written; any other is as it was. -/
structure ByteCarried (s t : State) (y : Line) (a : Nat) : Prop where
  home  : t.homeByte a = carriedBytes s.homeByte y a
  dirty : y.dirty.getLsbD (a % 128) = true → t.dirtyAt a ∨ readByte t.mem a = BitVec.ofNat 8 (y.get (a % 128) 1)
  clean : y.dirty.getLsbD (a % 128) = false → readByte t.mem a = readByte s.mem a ∧ (t.dirtyAt a ↔ s.dirtyAt a)

theorem ByteCarried.of_clean {s : State} {y : Line} (hy : y.dirty = 0) (a : Nat) : ByteCarried s s y a :=
  ⟨(congrFun (carriedBytes_clean _ hy) a).symm, fun h => absurd hy (dirty_ne_zero h), fun _ => ⟨rfl, .rfl⟩⟩

/-- What comes before and after the carry may change all but the slices and memory. -/
theorem ByteCarried.of_fields {s s' t t' : State} {y : Line} {a : Nat} (h : ByteCarried s' t y a) (hs : LineKept (lineOf a) s s') (ht : LineKept (lineOf a) t t') :
    ByteCarried s t' y a := by
  obtain ⟨hhome, hdirty, hclean⟩ := h
  refine ⟨?_, fun hd => ?_, fun hd => ?_⟩
  · rw [ht.homeByte rfl, hhome]
    unfold carriedBytes
    rw [hs.homeByte rfl]
  · exact (hdirty hd).imp (State.dirtyAt_of_slice ht.slice).mpr (ht.bytes a rfl).trans
  · obtain ⟨hmem, hiff⟩ := hclean hd
    exact ⟨(ht.bytes a rfl).trans (hmem.trans (hs.bytes a rfl)),
      (State.dirtyAt_of_slice ht.slice).trans (hiff.trans (State.dirtyAt_of_slice hs.slice))⟩

section
variable {s : State} (hs : CachesSound s) (hbad : s.badGranules = []) {y : Line} {a : Nat} (hy : y.line = lineOf a)
include hs hy

/-- A line carried to its slice. -/
theorem byteCarried_slice : ByteCarried s (s.l2Put (s.mergedLine y) .normal) y a := by
  obtain ⟨-, -, hmem⟩ := (cachesSound_iff s).mp hs
  have hj : a % 128 < 128 := Nat.mod_lt a (by decide)
  have ha : 128 * lineOf a + a % 128 = a := Nat.div_add_mod a 128
  have hline : (s.mergedLine y).line = lineOf a := (s.mergedLine_line y).trans hy
  have hheld := s.l2Line_l2Put (s.mergedLine y) .normal
  have hread := s.homeRead_l2Put (s.mergedLine y) .normal hj 1
  rw [hline] at hheld hread
  rw [ha] at hread
  have hsame : readByte (s.l2Put (s.mergedLine y) .normal).mem a = readByte s.mem a := by
    unfold State.l2Put
    dsimp only
    cases hout : (touch (s.l2Set (s.mergedLine y).line) 16 12 (s.mergedLine y) .normal).2 with
    | none => rfl
    | some v => exact readByte_writeDirty_other hmem fun hv => (touch_out hout).1 (hv.symm.trans hline.symm)
  have hat : (s.l2Put (s.mergedLine y) .normal).dirtyAt a ↔ y.dirty.getLsbD (a % 128) = true ∨ s.dirtyAt a := by
    rw [← s.homeLine_dirty, ← hy, ← Bool.or_eq_true, ← s.mergedLine_dirty y hj]
    unfold State.dirtyAt
    rw [hheld]
    exact ⟨fun ⟨w, hw, h⟩ => by rw [← Option.some.inj hw] at h; exact h, fun h => ⟨_, rfl, h⟩⟩
  refine ⟨hread.trans ?_, fun hd => .inl (hat.mpr (.inl hd)), fun hd => ⟨hsame, hat.trans (or_iff_right (by simp [hd]))⟩⟩
  have hget := Line.get_merge y (fun i hi => (mem_setBits.mp hi).1) (s.homeLine y.line) (a % 128) (is := setBits 128 y.dirty.toNat)
  refine hget.trans ?_
  unfold carriedBytes
  simp only [mem_dirtyBits hj, hy, true_and]
  rfl

include hbad

/-- A line that no slice holds, carried to memory. -/
theorem byteCarried_memory (hc : (homeOf (128 * y.line)).cached = false) : ByteCarried s (s.writeDirty y) y a := by
  obtain ⟨-, -, hmem⟩ := (cachesSound_iff s).mp hs
  have hbyte := readByte_writeDirty hbad hmem y a
  refine ⟨congrFun (State.homeByte_writeDirty (l2Line_uncached hs hc) hmem fun _ _ => badAt_none hbad ..) a, fun hd => .inr ?_, fun hd => ⟨?_, .rfl⟩⟩
  · rw [hbyte, if_pos ⟨hy.symm, hd⟩]
  · rw [hbyte, if_neg (fun h => by simp [hd] at h)]

theorem byteCarried_carryLine : ByteCarried s (s.carryLine y) y a := by
  unfold State.carryLine
  split
  · rename_i hz
    exact .of_clean hz a
  · dsimp only
    refine ByteCarried.of_fields ?_ (.refl _ s) (.of_notified (wordsWritten_notified _ y _))
    split
    · exact byteCarried_slice hs hy
    · rename_i hc
      exact byteCarried_memory hs hbad hy (Bool.eq_false_iff.mpr hc)

theorem byteCarried_carryFrom (die : Nat) : ByteCarried s (s.carryFrom die y) y a := by
  unfold State.carryFrom
  split
  · rename_i hz
    exact .of_clean hz a
  · have hkept : (s.reach die (128 * y.line)).badGranules = [] := (RangeKept.of_answersAs (State.reach_answersAs s die _)).bad.trans hbad
    exact (byteCarried_carryLine (reach_sound hs die _) hkept hy).of_fields
      (.of_fields (State.reach_l2 ..) (State.reach_mem ..) (State.reach_bayLines ..)) (.refl _ _)

end

/-! ### Dirty bytes in the bays -/

/-- A bay holds x as a dirty byte at a: it is the bay's copy of the line that does. -/
theorem dirtyAbove_iff {s : State} (hs : CachesSound s) (a x : Nat) : DirtyAbove s a x ↔
    ∃ k b z, s.bayLine k b (lineOf a) = some z ∧ z.dirty.getLsbD (a % 128) = true ∧ z.get (a % 128) 1 = x := by
  obtain ⟨⟨-, hsets⟩, -, -⟩ := (cachesSound_iff s).mp hs
  constructor
  · rintro ⟨p, hp, z, hz, hline, hd, hx⟩
    have hkey := bayKey_of_entry (CachesSound.sorted hs) hp hz
    rw [hline] at hkey
    refine ⟨p.1 / 2048, p.1 / 128 % 16, z, ?_, hd, hx⟩
    unfold State.bayLine
    rw [BaysSorted.baySet (CachesSound.sorted hs) hp hkey.symm]
    obtain ⟨hnodup, -⟩ := hsets p hp
    cases hfound : findLine p.2 (lineOf a) with
    | none => exact absurd (decide_eq_true hline) (List.find?_eq_none.mp hfound z hz)
    | some w =>
      have hw := List.mem_of_find?_eq_some hfound
      have hwl : w.line = lineOf a := by simpa using List.find?_some hfound
      rw [List.inj_on_of_nodup_map hnodup hw hz (hwl.trans hline.symm)]
  · rintro ⟨k, b, z, hz, hd, hx⟩
    obtain ⟨hp, hmem, hline⟩ := bayLine_mem hz
    exact ⟨_, hp, z, hmem, hline, hd, hx⟩

theorem LineKept.dirtyAbove {s t : State} (hs : CachesSound s) (ht : CachesSound t) {a : Nat} (h : LineKept (lineOf a) s t) (x : Nat) :
    DirtyAbove t a x ↔ DirtyAbove s a x := by
  rw [dirtyAbove_iff hs, dirtyAbove_iff ht]
  simp only [h.bays]

section
variable {s : State} (hs : CachesSound s) (k b : Nat) {a x : Nat}
include hs

omit hs in
/-- A bay that cleans a line leaves no byte dirty that was not. -/
theorem dirtyAbove_bayClean (h : DirtyAbove (s.bayClean k b (lineOf a)) a x) : DirtyAbove s a x := by
  cases hl : s.bayLine k b (lineOf a) with
  | none => rwa [State.bayClean_none hl] at h
  | some y =>
    rw [State.bayClean_some hl] at h
    obtain ⟨p, hp, z, hz, hline, hd, hx⟩ := h
    obtain rfl | hp := mem_tput hp
    · obtain ⟨w, -, rfl⟩ := List.mem_map.mp hz
      split at hd
      · simp at hd
      · rename_i hw
        rw [if_neg hw] at hline
        exact absurd hline hw
    · exact ⟨p, hp, z, hz, hline, hd, hx⟩

/-- Of a dirty byte, it cleans its own copy alone. -/
theorem bayClean_dirtyAbove (h : DirtyAbove s a x) : DirtyAbove (s.bayClean k b (lineOf a)) a x ∨
    ∃ y, s.bayLine k b (lineOf a) = some y ∧ y.dirty.getLsbD (a % 128) = true ∧ y.get (a % 128) 1 = x := by
  obtain ⟨c, d, z, hz, hd, hx⟩ := (dirtyAbove_iff hs a x).mp h
  by_cases hkey : bayKey c d (lineOf a) = bayKey k b (lineOf a)
  · refine .inr ⟨z, ?_, hd, hx⟩
    unfold State.bayLine State.baySet at hz ⊢
    rwa [← hkey]
  · exact .inl ((dirtyAbove_iff (bayClean_sound hs k b _) a x).mpr ⟨c, d, z, (State.bayClean_bayLine k b _ (.inr hkey)).trans hz, hd, hx⟩)

theorem bayClean_keeps_dirtyAbove {y : Line} (hl : s.bayLine k b (lineOf a) = some y) (hy : ¬y.dirty.getLsbD (a % 128) = true) (h : DirtyAbove s a x) :
    DirtyAbove (s.bayClean k b (lineOf a)) a x := by
  refine (bayClean_dirtyAbove hs k b h).resolve_right fun ⟨z, hz, hd, _⟩ => hy ?_
  rwa [Option.some.inj (hl.symm.trans hz)]

end

/-! ### A line cleaned in every bay -/

/-- A byte on its way to memory: a bay or the slice holds it dirty, or memory holds it. -/
def OnItsWay (v a : Nat) (s : State) : Prop := (∃ x, DirtyAbove s a x) ∨ s.dirtyAt a ∨ readByte s.mem a = BitVec.ofNat 8 v

/-- Every dirty copy of a byte in the bays is v, and without one its home holds v. -/
def Agreed (v a : Nat) (s : State) : Prop := (∀ x, DirtyAbove s a x → x = v) ∧ ((∃ x, DirtyAbove s a x) ∨ s.homeByte a = v)

/-- No cache holds a byte dirty, and memory holds x. -/
def Untouched (x : Byte) (a : Nat) (s : State) : Prop := (∀ v, ¬DirtyAbove s a v) ∧ ¬s.dirtyAt a ∧ readByte s.mem a = x

/-- Caches in order, with no data known bad. -/
def Orderly (s : State) : Prop := CachesSound s ∧ s.badGranules = []

theorem orderly_bayClean {s : State} (h : Orderly s) (k b line : Nat) : Orderly (s.bayClean k b line) :=
  ⟨bayClean_sound h.1 k b line, (s.bayClean_cleaned k b line).kept.bad.trans h.2⟩

theorem byteCarried_bayClean {s : State} (h : Orderly s) {k b a : Nat} {y : Line} (hl : s.bayLine k b (lineOf a) = some y) :
    ByteCarried s (s.bayClean k b (lineOf a)) y a := by
  obtain ⟨hs, hbad⟩ := h
  obtain ⟨hhome, hdirty, hclean⟩ := byteCarried_carryFrom hs hbad (bayLine_mem hl).2.2 (dieOf k)
  rw [State.bayClean_some hl]
  exact ⟨hhome, hdirty, hclean⟩

section
variable {s : State} (h : Orderly s) (k b : Nat) {v a : Nat}
include h

theorem agreed_bayClean (hv : Agreed v a s) : Agreed v a (s.bayClean k b (lineOf a)) := by
  obtain ⟨hall, hsome⟩ := hv
  refine ⟨fun x hx => hall x (dirtyAbove_bayClean k b hx), ?_⟩
  cases hl : s.bayLine k b (lineOf a) with
  | none => rwa [State.bayClean_none hl]
  | some y =>
    have hcarried := byteCarried_bayClean h hl
    have hyl := (bayLine_mem hl).2.2
    by_cases hd : y.dirty.getLsbD (a % 128) = true
    · refine .inr (hcarried.home.trans ((if_pos ⟨hyl.symm, hd⟩).trans (hall _ ?_)))
      exact (dirtyAbove_iff h.1 a _).mpr ⟨k, b, y, hl, hd, rfl⟩
    · refine hsome.imp (fun ⟨x, hx⟩ => ⟨x, bayClean_keeps_dirtyAbove h.1 k b hl hd hx⟩) fun hhome => ?_
      rw [hcarried.home, carriedBytes, if_neg (fun h => hd h.2), hhome]

theorem onItsWay_bayClean (hv : Agreed v a s) (hway : OnItsWay v a s) : OnItsWay v a (s.bayClean k b (lineOf a)) := by
  obtain ⟨hall, -⟩ := hv
  cases hl : s.bayLine k b (lineOf a) with
  | none => rwa [State.bayClean_none hl]
  | some y =>
    have hcarried := byteCarried_bayClean h hl
    by_cases hd : y.dirty.getLsbD (a % 128) = true
    · refine .inr ((hcarried.dirty hd).imp id fun hmem => ?_)
      rw [hmem, hall _ ((dirtyAbove_iff h.1 a _).mpr ⟨k, b, y, hl, hd, rfl⟩)]
    · obtain ⟨hmem, hiff⟩ := hcarried.clean (Bool.eq_false_iff.mpr hd)
      exact hway.imp (fun ⟨x, hx⟩ => ⟨x, bayClean_keeps_dirtyAbove h.1 k b hl hd hx⟩) (Or.imp hiff.mpr hmem.trans)

theorem untouched_bayClean {x : Byte} (hx : Untouched x a s) : Untouched x a (s.bayClean k b (lineOf a)) := by
  obtain ⟨habove, hat, hmem⟩ := hx
  refine ⟨fun v hv => habove v (dirtyAbove_bayClean k b hv), ?_⟩
  cases hl : s.bayLine k b (lineOf a) with
  | none => rw [State.bayClean_none hl]; exact ⟨hat, hmem⟩
  | some y =>
    have hd : y.dirty.getLsbD (a % 128) = false :=
      Bool.eq_false_iff.mpr fun hd => habove _ ((dirtyAbove_iff h.1 a _).mpr ⟨k, b, y, hl, hd, rfl⟩)
    obtain ⟨hsame, hiff⟩ := (byteCarried_bayClean h hl).clean hd
    exact ⟨fun hdirty => hat (hiff.mp hdirty), hsame.trans hmem⟩

theorem orderly_cleanEverywhere (line : Nat) : Orderly (s.cleanEverywhere line) :=
  foldl_keeps (I := Orderly) (fun _ _ _ hu => orderly_bayClean hu _ _ line) h

/-- A byte that its bays agree on stands at its home once they are clean, and is on its way to memory where it was. -/
theorem cleanEverywhere_home (hv : Agreed v a s) : (s.cleanEverywhere (lineOf a)).homeByte a = v ∧ (∀ x, ¬DirtyAbove (s.cleanEverywhere (lineOf a)) a x) ∧
    (OnItsWay v a s → OnItsWay v a (s.cleanEverywhere (lineOf a))) := by
  obtain ⟨-, ⟨hall, hsome⟩, hway⟩ := foldl_keeps (I := fun u => Orderly u ∧ Agreed v a u ∧ (OnItsWay v a s → OnItsWay v a u))
    (f := fun u (p : Nat × List Line) => u.bayClean (p.1 / 2048) (p.1 / 128 % 16) (lineOf a))
    (xs := s.bayLines.filter (fun p => p.2.any (fun l => l.line = lineOf a))) (s := s)
    (fun _ _ u hu => ⟨orderly_bayClean hu.1 _ _ _, agreed_bayClean hu.1 _ _ hu.2.1, fun hs => onItsWay_bayClean hu.1 _ _ hu.2.1 (hu.2.2 hs)⟩)
    ⟨h, hv, fun hs => hs⟩
  have hnone : ∀ x, ¬DirtyAbove (s.cleanEverywhere (lineOf a)) a x := fun x ⟨p, hp, z, hz, hline, hd, _⟩ =>
    dirty_ne_zero hd (State.cleanEverywhere_clean (CachesSound.sorted h.1) (lineOf a) p hp z hz hline)
  exact ⟨hsome.resolve_left fun ⟨x, hx⟩ => hnone x hx, hnone, hway⟩

theorem untouched_cleanEverywhere {x : Byte} (hx : Untouched x a s) : Untouched x a (s.cleanEverywhere (lineOf a)) :=
  (foldl_keeps (I := fun u => Orderly u ∧ Untouched x a u) (fun _ _ _ hu => ⟨orderly_bayClean hu.1 _ _ _, untouched_bayClean hu.1 _ _ hu.2⟩) ⟨h, hx⟩).2

end

/-! ### The slice writes the line back -/

section
variable {s : State} (h : Orderly s) {a : Nat}
include h

theorem orderly_l2Clean (n : Nat) : Orderly (s.l2Clean n) := ⟨l2Clean_sound h.1 n, (RangeKept.of_stored (s.l2Clean_stored n)).bad.trans h.2⟩

/-- A byte that the slice held dirty is in memory; any other stays as it was there. -/
theorem readByte_l2Clean (hopen : s.linkOpen (128 * lineOf a) = true) :
    (s.dirtyAt a → readByte (s.l2Clean (lineOf a)).mem a = BitVec.ofNat 8 (s.homeByte a)) ∧
      (¬s.dirtyAt a → readByte (s.l2Clean (lineOf a)).mem a = readByte s.mem a) := by
  obtain ⟨hs, hbad⟩ := h
  obtain ⟨-, -, hmem⟩ := (cachesSound_iff s).mp hs
  unfold State.dirtyAt State.l2Clean State.homeByte State.homeRead State.homeLine
  rw [hopen]
  cases hl : s.l2Line (lineOf a) with
  | none => exact ⟨fun ⟨z, hz, _⟩ => (by cases hz), fun _ => rfl⟩
  | some l =>
    have hline : l.line = lineOf a := l2Line_line hl
    have hbyte := readByte_writeDirty hbad hmem l a
    refine ⟨fun ⟨z, hz, hd⟩ => ?_, fun hd => ?_⟩
    · obtain rfl := Option.some.inj hz
      exact hbyte.trans (if_pos ⟨hline.symm, hd⟩)
    · exact hbyte.trans (if_neg fun hboth => hd ⟨l, rfl, hboth.2⟩)

end

end Sys2Proof.Machine
end

section
/-! PROOFS. FLUSH and INVAL of the lines of a page (for O50). -/

namespace Sys2Proof.Machine
open Sys2Proof Sys2Proof.Safety

/-! ### Links of a page -/

theorem State.linkOpen_samePage (s : State) {a b : Nat} (h : a / 4096 = b / 4096) : s.linkOpen a = s.linkOpen b := by
  have hpeer : bits a 52 42 = bits b 52 42 := by
    unfold bits
    rw [Nat.shiftRight_eq_div_pow, Nat.shiftRight_eq_div_pow]
    omega
  have hpage : bits a 41 12 = bits b 41 12 := by
    unfold bits
    rw [Nat.shiftRight_eq_div_pow, Nat.shiftRight_eq_div_pow]
    omega
  have hroute : s.routeOf a = s.routeOf b := by
    unfold State.routeOf
    rw [hpeer, hpage]
  unfold State.linkOpen
  rw [homeOf_samePage h, hroute]

/-! ### FLUSH of a line -/

section
variable {s : State} {line : Nat}

theorem State.flushLine_open (hopen : s.linkOpen (128 * line) = true) : s.flushLine line = (s.cleanEverywhere line).l2Clean line := by
  have hlink : (s.cleanEverywhere line).linkOpen (128 * line) = true := ((s.cleanEverywhere_cleaned line).kept.link _).trans hopen
  unfold State.flushLine
  dsimp only
  rw [hlink]
  exact if_neg (by simp)

theorem flushLine_rangeKept (hopen : s.linkOpen (128 * line) = true) : RangeKept s (s.flushLine line) := by
  rw [State.flushLine_open hopen]
  exact (s.cleanEverywhere_cleaned line).kept.trans (.of_stored (State.l2Clean_stored _ line))

theorem flushLine_lines (hopen : s.linkOpen (128 * line) = true) : LinesFrom s (s.flushLine line) ∧
    (∀ p ∈ (s.flushLine line).uniLines, ∀ v ∈ p.2, ∃ q ∈ s.uniLines, v ∈ q.2) := by
  have hclean := s.cleanEverywhere_cleaned line
  obtain ⟨_, _, _, _, _, _, _, _, _, _, hrest⟩ := (s.cleanEverywhere line).l2Clean_stored line
  rw [State.flushLine_open hopen, hrest]
  exact ⟨hclean.lines, hclean.uni⟩

variable (h : Orderly s)
include h

theorem orderly_flushLine (hopen : s.linkOpen (128 * line) = true) : Orderly (s.flushLine line) := by
  rw [State.flushLine_open hopen]
  exact orderly_l2Clean (orderly_cleanEverywhere h line) line

theorem flushLine_kept (hopen : s.linkOpen (128 * line) = true) {n : Nat} (hne : n ≠ line) (hapart : KeysApart n line) : LineKept n s (s.flushLine line) := by
  rw [State.flushLine_open hopen]
  exact (cleanEverywhere_kept h.1 hne hapart).trans (l2Clean_kept (orderly_cleanEverywhere h line).1 hne)

theorem flushLine_clean (hopen : s.linkOpen (128 * line) = true) : CleanAbove (s.flushLine line) line := by
  have hclean := State.cleanEverywhere_clean (CachesSound.sorted h.1) line
  rw [State.flushLine_open hopen]
  exact LinesFrom.cleanAbove (.of_eq (State.l2Clean_stored _ line).bayLines) hclean

omit h in
theorem flushLine_slice (hopen : s.linkOpen (128 * line) = true) {z : Line} (hz : (s.flushLine line).l2Line line = some z) : z.dirty = 0 := by
  rw [State.flushLine_open hopen] at hz
  exact State.l2Clean_clean (((s.cleanEverywhere_cleaned line).kept.link _).trans hopen) hz

/-- A byte that its bays agree on stands at its home, and where a cache held it dirty in memory too. -/
theorem flushLine_byte {v a : Nat} (hopen : s.linkOpen (128 * lineOf a) = true) (hv : Agreed v a s) :
    (s.flushLine (lineOf a)).homeByte a = v ∧ (OnItsWay v a s → readByte (s.flushLine (lineOf a)).mem a = BitVec.ofNat 8 v) := by
  obtain ⟨hhome, hnone, hway⟩ := cleanEverywhere_home h hv
  have hu := orderly_cleanEverywhere h (lineOf a)
  obtain ⟨-, -, hmem⟩ := (cachesSound_iff _).mp hu.1
  obtain ⟨hdirty, hclean⟩ := readByte_l2Clean hu (((s.cleanEverywhere_cleaned (lineOf a)).kept.link _).trans hopen)
  rw [State.flushLine_open hopen]
  refine ⟨(congrFun (State.l2Clean_homeByte hmem _) a).trans hhome, fun hs => ?_⟩
  obtain hw := (hway hs).resolve_left fun ⟨x, hx⟩ => hnone x hx
  by_cases hd : (s.cleanEverywhere (lineOf a)).dirtyAt a
  · rw [hdirty hd, hhome]
  · exact (hclean hd).trans (hw.resolve_left hd)

/-! ### INVAL of a line -/

theorem orderly_masked (lo hi : Nat) : Orderly (s.masked line lo hi) := ⟨masked_sound h.1 line lo hi, h.2⟩

omit h in
theorem invalLine_rangeKept (hopen : s.linkOpen (128 * line) = true) (lo hi : Nat) : RangeKept s (s.invalLine line lo hi) := by
  have hmasked : RangeKept s (s.masked line lo hi) := ⟨rfl, rfl, fun _ => rfl⟩
  rw [State.invalLine_eq]
  exact hmasked.trans ((flushLine_rangeKept (s := s.masked line lo hi) hopen).trans ((State.dropFirstLevel_cleaned _ line).kept.trans (.of_stored (State.l2Leave_stored _ line))))

theorem orderly_invalLine (hopen : s.linkOpen (128 * line) = true) (lo hi : Nat) : Orderly (s.invalLine line lo hi) := by
  refine ⟨?_, (invalLine_rangeKept hopen lo hi).bad.trans h.2⟩
  rw [State.invalLine_eq]
  exact l2Leave_sound (dropFirstLevel_sound (orderly_flushLine (orderly_masked h lo hi) hopen).1 line) line

theorem invalLine_kept (hopen : s.linkOpen (128 * line) = true) (lo hi : Nat) {n : Nat} (hne : n ≠ line) (hapart : KeysApart n line) :
    LineKept n s (s.invalLine line lo hi) := by
  rw [State.invalLine_eq]
  exact (masked_kept s hne lo hi).trans ((flushLine_kept (orderly_masked h lo hi) hopen hne hapart).trans
    ((dropFirstLevel_kept hne _).trans (l2Leave_kept hne _)))

omit h in
/-- The first level holds no copy of the line, nor of a line that it held none of. -/
theorem invalLine_gone (hopen : s.linkOpen (128 * line) = true) (lo hi : Nat) {m : Nat} (hm : m = line ∨ GoneAbove s m) :
    GoneAbove (s.invalLine line lo hi) m := by
  have hmasked (hs : GoneAbove s m) : GoneAbove (s.masked line lo hi) m := by
    refine ⟨fun p hp v hv => ?_, hs.2⟩
    obtain ⟨q, hq, rfl⟩ := List.mem_map.mp hp
    obtain ⟨w, hw, rfl⟩ := List.mem_map.mp hv
    exact (Line.cleared_line line (outside lo hi) w).trans_ne (hs.1 q hq w hw)
  have hflushed (hs : GoneAbove s m) : GoneAbove ((s.masked line lo hi).flushLine line) m := by
    obtain ⟨hlines, huni⟩ := flushLine_lines (s := s.masked line lo hi) hopen
    refine ⟨fun p hp v hv hvm => ?_, fun p hp v hv => ?_⟩
    · obtain ⟨q, hq, -, w, hw, hwv, -⟩ := hlines p hp v hv
      exact (hmasked hs).1 q hq w hw (hwv.trans hvm)
    · obtain ⟨q, hq, hvq⟩ := huni p hp v hv
      exact (hmasked hs).2 q hq v hvq
  obtain ⟨_, _, _, _, _, _, _, _, _, _, hrest⟩ := State.l2Leave_stored (((s.masked line lo hi).flushLine line).dropFirstLevel line) line
  rw [State.invalLine_eq, hrest]
  obtain rfl | hs := hm
  · exact State.dropFirstLevel_gone _ m
  · exact (State.dropFirstLevel_cleaned _ line).gone (hflushed hs)

omit h in
theorem outside_bit {lo hi j : Nat} (hlo : lo ≤ j) (hj : j ≤ hi) (hhi : hi < 128) : (outside lo hi).getLsbD j = false := by
  have hrange : 2 ^ (hi + 1) - 2 ^ lo = (2 ^ (hi + 1 - lo) - 1) <<< lo := by
    rw [Nat.shiftLeft_eq, Nat.sub_mul, ← Nat.pow_add, Nat.one_mul]
    congr 2
    omega
  have hlt : 2 ^ (hi + 1) - 2 ^ lo < 2 ^ 128 :=
    (Nat.sub_lt (Nat.two_pow_pos _) (Nat.two_pow_pos _)).trans_le (Nat.pow_le_pow_right (by decide) (by omega))
  have hbit : (2 ^ (hi + 1) - 2 ^ lo).testBit j = true := by
    rw [hrange, Nat.testBit_shiftLeft, Nat.testBit_two_pow_sub_one]
    simp only [Bool.and_eq_true, decide_eq_true_eq]
    omega
  have hcompl : 2 ^ 128 - 1 - (2 ^ (hi + 1) - 2 ^ lo) = 2 ^ 128 - ((2 ^ (hi + 1) - 2 ^ lo) + 1) := by omega
  rw [outside, BitVec.getLsbD_ofNat, hcompl, Nat.testBit_two_pow_sub_succ hlt, hbit]
  simp

/-- No cache holds a byte of lo to hi dirty, and memory is as it was. -/
theorem masked_untouched {a lo hi : Nat} (hlo : lo ≤ a % 128) (ha : a % 128 ≤ hi) (hhi : hi < 128) :
    Untouched (readByte s.mem a) a (s.masked (lineOf a) lo hi) := by
  have hcleared {o : Option Line} (ho : ∀ l, o = some l → l.line = lineOf a) {z : Line} (hz : o.map (Line.cleared (lineOf a) (outside lo hi)) = some z) :
      z.dirty.getLsbD (a % 128) = false := by
    obtain ⟨w, hw, rfl⟩ := Option.map_eq_some_iff.mp hz
    rw [Line.cleared, if_pos (ho w hw), BitVec.getLsbD_and, outside_bit hlo ha hhi, Bool.and_false]
  refine ⟨fun v hv => ?_, fun ⟨z, hz, hd⟩ => ?_, rfl⟩
  · obtain ⟨k, b, z, hz, hd, -⟩ := (dirtyAbove_iff (orderly_masked h lo hi).1 a v).mp hv
    rw [State.bayLine_masked] at hz
    rw [hcleared (fun l hl => (bayLine_mem hl).2.2) hz] at hd
    cases hd
  · rw [State.l2Line_masked] at hz
    rw [hcleared (fun l hl => l2Line_line hl) hz] at hd
    cases hd

/-- Its slice holds no copy of the line, and the byte in memory is as it was. -/
theorem invalLine_byte {a lo hi : Nat} (hopen : s.linkOpen (128 * lineOf a) = true) (hlo : lo ≤ a % 128) (ha : a % 128 ≤ hi) (hhi : hi < 128) :
    (s.invalLine (lineOf a) lo hi).l2Line (lineOf a) = none ∧ readByte (s.invalLine (lineOf a) lo hi).mem a = readByte s.mem a := by
  have hm := orderly_masked h (line := lineOf a) lo hi
  obtain ⟨-, hat, hmem⟩ := untouched_cleanEverywhere hm (masked_untouched h hlo ha hhi)
  obtain ⟨-, hsame⟩ := readByte_l2Clean (orderly_cleanEverywhere hm (lineOf a)) ((((s.masked (lineOf a) lo hi).cleanEverywhere_cleaned (lineOf a)).kept.link _).trans hopen)
  have hflushed : readByte ((s.masked (lineOf a) lo hi).flushLine (lineOf a)).mem a = readByte s.mem a := by
    rw [State.flushLine_open (s := s.masked (lineOf a) lo hi) hopen, hsame hat, hmem]
  rw [State.invalLine_eq]
  refine ⟨State.l2Leave_none fun z hz => flushLine_slice (s := s.masked (lineOf a) lo hi) hopen hz, hflushed ▸ ?_⟩
  unfold State.l2Leave
  split
  · rfl
  · split <;> rfl

end

end Sys2Proof.Machine
end

section
/-! PROOFS. FLUSH and INVAL within a page, and the ring commands as a whole (O50). -/

namespace Sys2Proof.Machine
open Sys2Proof Sys2Proof.Safety

/-! ### Each line of a page once -/

theorem mem_linesOf {pa n l : Nat} (hn : 0 < n) : l ∈ linesOf pa n ↔ pa / 128 ≤ l ∧ l ≤ (pa + n - 1) / 128 := by
  rw [linesOf_eq hn, linesFrom]
  simp only [List.mem_map, List.mem_range]
  exact ⟨fun ⟨i, hi, hl⟩ => by omega, fun ⟨hlo, hhi⟩ => ⟨l - pa / 128, by omega, by omega⟩⟩

theorem nodup_linesOf (pa n : Nat) : (linesOf pa n).Nodup := by
  unfold linesOf
  split
  · exact List.nodup_nil
  · exact List.nodup_range.map fun i j hij => Nat.add_right_cancel hij

/-- What is done with each line of a list once leaves a line as its own step left it, and that step found it as it was at first. -/
theorem foldl_line {g : State → Nat → State} {ls : List Nat} (hnodup : ls.Nodup) {n : Nat} (hn : n ∈ ls) {I : State → Prop}
    (hI : ∀ l ∈ ls, ∀ u, I u → I (g u l)) (hkept : ∀ l ∈ ls, n ≠ l → ∀ u, I u → LineKept n u (g u l)) {s : State} (hs : I s) :
    ∃ u, I u ∧ LineKept n s u ∧ I (g u n) ∧ LineKept n (g u n) (ls.foldl g s) := by
  obtain ⟨before, after, rfl⟩ := List.append_of_mem hn
  obtain ⟨-, hafter, hbefore⟩ := List.nodup_append.mp hnodup
  obtain ⟨hnot, -⟩ := List.nodup_cons.mp hafter
  have hrun : ∀ (xs : List Nat), (∀ x ∈ xs, x ∈ before ++ n :: after ∧ n ≠ x) → ∀ u, I u → I (xs.foldl g u) ∧ LineKept n u (xs.foldl g u) :=
    fun xs hxs u hu => foldl_keeps (I := fun w => I w ∧ LineKept n u w) (fun x hx w hw =>
      ⟨hI x (hxs x hx).1 w hw.1, hw.2.trans (hkept x (hxs x hx).1 (hxs x hx).2 w hw.1)⟩) ⟨hu, .refl n u⟩
  obtain ⟨hu, hfirst⟩ := hrun before (fun x hx => ⟨List.mem_append_left _ hx, fun h => hbefore x hx n List.mem_cons_self h.symm⟩) s hs
  have hown := hI n hn _ hu
  obtain ⟨-, hlast⟩ := hrun after (fun x hx => ⟨List.mem_append_right _ (List.mem_cons_of_mem _ hx), fun h => hnot (h ▸ hx)⟩) _ hown
  refine ⟨before.foldl g s, hu, hfirst, hown, ?_⟩
  rw [List.foldl_append, List.foldl_cons]
  exact hlast

/-! ### What each command does with a line -/

/-- The part of a line that n bytes at pa take. -/
def lineLo (pa l : Nat) : Nat := if l = lineOf pa then pa % 128 else 0
def lineHi (pa n l : Nat) : Nat := if l = lineOf (pa + n - 1) then (pa + n - 1) % 128 else 127

theorem State.pageLines_eq (s : State) (f : State → Nat → Nat → Nat → State) (pa n : Nat) :
    s.pageLines f pa n = (linesOf pa n).foldl (fun s l => f s l (lineLo pa l) (lineHi pa n l)) s := rfl

theorem lineLo_le {pa a : Nat} (h : pa ≤ a) : lineLo pa (lineOf a) ≤ a % 128 := by
  unfold lineLo lineOf
  split <;> omega

theorem le_lineHi {pa n a : Nat} (h : a < pa + n) : a % 128 ≤ lineHi pa n (lineOf a) ∧ lineHi pa n (lineOf a) < 128 := by
  unfold lineHi lineOf
  split <;> omega

theorem work_cases (c : RingCmd) (s : State) (line lo hi : Nat) : c.work s line lo hi = s.flushLine line ∨ c.work s line lo hi = s.invalLine line lo hi := by
  unfold RingCmd.work
  split
  · exact .inl rfl
  · exact .inr rfl

section
variable (c : RingCmd) {s : State} {line : Nat} (hopen : s.linkOpen (128 * line) = true) (lo hi : Nat)
include hopen

theorem work_rangeKept : RangeKept s (c.work s line lo hi) := by
  obtain hw | hw := work_cases c s line lo hi <;> rw [hw]
  · exact flushLine_rangeKept hopen
  · exact invalLine_rangeKept hopen lo hi

theorem orderly_work (h : Orderly s) : Orderly (c.work s line lo hi) := by
  obtain hw | hw := work_cases c s line lo hi <;> rw [hw]
  · exact orderly_flushLine h hopen
  · exact orderly_invalLine h hopen lo hi

theorem work_kept (h : Orderly s) {n : Nat} (hne : n ≠ line) (hapart : KeysApart n line) : LineKept n s (c.work s line lo hi) := by
  obtain hw | hw := work_cases c s line lo hi <;> rw [hw]
  · exact flushLine_kept h hopen hne hapart
  · exact invalLine_kept h hopen lo hi hne hapart

end

/-! ### A page -/

/-- Orderly caches, and links as they are in s. -/
def Linked (s u : State) : Prop := Orderly u ∧ ∀ pa, u.linkOpen pa = s.linkOpen pa

/-- The bytes of a page: its links are there. -/
structure PageOpen (s : State) (pa n : Nat) : Prop where
  some : 0 < n
  fits : pa % 4096 + n ≤ 4096
  link : s.linkOpen pa = true

section
variable (c : RingCmd) {s : State} (h : Orderly s) {pa n : Nat} (hpage : PageOpen s pa n)

include hpage in
theorem pageOpen_line {l : Nat} (hl : l ∈ linesOf pa n) : s.linkOpen (128 * l) = true := by
  obtain ⟨hn, hfits, hopen⟩ := hpage
  rw [mem_linesOf hn] at hl
  exact (s.linkOpen_samePage (by omega)).trans hopen

include hpage in
theorem pageOpen_apart {l m : Nat} (hl : l ∈ linesOf pa n) (hm : m ∈ linesOf pa n) : KeysApart m l := by
  obtain ⟨hn, hfits, -⟩ := hpage
  rw [mem_linesOf hn] at hl hm
  exact keysApart_near (by omega) (by omega)

include hpage

theorem linked_work {u : State} (hu : Linked s u) {l : Nat} (hl : l ∈ linesOf pa n) (lo hi : Nat) : Linked s (c.work u l lo hi) := by
  obtain ⟨horder, hlink⟩ := hu
  have hopen : u.linkOpen (128 * l) = true := (hlink _).trans (pageOpen_line hpage hl)
  exact ⟨orderly_work c hopen lo hi horder, fun a => ((work_rangeKept c hopen lo hi).link a).trans (hlink a)⟩

include h

theorem linked_pageLines : Linked s (s.pageLines c.work pa n) :=
  foldl_keeps (I := Linked s) (fun _ hl _ hu => linked_work c hpage hu hl _ _) ⟨h, fun _ => rfl⟩

/-- A line of the page is done once, as it was found. -/
theorem pageLines_line {l : Nat} (hl : l ∈ linesOf pa n) : ∃ u, Orderly u ∧ u.linkOpen (128 * l) = true ∧ LineKept l s u ∧
    Orderly (c.work u l (lineLo pa l) (lineHi pa n l)) ∧
      LineKept l (c.work u l (lineLo pa l) (lineHi pa n l)) (s.pageLines c.work pa n) := by
  obtain ⟨u, hu, hfirst, hown, hlast⟩ := foldl_line (g := fun s l => c.work s l (lineLo pa l) (lineHi pa n l)) (nodup_linesOf pa n) hl (I := Linked s)
    (fun m hm u hu => linked_work c hpage hu hm _ _)
    (fun m hm hne u hu => work_kept c ((hu.2 _).trans (pageOpen_line hpage hm)) _ _ hu.1 hne (pageOpen_apart hpage hm hl)) ⟨h, fun _ => rfl⟩
  exact ⟨u, hu.1, (hu.2 _).trans (pageOpen_line hpage hl), hfirst, hown.1, hlast⟩

end

/-- A line is clean in every bay: so is each bay's copy. -/
theorem cleanAbove_iff {s : State} (hs : CachesSound s) (n : Nat) : CleanAbove s n ↔ ∀ k b z, s.bayLine k b n = some z → z.dirty = 0 := by
  constructor
  · intro h k b z hz
    obtain ⟨hp, hmem, hline⟩ := bayLine_mem hz
    exact h _ hp z hmem hline
  · intro h p hp z hz hline
    refine BitVec.eq_of_getLsbD_eq fun i hi => ?_
    by_contra hd
    have hdirty : z.dirty.getLsbD i = true := by simpa using hd
    have ha : (128 * n + i) % 128 = i := by omega
    obtain ⟨k, b, w, hw, hwd, -⟩ := (dirtyAbove_iff hs (128 * n + i) _).mp ⟨p, hp, z, hz, hline.trans (lineOf_add n hi).symm, by rwa [ha], rfl⟩
    rw [lineOf_add n hi] at hw
    exact dirty_ne_zero hwd (h k b w hw)

theorem agreed_of {s : State} {a v : Nat} (hall : ∀ x, DirtyAbove s a x → x = v) (hnone : (∀ x, ¬DirtyAbove s a x) → s.homeRead a 1 = v) : Agreed v a s :=
  ⟨hall, (em (∃ x, DirtyAbove s a x)).imp id fun h => hnone fun x hx => h ⟨x, hx⟩⟩

section
variable {c : RingCmd} {s : State} (h : Orderly s) {pa n : Nat} (hpage : PageOpen s pa n) {a : Nat} (hlo : pa ≤ a) (hhi : a < pa + n)
include h hpage hlo hhi

/-- FLUSH: a byte of the page is clean in every cache, and what the bays agreed on is at its home and in memory. -/
theorem flush_byte (hop : c.op = 2) : CleanAbove (s.pageLines c.work pa n) (lineOf a) ∧
    (∀ z, (s.pageLines c.work pa n).l2Line (lineOf a) = some z → z.dirty = 0) ∧
      ∀ v, Agreed v a s → (s.pageLines c.work pa n).homeByte a = v ∧
        ((∃ x, DirtyAbove s a x) ∨ s.dirtyAt a → readByte (s.pageLines c.work pa n).mem a = BitVec.ofNat 8 v) := by
  have hl : lineOf a ∈ linesOf pa n := (mem_linesOf hpage.some).mpr (by unfold lineOf; omega)
  obtain ⟨u, hu, hopen, hfirst, hown, hlast⟩ := pageLines_line c h hpage hl
  have hend := (linked_pageLines c h hpage).1
  have hflush : c.work u (lineOf a) (lineLo pa (lineOf a)) (lineHi pa n (lineOf a)) = u.flushLine (lineOf a) := if_pos hop
  rw [hflush] at hown hlast
  refine ⟨?_, fun z hz => flushLine_slice hopen (hlast.slice ▸ hz), fun v hv => ?_⟩
  · rw [cleanAbove_iff hend.1]
    simp only [hlast.bays]
    exact (cleanAbove_iff hown.1 _).mp (flushLine_clean hu hopen)
  · obtain ⟨hall, hsome⟩ := hv
    have habove := hfirst.dirtyAbove h.1 hu.1
    obtain ⟨hhome, hmem⟩ := flushLine_byte hu hopen (v := v) ⟨fun x hx => hall x ((habove x).mp hx),
      hsome.imp (fun ⟨x, hx⟩ => ⟨x, (habove x).mpr hx⟩) (hfirst.homeByte rfl).trans⟩
    refine ⟨(hlast.homeByte rfl).trans hhome, fun hway => (hlast.bytes a rfl).trans (hmem ?_)⟩
    exact hway.imp (fun ⟨x, hx⟩ => ⟨x, (habove x).mpr hx⟩) fun hd => .inl ((State.dirtyAt_of_slice hfirst.slice).mpr hd)

/-- INVAL: no cache holds a copy of the line, and a byte of the page is in memory as it was. -/
theorem inval_byte (hop : c.op = 3) : (s.pageLines c.work pa n).l2Line (lineOf a) = none ∧ GoneAbove (s.pageLines c.work pa n) (lineOf a) ∧
    readByte (s.pageLines c.work pa n).mem a = readByte s.mem a := by
  have hl : lineOf a ∈ linesOf pa n := (mem_linesOf hpage.some).mpr (by unfold lineOf; omega)
  obtain ⟨u, hu, hopen, hfirst, -, hlast⟩ := pageLines_line c h hpage hl
  have hinval (w : State) (m lo hi : Nat) : c.work w m lo hi = w.invalLine m lo hi := if_neg (by simp [hop, opFlush])
  rw [hinval] at hlast
  obtain ⟨hle, hlt⟩ := le_lineHi (n := n) hhi
  obtain ⟨hnone, hmem⟩ := invalLine_byte hu hopen (lineLo_le hlo) hle hlt
  have hgone := foldl_sets (I := Linked s) (Q := fun m w => GoneAbove w m) (f := fun w m => c.work w m (lineLo pa m) (lineHi pa n m)) (xs := linesOf pa n)
    (fun m hm w hw => linked_work c hpage hw hm _ _)
    (fun m hm w hw => by
      rw [hinval]
      exact invalLine_gone ((hw.2 _).trans (pageOpen_line hpage hm)) _ _ (.inl rfl))
    (fun m _ x hx w hw hq => by
      rw [hinval]
      exact invalLine_gone ((hw.2 _).trans (pageOpen_line hpage hx)) _ _ (.inr hq)) (s := s) ⟨h, fun _ => rfl⟩
  exact ⟨hlast.slice.trans hnone, hgone _ hl, (hlast.bytes a rfl).trans (hmem.trans (hfirst.bytes a rfl))⟩

end

/-! ### O50 -/

/-- A command's completion changes the commands and the processors alone. -/
theorem State.complete_eq_ruled (s : State) (acc status errs : Nat) : ∃ rc cps, s.complete acc status errs = s.ruled rc cps := by
  unfold State.complete
  split
  · exact ⟨s.ringCmds, s.regs.cps, rfl⟩
  · exact ⟨_, _, rfl⟩

section
variable {s : State} {c : RingCmd} {i : Instr} (h : InHand s c.acc c) (hi : Ranging c i)
  (hfirst : ¬∃ d ∈ s.ringCmds, d.ring = c.ring ∧ d.acc < c.acc ∧ d.status = none) (hlen : 0 < c.arg0.toNat)
include h hi hfirst hlen

theorem exec_unmapped {k : Kind} (hx : s.xlateFront c.ring c.addr false = .error k) : Happens s i fun t => Completed s t c.ring c.acc 8 0 := by
  refine ⟨_, exec_ranging h hi hfirst, ?_⟩
  rw [State.rangeDone, show pagesOf c.arg0.toNat = c.arg0.toNat / 4096 + 1 + 1 from rfl, State.overLines_error hlen hx]
  exact (InHand.alone h).completed rfl rfl 8 0

/-- A range within one page: its lines are done, and the command completes. -/
theorem exec_onePage {p : Place} (hx : s.xlateFront c.ring c.addr false = .ok p) (hfits : c.addr.toNat % 4096 + c.arg0.toNat ≤ 4096) :
    ∃ rc cps, exec i s = .next ((s.pageLines c.work p.pa c.arg0.toNat).ruled rc cps) ∧
      Completed s ((s.pageLines c.work p.pa c.arg0.toNat).ruled rc cps) c.ring c.acc 0 0 := by
  obtain ⟨rc, cps, heq⟩ := (s.pageLines c.work p.pa c.arg0.toNat).complete_eq_ruled c.acc 0 0
  obtain ⟨hcmds, hcps⟩ := Blind.kept (Blind.foldl (fun line => c.work_blind line _ _) (linesOf p.pa c.arg0.toNat)) s
  refine ⟨rc, cps, ?_, ?_⟩
  · rw [exec_ranging h hi hfirst, State.rangeDone, show pagesOf c.arg0.toNat = c.arg0.toNat / 4096 + 1 + 1 from rfl, State.overLines_one hlen hfits hx, ← heq]
    rfl
  · rw [← heq]
    exact (InHand.alone h).completed (u := s.pageLines c.work p.pa c.arg0.toNat) hcmds hcps 0 0

end

/-- Settles O50, command by command: what each does with its lines, its handle or its launch, and how it completes. -/
theorem ringCommandsTakeEffect : Obligations.RingCommandsTakeEffect := by
  unfold Obligations.RingCommandsTakeEffect
  intro s c p l y acc len handle earlier held oneLaunch hin
  have halone := InHand.alone hin
  have hunheld (hheld : ¬held) : s.unheld c = true := (s.unheld_iff c).mpr hheld
  refine ⟨fun hop => ?_, fun _ hfirst hlen hx hfits hsame hsound hbad hopen _ => ⟨fun hop => ?_, fun hop _ => ?_⟩,
    fun i hi hfirst hlong t ht => exec_parts hin hi hfirst hlong ht, fun _ hfirst hlen k hx => ⟨fun hop => ?_, fun hop => ?_⟩,
    fun hop hheld hfree => ?_, fun hop hheld hfree => ?_, fun hop htarget => ⟨fun hnone => ?_, fun ⟨hfound, hl⟩ hadmitted => ?_, fun ⟨hfound, hl⟩ hnew hy hne => ?_⟩,
    fun hop m htarget => ⟨fun hlive => ?_, fun hgone => ?_⟩⟩
  · refine ⟨_, execMark_completes hin hop, halone.completed rfl rfl 0 0, State.complete_mem .., State.complete_launches ..⟩
  · have hpage : PageOpen s p.pa len := ⟨hlen, by rw [hsame]; exact hfits, hopen⟩
    obtain ⟨rc, cps, hexec, hdone⟩ := exec_onePage hin (.inl ⟨hop, rfl⟩) hfirst hlen hx hfits
    refine ⟨_, hexec, hdone, fun a hlo hhi => ?_⟩
    obtain ⟨hclean, hslice, hbyte⟩ := flush_byte ⟨hsound, hbad⟩ hpage hlo hhi hop
    exact ⟨hclean, hslice, fun v hall hnone => hbyte v (agreed_of hall hnone)⟩
  · have hpage : PageOpen s p.pa len := ⟨hlen, by rw [hsame]; exact hfits, hopen⟩
    obtain ⟨rc, cps, hexec, hdone⟩ := exec_onePage hin (.inr ⟨hop, rfl⟩) hfirst hlen hx hfits
    refine ⟨_, hexec, hdone, fun a hlo hhi => ?_⟩
    obtain ⟨hnone, ⟨hbays, huni⟩, hmem⟩ := inval_byte ⟨hsound, hbad⟩ hpage hlo hhi hop
    exact ⟨hnone, fun q hq => (List.mem_append.mp hq).elim (hbays q) (huni q), hmem⟩
  · exact exec_unmapped hin (.inl ⟨hop, rfl⟩) hfirst hlen hx
  · exact exec_unmapped hin (.inr ⟨hop, rfl⟩) hfirst hlen hx
  · refine ⟨_, execBind_binds hin hop (hunheld hheld) hfree, halone.completed (u := { s with handles := tput s.handles handle c.bound }) rfl rfl 0 0,
      State.complete_mem .., ?_, fun h hne => ?_⟩
    · rw [State.complete_handles]
      exact tget_tput_same ..
    · rw [State.complete_handles]
      exact tget_tput_other _ hne _
  · refine ⟨_, execUnbind_unbinds hin hop (hunheld hheld) hfree, halone.completed (u := { s with handles := tdel s.handles handle }) rfl rfl 0 0,
      State.complete_mem .., ?_, fun h hne => ?_⟩
    · rw [State.complete_handles]
      exact (tget_tdel ..).trans (if_pos rfl)
    · rw [State.complete_handles]
      exact (tget_tdel ..).trans (if_neg hne)
  · exact ⟨_, execAbort_missing hin hop htarget hnone, halone.completed rfl rfl 7 0⟩
  · obtain ⟨-, hmem, hstatus, -, -⟩ := id hin
    have hrest := (s.aimed c.acc l.acc).postRemoved_rest l l.allQueued
    obtain ⟨hlength, -, hposted⟩ := (s.aimed c.acc l.acc).postRemoved_posts l l.allQueued
    have hone : OneLaunch s ((s.aimed c.acc l.acc).abortQueued l) l.acc l.abortedNow := State.abortQueued_oneLaunch (s := s.aimed c.acc l.acc) hl
    refine ⟨_, execAbort_admitted hin hop htarget hfound hadmitted, ?_, ?_, ⟨{ c with target := some l.acc }, ?_, rfl, hstatus, rfl⟩,
      ⟨_, hone, rfl, l.abortedNow_allQueued, fun e q hframe hq => Launch.onDie_abortedNow hframe hq⟩, hlength, fun q hq => ?_⟩
    · rw [State.abortQueued_eq, hrest]
      rfl
    · rw [State.abortQueued_eq, hrest]
      rfl
    · rw [State.abortQueued_eq, hrest]
      exact State.aimed_target hmem l.acc
    · obtain ⟨id, hz⟩ := hposted q hq
      exact ⟨_, hz, rfl, rfl, rfl, rfl, rfl, rfl⟩
  · obtain ⟨-, hmem, -, -, -⟩ := id hin
    have hyacc : y.acc = l.acc := hy.1
    have hyalone := (InHand.alone (s := s) (by rw [← hyacc] at hy; exact hy)).aimed hne l.acc
    have hfind : (s.aimed c.acc l.acc).ringCmds.find? (fun x => x.acc = l.acc) = some y := by
      rw [← hyacc] at hyalone ⊢
      exact hyalone.find?
    obtain ⟨u, hu, hends⟩ := (s.aimed c.acc l.acc).abortEarly_ends y
    have hcompleted := hyalone.endUnadmitted hu.ringCmds (congrArg Regs.cps hu.regs) 5
    refine ⟨_, (execAbort_unadmitted hin hop htarget hfound hnew hfind).trans (congrArg Host.Outcome.next hends), fun x hx => ?_, ?_, ?_⟩
    · rw [hyacc] at hx
      exact State.endUnadmitted_ended hx
    · obtain ⟨d, hd, hacc, hstatus, -⟩ := hcompleted.status y hyalone.1 rfl
      exact ⟨d, hd, hacc.trans hyacc, hstatus⟩
    · exact ⟨_, hcompleted.others _ (State.aimed_target hmem l.acc) (Ne.symm hne), rfl, rfl⟩
  · exact ⟨s, execAbort_waits hin hop htarget hlive, rfl⟩
  · exact ⟨_, execAbort_completes hin hop htarget hgone, halone.completed rfl rfl 0 0⟩

end Sys2Proof.Machine
end
